-- ==== Sys2Proof/Word.lean ====
section
/-! DEFINITION. Words: the widths the spec names and their plainest arithmetic (00_scope.md, R6 to R9). -/

namespace Sys2Proof

/-- A byte of a memory or of a wire format. -/
abbrev Byte := BitVec 8

/-- A register of the window (R48). -/
abbrev Word32 := BitVec 32

/-- A general register of a strand, a word of a cell, a 64-bit register (R72, R193, R55). -/
abbrev Word64 := BitVec 64

/-- A cell: 64 bytes, byte 0 in bits 7:0 (R185, R9). -/
abbrev Cell512 := BitVec 512

/-- Bits hi:lo of a natural number (R8). -/
def nbits (x hi lo : Nat) : Nat := (x / 2 ^ lo) % 2 ^ (hi + 1 - lo)

/-- Bits hi:lo of a word, as a number (R8). -/
def bits {n : Nat} (x : BitVec n) (hi lo : Nat) : Nat := nbits x.toNat hi lo

/-- Bit i of a word (R8). -/
def bit {n : Nat} (x : BitVec n) (i : Nat) : Bool := x.getLsbD i

/-- The mask with ones in bits hi:lo. -/
def maskOf (n hi lo : Nat) : BitVec n := BitVec.ofNat n ((2 ^ (hi + 1 - lo) - 1) * 2 ^ lo)

/-- A word with bits hi:lo replaced by a value, the other bits kept. -/
def putBits {n : Nat} (x : BitVec n) (hi lo v : Nat) : BitVec n :=
  (x &&& ~~~(maskOf n hi lo)) ||| (BitVec.ofNat n ((v % 2 ^ (hi + 1 - lo)) * 2 ^ lo))

/-- A word with bit i set or cleared. -/
def putBit {n : Nat} (x : BitVec n) (i : Nat) (b : Bool) : BitVec n := putBits x i i b.toNat

/-- A field of w bits read as a signed number. -/
def signed (w v : Nat) : Int := if v < 2 ^ (w - 1) then (v : Int) else (v : Int) - (2 : Int) ^ w

/-- The field of w bits that holds a signed number. -/
def unsigned (w : Nat) (v : Int) : Nat := (v % (2 : Int) ^ w).toNat

/-- A number held between two limits. -/
def clampI (lo hi v : Int) : Int := max lo (min hi v)

/-- A count that stops at its greatest value (the saturating counters of the register tables). -/
def satAdd (limit c n : Nat) : Nat := min limit (c + n)

end Sys2Proof
end

