-- ==== Sys2Proof/Syntax.lean ====
section
/-! DEFINITION. The commands of the block: one constructor per row of the table of operations and events, with the
operands its rule names, and the kinds of operand. -/

namespace Sys2Proof

/-- The four requesters that reach the register window (R50). -/
inductive Requester where
  | host | normal | safe | debug
  deriving DecidableEq, Repr

/-- Where a slot operation issues (R74 to R78): the lay, the strand, and the guard of its slot word: p[gp] XOR neg. -/
structure Issue where
  lay : Fin 8
  strand : Fin 16
  neg : Bool
  gp : Fin 8
  deriving DecidableEq, Repr

/-- The four slots of a bundle (R74). -/
inductive Slot where
  | a | b | mem | xu
  deriving DecidableEq, Repr


/-- A frame that a port delivers to INGEST (R212, R215, R218): the port in the order of R228, the TSU capture, the attachment
address (words 4 and 5 of the descriptor), the UDP source and destination port where the frame is a datagram, whether the
headers below UDP parse and IPv6 has not fragmented it, the UDP payload or HDLC information field, and word 7. -/
structure Frame where
  port : Fin 21
  sec : BitVec 48
  ns : BitVec 30
  addr : BitVec 128
  udp : Option (BitVec 16 × BitVec 16)
  sound : Bool
  data : List (BitVec 8)
  word7 : BitVec 64
  deriving DecidableEq, Repr


/-- What a strand finds in the text of an admitted reading (R213, R235), whose security header it reads from the cells: the system title of the
association where the frame carries none, whether the service is one of the accepted, the COSEM date-time in TSU seconds, whether it
is an interval reading, the event code of an event notification, and the registers by logical name with their values. -/
structure Reading where
  title : BitVec 64
  supported : Bool
  time : BitVec 48
  interval : Bool
  event : Option (BitVec 8)
  regs : List (BitVec 48 × BitVec 48)
  deriving DecidableEq, Repr


/-- An attribute or method a COSEM client names (R277): interface class, logical name in wire order, attribute or method number. -/
structure CosemItem where
  cls : BitVec 16
  name : BitVec 48
  index : BitVec 8
  deriving DecidableEq, Repr

/-- What a COSEM client asks (R274 to R277): an association, with what HLS mechanism 5 exchanges: the server's challenge, and the client's
security control byte, counter and GMAC; its release; a get of one or more items; an action; any other service. -/
inductive CosemService where
  | associate (challenge : List (BitVec 8)) (sc : BitVec 8) (ic : BitVec 32) (tag : BitVec 96)
  | release
  | get (items : List CosemItem)
  | action (item : CosemItem)
  | other
  deriving DecidableEq, Repr

/-- A client's request as the serving lay finds it in the frame (R274, R275), whose security header it reads from the cells: the client SAP, the
client's system title where the frame carries none, and the service. -/
structure CosemRequest where
  sap : BitVec 16
  title : BitVec 64
  service : CosemService
  deriving DecidableEq, Repr


/-- A source or destination address of a MAC frame: a short or an extended one (R373, R374). -/
structure MacAddr where
  short : Bool
  addr : BitVec 64
  deriving DecidableEq, Repr

/-- A frame that a front end of a field port hands to the MAC (R369, R383, R401, R410, R418): on a radio port the answer to RX_FETCH, its status,
RSSI or SNR, LQI, PSDU length and PSDU. On the power line status 0 says that the FCH is good; the FCS that an FCH-only acknowledgement
carries; the band, true for FCC; the modulation, 0 to 6 in the code order of R413, 8 super-robust, others outside the subset; DT, PDC and the
tone map request of the FCH; the end of the preamble in TSU ns; the extension header; the SNRs of the slots it had symbols in, in 0.25 dB. -/
structure FieldFrame where
  status : BitVec 8
  rssi : BitVec 8
  lqi : BitVec 8
  length : BitVec 16
  psdu : List (BitVec 8)
  ack : Option (BitVec 16)
  fcc : Bool
  mod : BitVec 4
  dt : BitVec 3
  pdc : BitVec 8
  tmReq : Bool
  preamble : Nat
  ext : Option (BitVec 80)
  snr : List (Fin 6 × List Int)
  deriving DecidableEq, Repr

/-- A source entry of INGEST (R224, R225, R252); credit in milli-units; ue: its word is uncorrectable (R253). -/
structure Source where
  valid : Bool
  rate : Nat
  burst : Nat
  reply : Nat
  mask : Nat
  ackKey : Nat
  addr : BitVec 128
  credit : Nat
  ue : Bool
  deriving DecidableEq, Repr

/-- A neighbour of a field port (R374, R409, R413, R414, R419, R422): flag is SLEEPY on the radio, EXT_OK on the power line; next NEXT_CTR; acked
the sequence number last acknowledged; level RSSI or SNR; last when it was last heard, in ns; dirty: NEXT_CTR not yet in its image; bad: its
word is uncorrectable (R397). Power line: LABEL, RUN, DEV_AVG in 2^-16 degree; the slot maps received and sent with their TM_ID, the one
sent before; consecutive messages that ended NO_ACK on extended frames; per slot the SNRs of the last 8 frames; the last SLOT_TMR sent; one
is due; a word of its slot maps or SNR records is uncorrectable (R421); the standard tone map it last answered with (R401). -/
structure Neigh where
  valid : Bool
  flag : Bool
  isMeter : Bool
  meter : Nat
  txMask : Nat
  short : Nat
  ext : Nat
  next : Nat
  acked : Option Nat
  lqi : Nat
  level : Nat
  last : Option Nat
  dirty : Bool
  bad : Bool
  label : Nat
  run : Nat
  dev : Nat
  extSeen : Bool
  coherent : Bool
  rxId : Nat
  rx : List Nat
  txId : Nat
  tx : List Nat
  old : Option Nat
  noAcks : Nat
  snr : List (Nat × List (List Int))
  tmrAt : Option Nat
  tmrDue : Bool
  mapBad : Bool
  tone : List (BitVec 8)
  deriving DecidableEq, Repr

/-- What a settings copy holds (R607): register images, images of registers behind a selector, the source table, neighbour tables by port. -/
structure Settings where
  regs : List (Nat × BitVec 32)
  bank : List (Nat × BitVec 64)
  sources : List (Nat × Source)
  nbs : List (Nat × List (Nat × Neigh))
  deriving DecidableEq, Repr

/-- What comes with every pair frame (R570, R571): the sender's session and frame counter, and the tag. The body is what the command's other
operands say, as the sender encrypted it. -/
structure PairHead where
  session : BitVec 32
  fctr : BitVec 64
  tag : BitVec 128
  deriving DecidableEq, Repr

/-- The body of a HELLO frame (R571). -/
structure HelloBody where
  serial : BitVec 64
  hwtype : BitVec 32
  fit : BitVec 32
  role : Fin 6
  epoch : BitVec 32
  pref : Bool
  caughtUp : Bool
  deriving DecidableEq, Repr

/-- A page that a pair frame carries (R571): its LBN, PAGE and STREAM, its metadata record and its data; target: the free target (channel × 8 +
target) that STORE takes for a block the page opens. -/
structure PairPage where
  lbn : BitVec 18
  page : BitVec 10
  stream : Fin 8
  record : List (BitVec 8)
  data : List (BitVec 8)
  target : Fin 32
  deriving DecidableEq, Repr

/-- A sensor's sample (R536): a temperature in 1/16 °C or a voltage in mV; ok: it lies in the sensor's physical range. -/
inductive SensSample where
  | temp (k : Fin 12) (v : BitVec 16) (ok : Bool)
  | volt (v : Fin 20) (mv : BitVec 12) (ok : Bool)
  deriving DecidableEq, Repr

/-- How a sensor-bus transfer ended (R679): the two bytes read; a NACK; clock stretching beyond 25 ms; SDA held low, freed by nine clocks or not. -/
inductive SbusRead where
  | value (raw : BitVec 16)
  | nack
  | stretched
  | sdaLow (freed : Bool)
  deriving DecidableEq, Repr

/-- What a host command orders (R37): a meter's MAC_FAILS cleared (R288); the plausibility window in s (R235); the period of the checkpoint
passes in s (R272); the key-store slots of a role's authentication and unicast keys (R275); the UDP port of the field mesh (R602); the programme of a point (R284); anything
else of the rigging's. -/
inductive HostOrder where
  | clearFails (meter : BitVec 20)
  | window (s : BitVec 32)
  | passPeriod (s : BitVec 32)
  | roleKeys (role : Fin 5) (auth unicast : BitVec 12)
  | meshPort (port : BitVec 16)
  | assign (point : Fin 16) (prog : Fin 64)
  | other
  deriving DecidableEq, Repr

/-- The commands of the block: one constructor per row of the table of operations and events. -/
inductive Instr where
  /-- A requester writes a window register that has no row of its own; the write takes effect or is refused and recorded (R52). -/
  | windowWrite (q : Requester) (a : BitVec 24) (wide : Bool) (be : BitVec 2) (v : BitVec 64) (t : Nat)
  /-- A read of a read-to-clear field returns its value and clears it (R12). -/
  | rcRead (q : Requester) (a : BitVec 24) (wide : Bool) (be : BitVec 8) (t : Nat)
  /-- A read of the low half of a 64-bit register returns bits 31:0 and loads the reader's latch with bits 63:32 (R56). -/
  | wideLowHalfRead (q : Requester) (a : BitVec 24) (t : Nat)
  /-- A write of the low half of a 64-bit register is checked and stored in the writer's shadow (R57). -/
  | wideLowHalfWrite (q : Requester) (a : BitVec 24) (v : BitVec 32)
  /-- A write of the high half of a 64-bit register commits it with the low half from the shadow or as it stands (R57). -/
  | wideHighHalfWrite (q : Requester) (a : BitVec 24) (v : BitVec 32) (t : Nat)
  /-- A write of BLK_CTRL.SRST starts a soft reset of the block (R64). -/
  | softReset (q : Requester) (page : BitVec 12)
  /-- A soft reset completes within 256 block cycles and SRST_BUSY returns to 0 (R64). -/
  | softResetDone (page : BitVec 12) (ok : Bool)
  /-- A write of BLK_CTRL.LOCK_REQ = 1 write-locks the page and records the locker (R65). -/
  | lockRequest (q : Requester) (page : BitVec 12)
  /-- A write of LOCK_REQ = 0 by a permitted party releases the write lock unless it is sticky (R65). -/
  | lockRelease (q : Requester) (page : BitVec 12)
  /-- A write of 1 to BLK_LOCK.STICKY makes the lock hold until chip reset (R65). -/
  | lockStickySet (q : Requester) (page : BitVec 12)
  /-- A write of BLK_OWNER.CLAIM = 1 claims a free page or updates the holder's tag (R66). -/
  | pageClaim (q : Requester) (page : BitVec 12) (tag : BitVec 16)
  /-- A write of BLK_OWNER.CLAIM = 0 by the holder or the safety context frees the page (R66). -/
  | pageClaimRelease (q : Requester) (page : BitVec 12)
  /-- A write of 1 to a BLK_IRQ_SET bit sets the matching BLK_IRQ_STAT bit as its event would (R63). -/
  | irqSet (q : Requester) (page : BitVec 12) (v : BitVec 32)
  /-- A write of BLK_ERR_INJ arms checkers to receive inverted check bits (R62). -/
  | errorInjectArm (q : Requester) (page : BitVec 12) (v : BitVec 32)
  /-- A slot executes opcode 0x00 and does nothing (R83). -/
  | nop (x : Issue) (u : Slot) (w : BitVec 28)
  /-- D receives A + B modulo 2^64 (R87). -/
  | add (x : Issue) (u : Bool) (d a b : BitVec 6)
  /-- D receives A − B modulo 2^64 (R87). -/
  | sub (x : Issue) (u : Bool) (d a b : BitVec 6)
  /-- D receives A AND B (R87). -/
  | and (x : Issue) (u : Bool) (d a b : BitVec 6)
  /-- D receives A OR B (R87). -/
  | or (x : Issue) (u : Bool) (d a b : BitVec 6)
  /-- D receives A XOR B (R87). -/
  | xor (x : Issue) (u : Bool) (d a b : BitVec 6)
  /-- D receives A AND NOT B (R87). -/
  | andn (x : Issue) (u : Bool) (d a b : BitVec 6)
  /-- D receives A shifted left by B bits 5:0 (R87). -/
  | shl (x : Issue) (u : Bool) (d a b : BitVec 6)
  /-- D receives A shifted right by B bits 5:0 with zero fill (R87). -/
  | shr (x : Issue) (u : Bool) (d a b : BitVec 6)
  /-- D receives A shifted right by B bits 5:0 with sign fill (R87). -/
  | sar (x : Issue) (u : Bool) (d a b : BitVec 6)
  /-- D receives A rotated right by B bits 5:0 (R87). -/
  | ror (x : Issue) (u : Bool) (d a b : BitVec 6)
  /-- D receives A or B according to a predicate (R87). -/
  | sel (x : Issue) (u : Bool) (d a b : BitVec 6) (p : BitVec 3)
  /-- D receives the unsigned smaller of A and B (R87). -/
  | minu (x : Issue) (u : Bool) (d a b : BitVec 6)
  /-- D receives the unsigned larger of A and B (R87). -/
  | maxu (x : Issue) (u : Bool) (d a b : BitVec 6)
  /-- D receives the signed smaller of A and B (R87). -/
  | mins (x : Issue) (u : Bool) (d a b : BitVec 6)
  /-- D receives the signed larger of A and B (R87). -/
  | maxs (x : Issue) (u : Bool) (d a b : BitVec 6)
  /-- D receives A plus the sign-extended immediate (R87). -/
  | addi (x : Issue) (u : Bool) (d a : BitVec 6) (imm : BitVec 10)
  /-- D receives A AND the immediate (R87). -/
  | andi (x : Issue) (u : Bool) (d a : BitVec 6) (imm : BitVec 10)
  /-- D receives A OR the immediate (R87). -/
  | ori (x : Issue) (u : Bool) (d a : BitVec 6) (imm : BitVec 10)
  /-- D receives A XOR the immediate (R87). -/
  | xori (x : Issue) (u : Bool) (d a : BitVec 6) (imm : BitVec 10)
  /-- D receives A shifted left by an immediate count (R87). -/
  | shli (x : Issue) (u : Bool) (d a : BitVec 6) (n : BitVec 6)
  /-- D receives A shifted right by an immediate count with zero fill (R87). -/
  | shri (x : Issue) (u : Bool) (d a : BitVec 6) (n : BitVec 6)
  /-- D receives A shifted right by an immediate count with sign fill (R87). -/
  | sari (x : Issue) (u : Bool) (d a : BitVec 6) (n : BitVec 6)
  /-- D receives A rotated right by an immediate count (R87). -/
  | rori (x : Issue) (u : Bool) (d a : BitVec 6) (n : BitVec 6)
  /-- D receives the zero-extended 16-bit immediate (R87). -/
  | movz (x : Issue) (u : Bool) (d : BitVec 6) (imm : BitVec 16)
  /-- Bits 15:0 of D receive the immediate, other bits kept (R87). -/
  | movk0 (x : Issue) (u : Bool) (d : BitVec 6) (imm : BitVec 16)
  /-- Bits 31:16 of D receive the immediate, other bits kept (R87). -/
  | movk1 (x : Issue) (u : Bool) (d : BitVec 6) (imm : BitVec 16)
  /-- Bits 47:32 of D receive the immediate, other bits kept (R87). -/
  | movk2 (x : Issue) (u : Bool) (d : BitVec 6) (imm : BitVec 16)
  /-- Bits 63:48 of D receive the immediate, other bits kept (R87). -/
  | movk3 (x : Issue) (u : Bool) (d : BitVec 6) (imm : BitVec 16)
  /-- D receives the bytes of A reversed over 8, 4 or 2 bytes (R87). -/
  | bswap (x : Issue) (u : Bool) (d a : BitVec 6) (m : Fin 3)
  /-- D receives the number of leading zero bits of A (R87). -/
  | clz (x : Issue) (u : Bool) (d a : BitVec 6)
  /-- D receives the number of 1 bits in A (R87). -/
  | popc (x : Issue) (u : Bool) (d a : BitVec 6)
  /-- PD receives A = B (R87). -/
  | cmpeq (x : Issue) (u : Bool) (pd : BitVec 3) (a b : BitVec 6)
  /-- PD receives A ≠ B (R87). -/
  | cmpne (x : Issue) (u : Bool) (pd : BitVec 3) (a b : BitVec 6)
  /-- PD receives unsigned A < B (R87). -/
  | cmpltu (x : Issue) (u : Bool) (pd : BitVec 3) (a b : BitVec 6)
  /-- PD receives signed A < B (R87). -/
  | cmplts (x : Issue) (u : Bool) (pd : BitVec 3) (a b : BitVec 6)
  /-- PD receives unsigned A ≤ B (R87). -/
  | cmpleu (x : Issue) (u : Bool) (pd : BitVec 3) (a b : BitVec 6)
  /-- PD receives signed A ≤ B (R87). -/
  | cmples (x : Issue) (u : Bool) (pd : BitVec 3) (a b : BitVec 6)
  /-- PD receives A equal to the immediate (R87). -/
  | cmpeqi (x : Issue) (u : Bool) (pd : BitVec 3) (a : BitVec 6) (imm : BitVec 10)
  /-- PD receives A not equal to the immediate (R87). -/
  | cmpnei (x : Issue) (u : Bool) (pd : BitVec 3) (a : BitVec 6) (imm : BitVec 10)
  /-- PD receives unsigned A below the sign-extended immediate (R87). -/
  | cmpltui (x : Issue) (u : Bool) (pd : BitVec 3) (a : BitVec 6) (imm : BitVec 10)
  /-- PD receives signed A below the immediate (R87). -/
  | cmpltsi (x : Issue) (u : Bool) (pd : BitVec 3) (a : BitVec 6) (imm : BitVec 10)
  /-- PD receives the bit of A that the immediate names (R87). -/
  | tbit (x : Issue) (u : Bool) (pd : BitVec 3) (a : BitVec 6) (n : BitVec 6)
  /-- PD receives PA AND PB (R87). -/
  | pand (x : Issue) (u : Bool) (pd p1 p2 : BitVec 3)
  /-- PD receives PA OR PB (R87). -/
  | por (x : Issue) (u : Bool) (pd p1 p2 : BitVec 3)
  /-- PD receives PA XOR PB (R87). -/
  | pxor (x : Issue) (u : Bool) (pd p1 p2 : BitVec 3)
  /-- D receives the low 64 bits of A × B after 3 cycles (R88). -/
  | mul (x : Issue) (d a b : BitVec 6)
  /-- D receives the high 64 bits of the unsigned product (R88). -/
  | mulhu (x : Issue) (d a b : BitVec 6)
  /-- D receives the high 64 bits of the signed product (R88). -/
  | mulhs (x : Issue) (d a b : BitVec 6)
  /-- D receives the device-wide strand number and the current variant (R88). -/
  | sid (x : Issue) (d : BitVec 6)
  /-- An unsigned division starts and writes D after 34 cycles (R90). -/
  | divu (x : Issue) (d a b : BitVec 6)
  /-- A signed division starts and writes D after 34 cycles (R90). -/
  | divs (x : Issue) (d a b : BitVec 6)
  /-- An unsigned remainder starts and writes D after 34 cycles (R90). -/
  | remu (x : Issue) (d a b : BitVec 6)
  /-- A signed remainder starts and writes D after 34 cycles (R90). -/
  | rems (x : Issue) (d a b : BitVec 6)
  /-- A branch to TARGET, followed by two empty issue cycles (R79). -/
  | br (x : Issue) (target : BitVec 13)
  /-- A branch that writes the return address to D (R89). -/
  | brl (x : Issue) (d : BitVec 6) (target : BitVec 13)
  /-- A branch to the address in register A (R89). -/
  | brr (x : Issue) (a : BitVec 6)
  /-- A checkpoint compares the turn cycle of issue with IMM16 and raises CHK on mismatch (R92). -/
  | chk (x : Issue) (imm : BitVec 16)
  /-- The strand ends its work for the turn and issues nothing until the next boundary (R80). -/
  | tend (x : Issue)
  /-- A one-byte zero-extended load (R93). -/
  | ld8u (x : Issue) (d a : BitVec 6) (imm : BitVec 10)
  /-- A two-byte zero-extended load (R93). -/
  | ld16u (x : Issue) (d a : BitVec 6) (imm : BitVec 10)
  /-- A four-byte zero-extended load (R93). -/
  | ld32u (x : Issue) (d a : BitVec 6) (imm : BitVec 10)
  /-- A four-byte sign-extended load (R93). -/
  | ld32s (x : Issue) (d a : BitVec 6) (imm : BitVec 10)
  /-- An eight-byte load (R93). -/
  | ld64 (x : Issue) (d a : BitVec 6) (imm : BitVec 10)
  /-- A sixteen-byte load into a register pair (R93). -/
  | ld128 (x : Issue) (d a : BitVec 6) (imm : BitVec 10)
  /-- A one-byte store (R93). -/
  | st8 (x : Issue) (d a : BitVec 6) (imm : BitVec 10)
  /-- A two-byte store (R93). -/
  | st16 (x : Issue) (d a : BitVec 6) (imm : BitVec 10)
  /-- A four-byte store (R93). -/
  | st32 (x : Issue) (d a : BitVec 6) (imm : BitVec 10)
  /-- An eight-byte store (R93). -/
  | st64 (x : Issue) (d a : BitVec 6) (imm : BitVec 10)
  /-- A sixteen-byte store from a register pair (R93). -/
  | st128 (x : Issue) (d a : BitVec 6) (imm : BitVec 10)
  /-- A pop of a splice into an octet; a not-valid cell from an empty splice raises POP_EMPTY (R101). -/
  | pope (x : Issue) (oct : BitVec 3) (n : BitVec 13)
  /-- A pop of a splice into an octet that raises nothing on a not-valid cell (R101). -/
  | popo (x : Issue) (oct : BitVec 3) (n : BitVec 13)
  /-- POPE with the splice number from a register (R94). -/
  | poper (x : Issue) (oct : BitVec 3) (a : BitVec 6)
  /-- POPO with the splice number from a register (R94). -/
  | popor (x : Issue) (oct : BitVec 3) (a : BitVec 6)
  /-- An octet is pushed as a cell and commits two cycles after issue (R102). -/
  | push (x : Issue) (oct : BitVec 3) (n : BitVec 13)
  /-- PUSH with the splice number from a register (R94). -/
  | pushr (x : Issue) (oct : BitVec 3) (a : BitVec 6)
  /-- PD receives the splice's empty flag as its consumer sees it (R94). -/
  | semp (x : Issue) (pd : BitVec 3) (n : BitVec 13)
  /-- PD receives the splice's full flag as its producer sees it (R94). -/
  | sfull (x : Issue) (pd : BitVec 3) (n : BitVec 13)
  /-- A key load from a direct key-store slot is requested over the key port (R107). -/
  | klds (x : Issue) (k : BitVec 2) (a : BitVec 6)
  /-- A derived meter-key load is requested over the key port (R107). -/
  | kldd (x : Issue) (k : BitVec 2) (a b : BitVec 6)
  /-- A wrapped-blob key load is requested over the key port (R107). -/
  | kldw (x : Issue) (k : BitVec 2) (oct : BitVec 3)
  /-- The key port answers a pending load and the register leaves PENDING with its outcome (R468). -/
  | keyLoadDone (lay : Fin 8)
  /-- D receives the status of a key register (R110). -/
  | kst (x : Issue) (k : BitVec 2) (d : BitVec 6)
  /-- A key register is erased and set EMPTY, cancelling any pending load (R707). -/
  | kclr (x : Issue) (k : BitVec 2)
  /-- A full AES encryption of a block under a READY key register (R111). -/
  | aesb (x : Issue) (k : BitVec 2) (d a : BitVec 6)
  /-- A GF(2^128) multiplication as in GHASH (R114). -/
  | gmul (x : Issue) (d a b : BitVec 6)
  /-- A CRC-16 state is advanced over up to 8 bytes (R115). -/
  | crc16 (x : Issue) (d a b : BitVec 6) (n : BitVec 3)
  /-- A CRC-32 state is advanced over up to 8 bytes (R115). -/
  | crc32 (x : Issue) (d a b : BitVec 6) (n : BitVec 3)
  /-- ACC gains the unsigned product A × B (R116). -/
  | macu (x : Issue) (a b : BitVec 6)
  /-- ACC gains the signed product A × B (R116). -/
  | macs (x : Issue) (a b : BitVec 6)
  /-- ACC is cleared (R116). -/
  | macz (x : Issue)
  /-- D receives ACC bits 63:0 (R116). -/
  | macrl (x : Issue) (d : BitVec 6)
  /-- D receives ACC bits 127:64 (R116). -/
  | macrh (x : Issue) (d : BitVec 6)
  /-- Each lay cycle the strand scrubbers read and correct one instruction-memory and one data-memory word (R122). -/
  | strandScrub (lay : Fin 8) (strand : Fin 16)
  /-- A write of STR_DBG_DATA sets the selected register of a FROZEN strand (R125). -/
  | debugDataWrite (q : Requester) (lay : Fin 8) (strand : Fin 16) (v : BitVec 64)
  /-- At the end of a turn the lay forms its out-set, selects a variant or enters HELD, and starts the next turn (R168). -/
  | turnBoundary (lay : Fin 8)
  /-- A lay step of COUNT cycles ends and the lay freezes again (R651). -/
  | dbgStepEnd (lay : Fin 8)
  /-- A strand reaches an armed breakpoint bundle and its lay freezes (R649). -/
  | layBreakpointFreeze (lay : Fin 8)
  /-- At the end of each 10 µs window the lay clock count is compared with floor and ceiling (R146). -/
  | clockMonitorWindow (lay : Fin 8) (count : Nat)
  /-- A committed cell or freed space becomes visible at the far end of a synchronised splice (R199). -/
  | crossDomainVisibility (n : BitVec 13) (freed : Bool)
  /-- A DDR frame slot starts and its owner's oldest visible request is taken (R139). -/
  | ddrSlot (slot : BitVec 12)
  /-- A DDR burst completes and its completion cells are committed (R141). -/
  | ddrBurstComplete
  /-- A PKE frame slot starts and takes a request of its owner (R144). -/
  | pkeSlot (slot : Fin 20)
  /-- A six-cell ECDSA verification request from a lay is taken by the PKE (R478). -/
  | pkeVerifyRequest (lay : Fin 8)
  /-- The PKE commits the completion cell of a lay verification (R478). -/
  | pkeVerifyComplete
  /-- A write of LAY_CTRL.ARM = 1 takes a LOADED lay to ARMED (R179). -/
  | layArm (q : Requester) (lay : Fin 8)
  /-- A write of ARM = 0 returns an ARMED lay to LOADED (R179). -/
  | layDisarm (q : Requester) (lay : Fin 8)
  /-- A write of LAY_CTRL.GO sends a start strobe to every ARMED lay and the slot frames (R164). -/
  | layGo (q : Requester) (lay : Fin 8) (arm : Bool)
  /-- A write of LAY_CTRL.STOP makes the lay stop at its next turn boundary (R165). -/
  | layStop (q : Requester) (lay : Fin 8)
  /-- A write of LAY_CTRL.RESUME restarts a HELD lay at the next boundary (R174). -/
  | layResume (q : Requester) (lay : Fin 8)
  /-- A write of LAY_RETURN.GO returns one strand of the out-set at the next boundary (R173). -/
  | layReturn (q : Requester) (lay : Fin 8) (strand : Fin 16)
  /-- A read of LAY_LD_DATA reads 8 bytes of the selected target and advances the address (R182). -/
  | loadPortRead (q : Requester) (lay : Fin 8)
  /-- A commit of LAY_LD_DATA writes 8 bytes of the selected target and advances the address (R182). -/
  | loadPortWrite (q : Requester) (lay : Fin 8) (v : BitVec 64)
  /-- In a wheel cycle with no grant the lay-memory scrubber corrects one word of the bank (R155). -/
  | layMemScrub (lay : Fin 8) (bank : Fin 8)
  /-- The Lanyard checks a rigging image and loads it, or reports the failed check (R161). -/
  | riggingLoad (fromDdr : Bool) (addr len : Nat)
  /-- DRAINED arrives during a replacement and the Lanyard stops, loads, starts and reopens (R166). -/
  | riggingReplaceDrained
  /-- DRAINED has not come within the bound, so the replacement is abandoned with NOT_DRAINED (R166). -/
  | riggingReplaceTimeout
  /-- A write of SPD_CFG empties the splice and sets its region, or is refused (R192). -/
  | spliceConfigWrite (q : Requester) (n : BitVec 13) (v : BitVec 32)
  /-- A write of SPD_ENDS sets the splice's ends, refused if it breaks agreement with KIND (R711). -/
  | spliceEndsWrite (q : Requester) (n : BitVec 13) (v : BitVec 32)
  /-- A fixed-function producer, the Lanyard or a ring commits a held cell once its view shows space (R196). -/
  | blockCommit (n : BitVec 13)
  /-- Each cycle a splice end compares its true and complemented pointer copies (R201). -/
  | pointerCheck (n : BitVec 13) (producer : Bool)
  /-- Each SYS cycle the pool scrubber reads and corrects one word of a free bank (R204). -/
  | poolScrub (busy : Option (Fin 16))
  /-- A write of SPL_FLUSH.GO empties an idle splice (R207). -/
  | spliceFlush (q : Requester) (n : BitVec 13)
  /-- A read of SPL_PEEK_DATA returns the addressed pool word corrected (R210). -/
  | poolPeek (q : Requester)
  /-- A lay applies a command popped from a host-facing splice and pushes a completion cell (R37). -/
  | hostCommand (ring reply : Fin 64) (order : HostOrder)
  /-- INGEST classifies a delivered frame and discards, refuses or admits and deals it (R228). -/
  | frameAdmission (f : Frame) (t : Nat)
  /-- A write of INGEST BLK_CTRL.EN = 1 fixes the refill phase and reseeds the retry generator (R225). -/
  | ingestEnable (q : Requester) (t : Nat)
  /-- Every 1 ms each source's credit bucket gains RATE, capped at BURST (R225). -/
  | creditRefill
  /-- Every 10 s the retry generator is reseeded from the TRNG (R230). -/
  | ingestReseed
  /-- A write of ING_CTRL.OPEN_SEQ starts the class opening sequence (R231). -/
  | openSeq (q : Requester)
  /-- ING_OPEN_STEP ms after the previous class opens, the next class in the order opens (R231). -/
  | classOpenStep
  /-- A write of CLOSE_ALL closes every class at the next decision (R231). -/
  | closeAll (q : Requester)
  /-- A write of OPEN_ALL clears CLOSE_ALL and opens classes 1 to 6 at once (R251). -/
  | openAll (q : Requester)
  /-- A port reports an acknowledgement's INGRESS_SEQ and INGEST measures its latency and lowers ING_OUTSTANDING (R245). -/
  | ackReport (seq : BitVec 32) (t : Nat)
  /-- Every 100 µs INGEST counts as late each ring entry older than the limit (R245). -/
  | lateScan (t : Nat)
  /-- A write of ING_SRC_SEL.COMMIT applies the shadow to a source entry (R252). -/
  | sourceCommit (q : Requester) (source : BitVec 12)
  /-- A write of ING_SRC_SEL.LOAD fills the shadow from a source entry (R251). -/
  | sourceLoad (q : Requester) (source : BitVec 12)
  /-- An ingest lay unwraps an admitted reading, runs the validation checks and builds its record (R235). -/
  | readingValidate (lay : Fin 8) (strand : Fin 16) (r : Reading) (overlaps : Bool) (spot : BitVec 34) (bal : BitVec 13) (t : Nat)
  /-- The storing lay commits a reading's acknowledgement cell once its page completions are visible (R240). -/
  | ackCommit (lay : Fin 8) (seq : BitVec 32) (lbn : BitVec 18) (page : BitVec 10) (idx : BitVec 8) (n : BitVec 13) (t : Nat)
  /-- A port consumes an acknowledgement cell and acts on it by reply mode (R242). -/
  | ackCellConsumed (port : Fin 21) (spl : BitVec 13) (t : Nat)
  /-- The storing lay pops a readout query and answers with record messages and an end cell (R246). -/
  | query (ring reply : Fin 64)
  /-- The Lanyard checks entry images and has METERDB write their regions and index slots (R268). -/
  | rosterWrite (images : List (BitVec 20 × BitVec 3 × List (BitVec 8)))
  /-- A write of MDB_RD_CMD.GO reads the selected regions consistently into MDB_RD_BUF (R267). -/
  | mdbHostRead (q : Requester) (idx : BitVec 20) (regions : BitVec 3)
  /-- A write of MDB_WR_CMD.GO writes one entry image (R293). -/
  | mdbSingleWrite (q : Requester) (idx : BitVec 20) (regions : BitVec 3)
  /-- A write of MDB_BULK_CMD.GO loads entry images from a DDR buffer (R271). -/
  | mdbBulkLoad (q : Requester) (heads : List (BitVec 20 × BitVec 3))
  /-- A write of MDB_BULK_CMD.ABORT stops a bulk load after the image in progress (R293). -/
  | mdbBulkAbort (q : Requester) (done : BitVec 21)
  /-- A METERDB command completes, BUSY clears and its interrupt is set (R293). -/
  | mdbCommandDone (which : Fin 3) (tries : BitVec 24)
  /-- At its period the storing lay starts a checkpoint pass of the meter table to NAND (R272). -/
  | checkpointPass (req comp : BitVec 13)
  /-- The meter table is reloaded from the checkpoint and rolled forward over stored records (R273). -/
  | tableReload
  /-- The serving lay answers a client request carried by the host for the device's own objects (R277). -/
  | cosemRequest (ring reply : Fin 64) (r : CosemRequest) (t : Nat)
  /-- An association ends after 120 s without a request (R274). -/
  | associationTimeout (session : Fin 64) (t : Nat)
  /-- The Lanyard writes a role's next counter reservation limit and answers the serving lay (R276). -/
  | roleReservation (role : Fin 5) (start : Bool) (fails : Fin 3)
  /-- A host command loads a tariff programme into DDR after its checks (R282). -/
  | tariffLoad (ring reply : Fin 64) (image : List (BitVec 8))
  /-- Every hour and on change the Lanyard expands assigned programmes into switch times for TOTALS (R284). -/
  | switchListRefill (p : Fin 16) (t : Nat)
  /-- A host command starts the distribution of a programme to meters (R285). -/
  | tariffDistribution (ring reply : Fin 64) (prog : Fin 64) (meters : Option (List (BitVec 20))) (start : BitVec 48) (len : BitVec 20) (act : BitVec 48)
  /-- The field-service lay sends a meter its calendar at its scheduled time or retry (R285). -/
  | tariffSend (meter : BitVec 20) (pduFits : Bool) (answer : Option Bool) (ring : Fin 64) (out : BitVec 13) (t : Nat)
  /-- A meter silent for 60 s is retried or marked failed (R285). -/
  | tariffResponseTimeout (meter : BitVec 20) (ring : Fin 64) (t : Nat)
  /-- The field-service lay checks an Ilueno token and updates the ledger on acceptance (R288). -/
  | tokenRedeem (meter : BitVec 20) (strings : List (List (BitVec 8))) (ring : Fin 64) (out : BitVec 13) (t : Nat)
  /-- A credit action without answer for 60 s is reported to the host (R290). -/
  | creditActionTimeout (meter : BitVec 20) (result : Option (BitVec 8)) (ring : Fin 64) (t : Nat)
  /-- Each 31.25 µs every enabled channel yields a decimated, corrected sample that is accumulated (R302). -/
  | measSample (xs : List (Fin 128 × BitVec 780)) (t : Nat)
  /-- A bitstream without transitions for 1,024 MCLK cycles is marked stuck (R301). -/
  | channelStuck (c : Fin 128)
  /-- Once per second the measurement PLL ratio is trimmed by the TSU frequency estimate (R297). -/
  | syntTrim
  /-- A write of MEAS BLK_CTRL.EN = 1 starts the filters (R317). -/
  | measEnable (q : Requester) (t : Nat)
  /-- Accumulation begins at the first second boundary at least 40 ms after the filters start (R317). -/
  | measSettled (t : Nat)
  /-- At the first sample after a second boundary MEAS converts the second's sums and TOTALS books them (R315). -/
  | oneSecondTransfer (t : Nat)
  /-- A totals copy write completes and is read back and compared (R321). -/
  | totalsCopyWritten (fails : Fin 3)
  /-- MEAS pushes a point summary cell per enabled point after the copy completes (R327). -/
  | intervalValuePush
  /-- TOTALS sends a snapshot message per enabled point after each complete copy (R328). -/
  | snapshotMessage
  /-- A scheduled pulse starts on its ball at its offset (R330). -/
  | pulseStart (p : Fin 16) (t : Nat)
  /-- A pulse ends after its width (R330). -/
  | pulseEnd (p : Fin 16) (t : Nat)
  /-- A write of PUL_CFG_p changes the output at the next transfer and claims or releases its ball (R331). -/
  | pulseConfigWrite (q : Requester) (p : Fin 16) (v : BitVec 32)
  /-- A write of MP_COMMIT.GO stages the point's coefficients for the next transfer (R305). -/
  | mpCommit (q : Requester) (p : Fin 16)
  /-- A write of TOT_CLEAR.GO zeroes the selected points' totals at the next transfer (R326). -/
  | totClear (q : Requester) (mask : BitVec 16)
  /-- A write of TOT_SEL.SNAP loads a total or maximum from the newer complete copy (R340). -/
  | totSnap (q : Requester) (p : Fin 16) (index : Fin 90)
  /-- A commit of TOT_SW_DATA writes a switch-list entry and advances the index (R340). -/
  | totSwitchWrite (q : Requester) (v : BitVec 64)
  /-- A write of TOT_DM_CFG sets demand parameters and restarts DM_COUNT (R340). -/
  | totDmConfig (q : Requester) (sub : BitVec 16) (n : BitVec 8)
  /-- At each line cycle MEAS evaluates phasors and sets or clears detected events (R333). -/
  | lineCycle (p : Fin 16) (t : Nat)
  /-- The balance lay apportions a meter's energy contribution over balance intervals (R350). -/
  | contributionCell (n : BitVec 13)
  /-- The Lanyard sends a close order and the balance lay closes the interval (R352). -/
  | closeOrder (k : BitVec 32) (lost : List (BitVec 16 × Bool)) (us : BitVec 32)
  /-- An interval mark arriving with an older interval still open forces its close (R352). -/
  | forcedClose (n : BitVec 13) (us : BitVec 32)
  /-- An ingest lay pops a closure notice and marks later records LATE (R351). -/
  | closureNotice (lay : Fin 8)
  /-- A balance command declares or changes a node (R347). -/
  | nodeDecl (ring reply : Fin 64)
  /-- A balance command removes a node without child nodes (R346). -/
  | nodeRemove (ring reply : Fin 64)
  /-- A balance command clears the estimator state of one or all nodes (R347). -/
  | nodeReset (ring reply : Fin 64)
  /-- A balance command returns a node record in four cells (R348). -/
  | nodeRead (ring reply : Fin 64)
  /-- Each turn the balance lay pushes up to 8 report cells while SFULL reads 0 (R363). -/
  | reportPush (n : BitVec 13)
  /-- The Lanyard takes a balance status cell and updates the BAL page (R363). -/
  | balanceStatus
  /-- No status cell within 10 s of a close order sets NO_STATUS (R366). -/
  | balNoStatus (t : Nat)
  /-- A write of BAL_CTRL.COMMIT delivers the balance parameters for the next close (R366). -/
  | balCommit (q : Requester) (reportAll hold : Bool)
  /-- A write of RADIO BLK_CTRL.EN releases the transceiver reset (R368). -/
  | radioEnable (q : Requester) (n : Fin 4)
  /-- While IRQ_N is low the port sends STATUS and serves each cause (R370). -/
  | transceiverIrq (n : Fin 4) (cause : BitVec 8) (low : Bool)
  /-- No TX_DONE within 100 ms of TX_START resets the transceiver (R370). -/
  | txDoneTimeout (n : Fin 4) (t : Nat)
  /-- No CCA_DONE within LBT_US + 1 ms resets the transceiver (R370). -/
  | ccaTimeout (n : Fin 4) (t : Nat)
  /-- The TSU captures a transceiver time strobe (R371). -/
  | timeStrobe (n : Fin 4) (t : Nat)
  /-- A MAC frame fetched from a radio or power-line front end is checked, deciphered, reassembled and acknowledged (R383). -/
  | fieldFrameReceived (m : Fin 7) (f : FieldFrame) (t : Nat)
  /-- An owed acknowledgement is sent ACK_TURN_US after the frame without CSMA (R383). -/
  | macAckSend (m : Fin 7) (t : Nat)
  /-- A reassembly buffer not completed within REASM_S is freed (R384). -/
  | reassemblyTimeout (m : Fin 7) (t : Nat)
  /-- A write of the neighbour select COMMIT applies the shadow to a neighbour entry (R375). -/
  | neighbourCommit (q : Requester) (m : Fin 7) (idx : BitVec 12)
  /-- A write of the neighbour select LOAD fills the shadow from an entry (R396). -/
  | neighbourLoad (q : Requester) (m : Fin 7) (idx : BitVec 12)
  /-- Once per second changed NEXT_CTR values are written to the ferroelectric store (R380). -/
  | counterImageFlush (m : Fin 7) (ok : Bool)
  /-- A new outgoing counter reservation limit is written and read back (R381). -/
  | txctrReserve (m : Fin 7) (fails : Fin 3)
  /-- A write of the TXCTR_RST.GO resets the outgoing counter and its reservation (R382). -/
  | txctrReset (q : Requester) (m : Fin 7)
  /-- A MAC pops a transmit message and sends, holds or ends it (R386). -/
  | transmitMessage (n : BitVec 13) (t : Nat)
  /-- A backoff ends and a clear-channel assessment is made (R389). -/
  | backoffExpiry (m : Fin 7) (t : Nat)
  /-- A clear-channel result sends the frame or backs off again (R389). -/
  | ccaResult (m : Fin 7) (energy : BitVec 8) (busy : Bool) (t : Nat)
  /-- The front end reports a frame sent and the acknowledgement wait starts (R390). -/
  | txDone (m : Fin 7) (t : Nat)
  /-- No acknowledgement within ACK_WAIT_US resends the frame or ends the message NO_ACK (R390). -/
  | ackWaitTimeout (m : Fin 7) (t : Nat)
  /-- A message ends with one status cell to its lay (R391). -/
  | txStatusCell (m : Fin 15)
  /-- A held indirect message reaching IND_TTL ends EXPIRED (R393). -/
  | indirectExpiry (n : Fin 4) (t : Nat)
  /-- A write of RAD_XREG.GO performs one transceiver register access (R396). -/
  | xregAccess (q : Requester) (n : Fin 4) (write : Bool) (addr : BitVec 16) (data : BitVec 8)
  /-- Every 10 s the channel-access generator is reseeded (R389). -/
  | macReseed (m : Fin 7)
  /-- A deglitched rising ZC_n edge is time-stamped and updates the mains period (R400). -/
  | zeroCrossingEdge (phase : Fin 3) (t : Nat)
  /-- A phase without an edge for 3 periods is marked lost (R400). -/
  | zeroCrossingLoss (phase : Fin 3) (t : Nat)
  /-- Every PERIOD_MS the PLC sends a beacon on all three front ends, or skips it (R403). -/
  | beaconSend (receiving : Bool) (t : Nat)
  /-- START_S seconds after enable the PLC start-up period ends (R407). -/
  | plcStartupEnd (t : Nat)
  /-- The device sends a peer its computed slot map (R414). -/
  | slotTmrSend (phase : Fin 3) (idx : BitVec 11) (t : Nat)
  /-- At each interval boundary the TSU pushes an interval-mark cell to each subscribed splice (R440). -/
  | intervalMark (t : Nat)
  /-- At each TSU second boundary the PPS output rises (R457). -/
  | tsuSecondBoundary (t : Nat)
  /-- The PPS output falls after its set width (R457). -/
  | ppsPulseEnd (t : Nat)
  /-- A stamped PTP message reaches the Lanyard for its 1588 protocol (R433). -/
  | ptpMessageReceived (port : Fin 6) (overUdp : Bool) (mac : BitVec 48) (msg : List (BitVec 8)) (t : Nat)
  /-- The Lanyard sends a PTP message, completed at egress in one-step mode (R436). -/
  | ptpMessageSend (port : Fin 6) (msg : List (BitVec 8)) (late : Bool) (t : Nat)
  /-- The servo takes a measured offset and slews, steps forward or refuses (R429). -/
  | ptpOffsetMeasurement (o : BitVec 64) (port : Fin 8) (freq : Option (BitVec 32)) (t : Nat)
  /-- Three announce intervals or three seconds without the source clear LOCKED (R427). -/
  | ptpSourceLoss
  /-- A write of TSU_SLEW loads the correction to be absorbed (R428). -/
  | tsuSlewWrite (q : Requester) (v : BitVec 32) (t : Nat)
  /-- The slew remainder reaches 0 and σ returns to 0 (R428). -/
  | slewDone (t : Nat)
  /-- A write of TSU_STEP_CTL.GO steps TSU time by TSU_STEP (R431). -/
  | tsuStep (q : Requester) (t : Nat)
  /-- An enabled edge on a capture source writes TSU_CAP_k or sets OVR (R437). -/
  | captureEdge (src : BitVec 8) (rising : Bool) (t : Nat)
  /-- The RTC fraction wraps into the seconds, stepping the weekday and firing the alarm when due (R448). -/
  | rtcSecondCarry (t : Nat)
  /-- A write of RTC_CTRL.HALT = 1 stops counting (R446). -/
  | rtcHalt (q : Requester) (t : Nat)
  /-- A write of HALT = 0 resumes counting (R446). -/
  | rtcResume (q : Requester) (t : Nat)
  /-- A committed write of RTC_TIME while halted sets the time and TIME_VALID (R446). -/
  | rtcTimeWrite (q : Requester) (v : BitVec 64) (t : Nat)
  /-- At a TSU second boundary the RTC is compared with TSU time and loaded or held (R447). -/
  | rtcDiscipline (t : Nat)
  /-- A read of RTC_CAL_DATE latches the matching calendar time (R449). -/
  | rtcCalRead (q : Requester) (t : Nat)
  /-- A write of RTC_CAL_TIME after RTC_CAL_DATE sets the RTC from the calendar (R449). -/
  | rtcCalWrite (q : Requester) (date time : BitVec 32) (t : Nat)
  /-- No crystal cycle for 4 ms stops counting and clears TIME_VALID (R451). -/
  | oscStop (t : Nat)
  /-- The crystal resumes and counting continues from the value held (R451). -/
  | oscResume (t : Nat)
  /-- The backup domain switches to VBAT when the main supply falls (R452). -/
  | switchToVbat (main vbat : BitVec 12)
  /-- The backup domain switches back to the main supply (R452). -/
  | switchToMain (main vbat : BitVec 12)
  /-- The backup supply falls below 1.6 V and the backup domain restarts with the root zeroed (R454). -/
  | backupLoss (t : Nat)
  /-- KEY command GENERATE places a random key in a slot (R488). -/
  | keyGenerate (q : Requester) (idx : BitVec 12)
  /-- KEY command DERIVE places a derived key in a slot (R488). -/
  | keyDerive (q : Requester) (idx : BitVec 12)
  /-- KEY command IMPORT places a slot image into a slot (R488). -/
  | keyImport (q : Requester) (idx : BitVec 12)
  /-- KEY command EXPORT writes a slot image under KSTORE (R488). -/
  | keyExport (q : Requester) (idx : BitVec 12)
  /-- KEY command REWRAP makes a new blob under a WRAP slot (R488). -/
  | keyRewrap (q : Requester) (idx : BitVec 12)
  /-- KEY command INVALIDATE erases a slot and advances its generation (R464). -/
  | keyInvalidate (q : Requester) (idx : BitVec 12)
  /-- KEY command SET_MASK sets a slot's engine mask (R488). -/
  | keySetMask (q : Requester) (idx : BitVec 12)
  /-- KEY command SWEEP erases every stored slot whose chain is not current (R488). -/
  | keySweep (q : Requester)
  /-- KEY command WIPE erases every slot and advances every generation (R488). -/
  | keyWipe (q : Requester)
  /-- A KEY command completes, BUSY clears and RESULT is set (R488). -/
  | keyCommandDone
  /-- When CRYPTO is turned on the Lanyard restores catalogue images under KSTORE (R473). -/
  | catalogueRestore
  /-- A write of LCS_CTRL.ROOT_NEW makes a new root from the DRBG (R474). -/
  | lcsRootNew (q : Requester)
  /-- Each 32.768 kHz cycle the tamper inputs are sampled and qualified (R475). -/
  | tamperSample (levels : BitVec 4)
  /-- A write of 1 to a LATCH bit clears it while its input is not active (R476). -/
  | tamperLatchClear (q : Requester) (latches : BitVec 4)
  /-- The engines run their known-answer tests when CRYPTO is turned on (R479). -/
  | cryptoSelfTest (kdf aead hash pke trng : Bool)
  /-- A failed health test stops the DRBG and sets FAIL (R481). -/
  | trngHealthFail (raw : List Bool)
  /-- The DRBG reseeds every 1 s or after 2^20 requests (R480). -/
  | drbgReseed (t : Nat)
  /-- A read of the low half of TRNG_OUT returns fresh DRBG output (R493). -/
  | trngRead (q : Requester)
  /-- A write of LCS_CTRL.REQ checks, wipes, burns and takes a life-cycle transition (R484). -/
  | lcsTransitionRequest (q : Requester) (target : BitVec 3) (good : BitVec 2)
  /-- LCS issues a chip reset 1 ms after the burn (R484). -/
  | lcsTransitionReset (t : Nat)
  /-- A write of LCS_CTRL.NEW_CHAL loads a fresh challenge and clears AUTH (R485). -/
  | lcsNewChallenge (q : Requester) (target : BitVec 3)
  /-- AUTH ends 10 s after it was gained (R485). -/
  | lcsAuthExpiry (t : Nat)
  /-- A write of LCS_OTP_CMD.GO programs an OTP hash slot once (R486). -/
  | otpProgram (q : Requester) (slot : BitVec 3)
  /-- An AEAD job encrypts a buffer in GCM (R490). -/
  | aeadGcmEncrypt (q : Requester) (slot : BitVec 12)
  /-- An AEAD job decrypts a buffer in GCM, zeroing output on tag failure (R491). -/
  | aeadGcmDecrypt (q : Requester) (slot : BitVec 12)
  /-- An AEAD job encrypts a buffer in CCM* (R490). -/
  | aeadCcmEncrypt (q : Requester) (slot : BitVec 12)
  /-- An AEAD job decrypts a buffer in CCM* (R491). -/
  | aeadCcmDecrypt (q : Requester) (slot : BitVec 12)
  /-- An AEAD job computes a CMAC (R490). -/
  | aeadCmac (q : Requester) (slot : BitVec 12)
  /-- An AEAD job runs CTR mode (R490). -/
  | aeadCtr (q : Requester) (slot : BitVec 12)
  /-- An AEAD job reruns the known-answer tests (R479). -/
  | aeadSelftest (q : Requester) (ok : Bool)
  /-- A HASH job computes SHA-256 (R490). -/
  | hashSha256 (q : Requester)
  /-- A HASH job computes SHA-384 (R490). -/
  | hashSha384 (q : Requester)
  /-- A HASH job reruns the known-answer tests (R479). -/
  | hashSelftest (q : Requester) (ok : Bool)
  /-- An AEAD or HASH job completes and BUSY clears (R490). -/
  | jobDone (hash : Bool)
  /-- A Lanyard PKE job verifies a P-256 signature (R492). -/
  | pkeVerify256 (q : Requester)
  /-- A Lanyard PKE job verifies a P-384 signature (R492). -/
  | pkeVerify384 (q : Requester)
  /-- A PKE job signs with a slot's private key (R492). -/
  | pkeSign (q : Requester) (slot : BitVec 12)
  /-- A PKE job creates a private key in a slot (R492). -/
  | pkeKeygen (q : Requester) (slot : BitVec 12)
  /-- A PKE job writes a slot's public key (R492). -/
  | pkePubkey (q : Requester) (slot : BitVec 12)
  /-- A PKE job derives an AES key from ECDH into a target slot (R492). -/
  | pkeEcdh (q : Requester) (slot : BitVec 12)
  /-- A PKE job verifies a maker signature over the challenge and sets AUTH (R485). -/
  | pkeVerifyLcs (q : Requester)
  /-- A PKE job reruns the known-answer tests (R479). -/
  | pkeSelftest (q : Requester) (ok : Bool)
  /-- A Lanyard PKE job completes and BUSY clears (R492). -/
  | pkeJobDone
  /-- A write of NAND BLK_CTRL.EN starts target initialisation and qualification (R498). -/
  | nandInit (q : Requester)
  /-- STORE rebuilds its map by scanning page metadata and sets READY (R517). -/
  | nandScan (target : Option (Fin 32)) (unreadable : List Nat)
  /-- The scan completes, SEQ is restored and READY is set (R517). -/
  | nandScanDone (target : Option (Fin 32)) (ms : BitVec 32)
  /-- STORE pops a visible request cell into its port queue (R503). -/
  | nandRequestPop (n : BitVec 13)
  /-- At each NAND frame period STORE assigns ingest positions to foreground collection (R512). -/
  | nandFramePeriod
  /-- A NAND frame entry starts and takes its eligible request or collection work (R503). -/
  | nandSlot (entry : BitVec 8) (t : Nat)
  /-- A program and verify finish and OK is committed or the request is requeued (R506). -/
  | nandProgramComplete (target : Fin 32) (ok decodes : Bool) (corr : Fin 65)
  /-- STORE fetches a checkpoint page region by region and marks torn records (R507). -/
  | checkpointFetch (n : BitVec 13)
  /-- A page read is written to DDR and its completion committed (R508). -/
  | nandReadComplete (target : Fin 32) (ue : Bool) (corr : Fin 65)
  /-- A RELEASE request makes its block RELEASED (R509). -/
  | nandRelease (target : Fin 32)
  /-- An erase of a released block finishes, or makes the block BAD (R511). -/
  | nandEraseComplete (target : Fin 32) (ok : Bool)
  /-- One page of a queued block is copied and the LBN is rebound at the last page (R515). -/
  | relocationCopy (target : Fin 32)
  /-- A new journal page of grown-bad blocks is programmed (R516). -/
  | journalProgram (target : Fin 32)
  /-- A scrub read checks one written page and queues its block if needed (R518). -/
  | nandScrubRead (target : Fin 32) (ue : Bool) (corr : Fin 65)
  /-- Free blocks fall to FULL_AT and admission of readings stops (R514). -/
  | nandFull
  /-- Every 60 s STORE adds a minute to its temperature history (R520). -/
  | nandTempSample (t : Nat)
  /-- A core comparison mismatch holds both Lanyard cores until chip reset (R526). -/
  | lockstepMismatch
  /-- The Lanyard memory scrubber reads and corrects one word in an idle bank cycle (R527). -/
  | lanyardScrub (busy : Option (Fin 8))
  /-- The normal context enters the safety context through a gate entry point (R525). -/
  | safetyGateCall
  /-- The safety context returns and suspended normal work resumes (R525). -/
  | safetyReturn
  /-- The Lanyard pops a host mailbox request and replies in order (R530). -/
  | mailboxRequest
  /-- Mailbox STATUS returns lay states, alarms, capacity and FC_STATUS (R532). -/
  | mbStatus
  /-- Mailbox RIGGING_LOAD orders a rigging load from a DDR buffer (R531). -/
  | mbRiggingLoad (addr len : Nat)
  /-- Mailbox STRAND_RETURN orders a strand back into service (R175). -/
  | mbStrandReturn
  /-- Mailbox STRAND_KEEP_OUT keeps a strand out or lifts the order (R531). -/
  | mbStrandKeepOut
  /-- Mailbox ROSTER orders roster writes (R268). -/
  | mbRoster (src : Option (BitVec 34)) (heads : List (BitVec 20 × BitVec 3))
  /-- Mailbox KEY orders a KEY command (R531). -/
  | mbKey (op : BitVec 4) (slot : BitVec 12) (arg mask label gen bufIn bufOut : BitVec 32) (ctx : BitVec 64)
  /-- Mailbox LIFE_CYCLE orders a life-cycle step (R531). -/
  | mbLifeCycle (chal req : Bool) (target : BitVec 3) (good : BitVec 2)
  /-- Mailbox ROOT_NEW orders a new root (R474). -/
  | mbRootNew
  /-- Mailbox OTP_PROGRAM orders an OTP hash slot programmed (R486). -/
  | mbOtpProgram (slot : BitVec 3) (hash : BitVec 384)
  /-- An update piece is stored in NOR or held as part of a manifest (R602). -/
  | updatePiece (norFail framFail : Bool)
  /-- Mailbox UPDATE STATUS returns a kind's state and missing pieces (R602). -/
  | updateStatus (kind : Fin 4)
  /-- Mailbox UPDATE ACTIVATE flushes EVR and requests a chip reset (R604). -/
  | updateActivate
  /-- Mailbox UPDATE IMAGE_STORE places a meter image in a NAND slot (R609). -/
  | updateImageStore (slot : Fin 64) (framFail : Bool)
  /-- Mailbox SETTINGS SAVE writes the current settings (R608). -/
  | settingsSave (ok : Bool)
  /-- Mailbox SETTINGS DEFAULTS resets the settings as for a format change (R608). -/
  | settingsDefaults
  /-- Mailbox DOMAIN applies a domain target and replies once it settles (R632). -/
  | mbDomain
  /-- Mailbox HEALTH returns the lifetime record (R538). -/
  | mbHealth
  /-- Mailbox WDOG_SET sets the host watchdog (R540). -/
  | mbWdogSet
  /-- The Lanyard pushes a notice on ring 2 (R533). -/
  | noticePush
  /-- The Lanyard pops a cell from a Lanyard-facing splice and acts on its message (R534). -/
  | lanyardSplicePop (n : BitVec 13) (known norFail framFail : Bool)
  /-- SENS samples a sensor and qualifies or clears a limit crossing (R536). -/
  | sensorSample (x : SensSample) (t : Nat)
  /-- Every hour the Lanyard adds the hour's temperature minutes to the lifetime record (R538). -/
  | lifetimeRecordUpdate (t : Nat)
  /-- A write of WDG_HOST_KICK is accepted or counts as an expiry (R539). -/
  | hostWatchdogKick (q : Requester) (v : BitVec 32) (t : Nat)
  /-- The host watchdog count reaches 0 and an expiry is reported (R539). -/
  | hostWatchdogExpiry (t : Nat)
  /-- A write of WDG_LANY_KICK restarts stage 1 or ends the stage (R541). -/
  | lanyardWatchdogKick (q : Requester) (v : BitVec 32) (t : Nat)
  /-- Stage 1 ends, a warning enters the safety context and stage 2 begins (R541). -/
  | lanyWarn (t : Nat)
  /-- Stage 2 ends and RST resets the chip (R541). -/
  | lanyardWatchdogReset (t : Nat)
  /-- A write of LNY_INJ arms the Lanyard checkers (R544). -/
  | lanyardInjectArm (q : Requester) (v : BitVec 32)
  /-- FC latches asserted error lines and starts a reaction sequence (R546). -/
  | faultLatch (t : Nat)
  /-- A pulse during a reaction sequence is not latched and advances FC_LOST_CNT (R547). -/
  | pulseNotLatched (page : BitVec 10) (bit_ : Fin 31)
  /-- A W1C write of FC_STATUS clears source bits, which relatch if still asserted (R548). -/
  | fcStatusClear (q : Requester) (v : BitVec 64)
  /-- A write of FC_FORCE.GO drives a source's line for one collector cycle (R554). -/
  | fcForce (q : Requester) (source : BitVec 6)
  /-- The ERR_OUT_N pulse width ends and the pin is released unless held (R553). -/
  | errPinPulseEnd (t : Nat)
  /-- A write of FC_PIN.RELEASE releases a held pin (R553). -/
  | errPinRelease (q : Requester) (hold : Bool) (width : BitVec 20)
  /-- A write of EVR_SUBMIT.GO submits a record from the Lanyard (R558). -/
  | evrSubmit (q : Requester) (args : Bool) (src code : BitVec 8)
  /-- EVR pops an event cell from a lay (R558). -/
  | evrCellPop (n : BitVec 13)
  /-- Ten seconds after the last flush a flush starts (R563). -/
  | evrFlushTimer (t : Nat)
  /-- A flush writes buffered records and a state block copy to the die (R562). -/
  | evrFlush (bad : List (BitVec 32))
  /-- A flush completes and frees its buffer entries (R562). -/
  | evrFlushDone
  /-- A write of EVR_CTRL.FLUSH starts a flush (R563). -/
  | evrFlushRequest (q : Requester)
  /-- When SYS is turned on EVR restores its state from the die (R564). -/
  | evrRestore
  /-- A write of EVR_RD_CMD.GO reads a record by SEQ into EVR_RD_BUF (R565). -/
  | evrRead (q : Requester)
  /-- Operating seconds advance once per reference second while SYS is on (R556). -/
  | opsecTick (t : Nat)
  /-- A write of LEASE_CTRL.EN = 1 puts the part in WAIT (R569). -/
  | leaseEnable (q : Requester) (pref : Bool)
  /-- A write of LEASE_CTRL.EN = 0 in WAIT or FENCED ends pair operation (R592). -/
  | leaseDisable (q : Requester) (pref : Bool)
  /-- Every 20 ms the part sends HELLO on the link (R571). -/
  | helloSend (t : Nat)
  /-- A HELLO from the peer is checked and may bring the link up, elect or start a return (R572). -/
  | hello (h : PairHead) (b : HelloBody) (t : Nat)
  /-- No HELLO verified for 100 ms takes the link down (R570). -/
  | pairLinkDown (t : Nat)
  /-- Every 500 ms the active sends RENEW (R573). -/
  | renewSend (t : Nat)
  /-- A RENEW reaches a part, which grants it or compares epochs (R573). -/
  | renew (h : PairHead) (rseq epoch : BitVec 32) (t : Nat)
  /-- A GRANT reaches the active and extends its lease expiry (R573). -/
  | grant (h : PairHead) (rseq : BitVec 32) (t : Nat)
  /-- The active's lease expires and the part fences itself (R574). -/
  | leaseExpiry (t : Nat)
  /-- The standby reaches its takeover time and starts taking over (R575). -/
  | takeoverTime (epochFail : Bool) (t : Nat)
  /-- The takeover's loading and roll-forward end and the role becomes ACTIVE (R585). -/
  | takeoverComplete (t : Nat)
  /-- A PAGE frame reaches the standby, which programs and verifies it (R580). -/
  | page (h : PairHead) (p : PairPage) (ck : Option (BitVec 16))
  /-- A VERIFIED frame reaches the active and commits the KIND 1 completion (R579). -/
  | verified (h : PairHead) (reserve : Bool) (lbn : BitVec 18) (page : BitVec 10) (refused : Bool)
  /-- A PAIR page completes PARTNER_FAIL when the peer cannot take it (R579). -/
  | partnerFail
  /-- A RELEASE frame releases the standby's block of that LBN (R580). -/
  | pairRelease (h : PairHead) (lbn : BitVec 18)
  /-- A RESERVE frame makes the standby store a reservation limit and answer VERIFIED (R581). -/
  | reserve (h : PairHead) (idx : Fin 10) (limit : BitVec 32)
  /-- A SETTINGS frame piece is written into the standby's NOR settings area (R582). -/
  | settings (h : PairHead) (offset : BitVec 32) (piece : List (BitVec 8)) (image : Option Settings) (ok : Bool)
  /-- A HEALTH frame from the peer is taken and may raise a notice (R588). -/
  | health (h : PairHead) (body : List (BitVec 8))
  /-- Every 1 s a part sends its health body over the link and optionally by UDP (R588). -/
  | healthSend (t : Nat)
  /-- A CATCHUP frame is programmed by a returning standby (R589). -/
  | catchup (h : PairHead) (p : PairPage) (last : Bool) (ck : Option (BitVec 16))
  /-- A SALVAGE frame is programmed by the active into stream 2 and answered (R590). -/
  | salvage (h : PairHead) (p : PairPage)
  /-- Every salvaged page has verified; SOLO_SEQ clears and the returning part erases its blocks (R590). -/
  | salvageDone
  /-- Every 10 minutes the standby powers one lay and runs ST-1 on it (R583). -/
  | standbyTestStep (t : Nat)
  /-- A test step ends and its domains are turned off (R583). -/
  | standbyTestEnd (pass : Bool)
  /-- PAIR_HOST_CMD FORCE_ACTIVE makes a waiting or fenced part ACTIVE (R593). -/
  | forceActive (q : Requester) (epochFail : Bool)
  /-- PAIR_HOST_CMD STAY_OUT keeps a fenced part fenced (R593). -/
  | stayOut (q : Requester)
  /-- PAIR_HOST_CMD REJOIN lifts STAY_OUT (R593). -/
  | rejoin (q : Requester)
  /-- A host command starts a meter image campaign (R610). -/
  | campaignStart (cmd : Fin 64) (slot : Fin 64) (meters : List (BitVec 20 × BitVec 13 × Fin 4)) (block : BitVec 11) (key : BitVec 8) (rounds : BitVec 5) (gap : BitVec 13) (act : BitVec 48) (ring : Fin 64) (t : Nat)
  /-- At each block gap the lay broadcasts one missing image block (R610). -/
  | imageBlockBroadcast (k : Nat) (out : BitVec 13) (held : List (BitVec 20 × List (BitVec 16))) (took : List (BitVec 20 × List (BitVec 16 × Fin 4))) (verify : List (BitVec 20 × Fin 4)) (t : Nat)
  /-- Every 60 s a meter with a temporary verify failure is polled (R610). -/
  | imageVerifyPoll (meter : BitVec 20) (answer : Fin 4) (t : Nat)
  /-- At the activation time the lay calls image_activate on each meter (R610). -/
  | imageActivate (k : Nat) (answers : List (BitVec 20 × Bool)) (t : Nat)
  /-- A QSPI READ command reads NOR into the buffer (R613). -/
  | qspiRead (q : Requester)
  /-- A QSPI PROGRAM command programs a NOR page (R613). -/
  | qspiProgram (q : Requester)
  /-- A QSPI ERASE command erases a NOR sector (R613). -/
  | qspiErase (q : Requester)
  /-- A QSPI command completes or times out (R613). -/
  | qspiCommandDone (timeout : Bool)
  /-- A write of PWR_DOM_d.TARGET = ON starts turning a domain on (R616). -/
  | domainTargetOn (q : Requester) (d : Fin 17)
  /-- A write of TARGET = OFF turns a domain off (R617). -/
  | domainTargetOff (q : Requester) (d : Fin 17)
  /-- A write of TARGET = RET puts a domain into retention (R618). -/
  | domainTargetRet (q : Requester) (d : Fin 17)
  /-- A domain finishes turning on and its blocks hold their reset values (R616). -/
  | domainOnComplete (d : Fin 17)
  /-- A switch or PLL misses its limit and the domain is returned to off (R619). -/
  | domainOnFail (d : Fin 17)
  /-- After its delay the sequencer tries again to turn a domain on (R619). -/
  | domainRetry (d : Fin 17) (t : Nat)
  /-- A write of PWR_SLEEP.GO puts MGMT and optionally SYS into retention (R621). -/
  | sleep (q : Requester) (ret : Bool)
  /-- A wake source latches and turns SYS and MGMT on to boot (R622). -/
  | wake (src : Fin 5)
  /-- The wake port matches its address, stretches SCL and raises the port wake (R623). -/
  | wakePortMatch (addr : BitVec 7) (read : Bool) (data : List (BitVec 8))
  /-- SCL is released at the 2 ms limit and STRETCH_FAIL is set (R623). -/
  | wakeStretchTimeout (t : Nat)
  /-- A power-fail indication starts the power-fail sequence (R624). -/
  | powerFail (monitor : Bool) (t : Nat)
  /-- PF_DONE is set and every domain but SYS and MGMT is turned off (R624). -/
  | powerFailDone (t : Nat)
  /-- The indication clears for 10 ms after PF_DONE and a PF_RETURN reset follows (R626). -/
  | powerReturn (t : Nat)
  /-- VDD_AON rises and resets everything outside the backup domain (R627). -/
  | powerOnReset
  /-- RESET_N held low makes a chip reset (R627). -/
  | resetPin
  /-- A write of RST_CTRL with the key and CHIP makes a chip reset (R634). -/
  | rstChip (q : Requester)
  /-- A chip reset turns every switched domain off and starts start-up (R628). -/
  | chipReset (code : Fin 8) (t : Nat)
  /-- The boot ROM copies, checks and loads the Lanyard image and hands over (R629). -/
  | boot (bad : List (Nat × Bool × Nat)) (left t : Nat)
  /-- After reset release the device powers, configures, loads, scans and opens admission (R631). -/
  | startUp (bad : List (Nat × Bool × Nat)) (left : Nat) (unreadable : List Nat) (ms : BitVec 32) (t : Nat)
  /-- Each 10.01 ms the reference clock count is compared with its expected value (R635). -/
  | refMonitorWindow (count : Nat)
  /-- No reference edge for 1 µs sets REF_LOST (R635). -/
  | refLost
  /-- Fifty clocks with BDIO high reset the debug line and its level (R638). -/
  | dbgLineReset
  /-- Debug NOP does nothing (R640). -/
  | dbgNop (p : Bool) (op : BitVec 6)
  /-- Debug IDCODE returns the device code (R640). -/
  | dbgIdcode (p : Bool)
  /-- Debug STATUS returns DBG_STAT and clears its FAULT (R640). -/
  | dbgStatus (p : Bool)
  /-- Debug READ reads an address in the selected space (R643). -/
  | dbgRead (p : Bool) (sp : BitVec 2) (w64 : Bool) (a : BitVec 32) (served : Bool) (t : Nat)
  /-- Debug WRITE writes an address in the selected space (R643). -/
  | dbgWrite (p : Bool) (sp : BitVec 2) (w64 : Bool) (a : BitVec 32) (v : BitVec 64) (served : Bool) (t : Nat)
  /-- Debug HALT freezes the named lays and halts the Lanyard (R649). -/
  | dbgHalt (p : Bool) (mask : BitVec 8) (lany : Bool) (t : Nat)
  /-- Debug RUN resumes the named lays and the Lanyard (R651). -/
  | dbgRun (p : Bool) (mask : BitVec 8) (lany : Bool) (t : Nat)
  /-- Debug STEP advances a frozen lay or the halted Lanyard (R651). -/
  | dbgStep (p : Bool) (lay : Fin 8) (lany : Bool) (count : BitVec 16) (t : Nat)
  /-- Debug NEWCHAL draws a challenge for the level sought (R648). -/
  | dbgNewchal (p : Bool) (sought : BitVec 2) (t : Nat)
  /-- Debug CHAL returns a challenge word (R648). -/
  | dbgChal (p : Bool) (word : BitVec 3)
  /-- Debug RESP stores one word of the authentication response (R648). -/
  | dbgResp (p : Bool) (word : BitVec 6) (v : BitVec 32)
  /-- Debug AUTH starts checking the response (R648). -/
  | dbgAuth (p : Bool) (t : Nat)
  /-- The authentication check ends and the level rises or the attempt fails (R648). -/
  | dbgAuthComplete (t : Nat)
  /-- Debug RESET with the key makes a chip reset (R641). -/
  | dbgReset (p : Bool) (key : BitVec 16)
  /-- The Lanyard fetches a breakpoint address and both cores halt (R655). -/
  | lanyardBreakpoint (a : BitVec 19) (t : Nat)
  /-- A write of PCIE_RC_CTRL.EN = 1 enables a DMA ring (R659). -/
  | ringEnable (q : Requester) (irq : Bool)
  /-- A host doorbell on an H2D ring makes the device fetch and commit entries (R660). -/
  | ringDoorbellH2d (r : Fin 64) (p : BitVec 16) (entries : List (BitVec 512)) (t : Nat)
  /-- A host doorbell on a D2H ring frees entries for the device to fill (R661). -/
  | ringDoorbellD2h (r : Fin 64) (c : BitVec 16) (t : Nat)
  /-- The device writes its ring index back after 32 cells or 10 µs (R660). -/
  | ringWriteBack (r : Fin 64) (t : Nat)
  /-- MAX_US after the first write-back the ring signals its MSI-X vector (R662). -/
  | ringIrqTimer (r : Fin 64) (t : Nat)
  /-- A failed DMA completion halts the ring (R663). -/
  | dmaError (r : Fin 64) (kind : Fin 3)
  /-- A write of PCIE_RC_CTRL.RESET stops, drains and empties a ring (R664). -/
  | ringReset (q : Requester) (doorbells : BitVec 32)
  /-- PERST_N low holds HOSTIF in reset and resets every ring (R665). -/
  | perstAssert
  /-- PERST_N high releases HOSTIF from reset (R665). -/
  | perstDeassert
  /-- The PCIe link goes down or up, with ring state kept (R665). -/
  | pcieLinkChange (up : Bool) (speed : Fin 4) (width : Fin 5) (correctable : BitVec 32)
  /-- A vector's request rises and an MSI-X message is sent or made pending (R666). -/
  | msixMessage (v : BitVec 8)
  /-- A vector is unmasked and its pending message is sent (R666). -/
  | msixUnmask (v : BitVec 8) (addr : BitVec 64) (data : BitVec 32) (mask : Bool)
  /-- An Ethernet port takes a received frame and routes, answers or discards it (R669). -/
  | ethFrameReceived (n : Fin 6) (raw : List (BitVec 8)) (t : Nat)
  /-- A port sends an unsolicited advertisement for an address (R669). -/
  | neighbourAdvertisement (n : Fin 6) (k : Fin 5)
  /-- A port pops a message from block end 0x03 and sends it (R671). -/
  | ethTransmit (n : Fin 6) (spl : BitVec 13) (t : Nat)
  /-- An Ethernet link goes down or up (R671). -/
  | ethLinkChange (n : Fin 6) (up fast : Bool) (an : BitVec 16)
  /-- A write of ETH_NC_FLUSH.GO empties the neighbour cache (R672). -/
  | ethNcFlush (q : Requester) (n : Fin 6)
  /-- A write of SG_MDIO.GO performs one MDIO access (R672). -/
  | mdioAccess (q : Requester) (c45 : Bool) (op : BitVec 2) (phy reg : BitVec 5) (data answer : BitVec 16)
  /-- A UART receives an HDLC frame and hands I-frames to INGEST (R677); rx: the samples of its RX ball, 16 a bit, the first at time t (R673,
  R674). -/
  | hdlcFrameReceived (n : Fin 8) (rx : List Bool) (t : Nat)
  /-- Every POLL_MS the UART polls an idle station (R677). -/
  | hdlcPoll (n : Fin 8) (t : Nat)
  /-- No reply within RESP_MS counts toward the station being DOWN (R677). -/
  | hdlcResponseTimeout (n : Fin 8) (t : Nat)
  /-- A byte gap above 50 ms aborts the frame (R677). -/
  | hdlcByteGapAbort (n : Fin 8) (t : Nat)
  /-- A UART pops a transmit message and sends it to a station (R677). -/
  | uartTransmit (n : Fin 8) (spl : BitVec 13) (t : Nat)
  /-- A write of UART_ST_SEL.COMMIT applies the shadow to a station entry (R678). -/
  | stationCommit (q : Requester) (n : Fin 8) (k : BitVec 5)
  /-- A write of UART_ST_SEL.LOAD fills the shadow from a station entry (R678). -/
  | stationLoad (q : Requester) (n : Fin 8) (k : BitVec 5)
  /-- Every PERIOD_S an enabled slot reads its sensor over I²C (R679). -/
  | sbusSlotRead (slot : BitVec 5) (x : SbusRead) (t : Nat)
  /-- A write of PMX_CLAIM.GO claims a resource or records a conflict (R682). -/
  | pmxClaim (q : Requester) (func : BitVec 8) (res : BitVec 7)
  /-- A write of PMX_CLAIM with RELEASE frees a resource (R683). -/
  | pmxRelease (q : Requester) (res : BitVec 7)
  /-- An enabled edge on a GPIO sets its PMX_GPIO_EDGE bit (R684). -/
  | gpioEdge (ball : Fin 32) (level : Bool)
  /-- A PINMUX timer reaches zero, fires and reloads or stops (R685). -/
  | timerExpiry (k : Fin 8) (t : Nat)
  /-- A write of TSU_PPS.EN claims or releases the named GPIO (R682). -/
  | ppsConfigWrite (q : Requester) (v : BitVec 32)
  /-- A PLL other than a lay's loses lock, setting CLK BLK_ERR.PLL_UNLOCK, or for the measurement PLL MEAS BLK_ERR.MPLL_UNLOCK, after which no transfer is made until it relocks (R635). -/
  | pllUnlock (d : Fin 17) (locked : Bool)
  /-- One pair lane loses or regains alignment, setting PAIR BLK_ERR.LANE_DOWN and changing LANE0_UP or LANE1_UP while the link may stay up on the other lane (R570). -/
  | laneDown (lane : Fin 2) (up : Bool)
  /-- Every second while the main supply is present, VBAT is measured into RTC_VBAT, and BLK_ERR.VBAT_LOW is set when it is below 2.2 V (R458). -/
  | vbatMeasurement (mv : BitVec 12)
  /-- 1,024 MCLK cycles after transitions resume on a stuck channel, the channel delivers samples again and its MEAS_STUCK and MP_STAT.STUCK bits and event clear (R301). -/
  | channelStuckEnd (c : Fin 128)
  deriving DecidableEq, Repr

end Sys2Proof
end

