-- ==== Sys2Proof/Config.lean ====
section
/-! DEFINITION. What the spec leaves open: values no rule states. Each is an opaque constant, so no proof can see its
value and a statement holds whatever it is (log entry 1). -/

namespace Sys2Proof

/-- The n-th free value drawn: random output (R480, R493), retry jitter (R230), a seed (R389), any value a rule leaves
open for which no other constant stands here. -/
opaque Config.freeWord : Nat → Word64

/-- The reciprocal of SINC_R to the fifth that the device holds (R299), as a numerator over a power of 2. -/
opaque Config.reciprocal : Nat → Nat × Nat

/-- Half of the 240 symmetric taps of the compensating filter (R300). -/
opaque Config.firTap : Nat → BitVec 24

/-- The fractional bits of the taps of `Config.firTap`. -/
opaque Config.firShift : Nat

/-- The fractional bits of the interpolator's coefficients (R303): 22 or 23 of their 24. -/
opaque Config.lagrangeShift : Nat

/-- Tap k of the Hilbert filter on the older side of its centre (R310); the newer side has the opposite sign. -/
opaque Config.hilbertTap : Nat → Int

/-- The fractional bits of the taps of `Config.hilbertTap`. -/
opaque Config.hilbertShift : Nat

/-- What the device's extraction of the fundamental (R332), which the spec does not give, adds to the period between the last two positive-going
zero crossings of a channel, in 2^-16 sample: from its corrected samples, newest first. -/
opaque Config.linePeriod : List Int → Int

/-- What the device's cosine and sine of a sample's angle in the single-bin transform (R332) differ from the exact ones by, in 2^-30: from the period
in 2^-16 sample and the sample's number. -/
opaque Config.twiddle : Nat → Nat → Int × Int

/-- The bytes of a DLMS/COSEM message of the device, as the DLMS standards encode, cipher and address it, which the spec does not give: from
its kind and content. -/
opaque Config.dlmsBytes : List Nat → List Byte

/-- The words of a completion cell to the host whose coding no rule gives: from the outcome they tell (R37, R285, R288, R290, R610). -/
opaque Config.hostWords : List Nat → List Word64

/-- The words of a cell on a Lanyard-facing splice whose coding no rule gives: from what it tells (R276). -/
opaque Config.lanyWords : List Nat → List Word64

/-- The airtime in us of a power-line transmission that G.9903 alone shapes (R399, R403): 0 a standard frame, 1 an FCH-only acknowledgement, 2 a
super-robust beacon; from its MAC bytes. -/
opaque Config.airtime : Nat → List Byte → Nat

/-- From a power-line transmission's first sample to the end of its preamble, in ns (R410). -/
opaque Config.preambleTime : Nat

/-- From the end of the preamble to the first payload symbol of an extended frame, in ns: its FCH and its extension header (R410). -/
opaque Config.headerTime : Nat

/-- The coded bits of an extended frame's payload under the FEC of G.9903 (R410, R412). -/
opaque Config.codedBits : List Byte → List Bool

/-- The PDC that G.9903 writes for a time since the sender's zero crossing, both in ns, under a mains period (R401). -/
opaque Config.pdcOf : Nat → Nat → Nat

/-- The time from the sender's zero crossing to the end of the preamble that a PDC stands for under a mains period, in ns (R418). -/
opaque Config.pdcTime : Nat → Nat → Nat

/-- The tone map response of G.9903 to a peer (R401): from the SNR and the LQI of its last frame. -/
opaque Config.toneReply : Nat → Nat → List Byte

/-- The transmit sample of a phase with a number (R399). -/
opaque Config.dacSample : Nat → Nat → BitVec 16

/-- The parity bytes of a BCH codeword over GF(2^14) that corrects a number of bits (R499): its generator is not stated. -/
opaque Config.bchParity : Nat → List Byte → List Byte

/-- The bytes of a table of a settings section (R607), whose layout the spec does not give: from its content. -/
opaque Config.settingsBytes : List Nat → List Byte

/-- The number of a notice's kind (R533), which no chapter gives: from the event code or report the notice comes with (0x100: a change of
capacity). -/
opaque Config.noticeKind : Nat → BitVec 15

/-- The load segments of a Lanyard image, which its header names and whose layout the spec does not give (R629): from the image, each segment's
place in the Lanyard's memory, its place in the image, its length. -/
opaque Config.lanySegments : List Byte → List (Nat × Nat × Nat)

/-- PCIE_ID and PCIE_SUBID (R657), which come from OTP. -/
opaque Config.pcieId : Word32

/-- See `Config.pcieId`. -/
opaque Config.pcieSubId : Word32

/-- The first hop of a message to a meter that is no neighbour (R386): a port of its splice's block and the hop's extended address (log entry 19). -/
opaque Config.firstHop : Nat → Nat × BitVec 64

/-- The security of the field-service lay's messages (R386): a security level's and a key's index (log entry 19). -/
opaque Config.txSecurity : Nat

end Sys2Proof
end

