-- ==== Sys2Proof/Machine/Sparse.lean ====
section
/-! DEFINITION. Sparse tables: a list of (key, value) pairs with keys strictly rising and no entry equal to what an
unlisted key reads as. Every large table of the block (window registers, memories, splices, meters, neighbours) is one. -/

namespace Sys2Proof.Machine

/-- What key k reads as, d giving the value of an unlisted key. -/
def look {α : Type} (d : Nat → α) : List (Nat × α) → Nat → α
  | [], k => d k
  | (j, v) :: t, k => if j = k then v else look d t k

/-- The table without key k. -/
def drop {α : Type} (m : List (Nat × α)) (k : Nat) : List (Nat × α) := m.filter (fun e => e.1 != k)

/-- Key k placed in order. -/
def place {α : Type} (k : Nat) (v : α) : List (Nat × α) → List (Nat × α)
  | [] => [(k, v)]
  | (j, w) :: t => if k < j then (k, v) :: (j, w) :: t else (j, w) :: place k v t

/-- Key k set to v: an entry equal to the unlisted value is not listed. -/
def store {α : Type} [DecidableEq α] (d : Nat → α) (m : List (Nat × α)) (k : Nat) (v : α) : List (Nat × α) :=
  if v = d k then drop m k else place k v (drop m k)

/-- The table without the keys of a range. -/
def dropRange {α : Type} (m : List (Nat × α)) (lo hi : Nat) : List (Nat × α) :=
  m.filter (fun e => !(lo ≤ e.1 && e.1 < hi))

/-- The keys rise strictly. -/
def rising {α : Type} : List (Nat × α) → Bool
  | [] => true
  | [_] => true
  | (i, _) :: (j, w) :: t => decide (i < j) && rising ((j, w) :: t)

/-- The canonical form: keys strictly rising, no entry equal to the unlisted value. -/
def canon {α : Type} [DecidableEq α] (d : Nat → α) (m : List (Nat × α)) : Bool :=
  rising m && m.all (fun e => decide (e.2 ≠ d e.1))

/-- The keys listed in a range, in rising order. -/
def keysIn {α : Type} (m : List (Nat × α)) (lo hi : Nat) : List Nat :=
  (m.filter (fun e => lo ≤ e.1 && e.1 < hi)).map (·.1)

end Sys2Proof.Machine
end

