-- ==== Sys2Proof/Machine/RegMap.lean ====
section
/-! DEFINITION. The register map: every page of R67 and every register of the register tables of 02 to 21, with the
access code of each field (R10), the range a field takes (a value outside it leaves the field, R15), the owner (R13)
and the reset value (R16). -/

namespace Sys2Proof.Machine

/-- The block types of the page index (R67). -/
inductive Pg where
  | chip | pinmux | pwr | rst | clk | fc | wdog | lease | sens | evr | lay | strand | splice | ingest | meterdb | bal | meas | mp | key | kdf | aead | pke | hash | trng | lcs | tamper | eth | sgmii | tsu | rtc | radio | plc | plcPh | uart | sbus | wake | nand | ddr | qspi | upd | pcie | pulse | dbg | totals | pair
  deriving DecidableEq, Repr

/-- Access codes (R10). -/
inductive Acc where
  | ro | rw | w1c | w1s | wo | rc
  deriving DecidableEq, Repr

/-- Owner codes (R13); none: a register no one writes. -/
inductive Owner where
  | h | m | s | none
  deriving DecidableEq, Repr

/-- One field of a register: bits hi:lo, its access code and the values a write may leave in it (R15). -/
structure Field where
  hi : Nat
  lo : Nat
  acc : Acc
  least : Nat
  most : Nat
  deriving DecidableEq, Repr

/-- A field that takes every value. -/
def fld (hi lo : Nat) (a : Acc) : Field := ⟨hi, lo, a, 0, 2 ^ (hi + 1 - lo) - 1⟩

/-- An RW field with a stated range. -/
def fldr (hi lo least most : Nat) : Field := ⟨hi, lo, .rw, least, most⟩

/-- One row of a register table; count registers stand stride bytes apart from off. -/
structure RegRow where
  off : Nat
  count : Nat
  stride : Nat
  wide : Bool
  reset : Nat
  owner : Owner
  fields : List Field
  deriving DecidableEq, Repr

/-- What the chapters say of a page: R58, R67, R705 and the header paragraph of each block. -/
structure PageInfo where
  code : Nat
  count : Nat
  domain : Nat
  source : Option Nat
  owner : Owner
  errLine : Bool
  inj : Bool
  wide : Bool
  retain : Bool
  enReset : Bool
  enWritable : Bool
  err : Nat
  pulse : Nat
  injMask : Nat
  irq : Nat
  deriving DecidableEq, Repr

/-- The page facts of each block type; domain 0 is AON, d the switched domain d of R614 (a lay's is 3 + lay). -/
def pageInfo : Pg → PageInfo
  | .chip => ⟨0x000, 1, 2, none, .h, false, false, true, false, true, false, 0x0, 0x0, 0x0, 0x3⟩
  | .pinmux => ⟨0x001, 1, 2, (some 37), .h, true, false, false, false, true, false, 0x1, 0x0, 0x0, 0x3FF⟩
  | .pwr => ⟨0x002, 1, 0, (some 33), .m, true, false, true, false, true, false, 0x3, 0x2, 0x0, 0x3⟩
  | .rst => ⟨0x003, 1, 0, none, .m, false, false, true, false, true, false, 0x0, 0x0, 0x0, 0x0⟩
  | .clk => ⟨0x004, 1, 1, (some 34), .m, true, false, false, false, true, false, 0x7, 0x0, 0x0, 0x1⟩
  | .fc => ⟨0x008, 1, 1, none, .s, false, false, true, false, true, false, 0x0, 0x0, 0x0, 0x0⟩
  | .wdog => ⟨0x009, 1, 2, (some 31), .s, true, false, false, false, true, false, 0xF, 0xE, 0x0, 0x3⟩
  | .lease => ⟨0x00A, 1, 2, (some 32), .s, true, false, false, false, true, false, 0x7, 0x0, 0x0, 0x3⟩
  | .sens => ⟨0x00B, 1, 2, (some 35), .m, true, true, false, false, true, false, 0x1F, 0x0, 0xA, 0xF⟩
  | .evr => ⟨0x00C, 1, 1, (some 36), .m, true, true, false, false, true, false, 0x1F, 0x5, 0x3, 0x3⟩
  | .lay => ⟨0x010, 8, 3, (some 0), .m, true, true, true, true, true, false, 0x7F, 0x21, 0x63, 0x3F⟩
  | .strand => ⟨0x020, 128, 3, (some 0), .m, true, true, true, false, true, false, 0x3FFFF, 0x5, 0x2000F, 0x0⟩
  | .splice => ⟨0x0A0, 1, 1, (some 8), .m, true, true, true, true, true, false, 0x1F, 0x11, 0x1B, 0x3⟩
  | .ingest => ⟨0x0B0, 1, 1, (some 9), .h, true, true, true, false, false, true, 0x3F, 0x2D, 0x18, 0xF⟩
  | .meterdb => ⟨0x0B1, 1, 14, (some 10), .h, true, true, false, false, false, true, 0xF, 0x1, 0x7, 0x7⟩
  | .bal => ⟨0x0B2, 1, 1, (some 11), .h, true, false, false, false, false, true, 0xF, 0x3, 0x0, 0x7⟩
  | .meas => ⟨0x0C0, 1, 13, (some 12), .h, true, true, false, false, false, true, 0x3F, 0x11, 0x3, 0x3⟩
  | .mp => ⟨0x0C1, 16, 13, (some 12), .h, true, true, true, false, true, false, 0x3, 0x1, 0x3, 0x3⟩
  | .key => ⟨0x0E0, 1, 16, (some 14), .m, true, true, true, false, true, false, 0x3, 0x1, 0x3, 0x1⟩
  | .kdf => ⟨0x0E1, 1, 16, (some 15), .m, true, true, false, false, true, false, 0x7, 0x1, 0x3, 0x0⟩
  | .aead => ⟨0x0E2, 1, 16, (some 15), .m, true, true, false, false, false, true, 0x7, 0x1, 0x3, 0x0⟩
  | .pke => ⟨0x0E3, 1, 16, (some 15), .m, true, true, false, false, true, false, 0x7, 0x1, 0x3, 0x0⟩
  | .hash => ⟨0x0E4, 1, 16, (some 15), .m, true, true, false, false, false, true, 0x7, 0x1, 0x3, 0x0⟩
  | .trng => ⟨0x0E5, 1, 16, (some 16), .m, true, false, true, false, true, true, 0x7, 0x0, 0x0, 0x1⟩
  | .lcs => ⟨0x0E6, 1, 16, (some 17), .m, true, false, false, false, true, false, 0x7, 0x1, 0x0, 0x7⟩
  | .tamper => ⟨0x0E7, 1, 0, (some 17), .m, true, false, true, false, true, false, 0x3, 0x0, 0x0, 0x1⟩
  | .eth => ⟨0x0F0, 4, 11, (some 18), .h, true, true, true, false, false, true, 0x7, 0x5, 0x3, 0x1⟩
  | .sgmii => ⟨0x0F4, 2, 11, (some 19), .h, true, true, true, false, false, true, 0x7, 0x5, 0x3, 0x1⟩
  | .tsu => ⟨0x0F8, 1, 11, (some 20), .h, true, false, true, false, true, false, 0xF, 0x9, 0x0, 0x1F⟩
  | .rtc => ⟨0x100, 1, 0, (some 21), .h, true, false, true, false, true, false, 0x7, 0x0, 0x0, 0x7⟩
  | .radio => ⟨0x110, 4, 12, (some 22), .h, true, true, true, false, false, true, 0x1F, 0x5, 0x3, 0x7⟩
  | .plc => ⟨0x118, 1, 12, (some 23), .h, true, true, true, false, false, true, 0x3F, 0x1, 0x3, 0x7⟩
  | .plcPh => ⟨0x119, 3, 12, (some 23), .h, true, true, true, false, false, true, 0x3, 0x1, 0x3, 0x3⟩
  | .uart => ⟨0x120, 8, 12, (some 24), .h, true, true, false, false, false, true, 0x7, 0x1, 0x3, 0x1⟩
  | .sbus => ⟨0x128, 1, 12, (some 35), .h, true, false, false, false, false, true, 0x3, 0x1, 0x0, 0x1⟩
  | .wake => ⟨0x129, 1, 0, (some 33), .m, true, false, false, false, true, false, 0x1, 0x1, 0x0, 0x1⟩
  | .nand => ⟨0x130, 1, 15, (some 25), .m, true, true, true, false, false, true, 0x7F, 0x19, 0x3, 0xF⟩
  | .ddr => ⟨0x131, 1, 14, (some 26), .m, true, true, false, false, false, true, 0x3, 0x1, 0x3, 0x0⟩
  | .qspi => ⟨0x138, 1, 2, (some 27), .m, true, false, false, false, true, false, 0x1, 0x0, 0x0, 0x0⟩
  | .upd => ⟨0x139, 1, 2, (some 27), .m, true, false, true, false, true, false, 0x7, 0x1, 0x0, 0x3⟩
  | .pcie => ⟨0x140, 1, 17, (some 28), .h, true, true, true, false, true, false, 0xF, 0x9, 0x3, 0x3⟩
  | .pulse => ⟨0x148, 1, 2, (some 37), .h, true, false, false, false, false, true, 0x3, 0x1, 0x0, 0x1⟩
  | .dbg => ⟨0x150, 1, 2, (some 38), .m, true, false, false, false, true, false, 0x3, 0x3, 0x0, 0x3⟩
  | .totals => ⟨0x160, 1, 1, (some 13), .m, true, true, true, false, true, false, 0x1F, 0x11, 0x3, 0x3⟩
  | .pair => ⟨0x161, 1, 11, (some 32), .m, true, true, true, false, false, true, 0x1F, 0xB, 0x18, 0x3⟩

/-- Every block type, in page order. -/
def allPg : List Pg :=
  [.chip, .pinmux, .pwr, .rst, .clk, .fc, .wdog, .lease, .sens, .evr, .lay, .strand, .splice, .ingest, .meterdb, .bal, .meas, .mp, .key, .kdf, .aead, .pke, .hash, .trng, .lcs, .tamper, .eth, .sgmii, .tsu, .rtc, .radio, .plc, .plcPh, .uart, .sbus, .wake, .nand, .ddr, .qspi, .upd, .pcie, .pulse, .dbg, .totals, .pair]

/-- The page a page index names (R67): the block type and the instance; none for an unmapped index. -/
def pageAt (idx : Nat) : Option (Pg × Nat) :=
  (allPg.find? (fun p => (pageInfo p).code ≤ idx && idx < (pageInfo p).code + (pageInfo p).count)).map
    (fun p => (p, idx - (pageInfo p).code))

/-- The power domain of a page (R24, R67). -/
def pageDomain (p : Pg) (inst : Nat) : Nat :=
  match p with
  | .lay => 3 + inst
  | .strand => 3 + inst / 16
  | q => (pageInfo q).domain

/-- The fault source a page's error line drives (R67). -/
def pageSource (p : Pg) (inst : Nat) : Option Nat :=
  match p with
  | .lay => some inst
  | .strand => some (inst / 16)
  | q => (pageInfo q).source

/-! Offsets of the block-specific registers in their pages. -/

abbrev rCHIP_PART : Nat := 0x040
abbrev rCHIP_REV : Nat := 0x044
abbrev rCHIP_HWTYPE : Nat := 0x048
abbrev rCHIP_SERIAL : Nat := 0x050
abbrev rCHIP_LCS : Nat := 0x058
abbrev rCHIP_OTP_STAT : Nat := 0x05C
abbrev rCHIP_ACC : Nat := 0x060
abbrev rCHIP_ACC_COUNT : Nat := 0x064
abbrev rCHIP_SCRATCH : Nat := 0x068
abbrev rSTR_STAT : Nat := 0x040
abbrev rSTR_PC : Nat := 0x044
abbrev rSTR_FAIL : Nat := 0x048
abbrev rSTR_ECC_ADDR : Nat := 0x04C
abbrev rSTR_CE_COUNT : Nat := 0x050
abbrev rSTR_TURNS : Nat := 0x054
abbrev rSTR_BP0 : Nat := 0x058
abbrev rSTR_BP1 : Nat := 0x05C
abbrev rSTR_DBG_SEL : Nat := 0x060
abbrev rSTR_DBG_DATA : Nat := 0x068
abbrev rSTR_KEY_STAT : Nat := 0x070
abbrev rLAY_CTRL : Nat := 0x040
abbrev rLAY_STAT : Nat := 0x044
abbrev rLAY_TURN_LEN : Nat := 0x048
abbrev rLAY_WHEEL : Nat := 0x04C
abbrev rLAY_FLOOR : Nat := 0x050
abbrev rLAY_CEIL : Nat := 0x054
abbrev rLAY_FREQ : Nat := 0x058
abbrev rLAY_TCYC : Nat := 0x05C
abbrev rLAY_TURNS : Nat := 0x060
abbrev rLAY_OUT : Nat := 0x064
abbrev rLAY_RETURN : Nat := 0x068
abbrev rLAY_GUARD_CNT : Nat := 0x06C
abbrev rLAY_SWITCH_CNT : Nat := 0x070
abbrev rLAY_LMEM_ECC : Nat := 0x074
abbrev rLAY_LMEM_CE_CNT : Nat := 0x078
abbrev rLAY_LD_SEL : Nat := 0x07C
abbrev rLAY_LD_ADDR : Nat := 0x080
abbrev rLAY_LD_DATA : Nat := 0x088
abbrev rSPL_POOL_FREE : Nat := 0x040
abbrev rSPL_OVR_FIRST : Nat := 0x044
abbrev rSPL_OVR_CNT : Nat := 0x048
abbrev rSPL_PTR_FIRST : Nat := 0x04C
abbrev rSPL_PTR_CNT : Nat := 0x050
abbrev rSPL_RST_DROP : Nat := 0x054
abbrev rSPL_UE_ADDR : Nat := 0x058
abbrev rSPL_CE_COUNT : Nat := 0x05C
abbrev rSPL_PEEK_ADDR : Nat := 0x060
abbrev rSPL_FLUSH : Nat := 0x064
abbrev rSPL_PEEK_DATA : Nat := 0x068
abbrev rSPL_PTR_CORR_CNT : Nat := 0x070
abbrev rING_CTRL : Nat := 0x040
abbrev rING_STAT : Nat := 0x044
abbrev rING_OPEN_ORDER : Nat := 0x048
abbrev rING_OPEN_STEP : Nat := 0x04C
abbrev rING_RETRY_MIN : Nat := 0x050
abbrev rING_RETRY_SPREAD : Nat := 0x054
abbrev rING_RETRY_MAX : Nat := 0x058
abbrev rING_START_RETRY : Nat := 0x05C
abbrev rING_UDP_PORTS : Nat := 0x060
abbrev rING_OUTSTANDING : Nat := 0x064
abbrev rING_WPORT : Nat := 0x068
abbrev rING_LATE_LIMIT : Nat := 0x088
abbrev rING_LATE_CNT : Nat := 0x08C
abbrev rING_LAT_MAX : Nat := 0x090
abbrev rING_DISCARD_CNT : Nat := 0x094
abbrev rING_SEQ : Nat := 0x098
abbrev rING_ROT : Nat := 0x09C
abbrev rING_SRC_SEL : Nat := 0x0A0
abbrev rING_SRC_RATE : Nat := 0x0A4
abbrev rING_SRC_BURST : Nat := 0x0A8
abbrev rING_SRC_CLASS : Nat := 0x0AC
abbrev rING_SRC_ADDR : Nat := 0x0B0
abbrev rING_SRC_CREDIT : Nat := 0x0C0
abbrev rING_SRC_ADMIT : Nat := 0x0C8
abbrev rING_SRC_REFUSE : Nat := 0x0D0
abbrev rING_CLS_ADMIT : Nat := 0x0D8
abbrev rING_CLS_REFUSE : Nat := 0x0E0
abbrev rING_WHY_CREDIT : Nat := 0x0E8
abbrev rING_WHY_BUDGET : Nat := 0x0EC
abbrev rING_WHY_SPACE : Nat := 0x0F0
abbrev rING_WHY_CLOSED : Nat := 0x0F4
abbrev rMDB_TBL_BASE : Nat := 0x040
abbrev rMDB_IDX_BASE : Nat := 0x044
abbrev rMDB_RETRY_MAX : Nat := 0x048
abbrev rMDB_RD_CMD : Nat := 0x04C
abbrev rMDB_RD_STAT : Nat := 0x050
abbrev rMDB_WR_CMD : Nat := 0x054
abbrev rMDB_WR_STAT : Nat := 0x058
abbrev rMDB_BULK_SRC : Nat := 0x05C
abbrev rMDB_BULK_CNT : Nat := 0x060
abbrev rMDB_BULK_CMD : Nat := 0x064
abbrev rMDB_BULK_DONE : Nat := 0x068
abbrev rMDB_RETRY_CNT : Nat := 0x06C
abbrev rMDB_FAIL_CNT : Nat := 0x070
abbrev rMDB_RD_BUF : Nat := 0x200
abbrev rMDB_WR_BUF : Nat := 0x400
abbrev rMEAS_CTRL : Nat := 0x040
abbrev rMEAS_STAT : Nat := 0x044
abbrev rMEAS_SYNT : Nat := 0x048
abbrev rMEAS_TSEQ : Nat := 0x04C
abbrev rMEAS_CH_EN : Nat := 0x050
abbrev rMEAS_STUCK : Nat := 0x060
abbrev rMEAS_OVR : Nat := 0x070
abbrev rMEAS_TEMP_HOST : Nat := 0x080
abbrev rMEAS_IVL_DROP : Nat := 0x0C0
abbrev rMP_CFG : Nat := 0x040
abbrev rMP_STAT : Nat := 0x044
abbrev rMP_EVT : Nat := 0x048
abbrev rMP_TEMP : Nat := 0x04C
abbrev rMP_FREQ : Nat := 0x050
abbrev rMP_VFS : Nat := 0x054
abbrev rMP_IFS : Nat := 0x058
abbrev rMP_VNOM : Nat := 0x05C
abbrev rMP_NOLOAD_P : Nat := 0x060
abbrev rMP_NOLOAD_Q : Nat := 0x064
abbrev rMP_REV_W : Nat := 0x068
abbrev rMP_EVCFG : Nat := 0x06C
abbrev rMP_KE : Nat := 0x070
abbrev rMP_COMMIT : Nat := 0x078
abbrev rCH_OFFSET : Nat := 0x080
abbrev rCH_GAIN : Nat := 0x084
abbrev rCH_DELAY : Nat := 0x088
abbrev rCH_DC : Nat := 0x08C
abbrev rPH_VRMS : Nat := 0x100
abbrev rPH_IRMS : Nat := 0x104
abbrev rPH_P : Nat := 0x108
abbrev rPH_Q : Nat := 0x10C
abbrev rMP_TTAB : Nat := 0x400
abbrev rTOT_STAT : Nat := 0x040
abbrev rTOT_TSEQ : Nat := 0x044
abbrev rTOT_SEL : Nat := 0x048
abbrev rTOT_SNAP_SEQ : Nat := 0x04C
abbrev rTOT_COUNT : Nat := 0x050
abbrev rTOT_AUX : Nat := 0x060
abbrev rTOT_WR_CNT : Nat := 0x068
abbrev rTOT_SNAP_SKIP : Nat := 0x06C
abbrev rTOT_CLEAR : Nat := 0x070
abbrev rTOT_SW_SEL : Nat := 0x074
abbrev rTOT_SW_DATA : Nat := 0x078
abbrev rTOT_DM_CFG : Nat := 0x080
abbrev rPUL_CFG : Nat := 0x040
abbrev rPUL_WEIGHT : Nat := 0x044
abbrev rPUL_BACKLOG : Nat := 0x048
abbrev rPUL_COUNT : Nat := 0x04C
abbrev rBAL_CTRL : Nat := 0x040
abbrev rBAL_STAT : Nat := 0x044
abbrev rBAL_SETTLE : Nat := 0x048
abbrev rBAL_LAMBDA : Nat := 0x04C
abbrev rBAL_ALARM : Nat := 0x050
abbrev rBAL_COND_MAX : Nat := 0x054
abbrev rBAL_MIN_IVL : Nat := 0x058
abbrev rBAL_ZERO : Nat := 0x05C
abbrev rBAL_LAST_CLOSED : Nat := 0x060
abbrev rBAL_NODES : Nat := 0x064
abbrev rBAL_ALARMS : Nat := 0x068
abbrev rBAL_UNIDENT : Nat := 0x06C
abbrev rBAL_LATE_CNT : Nat := 0x070
abbrev rBAL_FORCED_CNT : Nat := 0x074
abbrev rBAL_RPT_DROP : Nat := 0x078
abbrev rBAL_CLOSE_US : Nat := 0x07C
abbrev rBAL_IGNORED_CNT : Nat := 0x080
abbrev rRAD_CFG : Nat := 0x040
abbrev rRAD_STAT : Nat := 0x044
abbrev rRAD_PAN : Nat := 0x048
abbrev rRAD_CHAN : Nat := 0x04C
abbrev rRAD_EXT : Nat := 0x050
abbrev rRAD_CSMA : Nat := 0x058
abbrev rRAD_TIME0 : Nat := 0x05C
abbrev rRAD_TIME1 : Nat := 0x060
abbrev rRAD_TIME2 : Nat := 0x064
abbrev rRAD_KEYSLOT : Nat := 0x068
abbrev rRAD_TXCTR : Nat := 0x078
abbrev rRAD_TXRES : Nat := 0x07C
abbrev rRAD_TXCTR_RST : Nat := 0x080
abbrev rRAD_NB_SEL : Nat := 0x084
abbrev rRAD_NB_CFG : Nat := 0x088
abbrev rRAD_NB_SHORT : Nat := 0x08C
abbrev rRAD_NB_EXT : Nat := 0x090
abbrev rRAD_NB_CTR : Nat := 0x098
abbrev rRAD_NB_LINK : Nat := 0x09C
abbrev rRAD_STR_SEL : Nat := 0x0A0
abbrev rRAD_STR_ADDR : Nat := 0x0A8
abbrev rRAD_STR_INFO : Nat := 0x0B0
abbrev rRAD_STR_AGE : Nat := 0x0B4
abbrev rRAD_CNT_SEL : Nat := 0x0B8
abbrev rRAD_CNT : Nat := 0x0BC
abbrev rRAD_XREG : Nat := 0x0C0
abbrev rPLC_CFG : Nat := 0x040
abbrev rPLC_STAT : Nat := 0x044
abbrev rPLC_PAN : Nat := 0x048
abbrev rPLC_EXT : Nat := 0x050
abbrev rPLC_BCN : Nat := 0x058
abbrev rPLC_START : Nat := 0x05C
abbrev rPLC_QUIET : Nat := 0x060
abbrev rPLC_KEYSLOT : Nat := 0x070
abbrev rPLC_BCN_KEY : Nat := 0x080
abbrev rPLC_TXCTR : Nat := 0x084
abbrev rPLC_TXRES : Nat := 0x088
abbrev rPLC_TXCTR_RST : Nat := 0x08C
abbrev rPLC_CSMA : Nat := 0x090
abbrev rPLC_TIME0 : Nat := 0x094
abbrev rPLC_TIME1 : Nat := 0x098
abbrev rPLC_TIME2 : Nat := 0x09C
abbrev rPLC_SLOT : Nat := 0x0A0
abbrev rPLC_TM : Nat := 0x0A4
abbrev rPLC_PHASE : Nat := 0x0A8
abbrev rPLC_MAINS : Nat := 0x0AC
abbrev rPLC_BSEQ : Nat := 0x0B0
abbrev rPH_CFG : Nat := 0x040
abbrev rPH_STAT : Nat := 0x044
abbrev rPH_NB_SEL : Nat := 0x048
abbrev rPH_NB_CFG : Nat := 0x04C
abbrev rPH_NB_SHORT : Nat := 0x050
abbrev rPH_NB_EXT : Nat := 0x058
abbrev rPH_NB_CTR : Nat := 0x060
abbrev rPH_NB_LINK : Nat := 0x064
abbrev rPH_NB_PHASE : Nat := 0x068
abbrev rPH_NB_XSTAT : Nat := 0x06C
abbrev rPH_TM_SEL : Nat := 0x070
abbrev rPH_TM : Nat := 0x074
abbrev rPH_STR_SEL : Nat := 0x078
abbrev rPH_STR_ADDR : Nat := 0x080
abbrev rPH_STR_INFO : Nat := 0x088
abbrev rPH_STR_AGE : Nat := 0x08C
abbrev rPH_CNT_SEL : Nat := 0x090
abbrev rPH_CNT : Nat := 0x094
abbrev rTSU_CTRL : Nat := 0x040
abbrev rTSU_STAT : Nat := 0x044
abbrev rTSU_NOW : Nat := 0x048
abbrev rTSU_NOW_SECHI : Nat := 0x050
abbrev rTSU_FREQ : Nat := 0x054
abbrev rTSU_SLEW : Nat := 0x058
abbrev rTSU_SLEW_RATE : Nat := 0x05C
abbrev rTSU_STEP_BACK_LIMIT : Nat := 0x060
abbrev rTSU_STEP_CTL : Nat := 0x064
abbrev rTSU_STEP : Nat := 0x068
abbrev rTSU_REFUSED : Nat := 0x070
abbrev rTSU_OFFSET : Nat := 0x078
abbrev rTSU_STEP_CNT : Nat := 0x080
abbrev rTSU_LOCK : Nat := 0x084
abbrev rTSU_IVL : Nat := 0x088
abbrev rTSU_IVL_IDX : Nat := 0x08C
abbrev rTSU_PTP_CFG : Nat := 0x090
abbrev rTSU_PTP_PRIO2 : Nat := 0x094
abbrev rTSU_PORT_MODE : Nat := 0x098
abbrev rTSU_PTP_DISC : Nat := 0x09C
abbrev rTSU_ING_ASYM : Nat := 0x0A0
abbrev rTSU_EGR_ASYM : Nat := 0x0A4
abbrev rTSU_PPS : Nat := 0x0D0
abbrev rTSU_CAP_OVR_CNT : Nat := 0x0D4
abbrev rTSU_CAPC : Nat := 0x100
abbrev rTSU_CAP : Nat := 0x104
abbrev rRTC_CTRL : Nat := 0x040
abbrev rRTC_STAT : Nat := 0x044
abbrev rRTC_TIME : Nat := 0x048
abbrev rRTC_WDAY : Nat := 0x050
abbrev rRTC_DAY_OFS : Nat := 0x054
abbrev rRTC_CAL_DATE : Nat := 0x058
abbrev rRTC_CAL_TIME : Nat := 0x05C
abbrev rRTC_CAL_OFS : Nat := 0x060
abbrev rRTC_DISC_ERR : Nat := 0x064
abbrev rRTC_ALARM : Nat := 0x068
abbrev rRTC_CHG : Nat := 0x070
abbrev rRTC_VBAT : Nat := 0x074
abbrev rRTC_BAT_CNT : Nat := 0x078
abbrev rRTC_BKMEM : Nat := 0x080
abbrev rKEY_CMD : Nat := 0x040
abbrev rKEY_STAT : Nat := 0x044
abbrev rKEY_ARG : Nat := 0x048
abbrev rKEY_MASK : Nat := 0x04C
abbrev rKEY_LABEL : Nat := 0x050
abbrev rKEY_GEN_IN : Nat := 0x054
abbrev rKEY_CONTEXT : Nat := 0x058
abbrev rKEY_BUF_IN : Nat := 0x060
abbrev rKEY_BUF_OUT : Nat := 0x064
abbrev rKEY_SEL : Nat := 0x068
abbrev rKEY_ATTR : Nat := 0x06C
abbrev rKEY_ATTR_GEN : Nat := 0x070
abbrev rKEY_ATTR_PGEN : Nat := 0x074
abbrev rKEY_ATTR_MASK : Nat := 0x078
abbrev rKEY_ATTR_LABEL : Nat := 0x07C
abbrev rKEY_FREE : Nat := 0x080
abbrev rKEY_ORPH_CNT : Nat := 0x084
abbrev rKDF_SEL : Nat := 0x040
abbrev rKDF_LOADS : Nat := 0x044
abbrev rKDF_ORPH : Nat := 0x048
abbrev rKDF_DENY : Nat := 0x04C
abbrev rKDF_BADBLOB : Nat := 0x050
abbrev rKDF_PEND_MAX : Nat := 0x054
abbrev rJOB_CMD : Nat := 0x040
abbrev rJOB_STAT : Nat := 0x044
abbrev rJOB_SRC : Nat := 0x048
abbrev rJOB_DST : Nat := 0x04C
abbrev rJOB_LEN : Nat := 0x050
abbrev rJOB_PAR : Nat := 0x054
abbrev rPKE_CMD : Nat := 0x040
abbrev rPKE_STAT : Nat := 0x044
abbrev rPKE_BUF : Nat := 0x048
abbrev rPKE_DST : Nat := 0x04C
abbrev rPKE_LABEL : Nat := 0x050
abbrev rPKE_RESYNC : Nat := 0x054
abbrev rPKE_DONE_CNT : Nat := 0x058
abbrev rTRNG_STAT : Nat := 0x040
abbrev rTRNG_CUTOFF : Nat := 0x044
abbrev rTRNG_OUT : Nat := 0x048
abbrev rTRNG_RESEEDS : Nat := 0x050
abbrev rTRNG_NEAR : Nat := 0x054
abbrev rLCS_STATE : Nat := 0x040
abbrev rLCS_CTRL : Nat := 0x044
abbrev rLCS_STAT : Nat := 0x048
abbrev rLCS_ROOT_ID : Nat := 0x04C
abbrev rLCS_OTP_MAP : Nat := 0x050
abbrev rLCS_OTP_CMD : Nat := 0x054
abbrev rLCS_AUTH_LEFT : Nat := 0x058
abbrev rLCS_CHAL : Nat := 0x060
abbrev rLCS_OTP_DATA : Nat := 0x080
abbrev rTAMPER_CFG : Nat := 0x040
abbrev rTAMPER_STAT : Nat := 0x050
abbrev rTAMPER_TIME : Nat := 0x058
abbrev rTAMPER_CNT : Nat := 0x060
abbrev rNAND_FIT : Nat := 0x040
abbrev rNAND_STAT : Nat := 0x044
abbrev rNAND_GC : Nat := 0x048
abbrev rNAND_THROTTLE : Nat := 0x04C
abbrev rNAND_ECC : Nat := 0x050
abbrev rNAND_WL : Nat := 0x054
abbrev rNAND_TEMP_SRC : Nat := 0x058
abbrev rNAND_HSEL : Nat := 0x05C
abbrev rNAND_H_BLOCKS : Nat := 0x060
abbrev rNAND_H_BAD : Nat := 0x064
abbrev rNAND_H_WEAR : Nat := 0x068
abbrev rNAND_THIST : Nat := 0x06C
abbrev rNAND_CNT_SEL : Nat := 0x070
abbrev rNAND_CNT : Nat := 0x078
abbrev rNAND_UE_ADDR : Nat := 0x080
abbrev rNAND_SCAN_MS : Nat := 0x084
abbrev rSENS_CTRL : Nat := 0x040
abbrev rSENS_T_WARN : Nat := 0x044
abbrev rSENS_T_ALARM : Nat := 0x048
abbrev rSENS_V_WARN : Nat := 0x04C
abbrev rSENS_V_ALARM : Nat := 0x050
abbrev rSENS_T_LIM : Nat := 0x054
abbrev rSENS_T_MAX : Nat := 0x058
abbrev rSENS_V_SEL : Nat := 0x05C
abbrev rSENS_T : Nat := 0x060
abbrev rSENS_V_LO : Nat := 0x090
abbrev rSENS_V_HI : Nat := 0x094
abbrev rSENS_V : Nat := 0x0A0
abbrev rWDG_HOST_CFG : Nat := 0x040
abbrev rWDG_HOST_WIN : Nat := 0x044
abbrev rWDG_HOST_KICK : Nat := 0x048
abbrev rWDG_HOST_LEFT : Nat := 0x04C
abbrev rWDG_LANY_CFG : Nat := 0x050
abbrev rWDG_LANY_KICK : Nat := 0x054
abbrev rWDG_LANY_LEFT : Nat := 0x058
abbrev rWDG_CNT : Nat := 0x05C
abbrev rLNY_STAT : Nat := 0x060
abbrev rLNY_ERR : Nat := 0x064
abbrev rLNY_MEM_ADDR : Nat := 0x068
abbrev rLNY_CE_COUNT : Nat := 0x06C
abbrev rLNY_INJ : Nat := 0x070
abbrev rFC_STATUS : Nat := 0x040
abbrev rFC_FIRST : Nat := 0x048
abbrev rFC_OVERFLOW : Nat := 0x04C
abbrev rFC_PIN : Nat := 0x050
abbrev rFC_STAT : Nat := 0x054
abbrev rFC_LOST_CNT : Nat := 0x058
abbrev rFC_FORCE : Nat := 0x05C
abbrev rFC_SEQ_CNT : Nat := 0x060
abbrev rFC_REACT : Nat := 0x100
abbrev rEVR_CTRL : Nat := 0x040
abbrev rEVR_STAT : Nat := 0x044
abbrev rEVR_HEAD : Nat := 0x048
abbrev rEVR_DURABLE : Nat := 0x04C
abbrev rEVR_OPSEC : Nat := 0x050
abbrev rEVR_PCYC : Nat := 0x054
abbrev rEVR_LOST : Nat := 0x058
abbrev rEVR_SUBMIT : Nat := 0x05C
abbrev rEVR_ARG : Nat := 0x060
abbrev rEVR_CLS_SEL : Nat := 0x070
abbrev rEVR_CLS_ADDR : Nat := 0x074
abbrev rEVR_RD_SEQ : Nat := 0x078
abbrev rEVR_RD_CMD : Nat := 0x07C
abbrev rEVR_RD_STAT : Nat := 0x080
abbrev rEVR_RD_BUF : Nat := 0x0C0
abbrev rLEASE_CTRL : Nat := 0x040
abbrev rLEASE_STAT : Nat := 0x044
abbrev rLEASE_EPOCH : Nat := 0x048
abbrev rLEASE_PEER_EPOCH : Nat := 0x04C
abbrev rLEASE_LEFT : Nat := 0x050
abbrev rLEASE_RSEQ : Nat := 0x054
abbrev rLEASE_FENCE_CNT : Nat := 0x058
abbrev rPAIR_CTRL : Nat := 0x040
abbrev rPAIR_STAT : Nat := 0x044
abbrev rPAIR_KEYSLOT : Nat := 0x048
abbrev rPAIR_HOST_CMD : Nat := 0x04C
abbrev rPAIR_PEER_SERIAL : Nat := 0x050
abbrev rPAIR_HEALTH_DST : Nat := 0x058
abbrev rPAIR_HEALTH_UDP : Nat := 0x05C
abbrev rPAIR_HEALTH_IP : Nat := 0x060
abbrev rPAIR_CNT_SEL : Nat := 0x070
abbrev rPAIR_CNT : Nat := 0x074
abbrev rUPD_KSEL : Nat := 0x040
abbrev rUPD_STAT : Nat := 0x044
abbrev rUPD_VER : Nat := 0x048
abbrev rUPD_RCV_VER : Nat := 0x050
abbrev rUPD_PIECES : Nat := 0x058
abbrev rUPD_RB : Nat := 0x05C
abbrev rUPD_CNT_SEL : Nat := 0x060
abbrev rUPD_CNT : Nat := 0x064
abbrev rQSPI_CFG : Nat := 0x040
abbrev rQSPI_STAT : Nat := 0x044
abbrev rQSPI_ADDR : Nat := 0x048
abbrev rQSPI_CMD : Nat := 0x04C
abbrev rQSPI_LEN : Nat := 0x050
abbrev rQSPI_FIT : Nat := 0x054
abbrev rQSPI_BUF : Nat := 0x100
abbrev rPWR_STAT : Nat := 0x040
abbrev rPWR_SLEEP : Nat := 0x044
abbrev rPWR_FAIL_DOM : Nat := 0x048
abbrev rPWR_PF_CFG : Nat := 0x04C
abbrev rPWR_RET_LAY : Nat := 0x050
abbrev rPWR_RET_MISC : Nat := 0x058
abbrev rPWR_DOM : Nat := 0x084
abbrev rRST_CAUSE : Nat := 0x040
abbrev rRST_SEEN : Nat := 0x044
abbrev rRST_COUNT : Nat := 0x048
abbrev rRST_CTRL : Nat := 0x04C
abbrev rRST_FC_FIRST : Nat := 0x050
abbrev rRST_BOOT : Nat := 0x054
abbrev rRST_FC_STATUS : Nat := 0x058
abbrev rCLK_STAT : Nat := 0x040
abbrev rCLK_REF_MON : Nat := 0x044
abbrev rCLK_REF_DEV : Nat := 0x048
abbrev rCLK_LAY : Nat := 0x080
abbrev rWAKE_CFG : Nat := 0x040
abbrev rWAKE_SRC_EN : Nat := 0x044
abbrev rWAKE_CAUSE : Nat := 0x048
abbrev rWAKE_MSG : Nat := 0x04C
abbrev rWAKE_REPLY : Nat := 0x050
abbrev rDBG_GUARD_MASK : Nat := 0x040
abbrev rDBG_STAT : Nat := 0x044
abbrev rDBG_FREEZE : Nat := 0x048
abbrev rDBG_KEY : Nat := 0x04C
abbrev rDBG_AUTH_FAIL : Nat := 0x050
abbrev rDBG_LBP : Nat := 0x060
abbrev rPCIE_STAT : Nat := 0x040
abbrev rPCIE_ID : Nat := 0x044
abbrev rPCIE_SUBID : Nat := 0x048
abbrev rPCIE_RC_SEL : Nat := 0x04C
abbrev rPCIE_RC_CTRL : Nat := 0x050
abbrev rPCIE_RC_CFG : Nat := 0x054
abbrev rPCIE_RC_BASE : Nat := 0x058
abbrev rPCIE_RC_WB : Nat := 0x060
abbrev rPCIE_RC_IRQ : Nat := 0x068
abbrev rPCIE_RC_STAT : Nat := 0x06C
abbrev rPCIE_RC_ERR : Nat := 0x070
abbrev rPCIE_CNT_SEL : Nat := 0x074
abbrev rPCIE_CNT : Nat := 0x078
abbrev rETH_CFG : Nat := 0x040
abbrev rETH_STAT : Nat := 0x044
abbrev rETH_MAC : Nat := 0x048
abbrev rETH_VLAN : Nat := 0x050
abbrev rETH_PFX_LEN : Nat := 0x054
abbrev rETH_GW : Nat := 0x058
abbrev rETH_PFX : Nat := 0x060
abbrev rETH_ADDR : Nat := 0x080
abbrev rETH_ADDR_CTL : Nat := 0x0C0
abbrev rETH_NC_FLUSH : Nat := 0x0D0
abbrev rETH_CNT_SEL : Nat := 0x0D4
abbrev rETH_CNT : Nat := 0x0D8
abbrev rSG_AN : Nat := 0x0E0
abbrev rSG_MDIO : Nat := 0x0E4
abbrev rUART_CFG : Nat := 0x040
abbrev rUART_DIV : Nat := 0x044
abbrev rUART_STAT : Nat := 0x048
abbrev rUART_HDLC : Nat := 0x04C
abbrev rUART_ST_SEL : Nat := 0x050
abbrev rUART_ST_ADDR : Nat := 0x054
abbrev rUART_ST_CFG : Nat := 0x058
abbrev rUART_ST_STAT : Nat := 0x05C
abbrev rUART_CNT_SEL : Nat := 0x060
abbrev rUART_CNT : Nat := 0x064
abbrev rSB_CFG : Nat := 0x040
abbrev rSB_STAT : Nat := 0x044
abbrev rSB_SEL : Nat := 0x048
abbrev rSB_SLOT_CFG : Nat := 0x04C
abbrev rSB_SLOT_SCALE : Nat := 0x050
abbrev rSB_SLOT_VAL : Nat := 0x054
abbrev rSB_CNT_SEL : Nat := 0x058
abbrev rSB_CNT : Nat := 0x05C
abbrev rPMX_CLAIM : Nat := 0x040
abbrev rPMX_RESULT : Nat := 0x044
abbrev rPMX_CONFLICT : Nat := 0x048
abbrev rPMX_CONFLICT_CNT : Nat := 0x04C
abbrev rPMX_GPIO_DIR : Nat := 0x050
abbrev rPMX_GPIO_OUT : Nat := 0x054
abbrev rPMX_GPIO_SET : Nat := 0x058
abbrev rPMX_GPIO_CLR : Nat := 0x05C
abbrev rPMX_GPIO_IN : Nat := 0x060
abbrev rPMX_GPIO_RISE : Nat := 0x064
abbrev rPMX_GPIO_FALL : Nat := 0x068
abbrev rPMX_GPIO_EDGE : Nat := 0x06C
abbrev rPMX_TMR_LOAD : Nat := 0x080
abbrev rPMX_TMR_CTRL : Nat := 0x084
abbrev rPMX_OWN : Nat := 0x200

/-- The register table of the chip page. -/
def chipRows : List RegRow := [
  ⟨0x040, 1, 4, false, 0x53504128, .none, [fld 31 0 .ro]⟩,
  ⟨0x044, 1, 4, false, 0xA1, .none, [fld 31 0 .ro]⟩,
  ⟨0x048, 1, 4, false, 0x4128A001, .none, [fld 31 16 .ro, fld 15 8 .ro, fld 3 0 .ro]⟩,
  ⟨0x050, 1, 8, true, 0x1, .none, [fld 63 0 .ro]⟩,
  ⟨0x058, 1, 4, false, 0x0, .none, [fld 2 0 .ro]⟩,
  ⟨0x05C, 1, 4, false, 0x1, .none, [fld 31 0 .ro]⟩,
  ⟨0x060, 1, 4, false, 0x0, .none, [fld 31 31 .ro, fld 30 27 .ro, fld 26 24 .ro, fld 23 0 .ro]⟩,
  ⟨0x064, 1, 4, false, 0x0, .none, [fld 31 0 .rc]⟩,
  ⟨0x068, 1, 4, false, 0x0, .h, [fld 31 0 .rw]⟩]

/-- The register table of the pinmux page. -/
def pinmuxRows : List RegRow := [
  ⟨0x040, 1, 4, false, 0x0, .h, [fld 31 31 .wo, fld 30 30 .wo, fld 15 8 .wo, fld 6 0 .wo]⟩,
  ⟨0x044, 1, 4, false, 0x0, .none, [fld 31 0 .ro]⟩,
  ⟨0x048, 1, 4, false, 0x0, .none, [fld 31 0 .ro]⟩,
  ⟨0x04C, 1, 4, false, 0x0, .none, [fld 31 0 .rc]⟩,
  ⟨0x050, 1, 4, false, 0x0, .h, [fld 31 0 .rw]⟩,
  ⟨0x054, 1, 4, false, 0x0, .h, [fld 31 0 .rw]⟩,
  ⟨0x058, 1, 4, false, 0x0, .h, [fld 31 0 .wo]⟩,
  ⟨0x05C, 1, 4, false, 0x0, .h, [fld 31 0 .wo]⟩,
  ⟨0x060, 1, 4, false, 0x0, .none, [fld 31 0 .ro]⟩,
  ⟨0x064, 1, 4, false, 0x0, .h, [fld 31 0 .rw]⟩,
  ⟨0x068, 1, 4, false, 0x0, .h, [fld 31 0 .rw]⟩,
  ⟨0x06C, 1, 4, false, 0x0, .h, [fld 31 0 .w1c]⟩,
  ⟨0x080, 8, 8, false, 0x0, .h, [fldr 31 0 1 0xFFFFFFFF]⟩,
  ⟨0x084, 8, 8, false, 0x0, .h, [fld 31 31 .rw, fld 30 30 .rw, fld 29 29 .w1c]⟩,
  ⟨0x200, 72, 4, false, 0x0, .none, [fld 31 0 .ro]⟩]

/-- The register table of the pwr page. -/
def pwrRows : List RegRow := [
  ⟨0x040, 1, 4, false, 0x0, .none, [fld 31 0 .ro]⟩,
  ⟨0x044, 1, 4, false, 0x0, .m, [fld 31 31 .wo, fld 0 0 .wo]⟩,
  ⟨0x048, 1, 4, false, 0x0, .none, [fld 31 0 .ro]⟩,
  ⟨0x04C, 1, 4, false, 0xC0000B86, .s, [fld 31 31 .rw, fld 30 30 .rw, fldr 11 0 2700 3200]⟩,
  ⟨0x050, 1, 8, true, 0x0, .m, [fld 63 0 .rw]⟩,
  ⟨0x058, 1, 4, false, 0x0, .m, [fld 23 16 .rw, fld 15 0 .rw]⟩,
  ⟨0x084, 17, 4, false, 0x0, .m, [fld 31 31 .ro, fld 25 24 .ro, fld 17 16 .ro, fld 1 0 .rw]⟩]

/-- The register table of the rst page. -/
def rstRows : List RegRow := [
  ⟨0x040, 1, 4, false, 0x1, .none, [fld 31 0 .ro]⟩,
  ⟨0x044, 1, 4, false, 0x1, .m, [fld 31 0 .w1c]⟩,
  ⟨0x048, 1, 4, false, 0x0, .none, [fld 31 0 .ro]⟩,
  ⟨0x04C, 1, 4, false, 0x0, .m, [fld 31 31 .wo, fld 15 0 .wo]⟩,
  ⟨0x050, 1, 4, false, 0x0, .none, [fld 31 0 .ro]⟩,
  ⟨0x054, 1, 4, false, 0x0, .none, [fld 31 0 .ro]⟩,
  ⟨0x058, 1, 8, true, 0x0, .none, [fld 63 0 .ro]⟩]

/-- The register table of the clk page. -/
def clkRows : List RegRow := [
  ⟨0x040, 1, 4, false, 0x0, .none, [fld 31 0 .ro]⟩,
  ⟨0x044, 1, 4, false, 0x800001F4, .s, [fld 31 31 .rw, fldr 11 0 50 2000]⟩,
  ⟨0x048, 1, 4, false, 0x0, .none, [fld 31 0 .ro]⟩,
  ⟨0x080, 8, 4, false, 0xC3500, .m, [fldr 19 0 400000 1000000]⟩]

/-- The register table of the fc page. -/
def fcRows : List RegRow := [
  ⟨0x040, 1, 8, true, 0x0, .s, [fld 63 0 .w1c]⟩,
  ⟨0x048, 1, 4, false, 0x0, .s, [fld 31 31 .w1c, fld 5 0 .ro]⟩,
  ⟨0x04C, 1, 4, false, 0x0, .s, [fld 31 31 .w1c, fld 15 0 .ro]⟩,
  ⟨0x050, 1, 4, false, 0x3E8, .s, [fld 31 31 .rw, fld 30 30 .wo, fldr 19 0 10 100000]⟩,
  ⟨0x054, 1, 4, false, 0x0, .s, [fld 2 2 .w1c, fld 1 0 .ro]⟩,
  ⟨0x058, 1, 4, false, 0x0, .none, [fld 31 0 .rc]⟩,
  ⟨0x05C, 1, 4, false, 0x0, .s, [fld 31 31 .wo, fld 5 0 .wo]⟩,
  ⟨0x060, 1, 4, false, 0x0, .none, [fld 31 0 .ro]⟩,
  ⟨0x100, 64, 4, false, 0x1, .s, [fld 4 0 .rw]⟩]

/-- The register table of the wdog page. -/
def wdogRows : List RegRow := [
  ⟨0x040, 1, 4, false, 0x1388, .s, [fld 31 31 .rw, fld 15 0 .rw]⟩,
  ⟨0x044, 1, 4, false, 0x0, .s, [fld 15 0 .rw]⟩,
  ⟨0x048, 1, 4, false, 0x0, .h, [fld 31 0 .wo]⟩,
  ⟨0x04C, 1, 4, false, 0x0, .none, [fld 31 0 .ro]⟩,
  ⟨0x050, 1, 4, false, 0x640064, .s, [fldr 31 16 10 10000, fldr 15 0 10 10000]⟩,
  ⟨0x054, 1, 4, false, 0x0, .s, [fld 31 0 .wo]⟩,
  ⟨0x058, 1, 4, false, 0x64, .none, [fld 31 0 .ro]⟩,
  ⟨0x05C, 1, 4, false, 0x0, .none, [fld 31 0 .rc]⟩,
  ⟨0x060, 1, 4, false, 0x0, .none, [fld 31 0 .ro]⟩,
  ⟨0x064, 1, 4, false, 0x0, .s, [fld 2 0 .w1c]⟩,
  ⟨0x068, 1, 4, false, 0x0, .none, [fld 31 0 .ro]⟩,
  ⟨0x06C, 1, 4, false, 0x0, .none, [fld 31 0 .rc]⟩,
  ⟨0x070, 1, 4, false, 0x0, .s, [fld 31 31 .rw, fld 2 0 .rw]⟩]

/-- The register table of the lease page. -/
def leaseRows : List RegRow := [
  ⟨0x040, 1, 4, false, 0x0, .s, [fld 1 1 .rw, fld 0 0 .rw]⟩,
  ⟨0x044, 1, 4, false, 0x0, .none, [fld 31 0 .ro]⟩,
  ⟨0x048, 1, 4, false, 0x0, .none, [fld 31 0 .ro]⟩,
  ⟨0x04C, 1, 4, false, 0x0, .none, [fld 31 0 .ro]⟩,
  ⟨0x050, 1, 4, false, 0x0, .none, [fld 31 0 .ro]⟩,
  ⟨0x054, 1, 4, false, 0x0, .none, [fld 31 0 .ro]⟩,
  ⟨0x058, 1, 4, false, 0x0, .none, [fld 31 0 .rc]⟩]

/-- The register table of the sens page. -/
def sensRows : List RegRow := [
  ⟨0x040, 1, 4, false, 0xA2004, .m, [fld 23 16 .rw, fld 15 8 .rw, fldr 3 0 1 15]⟩,
  ⟨0x044, 1, 4, false, 0x0, .none, [fld 31 0 .ro]⟩,
  ⟨0x048, 1, 4, false, 0x0, .none, [fld 31 0 .ro]⟩,
  ⟨0x04C, 1, 4, false, 0x0, .none, [fld 31 0 .ro]⟩,
  ⟨0x050, 1, 4, false, 0x0, .none, [fld 31 0 .ro]⟩,
  ⟨0x054, 1, 4, false, 0x7300640, .m, [fld 31 16 .rw, fld 15 0 .rw]⟩,
  ⟨0x058, 1, 4, false, 0x0, .none, [fld 31 0 .rc]⟩,
  ⟨0x05C, 1, 4, false, 0x0, .m, [fldr 4 0 0 19]⟩,
  ⟨0x060, 12, 4, false, 0x0, .none, [fld 31 0 .ro]⟩,
  ⟨0x090, 1, 4, false, 0x0, .m, [fld 31 31 .rw, fld 27 16 .rw, fld 11 0 .rw]⟩,
  ⟨0x094, 1, 4, false, 0x0, .m, [fld 27 16 .rw, fld 11 0 .rw]⟩,
  ⟨0x0A0, 20, 4, false, 0x0, .none, [fld 31 0 .ro]⟩]

/-- The register table of the evr page. -/
def evrRows : List RegRow := [
  ⟨0x040, 1, 4, false, 0x0, .m, [fld 0 0 .wo]⟩,
  ⟨0x044, 1, 4, false, 0x0, .none, [fld 31 0 .ro]⟩,
  ⟨0x048, 1, 4, false, 0x0, .none, [fld 31 0 .ro]⟩,
  ⟨0x04C, 1, 4, false, 0x0, .none, [fld 31 0 .ro]⟩,
  ⟨0x050, 1, 4, false, 0x0, .none, [fld 31 0 .ro]⟩,
  ⟨0x054, 1, 4, false, 0x0, .none, [fld 31 0 .ro]⟩,
  ⟨0x058, 1, 4, false, 0x0, .none, [fld 31 0 .rc]⟩,
  ⟨0x05C, 1, 4, false, 0x0, .m, [fld 31 31 .wo, fld 16 16 .wo, fld 15 8 .wo, fld 7 0 .wo]⟩,
  ⟨0x060, 4, 4, false, 0x0, .m, [fld 31 0 .rw]⟩,
  ⟨0x070, 1, 4, false, 0x0, .m, [fldr 11 8 0 11, fld 4 0 .rw]⟩,
  ⟨0x074, 1, 4, false, 0x0, .m, [fld 31 31 .rw, fld 23 2 .rw]⟩,
  ⟨0x078, 1, 4, false, 0x0, .h, [fld 31 0 .rw]⟩,
  ⟨0x07C, 1, 4, false, 0x0, .h, [fld 31 31 .wo]⟩,
  ⟨0x080, 1, 4, false, 0x0, .none, [fld 31 0 .ro]⟩,
  ⟨0x0C0, 16, 4, false, 0x0, .none, [fld 31 0 .ro]⟩]

/-- The register table of the lay page. -/
def layRows : List RegRow := [
  ⟨0x040, 1, 4, false, 0x0, .m, [fld 3 3 .wo, fld 2 2 .wo, fld 1 1 .wo, fld 0 0 .rw]⟩,
  ⟨0x044, 1, 4, false, 0x0, .none, [fld 20 16 .ro, fld 5 5 .ro, fld 4 4 .ro, fld 3 3 .ro, fld 2 0 .ro]⟩,
  ⟨0x048, 1, 4, false, 0x2000, .m, [fldr 16 0 1024 65536]⟩,
  ⟨0x04C, 1, 4, false, 0x8, .m, [fldr 3 0 4 12]⟩,
  ⟨0x050, 1, 4, false, 0xC3500, .m, [fldr 19 0 400000 1000000]⟩,
  ⟨0x054, 1, 4, false, 0xC3500, .m, [fldr 19 0 400000 1000000]⟩,
  ⟨0x058, 1, 4, false, 0x0, .none, [fld 31 0 .ro]⟩,
  ⟨0x05C, 1, 4, false, 0x0, .none, [fld 31 0 .ro]⟩,
  ⟨0x060, 1, 4, false, 0x0, .none, [fld 31 0 .ro]⟩,
  ⟨0x064, 1, 4, false, 0x0, .none, [fld 31 0 .ro]⟩,
  ⟨0x068, 1, 4, false, 0x0, .m, [fld 31 31 .wo, fld 3 0 .wo]⟩,
  ⟨0x06C, 1, 4, false, 0x0, .none, [fld 31 0 .rc]⟩,
  ⟨0x070, 1, 4, false, 0x0, .none, [fld 31 0 .ro]⟩,
  ⟨0x074, 1, 4, false, 0x0, .none, [fld 31 31 .ro, fld 30 30 .ro, fld 29 29 .ro, fld 21 3 .ro]⟩,
  ⟨0x078, 1, 4, false, 0x0, .none, [fld 31 0 .rc]⟩,
  ⟨0x07C, 1, 4, false, 0x0, .m, [fld 19 16 .rw, fld 12 8 .rw, fld 7 0 .rw]⟩,
  ⟨0x080, 1, 4, false, 0x0, .m, [fld 31 0 .rw]⟩,
  ⟨0x088, 1, 8, true, 0x0, .m, [fld 63 0 .rw]⟩]

/-- The register table of the strand page. -/
def strandRows : List RegRow := [
  ⟨0x040, 1, 4, false, 0x0, .none, [fld 20 16 .ro, fld 2 0 .ro]⟩,
  ⟨0x044, 1, 4, false, 0x0, .none, [fld 31 0 .ro]⟩,
  ⟨0x048, 1, 4, false, 0x0, .none, [fld 31 31 .ro, fld 20 16 .ro, fld 15 0 .ro]⟩,
  ⟨0x04C, 1, 4, false, 0x0, .none, [fld 31 31 .ro, fld 30 30 .ro, fld 29 29 .ro, fld 28 28 .ro, fld 16 0 .ro]⟩,
  ⟨0x050, 1, 4, false, 0x0, .none, [fld 31 0 .rc]⟩,
  ⟨0x054, 1, 4, false, 0x0, .none, [fld 31 0 .ro]⟩,
  ⟨0x058, 1, 4, false, 0x0, .m, [fld 31 31 .rw, fld 12 0 .rw]⟩,
  ⟨0x05C, 1, 4, false, 0x0, .m, [fld 31 31 .rw, fld 12 0 .rw]⟩,
  ⟨0x060, 1, 4, false, 0x0, .m, [fld 7 0 .rw]⟩,
  ⟨0x068, 1, 8, true, 0x0, .m, [fld 63 0 .rw]⟩,
  ⟨0x070, 1, 4, false, 0x0, .none, [fld 31 0 .ro]⟩]

/-- The register table of the splice page. -/
def spliceRows : List RegRow := [
  ⟨0x040, 1, 4, false, 0x1B000, .none, [fld 31 0 .ro]⟩,
  ⟨0x044, 1, 4, false, 0x0, .none, [fld 31 31 .ro, fld 12 0 .ro]⟩,
  ⟨0x048, 1, 4, false, 0x0, .none, [fld 31 0 .rc]⟩,
  ⟨0x04C, 1, 4, false, 0x0, .none, [fld 31 31 .ro, fld 12 0 .ro]⟩,
  ⟨0x050, 1, 4, false, 0x0, .none, [fld 31 0 .rc]⟩,
  ⟨0x054, 1, 4, false, 0x0, .none, [fld 31 0 .rc]⟩,
  ⟨0x058, 1, 4, false, 0x0, .none, [fld 31 31 .ro, fld 30 30 .ro, fld 19 3 .ro, fld 2 0 .ro]⟩,
  ⟨0x05C, 1, 4, false, 0x0, .none, [fld 31 0 .rc]⟩,
  ⟨0x060, 1, 4, false, 0x0, .m, [fld 19 0 .rw]⟩,
  ⟨0x064, 1, 4, false, 0x0, .m, [fld 31 31 .wo, fld 12 0 .wo]⟩,
  ⟨0x068, 1, 8, true, 0x0, .none, [fld 63 0 .ro]⟩,
  ⟨0x070, 1, 4, false, 0x0, .none, [fld 31 0 .rc]⟩]

/-- The register table of the ingest page. -/
def ingestRows : List RegRow := [
  ⟨0x040, 1, 4, false, 0x0, .m, [fld 2 2 .wo, fld 1 1 .wo, fld 0 0 .rw]⟩,
  ⟨0x044, 1, 4, false, 0x0, .none, [fld 17 17 .ro, fld 16 16 .ro, fld 6 1 .ro]⟩,
  ⟨0x048, 1, 4, false, 0xFF451362, .m, [fld 31 0 .rw]⟩,
  ⟨0x04C, 1, 4, false, 0x1F4, .h, [fldr 31 0 1 60000]⟩,
  ⟨0x050, 1, 4, false, 0xA, .h, [fld 15 0 .rw]⟩,
  ⟨0x054, 1, 4, false, 0x14, .h, [fld 15 0 .rw]⟩,
  ⟨0x058, 1, 4, false, 0xBB8, .h, [fld 15 0 .rw]⟩,
  ⟨0x05C, 1, 4, false, 0x12C000A, .h, [fld 31 16 .rw, fld 15 0 .rw]⟩,
  ⟨0x060, 1, 4, false, 0x50570FDB, .h, [fld 31 16 .rw, fld 15 0 .rw]⟩,
  ⟨0x064, 1, 4, false, 0x0, .none, [fld 31 0 .ro]⟩,
  ⟨0x068, 8, 4, false, 0x0, .h, [fld 31 31 .rw, fld 19 16 .rw, fld 15 0 .rw]⟩,
  ⟨0x088, 1, 4, false, 0x5618, .h, [fldr 31 0 1 1000000]⟩,
  ⟨0x08C, 1, 4, false, 0x0, .none, [fld 31 0 .rc]⟩,
  ⟨0x090, 1, 4, false, 0x0, .none, [fld 31 0 .rc]⟩,
  ⟨0x094, 1, 4, false, 0x0, .none, [fld 31 0 .rc]⟩,
  ⟨0x098, 1, 4, false, 0x0, .none, [fld 31 0 .ro]⟩,
  ⟨0x09C, 1, 4, false, 0x0, .none, [fld 26 24 .ro, fld 18 16 .ro, fld 15 8 .ro, fld 7 0 .ro]⟩,
  ⟨0x0A0, 1, 4, false, 0x0, .h, [fld 31 31 .wo, fld 30 30 .wo, fld 18 16 .rw, fld 11 0 .rw]⟩,
  ⟨0x0A4, 1, 4, false, 0x0, .h, [fld 19 0 .rw]⟩,
  ⟨0x0A8, 1, 4, false, 0x0, .h, [fld 31 31 .rw, fldr 18 16 0 3, fld 15 0 .rw]⟩,
  ⟨0x0AC, 1, 4, false, 0x0, .h, [fld 27 16 .rw, fld 6 1 .rw]⟩,
  ⟨0x0B0, 4, 4, false, 0x0, .h, [fld 31 0 .rw]⟩,
  ⟨0x0C0, 1, 4, false, 0x0, .none, [fld 31 0 .ro]⟩,
  ⟨0x0C8, 1, 8, true, 0x0, .none, [fld 63 0 .ro]⟩,
  ⟨0x0D0, 1, 8, true, 0x0, .none, [fld 63 0 .ro]⟩,
  ⟨0x0D8, 1, 8, true, 0x0, .none, [fld 63 0 .ro]⟩,
  ⟨0x0E0, 1, 8, true, 0x0, .none, [fld 63 0 .ro]⟩,
  ⟨0x0E8, 1, 4, false, 0x0, .none, [fld 31 0 .ro]⟩,
  ⟨0x0EC, 1, 4, false, 0x0, .none, [fld 31 0 .ro]⟩,
  ⟨0x0F0, 1, 4, false, 0x0, .none, [fld 31 0 .ro]⟩,
  ⟨0x0F4, 1, 4, false, 0x0, .none, [fld 31 0 .ro]⟩]

/-- The register table of the meterdb page. -/
def meterdbRows : List RegRow := [
  ⟨0x040, 1, 4, false, 0x0, .m, [fld 23 0 .rw]⟩,
  ⟨0x044, 1, 4, false, 0x0, .m, [fld 23 0 .rw]⟩,
  ⟨0x048, 1, 4, false, 0x8, .h, [fldr 7 0 1 255]⟩,
  ⟨0x04C, 1, 4, false, 0x0, .h, [fld 31 31 .wo, fld 26 24 .rw, fld 19 0 .rw]⟩,
  ⟨0x050, 1, 4, false, 0x0, .none, [fld 31 31 .ro, fld 18 16 .ro, fld 15 8 .ro, fld 3 0 .ro]⟩,
  ⟨0x054, 1, 4, false, 0x0, .m, [fld 31 31 .wo, fld 26 24 .rw, fld 19 0 .rw]⟩,
  ⟨0x058, 1, 4, false, 0x0, .none, [fld 31 31 .ro, fld 18 16 .ro, fld 15 8 .ro, fld 3 0 .ro]⟩,
  ⟨0x05C, 1, 4, false, 0x0, .m, [fld 31 0 .rw]⟩,
  ⟨0x060, 1, 4, false, 0x0, .m, [fld 20 0 .rw]⟩,
  ⟨0x064, 1, 4, false, 0x0, .m, [fld 31 31 .wo, fld 30 30 .wo]⟩,
  ⟨0x068, 1, 4, false, 0x0, .none, [fld 31 0 .ro]⟩,
  ⟨0x06C, 1, 4, false, 0x0, .none, [fld 31 0 .rc]⟩,
  ⟨0x070, 1, 4, false, 0x0, .none, [fld 31 0 .rc]⟩,
  ⟨0x200, 128, 4, false, 0x0, .none, [fld 31 0 .ro]⟩,
  ⟨0x400, 128, 4, false, 0x0, .m, [fld 31 0 .rw]⟩]

/-- The register table of the bal page. -/
def balRows : List RegRow := [
  ⟨0x040, 1, 4, false, 0x0, .h, [fld 31 31 .wo, fld 2 2 .rw, fld 1 1 .rw]⟩,
  ⟨0x044, 1, 4, false, 0x0, .none, [fld 31 0 .ro]⟩,
  ⟨0x048, 1, 4, false, 0x12C, .h, [fldr 11 0 0 3599]⟩,
  ⟨0x04C, 1, 4, false, 0xFF9E, .h, [fldr 15 0 58982 65529]⟩,
  ⟨0x050, 1, 4, false, 0x200440, .h, [fldr 23 16 16 255, fldr 15 8 1 96, fldr 7 0 16 255]⟩,
  ⟨0x054, 1, 4, false, 0x3E8, .h, [fldr 31 0 10 1000000]⟩,
  ⟨0x058, 1, 4, false, 0x60, .h, [fldr 12 0 8 4096]⟩,
  ⟨0x05C, 1, 4, false, 0x44B000A, .h, [fldr 31 24 1 96, fldr 23 16 50 100, fldr 15 0 1 65535]⟩,
  ⟨0x060, 1, 4, false, 0x0, .none, [fld 31 0 .ro]⟩,
  ⟨0x064, 1, 4, false, 0x0, .none, [fld 31 0 .ro]⟩,
  ⟨0x068, 1, 4, false, 0x0, .none, [fld 31 0 .ro]⟩,
  ⟨0x06C, 1, 4, false, 0x0, .none, [fld 31 0 .ro]⟩,
  ⟨0x070, 1, 4, false, 0x0, .none, [fld 31 0 .rc]⟩,
  ⟨0x074, 1, 4, false, 0x0, .none, [fld 31 0 .rc]⟩,
  ⟨0x078, 1, 4, false, 0x0, .none, [fld 31 0 .rc]⟩,
  ⟨0x07C, 1, 4, false, 0x0, .none, [fld 31 0 .ro]⟩,
  ⟨0x080, 1, 4, false, 0x0, .none, [fld 31 0 .rc]⟩]

/-- The register table of the meas page. -/
def measRows : List RegRow := [
  ⟨0x040, 1, 4, false, 0x1007D, .m, [fld 16 16 .rw, fld 15 8 .rw, fldr 7 0 63 156]⟩,
  ⟨0x044, 1, 4, false, 0x0, .none, [fld 31 0 .ro]⟩,
  ⟨0x048, 1, 4, false, 0x0, .none, [fld 31 0 .ro]⟩,
  ⟨0x04C, 1, 4, false, 0x0, .none, [fld 31 0 .ro]⟩,
  ⟨0x050, 4, 4, false, 0x0, .m, [fld 31 0 .rw]⟩,
  ⟨0x060, 4, 4, false, 0x0, .none, [fld 31 0 .ro]⟩,
  ⟨0x070, 4, 4, false, 0x0, .h, [fld 31 0 .w1c]⟩,
  ⟨0x080, 16, 4, false, 0x0, .h, [fld 31 31 .rw, fld 15 0 .rw]⟩,
  ⟨0x0C0, 1, 4, false, 0x0, .none, [fld 31 0 .rc]⟩]

/-- The register table of the mp page. -/
def mpRows : List RegRow := [
  ⟨0x040, 1, 4, false, 0x0, .m, [fld 31 31 .rw, fld 30 30 .rw, fld 29 29 .rw, fldr 23 16 0 31, fld 8 8 .rw, fldr 3 0 0 11]⟩,
  ⟨0x044, 1, 4, false, 0x0, .none, [fld 31 31 .ro, fld 19 19 .ro, fld 18 18 .ro, fld 17 17 .ro, fld 16 16 .ro, fld 15 15 .ro, fld 14 14 .ro, fld 13 13 .ro, fld 12 12 .ro, fld 9 7 .ro, fld 6 4 .ro, fld 3 3 .ro, fld 2 2 .ro]⟩,
  ⟨0x048, 1, 4, false, 0x0, .h, [fld 18 17 .w1c, fld 15 15 .w1c, fld 9 2 .w1c]⟩,
  ⟨0x04C, 1, 4, false, 0x0, .none, [fld 31 0 .ro]⟩,
  ⟨0x050, 1, 4, false, 0x0, .none, [fld 31 0 .ro]⟩,
  ⟨0x054, 1, 4, false, 0x0, .m, [fld 31 0 .rw]⟩,
  ⟨0x058, 1, 4, false, 0x0, .m, [fld 31 0 .rw]⟩,
  ⟨0x05C, 1, 4, false, 0x0, .m, [fld 31 0 .rw]⟩,
  ⟨0x060, 1, 4, false, 0x0, .m, [fld 31 0 .rw]⟩,
  ⟨0x064, 1, 4, false, 0x0, .m, [fld 31 0 .rw]⟩,
  ⟨0x068, 1, 4, false, 0x186A0, .m, [fld 31 0 .rw]⟩,
  ⟨0x06C, 1, 4, false, 0x30A143C, .m, [fld 31 24 .rw, fld 23 16 .rw, fld 15 8 .rw, fld 7 0 .rw]⟩,
  ⟨0x070, 1, 8, true, 0x0, .none, [fld 63 0 .ro]⟩,
  ⟨0x078, 1, 4, false, 0x0, .m, [fld 31 31 .wo]⟩,
  ⟨0x080, 8, 16, false, 0x0, .m, [fld 31 0 .rw]⟩,
  ⟨0x084, 8, 16, false, 0x80000000, .m, [fld 31 0 .rw]⟩,
  ⟨0x088, 8, 16, false, 0x20000, .m, [fld 17 0 .rw]⟩,
  ⟨0x08C, 8, 16, false, 0x0, .none, [fld 31 0 .ro]⟩,
  ⟨0x100, 3, 16, false, 0x0, .none, [fld 31 0 .ro]⟩,
  ⟨0x104, 3, 16, false, 0x0, .none, [fld 31 0 .ro]⟩,
  ⟨0x108, 3, 16, false, 0x0, .none, [fld 31 0 .ro]⟩,
  ⟨0x10C, 3, 16, false, 0x0, .none, [fld 31 0 .ro]⟩,
  ⟨0x400, 264, 4, false, 0x0, .m, [fld 31 0 .rw]⟩]

/-- The register table of the key page. -/
def keyRows : List RegRow := [
  ⟨0x040, 1, 4, false, 0x0, .m, [fld 31 31 .wo, fld 27 24 .wo, fld 11 0 .wo]⟩,
  ⟨0x044, 1, 4, false, 0x0, .none, [fld 31 0 .ro]⟩,
  ⟨0x048, 1, 4, false, 0x0, .m, [fld 22 22 .rw, fld 21 20 .rw, fld 18 16 .rw, fld 12 0 .rw]⟩,
  ⟨0x04C, 1, 4, false, 0x0, .m, [fld 15 0 .rw]⟩,
  ⟨0x050, 1, 4, false, 0x0, .m, [fld 31 0 .rw]⟩,
  ⟨0x054, 1, 4, false, 0x0, .m, [fld 31 0 .rw]⟩,
  ⟨0x058, 1, 8, true, 0x0, .m, [fld 63 0 .rw]⟩,
  ⟨0x060, 1, 4, false, 0x0, .m, [fld 31 0 .rw]⟩,
  ⟨0x064, 1, 4, false, 0x0, .m, [fld 31 0 .rw]⟩,
  ⟨0x068, 1, 4, false, 0x0, .m, [fld 11 0 .rw]⟩,
  ⟨0x06C, 1, 4, false, 0x0, .none, [fld 31 0 .ro]⟩,
  ⟨0x070, 1, 4, false, 0x0, .none, [fld 31 0 .ro]⟩,
  ⟨0x074, 1, 4, false, 0x0, .none, [fld 31 0 .ro]⟩,
  ⟨0x078, 1, 4, false, 0x0, .none, [fld 31 0 .ro]⟩,
  ⟨0x07C, 1, 4, false, 0x0, .none, [fld 31 0 .ro]⟩,
  ⟨0x080, 1, 4, false, 0x1000, .none, [fld 31 0 .ro]⟩,
  ⟨0x084, 1, 4, false, 0x0, .none, [fld 31 0 .rc]⟩]

/-- The register table of the kdf page. -/
def kdfRows : List RegRow := [
  ⟨0x040, 1, 4, false, 0x0, .m, [fld 2 0 .rw]⟩,
  ⟨0x044, 1, 4, false, 0x0, .none, [fld 31 0 .rc]⟩,
  ⟨0x048, 1, 4, false, 0x0, .none, [fld 31 0 .rc]⟩,
  ⟨0x04C, 1, 4, false, 0x0, .none, [fld 31 0 .rc]⟩,
  ⟨0x050, 1, 4, false, 0x0, .none, [fld 31 0 .rc]⟩,
  ⟨0x054, 1, 4, false, 0x0, .none, [fld 31 0 .rc]⟩]

/-- The register table of the aead page. -/
def aeadRows : List RegRow := [
  ⟨0x040, 1, 4, false, 0x0, .m, [fld 31 31 .wo, fld 27 16 .wo, fld 3 0 .wo]⟩,
  ⟨0x044, 1, 4, false, 0x0, .none, [fld 31 0 .ro]⟩,
  ⟨0x048, 1, 4, false, 0x0, .m, [fld 31 0 .rw]⟩,
  ⟨0x04C, 1, 4, false, 0x0, .m, [fld 31 0 .rw]⟩,
  ⟨0x050, 1, 4, false, 0x0, .m, [fld 24 0 .rw]⟩,
  ⟨0x054, 1, 4, false, 0x0, .m, [fld 31 0 .rw]⟩]

/-- The register table of the pke page. -/
def pkeRows : List RegRow := [
  ⟨0x040, 1, 4, false, 0x0, .m, [fld 31 31 .wo, fld 27 16 .wo, fld 3 0 .wo]⟩,
  ⟨0x044, 1, 4, false, 0x0, .none, [fld 31 0 .ro]⟩,
  ⟨0x048, 1, 4, false, 0x0, .m, [fld 31 0 .rw]⟩,
  ⟨0x04C, 1, 4, false, 0x0, .m, [fld 31 30 .rw, fld 28 16 .rw, fld 11 0 .rw]⟩,
  ⟨0x050, 1, 4, false, 0x0, .m, [fld 31 0 .rw]⟩,
  ⟨0x054, 1, 4, false, 0x0, .none, [fld 31 0 .rc]⟩,
  ⟨0x058, 1, 4, false, 0x0, .none, [fld 31 0 .ro]⟩]

/-- The register table of the trng page. -/
def trngRows : List RegRow := [
  ⟨0x040, 1, 4, false, 0x0, .none, [fld 31 0 .ro]⟩,
  ⟨0x044, 1, 4, false, 0x2700029, .m, [fldr 26 16 520 1024, fldr 7 0 20 255]⟩,
  ⟨0x048, 1, 8, true, 0x0, .none, [fld 63 0 .ro]⟩,
  ⟨0x050, 1, 4, false, 0x0, .none, [fld 31 0 .ro]⟩,
  ⟨0x054, 1, 4, false, 0x0, .none, [fld 31 0 .rc]⟩]

/-- The register table of the lcs page. -/
def lcsRows : List RegRow := [
  ⟨0x040, 1, 4, false, 0x0, .none, [fld 31 0 .ro]⟩,
  ⟨0x044, 1, 4, false, 0x0, .s, [fld 31 31 .wo, fld 30 30 .wo, fld 29 29 .wo, fld 2 0 .wo]⟩,
  ⟨0x048, 1, 4, false, 0x0, .none, [fld 31 0 .ro]⟩,
  ⟨0x04C, 1, 4, false, 0x0, .none, [fld 31 0 .ro]⟩,
  ⟨0x050, 1, 4, false, 0x0, .none, [fld 31 0 .ro]⟩,
  ⟨0x054, 1, 4, false, 0x0, .m, [fld 31 31 .wo, fld 2 0 .wo]⟩,
  ⟨0x058, 1, 4, false, 0x0, .none, [fld 31 0 .ro]⟩,
  ⟨0x060, 8, 4, false, 0x0, .none, [fld 31 0 .ro]⟩,
  ⟨0x080, 12, 4, false, 0x0, .m, [fld 31 0 .rw]⟩]

/-- The register table of the tamper page. -/
def tamperRows : List RegRow := [
  ⟨0x040, 4, 4, false, 0x3, .m, [fld 31 31 .rw, fld 30 30 .rw, fld 29 29 .rw, fld 28 28 .rw, fldr 3 0 1 15]⟩,
  ⟨0x050, 1, 4, false, 0x0, .m, [fld 21 20 .ro, fld 16 16 .ro, fld 11 8 .ro, fld 3 0 .w1c]⟩,
  ⟨0x058, 1, 8, true, 0x0, .none, [fld 63 0 .ro]⟩,
  ⟨0x060, 1, 4, false, 0x0, .none, [fld 31 0 .rc]⟩]

/-- The register table of the eth page. -/
def ethRows : List RegRow := [
  ⟨0x040, 1, 4, false, 0x22400, .h, [fld 17 17 .rw, fld 16 16 .rw, fldr 13 0 64 9216]⟩,
  ⟨0x044, 1, 4, false, 0x0, .none, [fld 31 0 .ro]⟩,
  ⟨0x048, 1, 8, true, 0x0, .h, [fld 47 0 .rw]⟩,
  ⟨0x050, 1, 4, false, 0x0, .h, [fld 15 13 .rw, fld 11 0 .rw]⟩,
  ⟨0x054, 1, 4, false, 0x40, .h, [fldr 7 0 0 128]⟩,
  ⟨0x058, 1, 8, true, 0x0, .h, [fld 47 0 .rw]⟩,
  ⟨0x060, 4, 4, false, 0x0, .h, [fld 31 0 .rw]⟩,
  ⟨0x080, 16, 4, false, 0x0, .h, [fld 31 0 .rw]⟩,
  ⟨0x0C0, 4, 4, false, 0x0, .h, [fld 31 31 .rw, fld 30 30 .rw]⟩,
  ⟨0x0D0, 1, 4, false, 0x0, .h, [fld 31 31 .wo]⟩,
  ⟨0x0D4, 1, 4, false, 0x0, .h, [fldr 3 0 0 11]⟩,
  ⟨0x0D8, 1, 8, true, 0x0, .none, [fld 63 0 .rc]⟩,
  ⟨0x0E0, 1, 4, false, 0x0, .none, [fld 31 0 .ro]⟩,
  ⟨0x0E4, 1, 4, false, 0x0, .h, [fld 31 31 .wo, fld 30 30 .rw, fldr 29 28 0 2, fld 27 27 .ro, fld 25 21 .rw, fld 20 16 .rw, fld 15 0 .rw]⟩]

/-- The register table of the tsu page. -/
def tsuRows : List RegRow := [
  ⟨0x040, 1, 4, false, 0x1, .h, [fld 4 4 .ro, fldr 1 0 0 2]⟩,
  ⟨0x044, 1, 4, false, 0x0, .none, [fld 10 8 .ro, fld 7 7 .ro, fld 6 6 .ro, fld 5 5 .ro, fld 4 4 .ro, fld 3 3 .ro, fld 2 2 .ro, fld 1 1 .ro]⟩,
  ⟨0x048, 1, 8, true, 0x0, .none, [fld 63 0 .ro]⟩,
  ⟨0x050, 1, 4, false, 0x0, .none, [fld 31 0 .ro]⟩,
  ⟨0x054, 1, 4, false, 0x0, .h, [fld 31 0 .rw]⟩,
  ⟨0x058, 1, 4, false, 0x0, .h, [fld 31 0 .rw]⟩,
  ⟨0x05C, 1, 4, false, 0x1F4, .h, [fldr 8 0 1 500]⟩,
  ⟨0x060, 1, 4, false, 0x3E8, .h, [fldr 19 0 1 1000000]⟩,
  ⟨0x064, 1, 4, false, 0x0, .h, [fld 31 31 .wo]⟩,
  ⟨0x068, 1, 8, true, 0x0, .h, [fld 63 0 .rw]⟩,
  ⟨0x070, 1, 8, true, 0x0, .none, [fld 63 0 .ro]⟩,
  ⟨0x078, 1, 8, true, 0x0, .none, [fld 63 0 .ro]⟩,
  ⟨0x080, 1, 4, false, 0x0, .none, [fld 31 0 .ro]⟩,
  ⟨0x084, 1, 4, false, 0x3E80064, .h, [fld 31 16 .rw, fld 15 0 .rw]⟩,
  ⟨0x088, 1, 4, false, 0xF, .h, [fld 7 0 .rw]⟩,
  ⟨0x08C, 1, 4, false, 0x0, .none, [fld 31 0 .ro]⟩,
  ⟨0x090, 1, 4, false, 0x80000000, .h, [fld 31 24 .rw, fld 22 16 .rw, fld 13 8 .rw, fld 5 0 .rw]⟩,
  ⟨0x094, 1, 4, false, 0x80, .h, [fld 7 0 .rw]⟩,
  ⟨0x098, 1, 4, false, 0x0, .h, [fld 5 0 .rw]⟩,
  ⟨0x09C, 1, 4, false, 0x0, .none, [fld 31 0 .rc]⟩,
  ⟨0x0A0, 6, 8, false, 0x0, .h, [fld 31 0 .rw]⟩,
  ⟨0x0A4, 6, 8, false, 0x0, .h, [fld 31 0 .rw]⟩,
  ⟨0x0D0, 1, 4, false, 0x64, .h, [fld 31 31 .rw, fld 20 16 .rw, fldr 9 0 1 999]⟩,
  ⟨0x0D4, 1, 4, false, 0x0, .none, [fld 31 0 .rc]⟩,
  ⟨0x100, 8, 8, false, 0x0, .h, [fld 31 28 .ro, fld 27 27 .w1c, fld 26 26 .w1c, fld 9 9 .rw, fld 8 8 .rw, fldr 7 0 0 0x24]⟩,
  ⟨0x104, 8, 8, false, 0x0, .none, [fld 31 0 .ro]⟩]

/-- The register table of the rtc page. -/
def rtcRows : List RegRow := [
  ⟨0x040, 1, 4, false, 0x2, .h, [fld 1 1 .rw, fld 0 0 .rw]⟩,
  ⟨0x044, 1, 4, false, 0x0, .h, [fld 7 7 .ro, fld 6 6 .w1c, fld 5 5 .ro, fld 4 4 .w1c, fld 3 3 .w1c, fld 2 1 .ro]⟩,
  ⟨0x048, 1, 8, true, 0x0, .h, [fld 63 0 .rw]⟩,
  ⟨0x050, 1, 4, false, 0x0, .h, [fldr 2 0 0 6]⟩,
  ⟨0x054, 1, 4, false, 0x0, .h, [fldr 16 0 0 86399]⟩,
  ⟨0x058, 1, 4, false, 0x0, .h, [fld 31 16 .rw, fld 11 8 .rw, fld 4 0 .rw]⟩,
  ⟨0x05C, 1, 4, false, 0x0, .h, [fld 20 16 .rw, fld 13 8 .rw, fld 5 0 .rw]⟩,
  ⟨0x060, 1, 4, false, 0x0, .h, [fld 31 0 .rw]⟩,
  ⟨0x064, 1, 4, false, 0x0, .none, [fld 31 0 .ro]⟩,
  ⟨0x068, 1, 8, true, 0x0, .h, [fld 63 63 .rw, fld 39 0 .rw]⟩,
  ⟨0x070, 1, 4, false, 0x0, .m, [fld 31 31 .rw, fld 2 2 .rw, fld 1 0 .rw]⟩,
  ⟨0x074, 1, 4, false, 0x0, .none, [fld 31 0 .ro]⟩,
  ⟨0x078, 1, 4, false, 0x0, .none, [fld 31 0 .rc]⟩,
  ⟨0x080, 32, 4, false, 0x0, .m, [fld 31 0 .rw]⟩]

/-- The register table of the radio page. -/
def radioRows : List RegRow := [
  ⟨0x040, 1, 4, false, 0xFF5101, .h, [fldr 26 16 127 2047, fldr 14 12 5 7, fld 9 9 .rw, fld 8 8 .rw, fld 5 0 .rw]⟩,
  ⟨0x044, 1, 4, false, 0x0, .none, [fld 29 24 .ro, fld 22 16 .ro, fld 3 3 .ro, fld 2 2 .ro, fld 1 1 .ro, fld 0 0 .ro]⟩,
  ⟨0x048, 1, 4, false, 0xFFFEFFFF, .h, [fld 31 16 .rw, fld 15 0 .rw]⟩,
  ⟨0x04C, 1, 4, false, 0x0, .h, [fld 15 0 .rw]⟩,
  ⟨0x050, 1, 8, true, 0x0, .h, [fld 63 0 .rw]⟩,
  ⟨0x058, 1, 4, false, 0xB03453, .h, [fld 23 16 .rw, fldr 15 12 0 7, fldr 11 8 0 5, fldr 7 4 3 8, fld 3 0 .rw]⟩,
  ⟨0x05C, 1, 4, false, 0xA00488, .h, [fldr 31 16 100 10000, fldr 15 0 100 20000]⟩,
  ⟨0x060, 1, 4, false, 0x9C403E8, .h, [fldr 31 16 1000 60000, fldr 15 0 700 10000]⟩,
  ⟨0x064, 1, 4, false, 0x3C3C, .h, [fld 31 16 .rw, fldr 15 8 1 60, fldr 7 0 1 60]⟩,
  ⟨0x068, 4, 4, false, 0x0, .m, [fld 31 31 .rw, fld 11 0 .rw]⟩,
  ⟨0x078, 1, 4, false, 0x0, .none, [fld 31 0 .ro]⟩,
  ⟨0x07C, 1, 4, false, 0x0, .none, [fld 31 0 .ro]⟩,
  ⟨0x080, 1, 4, false, 0x0, .m, [fld 31 31 .wo]⟩,
  ⟨0x084, 1, 4, false, 0x0, .h, [fld 31 31 .wo, fld 30 30 .wo, fld 11 0 .rw]⟩,
  ⟨0x088, 1, 4, false, 0x0, .h, [fld 31 31 .rw, fld 30 30 .rw, fld 29 29 .rw, fld 19 0 .rw]⟩,
  ⟨0x08C, 1, 4, false, 0xFFFE, .h, [fld 15 0 .rw]⟩,
  ⟨0x090, 1, 8, true, 0x0, .h, [fld 63 0 .rw]⟩,
  ⟨0x098, 1, 4, false, 0x0, .h, [fld 31 0 .rw]⟩,
  ⟨0x09C, 1, 4, false, 0x0, .none, [fld 31 0 .ro]⟩,
  ⟨0x0A0, 1, 4, false, 0x0, .h, [fld 5 0 .rw]⟩,
  ⟨0x0A8, 1, 8, true, 0x0, .none, [fld 63 0 .ro]⟩,
  ⟨0x0B0, 1, 4, false, 0x0, .none, [fld 31 0 .ro]⟩,
  ⟨0x0B4, 1, 4, false, 0x0, .none, [fld 31 0 .ro]⟩,
  ⟨0x0B8, 1, 4, false, 0x0, .h, [fld 3 0 .rw]⟩,
  ⟨0x0BC, 1, 4, false, 0x0, .none, [fld 31 0 .rc]⟩,
  ⟨0x0C0, 1, 4, false, 0x0, .h, [fld 31 31 .wo, fld 30 30 .rw, fld 29 29 .ro, fld 23 8 .rw, fld 7 0 .rw]⟩]

/-- The register table of the plc page. -/
def plcRows : List RegRow := [
  ⟨0x040, 1, 4, false, 0x4, .h, [fld 2 2 .rw, fld 1 1 .rw, fld 0 0 .rw]⟩,
  ⟨0x044, 1, 4, false, 0x0, .none, [fld 31 0 .ro]⟩,
  ⟨0x048, 1, 4, false, 0xFFFEFFFF, .h, [fld 31 16 .rw, fld 15 0 .rw]⟩,
  ⟨0x050, 1, 8, true, 0x0, .h, [fld 63 0 .rw]⟩,
  ⟨0x058, 1, 4, false, 0x503E8, .h, [fldr 23 16 1 50, fldr 15 0 200 10000]⟩,
  ⟨0x05C, 1, 4, false, 0x3C, .h, [fldr 9 0 0 600]⟩,
  ⟨0x060, 4, 4, false, 0x0, .h, [fld 31 31 .rw, fld 29 16 .rw, fld 13 0 .rw]⟩,
  ⟨0x070, 4, 4, false, 0x0, .m, [fld 31 31 .rw, fld 11 0 .rw]⟩,
  ⟨0x080, 1, 4, false, 0x0, .m, [fld 31 31 .rw, fld 11 0 .rw]⟩,
  ⟨0x084, 1, 4, false, 0x0, .none, [fld 31 0 .ro]⟩,
  ⟨0x088, 1, 4, false, 0x0, .none, [fld 31 0 .ro]⟩,
  ⟨0x08C, 1, 4, false, 0x0, .m, [fld 31 31 .wo]⟩,
  ⟨0x090, 1, 4, false, 0x58332, .h, [fldr 19 16 0 7, fldr 15 12 3 8, fld 11 8 .rw, fld 7 0 .rw]⟩,
  ⟨0x094, 1, 4, false, 0x7D004B0, .h, [fldr 31 16 100 10000, fldr 15 0 100 20000]⟩,
  ⟨0x098, 1, 4, false, 0x177003E8, .h, [fldr 31 16 1000 60000, fldr 15 0 700 10000]⟩,
  ⟨0x09C, 1, 4, false, 0x3C0A, .h, [fldr 15 8 1 60, fldr 7 0 1 255]⟩,
  ⟨0x0A0, 1, 4, false, 0x0, .h, [fld 31 16 .rw, fld 15 0 .rw]⟩,
  ⟨0x0A4, 1, 4, false, 0xC, .h, [fld 7 0 .rw]⟩,
  ⟨0x0A8, 1, 4, false, 0x408, .h, [fldr 15 8 1 30, fld 3 0 .rw]⟩,
  ⟨0x0AC, 1, 4, false, 0x0, .none, [fld 31 0 .ro]⟩,
  ⟨0x0B0, 1, 4, false, 0x0, .none, [fld 31 0 .ro]⟩]

/-- The register table of the plcPh page. -/
def plcPhRows : List RegRow := [
  ⟨0x040, 1, 4, false, 0x1905009, .h, [fldr 26 16 64 400, fldr 14 12 5 7, fld 3 3 .rw, fld 2 2 .rw, fldr 1 0 1 3]⟩,
  ⟨0x044, 1, 4, false, 0x0, .none, [fld 31 0 .ro]⟩,
  ⟨0x048, 1, 4, false, 0x0, .h, [fld 31 31 .wo, fld 30 30 .wo, fld 10 0 .rw]⟩,
  ⟨0x04C, 1, 4, false, 0x0, .h, [fld 31 31 .rw, fld 30 30 .rw, fld 29 29 .rw, fld 26 24 .rw, fld 19 0 .rw]⟩,
  ⟨0x050, 1, 4, false, 0xFFFE, .h, [fld 15 0 .rw]⟩,
  ⟨0x058, 1, 8, true, 0x0, .h, [fld 63 0 .rw]⟩,
  ⟨0x060, 1, 4, false, 0x0, .h, [fld 31 0 .rw]⟩,
  ⟨0x064, 1, 4, false, 0x0, .none, [fld 31 0 .ro]⟩,
  ⟨0x068, 1, 4, false, 0x0, .none, [fld 31 0 .ro]⟩,
  ⟨0x06C, 1, 4, false, 0x0, .none, [fld 31 0 .ro]⟩,
  ⟨0x070, 1, 4, false, 0x0, .h, [fld 8 8 .rw, fldr 2 0 0 5]⟩,
  ⟨0x074, 1, 4, false, 0x0, .none, [fld 31 0 .ro]⟩,
  ⟨0x078, 1, 4, false, 0x0, .h, [fld 5 0 .rw]⟩,
  ⟨0x080, 1, 8, true, 0x0, .none, [fld 63 0 .ro]⟩,
  ⟨0x088, 1, 4, false, 0x0, .none, [fld 31 0 .ro]⟩,
  ⟨0x08C, 1, 4, false, 0x0, .none, [fld 31 0 .ro]⟩,
  ⟨0x090, 1, 4, false, 0x0, .h, [fld 4 0 .rw]⟩,
  ⟨0x094, 1, 4, false, 0x0, .none, [fld 31 0 .rc]⟩]

/-- The register table of the uart page. -/
def uartRows : List RegRow := [
  ⟨0x040, 1, 4, false, 0x141100, .h, [fldr 23 16 11 255, fld 15 12 .rw, fld 11 8 .rw, fld 3 3 .rw, fld 2 2 .rw, fldr 1 0 0 2]⟩,
  ⟨0x044, 1, 4, false, 0x28B0B, .h, [fldr 23 0 13889 5333333]⟩,
  ⟨0x048, 1, 4, false, 0x0, .none, [fld 31 0 .ro]⟩,
  ⟨0x04C, 1, 4, false, 0xC803E8, .h, [fldr 27 16 10 4000, fldr 15 0 10 60000]⟩,
  ⟨0x050, 1, 4, false, 0x0, .h, [fld 31 31 .wo, fld 30 30 .wo, fld 4 0 .rw]⟩,
  ⟨0x054, 1, 4, false, 0x0, .h, [fld 31 0 .rw]⟩,
  ⟨0x058, 1, 4, false, 0x0, .h, [fld 31 31 .rw, fld 19 0 .rw]⟩,
  ⟨0x05C, 1, 4, false, 0x0, .none, [fld 31 0 .ro]⟩,
  ⟨0x060, 1, 4, false, 0x0, .h, [fldr 3 0 0 9]⟩,
  ⟨0x064, 1, 4, false, 0x0, .none, [fld 31 0 .rc]⟩]

/-- The register table of the sbus page. -/
def sbusRows : List RegRow := [
  ⟨0x040, 1, 4, false, 0x0, .h, [fld 1 1 .rw, fld 0 0 .rw]⟩,
  ⟨0x044, 1, 4, false, 0x0, .none, [fld 31 0 .ro]⟩,
  ⟨0x048, 1, 4, false, 0x0, .h, [fld 4 0 .rw]⟩,
  ⟨0x04C, 1, 4, false, 0x1, .h, [fld 31 31 .rw, fld 30 30 .rw, fld 22 16 .rw, fld 15 8 .rw, fldr 7 0 1 60]⟩,
  ⟨0x050, 1, 4, false, 0x0, .h, [fld 15 0 .rw]⟩,
  ⟨0x054, 1, 4, false, 0x0, .none, [fld 31 0 .ro]⟩,
  ⟨0x058, 1, 4, false, 0x0, .h, [fld 1 0 .rw]⟩,
  ⟨0x05C, 1, 4, false, 0x0, .none, [fld 31 0 .rc]⟩]

/-- The register table of the wake page. -/
def wakeRows : List RegRow := [
  ⟨0x040, 1, 4, false, 0xAC, .m, [fld 7 7 .rw, fld 6 0 .rw]⟩,
  ⟨0x044, 1, 4, false, 0xF, .m, [fld 3 0 .rw]⟩,
  ⟨0x048, 1, 4, false, 0x0, .m, [fld 8 8 .w1c, fld 4 0 .w1c]⟩,
  ⟨0x04C, 1, 4, false, 0x0, .none, [fld 31 0 .rc]⟩,
  ⟨0x050, 1, 4, false, 0x0, .m, [fld 7 0 .rw]⟩]

/-- The register table of the nand page. -/
def nandRows : List RegRow := [
  ⟨0x040, 1, 4, false, 0x0, .none, [fld 31 0 .ro]⟩,
  ⟨0x044, 1, 4, false, 0x0, .none, [fld 31 0 .ro]⟩,
  ⟨0x048, 1, 4, false, 0x402010, .h, [fldr 31 16 32 4096, fld 15 8 .rw, fldr 7 0 1 255]⟩,
  ⟨0x04C, 1, 4, false, 0x76, .h, [fld 7 0 .rw]⟩,
  ⟨0x050, 1, 4, false, 0x2808, .h, [fldr 15 8 1 64, fldr 7 0 0 64]⟩,
  ⟨0x054, 1, 4, false, 0xBB800C8, .h, [fldr 31 16 100 65535, fldr 15 0 10 65535]⟩,
  ⟨0x058, 1, 4, false, 0x0, .h, [fld 8 8 .rw, fld 4 0 .rw]⟩,
  ⟨0x05C, 1, 4, false, 0x0, .h, [fld 19 16 .rw, fld 6 4 .rw, fld 1 0 .rw]⟩,
  ⟨0x060, 1, 4, false, 0x0, .none, [fld 31 0 .ro]⟩,
  ⟨0x064, 1, 4, false, 0x0, .none, [fld 31 0 .ro]⟩,
  ⟨0x068, 1, 4, false, 0x0, .none, [fld 31 0 .ro]⟩,
  ⟨0x06C, 1, 4, false, 0x0, .none, [fld 31 0 .ro]⟩,
  ⟨0x070, 1, 4, false, 0x0, .h, [fld 3 0 .rw]⟩,
  ⟨0x078, 1, 8, true, 0x0, .none, [fld 63 0 .ro]⟩,
  ⟨0x080, 1, 4, false, 0x0, .none, [fld 31 31 .ro, fld 30 30 .ro, fld 29 28 .ro, fld 27 25 .ro, fld 24 12 .ro, fld 9 0 .ro]⟩,
  ⟨0x084, 1, 4, false, 0x0, .none, [fld 31 0 .ro]⟩]

/-- The register table of the ddr page. -/
def ddrRows : List RegRow := [
]

/-- The register table of the qspi page. -/
def qspiRows : List RegRow := [
  ⟨0x040, 1, 4, false, 0x103, .m, [fld 8 8 .rw, fld 3 0 .rw]⟩,
  ⟨0x044, 1, 4, false, 0x0, .none, [fld 31 0 .ro]⟩,
  ⟨0x048, 1, 4, false, 0x0, .m, [fld 25 0 .rw]⟩,
  ⟨0x04C, 1, 4, false, 0x0, .m, [fld 31 31 .wo, fld 2 0 .wo]⟩,
  ⟨0x050, 1, 4, false, 0x100, .m, [fldr 8 0 1 256]⟩,
  ⟨0x054, 1, 4, false, 0x40, .none, [fld 31 0 .ro]⟩,
  ⟨0x100, 64, 4, false, 0x0, .m, [fld 31 0 .rw]⟩]

/-- The register table of the upd page. -/
def updRows : List RegRow := [
  ⟨0x040, 1, 4, false, 0x1, .h, [fldr 2 0 1 4]⟩,
  ⟨0x044, 1, 4, false, 0x0, .none, [fld 31 0 .ro]⟩,
  ⟨0x048, 1, 8, true, 0x0, .none, [fld 63 0 .ro]⟩,
  ⟨0x050, 1, 8, true, 0x0, .none, [fld 63 0 .ro]⟩,
  ⟨0x058, 1, 4, false, 0x0, .none, [fld 31 0 .ro]⟩,
  ⟨0x05C, 1, 4, false, 0x0, .none, [fld 31 0 .ro]⟩,
  ⟨0x060, 1, 4, false, 0x0, .h, [fld 1 0 .rw]⟩,
  ⟨0x064, 1, 4, false, 0x0, .none, [fld 31 0 .rc]⟩]

/-- The register table of the pcie page. -/
def pcieRows : List RegRow := [
  ⟨0x040, 1, 4, false, 0x0, .none, [fld 31 0 .ro]⟩,
  ⟨0x044, 1, 4, false, 0x0, .none, [fld 31 0 .ro]⟩,
  ⟨0x048, 1, 4, false, 0x0, .none, [fld 31 0 .ro]⟩,
  ⟨0x04C, 1, 4, false, 0x0, .h, [fld 5 0 .rw]⟩,
  ⟨0x050, 1, 4, false, 0x0, .h, [fld 31 31 .wo, fld 1 1 .rw, fld 0 0 .rw]⟩,
  ⟨0x054, 1, 4, false, 0x4, .h, [fld 9 8 .ro, fldr 4 0 4 16]⟩,
  ⟨0x058, 1, 8, true, 0x0, .h, [fld 63 0 .rw]⟩,
  ⟨0x060, 1, 8, true, 0x0, .h, [fld 63 0 .rw]⟩,
  ⟨0x068, 1, 4, false, 0x1, .h, [fldr 25 16 0 1000, fldr 7 0 1 255]⟩,
  ⟨0x06C, 1, 4, false, 0x0, .none, [fld 31 0 .ro]⟩,
  ⟨0x070, 1, 4, false, 0x0, .h, [fld 31 31 .ro, fld 30 30 .w1c, fld 2 0 .ro]⟩,
  ⟨0x074, 1, 4, false, 0x0, .h, [fld 1 0 .rw]⟩,
  ⟨0x078, 1, 4, false, 0x0, .none, [fld 31 0 .rc]⟩]

/-- The register table of the pulse page. -/
def pulseRows : List RegRow := [
  ⟨0x040, 16, 16, false, 0x500000, .h, [fld 31 31 .rw, fld 30 30 .rw, fldr 24 16 1 500, fldr 3 0 0 7]⟩,
  ⟨0x044, 16, 16, false, 0x2710, .h, [fld 31 0 .rw]⟩,
  ⟨0x048, 16, 16, false, 0x0, .none, [fld 31 0 .ro]⟩,
  ⟨0x04C, 16, 16, false, 0x0, .none, [fld 31 0 .ro]⟩]

/-- The register table of the dbg page. -/
def dbgRows : List RegRow := [
  ⟨0x040, 1, 4, false, 0x0, .m, [fld 0 0 .rw]⟩,
  ⟨0x044, 1, 4, false, 0x0, .none, [fld 31 28 .ro, fld 16 16 .ro, fld 15 8 .ro, fld 2 0 .ro]⟩,
  ⟨0x048, 1, 4, false, 0x0, .none, [fld 31 31 .ro, fld 30 30 .ro, fld 29 28 .ro, fld 26 24 .ro, fld 23 20 .ro, fld 15 0 .ro]⟩,
  ⟨0x04C, 1, 4, false, 0x0, .m, [fld 31 31 .rw, fld 27 16 .rw, fld 15 15 .rw, fld 11 0 .rw]⟩,
  ⟨0x050, 1, 4, false, 0x0, .none, [fld 31 0 .rc]⟩,
  ⟨0x060, 4, 4, false, 0x0, .m, [fld 31 31 .rw, fld 30 30 .rw, fld 29 29 .rw, fld 18 0 .rw]⟩]

/-- The register table of the totals page. -/
def totalsRows : List RegRow := [
  ⟨0x040, 1, 4, false, 0x0, .none, [fld 31 0 .ro]⟩,
  ⟨0x044, 1, 4, false, 0x0, .none, [fld 31 0 .ro]⟩,
  ⟨0x048, 1, 4, false, 0x0, .h, [fld 31 31 .wo, fldr 14 8 0 89, fld 3 0 .rw]⟩,
  ⟨0x04C, 1, 4, false, 0x0, .none, [fld 31 0 .ro]⟩,
  ⟨0x050, 1, 8, true, 0x0, .none, [fld 63 0 .ro]⟩,
  ⟨0x060, 1, 8, true, 0x0, .none, [fld 63 0 .ro]⟩,
  ⟨0x068, 1, 4, false, 0x0, .none, [fld 31 0 .ro]⟩,
  ⟨0x06C, 1, 4, false, 0x0, .none, [fld 31 0 .rc]⟩,
  ⟨0x070, 1, 4, false, 0x0, .m, [fld 31 31 .wo, fld 15 0 .wo]⟩,
  ⟨0x074, 1, 4, false, 0x0, .m, [fld 13 8 .rw, fld 3 0 .rw]⟩,
  ⟨0x078, 1, 8, true, 0x0, .m, [fld 63 63 .rw, fld 50 48 .rw, fld 47 0 .rw]⟩,
  ⟨0x080, 1, 4, false, 0xF003C, .m, [fld 23 16 .rw, fld 15 0 .rw]⟩]

/-- The register table of the pair page. -/
def pairRows : List RegRow := [
  ⟨0x040, 1, 4, false, 0x6, .m, [fld 2 2 .rw, fld 1 1 .rw]⟩,
  ⟨0x044, 1, 4, false, 0x0, .none, [fld 31 0 .ro]⟩,
  ⟨0x048, 1, 4, false, 0x0, .m, [fld 31 31 .rw, fld 11 0 .rw]⟩,
  ⟨0x04C, 1, 4, false, 0x0, .h, [fld 31 31 .wo, fld 3 0 .wo]⟩,
  ⟨0x050, 1, 8, true, 0x0, .none, [fld 63 0 .ro]⟩,
  ⟨0x058, 1, 4, false, 0x0, .h, [fld 31 31 .rw, fldr 2 0 0 5]⟩,
  ⟨0x05C, 1, 4, false, 0x0, .h, [fld 15 0 .rw]⟩,
  ⟨0x060, 4, 4, false, 0x0, .h, [fld 31 0 .rw]⟩,
  ⟨0x070, 1, 4, false, 0x0, .h, [fld 2 0 .rw]⟩,
  ⟨0x074, 1, 4, false, 0x0, .none, [fld 31 0 .rc]⟩]

/-- The register table of a block type. -/
def rowsOf : Pg → List RegRow
  | .chip => chipRows
  | .pinmux => pinmuxRows
  | .pwr => pwrRows
  | .rst => rstRows
  | .clk => clkRows
  | .fc => fcRows
  | .wdog => wdogRows
  | .lease => leaseRows
  | .sens => sensRows
  | .evr => evrRows
  | .lay => layRows
  | .strand => strandRows
  | .splice => spliceRows
  | .ingest => ingestRows
  | .meterdb => meterdbRows
  | .bal => balRows
  | .meas => measRows
  | .mp => mpRows
  | .key => keyRows
  | .kdf => kdfRows
  | .aead => aeadRows
  | .pke => pkeRows
  | .hash => aeadRows
  | .trng => trngRows
  | .lcs => lcsRows
  | .tamper => tamperRows
  | .eth => ethRows
  | .sgmii => ethRows
  | .tsu => tsuRows
  | .rtc => rtcRows
  | .radio => radioRows
  | .plc => plcRows
  | .plcPh => plcPhRows
  | .uart => uartRows
  | .sbus => sbusRows
  | .wake => wakeRows
  | .nand => nandRows
  | .ddr => ddrRows
  | .qspi => qspiRows
  | .upd => updRows
  | .pcie => pcieRows
  | .pulse => pulseRows
  | .dbg => dbgRows
  | .totals => totalsRows
  | .pair => pairRows

/-- Does a row hold the register word at page offset o. -/
def RegRow.holds (r : RegRow) (o : Nat) : Bool :=
  r.off ≤ o && (o - r.off) % r.stride < (if r.wide then 8 else 4) && (o - r.off) / r.stride < r.count

/-- The row of the register at a page offset. -/
def rowAt (p : Pg) (o : Nat) : Option RegRow := (rowsOf p).find? (fun r => r.holds o)

/-- The row of the register at a page offset of one page: SG_AN and SG_MDIO stand on the SGMII_0 page alone (R672; the sentence under its
table reserves both offsets on SGMII_1, where the table says SGMII only: log entry 31). -/
def rowOf (p : Pg) (inst o : Nat) : Option RegRow :=
  if (p = .eth ∨ (p = .sgmii ∧ inst ≠ 0)) ∧ (o = rSG_AN ∨ o = rSG_MDIO) then none else rowAt p o

/-- The offset of the low half of the register that holds page offset o. -/
def RegRow.start (r : RegRow) (o : Nat) : Nat := r.off + (o - r.off) / r.stride * r.stride

end Sys2Proof.Machine
end

