-- ==== Sys2Proof/Machine/State.lean ====
section
/-! DEFINITION. The state of the block as plain data: every register of the window, every memory and what else the spec
names, and the queue of waiting commands. -/

namespace Sys2Proof.Machine

/-- The byte-addressed memories of the block (R33, R72, R95, R185, R523, R594); each has a range of its own in `State.mem`. -/
inductive Space where
  | imem (lay strand : Nat) | dmem (lay strand : Nat) | lmem (lay : Nat)
  | pool | ddr | fram | nor | lany | nand | host
  deriving DecidableEq, Repr

/-- Where a memory's range begins in `State.mem`: a numbering of the model's own, 2^48 bytes to a memory. -/
def Space.base : Space → Nat
  | .imem l s => (l * 16 + s) * 2 ^ 48
  | .dmem l s => (128 + l * 16 + s) * 2 ^ 48
  | .lmem l => (256 + l) * 2 ^ 48
  | .pool => 264 * 2 ^ 48
  | .ddr => 265 * 2 ^ 48
  | .fram => 266 * 2 ^ 48
  | .nor => 267 * 2 ^ 48
  | .lany => 268 * 2 ^ 48
  | .nand => 269 * 2 ^ 48
  | .host => 270 * 2 ^ 48

/-- What an unlisted byte reads as: 0, and 0xFF in the erased NOR and NAND (log entry 6). -/
def memDefault (a : Nat) : Byte :=
  if a / 2 ^ 48 = 267 ∨ a / 2 ^ 48 = 269 then 0xFF else 0

/-- OTP content (R68 to R70, R482, R486, R597): fixed at manufacture, but for the fuses that commands burn. -/
structure Otp where
  fuses : BitVec 8
  hashes : List (Nat × BitVec 384)
  rollback : List (Nat × Nat)
  hwtype : Word32
  serial : Word64
  corrected : Bool
  badHwtype : Bool
  badSerial : Bool
  /-- the hash slots that hold an uncorrectable word (R494) -/
  badHashes : List Nat
  /-- the hash slots that hold a corrected word -/
  ceHashes : List Nat
  deriving DecidableEq, Repr

/-- A hash slot as it reads: an uncorrectable one as unprogrammed (R494). -/
def Otp.hash (o : Otp) (k : Nat) : Option (BitVec 384) :=
  if o.badHashes.contains k then none else (o.hashes.find? (fun h => h.1 = k)).map (·.2)

/-- A key copy's provenance (R463, R465): the chain of slots and generations it was made from, the slot it names first;
root: the chain ends at the root secret of that identity. -/
structure Chain where
  slots : List (Nat × Nat)
  root : Nat
  deriving DecidableEq, Repr

/-- The states of a key register (R110). -/
inductive KeySt where
  | empty | pending | ready | orphaned | denied | noSlot | badBlob
  deriving DecidableEq, Repr

/-- A key register of a strand (R72, R110). -/
structure KeyReg where
  st : KeySt
  len256 : Bool
  key : BitVec 256
  chain : Chain
  deriving DecidableEq, Repr

/-- An erased key register (R73). -/
def KeyReg.clear : KeyReg := ⟨.empty, false, 0, ⟨[], 0⟩⟩

/-- What an operation in flight does when it ends (R76, R98, R102, R116). -/
inductive Late where
  | regs (ws : List (Nat × Word64))
  | preds (ws : List (Nat × Bool))
  | accAdd (v : BitVec 128)
  | accClear
  | dmemStore (addr size : Nat) (v : Nat)
  | lmemStore (addr size : Nat) (v : Nat)
  | lmemLoad (addr size : Nat) (sext : Bool) (d : Nat)
  | commit (splice : Nat) (cell : Cell512)
  deriving DecidableEq, Repr

/-- An operation in flight: the lay cycle at whose end it acts, the slot's rank (ALU-A 0, ALU-B 1, MEM 2, XU 3), the
cycle of its issue, and whether it is a division in the divider. -/
structure Flight where
  due : Nat
  rank : Nat
  issued : Nat
  isDiv : Bool
  late : Late
  deriving DecidableEq, Repr

/-- A strand (R72) with what its timing holds: operations in flight, the divider's last start, the empty cycles left
after a branch, whether a bundle issued in the present cycle and the target its branch took, TEND seen, the scrubbers' words (R122). -/
structure Strand where
  pc : Nat
  g : List (Nat × Word64)
  p : BitVec 8
  acc : BitVec 128
  k : List (Nat × KeyReg)
  flight : List Flight
  divAt : Option Nat
  gap : Nat
  fetched : Bool
  target : Option Nat
  tended : Bool
  tainted : Bool
  imScrub : Nat
  dmScrub : Nat
  imUsed : Bool
  dmUsed : Bool
  deriving DecidableEq, Repr

/-- A strand whose domain has just been turned on (R73). -/
def Strand.clear : Strand := ⟨0, [], 0, 0, [], [], none, 0, false, none, false, false, 0, 0, false, false⟩

/-- One table of a lay's variant-table memory (R709): the target code, the variants it serves, its bytes, and whether a
word of it is uncorrectable. -/
structure VTab where
  target : Nat
  variants : List Nat
  bytes : List Byte
  deriving DecidableEq, Repr

/-- A key load waiting at a lay's key port (R107 to R109, R138). -/
structure KeyReq where
  strand : Nat
  k : Nat
  op : Nat
  a : Word64
  b : Word64
  blob : Cell512
  cancelled : Bool
  deriving DecidableEq, Repr

/-- A lay (R128 to R182): its cycle count, whether the bundles of the present cycle have issued, the turn cycle, the
splice ends used in the cycle (R104), the pending returns and resume, its tables and ports, its key port, its monitor. -/
structure Lay where
  cyc : Nat
  issued : Bool
  tcyc : Nat
  used : List (Nat × Bool)
  ret : List Nat
  resume : Bool
  tabs : List VTab
  ports : List (Nat × Nat × Nat × Nat)
  keyq : List KeyReq
  goodWin : Nat
  lmScrub : List (Nat × Nat)
  lmUsed : List Nat
  vtabUe : Bool
  vtabBad : Nat
  thaw : Nat
  stepLeft : Nat
  deriving DecidableEq, Repr

/-- A lay whose domain has just been turned on (R73): no rigging. -/
def Lay.clear : Lay := ⟨0, false, 0, [], [], false, [], [], [], 0, [], [], false, 0, 0, 0⟩

/-- A pointer kept twice with a parity bit each (R201). -/
structure Ptr where
  t : BitVec 13
  c : BitVec 13
  pt : Bool
  pc : Bool
  deriving DecidableEq, Repr

/-- Even parity of a pointer copy: the bit that makes the count of ones even (R201). -/
def ptrParity (x : BitVec 13) : Bool := (List.range 13).foldl (fun a i => xor a (x.getLsbD i)) false

/-- A pointer whose two copies agree. -/
def Ptr.mk' (n : Nat) : Ptr :=
  ⟨BitVec.ofNat 13 n, ~~~(BitVec.ofNat 13 n), ptrParity (BitVec.ofNat 13 n), ptrParity (~~~(BitVec.ofNat 13 n))⟩

/-- A splice's own state beside its descriptor registers (R191, R194, R199, R201, R202): its write and read pointers,
the producer's copy of the read pointer and the consumer's of the write pointer, the overrun and pointer-reset flags,
the cycles left of a reset window, whether a message-carrying consumer has a message open. -/
structure Splice where
  w : Ptr
  r : Ptr
  rSeen : Nat
  wSeen : Nat
  overrun : Bool
  ptrRst : Bool
  window : Nat
  msgOpen : Bool
  deriving DecidableEq, Repr

/-- An empty splice (R192). -/
def Splice.clear : Splice := ⟨Ptr.mk' 0, Ptr.mk' 0, 0, 0, false, false, 0, false⟩

/-- The event recorder's state beside its registers (R555 to R565): records in the buffer, oldest first; the internal lost count; the copy
the next flush writes. A flush: how many records it takes, whether it has written them, which of them failed their read-back (SEQ; 0 the
state block); what was asked for during it, and whether in every case; when the last one started; when the read of a record ends (R565). -/
structure Evr where
  buf : List Cell512
  lost : Nat
  nextCopy : Nat
  run : Nat
  wrote : Bool
  bad : List Nat
  again : Bool
  always : Bool
  last : Nat
  readEnd : Nat
  deriving DecidableEq, Repr

/-- The event recorder before its restore. -/
def Evr.off : Evr := ⟨[], 0, 0, 0, false, [], false, false, 0, 0⟩

/-- The fault collector's state beside its registers (R545 to R554): pulses of the present cycle, the sources a FC_FORCE drives in the next
sampled cycle, the sources of the running sequence, its latch time, how many of its steps have been applied (1 BLOCK_RST, 2 CHIP_RST), and
a chip reset request that stands: its time, and the first SEQ it does not wait for. -/
structure Fc where
  pulses : List Nat
  forced : List Nat
  seq : List Nat
  start : Nat
  steps : Nat
  request : Option (Nat × Nat)
  deriving DecidableEq, Repr

/-- The fault collector with nothing latched. -/
def Fc.off : Fc := ⟨[], [], [], 0, 0, none⟩

/-- ERR_OUT_N, in AON (R553): when the pulse in progress ends (0: none), and whether the pin is held low after one. -/
structure ErrPin where
  until_ : Nat
  held : Bool
  deriving DecidableEq, Repr

/-- The OTP of a new unit of variant C: life cycle MAKER, nothing programmed, serial 1 (DESIGN CHOICE, log entry 4). -/
def Otp.fresh : Otp := ⟨0, [], [], 0x4128A001, 1, false, false, false, [], []⟩

/-- The network time (R423 to R442): seconds, nanoseconds, the fraction below 1 ns in 2^-32 ns; what of the slew is absorbed below 1 ns, in
1/256,000,000,000 ns; the consecutive measurements inside LOCK_NS; the marks pushed and the END of the last; the interval length
in force in minutes; what the next mark will carry; each source's last edge is in the capture registers; the length before the last change
and the second of that change; the sources seen since NET was turned on, by their SRC code (R456); the 1588 event messages sent, with their port and
egress stamp in ps, oldest first (R434). -/
structure TsuTime where
  sec : Nat
  ns : Nat
  frac : Nat
  slewFrac : Nat
  lockRun : Nat
  marks : Nat
  lastEnd : Option Nat
  minutes : Nat
  lenChange : Bool
  unlocked : Bool
  stepped : Bool
  oldMinutes : Nat
  changedAt : Nat
  seen : Nat
  sent : List (Nat × (Nat × List Byte))
  deriving DecidableEq, Repr

/-- The network time while NET is off: the interval length at its reset value. -/
def TsuTime.off : TsuTime := ⟨0, 0, 0, 0, 0, 0, none, 15, false, true, false, 15, 0, 0, []⟩

/-- The RTC beside its registers (R445 to R451): what has passed of a tick, in 1/1,000,000,000; the ticks left of a discipline hold;
whether the crystal stands still; a calendar date written and not yet followed by its time (by requester); the latch of RTC_CAL_TIME. -/
structure Rtc where
  sub : Nat
  hold : Nat
  oscOff : Bool
  dateBy : Nat
  latch : List (Nat × Word32)
  main : Nat
  deriving DecidableEq, Repr

/-- The RTC at power-on of the backup domain; the main supply at its nominal 3.3 V (DESIGN CHOICE, log entry 34). -/
def Rtc.off : Rtc := ⟨0, 0, false, 0, [], 3300⟩

/-- One entry of the NAND frame table (R159). -/
structure NandEntry where
  chan : Nat
  start : Nat
  target : Nat
  cls : Nat
  lay : Nat
  port : Nat
  deriving DecidableEq, Repr

/-- The rigging in force and its replacement (R139 to R167): what the Lanyard's buffer holds, the frame tables, the fixed
ends, whether the frames run; waiting: a checked image waits for DRAINED; reopen: admission was open before; failed: the
code, lay, variant and offset of the last failed check; image: the image in force; pkeBusy: PKE slots still occupied by a P-384 request; host: the
host-facing splices it grants, and whether the lay end produces; ddrAt, pkeAt: the next slots of the DDR and the PKE frame; nandDone: the entries of the
NAND frame that have started in this period; slotUse: the owner's kind of the DDR slot in progress (R159), 0 while none is; pkeRun: the slots
coded 0x8 in a row up to the one in progress, and since the Lanyard's job began; pkeNeed: how many that job takes (R477); stopping: the lays of
the old rigging are stopping for the new one. -/
structure Rig where
  running : Bool
  id : Nat
  version : Nat
  flags : Nat
  layMask : Nat
  ddr : List Nat
  nand : List NandEntry
  nandPeriod : Nat
  pke : List Nat
  ends : List (Nat × Nat)
  frames : Bool
  buffer : List Byte
  image : List Byte
  waiting : Bool
  reopen : Bool
  failed : Nat × Nat × Nat × Nat
  pkeBusy : Nat
  host : List (Nat × Bool)
  ddrAt : Nat
  pkeAt : Nat
  nandDone : List Nat
  slotUse : Nat
  pkeRun : Nat
  pkeNeed : Nat
  stopping : Bool
  deriving DecidableEq, Repr

/-- No rigging. -/
def Rig.none : Rig := ⟨false, 0, 0, 0, 0, [], [], 0, [], [], false, [], [], false, false, (0, 0, 0, 0), 0, [], 0, 0, [], 0, 0, 0, false⟩

/-- The parameter page of a fitted NAND target (R497): data and spare bytes of a page, pages per block, blocks per LUN, and the
longest page read, page program and block erase in µs. -/
structure NandPart where
  page : Nat
  spare : Nat
  ppb : Nat
  blocks : Nat
  tR : Nat
  tProg : Nat
  tBers : Nat
  deriving DecidableEq, Repr

/-- The external memories as fitted (R140, R161 check 0x06, R497): DDR bytes, data rate and die density; each fitted NAND
target (channel × 8 + target) with its parameter page; NOR bytes: a board, which a log entry names. -/
structure Fitted where
  ddrBytes : Nat
  ddrRate : Nat
  ddrDensity : Nat
  nand : List (Nat × NandPart)
  norBytes : Nat
  deriving DecidableEq, Repr

/-- The largest board of 00_scope.md: 16 GiB of 16 Gb dies at 3200 MT/s, four channels of eight targets, 64 MiB of NOR
(DESIGN CHOICE, log entry 4). -/
def Fitted.board : Fitted := ⟨2 ^ 34, 3200, 2, (List.range 32).map (fun k => (k, ⟨16384, 1872, 1024, 8192, 90, 2400, 2000⟩)), 2 ^ 26⟩


/-- The states of a physical block (R502). -/
inductive BlkSt where
  | free | opened | live | released | relocating | bad
  deriving DecidableEq, Repr

/-- The metadata record of a written page (R500); ord: its place in the order in which pages were stored, which a relocation copy keeps (R248). -/
structure PageRec where
  lbn : Nat
  page : Nat
  stream : Nat
  reloc : Bool
  seq : Nat
  erases : Nat
  user : Nat
  ord : Nat
  deriving DecidableEq, Repr

/-- A physical block: what the medium holds of it (the pages' metadata, the factory mark) and what the map says of it
(R502): its state, the LBN bound to it, its stream, erase count, when it was released, whether it waits to be retired. -/
structure Block where
  st : BlkSt
  lbn : Option Nat
  stream : Nat
  pages : List PageRec
  erases : Nat
  relAt : Nat
  retire : Bool
  factory : Bool
  deriving DecidableEq, Repr

/-- A block as delivered: erased, never used. -/
def Block.fresh : Block := ⟨.free, none, 0, [], 0, 0, false, false⟩

/-- A request STORE has popped (R503, R504): the splice it came from, when it was popped, its words 1 to 4; tries, torn, image:
the fetches of its page image, the regions still torn and the bytes fetched (R506, R507). -/
structure NandReq where
  splice : Nat
  popped : Nat
  op : Nat
  stream : Nat
  pair : Bool
  rfmt : Nat
  tag : Nat
  ddr : Nat
  lbn : Nat
  page : Nat
  user : Nat
  bad : Bool
  tries : Nat
  torn : Nat
  image : List Byte
  deriving DecidableEq, Repr

/-- An operation a slot has started (R503, R506, R511, R515): its target (channel × 8 + target), the request it serves where
it serves one, and the block it acts on. -/
structure NandRun where
  target : Nat
  cls : Nat
  req : Option NandReq
  block : Nat
  deriving DecidableEq, Repr

/-- A relocation (R515): the source block, the copy's block once one is bound, the pages copied. -/
structure Reloc where
  src : Nat
  dst : Option Nat
  copied : Nat
  deriving DecidableEq, Repr

/-- An entry of the mirror buffer (R580): the frame's type (4 PAGE, 10 CATCHUP, 11 SALVAGE), its page, of a checkpoint page its number in the pass,
whether it is the last catch-up page, the block its program is under way in, and whether a program of it has failed. -/
structure Mirrored where
  kind : Nat
  page : PairPage
  ck : Option (BitVec 16)
  last : Bool
  block : Option Nat
  failed : Bool
  deriving DecidableEq, Repr

/-- STORE (R496 to R522): its blocks by (channel × 8 + target) × 8192 + block, the port queues, the operations under way, the
relocation queue, the next SEQ, the positions foreground collection has taken in this frame period, the period's parity,
the count of releases, the channels that owe a journal page, where each target's scrub reads stand, targets in rescan,
and the pages for which a KIND 1 completion has been committed. -/
structure Nand where
  blocks : List (Nat × Block)
  queue : List NandReq
  runs : List NandRun
  reloc : List Reloc
  seq : Nat
  taken : List Nat
  odd : Bool
  releases : Nat
  journal : List Nat
  scrub : List (Nat × Nat)
  rescan : List Nat
  partner : List (Nat × Nat)
  mirror : List Mirrored
  deriving DecidableEq, Repr

/-- STORE before its first start. -/
def Nand.off : Nand := ⟨[], [], [], [], 0, [], false, 0, [], [], [], [], []⟩


/-- An entry of the latency ring (R245): the admission number, its time, whether it has been counted late, the port of its frame (R241). -/
structure RingE where
  seq : Nat
  time : Nat
  counted : Bool
  port : Nat
  deriving DecidableEq, Repr

/-- A Plawiez batch with admitted entries (R222): its source, BATCH_SEQ, COUNT, the entries admitted and those stored. -/
structure Batch where
  source : Nat
  seq : Nat
  count : Nat
  admitted : Nat
  stored : Nat
  deriving DecidableEq, Repr

/-- A reading between its record and its acknowledgement (R239 to R241): its admission number, its port, source, reply mode,
attachment address, batch and entry, HDLC N(S), its record, the DDR address it is packed at, and when; acked: its acknowledgement has been
committed, and it is kept for the duplicate check of a second (R237). -/
structure Pend where
  seq : Nat
  port : Nat
  source : Nat
  reply : Nat
  addr : BitVec 128
  batch : Nat
  entry : Nat
  ns : Nat
  record : Cell512
  spot : Nat
  packed : Nat
  acked : Bool
  deriving DecidableEq, Repr

/-- A message the block has sent: the port in the order of R228 (the chapters name more), the address it goes to, its bytes; from an Ethernet port also
its source address, the destination MAC address of its frame (R670, R671), in UDP the source and destination ports (R241), 0 elsewhere, and the
tag control of its VLAN tag where it has one (R668). -/
structure Sent where
  port : Nat
  dst : BitVec 128
  bytes : List Byte
  src : BitVec 128
  mac : BitVec 48
  udp : Nat × Nat
  vlan : Option Nat
  deriving DecidableEq, Repr

/-- INGEST's state beside its registers (R224 to R253): the source table, the latency ring, batches awaiting their DURABLE, whether
an opening has been ordered since the enable, the next nibble of the opening order, the rotation pointers; the admissions while the TSU was not
locked (R239); uncorrectable words of the latency ring by position, and of the counters by register offset and key (R253). -/
structure Ing where
  sources : List (Nat × Source)
  ring : List (Nat × Option RingE)
  batches : List Batch
  opened : Bool
  nibble : Nat
  inNext : Nat
  fsNext : Nat
  unlocked : List Nat
  ringBad : List Nat
  cntBad : List (Nat × Nat)
  deriving DecidableEq, Repr


/-- No source, no ring entry, no batch and no mark: the ingest path at reset. -/
def Ing.off : Ing := ⟨[], [], [], false, 0, 0, 0, [], [], []⟩

/-- A key-store slot (R460): TYPE 0 EMPTY, 1 AES-128, 2 AES-256, 3 P-256, 4 P-384; USE 1 DIRECT, 2 DERIVE, 3 WRAP; PARENT 0x1000
is the root; the 48 bytes of key material as R472 lays them out, byte 0 in the highest bits; DEPTH as it was when the slot was made. -/
structure KeySlot where
  type : Nat
  use : Nat
  child256 : Bool
  parent : Nat
  pgen : Nat
  gen : Nat
  mask : Nat
  label : Nat
  key : BitVec 384
  depth : Nat
  deriving DecidableEq, Repr

/-- An EMPTY slot with GEN 0 (R459). -/
def KeySlot.empty : KeySlot := ⟨0, 0, false, 0, 0, 0, 0, 0, 0, 0⟩

/-- The root area (R470) and what goes with it: ROOT, ROOT_ID (0: not valid), and the last ROOT_ID that LCS saw. -/
structure Root where
  key : BitVec 256
  id : Nat
  last : Nat
  deriving DecidableEq, Repr

/-- The key catalogue in the settings area of NOR (R473): the stored slots, each with the ROOT_ID whose KSTORE its image is wrapped under,
the generation floors, and the ROOT_ID under whose KSTORE the catalogue as a whole was last written. -/
structure Catalogue where
  images : List (Nat × (KeySlot × Nat))
  floors : List (Nat × Nat)
  rootId : Nat
  deriving DecidableEq, Repr



/-- A balance node's record (R364) but for its sequence words; parent 0 none, 1 point, 2 meter; cause: why it is not identified, 0 when
it is; st: 0 NORMAL, 1 WATCH, 2 ALARM_LOSS, 3 ALARM_NEG; lost: its declaration words are lost (R365); seq: the counter of SEQ_N. -/
structure BalNode where
  up : Nat
  isRoot : Bool
  pkind : Nat
  parent : Nat
  expected : Nat
  npA : Nat
  npB : Nat
  sigma : Nat
  aMax : Nat
  xref : Nat
  r11 : Nat
  r12 : Nat
  r22 : Nat
  s1 : Int
  s2 : Int
  thA : Int
  thB : Int
  v : Nat
  n : Nat
  run : Int
  clr : Nat
  lastIdx : Nat
  flags : Nat
  cause : Nat
  st : Nat
  reset : Bool
  lost : Bool
  draw : Bool
  late : Nat
  lastR : Int
  seq : Nat
  deriving DecidableEq, Repr

/-- What an open interval has of a node (R350): the children's shares, the parent meter's share and whether it reported, the
reporting meters, and those of them at or above ZERO_FLOOR. -/
structure NodeAcc where
  child : Int
  par : Int
  parRep : Bool
  reporting : Nat
  above : Nat
  deriving DecidableEq, Repr

/-- A suspect entry (R361). -/
structure Suspect where
  meter : Nat
  node : Nat
  ind : Nat
  energy : Int
  zeroRun : Nat
  det : Nat
  decl : Nat
  deriving DecidableEq, Repr

/-- The accumulators of an open interval. -/
structure BalAcc where
  nodes : List (Nat × NodeAcc)
  suspects : List Suspect
  trunc : Nat
  deriving DecidableEq, Repr

/-- The parameters in force (R366), as the registers of the same names hold them. -/
structure BalPar where
  ctrl : Nat
  lambda : Nat
  alarm : Nat
  cond : Nat
  minIvl : Nat
  zero : Nat
  deriving DecidableEq, Repr

/-- A status cell of the balance lay to the Lanyard (R363, R366): the interval closed, the counts of the close, and what the counters
and causes have gained. -/
structure BalStatus where
  closed : Nat
  nodes : Nat
  alarms : Nat
  unident : Nat
  late : Nat
  forced : Nat
  drop : Nat
  ignored : Nat
  alarm : Bool
  nodeUe : Bool
  us : Nat
  deriving DecidableEq, Repr

/-- The balance lay's work (R342 to R366): the node table, the ZERO_RUN table, the open intervals, the last interval closed and
the newest one open when the lay started, each by its end, the point cells by point (newest first), nodes whose topology has changed, the
parameters, staged reports and the cells left of the one being pushed, closure notices on their way and the last each lay has
popped, status cells on their way, and the gains the next one will carry; commands accepted and not yet in effect, with the splice of their
completions (R347); the records found uncorrectable since the last close (R365). -/
structure Bal where
  nodes : List (Nat × BalNode)
  zeroRun : List (Nat × Nat)
  open_ : List (Nat × BalAcc)
  closed : Option Nat
  first : Option Nat
  points : List (Nat × List Cell512)
  topo : List Nat
  par : BalPar
  staged : List (List Cell512)
  out : List Cell512
  notices : List (Nat × Nat)
  noticed : List (Nat × Nat)
  status : List BalStatus
  late : Nat
  ignored : Nat
  dropped : Nat
  waiting : List (Nat × Cell512)
  spoiled : List (Nat × Bool)
  deriving DecidableEq, Repr

/-- The balance before its start. -/
def Bal.off : Bal :=
  ⟨[], [], [], none, none, [], [], ⟨0, 0xFF9E, 0x00200440, 0x3E8, 0x60, 0x044B000A⟩, [], [], [], [], [], 0, 0, 0, [], []⟩


/-- A measurement channel (R299 to R303): the five integrators and the last inputs of the five combs; the sinc outputs behind the FIR filter;
the offset-corrected samples behind the delay line and the corrected samples, all newest first; the sum and the number of the decimated
samples since the last transfer; the last bit, the MCLK cycles without a transition, and those since transitions resumed (R301). -/
structure Chan where
  ints : List Int
  combs : List Int
  fir : List Int
  line : List Int
  y : List Int
  sum : Int
  count : Nat
  last : Bool
  still : Nat
  moved : Nat
  deriving DecidableEq, Repr

/-- A channel whose filters have just started. -/
def Chan.off : Chan := ⟨[0, 0, 0, 0, 0], [0, 0, 0, 0, 0], [], [], [], 0, 0, false, 0, 0⟩

/-- The accumulators of a phase (R309). -/
structure PhAcc where
  ap : Int
  aq : Int
  sv : Nat
  si : Nat
  deriving DecidableEq, Repr

/-- Cleared accumulators. -/
def PhAcc.zero : PhAcc := ⟨0, 0, 0, 0⟩

/-- A point in MEAS: samples since the last transfer, the temperature in use and its tables' gain and phase per channel (R307, R308), what
the open interval has gathered (R327): transfers, flags, the current square sum, the counts of CREEP_P, TEMP_SUBST and events; a bad
coefficient or memory word; the first interval value after an enable is due; the flags, the current square sum and CREEP_P of the last
transfer; an event has been set or cleared since then. -/
structure MeasPt where
  n : Nat
  gp : List (Int × Int)
  covered : Nat
  flags : Nat
  i2 : Nat
  creep : Nat
  subst : Nat
  event : Nat
  bad : Bool
  first : Bool
  lastFlags : Nat
  lastI2 : Nat
  lastCreep : Bool
  evented : Bool
  deriving DecidableEq, Repr

/-- A point in MEAS before its first transfer. -/
def MeasPt.off : MeasPt := ⟨0, [], 0, 0, 0, 0, 0, 0, false, false, 0, 0, false, false⟩

/-- A stamp of the TSU (R443, R444): seconds, nanoseconds and the number of steps so far. -/
structure Stamp where
  sec : Nat
  ns : Nat
  steps : Nat
  deriving DecidableEq, Repr

/-- MEAS beside its registers (R295 to R334): channels by number, accumulators by 4 × point + phase, points; the coefficients in force, by
window address; when the filters started; the next transfer is STEPPED; the mark whose interval values are due (END, index) and the END of
the last sent; cells built and not yet pushed; the stamp of the last transfer; host temperatures and the age of each, the ages of the
sensor-bus slots' readings; the runs of the event criteria by point, code and phase; events counted; by the same key the start stamps of
the events that are set and the duration records of those that have ended (R443, R444). -/
structure Meas where
  chans : List (Nat × Chan)
  acc : List (Nat × PhAcc)
  pts : List (Nat × MeasPt)
  act : List (Nat × Word32)
  started : Nat
  stepped : Bool
  due : Option (Nat × Nat)
  sent : Option Nat
  ready : List Cell512
  stamp : Option Nat
  hostTemp : List (Nat × Option (Int × Nat))
  sbusAge : List (Nat × Option Nat)
  run : List (Nat × Nat)
  events : Nat
  starts : List (Nat × Stamp)
  durations : List (Nat × List Byte)
  deriving DecidableEq, Repr

/-- MEAS before its start. -/
def Meas.off : Meas := ⟨[], [], [], [], 0, false, none, none, [], none, [], [], [], 0, [], []⟩

/-- A point in TOTALS (R279, R281, R313, R319): totals in units of 2^-32 milli-unit by 9q + e; maxima in mW with their capture seconds; the
rate; DM_COUNT; the current sub-period's energies of slots 0 and 1 and those of the ended sub-periods, newest first; the residues; the
demands of the last sub-period end; LOST is due in the first interval value. -/
structure TotPt where
  tot : List (Nat × Nat)
  max : List (Nat × (Nat × Nat))
  rate : Nat
  dmCount : Nat
  cur : Nat × Nat
  subs : List (Nat × Nat)
  resid : List (Nat × Nat)
  demand : Nat × Nat
  lost : Bool
  deriving DecidableEq, Repr

/-- A point with nothing counted; at reset the rate is 1 (R319). -/
def TotPt.off : TotPt := ⟨[], [], 1, 0, (0, 0), [], [], (0, 0), false⟩

/-- TOTALS beside its registers (R315 to R326): points; the sequence number of the last transfer; the points a TOT_CLEAR has selected;
DM_COUNT restarts at the next transfer; the copy being written (0 A, 1 B), its image and whether it is a partial transfer's; whether the
last copy written is complete, and the copy the previous transfer wrote; snapshot messages are due; by copy what the transfer that wrote it
showed of the points: 11 values each, the demands of c = 1 and 2, then the phases' voltages, currents and powers (R280); the
writes of other sources to the die that wait for the port (R34): rank, place, bytes. -/
structure Totals where
  pts : List (Nat × TotPt)
  tseq : Nat
  clear : Nat
  dmRestart : Bool
  writing : Option (Nat × List Byte × Bool)
  copyOk : Bool
  last : Nat
  snapDue : Bool
  shots : List (Nat × List Nat)
  waits : List (Nat × (Nat × List Byte))
  deriving DecidableEq, Repr

/-- TOTALS before its restore. -/
def Totals.off : Totals := ⟨[], 0, 0, false, none, false, 1, false, [], []⟩

/-- A pulse output (R329, R330): ACC in units of 2^-32 milli-unit, the slot in force; of the second's pulses the number, the width in us and
the level, how many have started, and when the transfer was. -/
structure PulseCh where
  acc : Nat
  qty : Nat
  k : Nat
  width : Nat
  invert : Bool
  done : Nat
  base : Nat
  deriving DecidableEq, Repr

/-- An output that has pulsed nothing. -/
def PulseCh.off : PulseCh := ⟨0, 0, 0, 0, false, 0, 0⟩

/-- A checkpoint pass (R272, R273, R364): the NAND SEQ at its start, and the page numbers stored with LBN and PAGE: 0 to 32,767 the meter table,
32,768 to 33,279 the node table, 33,280 to 33,791 the ZERO_RUN table. -/
structure Pass where
  start : Nat
  pages : List (Nat × (Nat × Nat))
  deriving DecidableEq, Repr

/-- How many pages a pass has. -/
def passPages : Nat := 33792

/-- A meter a tariff distribution serves (R285): the programme, the window's length, the activation time, when its next send is due, its
tries, when it was last sent and not yet answered. -/
structure Dist where
  prog : Nat
  len : Nat
  act : Nat
  due : Nat
  tries : Nat
  sent : Option Nat
  deriving DecidableEq, Repr

/-- An association of the device's COSEM server (R274): its role (0 PUBLIC to 4 MAKER) and the second of its last request. -/
structure Sess where
  role : Nat
  last : Nat
  deriving DecidableEq, Repr

/-- An answer that waits for a counter (R276): session, the host's tag, the answer splice, its content, when the request came. -/
structure Waiting where
  role : Nat
  session : Nat
  tag : Nat
  splice : Nat
  content : List Nat
  since : Nat
  deriving DecidableEq, Repr

/-- A role's outgoing counter (R276): the next to use, the limit answered last, refused until the next rigging start; the next block has been
asked for. -/
structure RoleCtr where
  next : Nat
  limit : Nat
  dead : Bool
  asked : Bool
  deriving DecidableEq, Repr

/-- A query the storing lay holds (R250): the splice of its answer, its QUERY_TAG, the records still to send with their kinds, how many have been
sent, and the status of its end cell. -/
structure QueryRun where
  out : Nat
  tag : Nat
  left : List (Nat × List Byte)
  sent : Nat
  status : Nat
  deriving DecidableEq, Repr

/-- METERDB's bulk load (R293) and the rigging's work of ch. 6 and 7: index and mask of each image of the bulk buffer and how many are to be done;
the checkpoint pass in progress with its next page; tariff programmes loaded, the programmes assigned to each own point (newest first),
distributions by meter; credit actions under way by meter (amount, when sent); associations, roles' counters, waiting answers. The units
left of the budgets of classes 7 and 8 by lay × 2 + class - 7 (R37, R250); the entries of meters with readings under way as they stood, with
when (R237); the queries held; CREDIT readings passed on, with INGRESS_SEQ and whether they passed checks 1 to 3 (R291); as host commands set
them the plausibility window (R235), the period of the passes with the start of the last (R272), each role's key slots (R275), the UDP port of
the field mesh (R599); and where the rigging keeps node table, ZERO_RUN table and programmes in DDR (log entry 34). -/
structure Work where
  bulk : List (Nat × Nat)
  bulkTo : Nat
  pass : Option Pass
  nextPage : Nat
  progs : List Nat
  assigned : List (Nat × List Nat)
  dist : List (Nat × Dist)
  credits : List (Nat × (Nat × Nat))
  sessions : List (Nat × Sess)
  roles : List (Nat × RoleCtr)
  waiting : List Waiting
  quota : List (Nat × Nat)
  prior : List (Nat × (Nat × List Byte))
  queries : List QueryRun
  tokens : List (Nat × (Nat × Bool))
  window : Nat
  period : Nat
  passAt : Option Nat
  roleKeys : List (Nat × (Nat × Nat))
  meshPort : Nat
  nodeBase : Nat
  zeroBase : Nat
  progBase : Nat
  deriving DecidableEq, Repr

/-- No work; the tables of the balance and the programmes 4 GiB up in DDR (log entry 34). -/
def Work.off : Work :=
  ⟨[], 0, none, 0, [], [], [], [], [], [], [], [], [], [], [], 900, 600, none, [], 20568, 2 ^ 32, 2 ^ 32 + 2 ^ 23, 2 ^ 32 + 2 ^ 24⟩


/-- An entry that is not VALID. -/
def Neigh.off : Neigh :=
  ⟨false, false, false, 0, 0, 0xFFFE, 0, 0, none, 0, 0, none, false, false, 0, 0, 0, false, false, 0, [], 0, [], none, 0, [], none, false, false, []⟩

/-- A stranger's entry (R376, R422). -/
structure Strange where
  addr : Nat
  short : Bool
  secured : Bool
  count : Nat
  level : Nat
  lqi : Nat
  first : Nat
  last : Nat
  label : Nat
  run : Nat
  dev : Nat
  deriving DecidableEq, Repr

/-- A reassembly buffer (R384): sender, datagram size and tag; the fragments by offset with the bytes each stands for; when it began; bad: a word of
it is uncorrectable (R397; no command of the table brings that about). -/
structure Reasm where
  sender : Nat
  size : Nat
  tag : Nat
  parts : List (Nat × (Nat × List Byte))
  since : Nat
  bad : Bool
  deriving DecidableEq, Repr

/-- A message to send (R386): the splice it came from (none: the device's own command), its descriptor's CHAN and AUX, destination, PAN, the
flags of word 2, its payload; command: a MAC command; when it was popped; bad: a word of it is uncorrectable (R397, R421; no command of the table
brings that about). -/
structure TxMsg where
  splice : Option Nat
  chan : Nat
  tag : Nat
  ext : Nat
  short : Nat
  pan : Nat
  useExt : Bool
  ack : Bool
  level : Nat
  key : Nat
  couple : Nat
  payload : List Byte
  command : Bool
  since : Nat
  bad : Bool
  deriving DecidableEq, Repr

/-- The message a port is sending (R387 to R390): the fragments left, the current frame's bytes once it is built, its sequence number and FCS, the
tries of the message and of the frame, NB and BE; st: 0 waits for a counter, 1 backs off, 2 listens, 3 sends, 4 waits for the
acknowledgement, 5 waits for the beacon (R406); due: when the wait ends; extended: its last frame sent was an extended one; mask: its front ends; pending: frame pending; the words of
RAD_CSMA and RAD_TIME0, or PLC_CSMA and PLC_TIME0, as they were at the start of the frame (R389). -/
structure TxRun where
  msg : TxMsg
  parts : List (List Byte)
  psdu : List Byte
  seq : Nat
  fcs : Nat
  tries : Nat
  again : Nat
  nb : Nat
  be : Nat
  st : Nat
  due : Nat
  extended : Bool
  mask : Nat
  pending : Bool
  csma : Nat
  time0 : Nat
  deriving DecidableEq, Repr

/-- An acknowledgement owed (R383): the neighbour, the sequence number and FCS it carries, when it starts, frame pending, the counter that
becomes NEXT_CTR - 1 with it; enhanced: an Enh-Ack; the sender's extended address, as its entry stood when the frame came (R375). -/
structure Owed where
  nb : Nat
  seq : Nat
  fcs : Nat
  due : Nat
  pending : Bool
  ctr : Option Nat
  enhanced : Bool
  ext : Nat
  deriving DecidableEq, Repr

/-- A field port, RADIO_n or PLC_PH_n, beside its registers (R374 to R397, R402): neighbours, strangers by entry, reassembly buffers, direct
messages, those answering a data request, those held, the one being sent, acknowledgements owed, the next sequence number and datagram tag,
status cells that wait with their splices, the 32-bit capture of the last strobe received and not yet used and the step count's low bits then
(R371, R437), that of the last strobe sent; secured sending has
stopped; key slots written since the last counter reset; a new channel is to be set when the present frame has been sent (R395); when the
acknowledgement being sent ends, on the radio at the latest (R370, R388); the register access under way: when it began and the byte a read
returns (R396); when RST_N was last released (R368). -/
structure Mac where
  nbs : List (Nat × Neigh)
  strangers : List (Nat × Strange)
  reasm : List Reasm
  direct : List TxMsg
  answers : List TxMsg
  held : List TxMsg
  run : Option TxRun
  owed : List Owed
  seq : Nat
  dtag : Nat
  status : List (Nat × Cell512)
  strobe : Option (Nat × Nat)
  strobeTx : Nat
  halted : Bool
  written : Nat
  chanDue : Bool
  acking : Option Nat
  xreg : Option (Nat × Byte)
  rstAt : Nat
  deriving DecidableEq, Repr

/-- A port that has just been turned on. -/
def Mac.off : Mac := ⟨[], [], [], [], [], [], none, [], 0, 0, [], none, 0, false, 0, false, none, none, 0⟩

/-- How a power-line transmission is made (R401 to R404, R410): a standard frame, an FCH-only acknowledgement, a beacon, which is super-robust, an
extended frame. -/
inductive PlcForm where
  | standard | ackOnly | superRobust | extended
  deriving DecidableEq, Repr

/-- A transmission on the power line's front ends (R399, R410 to R412, R415): its front ends, DT and PDC of its FCH, its extension header, its MAC
bytes; when its first sample and its end fall, in model ns; of an extended frame the payload symbols, each with its start in TSU ns and its slot, and
per interleaver block the coded bits in the order of their positions. -/
structure Burst where
  form : PlcForm
  mask : Nat
  dt : Nat
  pdc : Nat
  header : List Byte
  bytes : List Byte
  start : Nat
  stop : Nat
  symbols : List (Nat × Nat)
  bits : List (List Bool)
  deriving DecidableEq, Repr

/-- An SPI transaction of a radio port (R368, R369): the port, when CS_N falls and rises, the command code, L, the data from the device. -/
structure SpiTx where
  port : Nat
  start : Nat
  stop : Nat
  code : Nat
  len : Nat
  data : List Byte
  deriving DecidableEq, Repr

/-- PLC beside its registers (R400 to R408): by phase the last edge and the runs of good intervals, and the last 16 intervals in ns; the
reference phase; when the next beacon is due and when the last was sent; the end of the start-up period; the rejoin seed; by phase when TXEN
rose last and when it falls, and the AGC step (R399); the mains period P and the last edge of the reference phase, both kept while every phase
is lost (R400); the phases that are lost; the quiet windows of the last beacon and its airtime in ns (R405, R406); what the front ends have sent,
oldest first (the model's own field). -/
structure Plc where
  edge : List (Nat × Nat)
  good : List (Nat × Nat)
  ivls : List (Nat × List Nat)
  ref : Nat
  due : Nat
  sfd : Nat
  startEnd : Option Nat
  seed : Nat
  txen : List (Nat × (Nat × Nat))
  agc : List (Nat × Nat)
  period : Nat
  base : Nat
  lost : List (Nat × Bool)
  windows : List (Nat × Nat)
  bcnAir : Nat
  bursts : List Burst
  deriving DecidableEq, Repr

/-- PLC before its start. -/
def Plc.off : Plc := ⟨[], [], [], 1, 0, 0, none, 0, [], [], 0, 0, [], [], 0, []⟩


/-- A mailbox request in service (R529, R530): REQ, the host's tag, its body; begun: its effect has been made and its reply waits. -/
structure MailReq where
  req : Nat
  tag : Nat
  body : List Byte
  begun : Bool
  deriving DecidableEq, Repr

/-- The parts of a manifest being received (R600): the transfer's version, the number of parts, the parts held. -/
structure ManifestIn where
  version : Nat
  total : Nat
  parts : List (Nat × List Byte)
  deriving DecidableEq, Repr

/-- The Lanyard beside its registers (R523 to R541, R600, R654): the mailbox request in service; the notices kept, oldest first (kind, count,
body), the notice count, the notices dropped; the capacity last reported; strands the host has ordered kept out; returns of strands and their operating seconds; Lanyard-facing splices whose
open message is being discarded; an NMI that waits for the safety context's return. The Lanyard watchdog: in stage 2, T1 and T2 in force; the
host watchdog's last accepted kick. The scrubber's word. SENS: runs of samples by sensor (voltage monitors from 32) × 8 + limit; sensors that have
taken an injected crossing; a temperature has been seen since SENS_T_MAX was read; when each sensor's minute ends; the minutes of the present
hour by sensor × 16 + bin and its highest temperatures; the NAND minutes already added. The debug port has halted it, and what is left of the
watchdog stage then. Manifests being received, by kind. The firmware has made its start (R631). -/
structure Lany where
  mail : Option MailReq
  notices : List (Nat × (Nat × List Nat))
  count : Nat
  dropped : Nat
  capacity : List Nat
  kept : List Nat
  returned : List (Nat × Nat)
  discard : List Nat
  nmi : Bool
  stage2 : Bool
  t1 : Nat
  t2 : Nat
  kickAt : Nat
  scrub : Nat
  runs : List (Nat × Nat)
  injected : List Nat
  seen : Bool
  minute : List (Nat × Nat)
  hour : List (Nat × Nat)
  peak : List (Nat × (Int × Nat))
  thist : List (Nat × Nat)
  halted : Bool
  left : Nat
  manifests : List (Nat × ManifestIn)
  started : Bool
  deriving DecidableEq, Repr

/-- The Lanyard before its start. -/
def Lany.off : Lany :=
  ⟨none, [], 0, 0, [], [], [], [], false, false, 100, 100, 0, 0, [], [], false, [], [], [], [], false, 0, [], false⟩

/-- The lifetime record (R538): minutes by sensor × 16 + bin; the highest temperature of each sensor with its RTC second; minutes by NAND target
× 16 + bin. -/
structure Lifetime where
  bins : List (Nat × Nat)
  peak : List (Nat × (Int × Nat))
  nand : List (Nat × Nat)
  deriving DecidableEq, Repr

/-- What a settings copy (R607) says, beside its bytes in NOR: GEN, SET_FMT, whether its read-back agreed, and its sections but for the key
catalogue and the lifetime record, which are state of their own. -/
structure SettingsCopy where
  gen : Nat
  fmt : Nat
  good : Bool
  body : Settings
  deriving DecidableEq, Repr

/-- A meter image in NAND (R609): IMAGE_ID, VERSION, its length in bytes, the LBN and PAGE of each of its pages. -/
structure SlotImage where
  id : List Byte
  version : Nat
  len : Nat
  pages : List (Nat × Nat)
  deriving DecidableEq, Repr

/-- A meter in a campaign (R610): the splice its messages leave by, the blocks it still misses, its step (the STATE of R611), the unicast tries
used, when verification began and when its next poll is due, in TSU seconds. -/
structure CampMeter where
  out : Nat
  missing : List Nat
  st : Nat
  tries : Nat
  since : Nat
  poll : Nat
  deriving DecidableEq, Repr

/-- A campaign (R610): image slot, block size, group key index, rounds, block gap in ns, activation time; the round in progress; by
splice when the next block is due; the blocks sent in the round (splice × 65536 + block); its meters; the ring its outcomes go to. -/
structure Camp where
  slot : Nat
  block : Nat
  key : Nat
  rounds : Nat
  gap : Nat
  act : Nat
  round : Nat
  due : List (Nat × Nat)
  sent : List Nat
  meters : List (Nat × CampMeter)
  ring : Nat
  deriving DecidableEq, Repr


/-- A page of the mirror or salvage path (R579, R580, R590): LBN, PAGE and, on the active, the request whose KIND 1 completion it answers. -/
structure PairSent where
  lbn : Nat
  page : Nat
  req : NandReq
  deriving DecidableEq, Repr

/-- LEASE and PAIR beside their registers (R568 to R591). The link: the part's session and last frame counter, the peer's, when its last HELLO
verified, what it said; PAGE frames sent and not answered; pages a returning part has still to salvage, CATCHUP pages the active has still to
send (none: no salvage, no catch-up under way); the peer's silence of 3 s has been noticed. The lease: RENEWs sent with their times, the newest
RSEQ granted, the lease expiry or the takeover time (0: none), the time of the last grant; the host's STAY_OUT; reservation limits that wait for
the standby, by index; the test step: the lay under test, the next lay, when it is due, the masks of lays whose last step passed and failed; the pieces of a settings
image received so far (R582). -/
structure Pair where
  session : Nat
  fctr : Nat
  peerSession : Nat
  peerCtr : Nat
  seen : Option Nat
  peer : Option HelloBody
  out : List PairSent
  salvage : Option (List (Nat × Nat))
  catchup : Option (List (Nat × Nat))
  told : Bool
  renews : List (Nat × Nat)
  granted : Nat
  expiry : Nat
  grantAt : Option Nat
  stayOut : Bool
  limits : List (Nat × Nat)
  test : Option Nat
  nextTest : Nat
  testAt : Nat
  passed : Nat
  failed : Nat
  pieces : List Byte
  deriving DecidableEq, Repr

/-- A part that has just started. -/
def Pair.off : Pair := ⟨0, 0, 0, 0, none, none, [], none, none, false, [], 0, 0, none, false, [], none, 0, 0, 0, 0, []⟩

/-- The link's part lost: NET is off. -/
def Pair.linkOff (p : Pair) : Pair :=
  { p with session := 0, fctr := 0, peerSession := 0, peerCtr := 0, seen := none, peer := none, out := [], salvage := none, catchup := none, told := false, pieces := [] }

/-- The lease's part lost: MGMT is off. -/
def Pair.leaseOff (p : Pair) : Pair :=
  { Pair.off with session := p.session, fctr := p.fctr, peerSession := p.peerSession, peerCtr := p.peerCtr, seen := p.seen, peer := p.peer
                  out := p.out, salvage := p.salvage, catchup := p.catchup, told := p.told }

/-- The debug port beside its registers (R637 to R656): the level authenticated; the challenge, the level it was drawn for, whether it is still good;
the response words; when the last failure was; a check is under way; the port waits for a line reset; the ACK last given (1 OK, 2 WAIT, 4 FAULT, 7
none); the parity bit of the response data. -/
structure Dbg where
  level : Nat
  chal : List Byte
  sought : Nat
  fresh : Bool
  resp : List (Nat × Word32)
  failAt : Option Nat
  checking : Bool
  deaf : Bool
  ack : Nat
  rpar : Bool
  deriving DecidableEq, Repr

/-- The debug port after a chip reset. -/
def Dbg.off : Dbg := ⟨0, [], 0, false, [], none, false, false, 0, false⟩

/-- A DMA ring beside its registers (R660 to R662): cells moved since the last write-back and when that is due, cells written back since the last
message and when that is due. -/
structure Ring where
  since : Nat
  wbAt : Nat
  fresh : Nat
  irqAt : Nat
  deriving DecidableEq, Repr

/-- A ring that has just been reset. -/
def Ring.off : Ring := ⟨0, 0, 0, 0⟩

/-- MSI-X (R657, R658, R666): address and data of each vector written, the vectors unmasked, those with a message due, those pending, and the
messages sent, oldest first (the model's own field). -/
structure Msix where
  entries : List (Nat × (BitVec 64 × BitVec 32))
  open_ : List Nat
  due : List Nat
  pend : List Nat
  sent : List (Nat × (BitVec 64 × BitVec 32))
  deriving DecidableEq, Repr

/-- MSI-X after a reset: every vector masked. -/
def Msix.off : Msix := ⟨[], [], [], [], []⟩

/-- An Ethernet port beside its registers (R669 to R671): the neighbour cache, most recently used first; the frames queued of block end 0x03; the
addresses that owe an unsolicited advertisement; by peer address and BATCH_SEQ the own address its message was sent to, with the peer's and the
own UDP port. -/
structure EthPort where
  cache : List (BitVec 128 × BitVec 48)
  queue : List (BitVec 128 × List Byte)
  adv : List Nat
  peers : List ((BitVec 128 × Nat) × (BitVec 128 × (Nat × Nat)))
  mdio : Option (Nat × BitVec 16)
  deriving DecidableEq, Repr

/-- A port that has just been turned on. -/
def EthPort.off : EthPort := ⟨[], [], [], [], none⟩

/-- A station of an HDLC loop (R677): its entry, V(S), V(R), its link state, replies missed in a row, when its reply is due (0: none awaited), its word
is uncorrectable; it is to be told RNR; when its next poll is due. -/
structure Station where
  addr : BitVec 32
  valid : Bool
  meter : Nat
  vs : Nat
  vr : Nat
  up : Bool
  down : Bool
  rnr : Bool
  misses : Nat
  await : Nat
  bad : Bool
  poll : Nat
  deriving DecidableEq, Repr

/-- A station that has not been committed. -/
def Station.off : Station := ⟨0, false, 0, 0, 0, false, false, false, 0, 0, false, 0⟩

/-- A message a UART has popped (R386, R677): splice, CHAN, AUX, address, kind (0 I, 1 SNRM, 2 DISC), payload, tries. -/
structure UMsg where
  splice : Nat
  chan : Nat
  tag : Nat
  addr : BitVec 32
  kind : Nat
  payload : List Byte
  tries : Nat
  deriving DecidableEq, Repr

/-- A UART beside its registers (R676, R677): stations, messages waiting, the message being sent, status cells that wait with their splices; when
DE was last asserted and when it is released; since when RX has been idle; the bytes of the frame being received behind its flag, and when the last
character ended. -/
structure Uart where
  stations : List (Nat × Station)
  queue : List UMsg
  run : Option UMsg
  status : List (Nat × Cell512)
  deFrom : Nat
  deTo : Nat
  rxEnd : Nat
  cur : Option (List Byte)
  last : Nat
  deriving DecidableEq, Repr

/-- A UART that has just been turned on. -/
def Uart.off : Uart := ⟨[], [], none, [], 0, 0, 0, none, 0⟩

/-- The health tests of the entropy source and the use of the DRBG (R480). -/
structure Trng where
  /-- the last raw bit -/
  last : Bool
  /-- the raw bits in a row that were equal to it -/
  run : Nat
  /-- the first bit of the adaptive-proportion window -/
  ref : Bool
  /-- the window's bits equal to it -/
  count : Nat
  /-- the bits the window has taken -/
  pos : Nat
  /-- the generate requests since the last reseed -/
  used : Nat
  deriving DecidableEq, Repr

/-- The tests at their start. -/
def Trng.fresh : Trng := ⟨false, 0, false, 0, 0, 0⟩

/-- The state of the block. -/
structure State where
  /-- the register window (R45): words that differ from their reset value -/
  regs : List (Nat × Word32)
  /-- registers behind a selector (R542 and the tables of the chapters), by address and index -/
  bank : List (Nat × Word64)
  /-- the read latches, one per requester and 64-bit register (R56) -/
  latch : List (Nat × Word32)
  /-- the valid write shadows, one per requester and 64-bit register (R57) -/
  shadow : List (Nat × Word32)
  /-- the byte-addressed memories (`Space`) -/
  mem : List Host.Cell
  /-- words of `mem` whose check bits are wrong: 1 correctable, 2 uncorrectable (R120, R140, R203) -/
  ecc : List (Nat × Nat)
  /-- the strands, by device-wide number (R17) -/
  strands : List (Nat × Strand)
  /-- the lays -/
  lays : List (Nat × Lay)
  /-- the splices -/
  splices : List (Nat × Splice)
  /-- the pool scrubber's word (R204) -/
  poolScrub : Nat
  /-- OTP content -/
  otp : Otp
  /-- the event recorder -/
  evr : Evr
  /-- the fault collector -/
  fc : Fc
  /-- cells fixed-function producers, the Lanyard and rings hold until a splice shows space, oldest first (R196) -/
  held : List (Nat × Cell512)
  /-- the network time (R423) -/
  tsuTime : TsuTime
  /-- the data the last register read returned to its requester (the bus answer; the model's own field) -/
  rdata : Word64
  /-- the times at which running timers and commands in progress end, by the register they belong to (the model's own field; 0 is not running) -/
  timers : List (Nat × Nat)
  /-- the rigging in force (R149 to R167) -/
  rig : Rig
  /-- the external memories as fitted -/
  fitted : Fitted
  /-- the units left of each lay's per-turn budget, by lay × 8 + class (R226) -/
  budgets : List (Nat × Nat)
  /-- the remainders of the throttled budgets, by lay × 8 + class (R513) -/
  rems : List (Nat × Nat)
  /-- the DDR scrubber's word (R139, R159) -/
  ddrScrub : Nat
  /-- completions of requests taken, by block end code and splice, until the block commits them (R137) -/
  outbox : List (Nat × Nat × List Cell512)
  /-- STORE (R496 to R522) -/
  nand : Nand
  /-- INGEST (R224 to R253) -/
  ing : Ing
  /-- readings whose records are packed and not yet acknowledged, oldest first (R239, R240) -/
  readings : List Pend
  /-- the messages the block has sent from its ports, oldest first (the model's own field) -/
  wire : List Sent
  /-- the key store (R459, R460) -/
  keys : List (Nat × KeySlot)
  /-- the root secret, in the backup domain (R470) -/
  root : Root
  /-- the keys held inside the RADIO, PLC, PAIR and AEAD engines, by engine × 16 + index (R465) -/
  copies : List (Nat × KeyReg)
  /-- the consecutive samples at the active level of each tamper input, in the backup domain; 256 once they have qualified it (R475) -/
  tamperRun : List (Nat × Nat)
  /-- the events of the backup domain that the Lanyard has still to record: code and inputs (R475, R494) -/
  tamperDue : List (Nat × List Nat)
  /-- the health tests and the use of the DRBG (R480) -/
  trng : Trng
  /-- the transfer the wake port stretches: a read or not, and the bytes the master writes (R623) -/
  wakeHeld : Option (Bool × List Byte)
  /-- the results of jobs in progress, by the address of their status register, until they end (the model's own field) -/
  results : List (Nat × Nat)
  /-- what jobs in progress still write to DDR: status register, address, bytes (R33; the model's own field) -/
  outputs : List (Nat × (Nat × List Byte))
  /-- the key catalogue, in NOR (R473) -/
  catalogue : Catalogue
  /-- the energy balance (R342 to R366) -/
  bal : Bal
  /-- the RTC beside its registers, in the backup domain (R445 to R451) -/
  rtc : Rtc
  /-- the 1588 messages handed to the Lanyard, oldest first: port, stamp in ps, bytes (R433, R434) -/
  ptp : List (Nat × Nat × List Byte)
  /-- the levels the blocks drive on the GPIO balls they own (R331, R457) -/
  balls : List (Nat × Bool)
  /-- MEAS beside its registers (R295 to R334) -/
  meas : Meas
  /-- TOTALS beside its registers (R315 to R326) -/
  totals : Totals
  /-- the pulse outputs beside their registers (R329, R330) -/
  pulses : List (Nat × PulseCh)
  /-- METERDB beside its registers and the work of ch. 7 (R254 to R293) -/
  work : Work
  /-- the last two complete checkpoint passes, newest first, in NAND (R272) -/
  passes : List Pass
  /-- the field ports beside their registers: 0 to 3 RADIO_0 to RADIO_3, 4 to 6 PLC_PH_1 to PLC_PH_3 (R374 to R397, R402) -/
  mac : List (Nat × Mac)
  /-- PLC beside its registers (R400 to R408) -/
  plc : Plc
  /-- the transactions the radio ports have started on SPI, oldest first (the model's own field; R368, R369) -/
  spi : List SpiTx
  /-- the cells of messages that message-consuming blocks have begun: block end, splice, cells (R194) -/
  partials : List (Nat × (Nat × List Cell512))
  /-- ERR_OUT_N (R553) -/
  errPin : ErrPin
  /-- the Lanyard beside its registers (R523 to R541, R654) -/
  lany : Lany
  /-- the lifetime record, in the settings area of NOR (R538) -/
  lifetime : Lifetime
  /-- the settings copies A and B in NOR (R607), by copy -/
  settings : List (Nat × SettingsCopy)
  /-- the meter images in NAND, by image slot (R609) -/
  images : List (Nat × SlotImage)
  /-- the installed version of each kind that a copy at start has recorded (R604) -/
  versions : List (Nat × Nat)
  /-- the meter image campaigns of the field-service lay (R610) -/
  camps : List Camp
  /-- LEASE and PAIR beside their registers (R568 to R591) -/
  pair : Pair
  /-- the debug port beside its registers (R637 to R656) -/
  dbg : Dbg
  /-- the DMA rings beside their registers (R659 to R664) -/
  rings : List (Nat × Ring)
  /-- the MSI-X table, its pending bits and its messages (R658, R666) -/
  msix : Msix
  /-- the Ethernet ports beside their registers: 0 to 3 ETH, 4 and 5 SGMII (R669 to R671) -/
  eth : List (Nat × EthPort)
  /-- the UARTs beside their registers (R677) -/
  uarts : List (Nat × Uart)
  /-- when each sensor-bus slot last had a valid reading, in ns (R679) -/
  sbus : List (Nat × Nat)
  /-- the model's time in nanoseconds, moved by the commands that carry a time (log entry 3) -/
  now : Nat
  /-- how many free values have been drawn (log entry 1) -/
  freeCtr : Nat
  /-- the commands that wait, first in first out -/
  pending : List Instr
  deriving DecidableEq, Repr

/-- The block right after power-on reset: every register at its reset value, every table empty, no command waiting. -/
def State.reset : State where
  regs := []
  bank := []
  latch := []
  shadow := []
  mem := []
  ecc := []
  strands := []
  lays := []
  splices := []
  poolScrub := 0
  otp := Otp.fresh
  evr := Evr.off
  fc := Fc.off
  held := []
  tsuTime := TsuTime.off
  rdata := 0
  timers := []
  rig := Rig.none
  fitted := Fitted.board
  budgets := []
  rems := []
  ddrScrub := 0
  outbox := []
  nand := Nand.off
  ing := Ing.off
  readings := []
  wire := []
  keys := []
  root := ⟨0, 0, 0⟩
  copies := []
  tamperRun := []
  tamperDue := []
  trng := Trng.fresh
  wakeHeld := none
  results := []
  outputs := []
  catalogue := ⟨[], [], 0⟩
  bal := Bal.off
  rtc := Rtc.off
  ptp := []
  balls := []
  meas := Meas.off
  totals := Totals.off
  pulses := []
  work := Work.off
  passes := []
  mac := []
  plc := Plc.off
  spi := []
  partials := []
  errPin := ⟨0, false⟩
  lany := Lany.off
  lifetime := ⟨[], [], []⟩
  settings := []
  images := []
  versions := []
  camps := []
  pair := Pair.off
  dbg := Dbg.off
  rings := []
  msix := Msix.off
  eth := []
  uarts := []
  sbus := []
  now := 0
  freeCtr := 0
  pending := []

/-- Why a step stops with a fault. No command of the spec stops the block: a check that fails sets error bits and the
block goes on, so this type has no constructor a meaning answers with. -/
inductive Fault where
  /-- raised by nothing; safe, since no run reaches it -/
  | unreached
  deriving DecidableEq, Repr

/-- Why a command has no meaning. -/
inductive Refusal where
  /-- raised by exec for a command of the table that has no meaning yet; safe -/
  | notModelled (mnemonic : String)
  deriving DecidableEq, Repr

/-- What a meaning answers. -/
abbrev Res := Host.Outcome State Fault Refusal

end Sys2Proof.Machine
end

