-- ==== Sys2Proof/Machine/Ops.lean ====
section
/-! DEFINITION. The named operations over the register window and the memories that every meaning uses: reading and
writing a register, refusing a write, raising a cause or an interrupt, counters, bytes of a memory, events. -/

namespace Sys2Proof.Machine

/-! ### Memories -/

/-- One byte of a memory. -/
def State.byte (s : State) (sp : Space) (a : Nat) : Byte := look memDefault s.mem (sp.base + a)

/-- One byte of a memory written. -/
def State.setByte (s : State) (sp : Space) (a : Nat) (v : Byte) : State :=
  { s with mem := Machine.store memDefault s.mem (sp.base + a) v }

/-- n bytes from an address, in ascending order. -/
def State.bytes (s : State) (sp : Space) (a n : Nat) : List Byte := (List.range n).map (fun i => s.byte sp (a + i))

/-- Bytes written in ascending order. -/
def State.setBytes (s : State) (sp : Space) (a : Nat) : List Byte → State
  | [] => s
  | b :: t => (s.setByte sp a b).setBytes sp (a + 1) t

/-- The little-endian number of a list of bytes (R9). -/
def leNat : List Byte → Nat
  | [] => 0
  | b :: t => b.toNat + 256 * leNat t

/-- The big-endian number of a list of bytes (R9). -/
def beNat (l : List Byte) : Nat := leNat l.reverse

/-- n little-endian bytes of a number (R9). -/
def toLe : Nat → Nat → List Byte
  | 0, _ => []
  | n + 1, v => BitVec.ofNat 8 v :: toLe n (v / 256)

/-- n big-endian bytes of a number (R9). -/
def toBe (n v : Nat) : List Byte := (toLe n v).reverse

/-- n bytes at an address, little-endian. -/
def State.le (s : State) (sp : Space) (a n : Nat) : Nat := leNat (s.bytes sp a n)

/-- n bytes written at an address, little-endian. -/
def State.setLe (s : State) (sp : Space) (a n v : Nat) : State := s.setBytes sp a (toLe n v)

/-! ### The ferroelectric die (R34) -/

/-- The die's waiting writes done, in the order of their ranks. -/
def State.dieServe (s : State) : State :=
  let l := s.totals.waits.mergeSort (fun a b => a.1 ≤ b.1)
  l.foldl (fun s e => s.setBytes .fram e.2.1 e.2.2) { s with totals := { s.totals with waits := [] } }

/-- The die as its waiting writes will leave it: what their sources go by. -/
def State.die (s : State) : State := if s.totals.waits = [] then s else s.dieServe

/-- A write to the die by a source below TOTALS (R34): 2 EVR, 3 a counter store, 4 UPD; while TOTALS writes a copy it waits. -/
def State.framPut (s : State) (rank a : Nat) (l : List Byte) : State :=
  if s.totals.writing.isSome then { s with totals := { s.totals with waits := s.totals.waits ++ [(rank, (a, l))] } }
  else s.setBytes .fram a l

/-- The key of the 8-byte word of a memory that holds an address, in the table of check-bit conditions. -/
def eccKey (sp : Space) (a : Nat) : Nat := (sp.base + a) / 8

/-- The condition of the word that holds an address: 0 clean, 1 one bit wrong, 2 uncorrectable. -/
def State.eccOf (s : State) (sp : Space) (a : Nat) : Nat := look (fun _ => 0) s.ecc (eccKey sp a)

/-- The condition of a word set; a write of the whole word, or a scrubber's write-back, makes it clean. -/
def State.setEcc (s : State) (sp : Space) (a c : Nat) : State :=
  { s with ecc := Machine.store (fun _ => 0) s.ecc (eccKey sp a) c }

/-- The bytes of a memory between two addresses forgotten: they read as unlisted bytes again. -/
def State.clearMem (s : State) (sp : Space) (a b : Nat) : State :=
  { s with mem := dropRange s.mem (sp.base + a) (sp.base + b), ecc := dropRange s.ecc (eccKey sp a) (eccKey sp b) }

/-! ### Registers -/

/-- The window address of page offset o of a block's page (R67). -/
def pa (p : Pg) (inst o : Nat) : Nat := ((pageInfo p).code + inst) * 4096 + o

/-- The function and holder a pin resource resets to (R681): a block's own balls are its own. -/
def pmxReset (i : Nat) : Nat := if 32 ≤ i ∧ i ≤ 48 then 5 else 0

/-- The reset value of block-specific register word o of a page (R16), where it differs by instance or index. -/
def rowReset (p : Pg) (inst o : Nat) : Nat :=
  match p with
  | .mp => if o = rMP_CFG then inst / 2 else plain p o
  | .fc => if rFC_REACT + 4 * 39 ≤ o then 0 else plain p o
  | .pwr => if o = rPWR_DOM ∨ o = rPWR_DOM + 4 then 0x10001 else plain p o
  | .pinmux => if rPMX_OWN ≤ o then pmxReset ((o - rPMX_OWN) / 4) else plain p o
  | q => plain q o
where
  /-- The value of the register table. -/
  plain (p : Pg) (o : Nat) : Nat :=
    match rowAt p o with
    | none => 0
    | some r => if r.wide ∧ o ≠ r.start o then r.reset / 2 ^ 32 else r.reset % 2 ^ 32

/-- The reset value of a window word (R16, R58). -/
def regReset (a : Nat) : Word32 :=
  match pageAt (a / 4096) with
  | none => 0
  | some (p, i) =>
    let o := a % 4096
    if o = 0x00C ∨ o = 0x010 then BitVec.ofNat 32 (pageInfo p).enReset.toNat
    else if o = 0x018 then BitVec.ofNat 32 (pageInfo p).err
    else if o < 0x040 then 0
    else BitVec.ofNat 32 (rowReset p i o)

/-- A window word as stored. -/
def State.rd (s : State) (a : Nat) : Word32 := look regReset s.regs a

/-- A window word set. -/
def State.wr (s : State) (a : Nat) (v : Word32) : State := { s with regs := Machine.store regReset s.regs a v }

/-- Bits hi:lo of a window word. -/
def State.fld (s : State) (a hi lo : Nat) : Nat := bits (s.rd a) hi lo

/-- Bits hi:lo of a window word set. -/
def State.putF (s : State) (a hi lo v : Nat) : State := s.wr a (putBits (s.rd a) hi lo v)

/-- One bit of a window word. -/
def State.bitAt (s : State) (a i : Nat) : Bool := bit (s.rd a) i

/-- One bit of a window word set or cleared. -/
def State.putBit (s : State) (a i : Nat) (b : Bool) : State := s.putF a i i b.toNat

/-- A 64-bit register (R55). -/
def State.rd64 (s : State) (a : Nat) : Word64 := (s.rd (a + 4)).append (s.rd a)

/-- A 64-bit register set. -/
def State.wr64 (s : State) (a : Nat) (v : Word64) : State :=
  (s.wr a (v.extractLsb' 0 32)).wr (a + 4) (v.extractLsb' 32 32)

/-- The voltage monitors' reset limits (R537): nominal supply of monitor v in mV. -/
def monitorNominal (v : Nat) : Nat :=
  if v ≤ 9 then 800 else if v = 10 then 1800 else if v = 11 then 1200 else if v = 12 then 900 else if v = 13 then 1800 else 3300

/-- The key of entry i of the register at a in the bank of selected registers. -/
def bankKey (a i : Nat) : Nat := a * 2 ^ 20 + i

/-- The reset value of a selected register: its register row's, but for the monitors' limits (R537). -/
def bankReset (k : Nat) : Word64 :=
  let a := k / 2 ^ 20
  let i := k % 2 ^ 20
  if a = pa .sens 0 rSENS_V_LO then
    BitVec.ofNat 64 ((if i < 14 then 2 ^ 31 else 0) + monitorNominal i * 98 / 100 * 2 ^ 16 + monitorNominal i * 97 / 100)
  else if a = pa .sens 0 rSENS_V_HI then
    BitVec.ofNat 64 (monitorNominal i * 103 / 100 * 2 ^ 16 + monitorNominal i * 102 / 100)
  else match pageAt (a / 4096) with
    | none => 0
    | some (p, _) => match rowAt p (a % 4096) with
      | none => 0
      | some r => BitVec.ofNat 64 r.reset

/-- Entry i of a selected register. -/
def State.bk (s : State) (a i : Nat) : Word64 := look bankReset s.bank (bankKey a i)

/-- Entry i of a selected register set. -/
def State.setBk (s : State) (a i : Nat) (v : Word64) : State :=
  { s with bank := Machine.store bankReset s.bank (bankKey a i) v }

/-- Entry i of a selected counter advanced, stopping at a limit. -/
def State.bumpBk (s : State) (a i limit n : Nat) : State :=
  s.setBk a i (BitVec.ofNat 64 (satAdd limit (s.bk a i).toNat n))

/-- A 32-bit counter register advanced, saturating at 0xFFFF_FFFF. -/
def State.bump (s : State) (a n : Nat) : State := s.wr a (BitVec.ofNat 32 (satAdd (2 ^ 32 - 1) (s.rd a).toNat n))

/-- A 32-bit counter register advanced modulo 2^32. -/
def State.bumpMod (s : State) (a n : Nat) : State := s.wr a (s.rd a + BitVec.ofNat 32 n)

/-- A counter field advanced, saturating. -/
def State.bumpF (s : State) (a hi lo n : Nat) : State :=
  s.putF a hi lo (satAdd (2 ^ (hi + 1 - lo) - 1) (s.fld a hi lo) n)

/-! ### Free values -/

/-- A free value (log entry 1) and the state that has drawn it. -/
def State.draw (s : State) : Word64 × State := (Config.freeWord s.freeCtr, { s with freeCtr := s.freeCtr + 1 })

/-- n free values. -/
def State.drawN (s : State) : Nat → List Word64 × State
  | 0 => ([], s)
  | n + 1 => let (w, s1) := s.draw
             let (ws, s2) := s1.drawN n
             (w :: ws, s2)

/-- a ÷ b as a whole number where a rule does not say how it rounds: exact where b divides a, else the number below or above by a
free bit (log entry 20). -/
def State.roundFree (s : State) (a : Int) (b : Nat) : Int × State :=
  if a % (max b 1 : Nat) = 0 then (a / (max b 1 : Nat), s)
  else let (w, s) := s.draw
       (a / (max b 1 : Nat) + (bit w 0).toNat, s)

/-! ### Time (R423, R424, R428, R445): the clocks run as the model's time moves -/

/-- The state of domain NET (R24). -/
def State.netOn (s : State) : Bool := s.fld (((pageInfo .pwr).code) * 4096 + rPWR_DOM + 4 * 10) 17 16 = 1

/-- TSU_FREQ in units of 1/256 ppb. -/
def State.tsuFreq (s : State) : Int := signed 32 (s.rd (pa .tsu 0 rTSU_FREQ)).toNat

/-- The slew remainder in ns (R428). -/
def State.slewLeft (s : State) : Int := signed 32 (s.rd (pa .tsu 0 rTSU_SLEW)).toNat

/-- TSU_FREQ + σ before the limit, in units of 1/256 ppb (R424, R428). -/
def State.rhoSum (s : State) : Int :=
  s.tsuFreq + (s.slewLeft.sign * (s.fld (pa .tsu 0 rTSU_SLEW_RATE) 8 0 * 256000 : Nat))

/-- The limit of the rate offset, 500 ppm in units of 1/256 ppb. -/
def rhoLimit : Int := 128000000

/-- Network time moved on by dt ns of the reference (R423, R424, R428): the slew absorbs at most what remains. The advance is cut to
whole units of 2^-32 ns at each command (log entry 20). -/
def State.tsuRun (s : State) (dt : Nat) : State :=
  if !s.netOn then s
  else
    let base := clampI (-rhoLimit) rhoLimit s.tsuFreq
    let c := clampI (-rhoLimit) rhoLimit s.rhoSum - base
    let left := s.slewLeft
    let need := left.natAbs * 256000000000 - s.tsuTime.slewFrac
    let helps := left ≠ 0 ∧ c.sign = left.sign
    let got := if helps then min (c.natAbs * dt) need else 0
    let total : Int := (dt : Int) * (256000000000 + base) + c.sign * (got : Int)
    let acc := s.tsuTime.ns * 2 ^ 32 + s.tsuTime.frac + (total.toNat * 2 ^ 32) / 256000000000
    let ns := acc / 2 ^ 32
    let absorbed := s.tsuTime.slewFrac + got
    let s := if helps then
        s.wr (pa .tsu 0 rTSU_SLEW) (BitVec.ofInt 32 (left - c.sign * (absorbed / 256000000000 : Nat))) else s
    { s with tsuTime := { s.tsuTime with
        sec := (s.tsuTime.sec + ns / 1000000000) % 2 ^ 48, ns := ns % 1000000000, frac := acc % 2 ^ 32
        slewFrac := if helps then absorbed % 256000000000 else s.tsuTime.slewFrac } }

/-- Does the RTC count (R446, R451). -/
def State.rtcRuns (s : State) : Bool := !s.bitAt (pa .rtc 0 rRTC_CTRL) 0 && !s.rtc.oscOff

/-- The RTC's fraction moved on by dt ns (R445 to R447): while halted only the oscillator runs; it holds through a discipline hold, and stops at its last tick until
RTC_SECOND_CARRY reports the wrap (log entry 20). -/
def State.rtcRun (s : State) (dt : Nat) : State :=
  if s.rtc.oscOff then s
  else if !s.rtcRuns then { s with rtc := { s.rtc with sub := (s.rtc.sub + dt * 32768) % 1000000000 } }
  else
    let u := s.rtc.sub + dt * 32768
    let ticks := u / 1000000000
    let v := s.rd64 (pa .rtc 0 rRTC_TIME)
    let f := min 32767 (bits v 14 0 + (ticks - s.rtc.hold))
    let s := { s with rtc := { s.rtc with sub := u % 1000000000, hold := s.rtc.hold - ticks } }
    s.wr64 (pa .rtc 0 rRTC_TIME) (putBits v 14 0 f)

/-- The model's time moved forward to t, never back, and the clocks with it (log entry 3). -/
def State.at (s : State) (t : Nat) : State :=
  if t ≤ s.now then s else { (s.tsuRun (t - s.now)).rtcRun (t - s.now) with now := t }

/-! ### Power, life cycle, authority -/

/-- The life-cycle state (R482): the number of steps whose fuses read programmed: 0 MAKER, 1 BOARD, 2 FIELD, 3 RETURN, 4 VOID. -/
def State.lcs (s : State) : Nat :=
  (List.range 4).countP (fun i => s.otp.fuses.getLsbD (2 * i) || s.otp.fuses.getLsbD (2 * i + 1))

/-- The window address of PWR_DOM_d (R633). -/
def domReg (d : Nat) : Nat := pa .pwr 0 (rPWR_DOM + 4 * (d - 1))

/-- Is domain d on; AON always is (R614). -/
def State.domOn (s : State) (d : Nat) : Bool := d = 0 || s.fld (domReg d) 17 16 = 1

/-- The requester codes (R50). -/
def reqCode : Requester → Nat
  | .host => 1 | .normal => 2 | .safe => 3 | .debug => 4

/-- The debug port writes with full authority in MAKER and BOARD, and in RETURN at level FULL (R50, R646). -/
def State.debugMay (s : State) : Bool :=
  s.lcs = 0 || s.lcs = 1 || (s.lcs = 3 && s.dbg.level = 3)

/-- The debug port has no access at all in VOID (R50). -/
def State.noAccess (s : State) (q : Requester) : Bool := q = .debug && s.lcs = 4

/-- A read by a requester that has access (R50); the answer is 0 to one that has none. -/
def State.readBy (s : State) (q : Requester) (f : State → State) : State := if s.noAccess q then { s with rdata := 0 } else f s

/-- May a requester write registers of an owner code (R13, R50); a register no one owns ignores writes. -/
def State.mayWrite (s : State) (q : Requester) : Owner → Bool
  | .none => true
  | .h => q ≠ .debug || s.debugMay
  | .m => q = .normal || q = .safe || (q = .debug && s.debugMay)
  | .s => q = .safe || (q = .debug && s.debugMay)

/-- The order of authority for releasing a lock (R65): the debug port ranks with the safety context, so neither releases the other's lock
(DESIGN CHOICE, log entry 34: R65 gives the debug port R50's authority and no place in the order). -/
def reqRank : Requester → Nat
  | .host => 1 | .normal => 2 | .safe => 3 | .debug => 3

/-- The rank of a stored requester code. -/
def rankOfCode (c : Nat) : Nat := if c = 1 then 1 else if c = 2 then 2 else 3

/-! ### Refusal (R52, R53) -/

/-- The table of splice descriptors (R46). -/
def isDesc (a : Nat) : Bool := 0x400000 ≤ a && a < 0x420000

/-- Is a window offset mapped (R46, R67). -/
def mapped (a : Nat) : Bool := isDesc a || (a < 0x400000 && (pageAt (a / 4096)).isSome)

/-- The power domain of a mapped window offset; descriptors are SYS (R24, R67). -/
def domainOf (a : Nat) : Nat :=
  match pageAt (a / 4096) with
  | some (p, i) => if isDesc a then 1 else pageDomain p i
  | none => 1

/-- The owner of the register at a window offset; none of these where the offset is reserved (R51, R58, R66, R191). -/
def ownerAt (a : Nat) : Option Owner :=
  if isDesc a then
    let n := (a - 0x400000) / 16
    if a % 16 < 8 then some .m else some (if 6144 ≤ n ∧ n ≤ 6207 then .h else .m)
  else match pageAt (a / 4096) with
    | none => none
    | some (p, i) =>
      let o := a % 4096 / 4 * 4
      let f := pageInfo p
      if o < 0x00C ∨ o = 0x010 then some .none
      else if o = 0x014 ∨ o = 0x018 ∨ o = 0x01C then (if f.errLine then some f.owner else none)
      else if o = 0x030 then (if f.owner = .h then some .h else none)
      else if o < 0x030 then some f.owner
      else if o < 0x040 then none
      else (rowOf p i o).map (·.owner)

/-- The window address of a header register of the page that holds a. -/
def hdr (a o : Nat) : Nat := a / 4096 * 4096 + o

/-- Is a soft reset of the page that holds a in progress (R64). -/
def State.srstBusy (s : State) (a : Nat) : Bool := !isDesc a && s.bitAt (hdr a 0x010) 1

/-- Is the page that holds a write-locked (R65). -/
def State.locked (s : State) (a : Nat) : Bool := !isDesc a && s.bitAt (hdr a 0x02C) 31

/-- May q release the lock of the page that holds a (R65). -/
def State.mayUnlock (s : State) (q : Requester) (a : Nat) : Bool :=
  !s.bitAt (hdr a 0x02C) 30 &&
  (s.fld (hdr a 0x02C) 29 27 = reqCode q || rankOfCode (s.fld (hdr a 0x02C) 29 27) < reqRank q)

/-- A write the lock does not stop (R65); BLK_ERR of a page without an error line is a reserved offset, which LOCKED stops (R52, R61). -/
def State.lockPasses (s : State) (q : Requester) (a : Nat) (v : Word32) : Bool :=
  (a % 4096 = 0x014 && (ownerAt a).isSome) || a % 4096 = 0x020 || (a % 4096 = 0x02C && bit v 30) ||
  (a % 4096 = 0x00C && !bit v 2 && s.mayUnlock q a)

/-- A write another requester's claim stops (R66). -/
def State.claimStops (s : State) (q : Requester) (a : Nat) (v : Word32) : Bool :=
  !isDesc a && ownerAt a = some .h && s.fld (hdr a 0x030) 18 16 ≠ 0 && s.fld (hdr a 0x030) 18 16 ≠ reqCode q &&
  (q ≠ .safe || (a % 4096 = 0x030 && bit v 31))

/-- A write the life-cycle state forbids (R53, code 0x4). -/
def State.lcsStops (s : State) (q : Requester) (a : Nat) : Bool :=
  s.lcs = 4 || (q = .debug && s.lcs = 2) ||
  (q = .host && s.lcs = 2 && !isDesc a && a % 4096 = 0x01C && ownerAt a ≠ none)

/-- Why a write is refused, the lowest code that applies (R53); be: all byte enables set; lcsBad, stateBad: what the
block's chapter adds to causes LCS and STATE; in ROM_WAIT every write but the debug port's is refused with STATE (R630), but at a reserved
offset, where R52 says STATE never applies (DEDUCED, log entry 34). -/
def State.refusal (s : State) (q : Requester) (a : Nat) (be : Bool) (v : Word32) (lcsBad stateBad : Bool) : Option Nat :=
  if !mapped a then some 1
  else if !be then some 2
  else if !s.domOn (domainOf a) then some 3
  else if s.lcsStops q a || lcsBad then some 4
  else if (ownerAt a).any (fun o => !s.mayWrite q o) then some 5
  else if s.claimStops q a v then some 6
  else if s.locked a && !s.lockPasses q a v then some 7
  else if s.srstBusy a then some 8
  else if (ownerAt a).isSome && (stateBad || (s.fld (pa .rst 0 rRST_BOOT) 2 0 = 4 && q ≠ .debug)) then some 9
  else none

/-! ### Interrupt requests (R63, R666) -/

/-- The MSI-X vector a page's interrupt request joins (R666). -/
def vectorOf (p : Pg) (inst : Nat) : Option Nat :=
  if p = .chip then some 40 else (pageSource p inst).map (· + 1)

/-- The pages whose interrupt requests a vector carries. -/
def pagesOf (v : Nat) : List (Pg × Nat) :=
  allPg.flatMap (fun p => ((List.range (pageInfo p).count).filter (fun i => vectorOf p i = some v)).map (fun i => (p, i)))

/-- The interrupt request of a page (R63). -/
def State.pageReq (s : State) (p : Pg) (inst : Nat) : Bool := (s.rd (pa p inst 0x020) &&& s.rd (pa p inst 0x024)) ≠ 0

/-- The request of a vector (R666). -/
def State.request (s : State) (v : Nat) : Bool := (pagesOf v).any (fun p => s.pageReq p.1 p.2)

/-- A message due on a vector (R666); nothing while HOSTIF is off or held by PERST_N. MSIX_MESSAGE sends it. -/
def State.fire (s : State) (v : Nat) : State :=
  if !s.domOn 17 || s.bitAt (pa .pcie 0 rPCIE_STAT) 7 then s
  else { s with msix := { s.msix with due := s.msix.due ++ [v] } }

/-- An interrupt event (R63): its vector sends a message when its request rises (R666). -/
def State.irq (s : State) (p : Pg) (inst i : Nat) : State :=
  let was := s.pageReq p inst
  let s := s.putBit (pa p inst 0x020) i true
  if was || !s.pageReq p inst then s
  else match vectorOf p inst with
    | none => s
    | some v => if (pagesOf v).any (fun x => decide (x ≠ (p, inst)) && s.pageReq x.1 x.2) then s else s.fire v

/-! ### Refusals (R52, R71) -/

/-- A refusal recorded (R52, R71): CHIP_ACC, CHIP_ACC_COUNT and REFUSED. -/
def State.refuse (s : State) (q : Requester) (a cause : Nat) : State :=
  ((s.wr (pa .chip 0 rCHIP_ACC) (BitVec.ofNat 32 (2 ^ 31 + cause * 2 ^ 27 + reqCode q * 2 ^ 24 + a % 2 ^ 24))).bump
    (pa .chip 0 rCHIP_ACC_COUNT) 1).irq .chip 0 0

/-- A write of a register: refused and recorded, or its effect. -/
def State.guarded (s : State) (q : Requester) (a : Nat) (v : Word32) (stateBad : Bool) (eff : State → State) : State :=
  match s.refusal q a true v false stateBad with
  | some c => s.refuse q a c
  | none => eff s

/-! ### Causes and interrupts -/

/-- Does a reaction sequence run (R547, R549): 64 collector cycles of 2 ns after the latch, 48 more for each record after the first. -/
def State.seqRun (s : State) : Bool :=
  s.bitAt (pa .fc 0 rFC_STAT) 0 && decide (s.now < s.fc.start + 2 * (65 + 48 * (s.fc.seq.length - 1)))

/-- A pulse on a source's error line (R61, R547): lost while a reaction sequence runs. -/
def State.pulse (s : State) (src : Nat) : State :=
  if !s.domOn 1 then s
  else if s.seqRun then s.bump (pa .fc 0 rFC_LOST_CNT) 1
  else if src ∈ s.fc.pulses then s
  else { s with fc := { s.fc with pulses := s.fc.pulses ++ [src] } }

/-- A cause detected (R61): its BLK_ERR bit is set whatever its enable; a pulse-type cause that is enabled drives the line. -/
def State.cause (s : State) (p : Pg) (inst i : Nat) : State :=
  let s1 := s.putBit (pa p inst 0x014) i true
  match pageSource p inst with
  | some src => if (pageInfo p).pulse.testBit i && s.bitAt (pa p inst 0x018) i then s1.pulse src else s1
  | none => s1

/-- The causes of a page that hold its error line (R61). -/
def State.levels (s : State) (p : Pg) (inst : Nat) : Word32 :=
  s.rd (pa p inst 0x014) &&& s.rd (pa p inst 0x018) &&& ~~~(BitVec.ofNat 32 (pageInfo p).pulse)

/-- An armed checker is fed inverted check bits (R62): the condition its next check sees, 2 before 1, and the arming
bits after it. ce, ue: the positions of the two arming bits. -/
def State.inject (s : State) (p : Pg) (inst ce ue : Nat) : Nat × State :=
  let a := pa p inst 0x01C
  let cont := s.bitAt a 31
  if s.bitAt a ue then (2, if cont then s else s.putBit a ue false)
  else if s.bitAt a ce then (1, if cont then s else s.putBit a ce false)
  else (0, s)

/-! ### What a register reads as -/

/-- A register behind a selector: the offset of the selector and its bits. -/
def selector (p : Pg) (o : Nat) : Option (Nat × Nat × Nat) :=
  match p with
  | .sens => if o = rSENS_V_LO ∨ o = rSENS_V_HI then some (rSENS_V_SEL, 4, 0) else none
  | .ingest =>
    if o = rING_SRC_CREDIT then some (rING_SRC_SEL, 11, 0)
    else if rING_SRC_ADMIT ≤ o ∧ o < rING_SRC_REFUSE + 8 then some (rING_SRC_SEL, 18, 0)
    else if rING_CLS_ADMIT ≤ o ∧ o ≤ rING_WHY_CLOSED then some (rING_SRC_SEL, 18, 16) else none
  | .radio =>
    if o = rRAD_NB_LINK then some (rRAD_NB_SEL, 11, 0)
    else if rRAD_STR_ADDR ≤ o ∧ o ≤ rRAD_STR_AGE then some (rRAD_STR_SEL, 5, 0)
    else if o = rRAD_CNT then some (rRAD_CNT_SEL, 3, 0) else none
  | .plcPh =>
    if o = rPH_NB_LINK ∨ o = rPH_NB_PHASE ∨ o = rPH_NB_XSTAT then some (rPH_NB_SEL, 10, 0)
    else if rPH_STR_ADDR ≤ o ∧ o ≤ rPH_STR_AGE then some (rPH_STR_SEL, 5, 0)
    else if o = rPH_CNT then some (rPH_CNT_SEL, 4, 0) else none
  | .kdf => if rKDF_LOADS ≤ o ∧ o ≤ rKDF_PEND_MAX then some (rKDF_SEL, 2, 0) else none
  | .nand =>
    if rNAND_H_BLOCKS ≤ o ∧ o ≤ rNAND_THIST then some (rNAND_HSEL, 19, 0)
    else if o = rNAND_CNT ∨ o = rNAND_CNT + 4 then some (rNAND_CNT_SEL, 3, 0) else none
  | .evr => if o = rEVR_CLS_ADDR then some (rEVR_CLS_SEL, 11, 0) else none
  | .totals => if o = rTOT_SW_DATA then some (rTOT_SW_SEL, 13, 0) else none
  | .pair => if o = rPAIR_CNT then some (rPAIR_CNT_SEL, 2, 0) else none
  | .upd =>
    if rUPD_STAT ≤ o ∧ o ≤ rUPD_RB then some (rUPD_KSEL, 2, 0)
    else if o = rUPD_CNT then some (rUPD_CNT_SEL, 1, 0) else none
  | .pcie =>
    if rPCIE_RC_CTRL ≤ o ∧ o ≤ rPCIE_RC_ERR then some (rPCIE_RC_SEL, 5, 0)
    else if o = rPCIE_CNT then some (rPCIE_CNT_SEL, 1, 0) else none
  | .eth => if o = rETH_CNT ∨ o = rETH_CNT + 4 then some (rETH_CNT_SEL, 3, 0) else none
  | .sgmii => if o = rETH_CNT ∨ o = rETH_CNT + 4 then some (rETH_CNT_SEL, 3, 0) else none
  | .uart =>
    if o = rUART_ST_STAT then some (rUART_ST_SEL, 4, 0)
    else if o = rUART_CNT then some (rUART_CNT_SEL, 3, 0) else none
  | .sbus =>
    if rSB_SLOT_CFG ≤ o ∧ o ≤ rSB_SLOT_VAL then some (rSB_SEL, 4, 0)
    else if o = rSB_CNT then some (rSB_CNT_SEL, 1, 0) else none
  | _ => none

/-- The bank entry a selected register names now. -/
def State.selIdx (s : State) (a : Nat) (sel : Nat × Nat × Nat) : Nat := s.fld (hdr a sel.1) sel.2.1 sel.2.2

/-- BLK_CAP of a page (R58, R705). -/
def capOf (p : Pg) : Nat :=
  (pageInfo p).errLine.toNat * 2 ^ 31 + (pageInfo p).inj.toNat * 2 ^ 30 + (pageInfo p).wide.toNat * 2 ^ 29 +
  (pageInfo p).retain.toNat * 2 ^ 28

/-- A header register as it reads (R58 to R66). -/
def State.viewHeader (s : State) (p : Pg) (inst o : Nat) : Word32 :=
  let a := pa p inst o
  if o = 0x000 then BitVec.ofNat 32 (0x5A * 2 ^ 24 + (pageInfo p).code * 2 ^ 12 + inst + (if p = .plcPh then 1 else 0))
  else if o = 0x004 then 0x0100A100
  else if o = 0x008 then BitVec.ofNat 32 (capOf p)
  else if o = 0x010 then
    let d := s.rd a
    let d := Sys2Proof.putBit d 4 ((s.rd (pa p inst 0x020) &&& s.rd (pa p inst 0x024)) ≠ 0)
    let d := Sys2Proof.putBit d 3 ((s.rd (pa p inst 0x014) &&& s.rd (pa p inst 0x018)) ≠ 0)
    let d := Sys2Proof.putBit d 0 (s.bitAt (pa p inst 0x00C) 0)
    Sys2Proof.putBit d 2 (s.bitAt (pa p inst 0x02C) 31)
  else s.rd a

end Sys2Proof.Machine
end

