-- ==== Sys2Proof/Machine/Aes.lean ====
section
/-! DEFINITION. The ciphers and codes the spec cites by their standards (R111, R114, R115, R490): AES of FIPS-197, GHASH and
GCM of SP 800-38D, CTR, CMAC of SP 800-38B, CCM of SP 800-38C, key wrapping by CCM, the CRCs. PRESUMED from those
standards, which the spec names and does not repeat (log entry 9). -/

namespace Sys2Proof.Machine

/-! ### AES (FIPS-197) -/

/-- The substitution box, byte i in bits 8i + 7:8i. -/
def sboxTable : Nat := 0x16bb54b00f2d99416842e6bf0d89a18cdf2855cee9871e9b948ed9691198f8e19e1dc186b95735610ef6034866b53e708a8bbd4b1f74dde8c6b4a61c2e2578ba08ae7a65eaf4566ca94ed58d6d37c8e779e4959162acd3c25c2406490a3a32e0db0b5ede14b8ee4688902a22dc4f816073195d643d7ea7c41744975fec130ccdd2f3ff1021dab6bcf5389d928f40a351a89f3c507f02f94585334d43fbaaefd0cf584c4a39becb6a5bb1fc20ed00d153842fe329b3d63b52a05a6e1b1a2c830975b227ebe28012079a059618c323c7041531d871f1e5a534ccf73f362693fdb7c072a49cafa2d4adf04759fa7dc982ca76abd7fe2b670130c56f6bf27b777c63

/-- SubBytes of one byte. -/
def sbox (b : Nat) : Nat := sboxTable / 2 ^ (8 * b) % 256

/-- Multiplication by x in GF(2^8). -/
def xtime (b : Nat) : Nat := if b < 128 then 2 * b else (2 * b) ^^^ 0x11B

/-- The exclusive or of two byte lists. -/
def xorBytes (a b : List Nat) : List Nat := List.zipWith (fun x y => x ^^^ y) a b

/-- The key schedule's words from word i on: ws holds the words so far, last first; nk words of key; fuel words to go. -/
def aesSchedule (nk : Nat) : Nat → Nat → List (List Nat) → List (List Nat)
  | 0, _, ws => ws
  | fuel + 1, i, ws =>
    let prev := ws.headD []
    let t :=
      if i % nk = 0 then
        let r := (prev.drop 1 ++ prev.take 1).map sbox
        match r with
        | b :: rest => (b ^^^ (List.range (i / nk - 1)).foldl (fun c _ => xtime c) 1) :: rest
        | [] => []
      else if nk = 8 ∧ i % nk = 4 then prev.map sbox
      else prev
    aesSchedule nk fuel (i + 1) (xorBytes t (ws.getD (nk - 1) []) :: ws)

/-- A list cut into groups of four bytes. -/
def quads (l : List Nat) : List (List Nat) := (List.range (l.length / 4)).map (fun i => (l.drop (4 * i)).take 4)

/-- The round keys, 16 bytes each. -/
def roundKeys (key : List Nat) : List (List Nat) :=
  let nk := key.length / 4
  let ws := (aesSchedule nk (4 * (nk + 7) - nk) nk (quads key).reverse).reverse
  (List.range (nk + 7)).map (fun r => ((ws.drop (4 * r)).take 4).flatten)

/-- ShiftRows: byte r + 4c comes from column c + r. -/
def shiftRows (b : List Nat) : List Nat := (List.range 16).map (fun i => b.getD ((i + 4 * (i % 4)) % 16) 0)

/-- MixColumns of one column. -/
def mixColumn (c : List Nat) : List Nat :=
  (List.range 4).map (fun i =>
    let g (k : Nat) := c.getD ((i + k) % 4) 0
    xtime (g 0) ^^^ (xtime (g 1) ^^^ g 1) ^^^ g 2 ^^^ g 3)

/-- The rounds after the first round key; the last has no MixColumns. -/
def aesRounds : List Nat → List (List Nat) → List Nat
  | b, [] => b
  | b, [k] => xorBytes (shiftRows (b.map sbox)) k
  | b, k :: ks => aesRounds (xorBytes ((quads (shiftRows (b.map sbox))).flatMap mixColumn) k) ks

/-- AES encryption of a 16-byte block under a 16- or 32-byte key (R111). -/
def aesNat (key block : List Nat) : List Nat :=
  match roundKeys key with
  | [] => block
  | k :: ks => aesRounds (xorBytes block k) ks

/-- AES encryption over bytes. -/
def aes (key block : List Byte) : List Byte :=
  (aesNat (key.map (·.toNat)) (block.map (·.toNat))).map (BitVec.ofNat 8)

/-! ### GHASH and GCM (SP 800-38D) -/

/-- The bits of a block in GHASH order, as a number: bit 0, the most significant of byte 0, is worth 2^127 (R114). -/
def blockNat (l : List Byte) : Nat := beNat l

/-- Multiplication in GF(2^128) in GHASH bit order: fuel bits of x still to come, v the multiple of y reached, z the sum. -/
def gfStep (x : Nat) : Nat → Nat → Nat → Nat
  | 0, _, z => z
  | k + 1, v, z =>
    let z' := if x.testBit k then z ^^^ v else z
    let v' := if v.testBit 0 then (v / 2) ^^^ (0xE1 * 2 ^ 120) else v / 2
    gfStep x k v' z'

/-- X • Y in GF(2^128). -/
def gfMul (x y : Nat) : Nat := gfStep x 128 y 0

/-- A byte list cut into 16-byte blocks, the last filled with zeros. -/
def blocks16 (l : List Byte) : List (List Byte) :=
  (List.range ((l.length + 15) / 16)).map (fun i =>
    let b := (l.drop (16 * i)).take 16
    b ++ List.replicate (16 - b.length) 0)

/-- GHASH over a byte list whose length is a multiple of 16. -/
def ghash (h : Nat) (l : List Byte) : Nat :=
  (blocks16 l).foldl (fun y b => gfMul (y ^^^ blockNat b) h) 0

/-- Zero bytes to the next multiple of 16. -/
def pad16 (l : List Byte) : List Byte := l ++ List.replicate ((16 - l.length % 16) % 16) 0

/-- The exclusive or of bytes. -/
def xorB (a b : List Byte) : List Byte := List.zipWith (fun x y => x ^^^ y) a b

/-- The counter block incremented in its last w bytes. -/
def incBlock (w : Nat) (b : List Byte) : List Byte :=
  b.take (16 - w) ++ toBe w ((beNat (b.drop (16 - w)) + 1) % 2 ^ (8 * w))

/-- The key stream over the blocks of a message, from a first counter block. -/
def ctrBlocks (key : List Byte) (w : Nat) : List Byte → List (List Byte) → List Byte
  | _, [] => []
  | c, b :: t => xorB b (aes key c) ++ ctrBlocks key w (incBlock w c) t

/-- Counter mode over a message. -/
def ctrMode (key : List Byte) (w : Nat) (c : List Byte) (m : List Byte) : List Byte :=
  (ctrBlocks key w c (blocks16 m)).take m.length

/-- The first counter block of GCM: of a 12-byte IV the IV and a one, of another its GHASH (SP 800-38D). -/
def gcmStart (key iv : List Byte) : List Byte :=
  if iv.length = 12 then iv ++ [0, 0, 0, 1]
  else toBe 16 (ghash (blockNat (aes key (List.replicate 16 0))) (pad16 iv ++ toBe 8 0 ++ toBe 8 (8 * iv.length)))

/-- The GCM tag over additional data and ciphertext. -/
def gcmTag (key iv aad c : List Byte) : List Byte :=
  let h := blockNat (aes key (List.replicate 16 0))
  let s := ghash h (pad16 aad ++ pad16 c ++ toBe 8 (8 * aad.length) ++ toBe 8 (8 * c.length))
  xorB (toBe 16 s) (aes key (gcmStart key iv))

/-- GCM encryption or decryption of the text (the tag apart). -/
def gcmText (key iv m : List Byte) : List Byte := ctrMode key 4 (incBlock 4 (gcmStart key iv)) m

/-! ### CMAC (SP 800-38B) and CCM (SP 800-38C) -/

/-- Doubling in GF(2^128), CMAC bit order. -/
def cmacDouble (x : Nat) : Nat := if x.testBit 127 then (2 * x) % 2 ^ 128 ^^^ 0x87 else 2 * x

/-- CBC over blocks from a chaining value. -/
def cbcMac (key : List Byte) : List Byte → List (List Byte) → List Byte
  | c, [] => c
  | c, b :: t => cbcMac key (aes key (xorB c b)) t

/-- CMAC of a message. -/
def cmac (key m : List Byte) : List Byte :=
  let l := beNat (aes key (List.replicate 16 0))
  let k1 := cmacDouble l
  let n := (m.length - 1) / 16 * 16
  let head := m.take n
  let tail := m.drop n
  let last := if tail.length = 16 then xorB tail (toBe 16 k1)
    else xorB (pad16 (tail ++ [0x80])) (toBe 16 (cmacDouble k1))
  cbcMac key (List.replicate 16 0) (blocks16 head ++ [last])

/-- A CCM counter block: the length field takes what the nonce leaves of 15 bytes. -/
def ccmBlock (nonce : List Byte) (i : Nat) : List Byte :=
  BitVec.ofNat 8 (14 - nonce.length) :: nonce ++ toBe (15 - nonce.length) i

/-- The CCM tag, t bytes, of additional data and plaintext. -/
def ccmTag (t : Nat) (key nonce aad m : List Byte) : List Byte :=
  let flags := (if aad = [] then 0 else 64) + (if t = 0 then 0 else (t - 2) / 2 * 8) + (14 - nonce.length)
  let b0 := BitVec.ofNat 8 flags :: nonce ++ toBe (15 - nonce.length) m.length
  let n := if aad.length < 0xFF00 then toBe 2 aad.length else toBe 2 0xFFFE ++ toBe 4 aad.length
  let a := if aad = [] then [] else pad16 (n ++ aad)
  let mac := cbcMac key (List.replicate 16 0) (blocks16 (b0 ++ a ++ pad16 m))
  (xorB mac (aes key (ccmBlock nonce 0))).take t

/-- CCM encryption or decryption of the text. -/
def ccmText (key nonce m : List Byte) : List Byte := ctrMode key (15 - nonce.length) (ccmBlock nonce 1) m

/-! ### CRCs (R115) -/

/-- One byte taken into a reflected CRC of polynomial poly. -/
def crcByte (poly c b : Nat) : Nat :=
  (List.range 8).foldl (fun x _ => if x.testBit 0 then (x / 2) ^^^ poly else x / 2) (c ^^^ b)

/-- A reflected CRC advanced over bytes. -/
def crcOver (poly c : Nat) (l : List Byte) : Nat := l.foldl (fun x b => crcByte poly x b.toNat) c

/-- CRC-32 with initial value 0xFFFF_FFFF and final inversion (R561). -/
def crc32 (l : List Byte) : Nat := (crcOver 0xEDB88320 0xFFFFFFFF l) ^^^ 0xFFFFFFFF

/-- The HDLC frame check sequence: CRC16 with initial value 0xFFFF and final inversion. -/
def fcs16 (l : List Byte) : Nat := (crcOver 0x8408 0xFFFF l) ^^^ 0xFFFF

end Sys2Proof.Machine
end

