-- ==== Sys2Proof/Machine/MacMap.lean ====
section
/-! DEFINITION. The field ports' tables and their registers as they read (R374, R376, R395, R420 to R422). -/

namespace Sys2Proof.Machine

/-- A window address of PINMUX. -/
abbrev pmxA (o : Nat) : Nat := pa .pinmux 0 o

/-- FUNC of a resource. -/
def State.pmxFunc (s : State) (r : Nat) : Nat := s.fld (pmxA (rPMX_OWN + 4 * r)) 7 0

/-- HOLDER of a resource. -/
def State.pmxHolder (s : State) (r : Nat) : Nat := s.fld (pmxA (rPMX_OWN + 4 * r)) 10 8

/-- A field port: 0 to 3 RADIO_n, 4 to 6 PLC_PH_1 to PLC_PH_3. -/
def State.port7 (s : State) (m : Nat) : Mac := look (fun _ => Mac.off) s.mac m

/-- A field port's state set. -/
def State.setPort7 (s : State) (m : Nat) (x : Mac) : State := { s with mac := Machine.store (fun _ => Mac.off) s.mac m x }

/-- Is a field port a radio port. -/
def isRadio (m : Nat) : Bool := m < 4

/-- The page of a field port. -/
def macPg (m : Nat) : Pg := if isRadio m then .radio else .plcPh

/-- The instance of a field port's page. -/
def macInst (m : Nat) : Nat := if isRadio m then m else m - 4

/-- A register of a field port: its offset on the RADIO page and on the PLC_PH page. -/
def macA (m rad ph : Nat) : Nat := pa (macPg m) (macInst m) (if isRadio m then rad else ph)

/-- A register of the PLC page. -/
def plcA (o : Nat) : Nat := pa .plc 0 o

/-- A register a radio port has for itself and the power line once for all three phases. -/
def sharedA (m rad plc : Nat) : Nat := if isRadio m then pa .radio m rad else plcA plc

/-- Neighbour i of a port. -/
def Mac.nb (x : Mac) (i : Nat) : Neigh := look (fun _ => Neigh.off) x.nbs i

/-- Is the part fenced (R568, R574). -/
def State.fenced (s : State) : Bool := s.fld (pa .lease 0 rLEASE_STAT) 2 0 = 5

/-- CONF (R419) of a label. -/
def State.phaseConf (s : State) (run dev : Nat) : Nat :=
  min run 15 - dev / (65536 * max 1 (s.fld (plcA rPLC_PHASE) 15 8))

/-- Is a label confident (R419). -/
def State.confident (s : State) (run dev : Nat) : Bool := s.fld (plcA rPLC_PHASE) 3 0 ≤ s.phaseConf run dev

/-- The phase code (R420). -/
def State.phaseCode (s : State) (label run dev : Nat) : Nat :=
  if label = 0 then 0 else label + (s.confident run dev).toNat * 8 + s.phaseConf run dev * 16

/-- Whole seconds since a time, saturating in 16 bits. -/
def State.ageOf (s : State) (t : Nat) : Nat := min 65535 ((s.now - t) / 1000000000)

/-- A neighbour's link word. -/
def State.linkWord (s : State) (n : Neigh) : Nat := match n.last with
  | some t => n.lqi + n.level % 256 * 2 ^ 8 + s.ageOf t * 2 ^ 16
  | none => 0

/-- A stranger's info word: RSSI on the radio, the phase code on the power line. -/
def State.strangerInfo (s : State) (radio : Bool) (x : Strange) : Nat :=
  2 ^ 31 + x.short.toNat * 2 ^ 30 + x.secured.toNat * 2 ^ 29 + x.count * 2 ^ 16 +
    (if radio then x.level % 256 else s.phaseCode x.label x.run x.dev) * 2 ^ 8 + x.lqi

/-- The stranger's entry a port's selector names. -/
def State.selStranger (s : State) (m : Nat) : Option Strange :=
  let i := s.fld (macA m rRAD_STR_SEL rPH_STR_SEL) 5 0
  ((s.port7 m).strangers.find? (fun e => e.1 = i)).map (·.2)

/-- The neighbour a port's selector names. -/
def State.selNb (s : State) (m : Nat) : Neigh :=
  (s.port7 m).nb (if isRadio m then s.fld (macA m rRAD_NB_SEL rPH_NB_SEL) 11 0 else s.fld (macA m rRAD_NB_SEL rPH_NB_SEL) 10 0)

/-- RAD_STR_ADDR, PH_STR_ADDR. -/
def State.macView64 (s : State) (m o : Nat) : Option Word64 :=
  if o = (if isRadio m then rRAD_STR_ADDR else rPH_STR_ADDR) then
    some (BitVec.ofNat 64 (((s.selStranger m).map (·.addr)).getD 0))
  else none

/-- The table registers both kinds of port have. -/
def State.macTables (s : State) (m : Nat) (link info age o : Nat) : Option Nat :=
  if o = link then some (s.linkWord (s.selNb m))
  else if o = info then some (((s.selStranger m).map (fun x => s.strangerInfo (isRadio m) x)).getD 0)
  else if o = age then some (((s.selStranger m).map (fun x => s.ageOf x.last + s.ageOf x.first * 2 ^ 16)).getD 0)
  else none

/-- Does a field port's block own its balls (R42, R367, R398, R681): the resources 32 to 38. -/
def State.ownsBalls (s : State) (m : Nat) : Bool := s.pmxFunc (32 + m) = 5

/-- A register access of a radio port that has completed is done with (R396): DONE is 1, and DATA holds the byte a read returned. Of the 100 us the
rule allows it takes all (DESIGN CHOICE, log entry 23). -/
def State.xregSettle (s : State) (n : Nat) : State :=
  let a := pa .radio n rRAD_XREG
  match (s.port7 n).xreg with
  | some (t, data) =>
    if t + 100000 ≤ s.now then
      let s := (s.setPort7 n { s.port7 n with xreg := none }).putBit a 29 true
      if s.bitAt a 30 then s else s.putF a 7 0 data.toNat
    else s
  | none => s

/-- Is a frame or its acknowledgement wait in progress. -/
def Mac.busy (x : Mac) : Bool := x.run.any (fun r => r.st = 3 || r.st = 4)

/-- Is an acknowledgement being sent (R388): on the radio until its TX_DONE, on the power line for its airtime. -/
def State.acking (s : State) (m : Nat) : Bool := (s.port7 m).acking.any (fun e => isRadio m || decide (s.now < e))

/-- The outgoing counter has been used up (R382). -/
def State.exhausted (s : State) (m : Nat) : Bool := (s.rd (sharedA m rRAD_TXCTR rPLC_TXCTR)).toNat = 2 ^ 32 - 1

/-- The computed registers of a RADIO page. -/
def State.radioView (s : State) (m o : Nat) : Option Word32 :=
  let x := s.port7 m
  if o = rRAD_STAT then
    some (BitVec.ofNat 32 (x.reasm.length * 2 ^ 24 + x.held.length * 2 ^ 16 + (s.exhausted m).toNat * 8 + (x.busy || s.acking m).toNat * 4 +
      s.fenced.toNat * 2 + (s.fld (macA m rRAD_STAT 0) 0 0)))
  else if o = rRAD_XREG then some ((s.xregSettle m).rd (pa .radio m rRAD_XREG))
  else (s.macTables m rRAD_NB_LINK rRAD_STR_INFO rRAD_STR_AGE o).map (BitVec.ofNat 32)

/-- The computed registers of a PLC_PH page; m from 4. -/
def State.phView (s : State) (m o : Nat) : Option Word32 :=
  let x := s.port7 m
  let n := s.selNb m
  if o = rPH_STAT then
    some (BitVec.ofNat 32 (x.reasm.length * 2 ^ 24 + s.fenced.toNat * 4 + (x.busy || s.acking m).toNat * 2 + (s.bitAt (plcA rPLC_STAT) (m - 4)).toNat))
  else if o = rPH_NB_PHASE then
    some (BitVec.ofNat 32 (s.phaseCode n.label n.run n.dev + n.run * 2 ^ 8 + min 255 (n.dev * 4 / 65536) * 2 ^ 16 + n.label * 2 ^ 24))
  else if o = rPH_NB_XSTAT then
    some (BitVec.ofNat 32 (n.extSeen.toNat * 2 ^ 31 + n.coherent.toNat * 2 ^ 30 + n.rxId * 2 ^ 4 + n.txId))
  else if o = rPH_TM then
    let k := s.fld (macA m 0 rPH_TM_SEL) 2 0
    some (BitVec.ofNat 32 (if s.bitAt (macA m 0 rPH_TM_SEL) 8 then n.tx.getD k 0 else n.rx.getD k 0))
  else if o = rPH_CNT ∧ s.fld (macA m 0 rPH_CNT_SEL) 4 0 = 13 then
    some (BitVec.ofNat 32 (s.fld (plcA rPLC_BSEQ) 31 16))
  else (s.macTables m rPH_NB_LINK rPH_STR_INFO rPH_STR_AGE o).map (BitVec.ofNat 32)

/-- The computed registers of the PLC page. -/
def State.plcView (s : State) (o : Nat) : Option Word32 :=
  if o = rPLC_STAT then
    some (Sys2Proof.putBit (Sys2Proof.putBit (s.rd (plcA rPLC_STAT)) 5 s.fenced) 6 (s.exhausted 4))
  else none

/-! ### Ethernet ports (R668 to R672) -/

/-- The window address of a register of Ethernet port n: 0 to 3 ETH, 4 and 5 SGMII. -/
def ethA (n o : Nat) : Nat := if n < 4 then pa .eth n o else pa .sgmii (n - 4) o

/-- Ethernet port n beside its registers. -/
def State.ethPort (s : State) (n : Nat) : EthPort := look (fun _ => EthPort.off) s.eth n

/-- Ethernet port n set. -/
def State.setEthPort (s : State) (n : Nat) (x : EthPort) : State := { s with eth := Machine.store (fun _ => EthPort.off) s.eth n x }

end Sys2Proof.Machine
end

