-- ==== Sys2Proof/Machine/IoMap.lean ====
section
/-! DEFINITION. Registers that read as other state, of the pages WDOG, FC, DBG, UPD, LEASE, PAIR, QSPI, PCIE, ETH, SGMII, UART and SBUS. -/

namespace Sys2Proof.Machine

/-- The time a timer ends, by its register; 0: it is not running. -/
def State.dueAt (s : State) (a : Nat) : Nat := look (fun _ => 0) s.timers a

/-- Milliseconds to a time, a part counted whole (log entry 25). -/
def State.msTo (s : State) (t : Nat) : Nat := (t - s.now + 999999) / 1000000

/-! ### WDOG, FC, DBG -/

/-- The computed registers of the WDOG page (R543). -/
def State.wdogView (s : State) (o : Nat) : Option Word32 :=
  if o = rWDG_HOST_LEFT then
    some (BitVec.ofNat 32 (if s.bitAt (pa .wdog 0 rWDG_HOST_CFG) 31 then s.msTo (s.dueAt (pa .wdog 0 rWDG_HOST_LEFT)) else 0))
  else if o = rWDG_LANY_LEFT then
    let t := s.dueAt (pa .wdog 0 rWDG_LANY_LEFT)
    some (if s.lany.halted ∧ t ≠ 0 then BitVec.ofNat 32 ((s.lany.left + 999999) / 1000000 + s.lany.stage2.toNat * 2 ^ 16)
      else if t = 0 then s.rd (pa .wdog 0 rWDG_LANY_LEFT)
      else BitVec.ofNat 32 (s.msTo t + s.lany.stage2.toNat * 2 ^ 16))
  else none

/-- Is ERR_OUT_N low (R553). -/
def ErrPin.low (p : ErrPin) : Bool := p.until_ ≠ 0 || p.held

/-- FC_STAT (R566). -/
def State.fcView (s : State) (o : Nat) : Option Word32 :=
  if o = rFC_STAT then some (Sys2Proof.putBit (Sys2Proof.putBit (s.rd (pa .fc 0 rFC_STAT)) 1 s.errPin.low) 0 s.seqRun) else none

/-- The level the debug port works at (R646). -/
def State.dbgLevel (s : State) : Nat := if s.lcs ≤ 1 then 3 else if s.lcs = 4 then 0 else s.dbg.level

/-- DBG_STAT (R656). -/
def State.dbgView (s : State) (o : Nat) : Option Word32 :=
  if o = rDBG_STAT then
    let frozen := ((List.range 8).filter (fun n => s.domOn (3 + n) && s.fld (pa .lay n rLAY_STAT) 2 0 = 5)).map (2 ^ ·)
    some (BitVec.ofNat 32 (s.fld (pa .dbg 0 rDBG_STAT) 31 28 * 2 ^ 28 + s.lany.halted.toNat * 2 ^ 16 + frozen.sum * 2 ^ 8 + s.dbgLevel))
  else none

/-! ### SENS -/

/-- A register of the SENS page. -/
abbrev seA (o : Nat) : Nat := pa .sens 0 o

/-- Is a monitor's supply that of a domain that is on (R536, R537). -/
def State.supplyOn (s : State) (v : Nat) : Bool :=
  if v ≤ 7 then s.domOn (3 + v) else if v = 8 then s.domOn 1 else if v = 9 then s.domOn 2
  else if v = 11 then s.domOn 14 else if v = 12 ∨ v = 13 then s.domOn 11 || s.domOn 17 else true

/-- SENS_V_v (R536): VALID reads 0 while the monitor's supply belongs to a domain that is off. -/
def State.sensView (s : State) (o : Nat) : Option Word32 :=
  if rSENS_V ≤ o ∧ o < rSENS_V + 80 ∧ !s.supplyOn ((o - rSENS_V) / 4) then some (Sys2Proof.putBit (s.rd (seA o)) 31 false) else none

/-! ### UPD and QSPI -/

/-- Where a kind's resume record lies on the ferroelectric die (R601). -/
def resumeAt (kind : Nat) : Nat := 0x180000 + 0x1000 * (kind - 1)

/-- Where a kind's region lies in an area of NOR (R594). -/
def regionOf (area kind : Nat) : Nat := area + (if kind = 2 then 0x140000 else if kind = 3 then 0x100000 else 0)

/-- The active area (R595). -/
def activeArea : Nat := 0x800000

/-- The STATE of a kind's resume record (R601): a header whose CRC fails discards the record. -/
def State.resumeSt (s : State) (kind : Nat) : Nat :=
  let a := resumeAt kind
  if s.die.le .fram a 4 = 0x44525055 ∧ s.die.le .fram (a + 60) 4 = crc32 (s.die.bytes .fram a 60) then s.die.le .fram (a + 4) 1 else 0

/-- The installed version of a kind (R597, R604): the one its last copy recorded; before any copy its active manifest's VERSION (log entry 28). -/
def State.installed (s : State) (kind : Nat) : Nat :=
  match s.versions.find? (fun e => e.1 = kind) with
  | some e => e.2
  | none =>
    let a := regionOf activeArea kind
    if 1 ≤ kind ∧ kind ≤ 3 ∧ s.le .nor a 4 = 0x54464E4D then s.le .nor (a + 8) 8 else 0

/-- The image pieces held (R601). -/
def State.piecesHeld (s : State) (kind : Nat) : Nat :=
  ((s.die.bytes .fram (resumeAt kind + 0x80) 2048).map (fun b => (List.range 8).countP (fun i => bit b i))).sum

/-- UPD_STAT, UPD_PIECES and UPD_RB (R612). -/
def State.updView (s : State) (o : Nat) : Option Word32 :=
  let k := s.fld (pa .upd 0 rUPD_KSEL) 2 0
  if o = rUPD_STAT then some (BitVec.ofNat 32 (s.resumeSt k % 4 + s.fld (pa .upd 0 rUPD_STAT) 10 8 * 2 ^ 8))
  else if o = rUPD_PIECES then
    some (BitVec.ofNat 32 (if s.resumeSt k = 0 then 0 else s.piecesHeld k + s.die.le .fram (resumeAt k + 0x10) 2 * 2 ^ 16))
  else if o = rUPD_RB then some (BitVec.ofNat 32 (look (fun _ => 0) s.otp.rollback k))
  else none

/-- UPD_VER and UPD_RCV_VER (R612). -/
def State.updView64 (s : State) (o : Nat) : Option Word64 :=
  let k := s.fld (pa .upd 0 rUPD_KSEL) 2 0
  if o = rUPD_VER then some (BitVec.ofNat 64 (s.installed k))
  else if o = rUPD_RCV_VER then some (BitVec.ofNat 64 (if s.resumeSt k = 0 then 0 else s.die.le .fram (resumeAt k + 8) 8))
  else none

/-! ### LEASE and PAIR -/

/-- A copy of 16 bytes with a word, its complement and a write count (R577, R590): the word, where the copy is valid. -/
def State.pairCopy (s : State) (a : Nat) : Option Nat :=
  let v := s.die.le .fram a 4
  if s.die.le .fram (a + 4) 4 = 2 ^ 32 - 1 - v then some v else none

/-- The stored epoch (R577): the larger valid one. -/
def State.epoch (s : State) : Nat := max ((s.pairCopy 0x1F2000).getD 0) ((s.pairCopy 0x1F2010).getD 0)

/-- The role (R568). -/
def State.role (s : State) : Nat := s.fld (pa .lease 0 rLEASE_STAT) 2 0

/-- The computed registers of the LEASE page (R592). -/
def State.leaseView (s : State) (o : Nat) : Option Word32 :=
  if o = rLEASE_STAT then
    let near := s.pair.grantAt.any (fun t => decide (s.now ≤ t + 2000000000))
    some (Sys2Proof.putBit (s.rd (pa .lease 0 rLEASE_STAT)) 9 near)
  else if o = rLEASE_EPOCH then some (BitVec.ofNat 32 s.epoch)
  else if o = rLEASE_LEFT then
    some (BitVec.ofNat 32 (if s.role = 2 ∨ s.role = 3 then min 65535 (s.msTo s.pair.expiry) else 0))
  else none

/-- PAIR_STAT (R593): bits 31:16 are the mirror lag, the pages received and not yet verified. -/
def State.pairView (s : State) (o : Nat) : Option Word32 :=
  if o = rPAIR_STAT then some (BitVec.ofNat 32 (s.fld (pa .pair 0 rPAIR_STAT) 4 0 + min 65535 s.nand.mirror.length * 2 ^ 16)) else none

/-- PAIR_PEER_SERIAL (R593). -/
def State.pairView64 (s : State) (o : Nat) : Option Word64 :=
  if o = rPAIR_PEER_SERIAL then some ((s.pair.peer.map (·.serial)).getD 0) else none

/-! ### PCIE, ETH, UART, SBUS -/

/-- DIR of a ring (R659): 0 NONE, 1 H2D, 2 D2H. -/
def State.ringDir (s : State) (r : Nat) : Nat :=
  if r = 0 then 1 else if r ≤ 2 then 2
  else match s.rig.host.find? (fun e => e.1 = 6144 + r) with
    | some e => if s.rig.running then (if e.2 then 2 else 1) else 0
    | none => 0

/-- The computed registers of the PCIE page (R667). -/
def State.pcieView (s : State) (o : Nat) : Option Word32 :=
  let r := s.fld (pa .pcie 0 rPCIE_RC_SEL) 5 0
  if o = rPCIE_ID then some Config.pcieId
  else if o = rPCIE_SUBID then some Config.pcieSubId
  else if o = rPCIE_RC_CFG then
    some (BitVec.ofNat 32 (bits (s.bk (pa .pcie 0 rPCIE_RC_CFG) r) 4 0 + s.ringDir r * 2 ^ 8))
  else none

/-- An SG_MDIO access that has completed is done with (R672): DONE is 1, and DATA holds what a read returned. Of the 40 us the rule allows it takes
all (DESIGN CHOICE, log entry 31). -/
def State.mdioSettle (s : State) : State :=
  let a := ethA 4 rSG_MDIO
  match (s.ethPort 4).mdio with
  | some (t, data) =>
    if t + 40000 ≤ s.now then
      let s := (s.setEthPort 4 { s.ethPort 4 with mdio := none }).putBit a 27 true
      if s.fld a 29 28 = 2 then s.putF a 15 0 data.toNat else s
    else s
  | none => s

/-- ETH_STAT (R672): FENCED while a fence withdraws the service addresses. -/
def State.ethView (s : State) (p : Pg) (inst o : Nat) : Option Word32 :=
  if o = rETH_STAT then some (Sys2Proof.putBit (s.rd (pa p inst rETH_STAT)) 1 s.fenced)
  else if p = .sgmii ∧ inst = 0 ∧ o = rSG_MDIO then some (s.mdioSettle.rd (ethA 4 rSG_MDIO))
  else none

/-- A UART's state. -/
def State.uart (s : State) (n : Nat) : Uart := look (fun _ => Uart.off) s.uarts n

/-- The time of x samples of a UART in ns (R673): 16 a bit, from the 100 MHz clock by UART_DIV / 256. -/
def State.uartSamples (s : State) (n x : Nat) : Nat := x * s.fld (pa .uart n rUART_DIV) 23 0 * 5 / 128

/-- The time of x bits of a UART in ns. -/
def State.uartBits (s : State) (n x : Nat) : Nat := s.uartSamples n (16 * x)

/-- DE at time t (R574, R676): inactive while EN is 0 and while fenced. -/
def State.uartDe (s : State) (n t : Nat) : Bool :=
  s.bitAt (pa .uart n 0x00C) 0 && !s.fenced && decide ((s.uart n).deFrom ≤ t ∧ t < (s.uart n).deTo)

/-- UART_STAT (R678): RX_BUSY, TX_BUSY from the first start bit to the last stop bit, DE, FENCED. -/
def State.uartStat (s : State) (n : Nat) : Nat :=
  let lead := s.uartBits n (s.fld (pa .uart n rUART_CFG) 11 8)
  let lag := s.uartBits n (s.fld (pa .uart n rUART_CFG) 15 12)
  let tx := s.uartDe n s.now && decide ((s.uart n).deFrom + lead ≤ s.now ∧ s.now + lag < (s.uart n).deTo)
  (decide (s.now < (s.uart n).rxEnd)).toNat + tx.toNat * 2 + (s.uartDe n s.now).toNat * 4 + s.fenced.toNat * 8

/-- A station entry. -/
def Uart.st (u : Uart) (k : Nat) : Station := look (fun _ => Station.off) u.stations k

/-- The computed registers of a UART page (R678). -/
def State.uartView (s : State) (n o : Nat) : Option Word32 :=
  let x := (s.uart n).st (s.fld (pa .uart n rUART_ST_SEL) 4 0)
  if o = rUART_ST_STAT then
    some (BitVec.ofNat 32 (x.vs % 8 + x.vr % 8 * 2 ^ 4 + x.up.toNat * 2 ^ 8 + x.down.toNat * 2 ^ 9 + x.rnr.toNat * 2 ^ 10))
  else if o = rUART_STAT then some (BitVec.ofNat 32 (s.uartStat n))
  else none

/-- SB_SLOT_VAL (R679, R680): AGE counts the seconds since the last valid reading, or since the slot was enabled. -/
def State.sbusView (s : State) (o : Nat) : Option Word32 :=
  if o = rSB_SLOT_VAL then
    let i := s.fld (pa .sbus 0 rSB_SEL) 4 0
    let v := (s.bk (pa .sbus 0 rSB_SLOT_VAL) i).setWidth 32
    let age := if bit (s.bk (pa .sbus 0 rSB_SLOT_CFG) i) 31 then (s.now - look (fun _ => 0) s.sbus i) / 1000000000 else 0
    some (putBits v 27 16 (min 4095 age))
  else none

/-- The pages of this file. -/
def State.ioView (s : State) (p : Pg) (inst o : Nat) : Option Word32 :=
  match p with
  | .wdog => s.wdogView o
  | .fc => s.fcView o
  | .dbg => s.dbgView o
  | .upd => s.updView o
  | .lease => s.leaseView o
  | .pair => s.pairView o
  | .pcie => s.pcieView o
  | .eth => s.ethView .eth inst o
  | .sgmii => s.ethView .sgmii inst o
  | .uart => s.uartView inst o
  | .sbus => s.sbusView o
  | .sens => s.sensView o
  | .qspi =>
    if o = rQSPI_FIT then some (BitVec.ofNat 32 (s.fitted.norBytes / 2 ^ 20))
    else if o = rQSPI_STAT then
      some (Sys2Proof.putBit (s.rd (pa .qspi 0 rQSPI_STAT)) 1 (s.fld (pa .rst 0 rRST_BOOT) 2 0 ≠ 3))
    else none
  | _ => none

/-- Their 64-bit registers. -/
def State.ioView64 (s : State) (p : Pg) (o : Nat) : Option Word64 :=
  match p with
  | .upd => s.updView64 o
  | .pair => s.pairView64 o
  | _ => none

end Sys2Proof.Machine
end

