-- ==== Sys2Proof/Machine/Splices.lean ====
section
/-! DEFINITION. Splices (05_splice_queues.md): descriptors, the two views of a splice, commit and pop, emptying,
pointer copies, the pool's words, the cells that blocks hold until there is space. -/

namespace Sys2Proof.Machine

/-- Word w (0 to 3) of splice n's descriptor (R68, R191). -/
def descA (n w : Nat) : Nat := 0x400000 + n * 16 + 4 * w

/-- Splice n's own state. -/
def State.spl (s : State) (n : Nat) : Splice := look (fun _ => Splice.clear) s.splices n

/-- Splice n's own state set. -/
def State.setSpl (s : State) (n : Nat) (x : Splice) : State :=
  { s with splices := Machine.store (fun _ => Splice.clear) s.splices n x }

/-- SPD_CFG.EN (R191). -/
def State.splEn (s : State) (n : Nat) : Bool := s.bitAt (descA n 0) 31

/-- SPD_CFG.KIND (R711). -/
def State.splKind (s : State) (n : Nat) : Nat := s.fld (descA n 0) 30 29

/-- The depth of a splice's region (R188, R191). -/
def State.splDepth (s : State) (n : Nat) : Nat := 2 ^ s.fld (descA n 0) 27 24

/-- The first cell of a splice's region. -/
def State.splBase (s : State) (n : Nat) : Nat := s.fld (descA n 0) 16 0

/-- The cells between two pointers modulo 2 × depth. -/
def gapOf (depth w r : Nat) : Nat := (w + 2 * depth - r) % (2 * depth)

/-- The cells held as the producer sees them (PFILL). -/
def State.pfill (s : State) (n : Nat) : Nat := gapOf (s.splDepth n) (s.spl n).w.t.toNat (s.spl n).rSeen

/-- The cells held as the consumer sees them (CFILL). -/
def State.cfill (s : State) (n : Nat) : Nat := gapOf (s.splDepth n) (s.spl n).wSeen (s.spl n).r.t.toNat

/-- The full flag as the producer sees it; a disabled splice shows no space (R712). -/
def State.splFull (s : State) (n : Nat) : Bool := !s.splEn n || s.splDepth n ≤ s.pfill n

/-- The empty flag as the consumer sees it. -/
def State.splEmpty (s : State) (n : Nat) : Bool := !s.splEn n || s.cfill n = 0

/-- SPD_PROD as it reads (R191). -/
def State.viewProd (s : State) (n : Nat) : Word32 :=
  if 6336 ≤ n then 0 else
  BitVec.ofNat 32 ((s.splEn n && s.splFull n).toNat * 2 ^ 31 + (s.spl n).overrun.toNat * 2 ^ 30 +
    (if s.splEn n then s.pfill n else 0) % 2 ^ 13 * 2 ^ 16 + (s.spl n).w.t.toNat)

/-- SPD_CONS as it reads (R191). -/
def State.viewCons (s : State) (n : Nat) : Word32 :=
  if 6336 ≤ n then 0 else
  BitVec.ofNat 32 ((s.splEn n && s.splEmpty n).toNat * 2 ^ 31 + (s.spl n).ptrRst.toNat * 2 ^ 30 +
    (if s.splEn n then s.cfill n else 0) % 2 ^ 13 * 2 ^ 16 + (s.spl n).r.t.toNat)

/-- Splice n emptied (R192). -/
def State.splEmptied (s : State) (n : Nat) : State := s.setSpl n Splice.clear

/-! ### Pool words (R203, R204, R210) -/

/-- Word w of a cell as stored. -/
def State.poolWord (s : State) (cell w : Nat) : Nat := s.le .pool (cell * 64 + 8 * w) 8

/-- The eight words of a cell as stored. -/
def State.poolCell (s : State) (cell : Nat) : Cell512 := BitVec.ofNat 512 (s.le .pool (cell * 64) 64)

/-- A cell's words written with good check bits. -/
def State.setPoolCell (s : State) (cell : Nat) (c : Cell512) : State :=
  (List.range 8).foldl (fun t w => t.setEcc .pool (cell * 64 + 8 * w) 0) (s.setLe .pool (cell * 64) 64 c.toNat)

/-- A pool word found in error (R203): c is its condition. -/
def State.poolFound (s : State) (cell w c : Nat) (scrub : Bool) : State :=
  if c = 1 then (s.cause .splice 0 0).bump (pa .splice 0 rSPL_CE_COUNT) 1
  else if c = 2 then
    (s.cause .splice 0 1).wr (pa .splice 0 rSPL_UE_ADDR)
      (BitVec.ofNat 32 (2 ^ 31 + scrub.toNat * 2 ^ 30 + cell % 2 ^ 17 * 8 + w))
  else s

/-- A cell read by a consumer (R203): whether a word was uncorrectable, and what was reported. -/
def State.readCell (s : State) (cell : Nat) : Bool × State :=
  (List.range 8).foldl
    (fun (p : Bool × State) w => let c := s.eccOf .pool (cell * 64 + 8 * w)
      (p.1 || c = 2, p.2.poolFound cell w c false)) (false, s)

/-! ### Cell header (R193) -/

/-- VALID, bit 63 of the header word. -/
def cellValid (c : Cell512) : Bool := bit c 63
/-- TAINT, bit 62 of the header word. -/
def cellTaint (c : Cell512) : Bool := bit c 62
/-- FIRST, bit 61 of the header word. -/
def cellFirst (c : Cell512) : Bool := bit c 61
/-- LAST, bit 60 of the header word. -/
def cellLast (c : Cell512) : Bool := bit c 60
/-- LEN, bits 57:52 of the header word. -/
def cellLen (c : Cell512) : Nat := bits c 57 52
/-- CHAN, bits 47:32 of the header word. -/
def cellChan (c : Cell512) : Nat := bits c 47 32
/-- AUX, bits 31:0 of the header word. -/
def cellAux (c : Cell512) : Nat := bits c 31 0
/-- Word w of a cell. -/
def cellWord (c : Cell512) (w : Nat) : Word64 := c.extractLsb' (64 * w) 64
/-- The first n payload bytes of a cell, from word 1 upward (R193). -/
def cellBytes (c : Cell512) (n : Nat) : List Byte := (List.range n).map (fun i => c.extractLsb' (64 + 8 * i) 8)

/-- A cell from its words, word 0 first. -/
def mkCell (ws : List Nat) : Cell512 :=
  BitVec.ofNat 512 ((ws.take 8).reverse.foldl (fun a w => a * 2 ^ 64 + w % 2 ^ 64) 0)

/-- A header word: FIRST, LAST, LEN, CHAN, AUX, with VALID set (R193). -/
def mkHeader (first last : Bool) (len chan aux : Nat) : Nat :=
  2 ^ 63 + first.toNat * 2 ^ 61 + last.toNat * 2 ^ 60 + len % 64 * 2 ^ 52 + chan % 2 ^ 16 * 2 ^ 32 + aux % 2 ^ 32

/-- A cell of a completion-type end: FIRST = LAST = 1, LEN = 56 (R194), words 1 to 7 given. -/
def mkCompletion (chan aux : Nat) (ws : List Nat) : Cell512 := mkCell (mkHeader true true 56 chan aux :: ws)

/-- A message cut into cells of up to 56 payload bytes (R193, R194). -/
def messageCells (chan aux : Nat) (l : List Byte) : List Cell512 :=
  let n := max 1 ((l.length + 55) / 56)
  (List.range n).map (fun i =>
    let part := (l.drop (56 * i)).take 56
    BitVec.ofNat 512 (mkHeader (i = 0) (i + 1 = n) part.length chan aux + leNat part * 2 ^ 64))

/-! ### Commit and pop -/

/-- A pointer update, into which PTR_MISMATCH or PTR_CORR may be injected (R211). -/
def State.newPtr (s : State) (v : Nat) : Ptr × State :=
  let a := pa .splice 0 0x01C
  let p := Ptr.mk' v
  if s.bitAt a 3 then
    (⟨p.t, ~~~p.c, p.pt, ptrParity (~~~p.c)⟩, if s.bitAt a 31 then s else s.putBit a 3 false)
  else if s.bitAt a 4 then
    (⟨p.t, ~~~p.c, p.pt, p.pc⟩, if s.bitAt a 31 then s else s.putBit a 4 false)
  else (p, s)

/-- A commit ignored because the splice is full (R195). -/
def State.overrun (s : State) (n : Nat) : State :=
  let s := s.setSpl n { s.spl n with overrun := true }
  let s := ((s.cause .splice 0 2).irq .splice 0 0).bump (pa .splice 0 rSPL_OVR_CNT) 1
  if s.bitAt (pa .splice 0 rSPL_OVR_FIRST) 31 then s
  else s.wr (pa .splice 0 rSPL_OVR_FIRST) (BitVec.ofNat 32 (2 ^ 31 + n))

/-- A cell stored and the write pointer advanced; an armed CELL_CE or CELL_UE spoils word 7 (R211). -/
def State.commitAt (s : State) (n : Nat) (c : Cell512) : State :=
  let cell := s.splBase n + (s.spl n).w.t.toNat % s.splDepth n
  let s := s.setPoolCell cell (BitVec.ofNat 512 (c.toNat ||| 2 ^ 63))
  let (e, s) := s.inject .splice 0 0 1
  let s := if e = 0 then s else s.setEcc .pool (cell * 64 + 56) e
  let (p, s) := s.newPtr (((s.spl n).w.t.toNat + 1) % (2 * s.splDepth n))
  s.setSpl n { s.spl n with w := p }

/-- A commit by a block, the Lanyard or a ring whose view shows space: discarded and counted in a reset's window (R202). -/
def State.blockPut (s : State) (n : Nat) (c : Cell512) : State :=
  if 0 < (s.spl n).window then s.bump (pa .splice 0 rSPL_RST_DROP) 1 else s.commitAt n c

/-- A strand's commit (R102, R195, R202, R712). -/
def State.strandCommit (s : State) (n : Nat) (c : Cell512) : State :=
  if !s.splEn n || 0 < (s.spl n).window then s.bump (pa .splice 0 rSPL_RST_DROP) 1
  else if s.splFull n then s.overrun n
  else s.commitAt n c

/-- A pop (R101, R105, R197): the cell, with TAINT where a word was uncorrectable; none where no cell is visible. -/
def State.pop (s : State) (n : Nat) : Option (Cell512 × Bool) × State :=
  if s.splEmpty n || 0 < (s.spl n).window then (none, s)
  else
    let cell := s.splBase n + (s.spl n).r.t.toNat % s.splDepth n
    let c := s.poolCell cell
    let (ue, s) := s.readCell cell
    let (p, s) := s.newPtr (((s.spl n).r.t.toNat + 1) % (2 * s.splDepth n))
    let s := s.setSpl n { s.spl n with r := p }
    (some (if ue then BitVec.ofNat 512 (c.toNat ||| 2 ^ 62) else c, ue), s)

/-- The producer's and the consumer's copies of the other end's pointer brought up to date. -/
def State.sync (s : State) (n : Nat) : State :=
  let x := s.spl n
  s.setSpl n { x with rSeen := x.r.t.toNat, wSeen := x.w.t.toNat }

/-- The splices of KIND 0 of a lay brought up to date at the end of its cycle (R130, R198, R711). -/
def State.syncLay (s : State) (lay : Nat) : State :=
  ((s.splices.map (·.1)).filter (fun n => s.splKind n = 0 && s.fld (descA n 1) 18 16 = lay)).foldl (fun t n => t.sync n) s

/-- A cell a block, the Lanyard or a ring has for a splice: committed when its view shows space and none waits before
it, else held (R196). -/
def State.offer (s : State) (n : Nat) (c : Cell512) : State :=
  if s.held.any (fun h => h.1 = n) || s.splFull n then { s with held := s.held ++ [(n, c)] }
  else s.blockPut n c

/-- Cells offered in order. -/
def State.offerAll (s : State) (n : Nat) (cs : List Cell512) : State := cs.foldl (fun t c => t.offer n c) s

/-- The free cells a producer sees. -/
def State.space (s : State) (n : Nat) : Nat :=
  if s.splEn n then s.splDepth n - s.pfill n - s.held.countP (fun h => h.1 = n) else 0

/-- The enabled splices whose producer end is a block end code (R187), in ascending order. -/
def State.producedBy (s : State) (code : Nat) : List Nat :=
  (keysIn s.regs 0x400000 0x420000).filterMap (fun a =>
    let n := (a - 0x400000) / 16
    if a % 16 = 4 ∧ s.splEn n ∧ s.fld a 28 24 = code then some n else none)

/-- The enabled splices whose consumer end is a block end code (R187), in ascending order. -/
def State.consumedBy (s : State) (code : Nat) : List Nat :=
  (keysIn s.regs 0x400000 0x420000).filterMap (fun a =>
    let n := (a - 0x400000) / 16
    if a % 16 = 4 ∧ s.splEn n ∧ s.fld a 12 8 = code then some n else none)

/-- Is a splice a cross-lay one that a lay produces (R21). -/
def State.layToLay (s : State) (n lay : Nat) : Bool :=
  1024 ≤ n && n < 4096 && s.fld (descA n 1) 28 24 = 0 && s.fld (descA n 1) 18 16 = lay && s.fld (descA n 1) 12 8 = 0

/-- The splice from a block end to a lay, where the rigging has one. -/
def State.toLay (s : State) (code lay : Nat) : Option Nat :=
  (s.producedBy code).find? (fun n => s.fld (descA n 1) 12 8 = 0 ∧ s.fld (descA n 1) 2 0 = lay)

/-- The state of lay n (R178): 0 IDLE, 1 LOADED, 2 ARMED, 3 RUN, 4 HELD, 5 FROZEN. -/
def State.laySt (s : State) (n : Nat) : Nat := s.fld (pa .lay n rLAY_STAT) 2 0

/-- Is a lay IDLE, LOADED or absent (R191, R206). -/
def State.layQuiet (s : State) (n : Nat) : Bool := !s.domOn (3 + n) || s.laySt n ≤ 1

/-- Is a splice idle (R191): every lay at an end quiet, and a host-facing splice's ring disabled. -/
def State.splIdle (s : State) (n : Nat) : Bool :=
  let e := s.rd (descA n 1)
  (bits e 28 24 ≠ 0 || s.layQuiet (bits e 18 16)) && (bits e 12 8 ≠ 0 || s.layQuiet (bits e 2 0)) &&
  !(6144 ≤ n && n < 6208 && (s.bk (pa .pcie 0 rPCIE_RC_CTRL) (n - 6144)).getLsbD 0)

/-- KIND and SPD_ENDS agree (R711). -/
def kindAgrees (kind : Nat) (ends : Word32) : Bool :=
  let pb := bits ends 28 24
  let cb := bits ends 12 8
  if kind = 0 then pb = 0 && cb = 0 && bits ends 18 16 = bits ends 2 0
  else if kind = 1 then pb = 0 && cb = 0 && bits ends 18 16 ≠ bits ends 2 0
  else if kind = 2 then pb ≠ 0 || cb ≠ 0
  else false

/-- SPD_CFG as a write would leave it (R15, R192): reserved KIND and DEPTH_LOG2 keep the old field. -/
def cfgAfter (old v : Word32) : Word32 :=
  let x := Sys2Proof.putBits old 31 31 (bits v 31 31)
  let x := if bits v 30 29 = 3 then x else Sys2Proof.putBits x 30 29 (bits v 30 29)
  let x := if 2 ≤ bits v 27 24 ∧ bits v 27 24 ≤ 12 then Sys2Proof.putBits x 27 24 (bits v 27 24) else x
  Sys2Proof.putBits x 16 0 (bits v 16 0)

/-- A write of SPD_CFG that R192 refuses: it would leave EN = 1 with a bad depth, base, region or KIND. -/
def State.cfgBad (s : State) (n : Nat) (v : Word32) : Bool :=
  let x := cfgAfter (s.rd (descA n 0)) v
  let d := 2 ^ bits x 27 24
  6336 ≤ n || !s.splIdle n ||
  (bit x 31 && (bits x 27 24 < 2 || 12 < bits x 27 24 || bits x 16 0 % d ≠ 0 || 131072 < bits x 16 0 + d ||
    !kindAgrees (bits x 30 29) (s.rd (descA n 1))))

/-- The enabled regions, by first cell (R208). -/
def State.regions (s : State) : List (Nat × Nat) :=
  (keysIn s.regs 0x400000 0x420000).foldl (fun acc a =>
    let n := (a - 0x400000) / 16
    if a % 16 = 0 ∧ s.splEn n then place (s.splBase n) (s.splDepth n) acc else acc) []

/-- The cells 0 to 110,591 that lie in no enabled region (R208): reach is the first cell past the regions seen. -/
def State.poolFree (s : State) : Nat :=
  110592 - (s.regions.foldl (fun (p : Nat × Nat) r =>
    let lo := max r.1 p.1
    let hi := min (r.1 + r.2) 110592
    (max p.1 hi, p.2 + (hi - lo))) (0, 0)).2

/-- One end of SPD_ENDS as a write would leave it (R15, R191): a reserved block code keeps the old field; the lay is 0 beside a block. -/
def endAfter (old v : Nat) : Nat :=
  let blk := if nbits v 12 8 ≤ 0x15 then nbits v 12 8 else nbits old 12 8
  blk * 256 + (if blk = 0 then nbits v 2 0 else 0)

/-- SPD_ENDS as a write would leave it (R14, R15, R191). -/
def endsAfter (old v : Word32) : Word32 :=
  BitVec.ofNat 32 (endAfter (bits old 31 16) (bits v 31 16) * 2 ^ 16 + endAfter (bits old 15 0) (bits v 15 0))

/-- A write of SPD_ENDS that R191 or R711 refuses. -/
def State.endsBad (s : State) (n : Nat) (v : Word32) : Bool :=
  6336 ≤ n || !s.splIdle n || (s.splEn n && !kindAgrees (s.splKind n) (endsAfter (s.rd (descA n 1)) v))

/-- A splice reset on a pointer that cannot be restored (R201, R202). Its SPD_PROD.OVERRUN is cleared with it, as a write of SPD_CFG clears it
(DESIGN CHOICE, log entry 34: R201 does not say). -/
def State.ptrReset (s : State) (n : Nat) : State :=
  let s := s.setSpl n { Splice.clear with ptrRst := true, window := 6 }
  let s := ((s.cause .splice 0 3).irq .splice 0 1).bump (pa .splice 0 rSPL_PTR_CNT) 1
  if s.bitAt (pa .splice 0 rSPL_PTR_FIRST) 31 then s
  else s.wr (pa .splice 0 rSPL_PTR_FIRST) (BitVec.ofNat 32 (2 ^ 31 + n))

/-! ### Messages out of the ports (R670, R671) -/

/-- An Ethernet counter advanced (R672). -/
def State.ethCount (s : State) (n i : Nat) : State := s.bumpBk (ethA n rETH_CNT) i (2 ^ 64) 1

/-- Does an Ethernet port carry frames: NET on, enabled, its link up. -/
def State.ethUp (s : State) (n : Nat) : Bool := s.netOn && s.bitAt (ethA n 0x00C) 0 && s.bitAt (ethA n rETH_STAT) 0

/-- The destination MAC address of a frame to an address (R670): a multicast's own (RFC 2464), the neighbour cache's, else the gateway's. -/
def State.macFor (s : State) (n : Nat) (dst : BitVec 128) : BitVec 48 :=
  if dst.extractLsb' 0 8 = 0xFF then
    BitVec.ofNat 48 (0x3333 * 2 ^ 32 + beNat ((toLe 16 dst.toNat).drop 12))
  else match (s.ethPort n).cache.find? (fun e => e.1 = dst) with
    | some e => e.2
    | none => (s.rd64 (ethA n rETH_GW)).setWidth 48

/-- An entry of the neighbour cache used: it becomes the most recently used. -/
def State.cacheUse (s : State) (n : Nat) (addr : BitVec 128) : State :=
  let x := s.ethPort n
  match x.cache.find? (fun e => e.1 = addr) with
  | none => s
  | some e => s.setEthPort n { x with cache := e :: x.cache.erase e }

/-- The tag control of the frames a VLAN-enabled port sends (R668, R672). -/
def State.vlanTag (s : State) (n : Nat) : Option Nat :=
  if s.bitAt (ethA n rETH_CFG) 16 then some (s.fld (ethA n rETH_VLAN) 15 13 * 2 ^ 13 + s.fld (ethA n rETH_VLAN) 11 0) else none

/-- A frame sent by an Ethernet port, from an own address, with its UDP ports (R670): counted; nothing while the port carries none. -/
def State.ethSend (s : State) (n : Nat) (src dst : BitVec 128) (udp : Nat × Nat) (l : List Byte) : State :=
  if !s.ethUp n then s
  else
    let (c, s) := if n < 4 then s.inject .eth n 0 1 else s.inject .sgmii (n - 4) 0 1
    let s := if c = 0 then s else if n < 4 then s.cause .eth n (c - 1) else s.cause .sgmii (n - 4) (c - 1)
    if c = 2 then s
    else ({ (s.cacheUse n dst) with wire := s.wire ++ [Sent.mk n dst l src (s.macFor n dst) udp (s.vlanTag n)] }).ethCount n 8

/-- The BATCH_SEQ of a Plawiez message; 0 of any other. -/
def batchSeqOf (l : List Byte) : Nat := if l.take 2 = [0x50, 0x4C] then beNat ((l.drop 4).take 4) else 0

/-- A reply sent by a port to a frame of an address and BATCH_SEQ: on Ethernet from the address that frame was sent to, its ports exchanged
(R229, R671). -/
def State.sendTo (s : State) (port : Nat) (dst : BitVec 128) (key : Nat) (l : List Byte) : State :=
  if port < 6 then
    let own := (((s.ethPort port).peers.find? (fun e => e.1 = (dst, key))).map (·.2)).getD (0, (0, 0))
    s.ethSend port own.1 dst (own.2.2, own.2.1) l
  else { s with wire := s.wire ++ [⟨port, dst, l, 0, 0, (0, 0), none⟩] }

/-- A message sent from a port in the order of R228; an Ethernet port answers from the address and port the peer's message was sent to, to the
port it came from (R28, R241, R671). -/
def State.send (s : State) (port : Nat) (dst : BitVec 128) (l : List Byte) : State :=
  s.sendTo port dst (batchSeqOf l) l

/-- Do a pointer's copies agree. -/
def Ptr.agree (p : Ptr) : Bool := p.c = ~~~p.t

/-- One copy rewritten from the other, where exactly one fails its parity (R201). -/
def Ptr.restore (p : Ptr) : Option Ptr :=
  let okT := p.pt = ptrParity p.t
  let okC := p.pc = ptrParity p.c
  if okT && !okC then some (Ptr.mk' p.t.toNat)
  else if okC && !okT then some (Ptr.mk' (~~~p.c).toNat)
  else none

end Sys2Proof.Machine
end

