-- ==== Sys2Proof/Machine/Operands.lean ====
section
/-! DEFINITION. The operand forms of the strand engines (R72 to R86, R95): registers, pairs, octets, predicates, guards,
immediates, splice operands and effective addresses, and the results in flight. -/

namespace Sys2Proof.Machine

/-- The device-wide strand number (R17). -/
def strandNo (lay strand : Nat) : Nat := lay * 16 + strand

/-- A strand, by its device-wide number. -/
def State.str (s : State) (n : Nat) : Strand := look (fun _ => Strand.clear) s.strands n

/-- A strand set. -/
def State.setStr (s : State) (n : Nat) (x : Strand) : State :=
  { s with strands := Machine.store (fun _ => Strand.clear) s.strands n x }

/-- A lay. -/
def State.lay (s : State) (n : Nat) : Lay := look (fun _ => Lay.clear) s.lays n

/-- A lay set. -/
def State.setLay (s : State) (n : Nat) (x : Lay) : State :=
  { s with lays := Machine.store (fun _ => Lay.clear) s.lays n x }

/-- The strand an issue names. -/
def issueNo (x : Issue) : Nat := strandNo x.lay.val x.strand.val

/-- General register r of a strand (R72). -/
def Strand.reg (t : Strand) (r : Nat) : Word64 := look (fun _ => 0) t.g r

/-- General register r of a strand set. -/
def Strand.setReg (t : Strand) (r : Nat) (v : Word64) : Strand := { t with g := Machine.store (fun _ => 0) t.g r v }

/-- A predicate: p0 always reads 1 (R72). -/
def Strand.pred (t : Strand) (i : Nat) : Bool := i = 0 || t.p.getLsbD i

/-- A predicate set: writes to p0 are ignored (R72). -/
def Strand.setPred (t : Strand) (i : Nat) (b : Bool) : Strand :=
  if i = 0 then t else { t with p := Sys2Proof.putBit t.p i b }

/-- A key register (R72). -/
def Strand.key (t : Strand) (k : Nat) : KeyReg := look (fun _ => KeyReg.clear) t.k k

/-- A key register set. -/
def Strand.setKey (t : Strand) (k : Nat) (v : KeyReg) : Strand :=
  { t with k := Machine.store (fun _ => KeyReg.clear) t.k k v }

/-- The pair that a field names, bit 0 ignored (R85): the low register's word in bits 63:0. -/
def Strand.pair (t : Strand) (r : Nat) : BitVec 128 := (t.reg (r / 2 * 2 + 1)).append (t.reg (r / 2 * 2))

/-- What writing a pair writes (R85). -/
def pairWrites (r : Nat) (v : BitVec 128) : List (Nat × Word64) :=
  [(r / 2 * 2, v.extractLsb' 0 64), (r / 2 * 2 + 1, v.extractLsb' 64 64)]

/-- Octet n as a cell (R86). -/
def Strand.octet (t : Strand) (n : Nat) : Cell512 :=
  mkCell ((List.range 8).map (fun m => (t.reg (8 * n + m)).toNat))

/-- What writing a cell to octet n writes (R86). -/
def octetWrites (n : Nat) (c : Cell512) : List (Nat × Word64) := (List.range 8).map (fun m => (8 * n + m, cellWord c m))

/-- The registers of the strand an issue names, as they stand before the results of this cycle (R75). -/
def State.ofIssue (s : State) (x : Issue) : Strand := s.str (issueNo x)

/-- Does an issued operation execute: p[GP] XOR NEG (R83). -/
def State.exec? (s : State) (x : Issue) : Bool := xor ((s.ofIssue x).pred x.gp) x.neg

/-- IMM10 sign-extended (R84). -/
def imm64 (i : BitVec 10) : Word64 := i.signExtend 64

/-- The lay cycle of an issue. -/
def State.cyc (s : State) (x : Issue) : Nat := (s.lay x.lay.val).cyc

/-- The turn cycle of an issue. -/
def State.tcyc (s : State) (lay : Nat) : Nat := (s.lay lay).tcyc

/-- A result put in flight: latency L writes at the end of cycle c + L − 1 (R76). -/
def State.fly (s : State) (x : Issue) (rank latency : Nat) (l : Late) : State :=
  let t := s.ofIssue x
  s.setStr (issueNo x) { t with flight := t.flight ++ [⟨s.cyc x + latency - 1, rank, s.cyc x, false, l⟩] }

/-- One register written with a latency. -/
def State.flyReg (s : State) (x : Issue) (rank latency d : Nat) (v : Word64) : State :=
  s.fly x rank latency (.regs [(d, v)])

/-- A guarded operation: nothing happens when the guard is false (R78). -/
def State.when (s : State) (x : Issue) (eff : State → State) : State := if s.exec? x then eff s else s

/-- The target and load latency of an address (R95): the strand's data memory, the lay's shared memory, or none. -/
inductive MemTarget where
  | data (a : Nat) | shared (a : Nat) | nowhere
  deriving DecidableEq, Repr

/-- Where an effective address leads (R95). -/
def memTarget (ea : Nat) : MemTarget :=
  if ea < 0x20000 then .data ea
  else if 0x400000 ≤ ea ∧ ea < 0x800000 then .shared (ea - 0x400000)
  else .nowhere

/-- A + IMM10 × size (R93). -/
def effAddr (a : Word64) (imm : BitVec 10) (size : Nat) : Nat := (a + imm64 imm * BitVec.ofNat 64 size).toNat

/-- The table of a lay's variant-table memory for a target code and a variant (R709). -/
def Lay.tab (l : Lay) (target variant : Nat) : Option VTab :=
  l.tabs.find? (fun t => t.target = target && t.variants.contains variant)

/-- n little-endian bytes of a table at an offset; none past its end. -/
def tabLe (t : VTab) (off n : Nat) : Option Nat :=
  if off + n ≤ t.bytes.length then some (leNat ((t.bytes.drop off).take n)) else none

/-- The variant in force (R178). -/
def State.variant (s : State) (lay : Nat) : Nat := s.fld (pa .lay lay rLAY_STAT) 20 16

/-- The period of the wheel (R155). -/
def State.wheelPeriod (s : State) (lay : Nat) : Nat := 2 ^ s.fld (pa .lay lay rLAY_WHEEL) 3 0

/-- The strand granted a bank in a turn cycle (R155). -/
def State.wheelGrant (s : State) (lay tc bank : Nat) : Option Nat :=
  match (s.lay lay).tab 0x10 (s.variant lay) with
  | none => none
  | some t => match tabLe t (tc % s.wheelPeriod lay * 8 + bank) 1 with
    | some b => if b.testBit 7 then some (b % 16) else none
    | none => none

/-- The 8-byte entries of a splice grant table (R156). -/
def grantEntries (t : VTab) : List Nat :=
  (List.range (t.bytes.length / 8)).map (fun i => leNat ((t.bytes.drop (8 * i)).take 8))

/-- Is an end of a splice granted to a strand in the variant in force (R100, R156). -/
def State.granted (s : State) (lay strand n : Nat) (producer : Bool) : Bool :=
  match (s.lay lay).tab 0x11 (s.variant lay) with
  | none => false
  | some t => (grantEntries t).any (fun e =>
      nbits e 12 0 = n && nbits e 19 16 = strand && nbits e 20 20 = producer.toNat)

/-- STRAND_MASK of a variant (R154, R709). -/
def State.strandMask (s : State) (lay variant : Nat) : Nat :=
  match (s.lay lay).tab 0x12 variant with
  | none => 0
  | some t => (tabLe t 6 2).getD 0

/-- The entry bundle of a strand in a variant (R154). -/
def State.entry (s : State) (lay variant strand : Nat) : Nat :=
  match (s.lay lay).tab 0x12 variant with
  | none => 0
  | some t => (tabLe t (8 + 2 * strand) 2).getD 0 % 8192

/-- The out-set of a lay (R168). -/
def State.outSet (s : State) (lay : Nat) : Nat := (s.rd (pa .lay lay rLAY_OUT)).toNat

/-- Does a strand issue in the variant in force. -/
def State.inVariant (s : State) (lay strand : Nat) : Bool :=
  (s.strandMask lay (s.variant lay)).testBit strand && !(s.outSet lay).testBit strand

/-- STR_STAT.STATE (03_strand_engines.md, STR_STAT fields). -/
def State.strandSt (s : State) (lay strand : Nat) : Nat :=
  let st := s.laySt lay
  if st = 0 then 0
  else if (s.outSet lay).testBit strand then 4
  else if st = 1 ∨ st = 2 then 1
  else if st = 5 then 5
  else if st = 4 then 7
  else if (s.str (strandNo lay strand)).tainted then 3
  else if s.inVariant lay strand then 2
  else 6

end Sys2Proof.Machine
end

