-- ==== Sys2Proof/Machine/NandMap.lean ====
section
/-! DEFINITION. STORE's block table (R498, R501, R502) and its health registers (R520). -/

namespace Sys2Proof.Machine

/-! ### Targets and blocks (R498, R501, R502) -/

/-- The window address of a NAND register. -/
def nandA (o : Nat) : Nat := pa .nand 0 o

/-- A block, by target × 8192 + block. -/
def State.blk (s : State) (k : Nat) : Block := look (fun _ => Block.fresh) s.nand.blocks k

/-- STORE's own state changed. -/
def State.setNand (s : State) (x : Nand) : State := { s with nand := x }

/-- A block set. -/
def State.setBlk (s : State) (k : Nat) (b : Block) : State :=
  s.setNand { s.nand with blocks := Machine.store (fun _ => Block.fresh) s.nand.blocks k b }

/-- The targets in use: those of TARGETS on the channels of CH_MASK (R498). -/
def State.nandTargets (s : State) : List Nat :=
  (List.range 32).filter (fun t => (s.fld (nandA rNAND_FIT) 3 0).testBit (t / 8) && t % 8 < s.fld (nandA rNAND_FIT) 7 4)

/-- Pages per block. -/
def State.ppb (s : State) : Nat := 256 * 2 ^ s.fld (nandA rNAND_FIT) 13 12

/-- Blocks per target. -/
def State.blocksPer (s : State) : Nat := s.fld (nandA rNAND_FIT) 29 16

/-- The listed blocks of a target; every other is FREE and never used. -/
def State.blocksOf (s : State) (t : Nat) : List (Nat × Block) :=
  s.nand.blocks.filter (fun e => e.1 / 8192 = t)

/-- The FREE blocks of a target. -/
def State.freeBlocks (s : State) (t : Nat) : Nat :=
  s.blocksPer - (s.blocksOf t).countP (fun e => e.2.st ≠ .free)

/-! ### Health registers (R520, R521) -/

/-- NAND_H_BLOCKS, NAND_H_BAD and NAND_H_WEAR of the selected target. -/
def State.nandHealth (s : State) (o : Nat) : Nat :=
  let h := s.rd (nandA rNAND_HSEL)
  let t := bits h 1 0 * 8 + bits h 6 4
  let l := s.blocksOf t
  if !s.nandTargets.contains t then 0
  else if o = rNAND_H_BLOCKS then s.freeBlocks t + l.countP (fun e => e.2.st = .released) * 2 ^ 16
  else if o = rNAND_H_BAD then
    l.countP (fun e => e.2.factory) + l.countP (fun e => e.2.st = .bad && !e.2.factory) * 2 ^ 16
  else min 65535 ((l.map (fun e => e.2.erases)).sum / max 1 s.blocksPer) + min 65535 ((l.map (fun e => e.2.erases)).foldl max 0) * 2 ^ 16

end Sys2Proof.Machine
end

