-- ==== Sys2Proof/Machine/IngestMap.lean ====
section
/-! DEFINITION. INGEST's tables (R224 to R227, R234): sources and their reset, rotation sets, and the counters that sum over
classes. -/

namespace Sys2Proof.Machine

/-- The REPLY mode that sources 4,079 and up have (R224): 1 DLMS, 2 FIELD, 3 HDLC. -/
def fixedReply (i : Nat) : Nat := if i = 4079 then 1 else if i ≤ 4086 then 2 else 3

/-- The source table at reset (R224). A source that resets VALID starts with a full bucket (log entry 12). -/
def sourceReset (i : Nat) : Source :=
  if i = 4079 then ⟨true, 1000, 100, 1, 0x22, 0, 0, 100000, false⟩
  else if 4080 ≤ i ∧ i ≤ 4086 then ⟨true, 2000, 200, 2, 0x76, 0, 0, 200000, false⟩
  else if 4088 ≤ i ∧ i ≤ 4095 then ⟨true, 100, 10, 3, 0x04, 0, 0, 10000, false⟩
  else ⟨false, 0, 0, 0, 0, 0, 0, 0, false⟩

/-- A source entry. -/
def State.source (s : State) (i : Nat) : Source := look sourceReset s.ing.sources i

/-- A source entry set. -/
def State.setSource (s : State) (i : Nat) (x : Source) : State :=
  { s with ing := { s.ing with sources := Machine.store sourceReset s.ing.sources i x } }

/-- The window address of an INGEST register. -/
def ingA (o : Nat) : Nat := pa .ingest 0 o

/-- The interface splice a rotation set deals a lay (R227): block end 1 for the ingest set, 2 for the field-service set. -/
def State.dealt (s : State) (code lay : Nat) : Option Nat :=
  if s.domOn (3 + lay) && s.laySt lay = 3 && s.bitAt (pa .lay lay rLAY_STAT) 5 then s.toLay code lay else none

/-- A rotation set as a mask. -/
def State.rotSet (s : State) (code : Nat) : Nat :=
  (((List.range 8).filter (fun l => (s.dealt code l).isSome)).map (2 ^ ·)).sum

/-- The next lay of a set: the first at or after the pointer, wrapping. -/
def State.rotNext (s : State) (code : Nat) : Option Nat :=
  let p := if code = 1 then s.ing.inNext else s.ing.fsNext
  ((List.range 8).map (fun i => (p + i) % 8)).find? (fun l => (s.dealt code l).isSome)

/-- ING_ROT as it reads; of an empty set the pointer. -/
def State.viewRot (s : State) : Nat :=
  s.rotSet 1 + s.rotSet 2 * 2 ^ 8 + (s.rotNext 1).getD s.ing.inNext * 2 ^ 16 + (s.rotNext 2).getD s.ing.fsNext * 2 ^ 24

/-- The classes that ING_SRC_SEL.CLASS sums over (R251). -/
def State.selClasses (s : State) : List Nat :=
  let k := s.fld (ingA rING_SRC_SEL) 18 16
  if k = 0 then [1, 2, 3, 4, 5, 6] else if k = 7 then [] else [k]

/-- The 64-bit counters of the selected source and class. -/
def State.ingCount (s : State) (o : Nat) : Option Word64 :=
  let src := s.fld (ingA rING_SRC_SEL) 11 0
  if o = rING_SRC_ADMIT ∨ o = rING_SRC_REFUSE then
    some (BitVec.ofNat 64 ((s.selClasses.map (fun k => (s.bk (ingA o) (k * 2 ^ 16 + src)).toNat)).sum))
  else if o = rING_CLS_ADMIT ∨ o = rING_CLS_REFUSE then
    some (BitVec.ofNat 64 ((s.selClasses.map (fun k => (s.bk (ingA o) k).toNat)).sum))
  else none

/-- The 32-bit INGEST registers that are computed. -/
def State.ingView (s : State) (o : Nat) : Option Word32 :=
  if o = rING_ROT then some (BitVec.ofNat 32 s.viewRot)
  else if o = rING_SRC_CREDIT then some (BitVec.ofNat 32 (s.source (s.fld (ingA rING_SRC_SEL) 11 0)).credit)
  else if rING_WHY_CREDIT ≤ o ∧ o ≤ rING_WHY_CLOSED then
    some (BitVec.ofNat 32 (min (2 ^ 32 - 1) (s.selClasses.map (fun k => (s.bk (ingA o) k).toNat)).sum))
  else none

end Sys2Proof.Machine
end

