-- ==== Sys2Proof/Machine/KeyMap.lean ====
section
/-! DEFINITION. The key store's table (R459, R460, R463), chains, and the registers of the KEY and LCS pages that are computed. -/

namespace Sys2Proof.Machine

/-- A key-store slot. -/
def State.slot (s : State) (i : Nat) : KeySlot := look (fun _ => KeySlot.empty) s.keys i

/-- A key-store slot set. -/
def State.setSlot (s : State) (i : Nat) (x : KeySlot) : State :=
  { s with keys := Machine.store (fun _ => KeySlot.empty) s.keys i x }

/-- The code of the root as a parent (R460). -/
def rootParent : Nat := 0x1000

/-- A retired slot: its GEN has reached 0xFFFF_FFFF (R464). -/
def KeySlot.retired (x : KeySlot) : Bool := 2 ^ 32 - 1 ≤ x.gen

/-- Does the link from a slot to its parent hold (R463). -/
def State.linkHolds (s : State) (x : KeySlot) : Bool :=
  if x.parent = rootParent then s.root.id ≠ 0 && s.root.id = x.pgen
  else (s.slot x.parent).type ≠ 0 && (s.slot x.parent).gen = x.pgen

/-- The slots on the path from a slot up to the first link that does not hold; none: the chain is current (R463). -/
def State.broken (s : State) : Nat → Nat → List Nat
  | 0, i => [i]
  | fuel + 1, i =>
    let x := s.slot i
    if !s.linkHolds x then [i]
    else if x.parent = rootParent then []
    else match s.broken fuel x.parent with
      | [] => []
      | l => i :: l

/-- Is a slot's chain current. -/
def State.current (s : State) (i : Nat) : Bool := s.broken 8 i = []

/-- The slots and generations of a slot's chain, the slot first. -/
def State.chainOf (s : State) : Nat → Nat → List (Nat × Nat)
  | 0, _ => []
  | fuel + 1, i =>
    let x := s.slot i
    (i, x.gen) :: (if x.parent = rootParent then [] else s.chainOf fuel x.parent)

/-- DEPTH of a slot made under a parent (R460, R463): one link more than the parent's; under a slot that is EMPTY, which only a slot image can
name, two (DESIGN CHOICE, log entry 15). -/
def State.depthUnder (s : State) (p : Nat) : Nat := if p = rootParent then 1 else max 1 (s.slot p).depth + 1

/-- The DRBG gives output (R480, R481). -/
def State.drbgOk (s : State) : Bool :=
  s.domOn 16 && s.bitAt (pa .trng 0 0x00C) 0 && s.bitAt (pa .trng 0 rTRNG_STAT) 0 && !s.bitAt (pa .trng 0 rTRNG_STAT) 1

/-- TRNG_STAT as it reads (R493): STARTING from the enable until the tests of R480 have ended in READY, in FAIL or in KAT. -/
def State.trngStat (s : State) : Word32 :=
  let w := s.rd (pa .trng 0 rTRNG_STAT)
  Sys2Proof.putBit w 2 (s.bitAt (pa .trng 0 0x00C) 0 && !bit w 0 && !bit w 1 && !s.bitAt (pa .trng 0 0x014) 2)

/-- The KEY registers that are computed (R487). -/
def State.keyView (s : State) (o : Nat) : Option Word32 :=
  let i := s.fld (pa .key 0 rKEY_SEL) 11 0
  let x := s.slot i
  if o = rKEY_ATTR then
    some (BitVec.ofNat 32 (x.type + x.use * 16 + x.child256.toNat * 64 + x.retired.toNat * 128 + x.depth % 8 * 256 +
      x.parent * 2 ^ 16))
  else if o = rKEY_ATTR_GEN then some (BitVec.ofNat 32 x.gen)
  else if o = rKEY_ATTR_PGEN then some (BitVec.ofNat 32 x.pgen)
  else if o = rKEY_ATTR_MASK then some (BitVec.ofNat 32 x.mask)
  else if o = rKEY_ATTR_LABEL then some (BitVec.ofNat 32 x.label)
  else if o = rKEY_FREE then some (BitVec.ofNat 32 (4096 - s.keys.countP (fun e => e.2.type ≠ 0 || e.2.retired)))
  else none

/-- Milliseconds left before a time, rounded up. -/
def State.msLeft (s : State) (t : Nat) : Nat := (t - s.now + 999999) / 1000000

/-- AUTH was gained and its 10 s have passed (R485). -/
def State.authOver (s : State) : Bool :=
  s.bitAt (pa .lcs 0 rLCS_STAT) 8 && decide (look (fun _ => 0) s.timers (pa .lcs 0 rLCS_AUTH_LEFT) ≤ s.now)

/-- LCS_STAT as it reads (R485, R494). -/
def State.lcsStat (s : State) : Word32 :=
  let w := s.rd (pa .lcs 0 rLCS_STAT)
  Sys2Proof.putBit (if s.authOver then w &&& ~~~0x170 else w) 3 (s.root.id ≠ 0)

/-- The LCS registers that are computed (R494). -/
def State.lcsView (s : State) (o : Nat) : Option Word32 :=
  let steps := ((List.range 4).map (fun i =>
    if s.otp.fuses.getLsbD (2 * i) || s.otp.fuses.getLsbD (2 * i + 1) then 2 ^ i else 0)).sum
  if o = rLCS_STATE then some (BitVec.ofNat 32 (s.lcs + steps * 256))
  else if o = rLCS_STAT then some s.lcsStat
  else if o = rLCS_ROOT_ID then some (BitVec.ofNat 32 s.root.id)
  else if o = rLCS_OTP_MAP then
    some (BitVec.ofNat 32 ((List.range 8).map (fun k => if (s.otp.hash k).isSome then 2 ^ k else 0)).sum)
  else if o = rLCS_AUTH_LEFT then
    some (BitVec.ofNat 32 (min (2 ^ 14 - 1) (s.msLeft (look (fun _ => 0) s.timers (pa .lcs 0 rLCS_AUTH_LEFT)))))
  else none

end Sys2Proof.Machine
end

