-- ==== Sys2Proof/Machine/TimeMap.lean ====
section
/-! DEFINITION. The calendar view of the RTC and its registers as they read (R445, R447, R449). -/

namespace Sys2Proof.Machine

/-- The civil date of a day counted from 1970-01-01, by the Gregorian leap rule (R449): year, month, day. -/
def civil (day : Nat) : Nat × Nat × Nat :=
  let z := day + 719468
  let doe := z % 146097
  let yoe := (doe - doe / 1460 + doe / 36524 - doe / 146096) / 365
  let doy := doe - (365 * yoe + yoe / 4 - yoe / 100)
  let mp := (5 * doy + 2) / 153
  let m := if mp < 10 then mp + 3 else mp - 9
  (yoe + z / 146097 * 400 + (if m ≤ 2 then 1 else 0), m, doy - (153 * mp + 2) / 5 + 1)

/-- The day of a civil date counted from 1970-01-01. -/
def dayOf (y m d : Nat) : Nat :=
  let y := if m ≤ 2 then y - 1 else y
  let yoe := y % 400
  let doy := (153 * (if 2 < m then m - 3 else m + 9) + 2) / 5 + d - 1
  y / 400 * 146097 + yoe * 365 + yoe / 4 - yoe / 100 + doy - 719468

/-- A 32-bit capture extended to full time from a reference in ns (R438). -/
def extendCapture (n c : Nat) : Int :=
  let d : Nat := (c + 2 ^ 32 - n % 2 ^ 32) % 2 ^ 32
  (n : Int) + (if d < 2 ^ 31 then (d : Int) else (d : Int) - 2 ^ 32)

/-- RTC seconds (R445). -/
def State.rtcSec (s : State) : Nat := bits (s.rd64 (pa .rtc 0 rRTC_TIME)) 54 15

/-- The RTC fraction (R445). -/
def State.rtcFrac (s : State) : Nat := bits (s.rd64 (pa .rtc 0 rRTC_TIME)) 14 0

/-- The second the calendar view shows (R449). -/
def State.calSec (s : State) : Int := (s.rtcSec : Int) + signed 32 (s.rd (pa .rtc 0 rRTC_CAL_OFS)).toNat

/-- Is a second in the range of the calendar view (R449). -/
def calInRange (x : Int) : Bool := 946684800 ≤ x && x ≤ 7258118399

/-- RTC_CAL_DATE as it reads (R449, R458). -/
def State.calDate (s : State) : Word32 :=
  if calInRange s.calSec then
    let c := civil (s.calSec.toNat / 86400)
    BitVec.ofNat 32 (c.1 * 65536 + c.2.1 * 256 + c.2.2)
  else 0

/-- RTC_CAL_TIME that matches the date (R449, R458). -/
def State.calTime (s : State) : Word32 :=
  if calInRange s.calSec then
    let d := s.calSec.toNat % 86400
    BitVec.ofNat 32 (d / 3600 * 65536 + d / 60 % 60 * 256 + d % 60)
  else 0

/-- The conditions of the discipline hold (R447). -/
def State.discActive (s : State) : Bool :=
  s.bitAt (pa .rtc 0 rRTC_CTRL) 1 && !s.bitAt (pa .rtc 0 rRTC_CTRL) 0 && s.netOn && s.bitAt (pa .tsu 0 rTSU_STAT) 3

/-- Is the PPS output's ball the TSU's (R456, R457, R682). -/
def State.ppsOwned (s : State) : Bool :=
  s.pmxFunc (s.fld (pa .tsu 0 rTSU_PPS) 20 16) = 3 && s.pmxHolder (s.fld (pa .tsu 0 rTSU_PPS) 20 16) = 0

/-- TSU_STAT as it reads (R424, R427, R428, R456): SRC_OK of the source selected now, PPS_NO_BALL of the ball's present owner. -/
def State.tsuStat (s : State) : Word32 :=
  let v := s.rd (pa .tsu 0 rTSU_STAT)
  let src := s.fld (pa .tsu 0 rTSU_CTRL) 1 0
  let ok := src ≠ 0 && s.tsuTime.seen.testBit src
  let v := Sys2Proof.putBit (Sys2Proof.putBit v 7 (rhoLimit < s.rhoSum || s.rhoSum < -rhoLimit)) 6 (s.slewLeft ≠ 0)
  Sys2Proof.putBit (Sys2Proof.putBit (Sys2Proof.putBit v 4 (!bit v 3 && ok)) 2 ok) 1 (s.bitAt (pa .tsu 0 rTSU_PPS) 31 && !s.ppsOwned)

/-- The computed registers of the RTC page. -/
def State.rtcView (s : State) (o : Nat) : Option Word32 :=
  if o = rRTC_STAT then
    some (Sys2Proof.putBit (Sys2Proof.putBit (s.rd (pa .rtc 0 rRTC_STAT)) 5 s.discActive) 7 (!calInRange s.calSec))
  else if o = rRTC_CAL_DATE then some s.calDate
  else if o = rRTC_CAL_TIME then some s.calTime
  else none

end Sys2Proof.Machine
end

