-- ==== Sys2Proof/Machine/Views.lean ====
section
/-! DEFINITION. What a register reads as: stored words, the registers computed from other state, the registers behind a
selector and the rules for pages that are off or in a soft reset (R47 to R49, R64). -/

namespace Sys2Proof.Machine

/-- STR_STAT (03_strand_engines.md). -/
def State.viewStrStat (s : State) (n : Nat) : Nat := s.variant (n / 16) * 2 ^ 16 + s.strandSt (n / 16) (n % 16)

/-- The code of a key register's state (R110). -/
def keyStCode : KeySt → Nat
  | .empty => 0 | .pending => 1 | .ready => 2 | .orphaned => 3 | .denied => 4 | .noSlot => 5 | .badBlob => 6

/-- STR_KEY_STAT: LEN256 in bit 8k + 4 and STATE in bits 8k + 3:8k. -/
def State.viewKeyStat (s : State) (n : Nat) : Nat :=
  (List.range 4).foldl (fun v k =>
    let r := (s.str n).key k
    v + ((r.len256 && r.st = .ready).toNat * 16 + keyStCode r.st) * 2 ^ (8 * k)) 0

/-- STR_DBG_DATA: the selected register while the strand is FROZEN, 0 otherwise (R125). -/
def State.viewDbgData (s : State) (n : Nat) : Word64 :=
  let t := s.str n
  let i := s.fld (pa .strand n rSTR_DBG_SEL) 7 0
  if s.strandSt (n / 16) (n % 16) ≠ 5 then 0
  else if i < 64 then t.reg i
  else if i = 0x40 then BitVec.ofNat 64 (t.p.toNat ||| 1)
  else if i = 0x41 then t.acc.extractLsb' 0 64
  else if i = 0x42 then t.acc.extractLsb' 64 64
  else 0

/-- STR_PC: the next bundle the strand will issue (R124): past its TEND the entry bundle of the variant in force, in a lay that has not
started that of variant 0 (R74, R164); in a cycle in which a bundle has issued the bundle after it, or the target of the branch it took
(R79). -/
def State.viewPc (s : State) (n : Nat) : Nat :=
  let lay := n / 16
  let k := n % 16
  if s.laySt lay = 1 ∨ s.laySt lay = 2 then s.entry lay 0 k
  else if (s.str n).tended && s.inVariant lay k then s.entry lay (s.variant lay) k
  else if (s.str n).fetched then (s.str n).target.getD (((s.str n).pc + 1) % 8192)
  else (s.str n).pc

/-- A 64-bit register as it reads (R55); a 32-bit register that is computed is in `view32`. -/
def State.view64 (s : State) (p : Pg) (inst o : Nat) : Option Word64 :=
  match p with
  | .chip => if o = rCHIP_SERIAL then some (if s.otp.badSerial then 0 else s.otp.serial) else none
  | .strand => if o = rSTR_DBG_DATA then some (s.viewDbgData inst) else none
  | .splice =>
    if o = rSPL_PEEK_DATA then
      some (BitVec.ofNat 64 (s.poolWord (s.fld (pa .splice 0 rSPL_PEEK_ADDR) 19 3) (s.fld (pa .splice 0 rSPL_PEEK_ADDR) 2 0)))
    else none
  | .ingest => s.ingCount o
  | .radio => s.macView64 inst o
  | .plcPh => s.macView64 (inst + 4) o
  | .tsu =>
    if o = rTSU_NOW then some (BitVec.ofNat 64 (s.tsuTime.sec % 2 ^ 34 * 2 ^ 30 + s.tsuTime.ns)) else none
  | q => s.ioView64 q o

/-- A computed 32-bit register as it reads. -/
def State.view32 (s : State) (p : Pg) (inst o : Nat) : Option Word32 :=
  match p with
  | .chip =>
    if o = rCHIP_HWTYPE then some (if s.otp.badHwtype then 0 else s.otp.hwtype)
    else if o = rCHIP_LCS then some (BitVec.ofNat 32 s.lcs)
    else if o = rCHIP_OTP_STAT then
      some (BitVec.ofNat 32 (1 + s.otp.corrected.toNat * 2 + (s.otp.badHwtype || s.otp.badSerial).toNat * 4))
    else none
  | .strand =>
    if o = rSTR_STAT then some (BitVec.ofNat 32 (s.viewStrStat inst))
    else if o = rSTR_PC then some (BitVec.ofNat 32 (s.viewPc inst))
    else if o = rSTR_KEY_STAT then some (BitVec.ofNat 32 (s.viewKeyStat inst))
    else none
  | .lay => if o = rLAY_TCYC then some (BitVec.ofNat 32 (s.tcyc inst)) else none
  | .splice => if o = rSPL_POOL_FREE then some (BitVec.ofNat 32 s.poolFree) else none
  | .tsu =>
    if o = rTSU_NOW_SECHI then some (BitVec.ofNat 32 (s.tsuTime.sec / 2 ^ 34))
    else if o = rTSU_STAT then some s.tsuStat
    else if o = rTSU_CTRL then
      some (Sys2Proof.putBit (s.rd (pa .tsu 0 rTSU_CTRL)) 4 (s.bitAt (pa .rtc 0 rRTC_CTRL) 1))
    else none
  | .meas => if o = rMEAS_STAT then
      some (Sys2Proof.putBit (Sys2Proof.putBit (s.rd (pa .meas 0 rMEAS_STAT)) 0 (s.bitAt (pa .clk 0 rCLK_STAT) 5)) 2
        (!(s.netOn && s.bitAt (pa .tsu 0 rTSU_STAT) 3))) else none
  | .rtc => s.rtcView o
  | .ingest => s.ingView o
  | .radio => s.radioView inst o
  | .plcPh => s.phView (inst + 4) o
  | .plc => s.plcView o
  | .nand => if rNAND_H_BLOCKS ≤ o ∧ o ≤ rNAND_H_WEAR then some (BitVec.ofNat 32 (s.nandHealth o)) else none
  | .lcs => s.lcsView o
  | .trng => if o = rTRNG_STAT then some s.trngStat else none
  | .key => s.keyView o
  | .evr => if o = rEVR_STAT then
      some (s.rd (pa .evr 0 rEVR_STAT) ||| BitVec.ofNat 32 (s.evr.buf.length * 2 ^ 16))
    else if s.now < s.evr.readEnd ∧ o = rEVR_RD_STAT then some 0x80000000
    else if s.now < s.evr.readEnd ∧ rEVR_RD_BUF ≤ o then some 0
    else none
  | q => s.ioView q inst o

/-- A stored register's whole value: its bank entry where it is behind a selector, its 64 bits where it is wide. -/
def State.regVal (s : State) (p : Pg) (inst : Nat) (r : RegRow) (o : Nat) : Word64 :=
  let a := pa p inst (r.start o)
  match selector p (r.start o) with
  | some sel => s.bk a (s.selIdx a sel)
  | none => if r.wide then s.rd64 a else (s.rd a).setWidth 64

/-- The bits of a register that read as stored: those of its fields that are not WO (R10, R14). -/
def readMask (r : RegRow) : Nat := r.fields.foldl (fun m f => if f.acc = .wo then m else m ||| (maskOf 64 f.hi f.lo).toNat) 0

/-- A block-specific register's whole value as it reads, by the row that holds page offset o. -/
def State.viewRow (s : State) (p : Pg) (inst : Nat) (r : RegRow) (o : Nat) : Word64 :=
  match s.view64 p inst (r.start o) with
  | some v => v
  | none => match s.view32 p inst o with
    | some v => v.setWidth 64
    | none => s.regVal p inst r o &&& BitVec.ofNat 64 (readMask r)

/-- What the 32-bit word at a window offset reads as, without any effect of the read (R47 to R49, R64). -/
def State.view (s : State) (a0 : Nat) : Word32 :=
  let a := a0 / 4 * 4
  if !mapped a then 0
  else if !s.domOn (domainOf a) then 0
  else if isDesc a then
    let n := (a - 0x400000) / 16
    if a % 16 = 8 then s.viewProd n else if a % 16 = 12 then s.viewCons n else s.rd a
  else match pageAt (a / 4096) with
    | none => 0
    | some (p, i) =>
      let o := a % 4096
      if o < 0x040 then s.viewHeader p i o
      else if s.srstBusy a then 0
      else match rowOf p i o with
        | none => 0
        | some r => let v := s.viewRow p i r o
                    if r.wide ∧ o ≠ r.start o then v.extractLsb' 32 32 else v.extractLsb' 0 32

/-! ### Timers (the model's own deadlines) -/

/-- When a timer ends; 0: it is not running. -/
def State.timer (s : State) (k : Nat) : Nat := look (fun _ => 0) s.timers k

/-- A timer started or stopped. -/
def State.setTimer (s : State) (k t : Nat) : State := { s with timers := Machine.store (fun _ => 0) s.timers k t }

/-! ### Events (R555 to R563) -/

/-- Is an event code used (R557 and the chapters it names). -/
def codeUsed (c : Nat) : Bool :=
  c ≤ 3 || (8 ≤ c && c ≤ 10) || (0x10 ≤ c && c ≤ 0x13) || (0x18 ≤ c && c ≤ 0x1E) || (0x20 ≤ c && c ≤ 0x26) ||
  (0x28 ≤ c && c ≤ 0x2B) || (0x30 ≤ c && c ≤ 0x35) || c = 0x38 || (0x40 ≤ c && c ≤ 0x42) || (0x48 ≤ c && c ≤ 0x4A) ||
  (0x50 ≤ c && c ≤ 0x5F) || (0xC0 ≤ c && c ≤ 0xFF)

/-- Snapshot slot i of a record of class c (R559). -/
def State.snap (s : State) (c i : Nat) : Nat :=
  if c = 2 ∧ i < 4 then
    if !s.domOn 11 then 0
    else if i = 0 then s.tsuTime.sec % 2 ^ 32
    else if i = 1 then s.tsuTime.sec / 2 ^ 32 % 2 ^ 16
    else if i = 2 then s.tsuTime.ns
    else s.tsuStat.toNat
  else
    let e := s.bk (pa .evr 0 rEVR_CLS_ADDR) (c + 256 * i)
    if bit e 31 then (s.view (bits e 23 2 * 4)).toNat else 0

/-- A 64-byte record from its fields (R555). -/
def recordOf (seq opsec pcyc code src : Nat) (snaps : List Nat) : Cell512 :=
  BitVec.ofNat 512 (leNat (toLe 4 seq ++ toLe 4 opsec ++ toLe 2 (min pcyc 65535) ++ toLe 1 code ++ toLe 1 src ++
    (List.range 12).flatMap (fun i => toLe 4 (snaps.getD i 0)) ++ toLe 4 seq))

/-- The record of an event as it would be accepted now: the arguments replace slots 8 to 11 when there are any. -/
def State.eventRecord (s : State) (code src : Nat) (args : List Nat) : Cell512 :=
  let seq := (s.rd (pa .evr 0 rEVR_HEAD)).toNat
  recordOf seq (s.rd (pa .evr 0 rEVR_OPSEC)).toNat (s.fld (pa .evr 0 rEVR_PCYC) 15 0) code src
    ((List.range 12).map (fun i => if 8 ≤ i ∧ args ≠ [] then args.getD (i - 8) 0 % 2 ^ 32 else s.snap (code / 8) i))

/-- A flush starts, or is asked for while one runs (R563); always: even if no record waits then. -/
def State.flushStart (s : State) (always : Bool) : State :=
  if !s.domOn 1 then s
  else if s.bitAt (pa .evr 0 rEVR_STAT) 0 then
    { s with evr := { s.evr with again := true, always := s.evr.always || always } }
  else
    { (s.putBit (pa .evr 0 rEVR_STAT) 0 true) with
      evr := { s.evr with run := s.evr.buf.length, wrote := false, bad := [], again := false, always := false, last := s.now } }

/-- A record enters the buffer and takes the next SEQ; 128 records that wait start a flush (R563). -/
def State.enter (s : State) (code src : Nat) (args : List Nat) : State :=
  let s := { s with evr := { s.evr with buf := s.evr.buf ++ [s.eventRecord code src args] } }
  let s := s.bumpMod (pa .evr 0 rEVR_HEAD) 1
  let s := if s.evr.buf.length = 128 then s.flushStart false else s
  if (s.rd (pa .evr 0 rEVR_HEAD)).toNat = 0xFFFFFFFF then
    (s.putBit (pa .evr 0 rEVR_STAT) 1 true).cause .evr 0 4
  else s

/-- A record that is not accepted (R560): EVR_LOST, the internal count, LOST. -/
def State.loseRecord (s : State) : State :=
  let s := ((s.bump (pa .evr 0 rEVR_LOST) 1).cause .evr 0 2).irq .evr 0 1
  { s with evr := { s.evr with lost := s.evr.lost + 1 } }

/-- An event recorded (R556 to R560); nothing is recorded while SYS, which holds the recorder, is off, and no record is accepted before the
restore of R564 has set EVR_HEAD (log entry 26). -/
def State.event (s : State) (code src : Nat) (args : List Nat) : State :=
  if !s.domOn 1 then s
  else if !codeUsed code then s.bump (pa .evr 0 rEVR_LOST) 1
  else if s.rd (pa .evr 0 rEVR_HEAD) = 0 then s.loseRecord
  else if s.bitAt (pa .evr 0 rEVR_STAT) 1 then s.loseRecord
  else if s.evr.lost = 0 then (if 256 ≤ s.evr.buf.length then s.loseRecord else s.enter code src args)
  else if 255 ≤ s.evr.buf.length then s.loseRecord
  else
    let s1 := s.enter 0x01 0x41 [s.evr.lost]
    let s2 := { s1 with evr := { s1.evr with lost := 0 } }
    if s2.bitAt (pa .evr 0 rEVR_STAT) 1 then s2.loseRecord else s2.enter code src args

/-- Does the Lanyard run its firmware: MGMT on, the boot ROM has handed over, its cores neither held nor halted (R526, R629, R654). -/
def State.lanyRuns (s : State) : Bool :=
  s.domOn 2 && s.fld (pa .rst 0 rRST_BOOT) 2 0 = 3 && !s.bitAt (pa .wdog 0 rLNY_STAT) 0 && !s.lany.halted

/-- Does the normal context run: the safety context does not (R525). -/
def State.normalRuns (s : State) : Bool := s.lanyRuns && !s.bitAt (pa .wdog 0 rLNY_STAT) 1

/-- A notice kept for ring 2 (R533): of 257 the oldest is dropped. code: the event or report it comes with. -/
def State.notify (s : State) (code : Nat) (body : List Nat) : State :=
  if !s.domOn 2 ∨ s.bitAt (pa .wdog 0 rLNY_STAT) 0 then s
  else
    let full := decide (256 ≤ s.lany.notices.length)
    let l := if full then s.lany.notices.drop 1 else s.lany.notices
    { s with lany := { s.lany with notices := l ++ [(code, (s.lany.count, body))], count := s.lany.count + 1
                                   dropped := s.lany.dropped + full.toNat } }

/-- The events that come with a notice (R533, R536, R539, R588, R602, R605, R608, R620): lay switches and HELD, sensor crossings, host
watchdog expiries, domains that failed, and what the update chapter reports. -/
def noticeCode (c : Nat) : Bool := [0x19, 0x21, 0x22, 0x40, 0x41, 0x59, 0x5A, 0x5E].contains c

/-- An event of the Lanyard's (SRC 0x40), with its notice where there is one. -/
def State.lanyEvent (s : State) (code : Nat) (args : List Nat) : State :=
  let s := s.event code 0x40 args
  if noticeCode code then s.notify code args else s

/-- An event of a lay's (SRC 0x80 + n), with its notice where there is one. -/
def State.layEvent (s : State) (lay code : Nat) (args : List Nat) : State :=
  let s := s.event code (0x80 + lay) args
  if noticeCode code then s.notify code (lay :: args) else s

end Sys2Proof.Machine
end

