-- ==== Sys2Proof/Machine/Access.lean ====
section
/-! DEFINITION. Accesses to the register window by the rules that hold for every register (R10 to R16, R48 to R66): the
fields of a write, read-to-clear, the latches and shadows of 64-bit registers, the page header. -/

namespace Sys2Proof.Machine

/-- One field of a register after a write (R10, R11, R15). -/
def mergeField (v old : Nat) (f : Field) : Nat :=
  let x := nbits v f.hi f.lo
  let put (y : Nat) : Nat := (putBits (BitVec.ofNat 64 old) f.hi f.lo y).toNat
  match f.acc with
  | .rw => if f.least ≤ x ∧ x ≤ f.most then put x else old
  | .w1c => put (nbits old f.hi f.lo - (nbits old f.hi f.lo &&& x))
  | .w1s => put (nbits old f.hi f.lo ||| x)
  | _ => old

/-- A register after a write of v. -/
def mergeReg (fs : List Field) (old v : Nat) : Nat := fs.foldl (mergeField v) old

/-- A stored register set whole, in its bank where it is behind a selector. -/
def State.setVal (s : State) (p : Pg) (inst : Nat) (r : RegRow) (o : Nat) (v : Word64) : State :=
  let a := pa p inst (r.start o)
  match selector p (r.start o) with
  | some sel => s.setBk a (s.selIdx a sel) v
  | none => if r.wide then s.wr64 a v else s.wr a (v.extractLsb' 0 32)

/-- A write of a whole register, 32 or 64 bits, field by field. -/
def State.plain (s : State) (a : Nat) (v : Word64) : State :=
  match pageAt (a / 4096) with
  | none => s
  | some (p, i) => match rowOf p i (a % 4096) with
    | none => s
    | some r => s.setVal p i r (a % 4096)
        (BitVec.ofNat 64 (mergeReg r.fields (s.regVal p i r (a % 4096)).toNat v.toNat))

/-- Is the register at a window offset 64 bits wide (R55). -/
def isWide (a : Nat) : Bool :=
  !isDesc a && match pageAt (a / 4096) with
  | none => false
  | some (p, _) => (rowAt p (a % 4096)).any (·.wide)

/-- The low half's offset of the 64-bit register that holds a (R55). -/
def lowHalf (a : Nat) : Nat := a / 8 * 8

/-- The key of a requester's latch or shadow of a register (R56, R57). -/
def pairKey (q : Requester) (a : Nat) : Nat := reqCode q * 2 ^ 24 + lowHalf a

/-- A 64-bit register as it reads. -/
def State.viewWide (s : State) (a : Nat) : Word64 := (s.view (lowHalf a + 4)).append (s.view (lowHalf a))

/-- The clear-on-read effect of a register (R12): its RC fields become 0, all bits of a 64-bit register together. -/
def State.clearRc (s : State) (a : Nat) : State :=
  match pageAt (a / 4096) with
  | none => s
  | some (p, i) => match rowAt p (a % 4096) with
    | none => s
    | some r =>
      if r.fields.any (fun f => f.acc = .rc) && s.domOn (pageDomain p i) && !s.srstBusy a && a % 4096 ≥ 0x040 then
        s.setVal p i r (a % 4096) (r.fields.foldl
          (fun v f => if f.acc = .rc then putBits v f.hi f.lo 0 else v) (s.regVal p i r (a % 4096)))
      else s

/-- The read latch loaded (R56). -/
def State.setLatch (s : State) (q : Requester) (a : Nat) (v : Word32) : State :=
  { s with latch := Machine.store (fun _ => 0) s.latch (pairKey q a) v }

/-- A 32-bit read (R47 to R49, R56): the data, the latch of the reader, and clear on read. A high half reads the latch. -/
def State.read32 (s : State) (q : Requester) (a : Nat) : State :=
  if isWide a then
    if a % 8 = 0 then
      let v := s.viewWide a
      ({ s.setLatch q a (v.extractLsb' 32 32) with rdata := (v.extractLsb' 0 32).setWidth 64 }).clearRc a
    else { s with rdata := (look (fun _ => (0 : Word32)) s.latch (pairKey q a)).setWidth 64 }
  else ({ s with rdata := (s.view a).setWidth 64 }).clearRc a

/-- A 64-bit read of a 64-bit register, which loads the latch too (R56). -/
def State.read64 (s : State) (q : Requester) (a : Nat) : State :=
  let v := s.viewWide a
  ({ s.setLatch q a (v.extractLsb' 32 32) with rdata := v }).clearRc a

/-- The write shadow filled and marked valid (R57). -/
def State.setShadow (s : State) (q : Requester) (a : Nat) (v : Word32) : State :=
  { s with shadow := place (pairKey q a) v (drop s.shadow (pairKey q a)) }

/-- The writer's valid shadow. -/
def State.shadowOf (s : State) (q : Requester) (a : Nat) : Option Word32 :=
  (s.shadow.find? (fun e => e.1 = pairKey q a)).map (·.2)

/-- The shadow marked not valid. -/
def State.dropShadow (s : State) (q : Requester) (a : Nat) : State := { s with shadow := drop s.shadow (pairKey q a) }

/-! ### Page header -/

/-- Every 32-bit offset of a page's block-specific registers returned to reset (R64). -/
def State.pageReset (s : State) (p : Pg) (inst : Nat) : State :=
  let b := pa p inst 0
  { s with
    regs := dropRange s.regs (b + 0x040) (b + 0x1000)
    bank := dropRange s.bank ((b + 0x040) * 2 ^ 20) ((b + 0x1000) * 2 ^ 20)
    latch := s.latch.filter (fun e => !(b ≤ e.1 % 2 ^ 24 && e.1 % 2 ^ 24 < b + 0x1000))
    shadow := s.shadow.filter (fun e => !(b ≤ e.1 % 2 ^ 24 && e.1 % 2 ^ 24 < b + 0x1000)) }

/-- The effect of a soft reset on the page's registers (R64): EN, BLK_ERR, BLK_ERR_INJ, BLK_IRQ_STAT and the
block-specific registers return to reset; the enables, the lock and the claim stay. -/
def State.softReset (s : State) (p : Pg) (inst : Nat) : State :=
  let s := s.pageReset p inst
  let s := s.wr (pa p inst 0x00C) (Sys2Proof.putBit (regReset (pa p inst 0x00C)) 2 (s.bitAt (pa p inst 0x02C) 31))
  let s := ((s.wr (pa p inst 0x014) 0).wr (pa p inst 0x01C) 0).wr (pa p inst 0x020) 0
  s.wr (pa p inst 0x010) (Sys2Proof.putBit (regReset (pa p inst 0x010)) 1 true)

/-- A page at its reset values, header included: its domain has been turned off or on (R49). -/
def State.pageOff (s : State) (p : Pg) (inst : Nat) : State :=
  let b := pa p inst 0
  let s := s.pageReset p inst
  { s with regs := dropRange s.regs b (b + 0x1000), timers := dropRange s.timers b (b + 0x1000)
           results := dropRange s.results b (b + 0x1000), outputs := s.outputs.filter (fun e => e.1 < b || b + 0x1000 ≤ e.1) }

/-- The lock taken (R65); a STICKY that stands holds it. -/
def State.takeLock (s : State) (q : Requester) (a : Nat) : State :=
  if s.locked a then s
  else (s.putBit (hdr a 0x00C) 2 true).wr (hdr a 0x02C)
    (BitVec.ofNat 32 (2 ^ 31 + (s.bitAt (hdr a 0x02C) 30).toNat * 2 ^ 30 + reqCode q * 2 ^ 27))

/-- The lock released (R65). -/
def State.freeLock (s : State) (a : Nat) : State := (s.putBit (hdr a 0x00C) 2 false).wr (hdr a 0x02C) 0

/-- A claim (R66), by a requester whom no other holder stops. -/
def State.claim (s : State) (q : Requester) (a tag : Nat) : State :=
  s.wr (hdr a 0x030) (BitVec.ofNat 32 (2 ^ 31 + reqCode q * 2 ^ 16 + tag % 2 ^ 16))

end Sys2Proof.Machine
end

