-- ==== Sys2Proof/Machine/Strands.lean ====
section
/-! DEFINITION. What a strand's operations share (03_strand_engines.md): error causes and taint, checked memory reads, the
divider, branches, data-memory and lay-memory accesses, and the results that a lay cycle completes. -/

namespace Sys2Proof.Machine

/-- The failing causes of the table of STRAND BLK_ERR fields (R126). -/
def failing (i : Nat) : Bool := i ≠ 0 && i ≠ 2 && i ≠ 17

/-- The guard causes (R126, R176): KEY_LATE, WHEEL_MISS, CHK, POP_EMPTY, OVERRUN. -/
def guardCause (i : Nat) : Bool := i = 9 || i = 13 || i = 14 || i = 15 || i = 16

/-- A failing cause taints the strand and latches the first in STR_FAIL (R117, R118). -/
def State.taint (s : State) (n i : Nat) : State :=
  let s := s.setStr n { s.str n with tainted := true }
  if s.bitAt (pa .strand n rSTR_FAIL) 31 then s
  else s.wr (pa .strand n rSTR_FAIL) (BitVec.ofNat 32 (2 ^ 31 + i * 2 ^ 16 + s.tcyc (n / 16) % 2 ^ 16))

/-- A cause of strand n (R117, R118, R176): its BLK_ERR bit; taint when failing; the guard's count and event. -/
def State.strandCause (s : State) (n i : Nat) : State :=
  let s := s.cause .strand n i
  let s := if failing i then s.taint n i else s
  if guardCause i then
    (s.bump (pa .lay (n / 16) rLAY_GUARD_CNT) 1).layEvent (n / 16) 0x23 [n % 16, i, s.tcyc (n / 16)]
  else s

/-- The strand issues in the lay's current variant (R122). -/
def State.issuing (s : State) (n : Nat) : Bool := s.laySt (n / 16) = 3 && s.inVariant (n / 16) (n % 16)

/-- A memory word of a strand read with condition c (R120 to R122): recorded and raised. dm: data memory; addr: the byte
address of the word. Only a scrubber's read is exempt from the taint while the strand does not issue: a load-port read that finds an
uncorrectable word taints in every state (DEDUCED, log entry 34). -/
def State.strandEcc (s : State) (n : Nat) (dm scrub : Bool) (addr c : Nat) : State :=
  if c = 0 then s
  else
    let s := s.wr (pa .strand n rSTR_ECC_ADDR)
      (BitVec.ofNat 32 (2 ^ 31 + (c = 2 : Bool).toNat * 2 ^ 30 + dm.toNat * 2 ^ 29 + scrub.toNat * 2 ^ 28 + addr))
    if c = 1 then (s.cause .strand n (2 * dm.toNat)).bump (pa .strand n rSTR_CE_COUNT) 1
    else if scrub && !s.issuing n then s.cause .strand n (1 + 2 * dm.toNat)
    else s.strandCause n (1 + 2 * dm.toNat)

/-- The memory of a strand: data or instruction. -/
def strandSpace (n : Nat) (dm : Bool) : Space := if dm then .dmem (n / 16) (n % 16) else .imem (n / 16) (n % 16)

/-- One 8-byte word of a strand's memory read and checked (R120, R121, R127): its condition. -/
def State.readStrandWord (s : State) (n : Nat) (dm scrub : Bool) (addr : Nat) : Nat × State :=
  let (i, s) := s.inject .strand n (2 * dm.toNat) (1 + 2 * dm.toNat)
  let c := min 2 (s.eccOf (strandSpace n dm) addr + i)
  (c, s.strandEcc n dm scrub addr c)

/-- One step of a scrubber (R122): the word read, and written back when it was corrected. -/
def State.scrubStrandWord (s : State) (n : Nat) (dm : Bool) (w : Nat) : State :=
  let (c, s) := s.readStrandWord n dm true (8 * w)
  if c = 1 then s.setEcc (strandSpace n dm) (8 * w) 0 else s

/-- The marks of the memories in use in a lay cycle cleared with it; a lay that runs or is held clears them where its cycle ends. -/
def State.freeScrub (s : State) (n : Nat) : State :=
  if s.laySt (n / 16) = 3 ∨ s.laySt (n / 16) = 4 then s else s.setStr n { s.str n with dmUsed := false, imUsed := false }

/-- Both scrubbers of a strand in one lay cycle (R122): a memory read by the load port or the debug port in it, and the data memory that
an issued MEM operation addresses, is not scrubbed in the cycle. -/
def State.strandScrub (s : State) (n : Nat) : State :=
  let used := s.str n
  let s := s.freeScrub n
  let s := if used.dmUsed then s else
    let w := (s.str n).dmScrub
    let s := s.scrubStrandWord n true w
    s.setStr n { s.str n with dmScrub := (w + 1) % 16384 }
  if used.imUsed then s else
    let w := (s.str n).imScrub
    let s := s.scrubStrandWord n false w
    s.setStr n { s.str n with imScrub := (w + 1) % 16384 }

/-! ### Data memory and lay shared memory (R95 to R99) -/

/-- What a load writes: a pair, or one register zero- or sign-extended (R93). -/
def loadWrites (size : Nat) (sext : Bool) (d v : Nat) : List (Nat × Word64) :=
  if size = 16 then pairWrites d (BitVec.ofNat 128 v)
  else if sext then [(d, (BitVec.ofNat (8 * size) v).signExtend 64)]
  else [(d, BitVec.ofNat 64 v)]

/-- The data-memory words an access touches, each checked. -/
def State.readDmem (s : State) (n addr size : Nat) : State :=
  let s := s.setStr n { s.str n with dmUsed := true }
  let s := (s.readStrandWord n true false (addr / 8 * 8)).2
  if size = 16 then (s.readStrandWord n true false (addr / 8 * 8 + 8)).2 else s

/-- The aligned effective address and the state after ALIGN (R93, R97). -/
def State.align (s : State) (n ea size : Nat) : State := if ea % size = 0 then s else s.strandCause n 5

/-- A load issued (R93 to R98). -/
def State.load (x : Issue) (size : Nat) (sext : Bool) (d a : BitVec 6) (imm : BitVec 10) (s : State) : State :=
  s.when x fun s =>
    let n := issueNo x
    let ea := effAddr ((s.str n).reg a.toNat) imm size
    let s := s.align n ea size
    match memTarget (ea / size * size) with
    | .nowhere => (s.strandCause n 4).fly x 2 2 (.regs (loadWrites size false d.toNat 0))
    | .data m =>
      let v := s.le (.dmem x.lay.val x.strand.val) m size
      (s.readDmem n m size).fly x 2 2 (.regs (loadWrites size sext d.toNat v))
    | .shared m =>
      if s.wheelGrant x.lay.val (s.tcyc x.lay.val) (m / 2 ^ 19 % 8) = some x.strand.val then
        s.fly x 2 4 (.lmemLoad m size sext d.toNat)
      else (s.strandCause n 13).fly x 2 6 (.regs (loadWrites size false d.toNat 0))

/-- The value a store stores: a pair, or the low bytes of a register. -/
def storeValue (t : Strand) (d size : Nat) : Nat :=
  if size = 16 then (t.pair d).toNat else (t.reg d).toNat % 2 ^ (8 * size)

/-- A store issued (R93 to R98). -/
def State.storeOp (x : Issue) (size : Nat) (d a : BitVec 6) (imm : BitVec 10) (s : State) : State :=
  s.when x fun s =>
    let n := issueNo x
    let v := storeValue (s.str n) d.toNat size
    let ea := effAddr ((s.str n).reg a.toNat) imm size
    let s := s.align n ea size
    match memTarget (ea / size * size) with
    | .nowhere => s.strandCause n 4
    | .data m => (s.setStr n { s.str n with dmUsed := true }).fly x 2 1 (.dmemStore m size v)
    | .shared m =>
      if s.wheelGrant x.lay.val (s.tcyc x.lay.val) (m / 2 ^ 19 % 8) = some x.strand.val then
        s.fly x 2 4 (.lmemStore m size v)
      else s.strandCause n 13

/-- Bytes stored with their words' check bits made good where a whole word is written. A store of fewer bytes leaves the condition of its word
as it is and checks nothing (DESIGN CHOICE, log entry 34: R120 does not say whether it reads the word). -/
def State.storeBytes (s : State) (sp : Space) (a size v : Nat) : State :=
  let s := s.setLe sp a size v
  let s := if 8 ≤ size then s.setEcc sp a 0 else s
  if size = 16 then s.setEcc sp (a + 8) 0 else s

/-- A word of lay shared memory read with condition c (R181). -/
def State.lmemFound (s : State) (lay : Nat) (scrub : Bool) (addr c : Nat) : State :=
  if c = 0 then s
  else
    let s := s.wr (pa .lay lay rLAY_LMEM_ECC)
      (BitVec.ofNat 32 (2 ^ 31 + (c = 2 : Bool).toNat * 2 ^ 30 + scrub.toNat * 2 ^ 29 + addr / 8 * 8 % 2 ^ 22))
    if c = 1 then (s.cause .lay lay 0).bump (pa .lay lay rLAY_LMEM_CE_CNT) 1 else s.cause .lay lay 1

/-- One word of lay shared memory read and checked (R181, R710): its condition. -/
def State.readLmemWord (s : State) (lay : Nat) (scrub : Bool) (addr : Nat) : Nat × State :=
  let (i, s) := s.inject .lay lay 0 1
  let c := min 2 (s.eccOf (.lmem lay) addr + i)
  (c, s.lmemFound lay scrub addr c)

/-- The words of an access to lay shared memory, each checked. -/
def State.readLmem (s : State) (lay addr size : Nat) : State :=
  let s := (s.readLmemWord lay false (addr / 8 * 8)).2
  if size = 16 then (s.readLmemWord lay false (addr / 8 * 8 + 8)).2 else s

/-! ### Divider and branches -/

/-- A division occupies the divider (R91): one under 34 cycles old is abandoned and DIV_CLASH raised, guard or no guard. -/
def State.occupyDivider (s : State) (x : Issue) : State :=
  let n := issueNo x
  let c := s.cyc x
  let s := match (s.str n).divAt with
    | some c0 => if c < c0 + 34 then
        (s.setStr n { s.str n with flight := (s.str n).flight.filter (fun f => !f.isDiv) }).strandCause n 7 else s
    | none => s
  s.setStr n { s.str n with divAt := some c }

/-- A division issued (R90, R91). -/
def State.division (x : Issue) (d a b : BitVec 6) (f : Word64 → Word64 → Word64) (s : State) : State :=
  let n := issueNo x
  let v := f ((s.str n).reg a.toNat) ((s.str n).reg b.toNat)
  let go := s.exec? x
  let s := s.occupyDivider x
  if go then
    s.setStr n { s.str n with
      flight := (s.str n).flight ++ [⟨s.cyc x + 33, 1, s.cyc x, true, .regs [(d.toNat, v)]⟩] }
  else s

/-- A branch issued (R79): two empty cycles follow it whatever its guard; taken, it sets the next bundle. -/
def State.branch (x : Issue) (target : Nat) (s : State) : State :=
  let n := issueNo x
  let t := s.str n
  s.setStr n { t with gap := 2, fetched := true, target := if s.exec? x then some (target % 8192) else none }

/-! ### Results that a cycle completes (R76, R77, R102, R116) -/

/-- Registers written. -/
def setRegs (t : Strand) (ws : List (Nat × Word64)) : Strand := ws.foldl (fun t w => t.setReg w.1 w.2) t

/-- Predicates written. -/
def setPreds (t : Strand) (ws : List (Nat × Bool)) : Strand := ws.foldl (fun t w => t.setPred w.1 w.2) t

/-- One operation in flight acts at the end of its cycle. -/
def State.complete (s : State) (n : Nat) (f : Flight) : State :=
  let t := s.str n
  match f.late with
  | .regs ws => s.setStr n (setRegs t ws)
  | .preds ws => s.setStr n (setPreds t ws)
  | .accAdd v => s.setStr n { t with acc := t.acc + v }
  | .accClear => s.setStr n { t with
      acc := 0
      flight := t.flight.filter (fun g => match g.late with | .accAdd _ => f.issued ≤ g.issued | _ => true) }
  | .dmemStore a size v => s.storeBytes (.dmem (n / 16) (n % 16)) a size v
  | .lmemStore a size v => s.storeBytes (.lmem (n / 16)) a size v
  | .lmemLoad a size sext d =>
    let v := s.le (.lmem (n / 16)) a size
    let s := s.readLmem (n / 16) a size
    let t := s.str n
    s.setStr n { t with flight := t.flight ++ [⟨f.due + 2, f.rank, f.issued, false, .regs (loadWrites size sext d v)⟩] }
  | .commit sp c => s.strandCommit sp (if t.tainted then BitVec.ofNat 512 (c.toNat ||| 2 ^ 62) else c)

/-- A commit: the splice it goes to. -/
def Flight.target (f : Flight) : Option Nat := match f.late with
  | .commit sp _ => some sp
  | _ => none

/-- The commits of a lay that end with its cycle c, by ascending splice, so that of two splices overrun in one cycle the lower-numbered is
latched (R209): strand and operation. -/
def State.dueCommits (s : State) (lay c : Nat) : List (Nat × Flight) :=
  let l := (List.range 16).flatMap (fun k =>
    let n := strandNo lay k
    ((s.str n).flight.filter (fun f => decide (f.due ≤ c) && f.target.isSome)).map (fun f => (n, f)))
  l.insertionSort (fun x y => x.2.target.getD 0 ≤ y.2.target.getD 0)

/-- The operations of a strand that end with lay cycle c act, but for its commits, in the order of R77: slot by slot from ALU-A to XU, the
earlier issue first, so that the last to write is the one R77 keeps. -/
def State.retireStrand (s : State) (n c : Nat) : State :=
  let due := (s.str n).flight.filter (fun f => decide (f.due ≤ c) && f.target.isNone)
  let s := s.setStr n { s.str n with flight := (s.str n).flight.filter (fun f => decide (c < f.due) || f.target.isSome) }
  (List.range 4).foldl (fun s r => (due.filter (fun f => f.rank = r)).foldl (fun s f => s.complete n f) s) s

/-- The commits of a lay that end with its cycle c (R102, R209). -/
def State.retireCommits (s : State) (lay c : Nat) : State :=
  let l := s.dueCommits lay c
  let s := (List.range 16).foldl (fun s k =>
    let n := strandNo lay k
    s.setStr n { s.str n with flight := (s.str n).flight.filter (fun f => decide (c < f.due) || f.target.isNone) }) s
  l.foldl (fun s e => s.complete e.1 e.2) s

end Sys2Proof.Machine
end

