-- ==== Sys2Proof/Machine/Alu.lean ====
section
/-! DEFINITION. The ALU-A and ALU-B operations (R87 to R92). -/

namespace Sys2Proof.Machine

/-- A latency-1 operation on two registers; u: ALU-B (R87). -/
def State.alu2 (x : Issue) (u : Bool) (d a b : BitVec 6) (f : Word64 → Word64 → Word64) (s : State) : State :=
  s.when x fun s => let t := s.ofIssue x
                    s.flyReg x u.toNat 1 d.toNat (f (t.reg a.toNat) (t.reg b.toNat))

/-- A latency-1 operation on one register (R87). -/
def State.alu1 (x : Issue) (u : Bool) (d a : BitVec 6) (f : Word64 → Word64) (s : State) : State :=
  s.when x fun s => s.flyReg x u.toNat 1 d.toNat (f ((s.ofIssue x).reg a.toNat))

/-- A compare of two registers into a predicate (R87). -/
def State.cmp2 (x : Issue) (u : Bool) (pd : BitVec 3) (a b : BitVec 6) (f : Word64 → Word64 → Bool) (s : State) : State :=
  s.when x fun s => let t := s.ofIssue x
                    s.fly x u.toNat 1 (.preds [(pd.toNat, f (t.reg a.toNat) (t.reg b.toNat))])

/-- A compare of a register with an immediate into a predicate (R87). -/
def State.cmp1 (x : Issue) (u : Bool) (pd : BitVec 3) (a : BitVec 6) (f : Word64 → Bool) (s : State) : State :=
  s.when x fun s => s.fly x u.toNat 1 (.preds [(pd.toNat, f ((s.ofIssue x).reg a.toNat))])

/-- Predicate logic (R87). -/
def State.plogic (x : Issue) (u : Bool) (pd p1 p2 : BitVec 3) (f : Bool → Bool → Bool) (s : State) : State :=
  s.when x fun s => let t := s.ofIssue x
                    s.fly x u.toNat 1 (.preds [(pd.toNat, f (t.pred p1.toNat) (t.pred p2.toNat))])

/-- The shift count: bits 5:0 (R87). -/
def shiftBy (b : Word64) : Nat := b.toNat % 64

/-- The bytes of the low n bytes of a word reversed, zero-extended (R87). -/
def swapBytes (n : Nat) (a : Word64) : Word64 := BitVec.ofNat 64 (beNat (toLe n a.toNat))

/-- The number of leading zero bits, 0 to 64 (R87). -/
def clz64 (a : Word64) : Nat := if a.toNat = 0 then 64 else 63 - Nat.log2 a.toNat

/-- The number of 1 bits (R87). -/
def popc64 (a : Word64) : Nat := (List.range 64).countP (fun i => a.getLsbD i)

/-- Bits 16h + 15:16h of a word replaced (R87). -/
def movk (h : Nat) (a : Word64) (imm : BitVec 16) : Word64 := putBits a (16 * h + 15) (16 * h) imm.toNat

/-- The full product's bits 63:0, 127:64 unsigned, 127:64 signed (R88). -/
def mulLo (a b : Word64) : Word64 := a * b
/-- Bits 127:64 of the unsigned product. -/
def mulHiU (a b : Word64) : Word64 := (a.setWidth 128 * b.setWidth 128).extractLsb' 64 64
/-- Bits 127:64 of the signed product. -/
def mulHiS (a b : Word64) : Word64 := (a.signExtend 128 * b.signExtend 128).extractLsb' 64 64

/-- A latency-3 operation in ALU-A (R88). -/
def State.mulOp (x : Issue) (d a b : BitVec 6) (f : Word64 → Word64 → Word64) (s : State) : State :=
  s.when x fun s => let t := s.ofIssue x
                    s.flyReg x 0 3 d.toNat (f (t.reg a.toNat) (t.reg b.toNat))

/-- Unsigned division with the case B = 0 of R90. -/
def divU (a b : Word64) : Word64 := if b = 0 then BitVec.allOnes 64 else a / b
/-- Signed division with the cases of R90. -/
def divS (a b : Word64) : Word64 := if b = 0 then (if a.msb then 1 else BitVec.allOnes 64) else a.sdiv b
/-- Unsigned remainder with the case B = 0 of R90. -/
def remU (a b : Word64) : Word64 := if b = 0 then a else a % b
/-- Signed remainder with the cases of R90. -/
def remS (a b : Word64) : Word64 := if b = 0 then a else a.srem b

/-- NOP (R83): nothing; a word with an operand bit set, or with an opcode its slot does not list, raises RSVD_OP when its
guard is true. -/
def execNop (x : Issue) (_u : Slot) (w : BitVec 28) (s : State) : Res :=
  .next (s.when x fun s => if w = 0 then s else s.strandCause (issueNo x) 6)

/-- ADD (R87). -/
def execAdd (x : Issue) (u : Bool) (d a b : BitVec 6) (s : State) : Res := .next (s.alu2 x u d a b (fun p q => p + q))
/-- SUB (R87). -/
def execSub (x : Issue) (u : Bool) (d a b : BitVec 6) (s : State) : Res := .next (s.alu2 x u d a b (fun p q => p - q))
/-- AND (R87). -/
def execAnd (x : Issue) (u : Bool) (d a b : BitVec 6) (s : State) : Res := .next (s.alu2 x u d a b (fun p q => p &&& q))
/-- OR (R87). -/
def execOr (x : Issue) (u : Bool) (d a b : BitVec 6) (s : State) : Res := .next (s.alu2 x u d a b (fun p q => p ||| q))
/-- XOR (R87). -/
def execXor (x : Issue) (u : Bool) (d a b : BitVec 6) (s : State) : Res := .next (s.alu2 x u d a b (fun p q => p ^^^ q))
/-- ANDN (R87). -/
def execAndn (x : Issue) (u : Bool) (d a b : BitVec 6) (s : State) : Res :=
  .next (s.alu2 x u d a b (fun p q => p &&& ~~~q))
/-- SHL (R87). -/
def execShl (x : Issue) (u : Bool) (d a b : BitVec 6) (s : State) : Res :=
  .next (s.alu2 x u d a b (fun p q => p <<< shiftBy q))
/-- SHR (R87). -/
def execShr (x : Issue) (u : Bool) (d a b : BitVec 6) (s : State) : Res :=
  .next (s.alu2 x u d a b (fun p q => p >>> shiftBy q))
/-- SAR (R87). -/
def execSar (x : Issue) (u : Bool) (d a b : BitVec 6) (s : State) : Res :=
  .next (s.alu2 x u d a b (fun p q => p.sshiftRight (shiftBy q)))
/-- ROR (R87). -/
def execRor (x : Issue) (u : Bool) (d a b : BitVec 6) (s : State) : Res :=
  .next (s.alu2 x u d a b (fun p q => p.rotateRight (shiftBy q)))
/-- SEL (R87). -/
def execSel (x : Issue) (u : Bool) (d a b : BitVec 6) (p : BitVec 3) (s : State) : Res :=
  .next (s.alu2 x u d a b (fun v w => if (s.ofIssue x).pred p.toNat then v else w))
/-- MINU (R87). -/
def execMinu (x : Issue) (u : Bool) (d a b : BitVec 6) (s : State) : Res :=
  .next (s.alu2 x u d a b (fun p q => if p.ult q then p else q))
/-- MAXU (R87). -/
def execMaxu (x : Issue) (u : Bool) (d a b : BitVec 6) (s : State) : Res :=
  .next (s.alu2 x u d a b (fun p q => if p.ult q then q else p))
/-- MINS (R87). -/
def execMins (x : Issue) (u : Bool) (d a b : BitVec 6) (s : State) : Res :=
  .next (s.alu2 x u d a b (fun p q => if p.slt q then p else q))
/-- MAXS (R87). -/
def execMaxs (x : Issue) (u : Bool) (d a b : BitVec 6) (s : State) : Res :=
  .next (s.alu2 x u d a b (fun p q => if p.slt q then q else p))
/-- ADDI (R87). -/
def execAddi (x : Issue) (u : Bool) (d a : BitVec 6) (imm : BitVec 10) (s : State) : Res :=
  .next (s.alu1 x u d a (fun p => p + imm64 imm))
/-- ANDI (R87). -/
def execAndi (x : Issue) (u : Bool) (d a : BitVec 6) (imm : BitVec 10) (s : State) : Res :=
  .next (s.alu1 x u d a (fun p => p &&& imm64 imm))
/-- ORI (R87). -/
def execOri (x : Issue) (u : Bool) (d a : BitVec 6) (imm : BitVec 10) (s : State) : Res :=
  .next (s.alu1 x u d a (fun p => p ||| imm64 imm))
/-- XORI (R87). -/
def execXori (x : Issue) (u : Bool) (d a : BitVec 6) (imm : BitVec 10) (s : State) : Res :=
  .next (s.alu1 x u d a (fun p => p ^^^ imm64 imm))
/-- SHLI (R87). -/
def execShli (x : Issue) (u : Bool) (d a n : BitVec 6) (s : State) : Res :=
  .next (s.alu1 x u d a (fun p => p <<< n.toNat))
/-- SHRI (R87). -/
def execShri (x : Issue) (u : Bool) (d a n : BitVec 6) (s : State) : Res :=
  .next (s.alu1 x u d a (fun p => p >>> n.toNat))
/-- SARI (R87). -/
def execSari (x : Issue) (u : Bool) (d a n : BitVec 6) (s : State) : Res :=
  .next (s.alu1 x u d a (fun p => p.sshiftRight n.toNat))
/-- RORI (R87). -/
def execRori (x : Issue) (u : Bool) (d a n : BitVec 6) (s : State) : Res :=
  .next (s.alu1 x u d a (fun p => p.rotateRight n.toNat))
/-- MOVZ (R87). -/
def execMovz (x : Issue) (u : Bool) (d : BitVec 6) (imm : BitVec 16) (s : State) : Res :=
  .next (s.alu1 x u d d (fun _ => imm.setWidth 64))
/-- MOVK0 (R87). -/
def execMovk0 (x : Issue) (u : Bool) (d : BitVec 6) (imm : BitVec 16) (s : State) : Res :=
  .next (s.alu1 x u d d (fun p => movk 0 p imm))
/-- MOVK1 (R87). -/
def execMovk1 (x : Issue) (u : Bool) (d : BitVec 6) (imm : BitVec 16) (s : State) : Res :=
  .next (s.alu1 x u d d (fun p => movk 1 p imm))
/-- MOVK2 (R87). -/
def execMovk2 (x : Issue) (u : Bool) (d : BitVec 6) (imm : BitVec 16) (s : State) : Res :=
  .next (s.alu1 x u d d (fun p => movk 2 p imm))
/-- MOVK3 (R87). -/
def execMovk3 (x : Issue) (u : Bool) (d : BitVec 6) (imm : BitVec 16) (s : State) : Res :=
  .next (s.alu1 x u d d (fun p => movk 3 p imm))
/-- BSWAP (R87): m is the sub-field X, 0 to 2. -/
def execBswap (x : Issue) (u : Bool) (d a : BitVec 6) (m : Fin 3) (s : State) : Res :=
  .next (s.alu1 x u d a (fun p => swapBytes (if m = 0 then 8 else if m = 1 then 4 else 2) p))
/-- CLZ (R87). -/
def execClz (x : Issue) (u : Bool) (d a : BitVec 6) (s : State) : Res :=
  .next (s.alu1 x u d a (fun p => BitVec.ofNat 64 (clz64 p)))
/-- POPC (R87). -/
def execPopc (x : Issue) (u : Bool) (d a : BitVec 6) (s : State) : Res :=
  .next (s.alu1 x u d a (fun p => BitVec.ofNat 64 (popc64 p)))
/-- CMPEQ (R87). -/
def execCmpeq (x : Issue) (u : Bool) (pd : BitVec 3) (a b : BitVec 6) (s : State) : Res :=
  .next (s.cmp2 x u pd a b (fun p q => p == q))
/-- CMPNE (R87). -/
def execCmpne (x : Issue) (u : Bool) (pd : BitVec 3) (a b : BitVec 6) (s : State) : Res :=
  .next (s.cmp2 x u pd a b (fun p q => p != q))
/-- CMPLTU (R87). -/
def execCmpltu (x : Issue) (u : Bool) (pd : BitVec 3) (a b : BitVec 6) (s : State) : Res :=
  .next (s.cmp2 x u pd a b (fun p q => p.ult q))
/-- CMPLTS (R87). -/
def execCmplts (x : Issue) (u : Bool) (pd : BitVec 3) (a b : BitVec 6) (s : State) : Res :=
  .next (s.cmp2 x u pd a b (fun p q => p.slt q))
/-- CMPLEU (R87). -/
def execCmpleu (x : Issue) (u : Bool) (pd : BitVec 3) (a b : BitVec 6) (s : State) : Res :=
  .next (s.cmp2 x u pd a b (fun p q => p.ule q))
/-- CMPLES (R87). -/
def execCmples (x : Issue) (u : Bool) (pd : BitVec 3) (a b : BitVec 6) (s : State) : Res :=
  .next (s.cmp2 x u pd a b (fun p q => p.sle q))
/-- CMPEQI (R87). -/
def execCmpeqi (x : Issue) (u : Bool) (pd : BitVec 3) (a : BitVec 6) (imm : BitVec 10) (s : State) : Res :=
  .next (s.cmp1 x u pd a (fun p => p == imm64 imm))
/-- CMPNEI (R87). -/
def execCmpnei (x : Issue) (u : Bool) (pd : BitVec 3) (a : BitVec 6) (imm : BitVec 10) (s : State) : Res :=
  .next (s.cmp1 x u pd a (fun p => p != imm64 imm))
/-- CMPLTUI (R87). -/
def execCmpltui (x : Issue) (u : Bool) (pd : BitVec 3) (a : BitVec 6) (imm : BitVec 10) (s : State) : Res :=
  .next (s.cmp1 x u pd a (fun p => p.ult (imm64 imm)))
/-- CMPLTSI (R87). -/
def execCmpltsi (x : Issue) (u : Bool) (pd : BitVec 3) (a : BitVec 6) (imm : BitVec 10) (s : State) : Res :=
  .next (s.cmp1 x u pd a (fun p => p.slt (imm64 imm)))
/-- TBIT (R87). -/
def execTbit (x : Issue) (u : Bool) (pd : BitVec 3) (a n : BitVec 6) (s : State) : Res :=
  .next (s.cmp1 x u pd a (fun p => p.getLsbD n.toNat))
/-- PAND (R87). -/
def execPand (x : Issue) (u : Bool) (pd p1 p2 : BitVec 3) (s : State) : Res := .next (s.plogic x u pd p1 p2 and)
/-- POR (R87). -/
def execPor (x : Issue) (u : Bool) (pd p1 p2 : BitVec 3) (s : State) : Res := .next (s.plogic x u pd p1 p2 or)
/-- PXOR (R87). -/
def execPxor (x : Issue) (u : Bool) (pd p1 p2 : BitVec 3) (s : State) : Res := .next (s.plogic x u pd p1 p2 xor)
/-- MUL (R88). -/
def execMul (x : Issue) (d a b : BitVec 6) (s : State) : Res := .next (s.mulOp x d a b mulLo)
/-- MULHU (R88). -/
def execMulhu (x : Issue) (d a b : BitVec 6) (s : State) : Res := .next (s.mulOp x d a b mulHiU)
/-- MULHS (R88). -/
def execMulhs (x : Issue) (d a b : BitVec 6) (s : State) : Res := .next (s.mulOp x d a b mulHiS)
/-- SID (R88): the strand number in bits 6:0, the variant in bits 12:8. -/
def execSid (x : Issue) (d : BitVec 6) (s : State) : Res :=
  .next (s.alu1 x false d d (fun _ => BitVec.ofNat 64 (issueNo x + s.variant x.lay.val * 256)))
/-- DIVU (R89 to R91). -/
def execDivu (x : Issue) (d a b : BitVec 6) (s : State) : Res := .next (s.division x d a b divU)
/-- DIVS (R89 to R91). -/
def execDivs (x : Issue) (d a b : BitVec 6) (s : State) : Res := .next (s.division x d a b divS)
/-- REMU (R89 to R91). -/
def execRemu (x : Issue) (d a b : BitVec 6) (s : State) : Res := .next (s.division x d a b remU)
/-- REMS (R89 to R91). -/
def execRems (x : Issue) (d a b : BitVec 6) (s : State) : Res := .next (s.division x d a b remS)
/-- BR (R79, R89). -/
def execBr (x : Issue) (target : BitVec 13) (s : State) : Res := .next (s.branch x target.toNat)
/-- BRL (R79, R89): the address after the branch is written with latency 1; the branch address is the bundle counter's. -/
def execBrl (x : Issue) (d : BitVec 6) (target : BitVec 13) (s : State) : Res :=
  .next ((s.when x fun s => s.flyReg x 1 1 d.toNat (BitVec.ofNat 64 (((s.ofIssue x).pc + 1) % 8192))).branch x target.toNat)
/-- BRR (R79, R89). -/
def execBrr (x : Issue) (a : BitVec 6) (s : State) : Res := .next (s.branch x ((s.ofIssue x).reg a.toNat).toNat)
/-- CHK (R92). -/
def execChk (x : Issue) (imm : BitVec 16) (s : State) : Res :=
  .next (s.when x fun s => if imm.toNat = s.tcyc x.lay.val then s else s.strandCause (issueNo x) 14)
/-- TEND (R80). -/
def execTend (x : Issue) (s : State) : Res :=
  .next (s.when x fun s => s.setStr (issueNo x) { s.ofIssue x with tended := true })

end Sys2Proof.Machine
end

