-- ==== Sys2Proof/Machine/Hash.lean ====
section
/-! DEFINITION. SHA-256 and SHA-384 (FIPS 180-4) and the elliptic-curve arithmetic of P-256 and P-384 (FIPS 186, SEC1) that
the spec cites (R160, R490, R492). PRESUMED from those standards (log entry 9). -/

namespace Sys2Proof.Machine

/-! ### SHA-2 -/

/-- The round constants, constant i in bits 32i + 31:32i. -/
def sha256K : Nat := 0xc67178f2bef9a3f7a4506ceb90befffa8cc7020884c8781478a5636f748f82ee682e6ff35b9cca4f4ed8aa4a391c0cb334b0bcb52748774c1e376c0819a4c116106aa070f40e3585d6990624d192e819c76c51a3c24b8b70a81a664ba2bfe8a192722c8581c2c92e766a0abb650a735453380d134d2c6dfc2e1b213827b70a851429296706ca6351d5a79147c6e00bf3bf597fc7b00327c8a831c66d983e515276f988da5cb0a9dc4a7484aa2de92c6f240ca1cc0fc19dc6efbe4786e49b69c1c19bf1749bdc06a780deb1fe72be5d74550c7dc3243185be12835b01d807aa98ab1c5ed5923f82a459f111f13956c25be9b5dba5b5c0fbcf71374491428a2f98
/-- The round constants, constant i in bits 64i + 63:64i. -/
def sha512K : Nat := 0x6c44198c4a4758175fcb6fab3ad6faec597f299cfc657e2a4cc5d4becb3e42b6431d67c49c100d4c3c9ebe0a15c9bebc32caab7b40c7249328db77f523047d841b710b35131c471b113f9804bef90dae0a637dc5a2c898a606f067aa72176fbaf57d4f7fee6ed178eada7dd6cde0eb1ed186b8c721c0c207ca273eceea26619cc67178f2e372532bbef9a3f7b2c67915a4506cebde82bde990befffa23631e288cc702081a6439ec84c87814a1f0ab7278a5636f43172f60748f82ee5defb2fc682e6ff3d6b2b8a35b9cca4f7763e3734ed8aa4ae3418acb391c0cb3c5c95a6334b0bcb5e19b48a82748774cdf8eeb991e376c085141ab5319a4c116b8d2d0c8106aa07032bbd1b8f40e35855771202ad69906245565a910d192e819d6ef5218c76c51a30654be30c24b8b70d0f89791a81a664bbc423001a2bfe8a14cf1036492722c851482353b81c2c92e47edaee6766a0abb3c77b2a8650a73548baf63de53380d139d95b3df4d2c6dfc5ac42aed2e1b21385c26c92627b70a8546d22ffc142929670a0e6e7006ca6351e003826fd5a79147930aa725c6e00bf33da88fc2bf597fc7beef0ee4b00327c898fb213fa831c66d2db43210983e5152ee66dfab76f988da831153b55cb0a9dcbd41fbd44a7484aa6ea6e4832de92c6f592b0275240ca1cc77ac9c650fc19dc68b8cd5b5efbe4786384f25e3e49b69c19ef14ad2c19bf174cf6926949bdc06a725c7123580deb1fe3b1696b172be5d74f27b896f550c7dc3d5ffb4e2243185be4ee4b28c12835b0145706fbed807aa98a3030242ab1c5ed5da6d8118923f82a4af194f9b59f111f1b605d0193956c25bf348b538e9b5dba58189dbbcb5c0fbcfec4d3b2f7137449123ef65cd428a2f98d728ae22

/-- The initial hash value of SHA-256. -/
def sha256Init : List Nat := [0x6a09e667, 0xbb67ae85, 0x3c6ef372, 0xa54ff53a, 0x510e527f, 0x9b05688c, 0x1f83d9ab, 0x5be0cd19]

/-- The initial hash value of SHA-384. -/
def sha384Init : List Nat := [
  0xcbbb9d5dc1059ed8,
  0x629a292a367cd507,
  0x9159015a3070dd17,
  0x152fecd8f70e5939,
  0x67332667ffc00b31,
  0x8eb44a8768581511,
  0xdb0c2e0d64f98fa7,
  0x47b5481dbefa4fa4]

/-- A word of w bits rotated right. -/
def rotr (w n x : Nat) : Nat := (x / 2 ^ n) ||| (x * 2 ^ (w - n) % 2 ^ w)

/-- What differs between the two hashes: word width, constants, rounds and rotation amounts. -/
structure Sha where
  w : Nat
  k : Nat
  rounds : Nat
  big0 : List Nat
  big1 : List Nat
  small0 : List Nat
  small1 : List Nat

/-- SHA-256's. -/
def sha256p : Sha := ⟨32, sha256K, 64, [2, 13, 22], [6, 11, 25], [7, 18, 3], [17, 19, 10]⟩
/-- SHA-384's. -/
def sha384p : Sha := ⟨64, sha512K, 80, [28, 34, 39], [14, 18, 41], [1, 8, 7], [19, 61, 6]⟩

/-- Σ: three rotations. -/
def bigSigma (w : Nat) (l : List Nat) (x : Nat) : Nat :=
  rotr w (l.getD 0 0) x ^^^ rotr w (l.getD 1 0) x ^^^ rotr w (l.getD 2 0) x

/-- σ: two rotations and a shift. -/
def smallSigma (w : Nat) (l : List Nat) (x : Nat) : Nat :=
  rotr w (l.getD 0 0) x ^^^ rotr w (l.getD 1 0) x ^^^ (x / 2 ^ l.getD 2 0)

/-- The message schedule, last word first. -/
def shaSchedule (p : Sha) : Nat → List Nat → List Nat
  | 0, ws => ws
  | n + 1, ws =>
    shaSchedule p n (((smallSigma p.w p.small1 (ws.getD 1 0) + ws.getD 6 0 + smallSigma p.w p.small0 (ws.getD 14 0) +
      ws.getD 15 0) % 2 ^ p.w) :: ws)

/-- The rounds over the schedule, i the round number, the working variables a to h in order. -/
def shaRounds (p : Sha) : Nat → List Nat → List Nat → List Nat
  | _, v, [] => v
  | i, v, wt :: rest =>
    let a := v.getD 0 0
    let e := v.getD 4 0
    let ch := (e &&& v.getD 5 0) ^^^ ((2 ^ p.w - 1 - e) &&& v.getD 6 0)
    let maj := (a &&& v.getD 1 0) ^^^ (a &&& v.getD 2 0) ^^^ (v.getD 1 0 &&& v.getD 2 0)
    let t1 := (v.getD 7 0 + bigSigma p.w p.big1 e + ch + p.k / 2 ^ (p.w * i) % 2 ^ p.w + wt) % 2 ^ p.w
    let t2 := (bigSigma p.w p.big0 a + maj) % 2 ^ p.w
    shaRounds p (i + 1) [(t1 + t2) % 2 ^ p.w, a, v.getD 1 0, v.getD 2 0, (v.getD 3 0 + t1) % 2 ^ p.w, e, v.getD 5 0,
      v.getD 6 0] rest

/-- One block taken into the hash value. -/
def shaBlock (p : Sha) (h : List Nat) (block : List Byte) : List Nat :=
  let n := p.w / 8
  let ws := (List.range 16).map (fun i => beNat ((block.drop (n * i)).take n))
  let v := shaRounds p 0 h (shaSchedule p (p.rounds - 16) ws.reverse).reverse
  List.zipWith (fun x y => (x + y) % 2 ^ p.w) h v

/-- A message padded to whole blocks. -/
def shaPad (p : Sha) (m : List Byte) : List Byte :=
  let b := 2 * p.w
  let z := (2 * b - (m.length + 1 + p.w / 4) % b) % b
  m ++ [0x80] ++ List.replicate z 0 ++ toBe (p.w / 4) (8 * m.length)

/-- The hash over a message. -/
def shaOver (p : Sha) (init : List Nat) (m : List Byte) : List Nat :=
  let l := shaPad p m
  (List.range (l.length / (2 * p.w))).foldl (fun h i => shaBlock p h ((l.drop (2 * p.w * i)).take (2 * p.w))) init

/-- SHA-256, 32 bytes. -/
def sha256 (m : List Byte) : List Byte := (shaOver sha256p sha256Init m).flatMap (toBe 4)

/-- SHA-384, 48 bytes. -/
def sha384 (m : List Byte) : List Byte := ((shaOver sha384p sha384Init m).take 6).flatMap (toBe 8)

/-! ### Elliptic curves -/

/-- A short Weierstrass curve y² = x³ − 3x + b over a prime field, its base point and order. -/
structure Curve where
  bytes : Nat
  p : Nat
  b : Nat
  gx : Nat
  gy : Nat
  n : Nat

/-- P-256. -/
def p256 : Curve where
  bytes := 32
  p := 0xffffffff00000001000000000000000000000000ffffffffffffffffffffffff
  b := 0x5ac635d8aa3a93e7b3ebbd55769886bc651d06b0cc53b0f63bce3c3e27d2604b
  gx := 0x6b17d1f2e12c4247f8bce6e563a440f277037d812deb33a0f4a13945d898c296
  gy := 0x4fe342e2fe1a7f9b8ee7eb4a7c0f9e162bce33576b315ececbb6406837bf51f5
  n := 0xffffffff00000000ffffffffffffffffbce6faada7179e84f3b9cac2fc632551

/-- P-384. -/
def p384 : Curve where
  bytes := 48
  p := 0xfffffffffffffffffffffffffffffffffffffffffffffffffffffffffffffffeffffffff0000000000000000ffffffff
  b := 0xb3312fa7e23ee7e4988e056be3f82d19181d9c6efe8141120314088f5013875ac656398d8a2ed19d2a85c8edd3ec2aef
  gx := 0xaa87ca22be8b05378eb1c71ef320ad746e1d3b628ba79b9859f741e082542a385502f25dbf55296c3a545e3872760ab7
  gy := 0x3617de4a96262c6f5d9e98bf9292dc29f8f41dbd289a147ce9da3113b5f0b8c00a60b1ce1d7e819d7a431d7c90ea0e5f
  n := 0xffffffffffffffffffffffffffffffffffffffffffffffffc7634d81f4372ddf581a0db248b0a77aecec196accc52973

/-- a raised to a power modulo m: fuel bits of the exponent. -/
def powModAux (m : Nat) : Nat → Nat → Nat → Nat → Nat
  | 0, _, _, r => r
  | k + 1, a, e, r => powModAux m k (a * a % m) (e / 2) (if e % 2 = 1 then r * a % m else r)

/-- The inverse modulo a prime below 2^384. -/
def invMod (m a : Nat) : Nat := powModAux m 384 (a % m) (m - 2) 1

/-- A point in affine coordinates; none: the point at infinity. -/
abbrev Pt := Option (Nat × Nat)

/-- a − b modulo m. -/
def subMod (m a b : Nat) : Nat := (a + m - b % m) % m

/-- A point in Jacobian coordinates; z = 0 is the point at infinity. -/
structure Jac where
  x : Nat
  y : Nat
  z : Nat

/-- A point doubled. -/
def Curve.dbl (c : Curve) (q : Jac) : Jac :=
  if q.z = 0 ∨ q.y = 0 then ⟨1, 1, 0⟩
  else
    let yy := q.y * q.y % c.p
    let t := 4 * q.x * yy % c.p
    let zz := q.z * q.z % c.p
    let m := 3 * (subMod c.p q.x zz) * (q.x + zz) % c.p
    let x3 := subMod c.p (m * m) (2 * t)
    ⟨x3, subMod c.p (m * subMod c.p t x3) (8 * yy * yy), 2 * q.y * q.z % c.p⟩

/-- Two points added. -/
def Curve.add (c : Curve) (q r : Jac) : Jac :=
  if q.z = 0 then r else if r.z = 0 then q
  else
    let z1 := q.z * q.z % c.p
    let z2 := r.z * r.z % c.p
    let u1 := q.x * z2 % c.p
    let u2 := r.x * z1 % c.p
    let s1 := q.y * z2 % c.p * r.z % c.p
    let s2 := r.y * z1 % c.p * q.z % c.p
    if u1 = u2 then (if s1 = s2 then c.dbl q else ⟨1, 1, 0⟩)
    else
      let h := subMod c.p u2 u1
      let rr := subMod c.p s2 s1
      let hh := h * h % c.p
      let hhh := h * hh % c.p
      let v := u1 * hh % c.p
      let x3 := subMod c.p (subMod c.p (rr * rr) hhh) (2 * v)
      ⟨x3, subMod c.p (rr * subMod c.p v x3) (s1 * hhh), h * q.z % c.p * r.z % c.p⟩

/-- k times a point, from the top bit of fuel bits down. -/
def Curve.mulAux (c : Curve) (q : Jac) (k : Nat) : Nat → Jac → Jac
  | 0, acc => acc
  | i + 1, acc => let d := c.dbl acc
                  c.mulAux q k i (if k.testBit i then c.add d q else d)

/-- The affine point. -/
def Curve.affine (c : Curve) (q : Jac) : Pt :=
  if q.z = 0 then none
  else let zi := invMod c.p q.z
       let z2 := zi * zi % c.p
       some (q.x * z2 % c.p, q.y * z2 % c.p * zi % c.p)

/-- k times a point in Jacobian coordinates. -/
def Curve.mul (c : Curve) (k : Nat) (q : Nat × Nat) : Jac := c.mulAux ⟨q.1, q.2, 1⟩ k (8 * c.bytes) ⟨1, 1, 0⟩

/-- Is a point on the curve. -/
def Curve.on (c : Curve) (q : Nat × Nat) : Bool :=
  q.1 < c.p && q.2 < c.p && (q.2 * q.2 % c.p = (subMod c.p (q.1 * q.1 % c.p * q.1) (3 * q.1) + c.b) % c.p)

/-- A SEC1 uncompressed point: 0x04, X, Y. -/
def Curve.point (c : Curve) (l : List Byte) : Option (Nat × Nat) :=
  let q := (beNat ((l.drop 1).take c.bytes), beNat ((l.drop (1 + c.bytes)).take c.bytes))
  if l.length = 1 + 2 * c.bytes ∧ l.head? = some 4 ∧ c.on q then some q else none

/-- A point written in SEC1 uncompressed form. -/
def Curve.sec1 (c : Curve) (q : Nat × Nat) : List Byte := (4 : Byte) :: toBe c.bytes q.1 ++ toBe c.bytes q.2

/-- ECDSA verification of a signature over a digest. -/
def Curve.verify (c : Curve) (q : Nat × Nat) (digest : List Byte) (r s : Nat) : Bool :=
  if r = 0 ∨ c.n ≤ r ∨ s = 0 ∨ c.n ≤ s ∨ !c.on q then false
  else
    let e := beNat (digest.take c.bytes)
    let w := invMod c.n s
    match c.affine (c.add (c.mul (e * w % c.n) (c.gx, c.gy)) (c.mul (r * w % c.n) q)) with
    | none => false
    | some pt => pt.1 % c.n = r

/-- ECDSA signature over a digest with private key d and nonce k; none where the nonce gives a zero. -/
def Curve.sign (c : Curve) (d k : Nat) (digest : List Byte) : Option (Nat × Nat) :=
  match c.affine (c.mul k (c.gx, c.gy)) with
  | none => none
  | some pt =>
    let r := pt.1 % c.n
    let s := invMod c.n k * ((beNat (digest.take c.bytes) + r * d) % c.n) % c.n
    if r = 0 ∨ s = 0 then none else some (r, s)

end Sys2Proof.Machine
end

