-- ==== Sys2Proof/Machine/MemSlot.lean ====
section
/-! DEFINITION. The MEM slot's operations (R93 to R99), the strand scrubbers' step (R122) and the debug data register's write
(R125). -/

namespace Sys2Proof.Machine

/-- LD8U (R93). -/
def execLd8u (x : Issue) (d a : BitVec 6) (imm : BitVec 10) (s : State) : Res := .next (s.load x 1 false d a imm)
/-- LD16U (R93). -/
def execLd16u (x : Issue) (d a : BitVec 6) (imm : BitVec 10) (s : State) : Res := .next (s.load x 2 false d a imm)
/-- LD32U (R93). -/
def execLd32u (x : Issue) (d a : BitVec 6) (imm : BitVec 10) (s : State) : Res := .next (s.load x 4 false d a imm)
/-- LD32S (R93). -/
def execLd32s (x : Issue) (d a : BitVec 6) (imm : BitVec 10) (s : State) : Res := .next (s.load x 4 true d a imm)
/-- LD64 (R93). -/
def execLd64 (x : Issue) (d a : BitVec 6) (imm : BitVec 10) (s : State) : Res := .next (s.load x 8 false d a imm)
/-- LD128 (R85, R93). -/
def execLd128 (x : Issue) (d a : BitVec 6) (imm : BitVec 10) (s : State) : Res := .next (s.load x 16 false d a imm)
/-- ST8 (R93). -/
def execSt8 (x : Issue) (d a : BitVec 6) (imm : BitVec 10) (s : State) : Res := .next (s.storeOp x 1 d a imm)
/-- ST16 (R93). -/
def execSt16 (x : Issue) (d a : BitVec 6) (imm : BitVec 10) (s : State) : Res := .next (s.storeOp x 2 d a imm)
/-- ST32 (R93). -/
def execSt32 (x : Issue) (d a : BitVec 6) (imm : BitVec 10) (s : State) : Res := .next (s.storeOp x 4 d a imm)
/-- ST64 (R93). -/
def execSt64 (x : Issue) (d a : BitVec 6) (imm : BitVec 10) (s : State) : Res := .next (s.storeOp x 8 d a imm)
/-- ST128 (R85, R93). -/
def execSt128 (x : Issue) (d a : BitVec 6) (imm : BitVec 10) (s : State) : Res := .next (s.storeOp x 16 d a imm)

/-- STRAND_SCRUB (R122): one lay cycle of a strand's scrubbers; while the lay's domain is off there is none. -/
def execStrandScrub (lay : Fin 8) (strand : Fin 16) (s : State) : Res :=
  .next (if s.domOn (3 + lay.val) then s.strandScrub (strandNo lay.val strand.val) else s)

/-- What a write of STR_DBG_DATA sets (R125). -/
def setDbgData (t : Strand) (index : Nat) (v : Word64) : Strand :=
  if index < 64 then t.setReg index v
  else if index = 0x40 then { t with p := Sys2Proof.putBit (v.extractLsb' 0 8) 0 (t.p.getLsbD 0) }
  else if index = 0x41 then { t with acc := (t.acc.extractLsb' 64 64).append v }
  else if index = 0x42 then { t with acc := v.append (t.acc.extractLsb' 0 64) }
  else t

/-- A write of all 64 bits of STR_DBG_DATA (R57, R125): refused with cause STATE unless the strand is FROZEN. -/
def State.dbgDataWrite (s : State) (q : Requester) (n : Nat) (v : Word64) : State :=
  let a := pa .strand n rSTR_DBG_DATA
  s.guarded q a (v.extractLsb' 0 32) (s.strandSt (n / 16) (n % 16) ≠ 5) fun s =>
    let s := s.dropShadow q a
    s.setStr n (setDbgData (s.str n) (s.fld (pa .strand n rSTR_DBG_SEL) 7 0) v)

/-- DEBUG_DATA_WRITE (R125). -/
def execDebugDataWrite (q : Requester) (lay : Fin 8) (strand : Fin 16) (v : BitVec 64) (s : State) : Res :=
  .next (s.dbgDataWrite q (strandNo lay.val strand.val) v)

end Sys2Proof.Machine
end

