-- ==== Sys2Proof/Machine/Lays.lean ====
section
/-! DEFINITION. Lays (04_rigging_contract.md): the end of a lay cycle, turn boundaries, variants, the clock monitor, the
LAY_CTRL writes, the load port and the lay-memory scrubber. -/

namespace Sys2Proof.Machine

/-- A LAY_STAT field set: STATE. -/
def State.setLaySt (s : State) (n v : Nat) : State := s.putF (pa .lay n rLAY_STAT) 2 0 v

/-- TURN_LEN. -/
def State.turnLen (s : State) (n : Nat) : Nat := s.fld (pa .lay n rLAY_TURN_LEN) 16 0

/-! ### The end of a lay cycle -/

/-- A strand after its cycle: the bundle counter moves past the bundle issued, or to a taken branch's target; the empty
cycles after a branch run down (R74, R79). -/
def afterCycle (t : Strand) : Strand :=
  if t.fetched then
    { t with pc := t.target.getD ((t.pc + 1) % 8192), target := none, fetched := false, dmUsed := false, imUsed := false }
  else { t with gap := t.gap - 1, dmUsed := false, imUsed := false }

/-- The variant-table words read in a cycle of RUN or HELD (R710): an error found in them. -/
def State.readVtab (s : State) (n : Nat) : State :=
  let (i, s) := s.inject .lay n 5 6
  let c := if (s.lay n).vtabUe then 2 else i
  if c = 2 then (s.cause .lay n 6).setLay n { s.lay n with vtabBad := 1 }
  else if c = 1 then s.cause .lay n 5 else s

/-- The end of a lay cycle: results complete, the within-lay views are brought up to date, the counters advance (R76, R129,
R130). -/
def State.endCycle (s : State) (n : Nat) : State :=
  let c := (s.lay n).cyc
  let s := (List.range 16).foldl (fun s k => s.retireStrand (strandNo n k) c) s
  let s := s.retireCommits n c
  let s := (List.range 16).foldl (fun s k => s.setStr (strandNo n k) (afterCycle (s.str (strandNo n k)))) s
  let s := s.syncLay n
  s.setLay n { s.lay n with cyc := c + 1, issued := false, used := [], lmUsed := [] }

/-! ### Turn boundaries (R136, R165, R168 to R174) -/

/-- UNITS_PER_TURN of a class in a lay's running variant (R158, R226). -/
def State.units (s : State) (lay cls : Nat) : Nat :=
  match (s.lay lay).tab 0x13 (s.variant lay) with
  | none => 0
  | some t => ((List.range (t.bytes.length / 16)).find? (fun i => tabLe t (16 * i) 1 = some cls)).elim 0
      (fun i => (tabLe t (16 * i + 4) 4).getD 0)

/-- Does the budget sheet of a lay's running variant list a class (R158). -/
def State.sheetHas (s : State) (lay cls : Nat) : Bool :=
  ((s.lay lay).tab 0x13 (s.variant lay)).any (fun t =>
    (List.range (t.bytes.length / 16)).any (fun i => decide (tabLe t (16 * i) 1 = some cls)))

/-- The budgets of classes 7 and 8, which no block keeps, at the turn tick (R37, R226, R250). -/
def State.quotaTick (s : State) (lay : Nat) : State :=
  let q := Machine.store (fun _ => 0) s.work.quota (lay * 2) (s.units lay 7)
  { s with work := { s.work with quota := Machine.store (fun _ => 0) q (lay * 2 + 1) (s.units lay 8) } }

/-- The turn tick as INGEST takes it (R136, R226, R513, R514): the budgets of classes 0 to 6 of a lay. -/
def State.turnTick (s : State) (lay : Nat) : State :=
  ((List.range 7).foldl (fun s c =>
    let k := lay * 8 + c
    let u := s.units lay c
    let full := s.bitAt (pa .nand 0 rNAND_STAT) 4
    let fg := s.bitAt (pa .nand 0 rNAND_STAT) 3
    let rem := look (fun _ => 0) s.rems k
    let x := u * s.fld (pa .nand 0 rNAND_THROTTLE) 7 0 + rem
    let v := if c = 6 then u else if full then 0 else if fg then x / 256 else u
    { s with
      budgets := Machine.store (fun _ => 0) s.budgets k v
      rems := Machine.store (fun _ => 0) s.rems k (if c = 6 ∨ full then rem else if fg then x % 256 else 0) }) s).quotaTick lay

/-- A stopped lay's strands cleared (R73, R165, R707). What is in flight at the boundary that stops the lay is dropped: R81 speaks of the
next turn, and a stopped lay has none (DESIGN CHOICE, log entry 34). -/
def State.clearStrands (s : State) (n : Nat) : State :=
  let s := (List.range 16).foldl (fun s k =>
    let t := s.str (strandNo n k)
    s.setStr (strandNo n k) { Strand.clear with pc := t.pc, imScrub := t.imScrub, dmScrub := t.dmScrub }) s
  s.setLay n { s.lay n with keyq := (s.lay n).keyq.map (fun r => { r with cancelled := true }) }

/-- The data memories of a lay's strands cleared (R73). -/
def State.clearData (s : State) (n : Nat) : State := (List.range 16).foldl (fun s k => s.clearMem (.dmem n k) 0 0x20000) s

/-- A lay stops (R165): LOADED, its strands' state and data memories cleared (R73), its splices kept. The out-set is cleared with it: a lay
that is not RUN or HELD keeps none (DESIGN CHOICE, log entry 34). -/
def State.stopLay (s : State) (n : Nat) : State :=
  let s := (s.clearStrands n).clearData n
  let s := s.wr (pa .lay n rLAY_STAT) (putBits (putBits (putBits (s.rd (pa .lay n rLAY_STAT)) 20 16 0) 4 3 0) 2 0 1)
  let s := s.wr (pa .lay n rLAY_OUT) 0
  let s := s.setLay n { s.lay n with ret := [], resume := false, issued := false, tcyc := 0, used := [], vtabBad := 0, thaw := 0, stepLeft := 0 }
  (s.irq .lay n 3).layEvent n 0x25 []

/-- A lay enters HELD (R172). -/
def State.holdLay (s : State) (n : Nat) (noVariant : Bool) : State :=
  let s := if noVariant then s.cause .lay n 4 else s
  if s.laySt n = 4 then s else ((s.setLaySt n 4).irq .lay n 1).layEvent n 0x22 []

/-- The strands named by a mask of bits. -/
def membersOf (mask : Nat) : List Nat := (List.range 16).filter (fun i => mask.testBit i)

/-- A mask with a bit cleared. -/
def clearBitN (mask i : Nat) : Nat := if mask.testBit i then mask - 2 ^ i else mask

/-- The out-set of a boundary (R168): tainted strands join, those whose return completes leave. -/
def State.newOutSet (s : State) (n : Nat) : Nat :=
  let m := (List.range 16).foldl (fun m k => if (s.str (strandNo n k)).tainted then m ||| 2 ^ k else m) (s.outSet n)
  (s.lay n).ret.foldl clearBitN m

/-- A return completes (R173): STR_FAIL cleared, RETURNED and its event. -/
def State.returnDone (s : State) (n k : Nat) : State :=
  let s := s.wr (pa .strand (strandNo n k) rSTR_FAIL) 0
  let s := s.setStr (strandNo n k) { s.str (strandNo n k) with tainted := false }
  (s.irq .lay n 5).layEvent n 0x24 [k]

/-- The returns of a boundary complete (R168, R173), in the order they were accepted. -/
def State.finishReturn (s : State) (n : Nat) : State :=
  if (s.lay n).ret = [] then s
  else
    let s := (s.lay n).ret.foldl (fun s k => s.returnDone n k) s
    (s.setLay n { s.lay n with ret := [] }).putBit (pa .lay n rLAY_STAT) 3 false

/-- The variant an out-set selects (R168); none: HELD. -/
def variantOf (mask : Nat) : Option Nat :=
  match membersOf mask with
  | [] => some 0
  | [k] => some (k + 1)
  | _ => none

/-- The strands that issue in a variant start a turn: the entry bundle, no empty cycles, no TEND (R74). -/
def State.startTurn (s : State) (n : Nat) : State :=
  let s := s.setLay n { s.lay n with tcyc := 0 }
  let s := s.bumpMod (pa .lay n rLAY_TURNS) 1
  let s := (List.range 16).foldl (fun s k =>
    let me := strandNo n k
    if s.laySt n = 3 ∧ s.inVariant n k then
      let s := s.bumpMod (pa .strand me rSTR_TURNS) 1
      s.setStr me { s.str me with pc := s.entry n (s.variant n) k, gap := 0, tended := false, target := none }
    else s) s
  s.turnTick n

/-- A variant comes into force (R170). -/
def State.selectVariant (s : State) (n v : Nat) : State :=
  let old := s.variant n
  let s := (s.putF (pa .lay n rLAY_STAT) 20 16 v).setLaySt n 3
  if v = old then s
  else ((s.irq .lay n 0).bumpMod (pa .lay n rLAY_SWITCH_CNT) 1).layEvent n 0x21 [v]

/-- The strands that issued in the turn that ends and had no TEND (R80). -/
def State.overrunners (s : State) (n : Nat) : List Nat :=
  if s.laySt n = 3 then
    (List.range 16).filter (fun k => s.inVariant n k && !(s.str (strandNo n k)).tended)
  else []

/-- A turn boundary of a RUN or HELD lay (R165, R168 to R174). OVERRUN belongs to the turn that starts (R169); a strand that
is out of service keeps no taint. An out-set of two or more holds the lay with NO_VARIANT, whatever else would hold it (R168, R172). At a
boundary that stops the lay no turn starts, and none raises OVERRUN (DESIGN CHOICE, log entry 34). -/
def State.turnBoundary (s : State) (n : Nat) : State :=
  if s.laySt n ≠ 3 ∧ s.laySt n ≠ 4 then s
  else if s.bitAt (pa .lay n rLAY_STAT) 4 then s.stopLay n
  else
    let late := s.overrunners n
    let out := s.newOutSet n
    let s := s.finishReturn n
    let s := s.wr (pa .lay n rLAY_OUT) (BitVec.ofNat 32 out)
    let l := s.lay n
    let s := match variantOf out with
      | none => s.holdLay n true
      | some v =>
        if l.vtabBad ≠ 0 then s.holdLay n false
        else if s.laySt n = 4 ∧ !l.resume then s
        else s.selectVariant n v
    let s := s.setLay n { s.lay n with resume := false, vtabBad := 0 }
    let s := s.startTurn n
    let s := late.foldl (fun s k => s.strandCause (strandNo n k) 16) s
    (membersOf out).foldl (fun s k => s.setStr (strandNo n k) { s.str (strandNo n k) with tainted := false }) s
/-! ### Clock monitor (R146, R147) -/

/-- The count of a window compared with floor and ceiling (R146): CLK_LOW, CLK_HIGH, CLK_OK, LAY_FREQ. -/
def State.clockWindow (s : State) (n count : Nat) : State :=
  if !s.domOn (3 + n) then s
  else
    let lo := s.fld (pa .lay n rLAY_FLOOR) 19 0 * 99 / 10000
    let hi := (s.fld (pa .lay n rLAY_CEIL) 19 0 * 101 + 9999) / 10000
    let ok := s.bitAt (pa .lay n rLAY_STAT) 5
    let s := s.wr (pa .lay n rLAY_FREQ) (BitVec.ofNat 32 (count * 100 % 2 ^ 20))
    let good := lo ≤ count ∧ count ≤ hi
    let s := if count < lo then s.cause .lay n 2 else s
    let s := if hi < count then s.cause .lay n 3 else s
    let g := if good then min 10 ((s.lay n).goodWin + 1) else 0
    let s := s.setLay n { s.lay n with goodWin := g }
    let now := if good then ok || g = 10 else false
    if now = ok then s else (s.putBit (pa .lay n rLAY_STAT) 5 now).irq .lay n 4

/-- CLOCK_MONITOR_WINDOW (R146). -/
def execClockMonitorWindow (lay : Fin 8) (count : Nat) (s : State) : Res := .next (s.clockWindow lay.val count)

/-! ### LAY_CTRL and LAY_RETURN (R164, R165, R173, R174, R179) -/

/-- The balance lay, lay 6 (log entry 16), starts: the intervals open now are closed incomplete (R353). -/
def State.balFirst (s : State) (n : Nat) : State :=
  if n = 6 then { s with bal := { s.bal with first := some (s.tsuTime.sec / (60 * s.tsuTime.minutes) + 1) } } else s

/-- An ARMED lay enters RUN in variant 0 at turn cycle 0 (R164, R179). -/
def State.startLay (s : State) (n : Nat) : State :=
  if s.laySt n ≠ 2 then s
  else
    let s := (s.balFirst n).putBit (pa .lay n rLAY_CTRL) 0 false
    let s := s.wr (pa .lay n rLAY_STAT) (putBits (putBits (putBits (s.rd (pa .lay n rLAY_STAT)) 20 16 0) 4 3 0) 2 0 3)
    let s := (s.wr (pa .lay n rLAY_OUT) 0).wr (pa .lay n rLAY_TURNS) 0
    let s := s.setLay n { s.lay n with ret := [], resume := false, issued := false, vtabBad := 0, thaw := 0, stepLeft := 0 }
    (s.irq .lay n 2).startTurn n

/-- The start strobe (R164): every ARMED lay starts, and with it the slot frames at their slot 0; none ARMED, or the DDR controller not
enabled (R706): no effect. -/
def State.strobe (s : State) : State :=
  let armed := (List.range 8).filter (fun n => s.domOn (3 + n) && s.laySt n = 2)
  if armed = [] ∨ !s.bitAt (pa .ddr 0 0x00C) 0 then s
  else
    let s := armed.foldl (fun s n => s.startLay n) s
    { s with nand := { s.nand with odd := false, taken := [] }, rig := { s.rig with frames := true, ddrAt := 0, pkeAt := 0, nandDone := [], pkeBusy := 0, slotUse := 0, pkeRun := 0 } }

/-- ARM taken: LOADED becomes ARMED. -/
def State.armLay (s : State) (n : Nat) : State :=
  if s.laySt n = 1 then (s.setLaySt n 2).putBit (pa .lay n rLAY_CTRL) 0 true else s

/-- ARM = 0 taken: ARMED becomes LOADED. -/
def State.disarmLay (s : State) (n : Nat) : State :=
  if s.laySt n = 2 then (s.setLaySt n 1).putBit (pa .lay n rLAY_CTRL) 0 false else s

/-- The states in which a write of LAY_CTRL is refused (R174, R179). -/
def State.layCtrlBad (s : State) (n : Nat) (v : Word32) : Bool :=
  (bit v 0 && s.laySt n ≠ 1 && s.laySt n ≠ 2) ||
  (bit v 1 && s.laySt n ≤ 2) ||
  (bit v 2 && s.laySt n ≠ 4)

/-- A write of LAY_CTRL (R164, R165, R174, R179). -/
def State.layCtrl (s : State) (q : Requester) (n : Nat) (v : Word32) : State :=
  s.guarded q (pa .lay n rLAY_CTRL) v (s.layCtrlBad n v) fun s =>
    let s := if bit v 0 then s.armLay n else if bit v 3 then s else s.disarmLay n
    let s := if bit v 1 then s.putBit (pa .lay n rLAY_STAT) 4 true else s
    let s := if bit v 2 then s.setLay n { s.lay n with resume := true } else s
    if bit v 3 then s.strobe else s

/-- LAY_ARM (R179). -/
def execLayArm (q : Requester) (lay : Fin 8) (s : State) : Res := .next (s.layCtrl q lay.val 1)
/-- LAY_DISARM (R179). -/
def execLayDisarm (q : Requester) (lay : Fin 8) (s : State) : Res := .next (s.layCtrl q lay.val 0)
/-- LAY_GO (R164). -/
def execLayGo (q : Requester) (lay : Fin 8) (arm : Bool) (s : State) : Res :=
  .next (s.layCtrl q lay.val (if arm then 9 else 8))
/-- LAY_STOP (R165). -/
def execLayStop (q : Requester) (lay : Fin 8) (s : State) : Res := .next (s.layCtrl q lay.val 2)
/-- LAY_RESUME (R174). -/
def execLayResume (q : Requester) (lay : Fin 8) (s : State) : Res := .next (s.layCtrl q lay.val 4)

/-- A write of LAY_RETURN (R173). -/
def State.layReturn (s : State) (q : Requester) (n : Nat) (v : Word32) : State :=
  s.guarded q (pa .lay n rLAY_RETURN) v
    (bit v 31 && (!(s.outSet n).testBit (bits v 3 0) || (s.laySt n ≠ 3 && s.laySt n ≠ 4))) fun s =>
      if bit v 31 then
        (s.setLay n { s.lay n with ret := (s.lay n).ret.filter (· ≠ bits v 3 0) ++ [bits v 3 0] }).putBit (pa .lay n rLAY_STAT) 3 true
      else s
/-! ### Load port (R182, R709) -/

/-- What LAY_LD_SEL and LAY_LD_ADDR select: target, strand, variant, byte address. -/
def State.ldSel (s : State) (n : Nat) : Nat × Nat × Nat × Nat :=
  let v := s.rd (pa .lay n rLAY_LD_SEL)
  (bits v 7 0, bits v 19 16, bits v 12 8, s.fld (pa .lay n rLAY_LD_ADDR) 31 3 * 8)

/-- The address moves by 8 (R182). -/
def State.ldNext (s : State) (n : Nat) : State := s.bumpMod (pa .lay n rLAY_LD_ADDR) 8

/-- Is a target one of the tables (R709). -/
def isTable (t : Nat) : Bool := 0x10 ≤ t && t ≤ 0x13

/-- The bytes of the table of a target and variant that exist (R709): its length, cut where the 64 KiB of variant-table memory end; used: the
bytes of the tables before it. -/
def tabRoom : List VTab → Nat → Nat → Nat → Nat
  | [], _, _, _ => 0
  | x :: rest, used, target, v =>
    if x.target = target ∧ x.variants.contains v then min x.bytes.length (2 ^ 16 - used)
    else tabRoom rest (used + x.bytes.length) target v

/-- The 8 bytes a load-port read returns, and what the read of the memory reports (R182, R709, R710). -/
def State.ldRead (s : State) (n : Nat) : Word64 × State :=
  let (t, k, v, a) := s.ldSel n
  let me := strandNo n k
  let quiet := s.laySt n ≤ 1
  if t = 0 then
    if a < 0x20000 then
      let s := s.setStr me { s.str me with imUsed := true }
      (BitVec.ofNat 64 (s.le (.imem n k) a 8), (s.readStrandWord me false false a).2)
    else (0, s)
  else if t = 1 then
    if a < 0x20000 then
      let s := s.setStr me { s.str me with dmUsed := true }
      (BitVec.ofNat 64 (s.le (.dmem n k) a 8), (s.readStrandWord me true false a).2)
    else (0, s)
  else if t = 2 then
    if quiet ∧ a < 0x400000 then (BitVec.ofNat 64 (s.le (.lmem n) a 8), (s.readLmemWord n false a).2) else (0, s)
  else if isTable t then
    match (s.lay n).tab t v with
    | some tab => if a < tabRoom (s.lay n).tabs 0 t v then (BitVec.ofNat 64 (leNat ((tab.bytes.drop a).take 8)), s.readVtab n) else (0, s)
    | none => (0, s)
  else (0, s)

/-- May the load port write its selection (R709). -/
def State.ldMay (s : State) (n : Nat) : Bool :=
  let (t, k, v, a) := s.ldSel n
  if s.laySt n ≤ 1 then
    if t ≤ 1 then a < 0x20000 else if t = 2 then a < 0x400000
    else isTable t && decide (a + 8 ≤ tabRoom (s.lay n).tabs 0 t v)
  else (s.laySt n = 3 || s.laySt n = 4) && t ≤ 1 && a < 0x20000 && (s.outSet n).testBit k

/-- A table with 8 bytes replaced at an offset. -/
def putTab (t : VTab) (a : Nat) (v : Word64) : VTab :=
  { t with bytes := t.bytes.take a ++ toLe 8 v.toNat ++ t.bytes.drop (a + 8) }

/-- The selection written (R182, R709): one table serves every variant that shares it. -/
def State.ldWrite (s : State) (n : Nat) (v : Word64) : State :=
  let (t, k, var, a) := s.ldSel n
  if t = 0 then s.storeBytes (.imem n k) a 8 v.toNat
  else if t = 1 then s.storeBytes (.dmem n k) a 8 v.toNat
  else if t = 2 then s.storeBytes (.lmem n) a 8 v.toNat
  else s.setLay n { s.lay n with tabs := (s.lay n).tabs.map (fun tab =>
    if tab.target = t ∧ tab.variants.contains var then putTab tab a v else tab) }

/-- A 64-bit read of LAY_LD_DATA, or of its low half (R56, R182); nothing is read of a page that is off. -/
def State.loadPortRead (s : State) (q : Requester) (n : Nat) : State :=
  let a := pa .lay n rLAY_LD_DATA
  if !s.domOn (3 + n) || s.srstBusy a then { s with rdata := 0 }
  else
    let (v, s) := s.ldRead n
    ({ s.setLatch q a (v.extractLsb' 32 32) with rdata := v }).ldNext n

/-- LOAD_PORT_READ (R182). -/
def execLoadPortRead (q : Requester) (lay : Fin 8) (s : State) : Res := .next (s.readBy q fun s => s.loadPortRead q lay.val)

/-- A commit of LAY_LD_DATA (R57, R182). -/
def State.ldCommit (s : State) (q : Requester) (n : Nat) (v : Word64) : State :=
  let a := pa .lay n rLAY_LD_DATA
  s.guarded q a (v.extractLsb' 0 32) (!s.ldMay n) fun s => ((s.dropShadow q a).ldWrite n v).ldNext n

/-- LOAD_PORT_WRITE (R182): a 64-bit write. -/
def execLoadPortWrite (q : Requester) (lay : Fin 8) (v : BitVec 64) (s : State) : Res :=
  .next (s.ldCommit q lay.val v)

/-! ### Lay-memory scrubber (R155, R181) -/

/-- One word of a bank scrubbed in a cycle whose wheel entry grants the bank to no strand (R155). The order of the words is
the model's: ascending within the bank (DESIGN CHOICE, log entry 10). -/
def State.lmemScrub (s : State) (n bank : Nat) : State :=
  if (s.laySt n = 3 ∨ s.laySt n = 4) ∧ s.wheelGrant n (s.tcyc n) bank = none then
    let w := look (fun _ => 0) (s.lay n).lmScrub bank
    let a := bank * 2 ^ 19 + 8 * w
    let (c, s) := s.readLmemWord n true a
    let s := if c = 1 then s.setEcc (.lmem n) a 0 else s
    s.setLay n { s.lay n with lmScrub := Machine.store (fun _ => 0) (s.lay n).lmScrub bank ((w + 1) % 65536) }
  else s

/-- LAY_MEM_SCRUB (R155). -/
def execLayMemScrub (lay : Fin 8) (bank : Fin 8) (s : State) : Res := .next (s.lmemScrub lay.val bank.val)

end Sys2Proof.Machine
end

