-- ==== Sys2Proof/Machine/Ports.lean ====
section
/-! DEFINITION. Requests of lays to shared engines (R137 to R144, R478): the DDR frame, bursts and completions, the PKE frame
and lay verifications; and the splice commands of 05_splice_queues.md. -/

namespace Sys2Proof.Machine

/-- The k-th cell a consumer sees in a splice, without popping it. -/
def State.peekCell (s : State) (n k : Nat) : Option Cell512 :=
  if s.splEn n && decide (k < s.cfill n) && (s.spl n).window = 0 then
    some (s.poolCell (s.splBase n + ((s.spl n).r.t.toNat + k) % s.splDepth n))
  else none

/-- A completion held until its block commits it (R137). -/
def State.post (s : State) (code n : Nat) (cs : List Cell512) : State := { s with outbox := s.outbox ++ [(code, n, cs)] }

/-- The oldest completion of a block end committed (R196). -/
def State.deliverOldest (s : State) (code : Nat) : State :=
  match s.outbox.find? (fun e => e.1 = code) with
  | none => s
  | some e => { s with outbox := s.outbox.erase e }.offerAll e.2.1 e.2.2

/-- The port of a lay with a KIND and number: request and completion splice (R157). -/
def State.port (s : State) (lay kind port : Nat) : Option (Nat × Nat) :=
  ((s.lay lay).ports.find? (fun p => p.1 = kind && p.2.1 = port)).map (·.2.2)

/-! ### DDR (R139 to R141, R706) -/

/-- One DDR word read by anyone: its condition, CE and UE raised (R706). -/
def State.ddrWord (s : State) (a : Nat) : Nat × State :=
  let (i, s) := s.inject .ddr 0 0 1
  let c := min 2 (s.eccOf .ddr a + i)
  (c, if c = 1 then s.cause .ddr 0 0 else if c = 2 then s.cause .ddr 0 1 else s)

/-- The words that cover n bytes at an address, each read and checked: the worst condition. -/
def State.ddrCheck (s : State) (a n : Nat) : Nat × State :=
  (List.range ((a % 8 + n + 7) / 8)).foldl (fun (p : Nat × State) i =>
    let r := p.2.ddrWord ((a / 8 + i) * 8)
    (max p.1 r.1, r.2)) (0, s)

/-- n bytes of DDR read: the bytes, whether one was uncorrectable, and the state after. -/
def State.ddrGet (s : State) (a n : Nat) : List Byte × Bool × State :=
  let (c, s) := s.ddrCheck a n
  (s.bytes .ddr a n, c = 2, s)

/-- Bytes of DDR written: the words they cover hold good check bits. -/
def State.ddrPut (s : State) (a : Nat) (l : List Byte) : State :=
  let s := s.setBytes .ddr a l
  (List.range ((a % 8 + l.length + 7) / 8)).foldl (fun s i => s.setEcc .ddr ((a / 8 + i) * 8) 0) s

/-- May an owner other than a lay reach DDR now (R33, R35, R706): the controller is enabled, and the slot in progress is one of the owner's kind
(4 host, 5 STORE); while the frames stand there is no slot to wait for (DESIGN CHOICE, log entry 34). -/
def State.ddrOpen (s : State) (kind : Nat) : Bool :=
  s.domOn 14 && s.bitAt (pa .ddr 0 0x00C) 0 && (!s.rig.frames || s.rig.slotUse = kind)

/-- May a host access reach DDR now: METERDB, the Lanyard, KEY, AEAD, HASH and PKE (R33, R35). -/
def State.hostTurn (s : State) : Bool := s.ddrOpen 4

/-- May STORE reach DDR now (R33). -/
def State.storeTurn (s : State) : Bool := s.ddrOpen 5

/-- A DDR completion cell (R140). -/
def ddrCell (addrTag half status : Nat) (data : List Byte) : Cell512 :=
  mkCompletion 0 0 ([addrTag + half * 2 ^ 50 + status * 2 ^ 52, 0, 0] ++
    (List.range 4).map (fun i => leNat ((data.drop (8 * i)).take 8)))

/-- The ADDR and TAG fields of a request's word 1. -/
def addrTagOf (w : Nat) : Nat := nbits w 33 6 * 64 + nbits w 47 40 * 2 ^ 40

/-- One half of a read: its completion cell (R140, R141). -/
def State.ddrHalf (s : State) (at_ half : Nat) : Cell512 × State :=
  let a := nbits at_ 33 6 * 64 + half * 32
  let (c, s) := s.ddrCheck a 32
  (ddrCell at_ half c (if c = 2 then [] else s.bytes .ddr a 32), s)

/-- A request taken in a slot that a lay port owns (R139 to R141): the oldest visible cell, and the second half of a write. OP 0b00 ends
BAD_REQ, and so does an incomplete write beyond the fitted memory (DESIGN CHOICE, log entry 34). -/
def State.ddrRequest (s : State) (req comp : Nat) : State :=
  match s.pop req with
  | (none, s) => s
  | (some (c, _), s) =>
    let w := (cellWord c 1).toNat
    let k := addrTagOf w
    let op := nbits w 49 48
    let far := s.fitted.ddrBytes ≤ nbits w 33 6 * 64
    if op = 1 then
      if far then s.post 8 comp [ddrCell k 0 4 [], ddrCell k 1 4 []]
      else
        let (c0, s) := s.ddrHalf k 0
        let (c1, s) := s.ddrHalf k 1
        s.post 8 comp [c0, c1]
    else if op = 2 then
      match s.peekCell req 0 with
      | none => s.post 8 comp [ddrCell k 0 3 []]
      | some d =>
        let v := (cellWord d 1).toNat
        if addrTagOf v = k ∧ nbits v 49 48 = 3 then
          let s := (s.pop req).2
          if far then s.post 8 comp [ddrCell k 0 4 []]
          else
            let half (x : Cell512) : List Byte := toLe 32 (bits x 511 256)
            (s.ddrPut (nbits w 33 6 * 64) (half c ++ half d)).post 8 comp [ddrCell k 0 0 []]
        else s.post 8 comp [ddrCell k 0 3 []]
    else s.post 8 comp [ddrCell k 0 3 []]

/-- The DDR scrubber's word in a slot it owns: corrected words are written back. -/
def State.ddrScrubSlot (s : State) : State :=
  let a := s.ddrScrub * 8
  let (c, s) := s.ddrWord a
  let s := if c = 1 then s.setEcc .ddr a 0 else s
  { s with ddrScrub := (s.ddrScrub + 1) % (max 1 (s.fitted.ddrBytes / 8)) }

/-- DDR_SLOT (R139, R164): the next slot of the frame, by its owner; nothing while the controller is disabled or the frames stand. A host
slot serves the accesses of METERDB, the Lanyard and the crypto engines, whose ends are commands of their own, while it lasts (R33, R35); a
STORE slot serves those of STORE. -/
def execDdrSlot (slot : BitVec 12) (s : State) : Res :=
  .next (if !(s.domOn 14 && s.bitAt (pa .ddr 0 0x00C) 0 && s.rig.frames) || s.rig.ddrAt ≠ slot.toNat then s
    else
      let e := s.rig.ddr.getD slot.toNat 0
      let s := { s with rig := { s.rig with ddrAt := (slot.toNat + 1) % 4096, slotUse := e / 4096 } }
      if e / 4096 = 1 then
        match s.port (nbits e 11 9) 0 (nbits e 8 6) with
        | some (req, comp) => s.ddrRequest req comp
        | none => s
      else if e / 4096 = 3 then s.ddrScrubSlot
      else s)

/-- DDR_BURST_COMPLETE (R137, R141). -/
def execDdrBurstComplete (s : State) : Res := .next (s.deliverOldest 8)

/-! ### PKE requests of lays (R144, R478) -/

/-- The status of a lay's verification (R478): 0 VALID, 1 INVALID, 2 MALFORMED, 3 NOT_ON_CURVE. MALFORMED: an OP that is no
verification, a pad that is not zero, a coordinate outside the field (DESIGN CHOICE, log entry 11). -/
def verifyStatus (op : Nat) (data : List Byte) : Nat :=
  let field (i : Nat) := (data.drop (48 * i)).take 48
  let num (i : Nat) := beNat (field i)
  let c := if op = 1 then p256 else p384
  let padOk := op = 2 || (List.range 5).all (fun i => ((field i).take 16).all (· = 0))
  if !(op = 1 || op = 2) || !padOk || c.p ≤ num 1 || c.p ≤ num 2 then 2
  else if !c.on (num 1, num 2) then 3
  else if c.verify (num 1, num 2) ((field 0).drop (48 - c.bytes)) (num 3) (num 4) then 0 else 1

/-- Descriptor cells without the marker discarded, each counted (R478). -/
def State.pkeResync (s : State) (req : Nat) : Nat → State
  | 0 => s
  | fuel + 1 =>
    match s.peekCell req 0 with
    | none => s
    | some c =>
      if bits c 127 120 = 0xA5 then s
      else (((s.pop req).2).bump (pa .pke 0 rPKE_RESYNC) 1).pkeResync req fuel

/-- n cells popped, in order. -/
def State.popMany (s : State) (req : Nat) : Nat → List Cell512 × State
  | 0 => ([], s)
  | n + 1 =>
    match s.pop req with
    | (none, s) => ([], s)
    | (some (c, _), s) => let (l, s) := s.popMany req n
                          (c :: l, s)

/-- The cells of the message at the front of a splice popped, up to its LAST cell; fuel bounds the pops. -/
def State.popMessage (s : State) (n : Nat) : Nat → List Cell512 × State
  | 0 => ([], s)
  | fuel + 1 =>
    match s.pop n with
    | (none, s) => ([], s)
    | (some (c, _), s) =>
      if cellLast c then ([c], s)
      else let (l, s) := s.popMessage n fuel
           (c :: l, s)

/-- The lay that two paired host-facing splices join to the host (R37): it consumes the one and produces the other. Which splices are paired is
the rigging's choice (log entry 34). -/
def State.ringOwner (s : State) (ring reply : Nat) : Option Nat :=
  let c := s.rd (descA (6144 + ring) 1)
  let p := s.rd (descA (6144 + reply) 1)
  if bits c 12 8 = 0 ∧ bits p 28 24 = 0 ∧ bits c 2 0 = bits p 18 16 then some (bits c 2 0) else none

/-- The units left of a lay's budget of class 7 or 8. -/
def State.quota (s : State) (lay cls : Nat) : Nat := look (fun _ => 0) s.work.quota (lay * 2 + (cls - 7))

/-- Units taken from the budget of class 7 or 8. -/
def State.useQuota (s : State) (lay cls n : Nat) : State :=
  { s with work := { s.work with quota := Machine.store (fun _ => 0) s.work.quota (lay * 2 + (cls - 7)) (s.quota lay cls - n) } }

/-- The lays that own the field state, the stored records, the balance and the reading checks under STD-1 (R25, log entry 34). -/
def fieldLay (l : Nat) : Bool := l = 7
/-- See `fieldLay`. -/
def storeLay (l : Nat) : Bool := l = 5
/-- See `fieldLay`. -/
def balLay (l : Nat) : Bool := l = 6
/-- See `fieldLay`. -/
def ingestLay (l : Nat) : Bool := l ≤ 4

/-- May a host command be served now (R37): the lay that both splices join to the host owns the state, has budget of class 8 left, and
finds room for the completion, which is pushed with the command's effect. -/
def State.hostMay (s : State) (own : Nat → Bool) (ring reply : Nat) : Bool :=
  (s.ringOwner ring reply).any (fun l => own l && decide (0 < s.quota l 8)) && decide (0 < s.space (6144 + reply))

/-- One command charged to the owning lay's budget. -/
def State.hostSpend (s : State) (ring reply : Nat) : State :=
  match s.ringOwner ring reply with
  | some l => s.useQuota l 8 1
  | none => s

/-- A host command served (R37): popped from a host-facing splice by the lay that owns the state, applied, and answered with a completion cell
of the command's CHAN and AUX on the paired splice; how the words tell the outcome is the rigging's. -/
def State.hostServe (s : State) (own : Nat → Bool) (ring reply : Nat) (act : State → List Nat × State) : State :=
  if !s.hostMay own ring reply then s
  else match s.popMessage (6144 + ring) 4096 with
    | ([], s) => s
    | (c :: _, s) =>
      let (r, s) := act (s.hostSpend ring reply)
      s.offer (6144 + reply) (mkCompletion (cellChan c) (cellAux c) ((Config.hostWords r).map (·.toNat)))

/-- The cells of the message a block has begun at a splice. -/
def State.begun (s : State) (n : Nat) : List Cell512 := ((s.partials.find? (fun e => e.2.1 = n)).map (fun e => e.2.2)).getD []

/-- The cells begun at a splice set; none: no message is open. -/
def State.setBegun (s : State) (code n : Nat) (l : List Cell512) : State :=
  let rest := s.partials.filter (fun e => e.2.1 ≠ n)
  { s with partials := if l = [] then rest else rest ++ [(code, (n, l))] }

/-- A message-consuming block pops the cells of a splice up to the end of a message (R194): abandoned, the open message a new FIRST cell
broke off, and the cells of the message that ended; fuel bounds the pops. -/
def State.takeMessage (s : State) (code n : Nat) : Nat → List Cell512 × List Cell512 × State
  | 0 => ([], [], s)
  | fuel + 1 =>
    match s.peekCell n 0 with
    | none => ([], [], s)
    | some c =>
      let l := s.begun n
      if l ≠ [] ∧ cellFirst c then (l, [], s.setBegun code n [])
      else
        let c := ((s.pop n).1.map (·.1)).getD c
        let s := (s.pop n).2
        if cellLast c then ([], l ++ [c], s.setBegun code n []) else (s.setBegun code n (l ++ [c])).takeMessage code n fuel

/-- A lay's verification request taken (R478): three: a run of three consecutive owned slots starts here. -/
def State.pkeTake (s : State) (lay : Nat) (three : Bool) : State :=
  match s.port lay 2 0 with
  | none => s
  | some (req, comp) =>
    let s := s.pkeResync req 4096
    match s.peekCell req 5, s.peekCell req 0 with
    | some _, some d =>
      let w := (cellWord d 1).toNat
      if nbits w 7 0 = 2 ∧ !three then s
      else
        let (cs, s) := s.popMany req 6
        let data := (cs.drop 1).flatMap (fun c => cellBytes c 56)
        let kat := s.bitAt (pa .pke 0 0x014) 2
        let st := if kat then 2 else verifyStatus (nbits w 7 0) data
        let s := { s with rig := { s.rig with pkeBusy := if nbits w 7 0 = 2 then 2 else 0 } }
        s.post 12 comp [mkCompletion 0 0 [st + nbits w 47 16 * 2 ^ 16, 0, 0, 0, 0, 0, 0]]
    | _, _ => s

/-- The owner of a slot of the PKE frame (R159). -/
def State.pkeOwner (s : State) (i : Nat) : Nat := s.rig.pke.getD (i % 20) 15

/-- The next slot of the PKE frame passes (R144, R164): one inside a P-384 operation takes nothing, else a lay's takes its oldest request. Slots
coded 0x8 are the Lanyard's (R477). -/
def State.pkeStep (s : State) : State :=
  let i := s.rig.pkeAt
  let s := { s with rig := { s.rig with pkeAt := (i + 1) % 20, pkeRun := if s.pkeOwner i = 8 then s.rig.pkeRun + 1 else 0 } }
  if 0 < s.rig.pkeBusy then { s with rig := { s.rig with pkeBusy := s.rig.pkeBusy - 1 } }
  else if s.pkeOwner i < 8 then
    s.pkeTake (s.pkeOwner i) (s.pkeOwner (i + 1) = s.pkeOwner i && s.pkeOwner (i + 2) = s.pkeOwner i)
  else s

/-- PKE_SLOT (R144): the next of the 20 slots. -/
def execPkeSlot (slot : Fin 20) (s : State) : Res :=
  .next (if !(s.domOn 16 && s.rig.frames) || s.rig.pkeAt ≠ slot.val then s else s.pkeStep)

/-- PKE_VERIFY_REQUEST (R144, R478): the oldest request of a lay is taken in the slot that comes, where the lay owns it. -/
def execPkeVerifyRequest (lay : Fin 8) (s : State) : Res :=
  .next (if !(s.domOn 16 && s.rig.frames) || s.pkeOwner s.rig.pkeAt ≠ lay.val then s else s.pkeStep)

/-- PKE_VERIFY_COMPLETE (R137, R478). -/
def execPkeVerifyComplete (s : State) : Res :=
  .next (if s.outbox.any (fun e => e.1 = 12) then (s.deliverOldest 12).bumpMod (pa .pke 0 rPKE_DONE_CNT) 1 else s)

/-! ### Splice commands (R191 to R210) -/

/-- SPLICE_CONFIG_WRITE (R15, R191, R192). -/
def State.splCfg (s : State) (q : Requester) (n : Nat) (v : Word32) : State :=
  s.guarded q (descA n 0) v (s.cfgBad n v) fun s =>
    (s.wr (descA n 0) (cfgAfter (s.rd (descA n 0)) v)).splEmptied n

/-- SPLICE_CONFIG_WRITE (R192). -/
def execSpliceConfigWrite (q : Requester) (n : BitVec 13) (v : BitVec 32) (s : State) : Res := .next (s.splCfg q n.toNat v)

/-- A write of SPD_ENDS (R191, R711). -/
def State.splEnds (s : State) (q : Requester) (n : Nat) (v : Word32) : State :=
  s.guarded q (descA n 1) v (s.endsBad n v) fun s => s.wr (descA n 1) (endsAfter (s.rd (descA n 1)) v)

/-- SPLICE_ENDS_WRITE (R711). -/
def execSpliceEndsWrite (q : Requester) (n : BitVec 13) (v : BitVec 32) (s : State) : Res := .next (s.splEnds q n.toNat v)

/-- CROSS_DOMAIN_VISIBILITY (R199): freed: the producer's copy of the read pointer, else the consumer's of the write
pointer, is brought up to date; a splice of KIND 0 has one clock (R711). -/
def execCrossDomainVisibility (n : BitVec 13) (freed : Bool) (s : State) : Res :=
  let x := s.spl n.toNat
  .next (if s.splKind n.toNat = 0 then s else s.setSpl n.toNat (if freed then { x with rSeen := x.r.t.toNat } else { x with wSeen := x.w.t.toNat }))

/-- BLOCK_COMMIT (R196): the oldest cell held for a splice, once its producer's view shows space. -/
def execBlockCommit (n : BitVec 13) (s : State) : Res :=
  .next (match s.held.find? (fun h => h.1 = n.toNat) with
    | none => s
    | some h =>
      if s.splFull n.toNat then s
      else { s with held := s.held.erase h }.blockPut n.toNat h.2)

/-- The check of one pointer of a splice (R201): agreed, restored from the good copy, or the splice reset. -/
def State.pointerCheck (s : State) (n : Nat) (producer : Bool) : State :=
  let x := s.spl n
  let p := if producer then x.w else x.r
  if p.agree then s
  else match p.restore with
    | some p' =>
      ((s.setSpl n (if producer then { x with w := p' } else { x with r := p' })).cause .splice 0 4).bump
        (pa .splice 0 rSPL_PTR_CORR_CNT) 1
    | none => s.ptrReset n

/-- POINTER_CHECK (R201, R202): an end's comparison in a cycle; a reset's window runs down. -/
def execPointerCheck (n : BitVec 13) (producer : Bool) (s : State) : Res :=
  .next (if !s.splEn n.toNat then s
    else if 0 < (s.spl n.toNat).window then
      s.setSpl n.toNat { s.spl n.toNat with window := (s.spl n.toNat).window - 1 }
    else s.pointerCheck n.toNat producer)

/-- POOL_SCRUB (R204): one SYS cycle; busy: a bank that a commit or pop uses in it. -/
def execPoolScrub (busy : Option (Fin 16)) (s : State) : Res :=
  let w := s.poolScrub
  .next (if !s.domOn 1 || busy.any (fun b => b.val = w / 65536) then s
    else
      let c := s.eccOf .pool (8 * w)
      let s := s.poolFound (w / 8) (w % 8) c true
      let s := if c = 1 then s.setEcc .pool (8 * w) 0 else s
      { s with poolScrub := (w + 1) % 1048576 })

/-- A write of SPL_FLUSH (R207). -/
def State.splFlush (s : State) (q : Requester) (v : Word32) : State :=
  s.guarded q (pa .splice 0 rSPL_FLUSH) v (bit v 31 && !s.splIdle (bits v 12 0)) fun s =>
    if bit v 31 then s.splEmptied (bits v 12 0) else s

/-- SPLICE_FLUSH (R207). -/
def execSpliceFlush (q : Requester) (n : BitVec 13) (s : State) : Res :=
  .next (s.splFlush q (BitVec.ofNat 32 (2 ^ 31 + n.toNat)))

/-- A read of SPL_PEEK_DATA (R210): the word, the reader's latch, and what the check reports. -/
def State.poolPeek (s : State) (q : Requester) : State :=
  let a := pa .splice 0 rSPL_PEEK_DATA
  let k := s.rd (pa .splice 0 rSPL_PEEK_ADDR)
  let s := s.read64 q a
  if s.domOn 1 then s.poolFound (bits k 19 3) (bits k 2 0) (s.eccOf .pool (bits k 19 3 * 64 + bits k 2 0 * 8)) false else s

/-- POOL_PEEK (R210). -/
def execPoolPeek (q : Requester) (s : State) : Res := .next (s.readBy q fun s => s.poolPeek q)

/-! ### The mailbox's replies (R529) -/

/-- The cells of a message of 64-bit words (R529). -/
def wordCells (chan aux : Nat) (ws : List Nat) : List Cell512 := messageCells chan aux (ws.flatMap (toLe 8))

/-- The reply to the request in service (R529): word 1 with STATUS and DETAIL, then the body from word 2. -/
def State.reply (s : State) (status detail : Nat) (ws : List Nat) : State :=
  match s.lany.mail with
  | none => s
  | some m =>
    ({ s with lany := { s.lany with mail := none } }).offerAll 6145
      (wordCells m.req m.tag ((status % 256 + detail % 2 ^ 16 * 2 ^ 16) :: ws))

/-- REFUSED where the request's chapter states no code: DETAIL is a free value (log entry 25). -/
def State.replyRefused (s : State) : State :=
  let (w, s) := s.draw
  s.reply 3 w.toNat []

/-- The reply of a request whose effect takes time, once it has ended. -/
def State.replyLater (s : State) (req status detail : Nat) (ws : List Nat) : State :=
  if s.lany.mail.any (fun m => m.req = req && m.begun) then s.reply status detail ws else s

end Sys2Proof.Machine
end

