-- ==== Sys2Proof/Machine/Xu.lean ====
section
/-! DEFINITION. The XU stream unit's operations (R94, R100 to R116): splice pops and pushes, flags, key loads, AES, GHASH,
CRC and multiply-accumulate. -/

namespace Sys2Proof.Machine

/-- The page of a producing block end (R187). -/
def endPage (code : Nat) : Option Pg :=
  if code = 1 ∨ code = 2 then some .ingest
  else if code = 3 then some .eth else if code = 4 then some .radio else if code = 5 then some .plc
  else if code = 6 then some .uart else if code = 7 ∨ code = 8 then some .ddr
  else if code = 9 ∨ code = 10 then some .nand else if code = 11 ∨ code = 12 then some .pke
  else if code = 13 ∨ code = 14 then some .meas else if code = 15 then some .tsu
  else if code = 16 ∨ code = 17 then some .pair else if code = 18 then some .evr
  else if code = 19 then some .totals else if code = 20 then some .pcie else none

/-- A not-valid cell of this splice raises nothing, because of its producer's state (R177). -/
def State.producerQuiet (s : State) (n : Nat) : Bool :=
  let e := s.rd (descA n 1)
  let code := bits e 28 24
  if code = 0 then
    let l := bits e 18 16
    let st := s.laySt l
    !s.domOn (3 + l) || st = 4 || st = 1 || st = 0 || (st = 5 && s.bitAt (pa .dbg 0 rDBG_GUARD_MASK) 0)
  else match endPage code with
    | some p => !s.domOn (pageDomain p 0) || s.bitAt (pa p 0 0x010) 1
    | none => !s.domOn 2

/-- A cell delivered to an octet: latency 4 (R101). -/
def State.deliver (s : State) (x : Issue) (oct : BitVec 3) (c : Cell512) : State :=
  s.fly x 3 4 (.regs (octetWrites oct.toNat c))

/-- A splice end used by the lay in this cycle (R104). -/
def State.useEnd (s : State) (x : Issue) (n : Nat) (producer : Bool) : State :=
  let l := s.lay x.lay.val
  s.setLay x.lay.val { l with used := (n, producer) :: l.used }

/-- The XU's injected CELL_UE of the next cell popped (R127). -/
def State.injectCell (s : State) (n : Nat) : Bool × State :=
  let a := pa .strand n 0x01C
  (s.bitAt a 17, if s.bitAt a 17 && !s.bitAt a 31 then s.putBit a 17 false else s)

/-- A pop issued (R100, R101, R104, R105, R177); must: a not-valid cell raises POP_EMPTY. -/
def State.popOp (x : Issue) (oct : BitVec 3) (n : Nat) (must : Bool) (s : State) : State :=
  s.when x fun s =>
    let me := issueNo x
    if !s.granted x.lay.val x.strand.val n false then (s.strandCause me 11).deliver x oct 0
    else if (s.lay x.lay.val).used.contains (n, false) then (s.strandCause me 12).deliver x oct 0
    else
      let s := s.useEnd x n false
      match s.pop n with
      | (none, s) => (if must && !s.producerQuiet n then s.strandCause me 15 else s).deliver x oct 0
      | (some (c, ue), s) =>
        let (inj, s) := s.injectCell me
        let s := if ue || inj then s.strandCause me 17 else s
        s.deliver x oct (if inj then BitVec.ofNat 512 (c.toNat ||| 2 ^ 62) else c)

/-- A push issued (R100, R102 to R104): the octet is read now and commits at the end of cycle c + 2, VALID set. -/
def State.pushOp (x : Issue) (oct : BitVec 3) (n : Nat) (s : State) : State :=
  s.when x fun s =>
    let me := issueNo x
    if !s.granted x.lay.val x.strand.val n true then s.strandCause me 11
    else if (s.lay x.lay.val).used.contains (n, true) then s.strandCause me 12
    else
      let c := (s.str me).octet oct.toNat
      (s.useEnd x n true).fly x 3 3 (.commit n (BitVec.ofNat 512 (c.toNat ||| 2 ^ 63)))

/-- The splice a register names: its bits 12:0 (R84). -/
def State.spliceOf (s : State) (x : Issue) (a : BitVec 6) : Nat := ((s.ofIssue x).reg a.toNat).toNat % 8192

/-- POPE (R94, R101). -/
def execPope (x : Issue) (oct : BitVec 3) (n : BitVec 13) (s : State) : Res := .next (s.popOp x oct n.toNat true)
/-- POPO (R94, R101). -/
def execPopo (x : Issue) (oct : BitVec 3) (n : BitVec 13) (s : State) : Res := .next (s.popOp x oct n.toNat false)
/-- POPER (R94, R101). -/
def execPoper (x : Issue) (oct : BitVec 3) (a : BitVec 6) (s : State) : Res :=
  .next (s.popOp x oct (s.spliceOf x a) true)
/-- POPOR (R94, R101). -/
def execPopor (x : Issue) (oct : BitVec 3) (a : BitVec 6) (s : State) : Res :=
  .next (s.popOp x oct (s.spliceOf x a) false)
/-- PUSH (R94, R102). -/
def execPush (x : Issue) (oct : BitVec 3) (n : BitVec 13) (s : State) : Res := .next (s.pushOp x oct n.toNat)
/-- PUSHR (R94, R102). -/
def execPushr (x : Issue) (oct : BitVec 3) (a : BitVec 6) (s : State) : Res :=
  .next (s.pushOp x oct (s.spliceOf x a))
/-- SEMP (R94): the empty flag as the consumer sees it. A pop moves the read pointer when it issues, so that SEMP sees the pop of a
lower-numbered strand of the same cycle and not that of a higher-numbered one (DESIGN CHOICE, log entry 34: R94 does not say). -/
def execSemp (x : Issue) (pd : BitVec 3) (n : BitVec 13) (s : State) : Res :=
  .next (s.when x fun s => s.fly x 3 1 (.preds [(pd.toNat, s.splEmpty n.toNat)]))
/-- The pushes of a lay to a splice issued before this cycle and not yet committed (R133, R199). -/
def State.pushesOut (s : State) (x : Issue) (n : Nat) : Nat :=
  (List.range 16).foldl (fun c k => c + (s.str (strandNo x.lay.val k)).flight.countP (fun f =>
    f.issued < s.cyc x && match f.late with | .commit m _ => m = n | _ => false)) 0

/-- The full flag SFULL reads (R199): on a splice that is not within a lay, pushes under way count as committed. -/
def State.sfull (s : State) (x : Issue) (n : Nat) : Bool :=
  s.splFull n || (s.splKind n ≠ 0 && s.splDepth n ≤ s.pfill n + s.pushesOut x n)

/-- SFULL (R94, R199). -/
def execSfull (x : Issue) (pd : BitVec 3) (n : BitVec 13) (s : State) : Res :=
  .next (s.when x fun s => s.fly x 3 1 (.preds [(pd.toNat, s.sfull x n.toNat)]))

/-- A key load issued (R107 to R109): refused with KEY_BUSY while the register is PENDING; else the register's key is erased
and the request joins the port. op: 0 KLDS, 1 KLDD, 2 KLDW. -/
def State.keyLoad (x : Issue) (k : BitVec 2) (op : Nat) (a b : Word64) (blob : Cell512) (s : State) : State :=
  s.when x fun s =>
    let n := issueNo x
    if ((s.str n).key k.toNat).st = .pending then s.strandCause n 8
    else
      let s := s.setStr n ((s.str n).setKey k.toNat ⟨.pending, false, 0, ⟨[], 0⟩⟩)
      let l := s.lay x.lay.val
      s.setLay x.lay.val { l with keyq := l.keyq ++ [⟨x.strand.val, k.toNat, op, a, b, blob, false⟩] }

/-- KLDS (R94, R107). -/
def execKlds (x : Issue) (k : BitVec 2) (a : BitVec 6) (s : State) : Res :=
  .next (s.keyLoad x k 0 ((s.ofIssue x).reg a.toNat) 0 0)
/-- KLDD (R94, R107). -/
def execKldd (x : Issue) (k : BitVec 2) (a b : BitVec 6) (s : State) : Res :=
  .next (s.keyLoad x k 1 ((s.ofIssue x).reg a.toNat) ((s.ofIssue x).reg b.toNat) 0)
/-- KLDW (R94, R107). -/
def execKldw (x : Issue) (k : BitVec 2) (oct : BitVec 3) (s : State) : Res :=
  .next (s.keyLoad x k 2 0 0 ((s.ofIssue x).octet oct.toNat))
/-- KST (R110). -/
def execKst (x : Issue) (k : BitVec 2) (d : BitVec 6) (s : State) : Res :=
  .next (s.when x fun s =>
    let r := (s.ofIssue x).key k.toNat
    s.flyReg x 3 1 d.toNat (BitVec.ofNat 64 ((r.len256 && r.st = .ready).toNat * 256 + keyStCode r.st)))

/-- The pending loads of a key register cancelled (R707). -/
def cancelLoads (q : List KeyReq) (strand k : Nat) : List KeyReq :=
  q.map (fun r => if r.strand = strand ∧ r.k = k then { r with cancelled := true } else r)

/-- KCLR (R94, R707). -/
def execKclr (x : Issue) (k : BitVec 2) (s : State) : Res :=
  .next (s.when x fun s =>
    let s := s.setStr (issueNo x) ((s.ofIssue x).setKey k.toNat KeyReg.clear)
    let l := s.lay x.lay.val
    s.setLay x.lay.val { l with keyq := cancelLoads l.keyq x.strand.val k.toNat })

/-- The 16 bytes of a pair (R85). -/
def pairBytes (v : BitVec 128) : List Byte := toLe 16 v.toNat

/-- A pair from 16 bytes (R85). -/
def bytesPair (l : List Byte) : BitVec 128 := BitVec.ofNat 128 (leNat l)

/-- The key bytes of a READY register, 16 or 32, byte 0 first. -/
def keyBytes (r : KeyReg) : List Byte := toBe (if r.len256 then 32 else 16) r.key.toNat

/-- AESB (R111, R112). -/
def execAesb (x : Issue) (k : BitVec 2) (d a : BitVec 6) (s : State) : Res :=
  .next (s.when x fun s =>
    let t := s.ofIssue x
    let r := t.key k.toNat
    let out : BitVec 128 := if r.st = .ready then bytesPair (aes (keyBytes r) (pairBytes (t.pair a.toNat))) else 0
    let s := if r.st = .pending then s.strandCause (issueNo x) 9
      else if r.st = .empty then s.strandCause (issueNo x) 10 else s
    s.fly x 3 16 (.regs (pairWrites d.toNat out)))

/-- GMUL (R114). -/
def execGmul (x : Issue) (d a b : BitVec 6) (s : State) : Res :=
  .next (s.when x fun s =>
    let t := s.ofIssue x
    let v := gfMul (blockNat (pairBytes (t.pair a.toNat))) (blockNat (pairBytes (t.pair b.toNat)))
    s.fly x 3 4 (.regs (pairWrites d.toNat (bytesPair (toBe 16 v)))))

/-- A CRC operation over bytes 0 to n of B (R115). -/
def State.crcOp (x : Issue) (w poly : Nat) (d a b : BitVec 6) (n : BitVec 3) (s : State) : State :=
  s.when x fun s =>
    let t := s.ofIssue x
    let v := crcOver poly ((t.reg a.toNat).toNat % 2 ^ w) (toLe (n.toNat + 1) (t.reg b.toNat).toNat)
    s.flyReg x 3 2 d.toNat (BitVec.ofNat 64 v)

/-- CRC16 (R115). -/
def execCrc16 (x : Issue) (d a b : BitVec 6) (n : BitVec 3) (s : State) : Res := .next (s.crcOp x 16 0x8408 d a b n)
/-- CRC32 (R115). -/
def execCrc32 (x : Issue) (d a b : BitVec 6) (n : BitVec 3) (s : State) : Res := .next (s.crcOp x 32 0xEDB88320 d a b n)

/-- MACU (R116): the product joins ACC at the end of cycle c + 3. -/
def execMacu (x : Issue) (a b : BitVec 6) (s : State) : Res :=
  .next (s.when x fun s => let t := s.ofIssue x
    s.fly x 3 4 (.accAdd ((t.reg a.toNat).setWidth 128 * (t.reg b.toNat).setWidth 128)))
/-- MACS (R116). -/
def execMacs (x : Issue) (a b : BitVec 6) (s : State) : Res :=
  .next (s.when x fun s => let t := s.ofIssue x
    s.fly x 3 4 (.accAdd ((t.reg a.toNat).signExtend 128 * (t.reg b.toNat).signExtend 128)))
/-- MACZ (R116). -/
def execMacz (x : Issue) (s : State) : Res := .next (s.when x fun s => s.fly x 3 1 .accClear)
/-- MACRL (R116). -/
def execMacrl (x : Issue) (d : BitVec 6) (s : State) : Res :=
  .next (s.when x fun s => s.flyReg x 3 1 d.toNat ((s.ofIssue x).acc.extractLsb' 0 64))
/-- MACRH (R116). -/
def execMacrh (x : Issue) (d : BitVec 6) (s : State) : Res :=
  .next (s.when x fun s => s.flyReg x 3 1 d.toNat ((s.ofIssue x).acc.extractLsb' 64 64))

end Sys2Proof.Machine
end

