-- ==== Sys2Proof/Machine/PairLink.lean ====
section
/-! DEFINITION. The pair link's frames (R570, R571) and what STORE sends by it (R579). -/

namespace Sys2Proof.Machine

/-- A register of the PAIR page. -/
abbrev prA (o : Nat) : Nat := pa .pair 0 o

/-- A PAIR counter advanced (R593). -/
def State.pairCount (s : State) (i : Nat) : State := s.bumpBk (prA rPAIR_CNT) i (2 ^ 32 - 1) 1

/-- The key the PAIR engine holds (R571), engine 13, while its slot's MASK holds the engine. -/
def State.pairKey (s : State) : Option (List Byte) :=
  match s.copies.find? (fun e => e.1 = 13 * 16) with
  | some (_, r) => if r.st = .ready && (s.slot (s.fld (prA rPAIR_KEYSLOT) 11 0)).mask.testBit 13 then some (keyBytes r) else none
  | none => none

/-- The lanes that are up (R570). -/
def State.lanesUp (s : State) : List Nat := [0, 1].filter (fun i => s.bitAt (prA rPAIR_STAT) i)

/-- Is the link up (R570). -/
def State.linkUp (s : State) : Bool := s.domOn 11 && s.bitAt (prA rPAIR_STAT) 2

/-- Does the PAIR block send and receive: on, enabled, a lane up, its key at hand. -/
def State.pairOn (s : State) : Bool := s.domOn 11 && s.bitAt (prA 0x00C) 0 && decide (s.lanesUp ≠ []) && s.pairKey.isSome

/-- A new session (R571): a non-zero number from the DRBG. -/
def State.newSession (s : State) : State :=
  let (w, s) := s.draw
  { s with pair := { s.pair with session := max 1 (w.toNat % 2 ^ 32), fctr := 0 } }

/-- A pair frame (R570, R571): its bytes before the tag, and the tag. -/
def pairFrameBytes (key : List Byte) (session fctr type : Nat) (body : List Byte) : List Byte × List Byte :=
  let iv := toBe 4 session ++ toBe 8 fctr
  let head := toBe 1 type ++ toBe 1 1 ++ toBe 2 body.length ++ iv
  let c := gcmText key iv body
  (head ++ c, gcmTag key iv head c)

/-- A frame on one lane (R570, R571): ports 21 and 22 of the wire are the lanes. -/
def State.pairFrame (s : State) (type : Nat) (body key : List Byte) (lane : Nat) : State :=
  let n := s.pair.fctr + 1
  let s := { s with pair := { s.pair with fctr := n } }
  let f := pairFrameBytes key s.pair.session n type body
  s.send (21 + lane) 0 (f.1 ++ f.2)

/-- Does the tag of a received frame verify under the part's key (R571). -/
def State.pairGood (s : State) (h : PairHead) (type : Nat) (body : List Byte) : Bool :=
  s.pairKey.any (fun key => (pairFrameBytes key h.session.toNat h.fctr.toNat type body).2 == toBe 16 h.tag.toNat)

/-- A frame sent (R570, R571): on every lane that is up, or on one in turn; with a MISMATCH only HELLO. -/
def State.pairSend (s : State) (type : Nat) (body : List Byte) (every : Bool) : State :=
  match s.pairKey with
  | none => s
  | some key =>
    if !s.pairOn || (s.bitAt (prA rPAIR_STAT) 3 && decide (type ≠ 1)) then s
    else
      let s := if s.pair.session = 0 then s.newSession else s
      let l := s.lanesUp
      if every then l.foldl (fun s i => s.pairFrame type body key i) s
      else s.pairFrame type body key (l.getD (s.pair.fctr % max 1 l.length) 0)

/-- May the active mirror to its peer (R579): the link is up, the peer is STANDBY and fits. -/
def State.peerReady (s : State) : Bool :=
  s.linkUp && !s.bitAt (prA rPAIR_STAT) 3 && decide (s.role = 2) && s.pair.peer.any (fun p => p.role.val = 3)

/-- The metadata record of a page (R500). -/
def metaBytes (p : PageRec) : List Byte :=
  let l := toLe 4 p.lbn ++ toLe 2 p.page ++ toLe 1 (p.stream + p.reloc.toNat * 8 + (decide (p.page = 0)).toNat * 16) ++ toLe 1 1 ++ toLe 8 p.seq ++
    toLe 4 p.erases ++ toLe 4 0 ++ toLe 16 p.user ++ toLe 4 0
  l ++ toLe 4 (crc32 l)

/-- The body of a PAGE, CATCHUP or SALVAGE frame: LBN in 4 bytes, PAGE in 2, STREAM in 1 (log entry 30). -/
def pageBody (lbn page stream : Nat) (record data : List Byte) : List Byte := toBe 4 lbn ++ toBe 2 page ++ toBe 1 stream ++ record ++ data

/-- The body of a page received. -/
def pagePlain (p : PairPage) : List Byte := pageBody p.lbn.toNat p.page.toNat p.stream.val p.record p.data

/-- The body of a HELLO (R571), its fields in 8, 4, 4, 1, 4, 1 and 1 bytes (log entry 30). -/
def helloBytes (b : HelloBody) : List Byte :=
  toBe 8 b.serial.toNat ++ toBe 4 b.hwtype.toNat ++ toBe 4 b.fit.toNat ++ toBe 1 b.role.val ++ toBe 4 b.epoch.toNat ++ toBe 1 b.pref.toNat ++
  toBe 1 b.caughtUp.toNat

/-- The body of a VERIFIED (R571): LBN in 4 bytes, PAGE in 2, STATUS in 1. -/
def verifiedBody (lbn page status : Nat) : List Byte := toBe 4 lbn ++ toBe 2 page ++ toBe 1 status

/-- The answer to a page (R571). -/
def State.verified (s : State) (lbn page status : Nat) : State := s.pairSend 5 (verifiedBody lbn page status) false

/-- A page on its way to the peer. -/
def State.sendPage (s : State) (type : Nat) (p : PageRec) (data : List Byte) : State :=
  s.pairSend type (pageBody p.lbn p.page p.stream (metaBytes p) data) false

/-! ### Copies on the ferroelectric die (R577, R590) -/

/-- The write count of a copy, where it is valid. -/
def State.pairCopyCount (s : State) (a : Nat) : Option Nat := (s.pairCopy a).map (fun _ => s.die.le .fram (a + 8) 4)

/-- A word written to the copy that is not the last written; fail: the read-back fails twice, which leaves free values. -/
def State.pairStore (s : State) (a v : Nat) (fail : Bool) : State :=
  let x := s.pairCopyCount a
  let y := s.pairCopyCount (a + 0x10)
  let second := match x, y with
    | some m, some n => decide (n < m)
    | some _, none => true
    | none, _ => false
  let n := max (x.getD 0) (y.getD 0) + 1
  let at_ := if second then a + 0x10 else a
  if fail then
    let (ws, s) := s.drawN 2
    s.framPut 3 at_ (ws.flatMap (fun w => toLe 8 w.toNat))
  else s.framPut 3 at_ (toLe 4 v ++ toLe 4 (2 ^ 32 - 1 - v % 2 ^ 32) ++ toLe 4 n ++ toLe 4 0)

/-- SOLO_SEQ (R590) as the copy written last has it; none is 0xFFFF_FFFF (log entry 30). -/
def State.soloSeq (s : State) : Option Nat :=
  let x := s.pairCopyCount 0x1F2080
  let y := s.pairCopyCount 0x1F2090
  let v := match x, y with
    | some m, some n => s.pairCopy (if n < m then 0x1F2080 else 0x1F2090)
    | some _, none => s.pairCopy 0x1F2080
    | none, some _ => s.pairCopy 0x1F2090
    | none, none => none
  v.filter (fun k => k ≠ 2 ^ 32 - 1)

/-- SOLO_SEQ and PAIR_STAT.SOLO set or cleared. -/
def State.setSolo (s : State) (v : Option Nat) : State :=
  let s := if s.soloSeq = v then s else s.pairStore 0x1F2080 (v.getD (2 ^ 32 - 1)) false
  if s.bitAt (prA rPAIR_STAT) 4 = v.isSome then s else (s.putBit (prA rPAIR_STAT) 4 v.isSome).irq .pair 0 1

/-! ### Reservation limits (R581) -/

/-- Is pair operation enabled. -/
def State.pairEn (s : State) : Bool := s.bitAt (pa .lease 0 rLEASE_CTRL) 0

/-- May limit i (0 to 3 RADIO, 4 PLC, 5 + k COSEM role k) not advance now: no standby to store it, or one waits for its answer. -/
def State.limitBars (s : State) (i : Nat) : Bool := s.pairEn && (!s.peerReady || s.pair.limits.any (fun e => e.1 = i))

/-- A new limit sent to the standby; the frame's body is the index in one byte and the limit in four (log entry 30). -/
def State.limitSend (s : State) (i r : Nat) : State :=
  let s := { s with pair := { s.pair with limits := s.pair.limits ++ [(i, r)] } }
  s.pairSend 7 (toBe 1 i ++ toBe 4 r) false

end Sys2Proof.Machine
end

