-- ==== Sys2Proof/Machine/Nand.lean ====
section
/-! DEFINITION. STORE (14_storage.md): blocks and streams, the port queues, the slots of the NAND frame, programs, reads,
releases, erases, relocation, the journal, scrub reads, the scan, foreground collection and health. -/

namespace Sys2Proof.Machine

/-! ### Blocks (R501, R502) -/

/-- The FREE block of a target with the lowest erase count, and of those the lowest number. -/
def State.freeBlock (s : State) (t : Nat) : Option Nat :=
  let l := s.blocksOf t
  match (List.range (min s.blocksPer (l.length + 1))).find? (fun b => !l.any (fun e => e.1 = t * 8192 + b)) with
  | some b => some (t * 8192 + b)
  | none => (l.filter (fun e => e.2.st = .free)).foldl (fun (a : Option (Nat × Block)) e =>
      match a with
      | none => some e
      | some m => if e.2.erases < m.2.erases then some e else a) none |>.map (·.1)

/-- The lowest free LBN (R501, R502). -/
def State.freeLbn (s : State) : Option Nat :=
  let used := s.nand.blocks.filterMap (fun e => e.2.lbn)
  (List.range (min 262144 (used.length + 1))).find? (fun n => !used.contains n)

/-- The block bound to an LBN: not a copy that is still being made. -/
def State.lbnBlock (s : State) (lbn : Nat) : Option (Nat × Block) :=
  s.nand.blocks.find? (fun e => e.2.lbn = some lbn && !s.nand.reloc.any (fun r => r.dst = some e.1))

/-- A NAND counter advanced (R521). -/
def State.nandCount (s : State) (i : Nat) : State := s.bumpBk (nandA rNAND_CNT) i (2 ^ 64) 1

/-- The physical address of a page's data bytes in the NAND space. -/
def pageAddr (k page : Nat) : Nat := (k * 1024 + page) * 16384

/-- The physical address of a page's metadata record in the NAND space, behind every page's data (R499). -/
def recordAddr (k page : Nat) : Nat := 2 ^ 44 + (k * 1024 + page) * 64

/-- Is the metadata record of a written page readable (R500): its CRC is that of its bytes 0 to 43. -/
def State.recordGood (s : State) (k page : Nat) : Bool :=
  crc32 (s.bytes .nand (recordAddr k page) 44) == s.le .nand (recordAddr k page + 44) 4

/-- The bytes of a page from column 0 upward (R499): sixteen codewords of data, the codeword of the record, and 0xFF in the spare bytes beyond
them. -/
def State.pageColumns (s : State) (k page spare : Nat) : List Byte :=
  let code (t : Nat) (l : List Byte) : List Byte := l ++ (Config.bchParity t l).take (if t = 64 then 112 else 32)
  (List.range 16).flatMap (fun i => code 64 (s.bytes .nand (pageAddr k page + 1024 * i) 1024)) ++
    code 16 (s.bytes .nand (recordAddr k page) 48) ++ List.replicate (spare - 1872) 0xFF

/-- NAND_STAT bits. -/
def State.nandReady (s : State) : Bool :=
  s.domOn 15 && s.bitAt (nandA 0x00C) 0 && s.bitAt (nandA rNAND_STAT) 2

/-- A block of a target queued for relocation, once (R515); an OPEN block is closed. -/
def State.queueReloc (s : State) (k : Nat) : State :=
  if s.nand.reloc.any (fun r => r.src = k) then s
  else
    let b := s.blk k
    let s := if b.st = .opened then s.setBlk k { b with st := .live } else s
    s.setNand { s.nand with reloc := s.nand.reloc ++ [⟨k, none, 0⟩] }

/-- FOREGROUND by the free blocks of the targets (R512): REM clears when it ends (R513). -/
def State.foregroundCheck (s : State) : State :=
  let on := s.nandTargets.any (fun t => s.freeBlocks t ≤ s.fld (nandA rNAND_GC) 7 0)
  let off := s.nandTargets.all (fun t => s.fld (nandA rNAND_GC) 15 8 < s.freeBlocks t)
  if on ∧ !s.bitAt (nandA rNAND_STAT) 3 then (s.putBit (nandA rNAND_STAT) 3 true).irq .nand 0 1
  else if off ∧ s.bitAt (nandA rNAND_STAT) 3 then
    { (s.putBit (nandA rNAND_STAT) 3 false).irq .nand 0 1 with rems := [] }
  else s

/-- FULL by the free blocks of all targets (R514). -/
def State.fullCheck (s : State) : State :=
  let free := (s.nandTargets.map s.freeBlocks).sum
  let at_ := s.fld (nandA rNAND_GC) 31 16
  if free ≤ at_ then
    let s := s.cause .nand 0 6
    if s.bitAt (nandA rNAND_STAT) 4 then s else (s.putBit (nandA rNAND_STAT) 4 true).irq .nand 0 2
  else if at_ + 32 < free ∧ s.bitAt (nandA rNAND_STAT) 4 then (s.putBit (nandA rNAND_STAT) 4 false).irq .nand 0 2
  else s

/-- What follows a change of the free blocks. -/
def State.freeChanged (s : State) : State := s.foregroundCheck.fullCheck

/-- A block found bad in use: BAD, counted, reported, and its channel owes a journal page (R511, R515, R516). -/
def State.growBad (s : State) (k : Nat) : State :=
  let s := s.setBlk k { s.blk k with st := .bad, lbn := none }
  let s := (s.nandCount 10).irq .nand 0 3
  if s.nand.journal.contains (k / 65536) then s
  else s.setNand { s.nand with journal := s.nand.journal ++ [k / 65536] }

/-- A block RELEASED: it stands last in the order of releases. -/
def State.releaseBlk (s : State) (k : Nat) : State :=
  let old := s.blk k
  let s := s.setBlk k { old with st := .released, lbn := none, relAt := s.nand.releases + 1 }
  s.setNand { s.nand with releases := s.nand.releases + 1, partner := s.nand.partner.filter (fun p => some p.1 ≠ old.lbn) }

/-- Wear levelling on a target (R515). -/
def State.wearLevel (s : State) (t : Nat) : State :=
  let l := (s.blocksOf t).filter (fun e => e.2.st = .live)
  match l with
  | [] => s
  | h :: tl =>
    let lo := tl.foldl (fun m e => if e.2.erases < m.2.erases then e else m) h
    let hi := tl.foldl (fun m e => max m e.2.erases) h.2.erases
    if s.fld (nandA rNAND_WL) 15 0 < hi - lo.2.erases then s.queueReloc lo.1 else s

/-- One map word read (R502, R522): the injected conditions of MAP_CE and MAP_UE, which with CONT holds every target; true: the target must be
scanned again. -/
def State.mapRead (s : State) (t : Nat) : Bool × State :=
  let (c, s) := s.inject .nand 0 0 1
  if c = 1 then (false, s.cause .nand 0 0)
  else if c = 2 then
    let s := (s.cause .nand 0 1).nandCount 12
    let s := if s.nand.rescan.contains t then s else s.setNand { s.nand with rescan := s.nand.rescan ++ [t] }
    let s := if s.bitAt (nandA 0x01C) 31 ∧ s.bitAt (nandA 0x01C) 1 then s.setNand { s.nand with rescan := s.nandTargets } else s
    (true, s.putBit (nandA rNAND_STAT) 5 true)
  else (false, s)

/-! ### Start and scan (R498, R517) -/

/-- The lines of the table "NAND qualification" that STORE checks in a parameter page (R497). -/
def NandPart.qualified (p : NandPart) : Bool :=
  decide (p.page = 16384) && decide (1872 ≤ p.spare) && [256, 512, 1024].contains p.ppb && decide (p.blocks ≤ 8192) &&
  decide (p.tR ≤ 90) && decide (p.tProg ≤ 2400) && decide (p.tBers ≤ 2000)

/-- The parameter page of a fitted target, where it passes. -/
def State.fitAt (s : State) (t : Nat) : Option NandPart :=
  ((s.fitted.nand.find? (fun e => e.1 = t)).map (·.2)).filter NandPart.qualified

/-- Two targets of one geometry (R498): bytes of a page, pages of a block, blocks. -/
def NandPart.like (a b : NandPart) : Bool := a.page == b.page && a.ppb == b.ppb && a.blocks == b.blocks

/-- Initialisation (R498): NAND_FIT, UNQUALIFIED, the counters and the temperature history cleared. -/
def State.nandInit (s : State) : State :=
  let mask0 := (List.range 4).filter (fun c => (s.fitAt (c * 8)).isSome)
  let geo := (mask0.head?).bind (fun c => s.fitAt (c * 8))
  let ok (t : Nat) : Bool := geo.any (fun g => (s.fitAt t).any (fun p => p.like g))
  let mask := (List.range 4).filter (fun c => ok (c * 8))
  let targets := (List.range 9).foldl (fun m k =>
    if mask.all (fun c => (List.range k).all (fun t => ok (c * 8 + t))) then k else m) 0
  let g := (geo.map (fun g => (g.ppb / 512, g.blocks))).getD (0, 0)
  let s := { s with bank := dropRange (dropRange s.bank (bankKey (nandA rNAND_CNT) 0) (bankKey (nandA rNAND_CNT) 16))
                      (bankKey (nandA rNAND_THIST) 0) (bankKey (nandA rNAND_THIST) (2 ^ 20)) }
  let s := s.wr (nandA rNAND_FIT) (BitVec.ofNat 32 (if mask = [] then 0 else
    (mask.map (2 ^ ·)).sum + targets * 2 ^ 4 + 3 * 2 ^ 8 + g.1 * 2 ^ 12 + g.2 * 2 ^ 16))
  let s := if s.fitted.nand.any (fun e => !ok e.1) then s.cause .nand 0 5 else s
  let s := s.setNand { Nand.off with blocks := s.nand.blocks, releases := s.nand.releases }
  (s.wr (nandA rNAND_STAT) 3).setTimer (nandA rNAND_TEMP_SRC) (s.now + 60000000000)

/-- A write of BLK_CTRL.EN = 1 (R498). -/
def State.nandEnable (s : State) (q : Requester) (v : Word32) : State :=
  s.guarded q (nandA 0x00C) v (!bit v 0 && s.rig.frames) fun s =>
    let was := s.bitAt (nandA 0x00C) 0
    let s := s.putBit (nandA 0x00C) 0 (bit v 0)
    if bit v 0 ∧ !was then s.nandInit else s

/-- NAND_INIT (R498). -/
def execNandInit (q : Requester) (s : State) : Res := .next (s.nandEnable q 1)

/-- What the scan makes of one block from the medium (R517 steps 1 to 3 and 5): bad: listed in a journal page; unreadable: the
record of page 0 cannot be read. -/
def scanBlock (ppb : Nat) (b : Block) (bad unreadable : Bool) : Block :=
  if b.factory || bad then { b with st := .bad, lbn := none }
  else match b.pages with
    | [] => { b with st := .free, lbn := none, stream := 0 }
    | p :: _ =>
      if unreadable then { b with st := .released, lbn := none }
      else { b with st := if b.pages.length < ppb then .opened else .live, lbn := some p.lbn, stream := p.stream,
                    erases := p.erases }

/-- The SEQ of a block's page 0. -/
def headSeq (b : Block) : Nat := (b.pages.head?.map (·.seq)).getD 0

/-- Of two blocks with one LBN, does the first win (R517 step 4). -/
def wins (a b : Block) : Bool :=
  if headSeq b < headSeq a then b.pages.length ≤ a.pages.length else !(a.pages.length ≤ b.pages.length)

/-- The bad blocks that the newest journal page of each channel lists (R516, R517 step 2). -/
def State.journalBad (s : State) : List Nat :=
  (List.range 4).flatMap (fun c =>
    let pages := (s.nand.blocks.filter (fun e => e.1 / 65536 = c)).flatMap (fun e =>
      (e.2.pages.filter (fun p => p.stream = 7)).map (fun p => (p.seq, e.1, p.page)))
    match pages.foldl (fun (a : Option (Nat × Nat × Nat)) p =>
        match a with
        | none => some p
        | some m => if m.1 < p.1 then some p else a) none with
    | none => []
    | some (_, k, page) =>
      let n := s.le .nand (pageAddr k page) 4
      (List.range (min n 4095)).map (fun i =>
        let e := s.le .nand (pageAddr k page + 4 + 4 * i) 4
        (c * 8 + nbits e 2 0) * 8192 + nbits e 28 16))

/-- The map rebuilt for the blocks of some targets (R517): unreadable names the blocks whose page-0 record is uncorrectable; one whose CRC
fails cannot be read either (R500). -/
def State.nandScan (s : State) (ts : List Nat) (unreadable : List Nat) : State :=
  let bad := s.journalBad
  let mine (k : Nat) : Bool := ts.contains (k / 8192)
  let s := (s.nand.blocks.filter (fun e => mine e.1)).foldl (fun s e =>
    s.setBlk e.1 (scanBlock s.ppb e.2 (bad.contains e.1) (unreadable.contains e.1 || !s.recordGood e.1 0))) s
  let s := (bad.filter mine).foldl (fun s k => s.setBlk k { s.blk k with st := .bad, lbn := none }) s
  let bound := s.nand.blocks.filter (fun e => e.2.lbn.isSome)
  let s := (bound.filter (fun e => mine e.1)).foldl (fun s e =>
    if bound.any (fun f => f.1 ≠ e.1 && f.2.lbn = e.2.lbn && wins f.2 e.2) then s.releaseBlk e.1 else s) s
  let open_ := s.nand.blocks.filter (fun e => e.2.st = .opened)
  let s := (open_.filter (fun e => mine e.1)).foldl (fun s e =>
    if open_.any (fun f => f.1 ≠ e.1 && f.1 / 8192 = e.1 / 8192 && f.2.stream = e.2.stream && headSeq e.2 < headSeq f.2) then
      s.setBlk e.1 { e.2 with st := .live }
    else s) s
  s.setNand { s.nand with reloc := s.nand.reloc.filter (fun r => !mine r.src) }

/-- The scan of every target (R517 steps 1 to 5). -/
def State.scanAll (s : State) (unreadable : List Nat) : State :=
  ((s.putBit (nandA rNAND_STAT) 1 true).putBit (nandA rNAND_STAT) 2 false).nandScan s.nandTargets unreadable

/-- NAND_SCAN (R517): of every target, or of one whose map word was uncorrectable. -/
def execNandScan (target : Option (Fin 32)) (unreadable : List Nat) (s : State) : Res :=
  .next (if !(s.domOn 15 && s.bitAt (nandA 0x00C) 0 && s.bitAt (nandA rNAND_STAT) 0) then s
    else match target with
      | some t => s.nandScan [t.val] unreadable
      | none => s.scanAll unreadable)

/-- A whole scan ends (R517 step 6): SEQ, READY and the duration. -/
def State.scanDone (s : State) (ms : BitVec 32) : State :=
  let seq := (s.nand.blocks.flatMap (fun e => e.2.pages.map (·.seq))).foldl max 0
  let any := s.nand.blocks.any (fun e => e.2.pages ≠ [])
  let s := s.setNand { s.nand with seq := if any then seq + 1 else 0 }
  let s := (s.putBit (nandA rNAND_STAT) 1 false).putBit (nandA rNAND_STAT) 2 true
  ((s.wr (nandA rNAND_SCAN_MS) ms).irq .nand 0 0).freeChanged

/-- NAND_SCAN_DONE (R517 step 6): of a whole scan, or of a target's, whose rescan ends but for an armed MAP_UE with CONT (R522). -/
def execNandScanDone (target : Option (Fin 32)) (ms : BitVec 32) (s : State) : Res :=
  .next (if !(s.domOn 15 && s.bitAt (nandA 0x00C) 0) then s
    else match target with
      | some t =>
        if s.bitAt (nandA 0x01C) 31 ∧ s.bitAt (nandA 0x01C) 1 then s
        else
          let left := s.nand.rescan.filter (· ≠ t.val)
          ((s.setNand { s.nand with rescan := left }).putBit (nandA rNAND_STAT) 5 (decide (left ≠ []))).freeChanged
      | none => s.scanDone ms)

/-! ### Requests (R503 to R505) -/

/-- The port a request splice belongs to: lay, port, completion splice. -/
def State.nandPort (s : State) (n : Nat) : Option (Nat × Nat × Nat) :=
  (List.range 8).findSome? (fun l =>
    ((s.lay l).ports.find? (fun p => p.1 = 1 && p.2.2.1 = n)).map (fun p => (l, p.2.1, p.2.2.2)))

/-- The slot class a request's operation needs (R503). -/
def classOf (op : Nat) : Nat := if op = 1 then 1 else if op = 2 then 3 else if op = 3 ∨ op = 4 then 2 else 0

/-- Pair-durable mode: the running rigging's flag and LEASE_CTRL.EN (17_pair_operation.md, before R579). -/
def State.pairMode (s : State) : Bool := s.rig.flags.testBit 0 && s.bitAt (pa .lease 0 rLEASE_CTRL) 0

/-- A request cell read (R504); a bit set where 0 is required, an OP not listed, STREAM 7 or PAIR outside pair-durable mode
makes it bad. -/
def nandReqOf (pairMode : Bool) (n now : Nat) (c : Cell512) : NandReq :=
  let w (i : Nat) := (cellWord c i).toNat
  let op := nbits (w 1) 7 0
  let stray := nbits (w 1) 11 11 ≠ 0 || nbits (w 1) 13 13 ≠ 0 || nbits (w 1) 63 48 ≠ 0 || nbits (w 2) 63 26 ≠ 0 ||
    nbits (w 3) 31 18 ≠ 0 || nbits (w 3) 63 42 ≠ 0 || w 5 ≠ 0 || w 6 ≠ 0 || w 7 ≠ 0 ||
    (2 < op && nbits (w 1) 10 8 ≠ 0) || (op ≠ 1 && (w 1).testBit 12) || (op ≠ 2 && nbits (w 1) 15 14 ≠ 0) ||
    nbits (w 1) 15 14 = 3 || (op ≠ 1 && w 4 ≠ 0) || (op ≤ 2 && w 3 ≠ 0) || (op = 4 && (nbits (w 3) 41 32 ≠ 0 || w 2 ≠ 0))
  ⟨n, now, op, nbits (w 1) 10 8, (w 1).testBit 12, nbits (w 1) 15 14, nbits (w 1) 47 16, nbits (w 2) 25 0,
    nbits (w 3) 17 0, nbits (w 3) 41 32, w 4,
    stray || op = 0 || 4 < op || nbits (w 1) 10 8 = 7 || ((w 1).testBit 12 && !pairMode), 0, 2 ^ 128 - 1, []⟩

/-- A completion committed to a request's port (R505). -/
def State.nandDone (s : State) (r : NandReq) (status lbn page seq target corr : Nat) : State :=
  match s.nandPort r.splice with
  | none => s
  | some (_, _, comp) => s.offer comp (mkCompletion 0 0
      [r.op + status * 2 ^ 8 + r.tag * 2 ^ 16, lbn + page * 2 ^ 32, seq,
       target / 8 + target % 8 * 4 + corr * 2 ^ 32, 0, 0, 0])

/-- BAD_REQ (R504, R505): the LBN and PAGE of a READ or RELEASE as requested. -/
def State.badReq (s : State) (r : NandReq) (t : Nat) : State :=
  if r.op = 3 ∨ r.op = 4 then s.nandDone r 3 r.lbn r.page 0 t 0 else s.nandDone r 3 0 0 0 t 0

/-- The KIND 1 completion of a page (R505, R579); the page counts as answered by the partner. -/
def State.kindOne (s : State) (r : NandReq) (status lbn page seq target : Nat) : State :=
  (s.nandDone r (status + 2 ^ 40) lbn page seq target 0).setNand { s.nand with partner := s.nand.partner ++ [(lbn, page)] }

/-- The SEQ of a page; of one not yet programmed the SEQ it is to have. -/
def State.pageSeq (s : State) (lbn page : Nat) : Nat :=
  ((s.lbnBlock lbn).bind (fun e => (e.2.pages[page]?).map (·.seq))).getD s.nand.seq

/-- A PAIR page that the partner cannot take (R579, R590): SOLO_SEQ is written first. -/
def State.partnerFail (s : State) (r : NandReq) (lbn page : Nat) : State :=
  let q := s.pageSeq lbn page % 2 ^ 32
  let s := if r.stream = 0 then s.setSolo (some ((s.soloSeq.map (min q)).getD q)) else s
  (s.pairCount 5).kindOne r 5 lbn page q (((s.lbnBlock lbn).map (·.1)).getD 0 / 8192)

/-- A page that a slot has taken goes to the peer (R579): those with PAIR = 1, which wait for its answer, and checkpoint pages. -/
def State.pairPage (s : State) (k : Nat) (r : NandReq) : State :=
  let b := s.blk k
  let lbn := b.lbn.getD 0
  let page := b.pages.length
  if !s.pairMode || !(r.op = 2 || r.pair) then s
  else if s.peerReady then
    let p : PageRec := ⟨lbn, page, b.stream, false, s.nand.seq, if page = 0 then b.erases else 0, r.user, s.nand.seq⟩
    let s := (s.sendPage 4 p r.image).pairCount 3
    if r.op = 2 then s else { s with pair := { s.pair with out := s.pair.out ++ [⟨lbn, page, r⟩] } }
  else if r.op = 2 then s
  else s.partnerFail r lbn page

/-- A page image fetched whole (R506). -/
def State.fetchImage (s : State) (r : NandReq) : NandReq × State :=
  let (l, _, s) := s.ddrGet (r.ddr * 16384) 16384
  ({ r with image := l, tries := r.tries + 1, torn := 0 }, s)

/-- The regions of a checkpoint page (R259, R507): offset and length; each has a sequence word in its first and last 4 bytes. -/
def ckRegions (rfmt : Nat) : List (Nat × Nat) :=
  if rfmt = 1 then (List.range 32).flatMap (fun i => [(512 * i, 128), (512 * i + 128, 256), (512 * i + 384, 128)])
  else if rfmt = 2 then (List.range 128).map (fun i => (128 * i, 128))
  else []

/-- One fetch of the regions still torn (R266, R507). -/
def State.fetchCheckpoint (s : State) (r : NandReq) : NandReq × State :=
  let (l, _, s) := s.ddrGet (r.ddr * 16384) 16384
  let old := if r.image = [] then l else r.image
  let regions := (ckRegions r.rfmt).zipIdx
  let img := regions.foldl (fun (m : List Byte) e =>
    if r.torn.testBit e.2 then m.take e.1.1 ++ (l.drop e.1.1).take e.1.2 ++ m.drop (e.1.1 + e.1.2) else m) old
  let torn := (regions.filter (fun e => r.torn.testBit e.2 &&
    (l.drop e.1.1).take 4 ≠ (l.drop (e.1.1 + e.1.2 - 4)).take 4)).map (fun e => 2 ^ e.2)
  ({ r with image := img, tries := r.tries + 1, torn := torn.sum }, s)

/-- The TORN mask of a checkpoint page: bit i, record i. -/
def tornRecords (r : NandReq) : Nat :=
  if r.rfmt = 1 then ((List.range 32).map (fun i => if nbits r.torn (3 * i + 2) (3 * i) = 0 then 0 else 2 ^ i)).sum
  else if r.rfmt = 2 then r.torn % 2 ^ 128 else 0

/-- NAND_REQUEST_POP (R503): one cell of a request splice into its port's queue of 32. -/
def execNandRequestPop (n : BitVec 13) (s : State) : Res :=
  .next (match s.nandPort n.toNat with
    | none => s
    | some (lay, port, _) =>
      if !s.nandReady || 32 ≤ s.nand.queue.countP (fun r => r.splice = n.toNat) then s
      else match s.pop n.toNat with
        | (none, s) => s
        | (some (c, _), s) =>
          let r := nandReqOf s.pairMode n.toNat s.now c
          if r.bad && !s.rig.nand.any (fun e => e.cls = classOf r.op && e.lay = lay && e.port = port) then
            (s.badReq r 0).nandCount 14
          else
            let (r, s) := if r.bad ∨ r.op ≠ 1 then (r, s) else s.fetchImage r
            s.setNand { s.nand with queue := s.nand.queue ++ [r] })

/-- CHECKPOINT_FETCH (R507): a fetch of the oldest queued checkpoint request of a port, of at most 4. -/
def execCheckpointFetch (n : BitVec 13) (s : State) : Res :=
  .next (match s.nand.queue.find? (fun r => r.splice = n.toNat && r.op = 2 && !r.bad) with
    | none => s
    | some r =>
      if 4 ≤ r.tries then s
      else
        let (r', s) := s.fetchCheckpoint r
        s.setNand { s.nand with queue := s.nand.queue.replace r r' })

/-! ### Slots (R503, R511, R512) -/

/-- The ingest-program positions of a frame in order of start (R512): indices into the frame's entries. -/
def State.positions (s : State) : List Nat :=
  let l := (s.rig.nand.zipIdx.filter (fun e => e.1.cls = 1)).mergeSort (fun a b => a.1.start ≤ b.1.start)
  l.map (·.2)

/-- Does a target need collection (R512). -/
def State.needsGc (s : State) (t : Nat) : Bool :=
  s.freeBlocks t ≤ s.fld (nandA rNAND_GC) 7 0 &&
  ((s.blocksOf t).any (fun e => e.2.st = .released) || s.nand.reloc.any (fun r => r.src / 8192 = t))

/-- The positions taken, chosen greedily: never two adjacent; prev: the last position of the previous period was taken. -/
def takeGreedy (need : Nat → Bool) (prev : Bool) (n : Nat) : List Nat → List Nat → List Nat
  | [], acc => acc
  | p :: t, acc =>
    let near := acc.contains (p + 1) || (0 < p && acc.contains (p - 1)) || (p = 0 && prev)
    takeGreedy need prev n t (if need p && !near then p :: acc else acc)

/-- NAND_FRAME_PERIOD (R512). -/
def execNandFramePeriod (s : State) : Res :=
  let s := { s with rig := { s.rig with nandDone := [] } }
  .next (if !(s.nandReady && s.rig.frames) then s
    else
      let ps := s.positions
      let n := ps.length
      let need (p : Nat) : Bool := match s.rig.nand[ps.getD p 0]? with
        | some e => s.needsGc (e.chan * 8 + e.target)
        | none => false
      let prev := 0 < n && s.nand.taken.contains (n - 1)
      let order := if s.nand.odd then (List.range n).reverse else List.range n
      let taken := if s.bitAt (nandA rNAND_STAT) 3 then takeGreedy need prev n order [] else []
      s.setNand { s.nand with taken := taken, odd := !s.nand.odd })

/-- The open log block of a stream on a target. -/
def State.logBlock (s : State) (t stream : Nat) : Option (Nat × Block) :=
  (s.blocksOf t).find? (fun e => e.2.st = .opened && e.2.stream = stream && e.2.pages.length < s.ppb &&
    !s.nand.reloc.any (fun r => r.dst = some e.1))

/-- A log block for a stream on a target, opened where it has none (R501). -/
def State.openLog (s : State) (t stream : Nat) : Option (Nat × State) :=
  match s.logBlock t stream with
  | some e => some (e.1, s)
  | none => match s.freeBlock t, s.freeLbn with
    | some k, some n =>
      some (k, (s.setBlk k { s.blk k with st := .opened, lbn := some n, stream := stream, pages := [] }).freeChanged)
    | _, _ => none

/-- An operation started on a target. -/
def State.startRun (s : State) (r : NandRun) : State := s.setNand { s.nand with runs := s.nand.runs ++ [r] }

/-- The RELEASED block of a target that was released first (R511). -/
def State.oldestReleased (s : State) (t : Nat) : Option Nat :=
  ((s.blocksOf t).filter (fun e => e.2.st = .released)).foldl (fun (a : Option (Nat × Block)) e =>
    match a with
    | none => some e
    | some m => if e.2.relAt < m.2.relAt then some e else a) none |>.map (·.1)

/-- An erase started on a target, if one is possible. -/
def State.startErase (s : State) (t : Nat) : Option State :=
  (s.oldestReleased t).map (fun k => s.startRun ⟨t, 5, none, k⟩)

/-- A relocation copy started on a target, if one is queued and has a block to copy to (R515). -/
def State.startCopy (s : State) (t : Nat) : Option State :=
  match s.nand.reloc.find? (fun r => r.src / 8192 = t) with
  | none => none
  | some r => match r.dst with
    | some _ => some (s.startRun ⟨t, 8, none, r.src⟩)
    | none => (s.freeBlock t).map (fun k =>
        let b := s.blk r.src
        let s := s.setBlk r.src { b with st := .relocating }
        let s := s.setBlk k { s.blk k with st := .opened, lbn := b.lbn, stream := b.stream, pages := [] }
        let s := s.setNand { s.nand with reloc := s.nand.reloc.replace r { r with dst := some k } }
        s.freeChanged.startRun ⟨t, 8, none, r.src⟩)

/-- A garbage-collection entry takes the oldest SALVAGE page that waits, into stream 2 (R590): none while foreground collection is pending on the
target. -/
def State.startSalvage (s : State) (t : Nat) : Option State :=
  if s.bitAt (nandA rNAND_STAT) 3 && s.needsGc t then none
  else match s.nand.mirror.find? (fun e => e.kind = 11 && e.block.isNone) with
    | none => none
    | some e => (s.openLog t 2).map (fun x =>
        (x.2.setNand { x.2.nand with mirror := x.2.nand.mirror.replace e { e with block := some x.1 } }).startRun ⟨t, 9, none, x.1⟩)

/-- Between mirrored pages a STANDBY's STORE erases, copies and scrubs of itself on a target with nothing under way (R580, R584). -/
def State.standbyRun (s : State) (t cls : Nat) : State :=
  if s.role ≠ 3 ∨ !s.nandReady ∨ s.rig.frames ∨ !s.nandTargets.contains t ∨ s.bitAt (pa .pwr 0 rPWR_STAT) 0 ∨
      s.nand.runs.any (fun r => r.target = t) then s
  else if cls = 5 then (s.startErase t).getD s
  else if cls = 8 then (s.startCopy t).getD s
  else s.startRun ⟨t, cls, none, 0⟩

/-- A program slot takes a request: into the stream's log block on the slot's target; nothing where no block can be opened. -/
def State.takeProgram (s : State) (t : Nat) (r : NandReq) : Option State :=
  match s.openLog t r.stream with
  | none => none
  | some (k, s) =>
    let s := s.setNand { s.nand with queue := s.nand.queue.erase r }
    let (r, s) := if r.op = 2 ∧ r.tries = 0 then s.fetchCheckpoint r else (r, s)
    let torn := tornRecords r
    let s := (List.range 128).foldl (fun s i => if torn.testBit i then s.nandCount 13 else s) s
    some ((s.startRun ⟨t, classOf r.op, some r, k⟩).pairPage k r)

/-- Does a READ or RELEASE wait for the rescan of the target that holds its block (R517). -/
def State.rescanWaits (s : State) (r : NandReq) : Bool :=
  !r.bad && decide (3 ≤ r.op) && (s.lbnBlock r.lbn).any (fun e => s.nand.rescan.contains (e.1 / 8192))

/-- A slot of a lay's port (R503): the oldest eligible request of its class. -/
def State.portSlot (s : State) (e : NandEntry) : State :=
  let t := e.chan * 8 + e.target
  match s.port e.lay 1 e.port with
  | none => s.nandCount 15
  | some (req, _) =>
    match s.nand.queue.find? (fun r => r.splice = req && classOf r.op = e.cls && r.popped + 100000 ≤ s.now && !s.rescanWaits r) with
    | none => s.nandCount 15
    | some r =>
      if r.bad then
        ((s.setNand { s.nand with queue := s.nand.queue.erase r }).badReq r t).nandCount 14
      else if e.cls = 2 then
        (s.setNand { s.nand with queue := s.nand.queue.erase r }).startRun ⟨t, 2, some r, 0⟩
      else (s.takeProgram t r).getD (s.nandCount 15)

/-- Is an entry the next of the NAND frame (R142, R164): it has not started in this period, and every entry that starts before it has. -/
def State.nandDue (s : State) (i : Nat) : Bool :=
  match s.rig.nand[i]? with
  | none => false
  | some e => !s.rig.nandDone.contains i &&
      s.rig.nand.zipIdx.all (fun f => decide (e.start ≤ f.1.start) || s.rig.nandDone.contains f.2)

/-- The next entry of the NAND frame starts. -/
def State.nandPast (s : State) (i : Nat) : State :=
  { s with rig := { s.rig with nandDone := s.rig.nandDone ++ [i] } }

/-- A slot in which STORE does nothing: an owned one is counted (R521). -/
def State.slotIdle (s : State) (e : NandEntry) : State :=
  if e.cls ≤ 3 ∧ s.domOn 15 ∧ s.bitAt (nandA 0x00C) 0 then s.nandCount 15 else s

/-- NAND_SLOT (R164, R503, R511, R512): the next entry of the frame starts, at a time; after a power-fail indication nothing starts (R519). -/
def execNandSlot (entry : BitVec 8) (t : Nat) (s : State) : Res :=
  let s := s.at t
  .next (if !s.rig.frames || !s.nandDue entry.toNat then s
    else match s.rig.nand[entry.toNat]? with
      | none => s
      | some e =>
        let s := s.nandPast entry.toNat
        if !s.nandReady || s.bitAt (pa .pwr 0 rPWR_STAT) 0 then s.slotIdle e
        else
          let tg := e.chan * 8 + e.target
          let (ue, s) := s.mapRead tg
          if ue ∨ s.nand.rescan.contains tg ∨ !s.nandTargets.contains tg then s.slotIdle e
          else if e.cls = 1 ∧ s.nand.taken.contains (s.positions.idxOf entry.toNat) then
            ((s.startErase tg).getD ((s.startCopy tg).getD s)).nandCount 11
          else if e.cls ≤ 3 then s.portSlot e
          else if e.cls = 4 then
            if s.nand.journal.contains e.chan then
              match s.openLog tg 7 with
              | some (k, s) => s.startRun ⟨tg, 7, none, k⟩
              | none => (s.startCopy tg).getD s
            else (s.startSalvage tg).getD ((s.startCopy tg).getD s)
          else if e.cls = 5 then (s.startErase tg).getD s
          else s.startRun ⟨tg, 6, none, 0⟩)

/-- The operation under way on a target, of the kind asked for: one that finds its target occupied starts when the target frees (R510). -/
def State.runOf (s : State) (t : Nat) (kind : NandRun → Bool) : Option NandRun :=
  (s.nand.runs.find? (fun r => r.target = t)).filter kind

/-- An operation ends. -/
def State.endRun (s : State) (r : NandRun) : State := s.setNand { s.nand with runs := s.nand.runs.erase r }

/-! ### Ends of operations (R506 to R518) -/

/-- The next page of a block written with a record; SEQ advances (R500), and the block is LIVE when full (R501). -/
def State.storePage (s : State) (k : Nat) (p : PageRec) (data : List Byte) : State :=
  let b := s.blk k
  let n := b.pages.length
  let s := (s.setBytes .nand (pageAddr k n) data).setBytes .nand (recordAddr k n) (metaBytes p)
  let full := s.ppb ≤ n + 1 && !s.nand.reloc.any (fun r => r.dst = some k)
  let s := s.setBlk k { b with pages := b.pages ++ [p], st := if full then .live else b.st }
  let s := (s.setNand { s.nand with seq := s.nand.seq + 1 }).nandCount 0
  if full then s.wearLevel (k / 8192) else s

/-- A page written into a block with the record of R500; copyOf: of a relocation copy the place of the page in the order stored. -/
def State.writePage (s : State) (k user : Nat) (copyOf : Option Nat) (data : List Byte) : State :=
  let b := s.blk k
  let n := b.pages.length
  s.storePage k ⟨b.lbn.getD 0, n, b.stream, copyOf.isSome, s.nand.seq, if n = 0 then b.erases else 0, user, copyOf.getD s.nand.seq⟩ data

/-- A program or verify that failed (R506): the block retires, the request returns to the head of its port's queue; a page frame sent for it is
answered no more, and the next slot that takes it sends another (log entry 30). -/
def State.programFailed (s : State) (x : NandRun) (r : NandReq) (verify : Bool) : State :=
  let s := (s.nandCount (if verify then 2 else 1)).cause .nand 0 3
  let b := s.blk x.block
  let s := { s with pair := { s.pair with out := s.pair.out.filter (fun o => !(b.lbn = some o.lbn && o.page = b.pages.length)) } }
  let s := s.setBlk x.block { s.blk x.block with st := .live, retire := true }
  let s := s.queueReloc x.block
  s.setNand { s.nand with queue := r :: s.nand.queue }

/-- NAND_UE_ADDR loaded and PAGE_UE set (R508, R518). -/
def State.pageUe (s : State) (scrub : Bool) (k page : Nat) : State :=
  (s.wr (nandA rNAND_UE_ADDR) (BitVec.ofNat 32 (2 ^ 31 + scrub.toNat * 2 ^ 30 + k / 65536 * 2 ^ 28 +
    k / 8192 % 8 * 2 ^ 25 + k % 8192 * 2 ^ 12 + page))).cause .nand 0 2

/-- The end of a read (R508): ue: a codeword was uncorrectable; corr: the worst codeword's corrections. -/
def State.readDone (s : State) (t : Nat) (r : NandReq) (ue : Bool) (corr : Nat) : State :=
  match s.lbnBlock r.lbn with
  | none => s.nandDone r 4 r.lbn r.page 0 t 0
  | some (k, b) => match b.pages[r.page]? with
    | none => s.nandDone r 4 r.lbn r.page 0 t 0
    | some p =>
      let s := s.nandCount 4
      let s := s.ddrPut (r.ddr * 16384) (if ue then List.replicate 16384 0 else s.bytes .nand (pageAddr k r.page) 16384)
      let s := if ue then (s.nandCount 6).pageUe false k r.page else if corr = 0 then s else s.nandCount 5
      let s := if s.fld (nandA rNAND_ECC) 15 8 ≤ corr then s.queueReloc k else s
      s.nandDone r (if ue then 2 else if corr = 0 then 0 else 1) r.lbn r.page p.seq (k / 8192) corr

/-- NAND_READ_COMPLETE (R508): the page is in DDR with it, in a STORE slot (R33). -/
def execNandReadComplete (target : Fin 32) (ue : Bool) (corr : Fin 65) (s : State) : Res :=
  .next (if !s.storeTurn then s else match s.runOf target.val (fun x => x.req.any (fun r => r.op = 3)) with
    | none => s
    | some x => match x.req with
      | none => s
      | some r => (s.endRun x).readDone target.val r ue corr.val)

/-- A copy in progress that is no longer wanted: its block is erased again, or FREE where no page of it is written. -/
def State.dropCopy (s : State) (k : Nat) : State :=
  match s.nand.reloc.find? (fun r => r.src = k) with
  | none => s
  | some r =>
    let s := s.setNand { s.nand with reloc := s.nand.reloc.erase r }
    match r.dst with
    | none => s
    | some d => if (s.blk d).pages = [] then (s.setBlk d { s.blk d with st := .free, lbn := none, stream := 0 }).freeChanged else s.releaseBlk d

/-- A block that a RELEASE frees (R509): its relocation, queued or under way, ends with it; one queued for retirement is BAD (R515). -/
def State.releaseLive (s : State) (k : Nat) : State :=
  let s := s.dropCopy k
  if (s.blk k).retire then s.growBad k else s.releaseBlk k

/-- NAND_RELEASE (R509). -/
def execNandRelease (target : Fin 32) (s : State) : Res :=
  .next (match s.runOf target.val (fun x => x.req.any (fun r => r.op = 4)) with
    | none => s
    | some x => match x.req with
      | none => s
      | some r =>
        let s := s.endRun x
        match s.lbnBlock r.lbn with
        | none => s.nandDone r 4 r.lbn 0 0 target.val 0
        | some (k, b) =>
          if b.st = .opened then s.nandDone r 4 r.lbn 0 0 target.val 0
          else
            let s := if s.pairMode && s.peerReady && decide (b.stream ≤ 1) then s.pairSend 6 (toBe 4 r.lbn) false else s
            (s.releaseLive k).nandDone r 0 r.lbn 0 0 target.val 0)

/-- A block erased: every byte of its pages and their records 0xFF. -/
def State.eraseBlock (s : State) (k : Nat) : State :=
  (s.clearMem .nand (pageAddr k 0) (pageAddr (k + 1) 0)).clearMem .nand (recordAddr k 0) (recordAddr (k + 1) 0)

/-- NAND_ERASE_COMPLETE (R511, R515). -/
def execNandEraseComplete (target : Fin 32) (ok : Bool) (s : State) : Res :=
  let s := s.standbyRun target.val 5
  .next (match s.runOf target.val (fun x => x.cls = 5) with
    | none => s
    | some x =>
      let s := s.endRun x
      let b := s.blk x.block
      if !ok then ((s.nandCount 3).cause .nand 0 4).growBad x.block
      else
        let s := s.eraseBlock x.block
        let s := s.setBlk x.block { Block.fresh with erases := b.erases + 1 }
        ((s.nandCount 9).freeChanged).wearLevel target.val)

/-- RELOCATION_COPY (R515): the next page copied as read; after the last, the LBN is rebound. Of a block with no page written nothing is copied, and
the block taken for it is FREE again. -/
def execRelocationCopy (target : Fin 32) (s : State) : Res :=
  let s := s.standbyRun target.val 8
  .next (match s.runOf target.val (fun x => x.cls = 8) with
    | none => s
    | some x =>
      let s := s.endRun x
      match s.nand.reloc.find? (fun r => r.src = x.block) with
      | none => s
      | some r => match r.dst with
        | none => s
        | some k =>
          let b := s.blk r.src
          let s := match b.pages[r.copied]? with
            | some p => s.writePage k p.user (some p.ord) (s.bytes .nand (pageAddr r.src r.copied) 16384)
            | none => s
          if r.copied + 1 < b.pages.length then
            s.setNand { s.nand with reloc := s.nand.reloc.replace r { r with copied := r.copied + 1 } }
          else
            let s := (s.setNand { s.nand with reloc := s.nand.reloc.erase r }).nandCount 8
            let s := if b.pages = [] then (s.setBlk k { s.blk k with st := .free, lbn := none, stream := 0 }).freeChanged
              else s.setBlk k { s.blk k with st := .live }
            (if b.retire then s.growBad r.src else s.releaseBlk r.src).wearLevel target.val)

/-- The entries of a channel's journal page (R516): target and block of each grown-bad block. -/
def State.badEntries (s : State) (c : Nat) : List Nat :=
  (s.nand.blocks.filter (fun e => e.1 / 65536 = c && e.2.st = .bad && !e.2.factory)).map (fun e =>
    e.1 / 8192 % 8 + e.1 % 8192 * 2 ^ 16)

/-- The journal blocks of a channel all of whose pages a new page in block k supersedes (R516). -/
def State.oldJournals (s : State) (c k : Nat) : List Nat :=
  (s.nand.blocks.filter (fun e => e.1 / 65536 = c && e.1 ≠ k && (e.2.st = .live || e.2.st = .opened) && e.2.stream = 7)).map (·.1)

/-- JOURNAL_PROGRAM (R516): the page, and the release of the channel's journal blocks, all of whose pages it supersedes. -/
def execJournalProgram (target : Fin 32) (s : State) : Res :=
  .next (match s.runOf target.val (fun x => x.cls = 7) with
    | none => s
    | some x =>
      let c := target.val / 8
      let s := s.endRun x
      let l := s.badEntries c
      let s := s.writePage x.block 0 none ((toLe 4 l.length ++ l.flatMap (toLe 4) ++ List.replicate 16384 0).take 16384)
      let s := s.setNand { s.nand with journal := s.nand.journal.filter (· ≠ c) }
      (s.oldJournals c x.block).foldl (fun s k => s.releaseBlk k) s)

/-- The written pages of a target's OPEN and LIVE blocks in physical order, as page addresses ÷ 16,384. -/
def State.writtenPages (s : State) (t : Nat) : List Nat :=
  ((s.blocksOf t).filter (fun e => e.2.st = .opened || e.2.st = .live)).flatMap (fun e =>
    (List.range e.2.pages.length).map (fun i => e.1 * 1024 + i))

/-- NAND_SCRUB_READ (R518). -/
def execNandScrubRead (target : Fin 32) (ue : Bool) (corr : Fin 65) (s : State) : Res :=
  let s := s.standbyRun target.val 6
  .next (match s.runOf target.val (fun x => x.cls = 6) with
    | none => s
    | some x =>
      let s := s.endRun x
      let l := s.writtenPages target.val
      let pos := look (fun _ => 0) s.nand.scrub target.val
      match (l.find? (fun p => pos ≤ p)).or l.head? with
      | none => s
      | some p =>
        let s := s.setNand { s.nand with scrub := Machine.store (fun _ => 0) s.nand.scrub target.val (p + 1) }
        let s := s.nandCount 7
        let s := if ue then s.pageUe true (p / 1024) (p % 1024) else s
        if ue ∨ s.fld (nandA rNAND_ECC) 15 8 ≤ corr.val then s.queueReloc (p / 1024) else s)

/-- NAND_FULL (R514). -/
def execNandFull (s : State) : Res := .next (if s.nandReady then s.fullCheck else s)

/-- The bin of a temperature in 1/16 °C (R520). -/
def tempBin (x : Int) : Nat := (clampI 0 15 ((x + 640) / 160)).toNat

/-- The temperature NAND_TEMP_SRC names, in 1/16 °C: an on-die sensor, or a SBUS slot's value. -/
def State.nandTemp (s : State) : Int :=
  let v := s.rd (nandA rNAND_TEMP_SRC)
  if bit v 8 then signed 16 (bits (s.bk (pa .sbus 0 rSB_SLOT_VAL) (bits v 4 0)) 15 0)
  else signed 16 (s.fld (pa .sens 0 (rSENS_T + 4 * bits v 4 0)) 15 0)

/-- A minute added to the bin of a target's history. -/
def State.tempMinuteOf (s : State) (t : Nat) : State :=
  s.bumpBk (nandA rNAND_THIST) (t / 8 + t % 8 * 16 + tempBin s.nandTemp * 2 ^ 16) (2 ^ 32 - 1) 1

/-- NAND_TEMP_SAMPLE (R520): every 60 s from the enable, a minute added to the bin, for every target in use. -/
def execNandTempSample (t : Nat) (s : State) : Res :=
  let s := s.at t
  let due := s.timer (nandA rNAND_TEMP_SRC)
  .next (if !(s.domOn 15 && s.bitAt (nandA 0x00C) 0) || decide (s.now < due) then s
    else (s.nandTargets.foldl (fun s t => s.tempMinuteOf t) s).setTimer (nandA rNAND_TEMP_SRC) (due + 60000000000))

end Sys2Proof.Machine
end

