-- ==== Sys2Proof/Machine/Ingest.lean ====
section
/-! DEFINITION. INGEST (R212 to R234, R245, R251 to R253): classification, admission, refusal replies, credit, opening and
closing, the latency ring and the source table. -/

namespace Sys2Proof.Machine

/-! ### Ports and classification (R212 to R220) -/

/-- PORTKIND of a port in the order of R228: 0 ETH, 1 SGMII, 2 RADIO, 3 PLC, 4 UART. -/
def portKind (p : Nat) : Nat := if p < 4 then 0 else if p < 6 then 1 else if p < 10 then 2 else if p < 13 then 3 else 4

/-- PORT of a port: the instance number; for PLC the phase 1 to 3. -/
def portNo (p : Nat) : Nat := if p < 4 then p else if p < 6 then p - 4 else if p < 10 then p - 6 else if p < 13 then p - 9 else p - 13

/-- One reading of a frame (R216 to R220): its class, its bytes, the wPorts, its entry number; tooBig: more than 512 bytes. -/
structure Item where
  cls : Nat
  data : List Byte
  wsrc : Nat
  wdst : Nat
  no : Nat
  tooBig : Bool
  deriving DecidableEq, Repr

/-- n big-endian bytes at an offset. -/
def be (l : List Byte) (o n : Nat) : Nat := beNat ((l.drop o).take n)

/-- The class of a DLMS frame by its destination wPort (R217). -/
def State.wportClass (s : State) (wport : Nat) : Nat :=
  let entry (i : Nat) := s.rd (ingA (rING_WPORT + 4 * i))
  match (List.range 8).find? (fun i => bit (entry i) 31 && bits (entry i) 15 0 = wport &&
      [1, 2, 4, 5].contains (bits (entry i) 19 16)) with
  | some i => bits (entry i) 19 16
  | none => 1

/-- A frame in the IEC 62056-4-7 wrapper (R213, R217). -/
def State.wrapperItem (s : State) (d : List Byte) : Option Item :=
  if d.length < 8 ∨ be d 0 2 ≠ 1 ∨ be d 6 2 + 8 ≠ d.length then none
  else some ⟨s.wportClass (be d 4 2), d, be d 2 2, be d 4 2, 0, false⟩

/-- The entries of a BATCH body from an offset (R220): left entries from number no. An ENTRY_LEN below 16, less than the entry's header,
discards the batch (DESIGN CHOICE, log entry 12). -/
def batchItems (d : List Byte) : Nat → Nat → Nat → Option (List Item)
  | 0, _, o => if o = d.length then some [] else none
  | left + 1, no, o =>
    let len := be d o 2
    if d.length < o + 4 ∨ be d (o + 2) 1 ≠ no ∨ be d (o + 3) 1 = 0 ∨ 2 < be d (o + 3) 1 ∨ len < 16 ∨ d.length < o + 4 + len then
      none
    else
      let part := (d.drop (o + 4)).take len
      let w (i : Nat) := if be d (o + 3) 1 = 1 then be part i 2 else 0
      (batchItems d left (no + 1) (o + (4 + len + 3) / 4 * 4)).map (fun t => ⟨3, part, w 2, w 4, no, 512 < len⟩ :: t)

/-- A Plawiez BATCH (R219, R220): BATCH_SEQ, COUNT and the entries. -/
def batchOf (d : List Byte) : Option (Nat × Nat × List Item) :=
  if d.length < 16 ∨ 9000 < d.length ∨ be d 0 2 ≠ 0x504C ∨ be d 2 1 ≠ 1 ∨ be d 3 1 ≠ 1 ∨ be d 14 2 + 16 ≠ d.length ∨
      be d 12 2 = 0 ∨ 64 < be d 12 2 then none
  else (batchItems d (be d 12 2) 0 16).map (fun l => (be d 4 4, be d 12 2, l))

/-- The LLC header of a DLMS frame in HDLC (R212): E6 E7 00 from a server (IEC 62056-46, PRESUMED, log entry 34). -/
def llcHeader : List Byte := [0xE6, 0xE7, 0x00]

/-- The classifier (R212 to R217): the readings of a frame, with BATCH_SEQ and COUNT of a batch; none: discarded. -/
def State.classify (s : State) (f : Frame) : Option (List Item × Option (Nat × Nat)) :=
  let kind := portKind f.port.val
  let dlms := s.fld (ingA rING_UDP_PORTS) 15 0
  let plawiez := s.fld (ingA rING_UDP_PORTS) 31 16
  if !f.sound then none
  else if kind = 4 then
    if f.data.take 3 ≠ llcHeader ∨ 512 < f.data.length then none else some ([⟨2, f.data, 0, 0, 0, false⟩], none)
  else match f.udp with
    | none => if kind ≤ 1 then none else some ([⟨6, f.data, 0, 0, 0, false⟩], none)
    | some (_, d) =>
      if d.toNat = dlms then
        if 512 < f.data.length then none else (s.wrapperItem f.data).map (fun i => ([i], none))
      else if 2 ≤ kind then some ([⟨6, f.data, 0, 0, 0, false⟩], none)
      else if d.toNat = plawiez then (batchOf f.data).map (fun b => (b.2.2, some (b.1, b.2.1)))
      else none

/-- The source of a frame (R224). -/
def State.sourceOf (s : State) (f : Frame) : Nat :=
  let p := f.port.val
  let k := portKind p
  if k ≤ 1 then
    ((s.ing.sources.find? (fun e => e.1 < 4079 && e.2.valid && e.2.addr = f.addr)).map (·.1)).getD 4079
  else if k = 2 then 4080 + portNo p
  else if k = 3 then 4083 + portNo p
  else 4088 + portNo p

/-! ### Latency (R245) -/

/-- A reading counted late. -/
def State.countLate (s : State) : State := ((s.bump (ingA rING_LATE_CNT) 1).cause .ingest 0 2).irq .ingest 0 1

/-- An admission recorded in the ring; an entry still there is evicted. -/
def State.ringAdd (s : State) (seq port : Nat) : State :=
  let k := seq % 65536
  let s := match look (fun _ => none) s.ing.ring k with
    | some e => if e.counted || s.ing.ringBad.contains k then s else s.countLate
    | none => s
  let s := { s with ing := { s.ing with ringBad := s.ing.ringBad.filter (· ≠ k) } }
  { s with ing := { s.ing with ring := Machine.store (fun _ => none) s.ing.ring k (some ⟨seq, s.now, false, port⟩) } }

/-- ING_LATE_LIMIT in ns. -/
def State.lateLimit (s : State) : Nat := s.fld (ingA rING_LATE_LIMIT) 31 0 * 1000

/-- LATE_SCAN (R245): each entry older than the limit counted once. -/
def execLateScan (t : Nat) (s : State) : Res :=
  let s := s.at t
  .next (s.ing.ring.foldl (fun s e =>
    match e.2 with
    | some r =>
      if !r.counted ∧ !s.ing.ringBad.contains e.1 ∧ s.lateLimit < s.now - r.time then
        let s := s.countLate
        { s with ing := { s.ing with ring := Machine.store (fun _ => none) s.ing.ring e.1 (some { r with counted := true }) } }
      else s
    | none => s) s)

/-- DRAINED (R232): CLOSE_ALL is 1 and nothing is outstanding; the interrupt comes with its setting. -/
def State.drainCheck (s : State) : State :=
  let d := s.bitAt (ingA rING_CTRL) 0 && s.fld (ingA rING_OUTSTANDING) 15 0 = 0
  let was := s.bitAt (ingA rING_STAT) 17
  let s := s.putBit (ingA rING_STAT) 17 d
  if d && !was then s.irq .ingest 0 2 else s

/-- ING_OUTSTANDING lowered by one. -/
def State.settle (s : State) : State :=
  (s.putF (ingA rING_OUTSTANDING) 15 0 (s.fld (ingA rING_OUTSTANDING) 15 0 - 1)).drainCheck

/-- An acknowledgement reported (R242, R245), its latency cut to whole µs (DESIGN CHOICE, log entry 12); of an admission whose word of the ring
is uncorrectable nothing is measured and nothing raised (R253). -/
def State.ackReport (s : State) (seq : Nat) : State :=
  if s.ing.ringBad.contains (seq % 65536) then
    { s with ing := { s.ing with ring := drop s.ing.ring (seq % 65536), ringBad := s.ing.ringBad.filter (· ≠ seq % 65536) } }.settle
  else match look (fun _ => none) s.ing.ring (seq % 65536) with
  | some e =>
    if e.seq = seq then
      let s := { s with ing := { s.ing with ring := drop s.ing.ring (seq % 65536) } }
      let lat := s.now - e.time
      let s := s.wr (ingA rING_LAT_MAX) (BitVec.ofNat 32 (max (s.rd (ingA rING_LAT_MAX)).toNat (min (2 ^ 32 - 1) (lat / 1000))))
      let s := if s.lateLimit < lat ∧ !e.counted then s.countLate else s
      s.settle
    else other s
  | none => other s
where
  /-- A report that matches no entry. -/
  other (s : State) : State :=
    let age := ((s.rd (ingA rING_SEQ)).toNat + 2 ^ 32 - seq) % 2 ^ 32
    if 65536 < age ∧ age < 2 ^ 31 then s.settle else s.cause .ingest 0 5

/-- ACK_REPORT (R245). -/
def execAckReport (seq : BitVec 32) (t : Nat) (s : State) : Res := .next ((s.at t).ackReport seq.toNat)

/-! ### Admission (R228) -/

/-- Why a frame is refused (R221). -/
inductive Why where
  | credit | budget | closed | start | space
  deriving DecidableEq, Repr

/-- REASON of a BUSY (R221). -/
def Why.code : Why → Nat
  | .credit => 1 | .budget => 2 | .closed => 3 | .start => 4 | .space => 5

/-- The counter of a reason (R234). -/
def Why.register : Why → Nat
  | .credit => rING_WHY_CREDIT | .budget => rING_WHY_BUDGET | .space => rING_WHY_SPACE | _ => rING_WHY_CLOSED

/-- What became of one reading of a frame: admitted with its admission number and splice, refused, or discarded. -/
inductive Fate where
  | admitted (seq splice : Nat)
  | refused (w : Why)
  | discarded
  deriving DecidableEq, Repr

/-- A budget of a lay and class (R226). -/
def State.budget (s : State) (lay cls : Nat) : Nat := look (fun _ => 0) s.budgets (lay * 8 + cls)

/-- One unit taken from a budget. -/
def State.spend (s : State) (lay cls : Nat) : State :=
  { s with budgets := Machine.store (fun _ => 0) s.budgets (lay * 8 + cls) (s.budget lay cls - 1) }

/-- The cells of a reading (R218). -/
def cellsOf (n : Nat) : Nat := 1 + max 1 ((n + 55) / 56)

/-- (An uncorrectable entry answers CLOSED also while EN is 0 or before the first opening: DESIGN CHOICE, log entry 12, R253.) The first step of R228
that fails, or the lay and splice that take the reading; hold: the sender is to wait for the end of the power line's start-up period (R407); taken:
cells of this frame already promised to a splice. -/
def State.verdict (s : State) (src : Nat) (hold : Bool) (i : Item) (taken : Nat → Nat) : Why ⊕ (Nat × Nat) :=
  let k := i.cls
  let x := s.source src
  let code := if k = 6 then 2 else 1
  if x.ue then .inl .closed
  else if hold || !s.bitAt (ingA 0x00C) 0 then .inl .start
  else if !s.bitAt (ingA rING_STAT) k then .inl (if s.ing.opened then .closed else .start)
  else if k ≤ 5 ∧ 65535 ≤ s.fld (ingA rING_OUTSTANDING) 15 0 then .inl .budget
  else if x.credit < 1000 then .inl .credit
  else match s.rotNext code with
    | none => .inl .budget
    | some l =>
      if s.budget l k < 1 ∨ (k ≤ 5 ∧ s.budget l 0 < 1) then .inl .budget
      else match s.dealt code l with
        | none => .inl .budget
        | some n => if s.space n < taken n + cellsOf i.data.length then .inl .space else .inr (l, n)

/-- An INGEST counter's word read: an uncorrectable one is set to 0 (R253). -/
def State.ingHeal (s : State) (o key : Nat) : State :=
  if s.ing.cntBad.contains (o, key) then
    ({ s with ing := { s.ing with cntBad := s.ing.cntBad.filter (· ≠ (o, key)) } }.setBk (ingA o) key 0).cause .ingest 0 4
  else s

/-- An INGEST counter advanced; an uncorrectable one counts on from 0 (R253). -/
def State.ingBump (s : State) (o key most : Nat) : State := (s.ingHeal o key).bumpBk (ingA o) key most 1

/-- One reading counted (R234). -/
def State.countUnit (s : State) (src cls : Nat) (why : Option Why) : State :=
  let (a, b) := if why.isSome then (rING_SRC_REFUSE, rING_CLS_REFUSE) else (rING_SRC_ADMIT, rING_CLS_ADMIT)
  let s := (s.ingBump a (cls * 2 ^ 16 + src) (2 ^ 64)).ingBump b cls (2 ^ 64)
  match why with
  | none => s
  | some w => s.ingBump w.register cls (2 ^ 32 - 1)

/-- An admission while the TSU is not locked is remembered for its record (R239). -/
def State.noteUnlocked (s : State) (seq : Nat) : State :=
  if s.bitAt (pa .tsu 0 rTSU_STAT) 3 then s else { s with ing := { s.ing with unlocked := s.ing.unlocked ++ [seq] } }

/-- One decision (R228): the fate of one reading, and everything a decision debits. -/
def State.decideOne (s : State) (src port : Nat) (hold : Bool) (i : Item) (taken : Nat → Nat) : Fate × State :=
  if i.tooBig then (.discarded, s.bump (ingA rING_DISCARD_CNT) 1)
  else match s.verdict src hold i taken with
    | .inl w =>
      let s := if w = .space then (s.cause .ingest 0 0).irq .ingest 0 3 else s
      (.refused w, s.countUnit src i.cls (some w))
    | .inr (l, n) =>
      let seq := (s.rd (ingA rING_SEQ)).toNat
      let x := s.source src
      let s := s.setSource src { x with credit := x.credit - 1000 }
      let s := s.spend l i.cls
      let s := if i.cls ≤ 5 then s.spend l 0 else s
      let s := { s with ing := if i.cls = 6 then { s.ing with fsNext := (l + 1) % 8 } else { s.ing with inNext := (l + 1) % 8 } }
      let s := s.bumpMod (ingA rING_SEQ) 1
      let s := if i.cls ≤ 5 then
          let s := s.putF (ingA rING_OUTSTANDING) 15 0 (s.fld (ingA rING_OUTSTANDING) 15 0 + 1)
          let s := if s.fld (ingA rING_OUTSTANDING) 15 0 = 65535 then s.cause .ingest 0 1 else s
          ((s.putBit (ingA rING_STAT) 17 false).ringAdd seq port).noteUnlocked seq
        else s
      (.admitted seq n, s.countUnit src i.cls none)

/-- The decisions of a frame's readings in order, all before the first is dealt. -/
def State.decideAll (s : State) (src port : Nat) (hold : Bool) : List Item → List (Nat × Nat) → List (Item × Fate) × State
  | [], _ => ([], s)
  | i :: t, promised =>
    let taken (n : Nat) := ((promised.filter (fun p => p.1 = n)).map (·.2)).sum
    let (f, s) := s.decideOne src port hold i taken
    let more := match f with
      | .admitted _ n => (n, cellsOf i.data.length) :: promised
      | _ => promised
    let (l, s) := s.decideAll src port hold t more
    ((i, f) :: l, s)

/-- The bitmap of the readings with a fate (R218, R221). -/
def bitmapOf (l : List (Item × Fate)) (p : Fate → Bool) : Nat := ((l.filter (fun e => p e.2)).map (fun e => 2 ^ e.1.no)).sum

/-- A reading admitted. -/
def Fate.isAdmitted : Fate → Bool
  | .admitted _ _ => true
  | _ => false

/-- A reading refused. -/
def Fate.isRefused : Fate → Bool
  | .refused _ => true
  | _ => false

/-- The frame descriptor cell and the payload cells of a reading (R218). -/
def frameCells (f : Frame) (src reply : Nat) (i : Item) (seq nadm bitmap : Nat) (batch : Option (Nat × Nat)) : List Cell512 :=
  let p := f.port.val
  let d := mkCell [mkHeader true false 56 src seq, f.sec.toNat,
    f.ns.toNat + portKind p * 2 ^ 32 + portNo p * 2 ^ 36 + i.cls * 2 ^ 40 + 2 ^ 48 + i.no * 2 ^ 56,
    i.data.length + (if batch.isSome then nadm else 1) * 2 ^ 16 + reply * 2 ^ 24 + ((batch.map (·.1)).getD 0) * 2 ^ 32,
    bits f.addr 63 0, bits f.addr 127 64,
    ((f.udp.map (fun u => u.1.toNat + u.2.toNat * 2 ^ 16)).getD 0) + i.wsrc * 2 ^ 32 + i.wdst * 2 ^ 48,
    if batch.isSome then bitmap else f.word7.toNat]
  let n := max 1 ((i.data.length + 55) / 56)
  d :: (List.range n).map (fun j =>
    let part := (i.data.drop (56 * j)).take 56
    mkCell (mkHeader false (j + 1 = n) part.length src seq ::
      (List.range 7).map (fun w => leNat ((part.drop (8 * w)).take 8))))

/-! ### Replies to a refusal (R221, R229, R230) -/

/-- A uniform draw between two bounds: a free value. Where the first bound is the greater, as ING_START_RETRY may have it, the draw is any value
(DESIGN CHOICE, log entry 12). -/
def State.uniform (s : State) (lo hi : Nat) : Nat × State :=
  let (w, s) := s.draw
  (lo + w.toNat % (hi + 1 - lo), s)

/-- RETRY_AFTER in 100 ms (R230). -/
def State.retryAfter (s : State) (src : Nat) (w : Why) : Nat × State :=
  let x := s.source src
  let lo := s.fld (ingA rING_RETRY_MIN) 15 0
  let most := s.fld (ingA rING_RETRY_MAX) 15 0
  let (d, s') := s.uniform 0 (s.fld (ingA rING_RETRY_SPREAD) 15 0)
  match w with
  | .start => s.uniform (s.fld (ingA rING_START_RETRY) 15 0) (s.fld (ingA rING_START_RETRY) 31 16)
  | .credit =>
    if x.rate = 0 then (most, s)
    else
      let ms := (1000 - x.credit + x.rate - 1) / x.rate
      (min most (max ((ms + 99) / 100) lo + d), s')
  | _ => (min most (lo + d), s')

/-- A Plawiez message (R219). -/
def plawiez (type seq epoch count : Nat) (body : List Byte) : List Byte :=
  toBe 2 0x504C ++ toBe 1 1 ++ toBe 1 type ++ toBe 4 seq ++ toBe 4 epoch ++ toBe 2 count ++ toBe 2 body.length ++ body

/-- The exception-response of R229 in a wrapper with the wPorts exchanged (its coding is IEC 62056-5-3's, PRESUMED, log entry 13). -/
def exceptionResponse (i : Item) : List Byte :=
  toBe 2 1 ++ toBe 2 i.wdst ++ toBe 2 i.wsrc ++ toBe 2 3 ++ [0xD8, 1, 1]

/-- The reply to a frame with a refused reading (R229), and RETRY_AFTER. HDLC: the UART answers RNR and polls again no
earlier; FIELD: the MAC withholds its acknowledgement. A frame that is no batch is answered with BATCH_SEQ 0 and COUNT 1 (DESIGN CHOICE, log
entry 12). -/
def State.refusalReply (s : State) (f : Frame) (src : Nat) (l : List (Item × Fate)) (batch : Option (Nat × Nat)) : Nat × State :=
  match l.find? (fun e => e.2.isRefused) with
  | some (i, .refused w) =>
    let (r, s) := s.retryAfter src w
    let mode := (s.source src).reply
    if mode = 0 then
      let (seq, count) := batch.getD (0, 1)
      (r, s.sendTo f.port.val f.addr seq (plawiez 2 seq s.epoch count (toBe 2 r ++ toBe 1 w.code ++ [0] ++
        toBe 8 (bitmapOf l Fate.isRefused) ++ toBe 8 (bitmapOf l (fun x => x = .discarded)))))
    else if mode = 1 then (r, s.sendTo f.port.val f.addr ((batch.map (·.1)).getD 0) (exceptionResponse i))
    else (r, s)
  | _ => (0, s)

/-- What a port hears of a frame: discarded; admitted; refused, with RETRY_AFTER. -/
inductive Answer where
  | discarded | admitted | refused (retry : Nat)
  deriving DecidableEq, Repr

/-- A frame discarded (R215). -/
def State.discard (s : State) : Answer × State := (.discarded, s.bump (ingA rING_DISCARD_CNT) 1)

/-- The source table's word read for a decision (R253). -/
def State.readSource (s : State) (src : Nat) : State :=
  let (c, s) := s.inject .ingest 0 3 4
  if c = 1 then s.cause .ingest 0 3
  else if c = 2 then (s.setSource src { s.source src with ue := true }).cause .ingest 0 4
  else s

/-- Does the power line's start-up period refuse a frame (R407): one of a standard peer, which has not advertised the extension. -/
def State.heldBack (s : State) (f : Frame) : Bool :=
  let p := f.port.val
  portKind p = 3 && s.bitAt (plcA rPLC_STAT) 4 &&
    !(s.port7 (p - 6)).nbs.any (fun e => e.2.valid && e.2.extSeen && decide (e.2.ext = bits f.addr 63 0))

/-- A frame classified and decided, dealt or answered (R215, R228). A frame of a source whose entry is uncorrectable is refused also where R215
would discard it (DESIGN CHOICE, log entry 12, R253). -/
def State.takeUnit (s : State) (f : Frame) : Answer × State :=
  if !s.domOn 1 then (.discarded, s)
  else match s.classify f with
    | none => s.discard
    | some (items, batch) =>
      let src := s.sourceOf f
      let s := s.readSource src
      let x := s.source src
      if !x.ue && (!x.valid || items.any (fun i => !x.mask.testBit i.cls)) then s.discard
      else
        let (l, s) := s.decideAll src f.port.val (s.heldBack f) items []
        let adm := bitmapOf l Fate.isAdmitted
        let nadm := l.countP (fun e => e.2.isAdmitted)
        let s := l.foldl (fun s e => match e.2 with
          | .admitted seq n => s.offerAll n (frameCells f src x.reply e.1 seq nadm adm batch)
          | _ => s) s
        let s := match batch with
          | some (seq, count) => if nadm = 0 then s else
              { s with ing := { s.ing with batches := s.ing.batches ++ [⟨src, seq, count, adm, 0⟩] } }
          | none => s
        if l.any (fun e => e.2.isRefused) then
          let (r, s) := s.refusalReply f src l batch
          (.refused r, s)
        else if nadm = 0 then (.discarded, s) else (.admitted, s)

/-- FRAME_ADMISSION (R228). -/
def execFrameAdmission (f : Frame) (t : Nat) (s : State) : Res := .next ((s.at t).takeUnit f).2

/-! ### Credit (R225, R230) -/

/-- The sources whose entries a refill reads (R225, R253): while an error is armed every word counts, else only those that hold something. -/
def State.refilled (s : State) : List Nat :=
  if s.bitAt (ingA 0x01C) 3 || s.bitAt (ingA 0x01C) 4 then List.range 4096
  else (s.ing.sources.map (·.1)).filter (· < 4079) ++ (List.range 17).map (4079 + ·)

/-- CREDIT_REFILL (R225). -/
def execCreditRefill (s : State) : Res :=
  .next (if !(s.domOn 1 && s.bitAt (ingA 0x00C) 0) then s
    else
      s.refilled.foldl (fun s i =>
        let s := s.readSource i
        let x := s.source i
        s.setSource i { x with credit := min (x.credit + x.rate) (x.burst * 1000) }) s)

/-- The retry generator takes a new seed from the TRNG (R230): draws are free values, so a seed is one that is thrown away. Where the
DRBG gives no output the reseed is skipped (R481). -/
def State.reseed (s : State) : State := if s.drbgOk then s.draw.2 else s

/-- A write of INGEST's BLK_CTRL.EN (R225, R230, R231). -/
def State.ingEnable (s : State) (q : Requester) (v : Word32) : State :=
  s.guarded q (ingA 0x00C) v false fun s =>
    let was := s.bitAt (ingA 0x00C) 0
    let s := s.putBit (ingA 0x00C) 0 (bit v 0)
    if bit v 0 ∧ !was then
      ({ s with ing := { s.ing with opened := false } }.setTimer (ingA 0x00C) (s.now + 1000000)).reseed
    else s

/-- INGEST_ENABLE (R225). -/
def execIngestEnable (q : Requester) (t : Nat) (s : State) : Res := .next ((s.at t).ingEnable q 1)

/-- INGEST_RESEED (R230). -/
def execIngestReseed (s : State) : Res := .next (if s.domOn 1 && s.bitAt (ingA 0x00C) 0 then s.reseed else s)

/-! ### Opening and closing (R231, R251) -/

/-- The class in a nibble of ING_OPEN_ORDER; none ends the sequence. -/
def State.openNibble (s : State) (i : Nat) : Option Nat :=
  let k := s.fld (ingA rING_OPEN_ORDER) (4 * i + 3) (4 * i)
  if i < 8 ∧ 1 ≤ k ∧ k ≤ 6 then some k else none

/-- The class of nibble i opens; the sequence ends where the next nibble holds none (R231). -/
def State.openStep (s : State) (i : Nat) : State :=
  match s.openNibble i with
  | none => (s.putBit (ingA rING_STAT) 16 false).irq .ingest 0 0
  | some k =>
    let s := s.putBit (ingA rING_STAT) k true
    if (s.openNibble (i + 1)).isSome then
      ({ s with ing := { s.ing with nibble := i + 1 } }).putBit (ingA rING_STAT) 16 true
    else (s.putBit (ingA rING_STAT) 16 false).irq .ingest 0 0

/-- The opening sequence starts (R231). -/
def State.openSequence (s : State) : State :=
  let s := ((s.putBit (ingA rING_CTRL) 0 false).putF (ingA rING_STAT) 6 1 0).putBit (ingA rING_STAT) 16 false
  ({ s with ing := { s.ing with opened := true } }).drainCheck.openStep 0

/-- OPEN_ALL (R251): no sequence runs after it; it is no OPEN_SEQ, so a class it opens and CLOSE_ALL closes again is refused with START until the
first one (R231). -/
def State.openAll (s : State) : State :=
  (((s.putBit (ingA rING_CTRL) 0 false).putF (ingA rING_STAT) 6 1 0x3F).putBit (ingA rING_STAT) 16 false).drainCheck

/-- CLOSE_ALL (R231): a running sequence stops and every class closes. -/
def State.closeAll (s : State) : State :=
  (((s.putBit (ingA rING_CTRL) 0 true).putF (ingA rING_STAT) 6 1 0).putBit (ingA rING_STAT) 16 false).drainCheck

/-- A write of ING_CTRL (R231, R251): an opening wins over CLOSE_ALL in the same write (log entry 12). -/
def State.ingCtrl (s : State) (q : Requester) (v : Word32) : State :=
  s.guarded q (ingA rING_CTRL) v false fun s =>
    if bit v 2 then s.openAll
    else if bit v 1 then s.openSequence
    else if bit v 0 then s.closeAll
    else (s.putBit (ingA rING_CTRL) 0 false).drainCheck

/-- OPEN_SEQ (R231). -/
def execOpenSeq (q : Requester) (s : State) : Res := .next (s.ingCtrl q 2)
/-- CLOSE_ALL (R231). -/
def execCloseAll (q : Requester) (s : State) : Res := .next (s.ingCtrl q 1)
/-- OPEN_ALL (R251). -/
def execOpenAll (q : Requester) (s : State) : Res := .next (s.ingCtrl q 4)

/-- CLASS_OPEN_STEP (R231). -/
def execClassOpenStep (s : State) : Res :=
  .next (if s.domOn 1 && s.bitAt (ingA rING_STAT) 16 then s.openStep s.ing.nibble else s)

/-! ### Sources (R252) -/

/-- The address in the shadow registers: ADDR3 bits 31:24 hold byte 0, and byte 0 is bits 7:0 of the attachment address. -/
def State.shadowAddr (s : State) : BitVec 128 :=
  let w (j : Nat) := (s.rd (ingA (rING_SRC_ADDR + 4 * j))).toNat
  BitVec.ofNat 128 (leNat (toBe 4 (w 3) ++ toBe 4 (w 2) ++ toBe 4 (w 1) ++ toBe 4 (w 0)))

/-- A COMMIT that R252 refuses. -/
def State.commitBad (s : State) (i : Nat) : Bool :=
  i = 4087 || (i < 4079 && s.bitAt (ingA rING_SRC_BURST) 31 &&
    s.ing.sources.any (fun e => e.1 < 4079 && e.1 ≠ i && e.2.valid && e.2.addr = s.shadowAddr))

/-- The shadow applied to a source entry. -/
def State.commitSource (s : State) (i : Nat) : State :=
  let b := s.rd (ingA rING_SRC_BURST)
  let c := s.rd (ingA rING_SRC_CLASS)
  let old := s.source i
  let burst := max 1 (bits b 15 0)
  let valid := bit b 31
  s.setSource i
    { valid, burst
      rate := s.fld (ingA rING_SRC_RATE) 19 0
      reply := if i < 4079 then bits b 18 16 else fixedReply i
      mask := bits c 6 1 * 2
      ackKey := bits c 27 16
      addr := if i < 4079 then s.shadowAddr else old.addr
      credit := if valid && !old.valid then burst * 1000 else min old.credit (burst * 1000)
      ue := false }

/-- The shadow filled from a source entry. -/
def State.loadSource (s : State) (i : Nat) : State :=
  let x := s.source i
  let s := s.wr (ingA rING_SRC_RATE) (BitVec.ofNat 32 x.rate)
  let s := s.wr (ingA rING_SRC_BURST) (BitVec.ofNat 32 (x.valid.toNat * 2 ^ 31 + x.reply * 2 ^ 16 + x.burst))
  let s := s.wr (ingA rING_SRC_CLASS) (BitVec.ofNat 32 (x.ackKey * 2 ^ 16 + x.mask))
  (List.range 4).foldl (fun s j =>
    s.wr (ingA (rING_SRC_ADDR + 4 * j)) (BitVec.ofNat 32 (beNat ((toLe 16 x.addr.toNat).drop (12 - 4 * j) |>.take 4)))) s

/-- A write of ING_SRC_SEL (R251, R252). -/
def State.srcSel (s : State) (q : Requester) (v : Word32) : State :=
  s.guarded q (ingA rING_SRC_SEL) v (bit v 31 && s.commitBad (bits v 11 0)) fun s =>
    let s := (s.putF (ingA rING_SRC_SEL) 18 16 (bits v 18 16)).putF (ingA rING_SRC_SEL) 11 0 (bits v 11 0)
    if bit v 31 then (s.readSource (bits v 11 0)).commitSource (bits v 11 0) else if bit v 30 then (s.readSource (bits v 11 0)).loadSource (bits v 11 0) else s

/-- A source entry changed as a commit changes it (R252): a source that becomes VALID starts with a full bucket, any other keeps its level. -/
def State.applySource (s : State) (i : Nat) (x : Source) : State :=
  let old := s.source i
  s.setSource i { x with credit := if x.valid && !old.valid then x.burst * 1000 else min old.credit (x.burst * 1000), ue := false }

/-- What a read of an INGEST register does to the tables it is computed from (R253): an uncorrectable counter is set to 0, and ING_SRC_CREDIT reads
the source table. -/
def State.ingRead (s : State) (a : Nat) : State :=
  let src := s.fld (ingA rING_SRC_SEL) 11 0
  if !s.domOn 1 || s.srstBusy a then s
  else if a = ingA rING_SRC_CREDIT then s.readSource src
  else if a = ingA rING_SRC_ADMIT ∨ a = ingA rING_SRC_REFUSE then
    s.selClasses.foldl (fun s k => s.ingHeal (a - ingA 0) (k * 2 ^ 16 + src)) s
  else s.selClasses.foldl (fun s k => s.ingHeal (a - ingA 0) k) s

/-- SOURCE_COMMIT (R252). -/
def execSourceCommit (q : Requester) (source : BitVec 12) (s : State) : Res :=
  .next (s.srcSel q (BitVec.ofNat 32 (2 ^ 31 + source.toNat)))
/-- SOURCE_LOAD (R251). -/
def execSourceLoad (q : Requester) (source : BitVec 12) (s : State) : Res :=
  .next (s.srcSel q (BitVec.ofNat 32 (2 ^ 30 + source.toNat)))

end Sys2Proof.Machine
end

