-- ==== Sys2Proof/Machine/Balance.lean ====
section
/-! DEFINITION. The energy balance (09_balance_and_loss.md): contributions and their shares, the balance commands, the close of an
interval with its loss model and alarms, the suspicion list, and the BAL page's status and parameters. -/

namespace Sys2Proof.Machine

/-- A quotient rounded to nearest, ties away from zero. -/
def rdiv (a : Int) (b : Nat) : Int :=
  if b = 0 then 0 else a.sign * (((2 * a.natAbs + b) / (2 * b) : Nat) : Int)

/-- The window address of a BAL register. -/
def balA (o : Nat) : Nat := pa .bal 0 o

/-- The interval length in seconds (R439). -/
def State.ivlLen (s : State) : Nat := 60 * s.tsuTime.minutes

/-- The index of the interval that a second lies in or ends (R439). -/
def State.ivlIndex (s : State) (x : Nat) : Nat :=
  let t := if x ≤ s.tsuTime.changedAt then 60 * s.tsuTime.oldMinutes else s.ivlLen
  (x + t - 1) / t

/-- Where the interval that ends at a second begins (R439): the one that follows a change of length begins at the change. -/
def State.ivlStart (s : State) (e : Nat) : Nat :=
  if e ≤ s.tsuTime.changedAt then e - 60 * s.tsuTime.oldMinutes else max s.tsuTime.changedAt (e - s.ivlLen)

/-- An interval named by its end, for an index alone does not tell the lengths before and after a change apart (R439): its end, its index, the
index of the interval before it, and its length. -/
structure Ivl where
  fin : Nat
  idx : Nat
  prev : Nat
  len : Nat
  deriving DecidableEq, Repr

/-- The interval that ends at a second. -/
def State.ivl (s : State) (e : Nat) : Ivl := ⟨e, s.ivlIndex e, s.ivlIndex (s.ivlStart e), e - s.ivlStart e⟩

/-- The end of the newest open interval: the one in progress (R352, R439). -/
def State.newest (s : State) : Nat := (s.tsuTime.sec / s.ivlLen + 1) * s.ivlLen

/-- The end of the last interval closed; before the first close at most the newest two at the lay's start are open (R352). -/
def State.balLow (s : State) : Nat := match s.bal.closed with
  | some c => c
  | none => s.ivlStart (s.ivlStart (s.bal.first.getD s.newest))

/-- Is the interval that ends at a second at or below the last one closed. -/
def State.isClosed (s : State) (e : Nat) : Bool := e ≤ s.balLow

/-- The end of interval k (R439): of the two that an index names after a change of length, the earlier unless it is closed (log entry 34). -/
def State.ivlEnd (s : State) (k : Nat) : Nat :=
  let old := k * (60 * s.tsuTime.oldMinutes)
  if old ≤ s.tsuTime.changedAt ∧ !s.isClosed old then old else k * s.ivlLen

/-- A node's record, where it is declared. -/
def Bal.node (b : Bal) (n : Nat) : Option BalNode := (b.nodes.find? (fun e => e.1 = n)).map (·.2)

/-- A node's record set; its sequence counter advances (R265, R364). -/
def Bal.setNode (b : Bal) (n : Nat) (x : BalNode) : Bal :=
  { b with nodes := place n { x with seq := (x.seq + 1) % 2 ^ 24 } (drop b.nodes n) }

/-- The nodes above a node, nearest first. -/
def Bal.above (b : Bal) : Nat → Nat → List Nat
  | 0, _ => []
  | fuel + 1, n => match b.node n with
    | none => []
    | some x => if x.isRoot then [] else x.up :: b.above fuel x.up

/-- The depth of a node (R342). -/
def Bal.depth (b : Bal) (n : Nat) : Nat := (b.above 9 n).length

/-- The accumulators of an open interval, by its end. -/
def Bal.acc (b : Bal) (j : Nat) : BalAcc := look (fun _ => ⟨[], [], 0⟩) b.open_ j

/-- The accumulators of an interval set. -/
def Bal.setAcc (b : Bal) (j : Nat) (a : BalAcc) : Bal := { b with open_ := Machine.store (fun _ => ⟨[], [], 0⟩) b.open_ j a }

/-- What an interval has of a node. -/
def BalAcc.node (a : BalAcc) (n : Nat) : NodeAcc := look (fun _ => ⟨0, 0, false, 0, 0⟩) a.nodes n

/-- What an interval has of a node set. -/
def BalAcc.setNode (a : BalAcc) (n : Nat) (x : NodeAcc) : BalAcc :=
  { a with nodes := Machine.store (fun _ => ⟨0, 0, false, 0, 0⟩) a.nodes n x }

/-- The balance lay starts: the intervals open now are closed incomplete (R353); kept: the end of the newest of them. -/
def State.balStart (s : State) : State :=
  { s with bal := { s.bal with first := some (s.bal.first.getD s.newest) } }

/-! ### Node records in DDR (R364) -/

/-- A new node's estimator, cleared (R347). -/
def BalNode.clearEst (x : BalNode) : BalNode :=
  { x with r11 := 0, r12 := 0, r22 := 0, s1 := 0, s2 := 0, thA := 0, thB := 0, v := 0, n := 0, run := 0, clr := 0, cause := 1 }

/-- The node record's bytes (R364); the writer's identity is the first strand of lay 6 (log entry 16). -/
def BalNode.bytes (b : Bal) (n : Nat) (x : BalNode) : List Byte :=
  let seq := toLe 4 (x.seq * 256 + 96)
  seq ++ toLe 4 (x.up + x.isRoot.toNat * 2 ^ 16 + b.depth n * 2 ^ 17 + x.pkind * 2 ^ 20 + 2 ^ 31) ++ toLe 4 x.parent ++
    toLe 4 x.expected ++ toLe 4 x.npA ++ toLe 4 x.npB ++ toLe 4 x.sigma ++ toLe 4 x.aMax ++ toLe 8 x.xref ++
    toLe 8 x.r11 ++ toLe 8 x.r12 ++ toLe 8 x.r22 ++ toLe 8 (unsigned 64 x.s1) ++ toLe 8 (unsigned 64 x.s2) ++
    toLe 8 (unsigned 64 x.thA) ++ toLe 8 (unsigned 64 x.thB) ++ toLe 8 x.v ++
    toLe 4 (x.n + unsigned 8 x.run * 2 ^ 16 + x.clr * 2 ^ 24) ++ toLe 4 x.lastIdx ++
    toLe 4 (x.flags + (x.st + x.cause * 4 + x.reset.toNat * 16 + x.lost.toNat * 32) * 2 ^ 16 + x.draw.toNat * 2 ^ 24) ++
    toLe 4 x.late ++ toLe 2 (unsigned 16 x.lastR) ++ [0, 0] ++ seq

/-- A node record read back from its bytes (R364), where it is VALID. -/
def nodeOf (l : List Byte) : Option BalNode :=
  let f (o n : Nat) : Nat := leNat ((l.drop o).take n)
  let i (o n : Nat) : Int := signed (8 * n) (f o n)
  let d := f 4 4
  let c := f 0x68 4
  let st := f 0x72 1
  if !d.testBit 31 then none
  else some
    { up := nbits d 15 0, isRoot := d.testBit 16, pkind := nbits d 21 20, parent := f 8 4, expected := f 0xC 4, npA := f 0x10 4, npB := f 0x14 4
      sigma := f 0x18 4, aMax := f 0x1C 4, xref := f 0x20 8, r11 := f 0x28 8, r12 := f 0x30 8, r22 := f 0x38 8, s1 := i 0x40 8, s2 := i 0x48 8
      thA := i 0x50 8, thB := i 0x58 8, v := f 0x60 8, n := nbits c 15 0, run := signed 8 (nbits c 23 16), clr := nbits c 31 24
      lastIdx := f 0x6C 4, flags := f 0x70 2, cause := nbits st 3 2, st := nbits st 1 0, reset := st.testBit 4, lost := st.testBit 5
      draw := (f 0x73 1).testBit 0, late := f 0x74 4, lastR := i 0x78 2, seq := f 0 4 / 256 }

/-- A node's record as the table in DDR holds it (R265, R364): not VALID where the node is not declared; seq: its sequence counter. -/
def Bal.record (b : Bal) (n seq : Nat) : List Byte := match b.node n with
  | some x => ({ x with seq } : BalNode).bytes b n
  | none => toLe 4 (seq * 256 + 96) ++ List.replicate 120 0 ++ toLe 4 (seq * 256 + 96)

/-- The DDR address of a node's record. -/
def State.nodeAddr (s : State) (n : Nat) : Nat := s.work.nodeBase + 128 * n

/-- The sequence counter that a record's next write carries (R265). -/
def State.nodeSeq (s : State) (n : Nat) : Nat := (s.le .ddr (s.nodeAddr n) 4 / 256 + 1) % 2 ^ 24

/-- The balance changed: the records and ZERO_RUN entries that differ are written to DDR, each record under the next value of its sequence
counter (R265, R361, R364). -/
def State.putBal (s : State) (b : Bal) : State :=
  let ns := (((s.bal.nodes ++ b.nodes).map (·.1)).eraseDups).filter (fun n => s.bal.record n 0 ≠ b.record n 0)
  let runs (x : Bal) (m : Nat) : Nat := look (fun _ => 0) x.zeroRun m
  let ms := (((s.bal.zeroRun ++ b.zeroRun).map (·.1)).eraseDups).filter (fun m => runs s.bal m ≠ runs b m)
  let b := { b with nodes := b.nodes.map (fun e => (e.1, if ns.contains e.1 then { e.2 with seq := s.nodeSeq e.1 } else e.2)) }
  let s1 := ns.foldl (fun t n => t.ddrPut (t.nodeAddr n) (b.record n (t.nodeSeq n))) { s with bal := b }
  ms.foldl (fun t m => t.ddrPut (t.work.zeroBase + 8 * m) (toLe 8 (runs b m))) s1

/-- A record that reads uncorrectable (R365): decl: in its declaration words. -/
def Bal.spoil (b : Bal) (n : Nat) (decl : Bool) : Bal := match b.node n with
  | some x => b.setNode n (if decl then { x with lost := true } else { x.clearEst with reset := true })
  | none => b

/-- A declared node's record read through the checks of DDR (R365, R706): what is uncorrectable shows in the interval closed next. The declaration
words are read once more. -/
def State.nodeRead (s : State) (n : Nat) : State :=
  if (s.bal.node n).isNone then s
  else
    let a := s.nodeAddr n
    let (c, s) := s.ddrCheck a 0x28
    let (c, s) := if c = 2 then s.ddrCheck a 0x28 else (c, s)
    let (d, s) := s.ddrCheck (a + 0x28) 0x58
    let mark (s : State) (decl : Bool) : State :=
      let b := s.bal.spoil n decl
      s.putBal { b with spoiled := (n, decl) :: b.spoiled.filter (· ≠ (n, decl)) }
    let s := if d = 2 then mark s false else s
    if c = 2 then mark s true else s

/-! ### Contributions (R349, R350, R361) -/

/-- The part of a span with intervals of one length: (from, to] and the length. -/
structure Part where
  lo : Nat
  hi : Nat
  t : Nat

/-- The index of the first interval a part overlaps, and of the last. -/
def Part.first (p : Part) : Nat := p.lo / p.t + 1
/-- See `Part.first`. -/
def Part.last (p : Part) : Nat := (p.hi + p.t - 1) / p.t

/-- The overlap of a part and its interval j. -/
def Part.overlap (p : Part) (j : Nat) : Nat := min p.hi (j * p.t) - max p.lo ((j - 1) * p.t)

/-- The span (a, e] cut at the last change of the interval length (R350, R439). -/
def State.parts (s : State) (a e : Nat) : List Part :=
  let c := s.tsuTime.changedAt
  (if a < c then [⟨a, min e c, 60 * s.tsuTime.oldMinutes⟩] else []) ++ (if c < e then [⟨max a c, e, s.ivlLen⟩] else [])

/-- The rounded shares of a part's intervals, summed; d: the length of the span. -/
def Part.sum (p : Part) (energy : Int) (d : Nat) : Int :=
  let share (j : Nat) : Int := rdiv (energy * (p.overlap j : Nat)) d
  if p.first = p.last then share p.first
  else share p.first + rdiv (energy * (p.t : Nat)) d * ((p.last - p.first - 1 : Nat) : Int) + share p.last

/-- The share of interval j of a part of a span (R350): the last interval of the span takes what is left. -/
def shareOf (energy : Int) (d : Nat) (l : List Part) (p : Part) (isLast : Bool) (j : Nat) : Int :=
  let share := rdiv (energy * (p.overlap j : Nat)) d
  if isLast && decide (j = p.last) then energy - (l.map (fun q => q.sum energy d)).sum + share else share

/-- The energy floor of BAL_ZERO in mWh. -/
def Bal.zeroFloor (b : Bal) : Int := ((nbits b.par.zero 15 0 * 1000 : Nat) : Int)

/-- One share booked to an open interval. -/
def Bal.book (b : Bal) (meter node j : Nat) (share : Int) (covers : Bool) : Bal :=
  let a := b.acc j
  let x := a.node node
  let parent := match b.node node with
    | some d => d.pkind = 2 && d.parent = meter
    | none => false
  b.setAcc j (a.setNode node
    (if parent then { x with par := x.par + share, parRep := x.parRep || covers }
     else { x with child := x.child + share, reporting := x.reporting + covers.toNat
                   above := x.above + (covers && decide (b.zeroFloor ≤ share)).toNat }))

/-- The indicators of a contribution (R361): the SUSPECT bits in their places, and ZERO_DRAW. -/
def indicators (suspect : Nat) (zero : Bool) : Nat := suspect % 16 + zero.toNat * 16 + suspect / 16 % 16 * 32

/-- A contribution taken (R350, R361). -/
def State.contribute (s : State) (c : Cell512) : State :=
  let w (i : Nat) := (cellWord c i).toNat
  let meter := nbits (w 1) 19 0
  let node := nbits (w 1) 35 20
  let s := s.balStart.nodeRead node
  let b := s.bal
  let a := nbits (w 2) 47 0
  let e := nbits (w 3) 47 0
  let energy := signed 64 (w 4)
  if e ≤ a then s
  else
    let l := s.parts a e
    let top := s.newest + s.ivlLen
    let low := s.balLow
    let late := (l.map (fun p => min p.last (low / p.t) + 1 - p.first)).sum
    let ignored := (l.map (fun p => p.last - max (top / p.t) (p.first - 1))).sum
    let runs := if energy < b.zeroFloor then look (fun _ => 0) b.zeroRun meter + 1 else 0
    let b := { b with zeroRun := Machine.store (fun _ => 0) b.zeroRun meter runs
                      late := b.late + late, ignored := b.ignored + ignored }
    let b := match b.node node with
      | some x => if late = 0 then b else b.setNode node { x with late := satAdd (2 ^ 32 - 1) x.late late }
      | none => b
    let zero := nbits b.par.zero 31 24 ≤ runs && 0 < runs && ((b.node node).map (·.draw)).getD false
    let c0 := s.tsuTime.changedAt
    let b := l.zipIdx.foldl (fun b q =>
      let p := q.1
      let isLast := decide (q.2 + 1 = l.length)
      let lo := max p.first (low / p.t + 1)
      (List.range (min p.last (top / p.t) + 1 - lo)).foldl (fun b i =>
        let j := lo + i
        let start := if c0 < j * p.t then max c0 ((j - 1) * p.t) else (j - 1) * p.t
        b.book meter node (j * p.t) (shareOf energy (e - a) l p isLast j) (a ≤ start && j * p.t ≤ e)) b) b
    let ind := indicators (nbits (w 5) 7 0) zero
    let b := match l.getLast? with
      | none => b
      | some p =>
        let fin := p.last * p.t
        if ind = 0 ∨ fin ≤ low ∨ top < fin then b
        else
          let x := b.acc fin
          b.setAcc fin (if x.suspects.length < 65536 then
            { x with suspects := x.suspects ++
                [⟨meter, node, ind, shareOf energy (e - a) l p true p.last, min 255 runs, nbits (w 5) 15 8, nbits (w 5) 18 16⟩] }
            else { x with trunc := x.trunc + 1 })
    s.putBal b

/-- CONTRIBUTION_CELL (R350): the balance lay pops a contribution from a splice. -/
def execContributionCell (n : BitVec 13) (s : State) : Res :=
  .next (match s.pop n.toNat with
    | (none, s) => s
    | (some (c, _), s) => s.contribute c)

/-! ### Commands (R345 to R348) -/

/-- A node of a declaration's words. -/
def declNode (w : Nat → Nat) : BalNode :=
  { up := nbits (w 1) 31 16, isRoot := (w 1).testBit 32, pkind := nbits (w 1) 41 40, parent := nbits (w 2) 19 0
    expected := nbits (w 2) 52 32, npA := nbits (w 3) 31 0, npB := nbits (w 3) 63 32, sigma := nbits (w 4) 31 0
    aMax := nbits (w 4) 63 32, xref := w 5
    r11 := 0, r12 := 0, r22 := 0, s1 := 0, s2 := 0, thA := 0, thB := 0, v := 0, n := 0, run := 0, clr := 0, lastIdx := 0
    flags := 0, cause := 1, st := 0, reset := false, lost := false, draw := false, late := 0, lastR := 0, seq := 0 }

/-- A declared node's words on an old record: estimator and counters kept. -/
def BalNode.redeclare (x d : BalNode) : BalNode :=
  { x with up := d.up, isRoot := d.isRoot, pkind := d.pkind, parent := d.parent, expected := d.expected, npA := d.npA
           npB := d.npB, sigma := d.sigma, aMax := d.aMax, xref := d.xref, lost := false }

/-- The greatest depth any node has. -/
def Bal.deepest (b : Bal) : Nat := (b.nodes.map (fun e => b.depth e.1)).foldl max 0

/-- A node and every node above it, for TOPO_CHANGED. -/
def Bal.markTopo (b : Bal) (n : Nat) : Bal := { b with topo := b.topo ++ (n :: b.above 9 n) }

/-- The status of a declaration (R346). -/
def Bal.declBad (b : Bal) (n : Nat) (d : BalNode) : Nat :=
  let after := b.setNode n d
  if !d.isRoot ∧ b.node d.up = none ∧ d.up ≠ n then 2
  else if !d.isRoot ∧ (d.up = n ∨ (b.above 9 d.up).contains n) then 4
  else if 7 < after.deepest then 3
  else if d.pkind = 3 ∨ (d.pkind = 1 ∧ 15 < d.parent) ∨
      ((d.pkind = 1 ∨ d.pkind = 2) ∧ b.nodes.any (fun e => e.1 ≠ n && e.2.pkind = d.pkind && e.2.parent = d.parent)) then 6
  else 0

/-- NODE_DECL's effect (R347). -/
def Bal.declare (b : Bal) (n : Nat) (d : BalNode) : Bal :=
  match b.node n with
  | none => (b.setNode n d).markTopo n
  | some x =>
    let y := x.redeclare d
    let y := if x.pkind ≠ d.pkind ∨ x.parent ≠ d.parent ∨ x.xref ≠ d.xref then y.clearEst else y
    if x.up ≠ d.up ∨ x.isRoot ≠ d.isRoot ∨ x.pkind ≠ d.pkind ∨ x.parent ≠ d.parent ∨ x.expected ≠ d.expected then
      ((b.markTopo n).setNode n y).markTopo n
    else b.setNode n y

/-- The bits a command's words may hold. -/
def balBits (op i : Nat) : Nat :=
  match op, i with
  | 1, 1 => 2 ^ 33 - 1 + 3 * 2 ^ 40
  | 1, 2 => 2 ^ 20 - 1 + (2 ^ 21 - 1) * 2 ^ 32
  | 1, 3 => 2 ^ 64 - 1
  | 1, 4 => 2 ^ 64 - 1
  | 1, 5 => 2 ^ 64 - 1
  | 2, 1 => 2 ^ 16 - 1
  | 3, 1 => 2 ^ 16 - 1 + 2 ^ 32
  | 4, 1 => 2 ^ 16 - 1
  | _, _ => 0

/-- The form of a balance command: its opcode, and every bit that must be 0. -/
def balFormed (c : Cell512) : Bool :=
  let op := cellChan c % 256
  1 ≤ op && op ≤ 4 && cellChan c < 256 &&
  (List.range 7).all (fun i => (cellWord c (i + 1)).toNat ||| balBits op (i + 1) = balBits op (i + 1))

/-- The cells that complete a command: the status, and a NODE_READ's record. -/
def balAnswer (c : Cell512) (status : Nat) (record : List Byte) : List Cell512 :=
  let hd (f l : Bool) (n : Nat) := mkHeader f l n (cellChan c) (cellAux c)
  if record = [] then [mkCell [hd true true 56, status, 0, 0, 0, 0, 0, 0]]
  else
    let part (o n : Nat) (l : Bool) : Cell512 :=
      mkCell (hd false l n :: (List.range 7).map (fun i => leNat ((((record.drop o).take n).drop (8 * i)).take 8)))
    [mkCell [hd true false 56, status, 0, 0, 0, 0, 0, 0], part 0 56 false, part 56 56 false, part 112 16 true]

/-- What a balance command finds (R346): its status. -/
def Bal.check (b : Bal) (c : Cell512) : Nat :=
  let w (i : Nat) := (cellWord c i).toNat
  let n := nbits (w 1) 15 0
  if !balFormed c then 7
  else match cellChan c % 256 with
    | 1 => b.declBad n (declNode w)
    | 2 => if b.node n = none then 1 else if b.nodes.any (fun e => e.1 ≠ n && !e.2.isRoot && e.2.up = n) then 5 else 0
    | 3 => if !(w 1).testBit 32 ∧ b.node n = none then 1 else 0
    | _ => if b.node n = none then 1 else 0

/-- The effect of an accepted command (R347). -/
def Bal.effect (b : Bal) (c : Cell512) : Bal :=
  let w (i : Nat) := (cellWord c i).toNat
  let n := nbits (w 1) 15 0
  match cellChan c % 256 with
  | 1 => b.declare n (declNode w)
  | 2 => { b.markTopo n with nodes := drop b.nodes n }
  | 3 =>
    if (w 1).testBit 32 then b.nodes.foldl (fun b e => b.setNode e.1 e.2.clearEst) b
    else match b.node n with
      | some x => b.setNode n x.clearEst
      | none => b
  | _ => b

/-- The balance with every accepted command in effect: what the checks of a later command look at (R346). -/
def Bal.planned (b : Bal) : Bal := b.waiting.foldl (fun b e => b.effect e.2) b

/-- A balance command run (R345 to R348): its answer; an accepted change waits for a close (R347), a NODE_READ shows the record as it is. -/
def State.balRun (s : State) (out : Nat) (c : Cell512) : List Cell512 × State :=
  let n := bits (cellWord c 1) 15 0
  let s := s.balStart.nodeRead n
  let b := s.bal
  let st := (if cellChan c % 256 = 4 then b else b.planned).check c
  if st ≠ 0 then (balAnswer c st [], s)
  else if cellChan c % 256 = 4 then (balAnswer c 0 (b.record n (s.le .ddr (s.nodeAddr n) 4 / 256)), s)
  else (balAnswer c 0 [], { s with bal := { b with waiting := b.waiting ++ [(out, c)] } })

/-- The commands accepted take effect, as a close begins (R347): the completion of each was pushed as it was served (`State.hostMay`). -/
def State.balOrders (s : State) : State :=
  s.putBal (s.bal.waiting.foldl (fun b e => b.effect e.2) { s.bal with waiting := [] })

/-- A command of an opcode served from a ring by the balance lay (R37): the front cell where it has the opcode, or one no row names. -/
def State.balCommand (s : State) (op ring reply : Nat) : State :=
  match s.peekCell (6144 + ring) 0 with
  | none => s
  | some c =>
    let o := cellChan c % 256
    if (o = op ∨ o = 0 ∨ 4 < o) ∧ s.hostMay balLay ring reply then
      let s := (s.pop (6144 + ring)).2.hostSpend ring reply
      let (l, s) := s.balRun (6144 + reply) c
      s.offerAll (6144 + reply) l
    else s

/-- NODE_DECL (R347). -/
def execNodeDecl (ring reply : Fin 64) (s : State) : Res := .next (s.balCommand 1 ring.val reply.val)
/-- NODE_REMOVE (R346). -/
def execNodeRemove (ring reply : Fin 64) (s : State) : Res := .next (s.balCommand 2 ring.val reply.val)
/-- NODE_RESET (R347). -/
def execNodeReset (ring reply : Fin 64) (s : State) : Res := .next (s.balCommand 3 ring.val reply.val)
/-- NODE_READ (R348). -/
def execNodeRead (ring reply : Fin 64) (s : State) : Res := .next (s.balCommand 4 ring.val reply.val)

/-! ### The close (R351 to R361) -/

/-- The point cells waiting on the interval-value splices, taken. -/
def State.takePoints (s : State) : State :=
  (s.producedBy 0x0D).foldl (fun s n => takeAll n s (s.cfill n)) s
where
  /-- Up to a number of cells of a splice. -/
  takeAll (n : Nat) (s : State) : Nat → State
    | 0 => s
    | fuel + 1 => match s.pop n with
      | (none, s) => s
      | (some (c, _), s) =>
        let p := cellChan c
        let l := place p (c :: look (fun _ => []) s.bal.points p) (drop s.bal.points p)
        takeAll n { s with bal := { s.bal with points := l } } fuel

/-- The interval index of a point cell. -/
def pointIdx (c : Cell512) : Nat := bits (cellWord c 2) 31 0

/-- A point cell whose flags let it supply no M (R351). -/
def pointBad (c : Cell512) : Bool := bits (cellWord c 2) 63 48 &&& 0x3B0 ≠ 0

/-- The cell of point p for an interval with the one before it in arrival, where that is the cell of the interval before. -/
def Bal.pointCells (b : Bal) (p : Nat) (k : Ivl) : Option (Cell512 × Cell512) :=
  match (look (fun _ => []) b.points p).dropWhile (fun c => pointIdx c ≠ k.idx % 2 ^ 32) with
  | c :: d :: _ => if pointIdx d = k.prev % 2 ^ 32 then some (c, d) else none
  | _ => none

/-- A node's M of interval k, and PARENT_FLAGGED (R343, R351). -/
def Bal.inflow (b : Bal) (x : BalNode) (a : NodeAcc) (k : Ivl) : Option Int × Bool :=
  if x.pkind = 1 then
    match b.pointCells x.parent k with
    | some (c, d) =>
      if pointBad c ∨ pointBad d ∨ bits (cellWord c 2) 47 32 = 0 then (none, false)
      else
        let dif (i : Nat) := signed 64 ((cellWord c i).toNat) - signed 64 ((cellWord d i).toNat)
        (some (dif 3 - dif 4), (bits (cellWord c 2) 63 48 ||| bits (cellWord d 2) 63 48) &&& 0xE ≠ 0)
    | none => (none, false)
  else if x.pkind = 2 then (if a.parRep then some a.par else none, false)
  else (none, false)

/-- The load proxy ξ in 24 fractional bits, and XI_CLAMP (R355). -/
def Bal.proxy (b : Bal) (x : BalNode) (k : Ivl) (m : Option Int) (c : Int) : Nat × Bool :=
  let xi : Int :=
    if x.xref = 0 then 0
    else if x.pkind = 1 then
      match m, b.pointCells x.parent k with
      | some _, some (cell, _) =>
        rdiv ((cellWord cell 5).toNat * 2 ^ 24) (bits (cellWord cell 2) 47 32 * x.xref)
      | _, _ => 0
    else
      let p := rdiv (m.getD c * 36) (10 * k.len)
      rdiv (p * p * 2 ^ 24) x.xref
  if 2 ^ 32 - 1 < xi then (2 ^ 32 - 1, true) else (xi.toNat, false)

/-- T̂ in mW (R355, R358). -/
def BalNode.techLoss (x : BalNode) (xi : Nat) : Int :=
  if x.cause = 0 then rdiv (x.thA * 2 ^ 24 + x.thB * xi) (2 ^ 40) else rdiv (x.npA * 2 ^ 24 + x.npB * xi) (2 ^ 24)

/-- The square of τ in mW², as a numerator over 65,536 (R358). -/
def Bal.tauSq (b : Bal) (x : BalNode) : Nat :=
  let f := nbits b.par.alarm 7 0 * (if x.cause = 0 then 16 else nbits b.par.alarm 23 16)
  f * f * max x.v (x.sigma * x.sigma)

/-- τ in W, to the nearest. -/
def Bal.tauW (b : Bal) (x : BalNode) : Nat := (Nat.sqrt (4 * b.tauSq x / (65536 * 1000000)) + 1) / 2

/-- An unsigned 64-bit field, saturating. -/
def sat64 (v : Int) : Nat := (clampI 0 (2 ^ 64 - 1) v).toNat

/-- A signed 64-bit field, saturating. -/
def satS64 (v : Int) : Int := clampI (-(2 ^ 63)) (2 ^ 63 - 1) v

/-- The estimator's update (R356). -/
def BalNode.update (x : BalNode) (lam xi : Nat) (l r : Int) : BalNode :=
  let q (v : Int) := rdiv v 65536
  { x with
    r11 := sat64 (q (lam * x.r11 + 2 ^ 48)), r12 := sat64 (q (lam * x.r12 + xi * 2 ^ 24))
    r22 := sat64 (q (lam * x.r22 + xi * xi)), s1 := satS64 (q (lam * x.s1 + l * 2 ^ 24))
    s2 := satS64 (q (lam * x.s2 + xi * l)), v := sat64 (q (lam * x.v + (65536 - lam : Nat) * (r * r)))
    n := min 65535 (x.n + 1) }

/-- The identification after an update (R357), and NEG_COEF. -/
def BalNode.identify (x : BalNode) (minIvl cond : Nat) : BalNode × Bool :=
  if x.n < minIvl then ({ x with cause := 1 }, false)
  else if x.xref = 0 then
    if x.s1 < 0 then ({ x with cause := 3 }, true)
    else ({ x with cause := 0, thA := satS64 (rdiv (x.s1 * 2 ^ 40) x.r11), thB := 0 }, false)
  else
    let det : Int := x.r11 * x.r22 - x.r12 * x.r12
    let tr : Int := x.r11 + x.r22
    if det ≤ 0 ∨ ((cond + 1) * (cond + 1) : Nat) * det < tr * tr * cond then ({ x with cause := 2 }, false)
    else
      let a := x.r22 * x.s1 - x.r12 * x.s2
      let b := x.r11 * x.s2 - x.r12 * x.s1
      if a < 0 ∨ b < 0 then ({ x with cause := 3 }, true)
      else ({ x with cause := 0, thA := satS64 (rdiv (a * 2 ^ 40) det.toNat), thB := satS64 (rdiv (b * 2 ^ 40) det.toNat) }, false)

/-- RUN and CLR of a usable interval (R359); side: 1 above τ, −1 below −τ, 0 within. -/
def BalNode.runs (x : BalNode) (side : Int) : BalNode :=
  if side > 0 then { x with run := if 0 < x.run then min 127 (x.run + 1) else 1, clr := 0 }
  else if side < 0 then { x with run := if x.run < 0 then max (-127) (x.run - 1) else -1, clr := 0 }
  else { x with run := 0, clr := min 255 (x.clr + 1) }

/-- The state of a node at its close, corroboration apart (R360). -/
def BalNode.settle (x : BalNode) (m : Nat) : BalNode :=
  if (m : Int) ≤ x.run.natAbs then
    { x with st := if x.cause ≠ 0 then 1 else if 0 < x.run then 2 else 3 }
  else if x.st ≠ 0 ∧ m ≤ x.clr then { x with st := 0 } else x

/-- What the close of a node gives those that follow: its record, M, C, Ĉ, completeness, r, τ and T̂ in their report units, ξ, the
reporting meters. -/
structure Closed where
  node : BalNode
  m : Option Int
  c : Int
  inferred : Int
  complete : Bool
  r : Int
  tau : Nat
  tech : Int
  xi : Nat
  reporting : Nat

/-- One node closed (R353 to R360). -/
def Bal.closeNode (b : Bal) (k : Ivl) (forced : Bool) (topo : List Nat) (early : Bool) (done : List (Nat × Closed))
    (n : Nat) (x : BalNode) : Closed :=
  let a := (b.acc k.fin).node n
  let kids := done.filter (fun e => !e.2.node.isRoot && e.2.node.up = n && !e.2.node.lost)
  let (m, flagged) := b.inflow x a k
  let c := a.child + (kids.map (fun e => e.2.m.getD e.2.inferred)).sum
  let complete := !early && decide (x.expected ≤ a.reporting) &&
    kids.all (fun e => e.2.m.isSome || (e.2.complete && e.2.node.cause = 0))
  let (xi, clamp) := b.proxy x k m c
  let tech := x.techLoss xi
  let changed := topo.contains n
  let usable := complete && m.isSome && !changed && !x.lost
  let l := rdiv ((m.getD 0 - c) * 3600) k.len
  let r := if m.isSome then l - tech else 0
  let beyond := b.tauSq x < (r * r).toNat * 65536
  let hold := b.par.ctrl.testBit 2
  let y := if usable ∧ !beyond ∧ !hold then x.update (nbits b.par.lambda 15 0) xi l r else x
  let (y, neg) := if usable ∧ !beyond ∧ !hold then y.identify (nbits b.par.minIvl 12 0) b.par.cond else (y, false)
  let y := if usable then y.runs (if beyond then r.sign else 0) else y
  let y := y.settle (nbits b.par.alarm 15 8)
  let aHigh := y.cause = 0 ∧ y.aMax ≠ 0 ∧ (y.aMax * 65536 : Nat) < y.thA
  let kidInferred := kids.any (fun e => e.2.m.isNone)
  let bitIf (p : Bool) (i : Nat) := if p then 2 ^ i else 0
  let flags := bitIf usable 0 + bitIf (y.cause = 0) 1 + bitIf (!complete) 2 + bitIf m.isNone 3 + bitIf (m.isNone && !x.isRoot) 4 +
    bitIf kidInferred 5 + bitIf changed 6 + bitIf forced 7 + bitIf (usable && beyond) 8 + bitIf clamp 9 + bitIf neg 10 +
    bitIf aHigh 11 + bitIf (decide (x.expected < a.reporting)) 13 + bitIf flagged 14 + bitIf hold 15
  let share := nbits b.par.zero 23 16
  let y := { y with flags, lastIdx := k.idx, lastR := clampI (-32768) 32767 (rdiv r 1000)
                    draw := 4 ≤ a.reporting && decide (share * a.reporting ≤ 100 * a.above) }
  ⟨y, m, c, c + rdiv (tech * k.len) 3600, complete, r, if m.isSome then b.tauW x else 0,
    if m.isSome then rdiv tech 1000 else 0, xi, a.reporting⟩

/-- A WATCH corroborated by a suspect meter or by its upstream node in ALARM_LOSS (R360). -/
def corroborate (susp : List Suspect) (up : List (Nat × Closed)) (n : Nat) (c : Closed) : Closed :=
  let x := c.node
  if x.st = 1 ∧ 0 < x.run ∧
      (susp.any (fun p => p.node = n) ∨ (!x.isRoot && up.any (fun e => e.1 = x.up && e.2.node.st = 2))) then
    { c with node := { x with st := 2, flags := x.flags + 2 ^ 12 } }
  else c

/-- A word of two 32-bit fields, each signed and saturating. -/
def pair32 (a b : Int) : Nat :=
  unsigned 32 (clampI (-(2 ^ 31)) (2 ^ 31 - 1) a) + unsigned 32 (clampI (-(2 ^ 31)) (2 ^ 31 - 1) b) * 2 ^ 32

/-- A report cell (R362). -/
def reportCell (k kind len : Nat) (ws : List Nat) : Cell512 := mkCell (mkHeader true true len kind k :: ws)

/-- The node cell of a report. -/
def nodeCell (k n : Nat) (c : Closed) : Cell512 :=
  let x := c.node
  let w (v : Int) := rdiv v (65536 * 1000)
  reportCell k 0x11 56 [n + x.flags * 2 ^ 16 + (x.st + x.cause * 4 + x.reset.toNat * 16 + x.lost.toNat * 32) * 2 ^ 32 +
      unsigned 8 x.run * 2 ^ 40,
    unsigned 64 (c.m.getD 0), unsigned 64 c.c, unsigned 64 c.r,
    min (2 ^ 32 - 1) c.tau + unsigned 32 (clampI (-(2 ^ 31)) (2 ^ 31 - 1) c.tech) * 2 ^ 32,
    pair32 (w x.thA) (w x.thB), c.xi + c.reporting % 2 ^ 21 * 2 ^ 32 + min 2047 x.late * 2 ^ 53]

/-- The report of a close (R362). -/
def Bal.report (b : Bal) (i : Ivl) (forced : Bool) (l : List (Nat × Closed)) : List Cell512 :=
  let a := b.acc i.fin
  let k := i.idx
  let shown := l.filter (fun e => b.par.ctrl.testBit 1 || e.2.node.st ≠ 0 || e.2.node.flags.testBit 11 || e.2.node.lost)
  let alarms := l.countP (fun e => 2 ≤ e.2.node.st)
  [reportCell k 0x10 56 [i.fin, i.len + forced.toNat * 2 ^ 32, l.length + alarms * 2 ^ 32, 0, 0, 0, 0]] ++
  shown.map (fun e => nodeCell k e.1 e.2) ++
  a.suspects.map (fun p => reportCell k 0x12 56 [p.meter + p.node * 2 ^ 20 + p.ind * 2 ^ 36, unsigned 64 p.energy,
    p.zeroRun + p.det * 2 ^ 8 + p.decl * 2 ^ 16, 0, 0, 0, 0]) ++
  [reportCell k 0x1F 24 [shown.length, a.suspects.length, a.trunc, 0, 0, 0, 0]]

/-- A report staged; a fifth drops the oldest (R363). -/
def Bal.stage (b : Bal) (r : List Cell512) : Bal :=
  if 4 ≤ b.staged.length then { b with staged := b.staged.drop 1 ++ [r], dropped := b.dropped + 1 }
  else { b with staged := b.staged ++ [r] }

/-- The records that read uncorrectable since the last close and in this one (R365); decl: in their declaration words. -/
def Bal.spoilAll (b : Bal) (lost : List (Nat × Bool)) : Bal :=
  let b := { b with nodes := b.nodes.map (fun e => (e.1, ({ e.2 with reset := false } : BalNode))) }
  (b.spoiled ++ lost).foldl (fun b e => b.spoil e.1 e.2) b

/-- The nodes closed in descending depth, each after its children. -/
def Bal.closeAll (b : Bal) (k : Ivl) (forced : Bool) : List (Nat × Closed) :=
  let lostUp := (b.nodes.filter (fun e => e.2.lost)).flatMap (fun e => b.above 9 e.1)
  let topo := b.topo ++ lostUp
  let early := b.first.any (fun f => k.fin ≤ f)
  let order := (List.range 8).reverse.flatMap (fun d => b.nodes.filter (fun e => b.depth e.1 = d))
  let l := order.foldl (fun done e => done ++ [(e.1, b.closeNode k forced topo early done e.1 e.2)]) []
  let fin := l.reverse.foldl (fun up e => up ++ [(e.1, corroborate (b.acc k.fin).suspects up e.1 e.2)]) []
  b.nodes.filterMap (fun e => fin.find? (fun c => c.1 = e.1))

/-- The committed parameters come into force before the close that uses them (R366). -/
def State.balDeliver (s : State) : State :=
  if s.bitAt (balA rBAL_STAT) 31 then
    let r (o : Nat) := (s.rd (balA o)).toNat
    let par : BalPar := ⟨r rBAL_CTRL, r rBAL_LAMBDA, r rBAL_ALARM, r rBAL_COND_MAX, r rBAL_MIN_IVL, r rBAL_ZERO⟩
    { (s.putBit (balA rBAL_STAT) 31 false) with bal := { s.bal with par } }
  else s

/-- What a close leaves of the interval and of those before it; lays: those told of it (R351). -/
def Bal.prune (b : Bal) (k : Ivl) (lays : List Nat) : Bal :=
  let here (c : Cell512) : Bool := pointIdx c = k.idx % 2 ^ 32
  { b with closed := some k.fin, open_ := b.open_.filter (fun e => k.fin < e.1), topo := [], spoiled := []
           notices := b.notices ++ lays.map (fun n => (n, k.idx))
           points := b.points.map (fun e => (e.1, if e.2.any here then e.2.dropWhile (fun c => !here c) else e.2)) }

/-- The balance of the interval that ends at a second closed (R352 to R363); us: how long the close takes. -/
def State.balClose (s : State) (fin : Nat) (forced : Bool) (lost : List (Nat × Bool)) (us : Nat) : State :=
  let s := s.balDeliver.takePoints.balOrders
  let s := (s.bal.nodes.map (·.1)).foldl (fun s n => s.nodeRead n) s
  let b := s.bal
  let k := s.ivl fin
  let lays := (List.range 8).filter (fun n => (s.toLay 1 n).isSome)
  if !s.bitAt (balA 0x00C) 0 then s.putBal (b.prune k lays)
  else
    let ue := lost ≠ [] || b.spoiled ≠ []
    let b := b.spoilAll lost
    let l := b.closeAll k forced
    let alarm := l.any (fun e => 2 ≤ e.2.node.st && (b.node e.1).any (fun x => x.st ≠ e.2.node.st))
    let b := b.stage (b.report k forced l)
    let b := l.foldl (fun b e => b.setNode e.1 e.2.node) b
    let st : BalStatus := ⟨k.idx, l.length, l.countP (fun e => 2 ≤ e.2.node.st), l.countP (fun e => e.2.node.cause ≠ 0), b.late,
      forced.toNat, b.dropped, b.ignored, alarm, ue, us⟩
    s.putBal ({ b with status := b.status ++ [st], late := 0, ignored := 0, dropped := 0 }.prune k lays)

/-- An order or mark outside the window counted (R352). -/
def State.balIgnore (s : State) : State := { s with bal := { s.bal with ignored := s.bal.ignored + 1 } }

/-- CLOSE_ORDER (R352): the Lanyard sends the order for interval k once its settling delay has passed, and the balance lay pops it;
lost: the nodes whose records read uncorrectable (R365); us: the time the close takes. -/
def execCloseOrder (k : BitVec 32) (lost : List (BitVec 16 × Bool)) (us : BitVec 32) (s : State) : Res :=
  .next (if !s.domOn 1 ∨ s.tsuTime.sec < s.ivlEnd k.toNat + s.fld (balA rBAL_SETTLE) 11 0 then s
    else
      let s := s.balStart
      let s := if s.timer (balA rBAL_STAT) = 0 then s.setTimer (balA rBAL_STAT) (s.now + 10000000000) else s
      if s.isClosed (s.ivlEnd k.toNat) then s.balIgnore
      else s.balClose (s.ivlEnd k.toNat) false (lost.map (fun e => (e.1.toNat, e.2))) us.toNat)

/-- FORCED_CLOSE (R352): the balance lay pops an interval mark from a splice; intervals before the one it ends are closed at once. -/
def execForcedClose (n : BitVec 13) (us : BitVec 32) (s : State) : Res :=
  .next (match s.pop n.toNat with
    | (none, s) => s
    | (some (c, _), s) =>
      let s := s.balStart
      let fin := bits (cellWord c 1) 47 0
      if s.isClosed fin then s.balIgnore
      else
        let prev := s.ivlStart fin
        let old := (s.bal.open_.map (·.1)).filter (fun j => j < prev)
        (old ++ if s.isClosed prev then [] else [prev]).foldl (fun s e => s.balClose e true [] us.toNat) s)

/-- CLOSURE_NOTICE (R351): a lay of the ingest set pops its oldest notice. -/
def execClosureNotice (lay : Fin 8) (s : State) : Res :=
  .next (match s.bal.notices.find? (fun e => e.1 = lay.val) with
    | none => s
    | some e => { s with bal := { s.bal with
        notices := s.bal.notices.erase e, noticed := place e.1 e.2 (drop s.bal.noticed e.1) } })

/-- REPORT_PUSH (R363): up to 8 cells in a turn onto the report splice, while it shows space. -/
def execReportPush (n : BitVec 13) (s : State) : Res :=
  let b := s.bal
  let (out, staged) := match b.out, b.staged with
    | [], r :: rest => (r, rest)
    | o, l => (o, l)
  let k := min 8 (min out.length (s.space n.toNat))
  .next ({ s with bal := { b with staged, out := out.drop k } }.offerAll n.toNat (out.take k))

/-- BALANCE_STATUS (R363, R366): the Lanyard takes a status cell and updates the page. -/
def execBalanceStatus (s : State) : Res :=
  .next (match s.bal.status with
    | [] => s
    | x :: rest =>
      let s := { s with bal := { s.bal with status := rest } }
      if !s.domOn 1 then s
      else
        let put (s : State) (o v : Nat) := s.wr (balA o) (BitVec.ofNat 32 v)
        let s := put (put (put (put (put s rBAL_LAST_CLOSED x.closed) rBAL_NODES x.nodes) rBAL_ALARMS x.alarms)
          rBAL_UNIDENT x.unident) rBAL_CLOSE_US x.us
        let s := (((s.bump (balA rBAL_LATE_CNT) x.late).bump (balA rBAL_FORCED_CNT) x.forced).bump
          (balA rBAL_RPT_DROP) x.drop).bump (balA rBAL_IGNORED_CNT) x.ignored
        let s := (s.putBit (balA rBAL_STAT) 0 true).setTimer (balA rBAL_STAT) 0
        let s := if 0 < x.drop then (s.cause .bal 0 0).irq .bal 0 2 else s
        let s := if 0 < x.forced then s.cause .bal 0 1 else s
        let s := if x.nodeUe then s.cause .bal 0 3 else s
        let s := if x.alarm then s.irq .bal 0 1 else s
        s.irq .bal 0 0)

/-- BAL_NO_STATUS (R366): 10 s after a close order without a status cell. -/
def execBalNoStatus (t : Nat) (s : State) : Res :=
  let s := s.at t
  .next (if s.timer (balA rBAL_STAT) = 0 ∨ s.now < s.timer (balA rBAL_STAT) then s else (s.setTimer (balA rBAL_STAT) 0).cause .bal 0 2)

/-- A write of a register that BAL_STAT.PEND guards (R366). -/
def State.balReg (s : State) (q : Requester) (o : Nat) (v : Word32) : State :=
  s.guarded q (balA o) v (s.bitAt (balA rBAL_STAT) 31) fun s =>
    let s := s.plain (balA o) (v.setWidth 64)
    if o = rBAL_CTRL ∧ bit v 31 then s.putBit (balA rBAL_STAT) 31 true else s

/-- BAL_COMMIT (R366). -/
def execBalCommit (q : Requester) (reportAll hold : Bool) (s : State) : Res :=
  .next (s.balReg q rBAL_CTRL (BitVec.ofNat 32 (2 ^ 31 + hold.toNat * 4 + reportAll.toNat * 2)))

end Sys2Proof.Machine
end

