-- ==== Sys2Proof/Machine/Filters.lean ====
section
/-! DEFINITION. The filters of MEAS (R299, R300, R303, R310) and the zero crossings and angles of R332, with the bounds the rules set on what
they leave open (log entry 8). -/

namespace Sys2Proof.Machine

/-! ### Angles -/

/-- Twice pi in 2^-60. -/
def twoPi : Int := 7244019458077122842

/-- Terms of the series of a sine or cosine from inside out: x2 is the square of the angle, both in 2^-60; n the first factor of a term's divisor. -/
def trigSeries (x2 : Int) : Nat → Nat → Int
  | 0, _ => 2 ^ 60
  | k + 1, n => 2 ^ 60 - x2 * trigSeries x2 k (n + 2) / 2 ^ 60 / ((n * (n + 1) : Nat) : Int)

/-- Cosine and sine of num / den of a turn, in 2^-60. -/
def turnCosSin (num den : Nat) : Int × Int :=
  let q := 4 * num / den % 4
  let x : Int := twoPi * ((4 * num % den : Nat) : Int) / (4 * den : Nat)
  let c := trigSeries (x * x / 2 ^ 60) 16 1
  let s := x * trigSeries (x * x / 2 ^ 60) 16 2 / 2 ^ 60
  if q = 0 then (c, s) else if q = 1 then (-s, c) else if q = 2 then (-c, -s) else (s, -c)

/-! ### The sinc and the compensating filter (R299, R300) -/

/-- The amplitude of the sinc filter at a frequency in Hz with a decimation of r, in 2^-60. -/
def sincAmp (r f : Nat) : Int :=
  let a := (turnCosSin f 320000).2 * 2 ^ 60 / (r * (turnCosSin f (320000 * r)).2)
  a * a / 2 ^ 60 * a / 2 ^ 60 * a / 2 ^ 60 * a / 2 ^ 60

/-- The amplitude of 240 symmetric taps at a frequency in Hz, in 2^-60. -/
def firAmp (tap : Nat → Int) (shift f : Nat) : Int :=
  ((List.range 120).map (fun i => 2 * tap i * (turnCosSin ((239 - 2 * i) * f) 320000).1)).sum / 2 ^ shift

/-- Are an amplitude and 1 within ppm of each other. -/
def ampWithin (a : Int) (ppm : Nat) : Bool := (a - 2 ^ 60).natAbs * 1000000 ≤ ppm * 2 ^ 60

/-- Do taps keep the bounds of R300, looked at every Hz from 45 to 66 Hz, every 20 Hz up to 3,000 Hz, and every 20 Hz from 16,000 Hz to half the rate
of the filter; 110 dB is a factor of 316,228. -/
def firOk (tap : Nat → Int) (shift r : Nat) : Bool :=
  let amp (f : Nat) : Int := firAmp tap shift f * sincAmp r f / 2 ^ 60
  (List.range 22).all (fun i => ampWithin (amp (45 + i)) 2) &&
  (List.range 150).all (fun i => ampWithin (amp (20 + 20 * i)) 100) &&
  (List.range 3201).all (fun i => decide ((firAmp tap shift (16000 + 20 * i)).natAbs * 316228 ≤ 2 ^ 60))

/-- Taps that keep the bounds: a windowed low-pass of the reciprocal of the sinc, with 26 fractional bits. -/
def firTable : List Int :=
  [2, 1, -1, -8, -17, -30, -42, -51, -51, -36, -1, 54, 128, 211, 287, 337, 336, 262, 102, -146] ++
  [-464, -812, -1132, -1349, -1386, -1174, -673, 114, 1129, 2251, 3305, 4079, 4353, 3941, 2730, 724, -1928, -4928, -7839, -10139] ++
  [-11285, -10815, -8437, -4124, 1824, 8767, 15759, 21650, 25242, 25481, 21663, 13621, 1854, -12433, -27399, -40759, -50082, -53162, -48420, -35271] ++
  [-14378, 12244, 41336, 68721, 89830, 100373, 97061, 78289, 44637, -899, -53025, -104649, -147744, -174464, -178399, -155769, -106368, -34078, 53183, 144148] ++
  [225491, 283602, 306628, 286505, 220665, 113118, -25321, -177815, -323281, -439016, -503885, -501655, -424005, -272736, -60755, 188423, 442770, 665308, 818791, 870978] ++
  [799836, 597945, 275443, -139028, -599686, -1047314, -1415026, -1635535, -1649135, -1411436, -899912, -118375, 901285, 2100444, 3398167, 4698331, 5898721, 6901124, 7621287, 7997621]

/-- Half of the taps of the compensating filter and their fractional bits (R300): the device's where they keep the bounds, else others that do. -/
def firTaps (r : Nat) : (Nat → Int) × Nat :=
  let own (i : Nat) : Int := signed 24 (Config.firTap i).toNat
  if firOk own Config.firShift r then (own, Config.firShift) else (fun i => firTable.getD i 0, 26)

/-! ### The Hilbert filter (R310) -/

/-- The amplitude of 512 antisymmetric taps at an eighth of a frequency in Hz, in 2^-60. -/
def hilbertAmp (tap : Nat → Int) (shift f : Nat) : Int :=
  ((List.range 512).map (fun i => 2 * tap (i + 1) * (turnCosSin ((i + 1) * f) 256000).2)).sum / 2 ^ shift

/-- Do taps turn cosine into sine within 2 ppm (R310), looked at every eighth of a Hz from 45 to 66 Hz. -/
def hilbertOk (tap : Nat → Int) (shift : Nat) : Bool := (List.range 169).all (fun i => ampWithin (hilbertAmp tap shift (360 + i)) 2)

/-- Odd taps that keep the bound, with 24 fractional bits. -/
def hilbertTable : List Int :=
  [-22428425, -95630327, -162725897, -228326261, -292705170, -355745620, -417244415, -476973908, -534700879, -590194098, -643228118, -693585545, -741058638, -785450549, -826576359, -864263983] ++
  [-898354968, -928705215, -955185616, -977682636, -996098810, -1010353189, -1020381705, -1026137479, -1027591050, -1024730546, -1017561775, -1006108256, -990411169, -970529247, -946538589, -918532405] ++
  [-886620701, -850929881, -811602299, -768795735, -722682812, -673450350, -621298663, -566440797, -509101716, -449517435, -387934103, -324607046, -259799764, -193782892, -126833123, -59232106] ++
  [8734684, 76779104, 144611509, 211941939, 278481313, 343942627, 408042152, 470500626, 531044439, 589406802, 645328898, 698561010, 748863616, 796008459, 839779575, 879974281] ++
  [916404114, 948895724, 977291713, 1001451410, 1021251592, 1036587137, 1047371606, 1053537756, 1055037980, 1051844667, 1043950485, 1031368579, 1014132694, 992297203, 965937058, 935147648] ++
  [900044575, 860763337, 817458932, 770305365, 719495077, 665238285, 607762243, 547310412, 484141565, 418528803, 350758501, 281129186, 209950347, 137541178, 64229264, -9650781] ++
  [-83758738, -157750239, -231278271, -303994712, -375551886, -445604155, -513809510, -579831184, -643339256, -704012258, -761538767, -815618978, -865966251, -912308627, -954390296, -991973032] ++
  [-1024837555, -1052784848, -1075637390, -1093240326, -1105462548, -1112197682, -1113364992, -1108910171, -1098806028, -1083053064, -1061679926, -1034743742, -1002330322, -964554233, -921558735, -873515581] ++
  [-820624675, -763113583, -701236906, -635275504, -565535569, -492347564, -416065006, -337063111, -255737300, -172501561, -87786687, -2038374, 84284799, 170713509, 256769940, 341970139] ++
  [425826468, 507850138, 587553828, 664454364, 738075460, 807950496, 873625329, 934661130, 990637214, 1041153868, 1085835149, 1124331648, 1156323192, 1181521475, 1199672607, 1210559541] ++
  [1214004398, 1209870633, 1198065050, 1178539648, 1151293258, 1116372987, 1073875419, 1023947581, 966787643, 902645342, 831822112, 754670907, 671595702, 583050657, 489538940, 391611185] ++
  [289863586, 184935619, 77507375, -31703491, -141945195, -252435660, -362366735, -470908802, -577215765, -680430406, -779690111, -874132932, -962903985, -1045162156, -1120087091, -1186886444] ++
  [-1244803350, -1293124088, -1331185902, -1358384921, -1374184147, -1378121443, -1369817480, -1348983563, -1315429286, -1269069926, -1209933512, -1138167480, -1054044825, -957969649, -850482017, -732262001] ++
  [-604132801, -467062833, -322166637, -170704494, -14080596, 146160371, 308338386, 470645160, 631153268, 787827538, 938538860, 1081080624, 1213187971, 1332560072, 1436885634, 1523871869] ++
  [1591277141, 1636947533, 1658857562, 1655155321, 1624212261, 1564677924, 1475539856, 1356189007, 1206490888, 1026862777, 818357284, 582752555, 322649454, 41576019, -255900481, -564053552] ++
  [-875869228, -1182909212, -1475165084, -1740903211, -1966500021, -2136267283, -2232267026, -2234115757, -2118777593, -1860345959, -1429813472, -794829662, 80553860, 1236151140, 2715922889, 4568271143]

/-- Tap k of the Hilbert filter and the fractional bits of the taps (R310): those of the device where they keep the bound, else others that do. -/
def hilbertTaps : (Nat → Int) × Nat :=
  if hilbertOk Config.hilbertTap Config.hilbertShift then (Config.hilbertTap, Config.hilbertShift)
  else (fun k => if k % 2 = 1 then hilbertTable.getD (k / 2) 0 else 0, 24)

/-! ### The interpolator (R303) -/

/-- The fractional bits of the interpolator's 24-bit coefficients. -/
def lagrangeBits : Nat := if Config.lagrangeShift = 22 then 22 else 23

/-- Coefficient j of the interpolator for a place u in 2^-16 sample after the first of its four samples, to the nearest. -/
def lagrangeNear (u : Int) (j : Nat) : Int :=
  let others := (List.range 4).filter (· ≠ j)
  let num := others.foldl (fun a m => a * (u - 65536 * m)) 1
  let den := others.foldl (fun a m => a * ((j : Int) - m)) 1
  rdiv (num * den.sign * 2 ^ lagrangeBits) (den.natAbs * 65536 ^ 3)

/-- The coefficients held to 24 bits (R303): they sum to 1, the coefficient of the nearest sample taking what rounding leaves, so that the amplitude
at the line frequency keeps the rule's 0.1 ppm. -/
def lagrangeCoef (u : Int) (j : Nat) : Int :=
  let near := ((u + 32768) / 65536).toNat
  if j = near then 2 ^ lagrangeBits - (((List.range 4).filter (· ≠ j)).map (fun m => lagrangeNear u m)).sum else lagrangeNear u j

/-! ### Zero crossings and the single-bin transform (R332) -/

/-- Where a line, newest first, last went up through zero, in 2^-16 sample before the newest sample: between two samples by the straight line
through them; left: samples to look at. -/
def risesAt : Nat → List Int → Option (Nat × List Int)
  | n, b :: a :: l =>
    if a < 0 ∧ 0 ≤ b then some (n * 65536 + (b * 65536 / (b - a)).toNat, a :: l) else risesAt (n + 1) (a :: l)
  | _, _ => none

/-- The period between the last two positive-going zero crossings of a line, in 2^-16 sample. -/
def crossPeriod (y : List Int) : Nat :=
  match risesAt 0 y with
  | none => 0
  | some (x, l) => match risesAt (y.length - l.length) l with
    | none => 0
    | some (x2, _) => x2 - x

/-- The line period of a line (R332): its zero crossings are those of the fundamental, whose extraction moves the period by less than one sample, a
free value (log entry 8); of a line without two crossings the period is 0. -/
def periodOf (y : List Int) : Nat :=
  if crossPeriod y = 0 then 0 else ((crossPeriod y : Int) + clampI (-65535) 65535 (Config.linePeriod y)).toNat

/-- Cosine and sine of sample k's angle in a line period in 2^-16 sample, in 2^-30 (R332): the exact ones but for a last place, a free value. -/
def twiddle (period k : Nat) : Int × Int :=
  let e := turnCosSin (65536 * k) (max 1 period)
  let f := Config.twiddle period k
  (e.1 / 2 ^ 30 + clampI (-1) 1 f.1, e.2 / 2 ^ 30 + clampI (-1) 1 f.2)

end Sys2Proof.Machine
end

