-- ==== Sys2Proof/Machine/Bundle.lean ====
section
/-! DEFINITION. The bundle encoding (R82 to R84): what a slot word decodes to, the word a slot operation is encoded in, and the
four commands of a bundle. -/

namespace Sys2Proof.Machine

/-- The issue a slot word names: its guard fields, for a strand of a lay (R83). -/
def slotIssue (lay : Fin 8) (strand : Fin 16) (w : BitVec 32) : Issue :=
  ⟨lay, strand, w.getLsbD 31, (w.extractLsb' 28 3).toFin⟩

/-- A word that is no listed operation, or sets a bit its format marks zero: a NOP that raises RSVD_OP (R83). -/
def reserved (u : Slot) (x : Issue) (w : BitVec 32) : Instr := .nop x u (w.extractLsb' 0 28)

/-- The operations of both ALUs (R87); b: ALU-B. -/
def decodeAlu (b : Bool) (x : Issue) (w : BitVec 32) : Option Instr :=
  let op := (w.extractLsb' 22 6).toNat
  let d := w.extractLsb' 16 6
  let a := w.extractLsb' 10 6
  let c := w.extractLsb' 4 6
  let z := w.extractLsb' 0 4
  let imm := w.extractLsb' 0 10
  let k := w.extractLsb' 0 16
  let pd := w.extractLsb' 16 3
  let sh := w.extractLsb' 0 6
  let noSh := w.extractLsb' 6 4 = 0
  let noPd := w.extractLsb' 19 3 = 0
  let plog := noPd ∧ w.extractLsb' 13 3 = 0 ∧ w.extractLsb' 7 3 = 0 ∧ z = 0
  match op with
  | 0x01 => if z = 0 then some (.add x b d a c) else none
  | 0x02 => if z = 0 then some (.sub x b d a c) else none
  | 0x03 => if z = 0 then some (.and x b d a c) else none
  | 0x04 => if z = 0 then some (.or x b d a c) else none
  | 0x05 => if z = 0 then some (.xor x b d a c) else none
  | 0x06 => if z = 0 then some (.andn x b d a c) else none
  | 0x07 => if z = 0 then some (.shl x b d a c) else none
  | 0x08 => if z = 0 then some (.shr x b d a c) else none
  | 0x09 => if z = 0 then some (.sar x b d a c) else none
  | 0x0A => if z = 0 then some (.ror x b d a c) else none
  | 0x0B => if w.getLsbD 3 then none else some (.sel x b d a c (w.extractLsb' 0 3))
  | 0x0C => if z = 0 then some (.minu x b d a c) else none
  | 0x0D => if z = 0 then some (.maxu x b d a c) else none
  | 0x0E => if z = 0 then some (.mins x b d a c) else none
  | 0x0F => if z = 0 then some (.maxs x b d a c) else none
  | 0x10 => some (.addi x b d a imm)
  | 0x11 => some (.andi x b d a imm)
  | 0x12 => some (.ori x b d a imm)
  | 0x13 => some (.xori x b d a imm)
  | 0x14 => if noSh then some (.shli x b d a sh) else none
  | 0x15 => if noSh then some (.shri x b d a sh) else none
  | 0x16 => if noSh then some (.sari x b d a sh) else none
  | 0x17 => if noSh then some (.rori x b d a sh) else none
  | 0x18 => some (.movz x b d k)
  | 0x19 => some (.movk0 x b d k)
  | 0x1A => some (.movk1 x b d k)
  | 0x1B => some (.movk2 x b d k)
  | 0x1C => some (.movk3 x b d k)
  | 0x1D => if c = 0 then (match z.toNat with
      | 0 => some (.bswap x b d a 0) | 1 => some (.bswap x b d a 1) | 2 => some (.bswap x b d a 2) | _ => none)
      else none
  | 0x1E => if c = 0 ∧ z = 0 then some (.clz x b d a) else none
  | 0x1F => if c = 0 ∧ z = 0 then some (.popc x b d a) else none
  | 0x20 => if noPd ∧ z = 0 then some (.cmpeq x b pd a c) else none
  | 0x21 => if noPd ∧ z = 0 then some (.cmpne x b pd a c) else none
  | 0x22 => if noPd ∧ z = 0 then some (.cmpltu x b pd a c) else none
  | 0x23 => if noPd ∧ z = 0 then some (.cmplts x b pd a c) else none
  | 0x24 => if noPd ∧ z = 0 then some (.cmpleu x b pd a c) else none
  | 0x25 => if noPd ∧ z = 0 then some (.cmples x b pd a c) else none
  | 0x28 => if noPd then some (.cmpeqi x b pd a imm) else none
  | 0x29 => if noPd then some (.cmpnei x b pd a imm) else none
  | 0x2A => if noPd then some (.cmpltui x b pd a imm) else none
  | 0x2B => if noPd then some (.cmpltsi x b pd a imm) else none
  | 0x2C => if noPd ∧ noSh then some (.tbit x b pd a sh) else none
  | 0x2D => if plog then some (.pand x b pd (w.extractLsb' 10 3) (w.extractLsb' 4 3)) else none
  | 0x2E => if plog then some (.por x b pd (w.extractLsb' 10 3) (w.extractLsb' 4 3)) else none
  | 0x2F => if plog then some (.pxor x b pd (w.extractLsb' 10 3) (w.extractLsb' 4 3)) else none
  | _ => none

/-- The operations of ALU-A alone (R88). -/
def decodeA (x : Issue) (w : BitVec 32) : Option Instr :=
  let d := w.extractLsb' 16 6
  let a := w.extractLsb' 10 6
  let c := w.extractLsb' 4 6
  let z := w.extractLsb' 0 4
  match (w.extractLsb' 22 6).toNat with
  | 0x30 => if z = 0 then some (.mul x d a c) else none
  | 0x31 => if z = 0 then some (.mulhu x d a c) else none
  | 0x32 => if z = 0 then some (.mulhs x d a c) else none
  | 0x38 => if a = 0 ∧ c = 0 ∧ z = 0 then some (.sid x d) else none
  | _ => none

/-- The operations of ALU-B alone (R89). -/
def decodeB (x : Issue) (w : BitVec 32) : Option Instr :=
  let d := w.extractLsb' 16 6
  let a := w.extractLsb' 10 6
  let c := w.extractLsb' 4 6
  let z := w.extractLsb' 0 4
  match (w.extractLsb' 22 6).toNat with
  | 0x30 => if z = 0 then some (.divu x d a c) else none
  | 0x31 => if z = 0 then some (.divs x d a c) else none
  | 0x32 => if z = 0 then some (.remu x d a c) else none
  | 0x33 => if z = 0 then some (.rems x d a c) else none
  | 0x38 => if w.extractLsb' 13 9 = 0 then some (.br x (w.extractLsb' 0 13)) else none
  | 0x39 => if w.extractLsb' 13 3 = 0 then some (.brl x d (w.extractLsb' 0 13)) else none
  | 0x3A => if d = 0 ∧ c = 0 ∧ z = 0 then some (.brr x a) else none
  | 0x3C => if d = 0 then some (.chk x (w.extractLsb' 0 16)) else none
  | 0x3D => if w.extractLsb' 0 22 = 0 then some (.tend x) else none
  | _ => none

/-- The MEM operations (R93). -/
def decodeMem (x : Issue) (w : BitVec 32) : Option Instr :=
  let d := w.extractLsb' 16 6
  let a := w.extractLsb' 10 6
  let imm := w.extractLsb' 0 10
  match (w.extractLsb' 22 6).toNat with
  | 0x01 => some (.ld8u x d a imm)
  | 0x02 => some (.ld16u x d a imm)
  | 0x03 => some (.ld32u x d a imm)
  | 0x04 => some (.ld32s x d a imm)
  | 0x05 => some (.ld64 x d a imm)
  | 0x06 => some (.ld128 x d a imm)
  | 0x09 => some (.st8 x d a imm)
  | 0x0A => some (.st16 x d a imm)
  | 0x0B => some (.st32 x d a imm)
  | 0x0D => some (.st64 x d a imm)
  | 0x0E => some (.st128 x d a imm)
  | _ => none

/-- The XU operations (R94). -/
def decodeXu (x : Issue) (w : BitVec 32) : Option Instr :=
  let d := w.extractLsb' 16 6
  let a := w.extractLsb' 10 6
  let c := w.extractLsb' 4 6
  let z := w.extractLsb' 0 4
  let pd := w.extractLsb' 16 3
  let oct := w.extractLsb' 19 3
  let n := w.extractLsb' 0 13
  let k := w.extractLsb' 0 2
  let noK := w.extractLsb' 2 2 = 0
  let spl := w.extractLsb' 13 3 = 0
  let splr := pd = 0 ∧ c = 0 ∧ z = 0
  match (w.extractLsb' 22 6).toNat with
  | 0x01 => if spl ∧ pd = 0 then some (.pope x oct n) else none
  | 0x02 => if spl ∧ pd = 0 then some (.popo x oct n) else none
  | 0x03 => if splr then some (.poper x oct a) else none
  | 0x04 => if splr then some (.popor x oct a) else none
  | 0x05 => if spl ∧ pd = 0 then some (.push x oct n) else none
  | 0x06 => if splr then some (.pushr x oct a) else none
  | 0x07 => if spl ∧ oct = 0 then some (.semp x pd n) else none
  | 0x08 => if spl ∧ oct = 0 then some (.sfull x pd n) else none
  | 0x10 => if noK ∧ d = 0 ∧ c = 0 then some (.klds x k a) else none
  | 0x11 => if noK ∧ d = 0 then some (.kldd x k a c) else none
  | 0x12 => if noK ∧ pd = 0 ∧ a = 0 ∧ c = 0 then some (.kldw x k oct) else none
  | 0x13 => if noK ∧ a = 0 ∧ c = 0 then some (.kst x k d) else none
  | 0x14 => if noK ∧ d = 0 ∧ a = 0 ∧ c = 0 then some (.kclr x k) else none
  | 0x18 => if noK ∧ c = 0 then some (.aesb x k d a) else none
  | 0x1B => if z = 0 then some (.gmul x d a c) else none
  | 0x20 => if w.getLsbD 3 then none else some (.crc16 x d a c (w.extractLsb' 0 3))
  | 0x21 => if w.getLsbD 3 then none else some (.crc32 x d a c (w.extractLsb' 0 3))
  | 0x28 => if d = 0 ∧ z = 0 then some (.macu x a c) else none
  | 0x29 => if d = 0 ∧ z = 0 then some (.macs x a c) else none
  | 0x2A => if w.extractLsb' 0 22 = 0 then some (.macz x) else none
  | 0x2B => if a = 0 ∧ c = 0 ∧ z = 0 then some (.macrl x d) else none
  | 0x2C => if a = 0 ∧ c = 0 ∧ z = 0 then some (.macrh x d) else none
  | _ => none

/-- What a slot word executes as (R83): total; what is not listed, or breaks its format, is the reserved NOP. -/
def decodeSlot (u : Slot) (lay : Fin 8) (strand : Fin 16) (w : BitVec 32) : Instr :=
  let x := slotIssue lay strand w
  (match u with
    | .a => (decodeAlu false x w).orElse (fun _ => decodeA x w)
    | .b => (decodeAlu true x w).orElse (fun _ => decodeB x w)
    | .mem => decodeMem x w
    | .xu => decodeXu x w).getD (reserved u x w)

/-- A slot word from its guard, opcode and 22 operand bits (R83). -/
def slotWord (x : Issue) (op : Nat) (f : BitVec 22) : BitVec 32 :=
  (BitVec.ofBool x.neg ++ (BitVec.ofFin x.gp : BitVec 3)) ++ (BitVec.ofNat 6 op) ++ f

/-- The REG format's fields (R84). -/
def regF (d a b : BitVec 6) (z : BitVec 4) : BitVec 22 := d ++ a ++ b ++ z
/-- The IMM format's fields. -/
def immF (d a : BitVec 6) (imm : BitVec 10) : BitVec 22 := d ++ a ++ imm
/-- The K16 format's fields. -/
def k16F (d : BitVec 6) (imm : BitVec 16) : BitVec 22 := d ++ imm
/-- The predicate-logic fields. -/
def plogF (pd p1 p2 : BitVec 3) : BitVec 22 := (0 : BitVec 3) ++ pd ++ (0 : BitVec 3) ++ p1 ++ (0 : BitVec 3) ++ p2 ++ (0 : BitVec 4)
/-- The SPL format's fields. -/
def splF (oct pd : BitVec 3) (n : BitVec 13) : BitVec 22 := oct ++ pd ++ (0 : BitVec 3) ++ n
/-- The KEY format's fields. -/
def keyF (d a b : BitVec 6) (k : BitVec 2) : BitVec 22 := d ++ a ++ b ++ (0 : BitVec 2) ++ k
/-- A predicate number in the D field. -/
def pdF (pd : BitVec 3) : BitVec 6 := (0 : BitVec 3) ++ pd
/-- An octet number in the D field. -/
def octF (oct : BitVec 3) : BitVec 6 := oct ++ (0 : BitVec 3)
/-- A shift count in the IMM10 field. -/
def shF (n : BitVec 6) : BitVec 10 := (0 : BitVec 4) ++ n
/-- An octet's X field and CRC's count. -/
def cntF (n : BitVec 3) : BitVec 4 := (0 : BitVec 1) ++ n
/-- The slot of an ALU operation. -/
def aluSlot (u : Bool) : Slot := if u then .b else .a

/-- The slot and the word of a slot operation (R82 to R94); none for a command that is no slot operation. -/
def encodeSlot : Instr → Option (Slot × BitVec 32)
  | .nop x u w => some (u, BitVec.ofBool x.neg ++ (BitVec.ofFin x.gp : BitVec 3) ++ w)
  | .add x u d a b => some (aluSlot u, slotWord x 0x01 (regF d a b 0))
  | .sub x u d a b => some (aluSlot u, slotWord x 0x02 (regF d a b 0))
  | .and x u d a b => some (aluSlot u, slotWord x 0x03 (regF d a b 0))
  | .or x u d a b => some (aluSlot u, slotWord x 0x04 (regF d a b 0))
  | .xor x u d a b => some (aluSlot u, slotWord x 0x05 (regF d a b 0))
  | .andn x u d a b => some (aluSlot u, slotWord x 0x06 (regF d a b 0))
  | .shl x u d a b => some (aluSlot u, slotWord x 0x07 (regF d a b 0))
  | .shr x u d a b => some (aluSlot u, slotWord x 0x08 (regF d a b 0))
  | .sar x u d a b => some (aluSlot u, slotWord x 0x09 (regF d a b 0))
  | .ror x u d a b => some (aluSlot u, slotWord x 0x0A (regF d a b 0))
  | .sel x u d a b p => some (aluSlot u, slotWord x 0x0B (regF d a b (cntF p)))
  | .minu x u d a b => some (aluSlot u, slotWord x 0x0C (regF d a b 0))
  | .maxu x u d a b => some (aluSlot u, slotWord x 0x0D (regF d a b 0))
  | .mins x u d a b => some (aluSlot u, slotWord x 0x0E (regF d a b 0))
  | .maxs x u d a b => some (aluSlot u, slotWord x 0x0F (regF d a b 0))
  | .addi x u d a imm => some (aluSlot u, slotWord x 0x10 (immF d a imm))
  | .andi x u d a imm => some (aluSlot u, slotWord x 0x11 (immF d a imm))
  | .ori x u d a imm => some (aluSlot u, slotWord x 0x12 (immF d a imm))
  | .xori x u d a imm => some (aluSlot u, slotWord x 0x13 (immF d a imm))
  | .shli x u d a n => some (aluSlot u, slotWord x 0x14 (immF d a (shF n)))
  | .shri x u d a n => some (aluSlot u, slotWord x 0x15 (immF d a (shF n)))
  | .sari x u d a n => some (aluSlot u, slotWord x 0x16 (immF d a (shF n)))
  | .rori x u d a n => some (aluSlot u, slotWord x 0x17 (immF d a (shF n)))
  | .movz x u d imm => some (aluSlot u, slotWord x 0x18 (k16F d imm))
  | .movk0 x u d imm => some (aluSlot u, slotWord x 0x19 (k16F d imm))
  | .movk1 x u d imm => some (aluSlot u, slotWord x 0x1A (k16F d imm))
  | .movk2 x u d imm => some (aluSlot u, slotWord x 0x1B (k16F d imm))
  | .movk3 x u d imm => some (aluSlot u, slotWord x 0x1C (k16F d imm))
  | .bswap x u d a m => some (aluSlot u, slotWord x 0x1D (regF d a 0 (BitVec.ofNat 4 m.val)))
  | .clz x u d a => some (aluSlot u, slotWord x 0x1E (regF d a 0 0))
  | .popc x u d a => some (aluSlot u, slotWord x 0x1F (regF d a 0 0))
  | .cmpeq x u pd a b => some (aluSlot u, slotWord x 0x20 (regF (pdF pd) a b 0))
  | .cmpne x u pd a b => some (aluSlot u, slotWord x 0x21 (regF (pdF pd) a b 0))
  | .cmpltu x u pd a b => some (aluSlot u, slotWord x 0x22 (regF (pdF pd) a b 0))
  | .cmplts x u pd a b => some (aluSlot u, slotWord x 0x23 (regF (pdF pd) a b 0))
  | .cmpleu x u pd a b => some (aluSlot u, slotWord x 0x24 (regF (pdF pd) a b 0))
  | .cmples x u pd a b => some (aluSlot u, slotWord x 0x25 (regF (pdF pd) a b 0))
  | .cmpeqi x u pd a imm => some (aluSlot u, slotWord x 0x28 (immF (pdF pd) a imm))
  | .cmpnei x u pd a imm => some (aluSlot u, slotWord x 0x29 (immF (pdF pd) a imm))
  | .cmpltui x u pd a imm => some (aluSlot u, slotWord x 0x2A (immF (pdF pd) a imm))
  | .cmpltsi x u pd a imm => some (aluSlot u, slotWord x 0x2B (immF (pdF pd) a imm))
  | .tbit x u pd a n => some (aluSlot u, slotWord x 0x2C (immF (pdF pd) a (shF n)))
  | .pand x u pd p1 p2 => some (aluSlot u, slotWord x 0x2D (plogF pd p1 p2))
  | .por x u pd p1 p2 => some (aluSlot u, slotWord x 0x2E (plogF pd p1 p2))
  | .pxor x u pd p1 p2 => some (aluSlot u, slotWord x 0x2F (plogF pd p1 p2))
  | .mul x d a b => some (.a, slotWord x 0x30 (regF d a b 0))
  | .mulhu x d a b => some (.a, slotWord x 0x31 (regF d a b 0))
  | .mulhs x d a b => some (.a, slotWord x 0x32 (regF d a b 0))
  | .sid x d => some (.a, slotWord x 0x38 (regF d 0 0 0))
  | .divu x d a b => some (.b, slotWord x 0x30 (regF d a b 0))
  | .divs x d a b => some (.b, slotWord x 0x31 (regF d a b 0))
  | .remu x d a b => some (.b, slotWord x 0x32 (regF d a b 0))
  | .rems x d a b => some (.b, slotWord x 0x33 (regF d a b 0))
  | .br x t => some (.b, slotWord x 0x38 ((0 : BitVec 9) ++ t))
  | .brl x d t => some (.b, slotWord x 0x39 (d ++ (0 : BitVec 3) ++ t))
  | .brr x a => some (.b, slotWord x 0x3A (regF 0 a 0 0))
  | .chk x imm => some (.b, slotWord x 0x3C (k16F 0 imm))
  | .tend x => some (.b, slotWord x 0x3D 0)
  | .ld8u x d a imm => some (.mem, slotWord x 0x01 (immF d a imm))
  | .ld16u x d a imm => some (.mem, slotWord x 0x02 (immF d a imm))
  | .ld32u x d a imm => some (.mem, slotWord x 0x03 (immF d a imm))
  | .ld32s x d a imm => some (.mem, slotWord x 0x04 (immF d a imm))
  | .ld64 x d a imm => some (.mem, slotWord x 0x05 (immF d a imm))
  | .ld128 x d a imm => some (.mem, slotWord x 0x06 (immF d a imm))
  | .st8 x d a imm => some (.mem, slotWord x 0x09 (immF d a imm))
  | .st16 x d a imm => some (.mem, slotWord x 0x0A (immF d a imm))
  | .st32 x d a imm => some (.mem, slotWord x 0x0B (immF d a imm))
  | .st64 x d a imm => some (.mem, slotWord x 0x0D (immF d a imm))
  | .st128 x d a imm => some (.mem, slotWord x 0x0E (immF d a imm))
  | .pope x oct n => some (.xu, slotWord x 0x01 (splF oct 0 n))
  | .popo x oct n => some (.xu, slotWord x 0x02 (splF oct 0 n))
  | .poper x oct a => some (.xu, slotWord x 0x03 (regF (octF oct) a 0 0))
  | .popor x oct a => some (.xu, slotWord x 0x04 (regF (octF oct) a 0 0))
  | .push x oct n => some (.xu, slotWord x 0x05 (splF oct 0 n))
  | .pushr x oct a => some (.xu, slotWord x 0x06 (regF (octF oct) a 0 0))
  | .semp x pd n => some (.xu, slotWord x 0x07 (splF 0 pd n))
  | .sfull x pd n => some (.xu, slotWord x 0x08 (splF 0 pd n))
  | .klds x k a => some (.xu, slotWord x 0x10 (keyF 0 a 0 k))
  | .kldd x k a b => some (.xu, slotWord x 0x11 (keyF 0 a b k))
  | .kldw x k oct => some (.xu, slotWord x 0x12 (keyF (octF oct) 0 0 k))
  | .kst x k d => some (.xu, slotWord x 0x13 (keyF d 0 0 k))
  | .kclr x k => some (.xu, slotWord x 0x14 (keyF 0 0 0 k))
  | .aesb x k d a => some (.xu, slotWord x 0x18 (keyF d a 0 k))
  | .gmul x d a b => some (.xu, slotWord x 0x1B (regF d a b 0))
  | .crc16 x d a b n => some (.xu, slotWord x 0x20 (regF d a b (cntF n)))
  | .crc32 x d a b n => some (.xu, slotWord x 0x21 (regF d a b (cntF n)))
  | .macu x a b => some (.xu, slotWord x 0x28 (regF 0 a b 0))
  | .macs x a b => some (.xu, slotWord x 0x29 (regF 0 a b 0))
  | .macz x => some (.xu, slotWord x 0x2A 0)
  | .macrl x d => some (.xu, slotWord x 0x2B (regF d 0 0 0))
  | .macrh x d => some (.xu, slotWord x 0x2C (regF d 0 0 0))
  | _ => none

/-- The four commands of a bundle, ALU-A first (R82). -/
def bundleInstrs (lay : Fin 8) (strand : Fin 16) (b : BitVec 128) : List Instr :=
  [decodeSlot .a lay strand (b.extractLsb' 0 32), decodeSlot .b lay strand (b.extractLsb' 32 32),
   decodeSlot .mem lay strand (b.extractLsb' 64 32), decodeSlot .xu lay strand (b.extractLsb' 96 32)]

end Sys2Proof.Machine
end

