-- ==== Sys2Proof/Machine/Rigging.lean ====
section
/-! DEFINITION. Rigging images (R149 to R167, R185 to R192, R708): reading the image, the load checks 0x01 to 0x15, the load
into the lays and the splices, and the replacement of a running rigging. -/

namespace Sys2Proof.Machine

/-! ### Reading the image -/

/-- n little-endian bytes of an image at an offset. -/
def u (b : List Byte) (o n : Nat) : Nat := leNat ((b.drop o).take n)

/-- An offset-and-length pair (R150). -/
def sec (b : List Byte) (o : Nat) : Nat × Nat := (u b o 4, u b (o + 4) 4)

/-- Is lay n used (LAY_MASK). -/
def layUsed (b : List Byte) (n : Nat) : Bool := (u b 0x1C 1).testBit n

/-- The lays used. -/
def laysOf (b : List Byte) : List Nat := (List.range 8).filter (layUsed b)

/-- The lay entry of lay n (R151). -/
def layE (n : Nat) : Nat := 0x100 + 32 * n

/-- The lay section of lay n (R152). -/
def layS (b : List Byte) (n : Nat) : Nat := u b (layE n + 0x10) 4

/-- The variant section of variant v of lay n (R154). -/
def varS (b : List Byte) (n v : Nat) : Nat := u b (layS b n + 0x120 + 16 * v) 4

/-- Every variant of every lay used. -/
def layVars (b : List Byte) : List (Nat × Nat) := (laysOf b).flatMap (fun n => (List.range 17).map (fun v => (n, v)))

/-- STRAND_MASK of a variant. -/
def varMask (b : List Byte) (n v : Nat) : Nat := u b (varS b n v + 6) 2

/-- ENTRY of a strand in a variant. -/
def varEntry (b : List Byte) (n v k : Nat) : Nat := u b (varS b n v + 8 + 2 * k) 2

/-- The table of a variant by the offset of its pair: WHEEL 0x28, SPLICE_MAP 0x30, BUDGET 0x38. -/
def varTab (b : List Byte) (n v o : Nat) : Nat × Nat := sec b (varS b n v + o)

/-- The grant entries of a variant (R156). -/
def grantsOf (b : List Byte) (n v : Nat) : List Nat :=
  let t := varTab b n v 0x30
  (List.range (t.2 / 8)).map (fun i => u b (t.1 + 8 * i) 8)

/-- A grant's fields. -/
def gSplice (g : Nat) : Nat := nbits g 12 0
/-- STRAND of a grant. -/
def gStrand (g : Nat) : Nat := nbits g 19 16
/-- END of a grant: the producer end. -/
def gProd (g : Nat) : Bool := g.testBit 20
/-- DEPTH_LOG2 of a grant. -/
def gDepth (g : Nat) : Nat := nbits g 27 24
/-- KIND of a grant. -/
def gKind (g : Nat) : Nat := nbits g 29 28
/-- PEER of a grant. -/
def gPeer (g : Nat) : Nat := nbits g 34 32

/-- Every grant of the rigging, with its lay and variant. -/
def allGrants (b : List Byte) : List (Nat × Nat × Nat) :=
  (layVars b).flatMap (fun p => (grantsOf b p.1 p.2).map (fun g => (p.1, p.2, g)))

/-- The wheel bytes of a variant. -/
def wheelOf (b : List Byte) (n v : Nat) : List Nat :=
  let t := varTab b n v 0x28
  ((b.drop t.1).take t.2).map (·.toNat)

/-- The budget entries of a variant: class, units, LAT_US, LAT_PAIR_US (R158). -/
def budgetOf (b : List Byte) (n v : Nat) : List (Nat × Nat × Nat × Nat) :=
  let t := varTab b n v 0x38
  (List.range (t.2 / 16)).map (fun i =>
    (u b (t.1 + 16 * i) 1, u b (t.1 + 16 * i + 4) 4, u b (t.1 + 16 * i + 8) 4, u b (t.1 + 16 * i + 12) 4))

/-- The extents of a list: start, content offset, content length; none where the list does not end at its length or a padding is not zero
(R153). -/
def extents (b : List Byte) : Nat → Nat → Nat → Option (List (Nat × Nat × Nat))
  | 0, _, len => if len = 0 then some [] else none
  | fuel + 1, o, len =>
    if len = 0 then some []
    else if len < 8 then none
    else
      let l := u b (o + 4) 4
      let total := (8 + l + 15) / 16 * 16
      if len < total || !((b.drop (o + 8 + l)).take (total - 8 - l)).all (· = 0) then none
      else (extents b fuel (o + total) (len - total)).map (fun t => (u b o 4, o + 8, l) :: t)

/-- The extents of the list a pair names. -/
def extentsAt (b : List Byte) (o : Nat) : Option (List (Nat × Nat × Nat)) :=
  extents b ((sec b o).2 / 16 + 1) (sec b o).1 (sec b o).2

/-- Where the pair of a strand's instruction extents lies; its data extents' pair follows. -/
def strandE (b : List Byte) (n k : Nat) : Nat := layS b n + 8 + 16 * k

/-- The ports of a lay section: KIND, PORT, request splice, completion splice (R157). -/
def portsOf (b : List Byte) (n : Nat) : List (Nat × Nat × Nat × Nat) :=
  let t := sec b (layS b n + 0x110)
  (List.range (t.2 / 4)).map (fun i =>
    let e := u b (t.1 + 4 * i) 4
    (nbits e 1 0, nbits e 4 2, nbits e 17 5, nbits e 17 5 + nbits e 30 18 - 4096))

/-- The fixed-end table: splice and block end (R159). -/
def endsOf (b : List Byte) : List (Nat × Nat) :=
  let t := sec b 0x40
  (List.range (t.2 / 4)).map (fun i => let e := u b (t.1 + 4 * i) 4
                                       (nbits e 12 0, nbits e 20 16))

/-- The DDR frame table (R159). -/
def ddrOf (b : List Byte) : List Nat :=
  let t := sec b 0x28
  (List.range (t.2 / 2)).map (fun i => u b (t.1 + 2 * i) 2)

/-- The PKE frame table. -/
def pkeOf (b : List Byte) : List Nat := let t := sec b 0x38
                                        ((b.drop t.1).take t.2).map (·.toNat)

/-- The valid entries of the NAND frame table: those of each channel before its first with VALID = 0 (R159). -/
def nandOf (b : List Byte) : List NandEntry :=
  let t := (sec b 0x30).1
  (List.range 4).flatMap (fun c =>
    let es := (List.range 64).map (fun i => t + 16 + (c * 64 + i) * 8)
    (es.takeWhile (fun o => (u b (o + 4) 1).testBit 7)).map (fun o =>
      ⟨c, u b o 4, u b (o + 4) 1 % 8, u b (o + 5) 1, u b (o + 6) 1 % 8, u b (o + 6) 1 / 8 % 4⟩))

/-! ### Load checks (R161) -/

/-- The purpose of a splice number and the KIND its grants carry (R185); none: spare. -/
def rangeKind (n : Nat) : Option Nat :=
  if n < 1024 then some 0 else if n < 4096 then some 1 else if n < 6336 then some 2 else none

/-- Are n bytes of the image zero. -/
def zeros (b : List Byte) (o n : Nat) : Bool := ((b.drop o).take n).all (· = 0)

/-- Check 0x02 on the header: magic, format, RIG_ID. -/
def badMagic (b : List Byte) : Bool :=
  u b 0 4 ≠ 0x47495253 || u b 4 2 ≠ 1 || !(let id := u b 0x10 4; id = 1 || id = 2 || 0x10000 ≤ id)

/-- Check 0x02 on a lay section: magic and LAY. -/
def badLayMagic (b : List Byte) (n : Nat) : Bool := u b (layS b n) 4 ≠ 0x59414C53 || u b (layS b n + 4) 1 ≠ n

/-- A variant that the image does not hold: no byte of it is named (check 0x08). -/
def noVar (b : List Byte) (n v : Nat) : Bool := decide ((sec b (layS b n + 0x120 + 16 * v)).2 = 0)

/-- Check 0x02 on a variant section; a variant that is absent has none. -/
def badVarMagic (b : List Byte) (n v : Nat) : Bool := !noVar b n v && decide (u b (varS b n v) 4 ≠ 0x52415653)

/-- Check 0x08: the variant is present and has the VARIANT value of its position. -/
def badVariant (b : List Byte) (n v : Nat) : Bool := noVar b n v || decide (u b (varS b n v + 4) 1 ≠ v)

/-- Check 0x04: the key's digest equals the programmed OTP hash that KEY_INDEX names, and the signature verifies (R160). -/
def badSignature (otp : Otp) (b : List Byte) : Bool :=
  let o := b.length - 256
  let pub := (b.drop o).take 97
  match otp.hash (1 + u b 0x1D 1), p384.point pub with
  | some h, some q =>
    u b 0x1D 1 > 2 || h ≠ BitVec.ofNat 384 (beNat (sha384 pub)) ||
    !p384.verify q (sha384 (b.take (b.length - 144))) (beNat ((b.drop (o + 112)).take 48)) (beNat ((b.drop (o + 160)).take 48))
  | _, _ => true

/-- Does a section that a pair names lie outside the image, or break its length rule: need is its length (exact) or a unit it must divide
into. -/
def badSec (b : List Byte) (o need : Nat) (exact : Bool) : Bool :=
  let p := sec b o
  decide (b.length - 256 < p.1 + p.2) || (if exact then decide (p.2 ≠ need) else decide (p.2 % need ≠ 0))

/-- Check 0x05 on the header, the signature block and the frame tables: the offset of what is wrong. All 256 entries of the NAND frame table
are looked at, those behind a channel's first entry with VALID = 0 too (DESIGN CHOICE, log entry 34: R159 says only that they are ignored). -/
def badHeadForm (b : List Byte) : Option Nat :=
  let e := b.length - 256
  let ddr := (sec b 0x28).1
  let nand := (sec b 0x30).1
  let ends := (sec b 0x40).1
  let at_ (o : Nat) (bad : Bool) : Option Nat := if bad then some o else none
  (at_ 0 (!(zeros b 0x48 0xB8 && u b 8 4 < 2 ^ 24 && u b 0x18 4 < 4 && u b 0x24 4 < 2 ^ 12))).or <|
  (at_ e (!(zeros b (e + 97) 15 && zeros b (e + 208) 48))).or <|
  (at_ 0x28 (badSec b 0x28 8192 true)).or <| (at_ 0x30 (badSec b 0x30 2064 true)).or <|
  (at_ 0x38 (badSec b 0x38 20 true)).or <| (at_ 0x40 (badSec b 0x40 4 false)).or <|
  (at_ ddr ((ddrOf b).any (fun x => nbits x 5 0 ≠ 0 || (x / 4096 ≠ 1 && x % 4096 ≠ 0)))).or <|
  (at_ nand (!zeros b (nand + 4) 12 ||
    (List.range 256).any (fun i => let o := nand + 16 + 8 * i
      nbits (u b (o + 4) 1) 6 3 ≠ 0 || u b (o + 7) 1 ≠ 0 || nbits (u b (o + 6) 1) 7 5 ≠ 0 ||
        (!(1 ≤ u b (o + 5) 1 && u b (o + 5) 1 ≤ 3) && u b (o + 6) 1 ≠ 0)))).or <|
  at_ ends ((List.range ((sec b 0x40).2 / 4)).any (fun i => let e := u b (ends + 4 * i) 4
    nbits e 15 13 ≠ 0 || nbits e 31 21 ≠ 0))

/-- Check 0x05 on the entry of a lay that is not used. -/
def badUnused (b : List Byte) (n : Nat) : Bool := !layUsed b n && !zeros b (layE n) 32

/-- Check 0x05 on the entry of a lay used. -/
def badLayEntry (b : List Byte) (n : Nat) : Bool :=
  !(zeros b (layE n + 0x0D) 3 && zeros b (layE n + 0x18) 8) || badSec b (layE n + 0x10) 1 false

/-- Check 0x05 on the section of a lay used: its extent lists and its ports. -/
def badLayForm (b : List Byte) (n : Nat) : Bool :=
  let l := layS b n
  !(zeros b (l + 5) 3 && zeros b (l + 0x118) 8) || badSec b (l + 0x108) 1 false || badSec b (l + 0x110) 4 false ||
  (List.range 16).any (fun k => badSec b (strandE b n k) 1 false || badSec b (strandE b n k + 8) 1 false) ||
  (extentsAt b (l + 0x108)).isNone ||
  (List.range 16).any (fun k => (extentsAt b (strandE b n k)).isNone || (extentsAt b (strandE b n k + 8)).isNone) ||
  (List.range ((sec b (l + 0x110)).2 / 4)).any (fun i => (u b ((sec b (l + 0x110)).1 + 4 * i) 4).testBit 31)

/-- Check 0x05 on a variant that is present: its entry, its section and its tables. -/
def badVarForm (b : List Byte) (n v : Nat) : Bool :=
  let o := varS b n v
  !noVar b n v && (badSec b (layS b n + 0x120 + 16 * v) 1 false || badSec b (o + 0x28) (8 * 2 ^ u b (layE n + 0x0C) 1) true ||
  badSec b (o + 0x30) 8 false || badSec b (o + 0x38) 16 false ||
  !(zeros b (layS b n + 0x120 + 16 * v + 8) 8 && zeros b (o + 5) 1 && zeros b (o + 0x40) 16) ||
  (List.range 16).any (fun k => nbits (varEntry b n v k) 14 13 ≠ 0) ||
  (wheelOf b n v).any (fun w => nbits w 6 4 ≠ 0) ||
  (grantsOf b n v).any (fun g => nbits g 15 13 ≠ 0 || nbits g 23 21 ≠ 0 || nbits g 31 30 ≠ 0 || nbits g 63 35 ≠ 0) ||
  (List.range ((varTab b n v 0x38).2 / 16)).any (fun i => !zeros b ((varTab b n v 0x38).1 + 16 * i + 1) 3))

/-- Check 0x07: the parameters of each lay used. -/
def badParams (b : List Byte) (n : Nat) : Bool :=
  let t := u b (layE n) 4
  let f := u b (layE n + 4) 4
  let c := u b (layE n + 8) 4
  let w := u b (layE n + 0x0C) 1
  !(1024 ≤ t && t ≤ 65536 && t % 64 = 0 && 400000 ≤ f && f ≤ c && c ≤ 1000000 && 4 ≤ w && w ≤ 12 && t % 2 ^ w = 0)

/-- Check 0x09: variant v ≥ 1 uses strand v − 1 nowhere. -/
def usesLost (b : List Byte) (n v : Nat) : Bool :=
  1 ≤ v && ((varMask b n v).testBit (v - 1) || (varEntry b n v (v - 1)).testBit 15 ||
    (wheelOf b n v).any (fun w => w.testBit 7 && w % 16 = v - 1) || (grantsOf b n v).any (fun g => gStrand g = v - 1))

/-- Check 0x0A: exactly the strands of STRAND_MASK have a valid entry. -/
def badEntries (b : List Byte) (n v : Nat) : Bool :=
  (List.range 16).any (fun k => (varMask b n v).testBit k ≠ (varEntry b n v k).testBit 15)

/-- Check 0x0B: each extent's length and place. -/
def badExtents (b : List Byte) (n : Nat) : Bool :=
  let bad (o unit size scale : Nat) := ((extentsAt b o).getD []).any (fun e =>
    e.2.2 % unit ≠ 0 || size < e.1 * scale + e.2.2)
  bad (layS b n + 0x108) 8 (2 ^ 22) 1 ||
  (List.range 16).any (fun k => bad (strandE b n k) 16 0x20000 16 || bad (strandE b n k + 8) 8 0x20000 1)

/-- The splice and end an SPL-format operation names. -/
def splNamed : Instr → Option (Nat × Bool)
  | .pope _ _ n => some (n.toNat, false)
  | .popo _ _ n => some (n.toNat, false)
  | .semp _ _ n => some (n.toNat, false)
  | .push _ _ n => some (n.toNat, true)
  | .sfull _ _ n => some (n.toNat, true)
  | _ => none

/-- An operation that check 0x0C refuses in a strand whose extents are given. -/
def badOp (b : List Byte) (n k : Nat) (ext : List (Nat × Nat × Nat)) (i : Instr) : Bool :=
  let inside (t : Nat) := ext.any (fun e => e.1 ≤ t && t < e.1 + e.2.2 / 16)
  (match i with
    | .nop _ _ w => w ≠ 0 && (w.extractLsb' 22 6 ≠ 0 || w.extractLsb' 0 22 ≠ 0)
    | .br _ t => !inside t.toNat
    | .brl _ _ t => !inside t.toNat
    | .chk _ imm => u b (layE n) 4 ≤ imm.toNat
    | _ => false) ||
  (match splNamed i with
    | none => false
    | some (sp, p) => !(List.range 17).any (fun v => (grantsOf b n v).any (fun g =>
        gSplice g = sp && gStrand g = k && gProd g = p)))

/-- Check 0x0C: the code of a lay's strands. -/
def badCode (b : List Byte) (n : Fin 8) : Bool :=
  (List.finRange 16).any (fun k =>
    let ext := (extentsAt b (strandE b n.val k.val)).getD []
    ext.any (fun e => (List.range (e.2.2 / 16)).any (fun i =>
      (bundleInstrs n k (BitVec.ofNat 128 (u b (e.2.1 + 16 * i) 16))).any (badOp b n.val k.val ext))))

/-- Check 0x0D: every wheel grant names a strand of the variant. -/
def badWheel (b : List Byte) (n v : Nat) : Bool :=
  (wheelOf b n v).any (fun w => w.testBit 7 && !(varMask b n v).testBit (w % 16))

/-- Check 0x0E: the distinct wheel and grant tables fit 64 KiB. -/
def tooManyTables (b : List Byte) (n : Nat) : Bool :=
  let l := (List.range 17).flatMap (fun v => [varTab b n v 0x28, varTab b n v 0x30])
  2 ^ 16 < (l.eraseDups.map (·.2)).sum

/-- The direction of a block end: a producer (R187). -/
def endProduces (c : Nat) : Bool := c = 1 || c = 2 || c = 8 || c = 10 || c = 12 || (13 ≤ c && c ≤ 15) || c = 17 || c = 19

/-- The depth a rigging claims for a splice: the largest of its grants'. -/
def claimDepth (b : List Byte) (n : Nat) : Option Nat :=
  match (allGrants b).filter (fun g => gSplice g.2.2 = n) with
  | [] => none
  | gs => some ((gs.map (fun g => gDepth g.2.2)).foldl max 0)

/-- The claimed splice numbers. -/
def claimed (b : List Byte) : List Nat := ((allGrants b).map (fun g => gSplice g.2.2)).eraseDups

/-- A grant that check 0x0F refuses; a depth outside 2 to 12, a KIND that misfits its range and a PEER that is not zero off a cross-lay
splice are counted here too (DESIGN CHOICE, log entry 34). The other end of a host-facing or Lanyard-facing splice is its block's (R185, R187). -/
def badGrant (b : List Byte) (n v g : Nat) : Bool :=
  let sp := gSplice g
  let same := (grantsOf b n v).filter (fun h => gSplice h = sp && gProd h = gProd g)
  same.length ≠ 1 || rangeKind sp ≠ some (gKind g) || gDepth g < 2 || 12 < gDepth g ||
  (sp < 1024 && sp / 128 ≠ n) ||
  (allGrants b).any (fun h => gSplice h.2.2 = sp && gProd h.2.2 = gProd g && h.1 ≠ n) ||
  (allGrants b).any (fun h => gSplice h.2.2 = sp && gProd h.2.2 ≠ gProd g && (gDepth h.2.2 ≠ gDepth g || gKind h.2.2 ≠ gKind g)) ||
  (gKind g = 1 && (gPeer g = n || !layUsed b (gPeer g) ||
    !(allGrants b).any (fun h => h.1 = gPeer g && gSplice h.2.2 = sp && gProd h.2.2 ≠ gProd g))) ||
  (gKind g ≠ 1 && gPeer g ≠ 0) ||
  (4096 ≤ sp && sp < 6144 &&
    !((endsOf b).any (fun e => e.1 = sp && endProduces e.2 ≠ gProd g))) ||
  (6144 ≤ sp && (allGrants b).any (fun h => gSplice h.2.2 = sp && gProd h.2.2 ≠ gProd g)) ||
  (6144 ≤ sp && sp ≤ 6146) || (6144 ≤ sp && sp < 6208 && gDepth g ≠ 8) || (6208 ≤ sp && gDepth g ≠ 5)

/-- A fixed-end entry that R187 refuses. -/
def badEnd (b : List Byte) (e : Nat × Nat) : Bool :=
  e.2 = 0 || 0x13 < e.2 || e.1 < 4096 || 6144 ≤ e.1 || ((endsOf b).filter (fun f => f.1 = e.1)).length ≠ 1

/-- Check 0x10: what leaves a lay in a variant is the same as in variant 0 (R44). -/
def badLeaving (b : List Byte) (n v : Nat) : Bool :=
  let sig (v : Nat) := ((grantsOf b n v).filter (fun g => 1024 ≤ gSplice g)).map (fun g => (gSplice g, gProd g, gDepth g))
  !((sig v).all (fun x => (sig 0).contains x) && (sig 0).all (fun x => (sig v).contains x))

/-- Check 0x11: the claimed depths fit the pool (R188). -/
def tooDeep (b : List Byte) : Bool :=
  131072 < 20480 + (((claimed b).filter (fun n => n < 6144)).map (fun n => 2 ^ (claimDepth b n).getD 0)).sum

/-- The starts of the refresh blocks of a frame, in ascending order (R708): fuel slots still to look at, from slot i; need:
the block length. -/
def refreshRuns (kinds : List Nat) (need base : Nat) : Nat → Nat → Nat → List Nat
  | 0, _, run => (List.range (run / need)).map (fun j => (base + 4096 - run + j * need) % 4096)
  | fuel + 1, i, run =>
    if kinds.getD ((base + i) % 4096) 0 = 2 then refreshRuns kinds need base fuel (i + 1) (run + 1)
    else (List.range (run / need)).map (fun j => (base + i - run + j * need) % 4096) ++
      refreshRuns kinds need base fuel (i + 1) 0

/-- The block length and the spacing of the table "Refresh blocks". -/
def refreshRule (density rate : Nat) : Nat × Nat :=
  let len := if density = 1 then (if rate = 3200 then 36 else if rate = 2933 then 33 else if rate = 2666 then 30 else 27)
    else (if rate = 3200 then 56 else if rate = 2933 then 52 else if rate = 2666 then 47 else 42)
  (len, if rate = 3200 then 390 else if rate = 2933 then 357 else if rate = 2666 then 325 else 292)

/-- Check 0x12 on the DDR frame: refresh, host and scrub slots. -/
def badDdrFrame (b : List Byte) : Bool :=
  let kinds := (ddrOf b).map (· / 4096)
  let (need, gap) := refreshRule (u b 0x20 4) (u b 0x1E 2)
  let base := ((List.range 4096).find? (fun i => kinds.getD i 0 ≠ 2)).getD 0
  let starts := (refreshRuns kinds need base 4096 0 0).mergeSort (· ≤ ·)
  let gaps := List.zipWith (fun x y => y - x) starts (starts.drop 1) ++ [starts.headD 0 + 4096 - starts.getLastD 0]
  kinds.count 4 < 64 || kinds.count 3 < 16 || starts = [] || gaps.any (fun g => gap < g)

/-- Check 0x12 on a lay's ports. -/
def badPorts (b : List Byte) (n : Nat) : Bool :=
  let ps := portsOf b n
  ps.any (fun p =>
    let most := if p.1 = 0 then 7 else if p.1 = 1 then 3 else 0
    let ends := if p.1 = 0 then (7, 8) else if p.1 = 1 then (9, 10) else (11, 12)
    p.1 = 3 || most < p.2.1 || (ps.filter (fun r => r.1 = p.1 && r.2.1 = p.2.1)).length ≠ 1 ||
    !((endsOf b).contains (p.2.2.1, ends.1)) || !((endsOf b).contains (p.2.2.2, ends.2)) ||
    !(allGrants b).any (fun g => g.1 = n && gSplice g.2.2 = p.2.2.1 && gProd g.2.2) ||
    !(allGrants b).any (fun g => g.1 = n && gSplice g.2.2 = p.2.2.2 && !gProd g.2.2))

/-- Check 0x13: the NAND frame (R142, R143); a period, a start or a class out of range is counted here too (DESIGN CHOICE, log entry 34). -/
def badNand (b : List Byte) : Bool :=
  let per := u b (sec b 0x30).1 4
  let es := nandOf b
  let mask := u b 0x24 4
  per < 1000 || 10000 < per ||
  es.any (fun e => per ≤ e.start || nbits mask 7 4 ≤ e.target || !mask.testBit e.chan || e.cls = 0 || 6 < e.cls) ||
  es.any (fun e => e.cls = 5 && es.any (fun f =>
    f.chan = e.chan && f.target = e.target && 1 ≤ f.cls && f.cls ≤ 3 && (f.start + per - e.start) % per < 2500)) ||
  (List.range 4).any (fun c => mask.testBit c && ([4, 5, 6] : List Nat).any (fun k => !es.any (fun e => e.chan = c && e.cls = k)))

/-- Check 0x14: variant v keeps at least the units and at most the latencies of variant 0. -/
def worseBudget (b : List Byte) (n v : Nat) : Bool :=
  (budgetOf b n 0).any (fun e => !(budgetOf b n v).any (fun f =>
    f.1 = e.1 && e.2.1 ≤ f.2.1 && f.2.2.1 ≤ e.2.2.1 && f.2.2.2 ≤ e.2.2.2))

/-- The declared acknowledgement bound (R243): single or pair mode. -/
def ackBound (b : List Byte) (pair : Bool) : Nat :=
  let lat (n : Nat) : Option Nat := ((budgetOf b n 0).find? (fun e => e.1 = 0)).map (fun e => if pair then e.2.2.2 else e.2.2.1)
  let ingest (n : Nat) : Bool := (grantsOf b n 0).any (fun g => !gProd g && (endsOf b).contains (gSplice g, 1))
  let most (l : List Nat) : Nat := (l.filterMap lat).foldl max 0
  most ((laysOf b).filter ingest) + most ((laysOf b).filter (fun n => !ingest n))

/-- A failed check that names no lay or variant, at an image offset: 0xFF stands for none (R161). -/
def wholeAt (c o : Nat) (bad : Bool) : Option (Nat × Nat × Nat × Nat) := if bad then some (c, 0xFF, 0xFF, o) else none

/-- A failed check that names no lay, variant or offset. -/
def whole (c : Nat) (bad : Bool) : Option (Nat × Nat × Nat × Nat) := wholeAt c 0 bad

/-- A check made lay by lay on what the lay's section holds, with the first lay that fails it. -/
def perLay (b : List Byte) (c : Nat) (bad : Nat → Bool) : Option (Nat × Nat × Nat × Nat) :=
  ((laysOf b).find? bad).map (fun n => (c, n, 0xFF, layS b n))

/-- A check made lay by lay on the lay entries of the header, with the first lay that fails it. -/
def perEntry (b : List Byte) (c : Nat) (bad : Nat → Bool) : Option (Nat × Nat × Nat × Nat) :=
  ((laysOf b).find? bad).map (fun n => (c, n, 0xFF, layE n))

/-- A check made variant by variant, with the first that fails it. -/
def perVar (b : List Byte) (c : Nat) (bad : Nat → Nat → Bool) : Option (Nat × Nat × Nat × Nat) :=
  ((layVars b).find? (fun p => bad p.1 p.2)).map (fun p => (c, p.1, p.2, varS b p.1 p.2))

/-- Check 0x01: the image's length. -/
def badLength (b : List Byte) (supplied : Nat) : Bool :=
  decide (b.length < 768) || decide (16777216 < b.length) || decide (u b 0x0C 4 ≠ b.length) || decide (supplied ≠ b.length)

/-- Check 0x03: the hardware type (R69, R70). -/
def badHw (hw : Nat) (b : List Byte) : Bool := decide (u b 8 3 ≠ hw) || decide (hw = 0)

/-- Check 0x06: the memories the image was built for and those fitted. -/
def badFit (f : Fitted) (fit : Nat) (b : List Byte) : Bool :=
  decide (u b 0x1E 2 ≠ f.ddrRate) || decide (u b 0x20 4 ≠ f.ddrDensity) || decide (u b 0x24 4 ≠ fit)

/-- Check 0x15: the declared bounds. -/
def badBound (b : List Byte) : Bool :=
  decide (22000 < ackBound b false) || ((u b 0x18 4).testBit 0 && decide (32000 < ackBound b true))

/-- The load checks in order, each as the failure it reports (R161). -/
def rigChecks (s : State) (b : List Byte) (supplied : Nat) : List (Unit → Option (Nat × Nat × Nat × Nat)) := [
  fun _ => whole 0x01 (badLength b supplied),
  fun _ => whole 0x02 (badMagic b),
  fun _ => perLay b 0x02 (badLayMagic b),
  fun _ => perVar b 0x02 (badVarMagic b),
  fun _ => wholeAt 0x03 8 (badHw ((s.view (pa .chip 0 rCHIP_HWTYPE)).toNat / 256) b),
  fun _ => wholeAt 0x04 (b.length - 256) (badSignature s.otp b),
  fun _ => (badHeadForm b).map (fun o => (0x05, 0xFF, 0xFF, o)),
  fun _ => ((List.range 8).find? (badUnused b)).map (fun n => (0x05, n, 0xFF, layE n)),
  fun _ => perEntry b 0x05 (badLayEntry b),
  fun _ => perLay b 0x05 (badLayForm b),
  fun _ => perVar b 0x05 (badVarForm b),
  fun _ => wholeAt 0x06 0x1E (badFit s.fitted (s.fld (pa .nand 0 rNAND_FIT) 11 0) b),
  fun _ => perEntry b 0x07 (badParams b),
  fun _ => perVar b 0x08 (badVariant b),
  fun _ => perVar b 0x09 (usesLost b),
  fun _ => perVar b 0x0A (badEntries b),
  fun _ => perLay b 0x0B (badExtents b),
  fun _ => perLay b 0x0C (fun n => if h : n < 8 then badCode b ⟨n, h⟩ else false),
  fun _ => perVar b 0x0D (badWheel b),
  fun _ => perLay b 0x0E (tooManyTables b),
  fun _ => ((endsOf b).findIdx? (badEnd b)).map (fun i => (0x0F, 0xFF, 0xFF, (sec b 0x40).1 + 4 * i)),
  fun _ => perVar b 0x0F (fun n v => (grantsOf b n v).any (badGrant b n v)),
  fun _ => perVar b 0x10 (badLeaving b),
  fun _ => whole 0x11 (tooDeep b),
  fun _ => perLay b 0x12 (badPorts b),
  fun _ => wholeAt 0x12 (sec b 0x28).1 (badDdrFrame b),
  fun _ => wholeAt 0x13 (sec b 0x30).1 (badNand b),
  fun _ => perVar b 0x14 (fun n v => decide (1 ≤ v) && worseBudget b n v),
  fun _ => whole 0x15 (badBound b)]

/-- The first failure of a list of checks. -/
def firstFailure {α : Type} : List (Unit → Option α) → Option α
  | [] => none
  | f :: t => match f () with
    | some x => some x
    | none => firstFailure t

/-- The first load check an image fails: code, lay, variant, image offset (R161). -/
def rigCheck (s : State) (b : List Byte) (supplied : Nat) : Option (Nat × Nat × Nat × Nat) :=
  firstFailure (rigChecks s b supplied)

/-! ### Loading (R153, R166, R189) -/

/-- A memory filled from an extent list; what no extent covers is 0 (R153). -/
def State.fill (s : State) (b : List Byte) (sp : Space) (size scale o : Nat) : State :=
  ((extentsAt b o).getD []).foldl (fun s e => s.setBytes sp (e.1 * scale) ((b.drop e.2.1).take e.2.2)) (s.clearMem sp 0 size)

/-- The tables of a lay's variants, one for each section that variants share (R709). -/
def tabsOf (b : List Byte) (n : Nat) : List VTab :=
  let group (target : Nat) (at_ : Nat → Nat × Nat) : List VTab :=
    (((List.range 17).map at_).eraseDups).map (fun t =>
      ⟨target, (List.range 17).filter (fun v => at_ v = t), (b.drop t.1).take t.2⟩)
  group 0x10 (fun v => varTab b n v 0x28) ++ group 0x11 (fun v => varTab b n v 0x30) ++
  group 0x12 (fun v => (varS b n v, 40)) ++ group 0x13 (fun v => varTab b n v 0x38)

/-- The lay's PLL set to a frequency from FLOOR to CEIL (R145): one in that range already stays; which other the Lanyard sets is a free value
(log entry 34). -/
def State.setPll (s : State) (n : Nat) : State :=
  let a := pa .clk 0 (rCLK_LAY + 4 * n)
  let lo := s.fld (pa .lay n rLAY_FLOOR) 19 0
  let hi := s.fld (pa .lay n rLAY_CEIL) 19 0
  if lo ≤ s.fld a 19 0 ∧ s.fld a 19 0 ≤ hi then s
  else
    let (w, s) := s.draw
    s.putF a 19 0 (lo + w.toNat % (hi - lo + 1))

/-- One lay loaded: LOADED, its memories, tables, ports and parameters. -/
def State.loadLay (s : State) (b : List Byte) (n : Nat) : State :=
  let s := (List.range 16).foldl (fun s k =>
    (s.fill b (.imem n k) 0x20000 16 (strandE b n k)).fill b (.dmem n k) 0x20000 1 (strandE b n k + 8)) s
  let s := s.fill b (.lmem n) (2 ^ 22) 1 (layS b n + 0x108)
  let s := s.clearStrands n
  let s := s.setLay n { s.lay n with tabs := tabsOf b n, ports := portsOf b n, vtabUe := false, vtabBad := 0 }
  let s := s.wr (pa .lay n rLAY_TURN_LEN) (BitVec.ofNat 32 (u b (layE n) 4))
  let s := s.wr (pa .lay n rLAY_FLOOR) (BitVec.ofNat 32 (u b (layE n + 4) 4))
  let s := s.wr (pa .lay n rLAY_CEIL) (BitVec.ofNat 32 (u b (layE n + 8) 4))
  let s := s.wr (pa .lay n rLAY_WHEEL) (BitVec.ofNat 32 (u b (layE n + 0x0C) 1))
  (s.setPll n).setLaySt n 1

/-- A lay that the rigging does not use: no rigging loaded. -/
def State.unloadLay (s : State) (n : Nat) : State :=
  let s := s.clearStrands n
  let s := s.setLay n { s.lay n with tabs := [], ports := [] }
  s.setLaySt n 0

/-- The first cell of each claimed splice 0 to 6,143 by the placement rule (R189). -/
def placement (b : List Byte) : List (Nat × Nat) :=
  let l := ((claimed b).filter (fun n => n < 6144)).map (fun n => (n, (claimDepth b n).getD 0))
  let l := l.mergeSort (fun x y => y.2 < x.2 || (x.2 = y.2 && x.1 ≤ y.1))
  (l.foldl (fun (p : Nat × List (Nat × Nat)) e => (p.1 + 2 ^ e.2, p.2 ++ [(e.1, p.1)])) (0, [])).2

/-- SPD_ENDS of a claimed splice: its lays, and the block end of the fixed-end table or of its range (R187, R191). -/
def endsWord (b : List Byte) (n : Nat) : Nat :=
  let blk := if 6208 ≤ n then 0x15 else if 6144 ≤ n then 0x14 else (((endsOf b).find? (fun e => e.1 = n)).map (·.2)).getD 0
  let end_ (p : Bool) : Nat :=
    match (allGrants b).find? (fun g => gSplice g.2.2 = n && gProd g.2.2 = p) with
    | some g => g.1
    | none => blk * 256
  end_ true * 2 ^ 16 + end_ false

/-- The descriptors of a rigging (R166, R189): of splices 0 to 6,143 every SPD_CFG is written, which empties them, with EN = 0 where the
rigging does not claim the splice, and SPD_ENDS of those it claims; of host-facing and Lanyard-facing ones SPD_ENDS as the rigging claims them,
which empties nothing. The first three are the Lanyard's own (R532). -/
def State.loadSplices (s : State) (b : List Byte) : State :=
  let s := { s with
    regs := s.regs.filter (fun e => !(0x400000 ≤ e.1 && e.1 < 0x418000 && e.1 % 16 = 0))
    splices := dropRange s.splices 0 6144 }
  let s := (placement b).foldl (fun s p =>
    let kind := (rangeKind p.1).getD 0
    (s.wr (descA p.1 0) (BitVec.ofNat 32 (2 ^ 31 + kind * 2 ^ 29 + (claimDepth b p.1).getD 0 * 2 ^ 24 + p.2))).wr
      (descA p.1 1) (BitVec.ofNat 32 (endsWord b p.1))) s
  (List.range 189).foldl (fun s j => s.wr (descA (6147 + j) 1) (BitVec.ofNat 32 (endsWord b (6147 + j)))) s

/-- A rigging load that changes a ring's DIR disables the ring (R659); old: the state before the load. -/
def State.dirChanged (s old : State) : State :=
  let a := pa .pcie 0 rPCIE_RC_CTRL
  (List.range 64).foldl (fun s r =>
    if old.ringDir r ≠ s.ringDir r ∧ bit (s.bk a r) 0 then s.setBk a r (s.bk a r &&& 2) else s) s

/-- The rigging in the Lanyard's buffer loaded into the lays that are powered, and into the splices and frame tables (R166
step 5, R167). -/
def State.loadRigging (s : State) : State :=
  let b := s.rig.buffer
  let old := s
  let s := (List.range 8).foldl (fun s n =>
    if !s.domOn (3 + n) then s else if layUsed b n then s.loadLay b n else s.unloadLay n) s
  let s := s.loadSplices b
  State.dirChanged (old := old) { s with rig := { s.rig with
      running := true, image := b, id := u b 0x10 4, version := u b 0x14 4, flags := u b 0x18 4, layMask := u b 0x1C 1
      ddr := ddrOf b, nand := nandOf b, nandPeriod := u b (sec b 0x30).1 4, pke := pkeOf b, ends := endsOf b
      frames := false, waiting := false, stopping := false, pkeBusy := 0, failed := (0, 0, 0, 0)
      host := ((allGrants b).filter (fun g => 6144 ≤ gSplice g.2.2 && gSplice g.2.2 < 6208)).map (fun g => (gSplice g.2.2, gProd g.2.2)) } }

/-- The switched domain of a block end (R187), of those whose failure bars a rigging (R620). -/
def endDomain (c : Nat) : Option Nat :=
  if c = 3 ∨ c = 15 ∨ c = 16 ∨ c = 17 then some 11 else if 4 ≤ c ∧ c ≤ 6 then some 12
  else if c = 7 ∨ c = 8 then some 14 else if c = 9 ∨ c = 10 then some 15 else if c = 11 ∨ c = 12 then some 16
  else if c = 13 ∨ c = 14 then some 13 else none

/-- The powered lays of the rigging armed and started (R166 step 6), where no block end of it lies in a FAILED domain (R620) and the DDR
controller is enabled (R706). -/
def State.armAndGo (s : State) : State :=
  if !s.bitAt (pa .ddr 0 0x00C) 0 || s.rig.ends.any (fun e => (endDomain e.2).any (fun d => s.bitAt (domReg d) 31)) then s else
  let s := (List.range 8).foldl (fun s n =>
    if s.domOn (3 + n) && s.rig.layMask.testBit n then s.armLay n else s) s
  s.strobe

/-- Every class refused (R166 step 2): ING_CTRL.CLOSE_ALL, and whether any class was open or opening before. -/
def State.anyOpen (s : State) : Bool := s.rd (pa .ingest 0 rING_STAT) &&& 0x1007E ≠ 0

/-- The lays that run, are held or frozen. -/
def State.activeLays (s : State) : List Nat :=
  (List.range 8).filter (fun n => s.domOn (3 + n) && (s.laySt n = 3 || s.laySt n = 4 || s.laySt n = 5))

/-- Every lay told to stop (R165, R166 step 4): each stops at its next turn boundary, a FROZEN one once it has been released (R652). -/
def State.stopAll (s : State) : State :=
  { s.activeLays.foldl (fun s n => s.putBit (pa .lay n rLAY_STAT) 4 true) s with rig := { s.rig with waiting := false, stopping := true } }

/-- Admission restored (R166 step 7). -/
def State.reopen (s : State) : State :=
  if s.rig.reopen then { s.openSequence with rig := { s.rig with reopen := false } } else s

/-- A load order (R161, R162, R166): the image copied and checked; refused, nothing changes but the report; with a rigging
running, admission closes and the load waits for DRAINED; with none, the rigging is loaded and started. close: what CLOSE_ALL
does. -/
def State.rigOrder (s : State) (b : List Byte) (supplied : Nat) (close : State → State) : State :=
  match rigCheck s b supplied with
  | some f =>
    ({ s with rig := { s.rig with failed := f } }).lanyEvent 0x20 [f.1, f.2.1, f.2.2.1, f.2.2.2]
  | none =>
    let s := { s with rig := { s.rig with buffer := b } }
    if s.activeLays ≠ [] then
      let r := s.anyOpen
      let s := close s
      { s with rig := { s.rig with waiting := true, reopen := r } }
    else s.loadRigging.armAndGo

/-- The bytes of an image: in a DDR buffer, or in the NOR active area (R161, R163). -/
def State.imageAt (s : State) (fromDdr : Bool) (addr len : Nat) : List Byte × State :=
  if fromDdr then
    let (l, _, s) := s.ddrGet addr len
    (l, s)
  else (s.bytes .nor (0x950000 + addr) len, s)

/-- A rigging loaded from a DDR buffer or from NOR: one image of len bytes (R161, R166). -/
def State.rigLoad (s : State) (fromDdr : Bool) (addr len : Nat) : State :=
  let (b, s) := s.imageAt fromDdr addr (min len (2 ^ 24))
  s.rigOrder b len State.closeAll

/-- RIGGING_LOAD (R161): from a DDR buffer where the controller takes requests (R706). -/
def execRiggingLoad (fromDdr : Bool) (addr len : Nat) (s : State) : Res := .next (if fromDdr && !s.hostTurn then s else s.rigLoad fromDdr addr len)

/-- The rest of a replacement once every lay of the old rigging has stopped (R166 steps 5 to 7): load, start, reopen, and the answer to the
host's request. -/
def State.replaceGo (s : State) : State := s.loadRigging.armAndGo.reopen.replyLater 0x10 0 0 []

/-- RIGGING_REPLACE_DRAINED (R166 step 4): the lays stop; where none is left to stop, the replacement goes on at once. -/
def execRiggingReplaceDrained (s : State) : Res :=
  .next (if s.rig.waiting && s.bitAt (pa .ingest 0 rING_STAT) 17 then
      (if s.activeLays = [] then s.stopAll.replaceGo else s.stopAll)
    else s)

/-- RIGGING_REPLACE_TIMEOUT (R166 step 3): DRAINED has not come; NOT_DRAINED is code 0x80. -/
def execRiggingReplaceTimeout (s : State) : Res :=
  .next (if s.rig.waiting && !s.bitAt (pa .ingest 0 rING_STAT) 17 then
      ({ s with rig := { s.rig with waiting := false, failed := (0x80, 0xFF, 0xFF, 0) } }).reopen.replyLater 0x10 3 0x80 []
    else s)

/-- TURN_BOUNDARY (R168); the last lay that a replacement waits for may stop at it (R166). -/
def execTurnBoundary (lay : Fin 8) (s : State) : Res :=
  let t := s.turnBoundary lay.val
  .next (if s.rig.stopping && t.activeLays = [] then t.replaceGo else t)

end Sys2Proof.Machine
end

