-- ==== Sys2Proof/Machine/Power.lean ====
section
/-! DEFINITION. Power domains, sleep and wake, chip resets and the reference monitor (19_power_reset_boot.md). -/

namespace Sys2Proof.Machine

/-! ### What a domain loses (R49, R73, R205, R616 to R618) -/

/-- The pages of a domain at their reset values. -/
def State.resetPages (s : State) (d : Nat) : State :=
  allPg.foldl (fun s p => (List.range (pageInfo p).count).foldl (fun s i => if pageDomain p i = d then s.pageOff p i else s) s) s

/-- The banks of a memory that are not kept, cleared; keep: a mask of banks. -/
def State.clearBanks (s : State) (sp : Space) (bank n keep : Nat) : State :=
  (List.range n).foldl (fun s b => if keep.testBit b then s else s.clearMem sp (b * bank) ((b + 1) * bank)) s

/-- The banks a domain keeps in retention (R618): of the pool, of the Lanyard's memory, of a lay's memory. -/
def State.keptBanks (s : State) (d : Nat) : Nat :=
  if d = 1 then s.fld (pa .pwr 0 rPWR_RET_MISC) 15 0
  else if d = 2 then s.fld (pa .pwr 0 rPWR_RET_MISC) 23 16
  else if 3 ≤ d ∧ d ≤ 10 then bits (s.rd64 (pa .pwr 0 rPWR_RET_LAY)) (8 * (d - 3) + 7) (8 * (d - 3))
  else 0

/-- What SYS holds beside its pages, lost but for the pool banks kept. -/
def State.loseSys (s : State) (keep : Nat) : State :=
  let s := s.dieServe.clearBanks .pool 0x80000 16 keep
  { s with
    regs := s.regs.filter (fun e => !isDesc e.1), splices := [], held := [], poolScrub := 0
    fc := Fc.off, errPin := { s.errPin with held := false }, evr := Evr.off
    ing := Ing.off, budgets := [], rems := [], totals := Totals.off }

/-- What a lay holds beside its pages, lost but for the shared-memory banks kept; its pending key loads are cancelled and count until they
are answered (R707). -/
def State.loseLay (s : State) (n keep : Nat) : State :=
  let s := s.clearBanks (.lmem n) 0x80000 8 keep
  let s := (List.range 16).foldl (fun s k => (s.clearMem (.imem n k) 0 0x20000).clearMem (.dmem n k) 0 0x20000) s
  let keyq := (s.lay n).keyq.map (fun r => { r with cancelled := true })
  let s := { s with lays := drop s.lays n }
  let s := s.setLay n { Lay.clear with keyq := keyq }
  { s with strands := dropRange s.strands (16 * n) (16 * n + 16)
           camps := if n = 7 then [] else s.camps
           work := if n = 7 then { s.work with dist := [], credits := [], sessions := [], waiting := [], tokens := [] } else
             if n = 5 then { s.work with pass := none, nextPage := 0, passAt := none, queries := [] } else s.work
           bal := if n = 6 then { Bal.off with nodes := s.bal.nodes, zeroRun := s.bal.zeroRun } else s.bal }

/-- What a domain holds beside its pages, lost but for the banks kept; the pages return to reset. -/
def State.lose (s : State) (d keep : Nat) : State :=
  let s := s.resetPages d
  if d = 1 then s.loseSys keep
  else if d = 2 then { (s.clearBanks .lany 0x10000 8 keep) with
    rig := Rig.none, pulses := [], balls := [], lany := Lany.off, dbg := Dbg.off, pair := s.pair.leaseOff, work := { s.work with assigned := [], roles := [] } }
  else if 3 ≤ d ∧ d ≤ 10 then s.loseLay (d - 3) keep
  else if d = 14 then
    { (s.clearMem .ddr 0 (2 ^ 40)) with
      bal := { s.bal with nodes := [], zeroRun := [] }, ddrScrub := 0, work := { s.work with bulk := [], bulkTo := 0, progs := [] }, outbox := s.outbox.filter (fun e => e.1 ≠ 8) }
  else if d = 15 then s.setNand { Nand.off with blocks := s.nand.blocks, releases := s.nand.releases }
  else if d = 16 then { s with outbox := s.outbox.filter (fun e => e.1 ≠ 12), keys := [], copies := [] }
  else if d = 11 then { s with tsuTime := TsuTime.off, ptp := [], eth := [], pair := s.pair.linkOff }
  else if d = 17 then { s with rings := [], msix := Msix.off }
  else if d = 12 then { s with mac := [], uarts := [], sbus := [], meas := { s.meas with sbusAge := [] }, plc := Plc.off, partials := s.partials.filter (fun e => e.1 ≠ 4 && e.1 ≠ 5 && e.1 ≠ 6), copies := s.copies.filter (fun e => e.1 < 160 || 192 ≤ e.1) }
  else if d = 13 then { s with meas := Meas.off }
  else s

/-! ### Domain targets (R614 to R620) -/

/-- The domains a domain requires (R614). -/
def requires (d : Nat) : List Nat := if d ≤ 2 then [] else if d = 17 then [2] else [1, 2]

/-- The state of a domain: 0 OFF, 1 ON, 2 RET, 3 CHANGING. -/
def State.domSt (s : State) (d : Nat) : Nat := s.fld (domReg d) 17 16

/-- The state of a domain changed; each change sets DOM_CHANGE (R633). -/
def State.setDom (s : State) (d st : Nat) : State :=
  if s.domSt d = st then s else (s.putF (domReg d) 17 16 st).irq .pwr 0 0

/-- The lock bit of a domain's PLL in CLK_STAT (R635). -/
def lockBit (d : Nat) : Nat := if 3 ≤ d ∧ d ≤ 10 then 16 + (d - 3) else if d ≤ 2 then d else d - 8

/-- Why a write of TARGET is refused (R615), as the DETAIL of R632 codes it, the lowest that applies; 0: accepted. -/
def State.targetBad (s : State) (d target : Nat) : Nat :=
  let down := target = 0 ∨ target = 2
  if (target = 1 ∧ (requires d).any (fun r => s.domSt r ≠ 1)) ∨
     (down ∧ (List.range 18).any (fun e => 3 ≤ e && (requires e).contains d && s.domSt e ≠ 0)) then 1
  else if down ∧ ((3 ≤ d ∧ d ≤ 10 ∧ 2 ≤ s.laySt (d - 3)) ∨
     (d = 14 ∧ (List.range 8).any (fun n => s.domOn (3 + n) && (s.laySt n = 3 || s.laySt n = 4)))) then 2
  else if down ∧ d ≤ 2 then 3
  else if down ∧ d = 15 ∧ s.rig.frames then 4
  else if target = 2 ∧ 11 ≤ d then 5
  else if target = 2 ∧ (s.domSt d = 0 ∨ s.domSt d = 3) then 6
  else 0

/-- A domain turned off (R617). -/
def State.turnOff (s : State) (d : Nat) : State :=
  let s := s.setTimer (domReg d) 0
  if s.domSt d = 0 then s
  else ((s.lose d 0).putBit (pa .clk 0 rCLK_STAT) (lockBit d) false).setDom d 0

/-- A domain starts turning on (R616). -/
def State.turnOn (s : State) (d : Nat) : State :=
  if s.domSt d = 1 ∨ s.domSt d = 3 then s
  else
    let s := if s.domSt d = 2 then s.resetPages d else s.lose d 0
    s.setDom d 3

/-- A domain put into retention (R618). -/
def State.retain (s : State) (d : Nat) : State :=
  if s.domSt d = 1 then
    ((s.lose d (s.keptBanks d)).putBit (pa .clk 0 rCLK_STAT) (lockBit d) false).setDom d 2
  else s

/-- A DOMAIN request is answered once its domain has settled (R632). -/
def State.domainReply (s : State) : State :=
  match s.lany.mail with
  | none => s
  | some m =>
    let d := bits (BitVec.ofNat 64 (leNat (m.body.take 8))) 4 0
    if m.req = 0x50 ∧ m.begun ∧ s.domSt d ≠ 3 ∧ s.timer (domReg d) = 0 then s.reply 0 0 [(s.rd (domReg d)).toNat] else s

/-- A write of PWR_DOM_d (R615, R619): TARGET 3 is reserved and leaves the field; ON while a retry is due waits for it. -/
def State.pwrDom (s : State) (q : Requester) (d : Nat) (v : Word32) : State :=
  s.guarded q (domReg d) v (bits v 1 0 ≠ 3 && s.targetBad d (bits v 1 0) ≠ 0) fun s =>
    if bits v 1 0 = 3 then s
    else
      let s := s.putF (domReg d) 1 0 (bits v 1 0)
      if bits v 1 0 = 1 then
        let s := if s.bitAt (domReg d) 31 then (s.putBit (domReg d) 31 false).putF (domReg d) 25 24 0 else s
        (if s.timer (domReg d) = 0 then s.turnOn d else s).domainReply
      else if bits v 1 0 = 0 then (s.turnOff d).domainReply
      else (s.retain d).domainReply

/-- DOMAIN_TARGET_ON (R616). -/
def execDomainTargetOn (q : Requester) (d : Fin 17) (s : State) : Res := .next (s.pwrDom q (d.val + 1) 1)
/-- DOMAIN_TARGET_OFF (R617). -/
def execDomainTargetOff (q : Requester) (d : Fin 17) (s : State) : Res := .next (s.pwrDom q (d.val + 1) 0)
/-- DOMAIN_TARGET_RET (R618). -/
def execDomainTargetRet (q : Requester) (d : Fin 17) (s : State) : Res := .next (s.pwrDom q (d.val + 1) 2)

/-- DOMAIN_ON_FAIL (R619): back to off; a retry after 1, 10 or 100 ms, or FAILED at the fourth. -/
def execDomainOnFail (d : Fin 17) (s : State) : Res :=
  let d := d.val + 1
  .next (if s.domSt d ≠ 3 then s
    else
      let n := s.fld (domReg d) 25 24
      let s := s.turnOff d
      if n < 3 then
        (s.putF (domReg d) 25 24 (n + 1)).setTimer (domReg d) (s.now + 1000000 * 10 ^ n)
      else
        let s := s.putBit (domReg d) 31 true
        let s := if s.bitAt (pa .pwr 0 rPWR_FAIL_DOM) 31 then s
          else s.wr (pa .pwr 0 rPWR_FAIL_DOM) (BitVec.ofNat 32 (2 ^ 31 + d))
        ((s.cause .pwr 0 0).lanyEvent 0x19 [d]).domainReply)

/-- DOMAIN_RETRY (R619). -/
def execDomainRetry (d : Fin 17) (t : Nat) (s : State) : Res :=
  let s := s.at t
  .next (if s.timer (domReg (d.val + 1)) = 0 ∨ s.now < s.timer (domReg (d.val + 1)) then s else (s.setTimer (domReg (d.val + 1)) 0).turnOn (d.val + 1))

/-! ### Resets (R627, R628, R634) -/

/-- What lies in AON and in the backup domain, in non-volatile memories and on the board: kept by every reset. pages: the pages
whose registers stay. -/
def State.afterReset (s : State) (pages : List Pg) : State :=
  let keepPage (a : Nat) : Bool := pages.any (fun p => a / 4096 = (pageInfo p).code)
  let keepMem (a : Nat) : Bool := [Space.fram, Space.nor, Space.nand].any (fun sp => sp.base ≤ a && a < sp.base + 2 ^ 48)
  { State.reset with
    regs := s.regs.filter (fun e => !isDesc e.1 && keepPage e.1)
    mem := s.mem.filter (fun e => keepMem e.1)
    ecc := s.ecc.filter (fun e => keepMem (e.1 * 8))
    timers := s.timers.filter (fun e => keepPage e.1)
    otp := s.otp, fitted := s.fitted, wire := s.wire, spi := s.spi
    nand := { Nand.off with blocks := s.nand.blocks, releases := s.nand.releases }
    lifetime := s.lifetime, settings := s.settings, images := s.images, versions := s.versions, errPin := { s.errPin with held := false }
    root := s.root, tamperRun := s.tamperRun, tamperDue := s.tamperDue, catalogue := s.catalogue, rtc := s.rtc, passes := s.passes
    rdata := s.rdata, now := s.now, freeCtr := s.freeCtr, pending := s.pending }

/-- A chip reset of a cause (R627, R628): RST, RTC and TAMPER keep their registers; the lock of the RST page is cleared (R65). -/
def State.chipReset (s : State) (code : Nat) : State :=
  let first := s.rd (pa .fc 0 rFC_FIRST)
  let status := s.rd64 (pa .fc 0 rFC_STATUS)
  let s := s.dieServe.afterReset [.rst, .rtc, .tamper]
  let s := (s.wr (pa .rst 0 0x00C) (regReset (pa .rst 0 0x00C))).wr (pa .rst 0 0x02C) 0
  let s := if code = 3 then (s.wr (pa .rst 0 rRST_FC_FIRST) first).wr64 (pa .rst 0 rRST_FC_STATUS) status else s
  let s := s.wr (pa .rst 0 rRST_CAUSE) (BitVec.ofNat 32 (2 ^ code))
  let s := s.putBit (pa .rst 0 rRST_SEEN) code true
  (s.bumpMod (pa .rst 0 rRST_COUNT) 1).wr (pa .rst 0 rRST_BOOT) 0

/-- A power-on reset (R627): everything outside the backup domain; the RST registers hold their power-on values. -/
def State.powerOn (s : State) : State :=
  let s := ((s.afterReset [.rtc, .tamper]).wr (pa .rst 0 rRST_CAUSE) 1).wr (pa .rst 0 rRST_SEEN) 1
  { s with errPin := ⟨0, false⟩ }

/-- POWER_ON_RESET (R627). -/
def execPowerOnReset (s : State) : Res := .next s.powerOn

/-- RESET_PIN (R627). -/
def execResetPin (s : State) : Res := .next (s.chipReset 1)

/-- A write of RST_CTRL (R634). -/
def State.rstCtrl (s : State) (q : Requester) (v : Word32) : State :=
  s.guarded q (pa .rst 0 rRST_CTRL) v (bits v 15 0 ≠ 0x52A5) fun s => if bit v 31 then s.chipReset 5 else s

/-- RST_CHIP (R634). -/
def execRstChip (q : Requester) (s : State) : Res := .next (s.rstCtrl q 0x800052A5)

/-- Has RST waited long enough for the records of a CHIP_RST request (R552): they are on the die, or 500 µs have passed. -/
def State.resetReady (s : State) : Bool :=
  s.fc.request.any (fun r =>
    s.evr.buf.all (fun c => decide (r.2 ≤ bits c 31 0)) || decide (r.1 + 500000 ≤ s.now))

/-- Where the time of the last CHIP_RESET is held, plus 1. -/
def resetKey : Nat := pa .rst 0 rRST_CAUSE

/-- A further cause of the chip reset of this cycle: the lowest is in RST_CAUSE (R627), each in RST_SEEN. -/
def State.resetAlso (s : State) (code : Nat) : State :=
  let s := if (s.rd (pa .rst 0 rRST_CAUSE)).toNat ≤ 2 ^ code then s else s.wr (pa .rst 0 rRST_CAUSE) (BitVec.ofNat 32 (2 ^ code))
  s.putBit (pa .rst 0 rRST_SEEN) code true

/-- CHIP_RESET (R627, R628): one of the causes; of those of one cycle there is one reset. Code 3 waits as R552 says. -/
def execChipReset (code : Fin 8) (t : Nat) (s : State) : Res :=
  let s := s.at t
  .next (if code = 0 then s.powerOn
    else if s.timer resetKey = s.now + 1 then s.resetAlso code.val
    else if code = 3 ∧ !s.resetReady then s
    else (s.chipReset code.val).setTimer resetKey (s.now + 1))

/-! ### Sleep and wake (R621 to R623, R636) -/

/-- A write of PWR_SLEEP (R621). -/
def State.sleepWrite (s : State) (q : Requester) (v : Word32) : State :=
  s.guarded q (pa .pwr 0 rPWR_SLEEP) v
    (bit v 31 && (List.range 18).any (fun d => 3 ≤ d && s.domSt d ≠ 0 && s.domSt d ≠ 2)) fun s =>
    let z := s.lanyEvent 0x1D [v.toNat]
    if bit v 31 then (if bit v 0 then (z.retain 2).retain 1 else z.retain 2) else s

/-- SLEEP (R621). -/
def execSleep (q : Requester) (ret : Bool) (s : State) : Res :=
  .next (s.sleepWrite q (BitVec.ofNat 32 (2 ^ 31 + ret.toNat)))

/-- Does a wake source act (R622): by its bit of WAKE_SRC_EN; the supply's return after a completed power-fail sequence. -/
def State.wakes (s : State) (src : Nat) : Bool :=
  if src < 4 then s.bitAt (pa .wake 0 rWAKE_SRC_EN) src else s.bitAt (pa .pwr 0 rPWR_STAT) 1

/-- A wake (R622): src 0 PORT, 1 RTC_ALARM, 2 TAMPER, 3 WAKE_N, 4 SUPPLY. With MGMT on, the cause is latched and recorded. -/
def State.wakeUp (s : State) (src : Nat) : State :=
  if !s.wakes src then s
  else
    let s := s.putBit (pa .wake 0 rWAKE_CAUSE) src true
    if s.domOn 2 then s.lanyEvent 0x1B [(s.rd (pa .wake 0 rWAKE_CAUSE)).toNat]
    else ((s.turnOn 1).turnOn 2).wr (pa .rst 0 rRST_BOOT) 0

/-- WAKE (R622). -/
def execWake (src : Fin 5) (s : State) : Res := .next (s.wakeUp src.val)

/-- A transfer of the wake port with MGMT on (R623). -/
def State.wakeServe (s : State) (read : Bool) (data : List Byte) : State :=
  if read then { s with rdata := BitVec.ofNat 64 (s.fld (pa .wake 0 rWAKE_REPLY) 7 0) }
  else if data = [] then s
  else
    let kept := data.take 3
    (s.wr (pa .wake 0 rWAKE_MSG) (BitVec.ofNat 32 (kept.length * 2 ^ 30 + leNat kept))).irq .wake 0 0

/-- SCL released where MGMT reports on (R623 step 3): the transfer held goes on. -/
def State.wakeRelease (s : State) : State :=
  let held := s.wakeHeld
  let s := ({ s with wakeHeld := none } : State).setTimer (pa .wake 0 rWAKE_CFG) 0
  match held with
  | some (read, data) => s.wakeServe read data
  | none => s

/-- WAKE_PORT_MATCH (R623): an address match, the bytes the master writes, or a read of one byte. -/
def execWakePortMatch (addr : BitVec 7) (read : Bool) (data : List (BitVec 8)) (s : State) : Res :=
  .next (if !(s.bitAt (pa .wake 0 rWAKE_CFG) 7 && s.fld (pa .wake 0 rWAKE_CFG) 6 0 = addr.toNat) then s
    else if !s.domOn 2 then
      let s := if s.timer (pa .wake 0 rWAKE_CFG) = 0 then s.setTimer (pa .wake 0 rWAKE_CFG) (s.now + 2000000) else s
      ({ s with wakeHeld := some (read, data) } : State).wakeUp 0
    else s.wakeServe read data)

/-- WAKE_STRETCH_TIMEOUT (R623): the 2 ms limit; the transfer's next byte is not acknowledged. Nothing where MGMT reported on before it. -/
def execWakeStretchTimeout (t : Nat) (s : State) : Res :=
  let s := s.at t
  .next (if s.timer (pa .wake 0 rWAKE_CFG) = 0 ∨ s.now < s.timer (pa .wake 0 rWAKE_CFG) then s
    else
      let s := ({ s with wakeHeld := none } : State).setTimer (pa .wake 0 rWAKE_CFG) 0
      if s.domOn 2 then s else (s.putBit (pa .wake 0 rWAKE_CAUSE) 8 true).cause .wake 0 0)

/-! ### Reference monitor (R635) -/

/-- REF_OK changed. -/
def State.setRefOk (s : State) (ok : Bool) : State :=
  if s.bitAt (pa .clk 0 rCLK_STAT) 0 = ok then s else (s.putBit (pa .clk 0 rCLK_STAT) 0 ok).irq .clk 0 0

/-- A cause of the CLK page, recorded with event code 0x1C. -/
def State.clkCause (s : State) (i : Nat) : State :=
  (s.cause .clk 0 i).lanyEvent 0x1C [(s.rd (pa .clk 0 rCLK_STAT)).toNat]

/-- REF_MONITOR_WINDOW (R635): the cycles counted in a window; 1,000,976.6 are expected. The deviation is truncated to whole ppm
(DESIGN CHOICE, log entry 14). -/
def execRefMonitorWindow (count : Nat) (s : State) : Res :=
  let dev : Int := 10 * (count : Int) - 10009766
  .next (if !(s.domOn 1 && s.bitAt (pa .clk 0 rCLK_REF_MON) 31) then s
    else
      let s := s.wr (pa .clk 0 rCLK_REF_DEV) (BitVec.ofInt 32 ((dev * 1000000).tdiv 10009766))
      if (s.fld (pa .clk 0 rCLK_REF_MON) 11 0 : Int) * 10009766 < dev.natAbs * 1000000 then (s.setRefOk false).clkCause 0
      else s.setRefOk true)

/-- REF_LOST (R635). -/
def execRefLost (s : State) : Res :=
  .next (if !s.domOn 1 then s else (s.setRefOk false).clkCause 1)

end Sys2Proof.Machine
end

