-- ==== Sys2Proof/Machine/Keys.lean ====
section
/-! DEFINITION. The key store (R459 to R474, R487 to R489): orphaning, derivation, blobs and slot images, key loads, the KEY
commands, the catalogue; tamper (R475, R476), random numbers (R480, R481) and life cycle (R482 to R486). -/

namespace Sys2Proof.Machine

/-! ### Copies and erasure (R463 to R465) -/

/-- A key copy made ORPHANED where it is READY and a condition on its chain holds. -/
def KeyReg.orphanIf (p : Chain → Bool) (r : KeyReg) : KeyReg :=
  if r.st = .ready && p r.chain then { KeyReg.clear with st := .orphaned } else r

/-- Every copy whose chain meets a condition becomes ORPHANED (R465). -/
def State.orphanCopies (s : State) (p : Chain → Bool) : State :=
  { s with
    strands := s.strands.map (fun e => (e.1, { e.2 with k := e.2.k.map (fun r => (r.1, r.2.orphanIf p)) }))
    copies := s.copies.map (fun r => (r.1, r.2.orphanIf p)) }

/-- The GEN of a slot advances: older copies are marked, and the catalogue drops the image and writes the new floor (R473). -/
def State.advance (s : State) (i : Nat) : State :=
  let x := s.slot i
  let g := min (2 ^ 32 - 1) (x.gen + 1)
  let s := s.setSlot i { x with gen := g }
  let s := { s with catalogue := { s.catalogue with
    images := drop s.catalogue.images i, floors := Machine.store (fun _ => 0) s.catalogue.floors i g } }
  s.orphanCopies (fun c => c.slots.any (fun e => e.1 = i && e.2 < g))

/-- A slot's key erased and its GEN advanced (R464). -/
def State.eraseSlot (s : State) (i : Nat) : State := (s.setSlot i { KeySlot.empty with gen := (s.slot i).gen }).advance i

/-- A slot erased as an orphan (R463). -/
def State.orphanSlot (s : State) (i : Nat) : State := (s.eraseSlot i).bump (pa .key 0 rKEY_ORPH_CNT) 1

/-- The slots of a broken path erased (R463). -/
def State.orphanPath (s : State) (i : Nat) : State := (s.broken 8 i).foldl (fun s j => s.orphanSlot j) s

/-- Every slot erased and every GEN advanced (R488 WIPE); every copy is ORPHANED. -/
def State.wipeKeys (s : State) : State :=
  let adv (x : KeySlot) : KeySlot := { KeySlot.empty with gen := min (2 ^ 32 - 1) (x.gen + 1) }
  let s := { s with
    keys := (List.range 4096).map (fun i => (i, adv (s.slot i)))
    catalogue := { s.catalogue with images := [], floors := (List.range 4096).map (fun i => (i, (adv (s.slot i)).gen)) } }
  s.orphanCopies (fun _ => true)

/-- The events of the backup domain recorded, where the Lanyard runs to do it (R475). -/
def State.recordDue (s : State) : State :=
  if s.domOn 1 && s.domOn 2 && !s.lany.halted then
    s.tamperDue.foldl (fun s e => s.lanyEvent e.1 e.2) { s with tamperDue := [] }
  else s

/-- An event of the backup domain: recorded by the Lanyard once MGMT runs. -/
def State.laterEvent (s : State) (code : Nat) (args : List Nat) : State :=
  { s with tamperDue := s.tamperDue ++ [(code, args)] }.recordDue

/-- The root stops being valid (R465, R470, R494). -/
def State.zeroRoot (s : State) : State :=
  if s.root.id = 0 then { s with root := ⟨0, 0, s.root.last⟩ }
  else
    let s := { s with root := ⟨0, 0, s.root.last⟩ }
    let s := s.orphanCopies (fun _ => true)
    (if s.domOn 16 then s.irq .lcs 0 2 else s).laterEvent 0x33 []

/-! ### Derivation and wrapping (R466, R467, R471, R472) -/

/-- Key material as the slot holds it: 48 bytes, zeros after the key. -/
def material (l : List Byte) : BitVec 384 := BitVec.ofNat 384 (beNat ((l ++ List.replicate 48 0).take 48))

/-- The bytes of a slot's AES key. -/
def KeySlot.bytes (x : KeySlot) : List Byte := (toBe 48 x.key.toNat).take (if x.type = 1 then 16 else 32)

/-- An EC private scalar as material (R472). -/
def scalarMaterial (type d : Nat) : BitVec 384 := material (toBe (if type = 3 then 32 else 48) d)

/-- The private scalar of an EC slot. -/
def KeySlot.scalar (x : KeySlot) : Nat := beNat ((toBe 48 x.key.toNat).take (if x.type = 3 then 32 else 48))

/-- A derived key (R466): label 4 bytes, bits 7:0 first; ctx the 8 bytes of the title or context. -/
def derive (key : List Byte) (label : Nat) (ctx : List Byte) (long : Bool) : List Byte :=
  let block (i : Nat) : List Byte := toLe 1 i ++ toLe 4 label ++ [0] ++ ctx ++ toBe 2 (if long then 256 else 128)
  if long then cmac key (block 1) ++ cmac key (block 2) else cmac key (block 1)

/-- KSTORE (R471). -/
def State.kstore (s : State) : List Byte := derive (toBe 32 s.root.key.toNat) 0x54534B53 (List.replicate 8 0) true

/-- The plaintext of a GCM message, where its tag, of n leftmost bytes, is right. -/
def gcmOpen (key iv aad c tag : List Byte) : Option (List Byte) :=
  if (gcmTag key iv aad c).take tag.length = tag then some (gcmText key iv c) else none

/-- The outcome of a meter-key blob under a WRAP key: none where its tag or its zero half is wrong (R467, R468). -/
def openBlob (key blob : List Byte) : Option (List Byte × Bool) :=
  let long := (be1 1).toNat % 2 = 1
  match gcmOpen key ([0x4D, 0x4B, 0x45, 0x59] ++ (blob.drop 16).take 8) (blob.take 24) ((blob.drop 24).take 32) (blob.drop 56) with
  | none => none
  | some pt => if long then some (pt, true) else if (pt.drop 16).all (· = 0) then some (pt.take 16, false) else none
where
  /-- Byte i of the blob. -/
  be1 (i : Nat) : Byte := blob.getD i 0

/-- Are the fixed fields of a blob right: BVER, zero bits (R467). -/
def blobForm (blob : List Byte) : Bool :=
  blob.getD 0 0 = 1 && (blob.getD 1 0).toNat < 2 && (blob.getD 3 0).toNat < 16

/-- A little-endian field of a byte list. -/
def leAt (l : List Byte) (o n : Nat) : Nat := leNat ((l.drop o).take n)

/-- A new blob (R467): the header with a parent and generation, a WRAP_ID, the plaintext wrapped. -/
def makeBlob (key : List Byte) (flags parent gen : Nat) (title wrapId pt : List Byte) : List Byte :=
  let head := toLe 1 1 ++ toLe 1 flags ++ toLe 2 parent ++ toLe 4 gen ++ title ++ wrapId
  let iv : List Byte := [0x4D, 0x4B, 0x45, 0x59] ++ wrapId
  let c := gcmText key iv ((pt ++ List.replicate 32 0).take 32)
  head ++ c ++ (gcmTag key iv head c).take 8

/-- A slot image (R472). -/
def makeImage (key : List Byte) (i : Nat) (x : KeySlot) (wrapId : List Byte) : List Byte :=
  let head := toLe 1 1 ++ toLe 1 x.type ++ toLe 1 (x.use + x.child256.toNat * 4) ++ [0] ++ toLe 2 i ++ toLe 2 x.parent ++
    toLe 4 x.pgen ++ toLe 4 x.gen ++ toLe 2 x.mask ++ [0, 0] ++ toLe 4 x.label ++ wrapId
  let iv : List Byte := [0x53, 0x49, 0x4D, 0x47] ++ wrapId
  let c := gcmText key iv (toBe 48 x.key.toNat)
  head ++ c ++ gcmTag key iv head c

/-- The slot a slot image holds, where its tag and every field are right (R472). -/
def openImage (key img : List Byte) : Option KeySlot :=
  match gcmOpen key ([0x53, 0x49, 0x4D, 0x47] ++ (img.drop 24).take 8) (img.take 32) ((img.drop 32).take 48) (img.drop 80) with
  | none => none
  | some pt =>
    let type := leAt img 1 1
    let use := leAt img 2 1
    let len := if type = 1 then 16 else if type = 4 then 48 else 32
    if leAt img 0 1 ≠ 1 ∨ type = 0 ∨ 4 < type ∨ 8 ≤ use ∨ use % 4 = 0 ∨ leAt img 3 1 ≠ 0 ∨ 4096 ≤ leAt img 4 2 ∨
        4096 < leAt img 6 2 ∨ 2 ^ 15 ≤ leAt img 16 2 ∨ leAt img 18 2 ≠ 0 ∨ !(pt.drop len).all (· = 0) ∨ (2 < type ∧ use % 4 ≠ 1) then
      none
    else some ⟨type, use % 4, 4 ≤ use, leAt img 6 2, leAt img 8 4, leAt img 12 4, leAt img 16 2, leAt img 20 4,
      BitVec.ofNat 384 (beNat pt), 0⟩

/-! ### Use of a slot (R462, R463, R468) -/

/-- The checks of a use in the order of R468: NO_SLOT, DENIED, ORPHANED; none: it serves. ec: a PKE use. -/
def State.useSlot (s : State) (i engine use : Nat) (ec : Bool) : Option KeySt :=
  let x := s.slot i
  let typeOk := if ec then x.type = 3 ∨ x.type = 4 else x.type = 1 ∨ x.type = 2
  if !s.domOn 16 || x.type = 0 || x.retired || x.use ≠ use || !(decide typeOk) then some .noSlot
  else if !x.mask.testBit engine then some .denied
  else if !s.current i then some .orphaned
  else none

/-- The words of a slot read (R488): an uncorrectable one, or an injected one, erases the slot as an orphan; whoever the reader. -/
def State.readSlot (s : State) (i : Nat) : Bool × State :=
  let (c, s) := if s.domOn 16 then s.inject .key 0 0 1 else (0, s)
  if c = 2 then (true, (s.orphanSlot i).cause .key 0 1) else (false, if c = 1 then s.cause .key 0 0 else s)

/-- A use that ends ORPHANED because the chain is not current erases the broken path (R463). -/
def State.afterUse (s : State) (i : Nat) (r : Option KeySt) : State := if r = some .orphaned then s.orphanPath i else s

/-- A key register filled READY from a key made of a slot's chain. -/
def State.readyReg (s : State) (i : Nat) (key : List Byte) : KeyReg :=
  ⟨.ready, key.length = 32, BitVec.ofNat 256 (beNat key), ⟨s.chainOf 8 i, s.root.id⟩⟩

/-- A register that a failed load leaves. -/
def failedReg (st : KeySt) : KeyReg := { KeyReg.clear with st := st }

/-- The outcome of a pending load (R109, R462, R466 to R468): the register, and the slots that the use orphans. -/
def State.serveLoad (s : State) (lay : Nat) (r : KeyReq) : KeyReg × State :=
  let a := r.a.toNat
  let blob := toLe 64 r.blob.toNat
  let i := if r.op = 2 then leAt blob 2 2 % 4096 else a % 4096
  let formBad := if r.op = 0 then decide (4096 ≤ a) else if r.op = 1 then nbits a 15 12 ≠ 0 || nbits a 63 48 ≠ 0 else !blobForm blob
  let (c, s) := if s.domOn 16 then s.inject .kdf 0 0 1 else (0, s)
  let s := if c = 1 then s.cause .kdf 0 0 else if c = 2 then s.cause .kdf 0 1 else s
  if formBad ∨ c = 2 ∨ s.bitAt (pa .kdf 0 0x014) 2 then (failedReg .noSlot, s)
  else
    let s := (s.readSlot i).2
    let u := s.useSlot i lay (r.op + 1) false
    let x := s.slot i
    match u with
    | some st => (failedReg st, s.afterUse i u)
    | none =>
      if r.op = 0 then (s.readyReg i x.bytes, s)
      else if r.op = 1 then
        if nbits a 47 16 ≠ x.gen then (failedReg .orphaned, s)
        else (s.readyReg i (derive x.bytes x.label (toLe 8 r.b.toNat) x.child256), s)
      else if leAt blob 4 4 ≠ x.gen then (failedReg .orphaned, s)
      else match openBlob x.bytes blob with
        | none => (failedReg .badBlob, s)
        | some (k, _) => (s.readyReg i k, s)

/-- The counters of the KDF page for a load that has ended (R489). -/
def State.countLoad (s : State) (lay pending : Nat) (st : KeySt) : State :=
  if !s.domOn 16 then s
  else
    let up (s : State) (o : Nat) := s.bumpBk (pa .kdf 0 o) lay (2 ^ 32 - 1) 1
    let s := up s rKDF_LOADS
    let s := if st = .orphaned then up s rKDF_ORPH else if st = .denied ∨ st = .noSlot then up s rKDF_DENY
      else if st = .badBlob then up s rKDF_BADBLOB else s
    let k := pa .kdf 0 rKDF_PEND_MAX
    s.setBk k lay (BitVec.ofNat 64 (max (s.bk k lay).toNat (min 255 pending)))

/-- KEY_LOAD_DONE (R138, R468, R707): the lay's port answers its oldest load. -/
def execKeyLoadDone (lay : Fin 8) (s : State) : Res :=
  .next (match (s.lay lay.val).keyq with
    | [] => s
    | r :: rest =>
      let pending := rest.length + 1
      let (x, s) := s.serveLoad lay.val r
      let s := s.setLay lay.val { s.lay lay.val with keyq := rest }
      let s := s.countLoad lay.val pending x.st
      let n := strandNo lay.val r.strand
      if r.cancelled ∨ ((s.str n).key r.k).st ≠ .pending then s else s.setStr n ((s.str n).setKey r.k x))

/-! ### Jobs -/

/-- A job's result held until it ends. -/
def State.startJob (s : State) (a result : Nat) : State :=
  { s.putBit a 31 true with results := Machine.store (fun _ => 0) s.results a result }

/-- Bytes a job writes to DDR at its end, in a host slot (R33, R35); none: it only reads there. -/
def State.defer (s : State) (a addr : Nat) (l : List Byte) : State := { s with outputs := s.outputs ++ [(a, (addr, l))] }

/-- May a job end now: one that uses DDR only in a host slot, and not while the controller is disabled (R33, R35, R706). -/
def State.jobTurn (s : State) (a : Nat) : Bool := !s.outputs.any (fun e => e.1 = a) || s.hostTurn

/-- What a job writes to DDR, written. -/
def State.flushJob (s : State) (a : Nat) : State :=
  (s.outputs.filter (fun e => e.1 = a)).foldl (fun s e => s.ddrPut e.2.1 e.2.2) { s with outputs := s.outputs.filter (fun e => e.1 ≠ a) }

/-- A job ends: its output is in DDR, BUSY clears and RESULT, in bits 3:0, is set. -/
def State.endJob (s : State) (a : Nat) : State :=
  if s.bitAt a 31 && s.jobTurn a then
    let r := look (fun _ => 0) s.results a
    let s := s.flushJob a
    { (s.putBit a 31 false).putF a 3 0 r with results := drop s.results a }
  else s

/-! ### KEY commands (R464, R473, R488) -/

/-- One generate request of the DRBG (R480). -/
def State.generated (s : State) : State := { s with trng := { s.trng with used := s.trng.used + 1 } }

/-- n random bytes: free values (R480). -/
def State.random (s : State) (n : Nat) : List Byte × State :=
  let (ws, s) := s.generated.drawN ((n + 7) / 8)
  ((ws.flatMap (fun w => toLe 8 w.toNat)).take n, s)

/-- The status register of KEY commands. -/
def keyStat : Nat := pa .key 0 rKEY_STAT

/-- A known-answer failure holds on a page (R479). -/
def State.kat (s : State) (p : Pg) : Bool := s.bitAt (pa p 0 0x014) 2

/-- A KEY register. -/
def State.keyArg (s : State) (o : Nat) : Word32 := s.rd (pa .key 0 o)

/-- Why a slot takes no new key: 4 OCCUPIED, 6 STALE_GEN, 12 RETIRED; 0: it does. -/
def State.targetSlot (s : State) (i gen : Nat) : Nat :=
  let x := s.slot i
  if x.retired then 12 else if x.type ≠ 0 then 4 else if gen < x.gen then 6 else 0

/-- A slot set, and every copy whose chain names it at an older generation marked (R465). -/
def State.renewSlot (s : State) (i : Nat) (x : KeySlot) : State :=
  (s.setSlot i x).orphanCopies (fun c => c.slots.any (fun e => e.1 = i && e.2 < x.gen))

/-- A key placed in a slot, and its image in the catalogue, wrapped under the present KSTORE (R465, R473). -/
def State.placeKey (s : State) (i : Nat) (x : KeySlot) : State :=
  let x := { x with mask := x.mask % 2 ^ 15, label := if x.use = 2 then x.label else 0, child256 := x.child256 && x.use = 2 }
  let s := s.renewSlot i x
  { s with catalogue := { s.catalogue with images := place i (x, s.root.id) (drop s.catalogue.images i), rootId := s.root.id } }

/-- The result of a use that fails (R488). -/
def keyResult : KeySt → Nat
  | .denied => 2 | .orphaned => 3 | .badBlob => 5 | _ => 1

/-- GENERATE. -/
def State.keyGenerate (s : State) (i : Nat) : Nat × State :=
  let a := s.keyArg rKEY_ARG
  let type := bits a 18 16
  let use := bits a 21 20
  let gen := (s.keyArg rKEY_GEN_IN).toNat
  if type = 0 ∨ 4 < type ∨ use = 0 ∨ (2 < type ∧ use ≠ 1) then (11, s)
  else if s.targetSlot i gen ≠ 0 then (s.targetSlot i gen, s)
  else if s.root.id = 0 then (8, s)
  else if !s.drbgOk then (9, s)
  else
    let (l, s) := s.random (if type = 1 then 16 else if type = 2 then 32 else 56)
    let c := if type = 3 then p256 else p384
    let key := if type ≤ 2 then material l else scalarMaterial type (leNat l % (c.n - 1) + 1)
    (0, s.placeKey i ⟨type, use, bit a 22, rootParent, s.root.id, gen, (s.keyArg rKEY_MASK).toNat,
      (s.keyArg rKEY_LABEL).toNat, key, 1⟩)

/-- DERIVE. -/
def State.keyDerive (s : State) (i : Nat) : Nat × State :=
  let a := s.keyArg rKEY_ARG
  let p := bits a 12 0
  let use := bits a 21 20
  let gen := (s.keyArg rKEY_GEN_IN).toNat
  if use = 0 then (11, s)
  else if 4096 ≤ p then (1, s)
  else match s.useSlot p 9 2 false with
    | some st => (keyResult st, s.afterUse p (some st))
    | none =>
      if 4 < s.depthUnder p then (7, s)
      else if s.targetSlot i gen ≠ 0 then (s.targetSlot i gen, s)
      else
        let x := s.slot p
        let ctx := toLe 8 (s.rd64 (pa .key 0 rKEY_CONTEXT)).toNat
        (0, s.placeKey i ⟨if x.child256 then 2 else 1, use, bit a 22, p, x.gen, gen, (s.keyArg rKEY_MASK).toNat,
          (s.keyArg rKEY_LABEL).toNat, material (derive x.bytes x.label ctx x.child256), s.depthUnder p⟩)

/-- IMPORT. -/
def State.keyImport (s : State) (i : Nat) : Nat × State :=
  let p := s.fld (pa .key 0 rKEY_ARG) 12 0
  let s := s.defer keyStat 0 []
  let (img, ue, s) := s.ddrGet ((s.keyArg rKEY_BUF_IN).toNat * 64) 96
  let root := p = rootParent
  if ue then (10, s)
  else if s.root.id = 0 then (8, s)
  else if !root ∧ 4096 ≤ p then (1, s)
  else match if root then none else s.useSlot p 9 3 false with
    | some st => (keyResult st, s.afterUse p (some st))
    | none => match openImage (if root then s.kstore else (s.slot p).bytes) img with
      | none => (5, s)
      | some x =>
        let gen := if root then x.gen else (s.keyArg rKEY_GEN_IN).toNat
        if s.targetSlot i gen ≠ 0 then (s.targetSlot i gen, s)
        else if root ∧ 4 < s.depthUnder x.parent then (7, s)
        else (0, s.placeKey i (if root then { x with depth := s.depthUnder x.parent } else { x with parent := rootParent, pgen := s.root.id, gen := gen, depth := 1 }))

/-- EXPORT. -/
def State.keyExport (s : State) (i : Nat) : Nat × State :=
  let x := s.slot i
  if x.type = 0 then (1, s)
  else if s.root.id = 0 then (8, s)
  else if !s.current i then (3, s.orphanPath i)
  else
    let (w, s) := s.random 8
    (0, s.defer keyStat ((s.keyArg rKEY_BUF_OUT).toNat * 64) (makeImage s.kstore i x w))

/-- REWRAP. -/
def State.keyRewrap (s : State) (i : Nat) : Nat × State :=
  let p := s.fld (pa .key 0 rKEY_ARG) 12 0
  let s := s.defer keyStat 0 []
  let (blob, ue, s) := s.ddrGet ((s.keyArg rKEY_BUF_IN).toNat * 64) 64
  if ue then (10, s)
  else if 4096 ≤ p then (1, s)
  else match s.useSlot p 9 3 false, s.useSlot i 9 3 false with
    | some st, _ => (keyResult st, s.afterUse p (some st))
    | none, some st => (keyResult st, s.afterUse i (some st))
    | none, none =>
      if !blobForm blob ∨ leAt blob 2 2 ≠ p then (5, s)
      else if leAt blob 4 4 ≠ (s.slot p).gen then (3, s)
      else match openBlob (s.slot p).bytes blob with
        | none => (5, s)
        | some (k, long) =>
          if !s.drbgOk then (9, s)
          else
            let (w, s) := s.random 8
            (0, s.defer keyStat ((s.keyArg rKEY_BUF_OUT).toNat * 64)
              (makeBlob (s.slot i).bytes long.toNat i (s.slot i).gen ((blob.drop 8).take 8) w k))

/-- SET_MASK. -/
def State.keySetMask (s : State) (i : Nat) : Nat × State :=
  let x := s.slot i
  let m := (s.keyArg rKEY_MASK).toNat % 2 ^ 15
  if x.type = 0 then (1, s)
  else if s.lcs = 2 ∧ m &&& x.mask ≠ m then (11, s)
  else (0, s.placeKey i { x with mask := m })

/-- One pass of SWEEP over the stored slots; fuel bounds the passes, each of which erases a slot or is the last. -/
def State.sweep (s : State) : Nat → State
  | 0 => s
  | fuel + 1 =>
    match s.keys.find? (fun e => e.2.type ≠ 0 && !s.current e.1) with
    | none => s
    | some e => (s.orphanSlot e.1).sweep fuel

/-- The slot whose words a KEY command reads first (R488): its PARENT where it works under one, of SWEEP the first that is stored. -/
def State.keyFirst (s : State) (op i : Nat) : Nat :=
  let p := s.fld (pa .key 0 rKEY_ARG) 12 0
  if (op = 2 ∨ op = 3 ∨ op = 5) ∧ p < 4096 then p
  else if op = 8 then ((s.keys.find? (fun e => e.2.type ≠ 0)).map (·.1)).getD 0
  else if op = 9 then 0 else i

/-- A KEY command run: the result and the state (R488). A slot word read first may be uncorrectable: the slot is erased as an orphan, and the
result is UE, but of SWEEP and WIPE, which erase slots themselves. Those that need the KDF or its wrapping end STATE while its known-answer test
fails, since KEY has no code for KAT (DESIGN CHOICE, log entry 15). -/
def State.keyOp (s : State) (op i : Nat) : Nat × State :=
  if op = 0 ∨ 9 < op then (11, s)
  else
    let (ue, s) := s.readSlot (s.keyFirst op i)
    if ue && op < 8 then (10, s)
    else if 2 ≤ op && op ≤ 5 && s.kat .kdf then (11, s)
    else match op with
      | 1 => s.keyGenerate i
      | 2 => s.keyDerive i
      | 3 => s.keyImport i
      | 4 => s.keyExport i
      | 5 => s.keyRewrap i
      | 6 => (0, s.eraseSlot i)
      | 7 => s.keySetMask i
      | 8 => (0, s.sweep 4096)
      | _ => (0, s.wipeKeys)

/-- A write of KEY_CMD (R488). -/
def State.keyCmd (s : State) (q : Requester) (v : Word32) : State :=
  s.guarded q (pa .key 0 rKEY_CMD) v (bit v 31 && s.bitAt (pa .key 0 rKEY_STAT) 31) fun s =>
    if bit v 31 then
      let (r, s) := s.keyOp (bits v 27 24) (bits v 11 0)
      s.startJob (pa .key 0 rKEY_STAT) r
    else s

/-- The word that orders a KEY command. -/
def keyWord (op : Nat) (i : BitVec 12) : Word32 := BitVec.ofNat 32 (2 ^ 31 + op * 2 ^ 24 + i.toNat)

/-- KEY_GENERATE (R488). -/
def execKeyGenerate (q : Requester) (i : BitVec 12) (s : State) : Res := .next (s.keyCmd q (keyWord 1 i))
/-- KEY_DERIVE (R488). -/
def execKeyDerive (q : Requester) (i : BitVec 12) (s : State) : Res := .next (s.keyCmd q (keyWord 2 i))
/-- KEY_IMPORT (R488). -/
def execKeyImport (q : Requester) (i : BitVec 12) (s : State) : Res := .next (s.keyCmd q (keyWord 3 i))
/-- KEY_EXPORT (R488). -/
def execKeyExport (q : Requester) (i : BitVec 12) (s : State) : Res := .next (s.keyCmd q (keyWord 4 i))
/-- KEY_REWRAP (R488). -/
def execKeyRewrap (q : Requester) (i : BitVec 12) (s : State) : Res := .next (s.keyCmd q (keyWord 5 i))
/-- KEY_INVALIDATE (R464). -/
def execKeyInvalidate (q : Requester) (i : BitVec 12) (s : State) : Res := .next (s.keyCmd q (keyWord 6 i))
/-- KEY_SET_MASK (R488). -/
def execKeySetMask (q : Requester) (i : BitVec 12) (s : State) : Res := .next (s.keyCmd q (keyWord 7 i))
/-- KEY_SWEEP (R488). -/
def execKeySweep (q : Requester) (s : State) : Res := .next (s.keyCmd q (keyWord 8 0))
/-- KEY_WIPE (R488). -/
def execKeyWipe (q : Requester) (s : State) : Res := .next (s.keyCmd q (keyWord 9 0))

/-- KEY_COMMAND_DONE (R488): of a command with a DDR buffer in a host slot. -/
def execKeyCommandDone (s : State) : Res :=
  .next (if s.bitAt keyStat 31 && s.jobTurn keyStat then (s.endJob keyStat).irq .key 0 0 else s)

/-! ### Tamper (R475, R476, R495) -/

/-- A qualified input (R475). -/
def State.tamperQualified (s : State) (k : Nat) : State :=
  let cfg := s.rd (pa .tamper 0 (rTAMPER_CFG + 4 * k))
  let st := pa .tamper 0 rTAMPER_STAT
  let s := (s.putBit st k true).bump (pa .tamper 0 rTAMPER_CNT) 1
  let s := if s.bitAt st 16 then s
    else (((s.putBit st 16 true).putF st 21 20 k).wr64 (pa .tamper 0 rTAMPER_TIME) (s.rd64 (pa .rtc 0 rRTC_TIME)))
  let s := if bit cfg 29 then s.zeroRoot else s
  let s := if bit cfg 28 ∧ s.domOn 16 then s.wipeKeys else s
  (((s.wakeUp 2).cause .tamper 0 0).irq .tamper 0 0).laterEvent 0x30 [k]

/-- One input's sample (R475): qualified by the sample that makes FILT in a row, once in a run. -/
def State.tamperInput (s : State) (k : Nat) (level : Bool) : State :=
  let cfg := s.rd (pa .tamper 0 (rTAMPER_CFG + 4 * k))
  let active := level = bit cfg 30
  let s := s.putBit (pa .tamper 0 rTAMPER_STAT) (8 + k) active
  let run := look (fun _ => 0) s.tamperRun k
  let run' := if bit cfg 31 ∧ active then (if run = 256 then 256 else min 255 (run + 1)) else 0
  let full := run' ≠ 256 ∧ run' ≠ 0 ∧ bits cfg 3 0 ≤ run'
  let s := { s with tamperRun := Machine.store (fun _ => 0) s.tamperRun k (if full then 256 else run') }
  if full then s.tamperQualified k else s

/-- TAMPER_SAMPLE (R475). -/
def execTamperSample (levels : BitVec 4) (s : State) : Res :=
  .next ((List.range 4).foldl (fun s k => s.tamperInput k (bit levels k)) s).recordDue

/-- A write of TAMPER_STAT (R476): a LATCH bit clears only while its input is not active; with the last, FIRST and TIME clear. -/
def State.tamperStat (s : State) (q : Requester) (v : Word32) : State :=
  let st := pa .tamper 0 rTAMPER_STAT
  s.guarded q st v false fun s =>
    let s := (List.range 4).foldl (fun s k => if bit v k && !s.bitAt st (8 + k) then s.putBit st k false else s) s
    if s.fld st 3 0 = 0 then ((s.putBit st 16 false).putF st 21 20 0).wr64 (pa .tamper 0 rTAMPER_TIME) 0 else s

/-- TAMPER_LATCH_CLEAR (R476). -/
def execTamperLatchClear (q : Requester) (latches : BitVec 4) (s : State) : Res := .next (s.tamperStat q (latches.setWidth 32))

/-- A write of TAMPER_CFG_k (R476): in FIELD, EN, ZERO and WIPE may only be set; FILT 0 leaves the field. -/
def State.tamperCfg (s : State) (q : Requester) (k : Nat) (v : Word32) : State :=
  let a := pa .tamper 0 (rTAMPER_CFG + 4 * k)
  s.guarded q a v (s.lcs = 2 && [31, 29, 28].any (fun i => s.bitAt a i && !bit v i)) fun s => s.plain a (v.setWidth 64)

/-! ### Self-tests and random numbers (R479 to R481, R493) -/

/-- An engine's known-answer test: KAT is set until the next test passes (R479). -/
def State.selfTest (s : State) (p : Pg) (ok : Bool) : State := if ok then s.putBit (pa p 0 0x014) 2 false else s.cause p 0 2

/-- The start of the DRBG (R480): READY once the raw bits and the known-answer test pass. FAIL stays, and with it the DRBG stopped, until a soft
reset of TRNG (R481). -/
def State.trngStart (s : State) (ok : Bool) : State :=
  if s.bitAt (pa .trng 0 rTRNG_STAT) 1 then s else
  let s := s.selfTest .trng ok
  let s := { s with trng := Trng.fresh }
  if ok then ((s.wr (pa .trng 0 rTRNG_STAT) 1).irq .trng 0 0).setTimer (pa .trng 0 rTRNG_RESEEDS) (s.now + 1000000000)
  else s.wr (pa .trng 0 rTRNG_STAT) 0

/-- CRYPTO_SELF_TEST (R479, R480): which tests pass. -/
def execCryptoSelfTest (kdf aead hash pke trng : Bool) (s : State) : Res :=
  .next (if !s.domOn 16 then s
    else
      let s := (((s.selfTest .kdf kdf).selfTest .aead aead).selfTest .hash hash).selfTest .pke pke
      if s.bitAt (pa .trng 0 0x00C) 0 then s.trngStart trng else s)

/-- One raw bit of the repetition-count and the adaptive-proportion test of SP 800-90B (R480): the window begins at its first bit,
which counts. -/
def Trng.bit (x : Trng) (b : Bool) : Trng :=
  let x := { x with last := b, run := if x.run ≠ 0 ∧ x.last = b then x.run + 1 else 1 }
  if x.pos = 0 ∨ x.pos = 1024 then { x with ref := b, count := 1, pos := 1 }
  else { x with count := if b = x.ref then x.count + 1 else x.count, pos := x.pos + 1 }

/-- A window whose count came within 16 of the cutoff (R493). -/
def Trng.near (x : Trng) (apt : Nat) : Bool := x.pos = 1024 && apt ≤ x.count + 16 && x.count < apt

/-- Raw bits through both tests (R480, R481, R493): the first that fails stops the DRBG; the bits after it are not tested. -/
def State.rawBits (s : State) : List Bool → State
  | [] => s
  | b :: rest =>
    let x := s.trng.bit b
    let apt := s.fld (pa .trng 0 rTRNG_CUTOFF) 26 16
    let s := { s with trng := x }
    if s.fld (pa .trng 0 rTRNG_CUTOFF) 7 0 ≤ x.run ∨ apt ≤ x.count then
      (s.cause .trng 0 (if s.fld (pa .trng 0 rTRNG_CUTOFF) 7 0 ≤ x.run then 0 else 1)).wr (pa .trng 0 rTRNG_STAT) 2
    else (if x.near apt then s.bump (pa .trng 0 rTRNG_NEAR) 1 else s).rawBits rest

/-- Do the tests run: TRNG on, enabled and not failed (R480, R481). -/
def State.trngTests (s : State) : Bool :=
  s.domOn 16 && s.bitAt (pa .trng 0 0x00C) 0 && !s.bitAt (pa .trng 0 rTRNG_STAT) 1

/-- TRNG_HEALTH_FAIL (R480, R481): the next raw bits of the source, in their order. -/
def execTrngHealthFail (raw : List Bool) (s : State) : Res := .next (if s.trngTests then s.rawBits raw else s)

/-- A reseed is due (R480): 1 s after the last, or 2^20 generate requests. -/
def State.reseedDue (s : State) : Bool :=
  s.drbgOk && (decide (s.timer (pa .trng 0 rTRNG_RESEEDS) ≤ s.now) || decide (2 ^ 20 ≤ s.trng.used))

/-- DRBG_RESEED (R480). -/
def execDrbgReseed (t : Nat) (s : State) : Res :=
  let s := s.at t
  .next (if s.reseedDue then
      ({ s with trng := { s.trng with used := 0 } }.bumpMod (pa .trng 0 rTRNG_RESEEDS) 1).setTimer (pa .trng 0 rTRNG_RESEEDS)
        (s.now + 1000000000)
    else s)

/-- A read of the low half of TRNG_OUT (R56, R493). -/
def State.trngRead (s : State) (q : Requester) (whole : Bool) : State :=
  let a := pa .trng 0 rTRNG_OUT
  let (w, s) := if s.drbgOk && !s.srstBusy a then s.generated.draw else (0, s)
  { s.setLatch q a (w.extractLsb' 32 32) with rdata := if whole then w else (w.extractLsb' 0 32).setWidth 64 }

/-- TRNG_READ (R493). -/
def execTrngRead (q : Requester) (s : State) : Res := .next (s.readBy q fun s => s.trngRead q false)

/-! ### Life cycle (R482 to R486, R494) -/

/-- The life-cycle page's registers. -/
def lcsA (o : Nat) : Nat := pa .lcs 0 o

/-- AUTH ended (R485). -/
def State.dropAuth (s : State) : State :=
  ((s.putBit (lcsA rLCS_STAT) 8 false).putF (lcsA rLCS_STAT) 6 4 0).setTimer (lcsA rLCS_AUTH_LEFT) 0

/-- AUTH held for a target: for 10 s from its gain (R485). -/
def State.authFor (s : State) (target : Nat) : Bool := !s.authOver && s.bitAt (lcsA rLCS_STAT) 8 && s.fld (lcsA rLCS_STAT) 6 4 = target

/-- RESULT of LCS_STAT. -/
def State.lcsResult (s : State) (r : Nat) : State := s.putF (lcsA rLCS_STAT) 2 0 r

/-- Is an OTP hash slot programmed. -/
def State.otpHas (s : State) (k : Nat) : Bool := (s.otp.hash k).isSome

/-- The hash slots read into LCS when CRYPTO comes on (R494): a corrected word sets OTP_CE, an uncorrectable one OTP_UE. -/
def State.lcsStart (s : State) : State :=
  let s := if s.otp.ceHashes = [] then s else s.cause .lcs 0 0
  if s.otp.badHashes = [] then s else s.cause .lcs 0 1

/-- Why a transition is not made: 1 NOT_ALLOWED, 2 NO_AUTH, 3 PREREQ; 0: it is (R483). -/
def State.transitionBad (s : State) (target : Nat) : Nat :=
  let from_ := s.lcs
  let allowed := (from_ = 0 ∧ target = 1) ∨ (from_ = 1 ∧ target = 2) ∨ (from_ = 2 ∧ target = 3) ∨ (from_ ≤ 3 ∧ target = 4)
  let needs := 2 ≤ from_
  if ¬allowed then 1
  else if needs ∧ !s.authFor target then 2
  else if (target = 1 ∧ !(s.otpHas 0 && s.otpHas 1)) ∨ (target = 2 ∧ !(s.otpHas 4 && s.otpHas 5 && s.root.id ≠ 0)) then 3
  else 0

/-- The fuses of the steps from the present state to the target, as they read back after the burn (R482). -/
def State.burn (s : State) (target : Nat) (good : BitVec 2) : State :=
  let steps := (List.range 4).filter (fun i => s.lcs ≤ i && i < target)
  { s with otp := { s.otp with fuses := steps.foldl (fun f i => f ||| (good.setWidth 8 <<< (2 * i))) s.otp.fuses } }

/-- A transition (R484): checks, wipes, burn, the new state; the chip reset follows 1 ms after. good: which fuses of each step read
programmed. -/
def State.transition (s : State) (target : Nat) (good : BitVec 2) : State :=
  let bad := s.transitionBad target
  let s := s.dropAuth
  if bad ≠ 0 then (s.lcsResult bad).irq .lcs 0 1
  else
    let s := if target = 3 ∨ target = 4 then s.zeroRoot.wipeKeys else s
    let was := s.lcs
    let s := s.burn target good
    let s := if good = 3 then s.lcsResult 0 else (s.cause .lcs 0 2).lcsResult 4
    let s := s.irq .lcs 0 1
    if s.lcs = was then s
    else ((s.lanyEvent 0x31 [target]).putBit (lcsA rLCS_STAT) 31 true).setTimer (lcsA rLCS_CTRL) (s.now + 1000000)

/-- A new challenge (R485): AUTH is cleared; the target the challenge is for is kept beside it. -/
def State.newChallenge (s : State) (target : Nat) : State :=
  let s := s.dropAuth
  if !s.drbgOk then s.lcsResult 5
  else
    let (l, s) := s.random 32
    let s := (List.range 8).foldl (fun s i => s.wr (lcsA (rLCS_CHAL + 4 * i)) (BitVec.ofNat 32 (leAt l (4 * i) 4))) s
    (s.putF (lcsA rLCS_STAT) 6 4 target).lcsResult 0

/-- A tamper input that bars ROOT_NEW: ZERO enabled, and latched or active (R474). -/
def State.tamperBars (s : State) : Bool :=
  (List.range 4).any (fun k => s.bitAt (pa .tamper 0 (rTAMPER_CFG + 4 * k)) 29 &&
    (s.bitAt (pa .tamper 0 rTAMPER_STAT) k || s.bitAt (pa .tamper 0 rTAMPER_STAT) (8 + k)))

/-- A new root (R474): ROOT_ID not 0 and not the last. -/
def State.newRoot (s : State) : State :=
  let (l, s) := s.random 32
  let (w, s) := s.draw
  let x := w.toNat % (2 ^ 32 - 2) + 1
  let id := if s.root.last ≠ 0 ∧ s.root.last ≤ x then x + 1 else x
  { s with root := ⟨BitVec.ofNat 256 (beNat l), id, id⟩ }

/-- A write of LCS_CTRL (R474, R484, R485): NEW_CHAL, then ROOT_NEW, then REQ. -/
def State.lcsCtrl (s : State) (q : Requester) (v : Word32) (good : BitVec 2) : State :=
  s.guarded q (lcsA rLCS_CTRL) v
    (bit v 29 && (s.root.id ≠ 0 || s.lcs = 4 || s.tamperBars || !s.drbgOk)) fun s =>
    let s := if bit v 30 then s.newChallenge (bits v 2 0) else s
    let s := if bit v 29 then s.newRoot else s
    if bit v 31 then s.transition (bits v 2 0) good else s

/-- LCS_ROOT_NEW (R474). -/
def execLcsRootNew (q : Requester) (s : State) : Res := .next (s.lcsCtrl q (BitVec.ofNat 32 (2 ^ 29)) 3)

/-- LCS_TRANSITION_REQUEST (R484): good: which of the two fuses of a step read programmed. -/
def execLcsTransitionRequest (q : Requester) (target : BitVec 3) (good : BitVec 2) (s : State) : Res :=
  .next (s.lcsCtrl q (BitVec.ofNat 32 (2 ^ 31 + target.toNat)) good)

/-- LCS_TRANSITION_RESET (R484 step 5): 1 ms after the burn. -/
def execLcsTransitionReset (t : Nat) (s : State) : Res :=
  let s := s.at t
  .next (if s.timer (lcsA rLCS_CTRL) = 0 ∨ s.now < s.timer (lcsA rLCS_CTRL) then s else s.chipReset 4)

/-- LCS_NEW_CHALLENGE (R485). -/
def execLcsNewChallenge (q : Requester) (target : BitVec 3) (s : State) : Res :=
  .next (s.lcsCtrl q (BitVec.ofNat 32 (2 ^ 30 + target.toNat)) 3)

/-- LCS_AUTH_EXPIRY (R485): the 10 s of AUTH are over. -/
def execLcsAuthExpiry (t : Nat) (s : State) : Res :=
  let s := s.at t
  .next (if s.authOver then s.dropAuth else s)

/-- The hash in LCS_OTP_DATA, byte 0 in the highest bits. -/
def State.otpData (s : State) : BitVec 384 :=
  BitVec.ofNat 384 (beNat ((List.range 12).flatMap (fun i => toLe 4 (s.rd (lcsA (rLCS_OTP_DATA + 4 * i))).toNat)))

/-- A write of LCS_OTP_CMD (R486). -/
def State.otpCmd (s : State) (q : Requester) (v : Word32) : State :=
  s.guarded q (lcsA rLCS_OTP_CMD) v (bit v 31 && (s.otpHas (bits v 2 0) || 1 < s.lcs)) fun s =>
    if bit v 31 then
      let s := { s with otp := { s.otp with hashes := s.otp.hashes ++ [(bits v 2 0, s.otpData)] } }
      (s.lcsResult 0).irq .lcs 0 1
    else s

/-- OTP_PROGRAM (R486). -/
def execOtpProgram (q : Requester) (slot : BitVec 3) (s : State) : Res :=
  .next (s.otpCmd q (BitVec.ofNat 32 (2 ^ 31 + slot.toNat)))

end Sys2Proof.Machine
end

