-- ==== Sys2Proof/Machine/Pins.lean ====
section
/-! DEFINITION. PINMUX (R42, R681 to R686): claims, releases, GPIO balls and timers. -/

namespace Sys2Proof.Machine

/-- A function a resource permits (R681). -/
def pmxPermits (r f : Nat) : Bool :=
  if r ≤ 31 then f = 1 || (f = 2 && r ≤ 15) || f = 3
  else if r ≤ 48 then f = 5
  else if 64 ≤ r ∧ r ≤ 71 then f = 6
  else false

/-- A refused claim recorded (R682); who: the requester, 7 for a block. -/
def State.pmxConflict (s : State) (r f who : Nat) : State :=
  let v := 2 ^ 31 + who * 2 ^ 16 + f * 2 ^ 8 + r
  let s := ((s.wr (pmxA rPMX_RESULT) 2).wr (pmxA rPMX_CONFLICT) (BitVec.ofNat 32 v)).bump (pmxA rPMX_CONFLICT_CNT) 1
  ((s.cause .pinmux 0 0).irq .pinmux 0 0).lanyEvent 0x4A [v]

/-- A resource given to a function and holder. -/
def State.pmxSet (s : State) (r f holder : Nat) : State :=
  s.wr (pmxA (rPMX_OWN + 4 * r)) (BitVec.ofNat 32 (holder * 256 + f))

/-- A block's claim of a ball (R682): whether it took it, or holds it already. -/
def State.blockClaim (s : State) (r f : Nat) : Bool × State :=
  if s.pmxFunc r = f ∧ s.pmxHolder r = 0 then (true, s)
  else if s.pmxFunc r ≠ 0 ∨ !pmxPermits r f then (false, s.pmxConflict r f 7)
  else (true, s.pmxSet r f 0)

/-- A block's release of its ball (R682). -/
def State.blockRelease (s : State) (r f : Nat) : State :=
  if s.pmxFunc r = f ∧ s.pmxHolder r = 0 then s.pmxSet r 0 0 else s

/-- A write of PMX_CLAIM (R682, R683). -/
def State.pmxClaim (s : State) (q : Requester) (v : Word32) : State :=
  s.guarded q (pmxA rPMX_CLAIM) v false fun s =>
    let r := bits v 6 0
    let f := bits v 15 8
    if bit v 30 then
      let mine := s.pmxFunc r ≠ 0 && ((if s.pmxHolder r = 0 then q = .normal || q = .safe
        else s.pmxHolder r = reqCode q || q = .safe))
      if mine then (s.pmxSet r 0 0).wr (pmxA rPMX_RESULT) 1 else s.wr (pmxA rPMX_RESULT) 4
    else if bit v 31 then
      if !pmxPermits r f then s.wr (pmxA rPMX_RESULT) 3
      else if s.pmxFunc r ≠ 0 then s.pmxConflict r f (reqCode q)
      else (s.pmxSet r f (reqCode q)).wr (pmxA rPMX_RESULT) 1
    else s

/-- PMX_CLAIM (R682). -/
def execPmxClaim (q : Requester) (func : BitVec 8) (res : BitVec 7) (s : State) : Res :=
  .next (s.pmxClaim q (BitVec.ofNat 32 (2 ^ 31 + func.toNat * 256 + res.toNat)))

/-- PMX_RELEASE (R683). -/
def execPmxRelease (q : Requester) (res : BitVec 7) (s : State) : Res :=
  .next (s.pmxClaim q (BitVec.ofNat 32 (2 ^ 30 + res.toNat)))

/-! ### Balls and GPIO (R684) -/

/-- A GPIO ball's level: PMX_GPIO_IN follows it, and an enabled edge is recorded. -/
def State.ballLevel (s : State) (n : Nat) (level : Bool) : State :=
  let s := { s with balls := Machine.store (fun _ => false) s.balls n level }
  if !s.domOn 2 ∨ s.bitAt (pmxA rPMX_GPIO_IN) n = level then s
  else
    let s := s.putBit (pmxA rPMX_GPIO_IN) n level
    if s.bitAt (pmxA (if level then rPMX_GPIO_RISE else rPMX_GPIO_FALL)) n then
      (s.putBit (pmxA rPMX_GPIO_EDGE) n true).irq .pinmux 0 1
    else s

/-- Does the device drive a ball: a GPIO output, a pulse or a PPS output. -/
def State.ballDriven (s : State) (n : Nat) : Bool :=
  s.domOn 2 && (s.pmxFunc n = 1 && s.bitAt (pmxA rPMX_GPIO_DIR) n || (s.pmxFunc n = 2 || s.pmxFunc n = 3) && s.pmxHolder n = 0)

/-- GPIO_EDGE (R684): a level that arrives at a ball the device does not drive. -/
def execGpioEdge (ball : Fin 32) (level : Bool) (s : State) : Res :=
  .next (if s.ballDriven ball.val then s else s.ballLevel ball.val level)

/-- The balls that a requester holds under FUNC 1. -/
def State.gpioMine (s : State) (q : Requester) : Word32 :=
  (List.range 32).foldl (fun m n =>
    Sys2Proof.putBit m n (s.pmxFunc n = 1 && s.pmxHolder n = reqCode q)) 0

/-- The output levels driven on the balls that are GPIO outputs. -/
def State.gpioDrive (s : State) : State :=
  (List.range 32).foldl (fun s n =>
    if s.pmxFunc n = 1 && s.bitAt (pmxA rPMX_GPIO_DIR) n then s.ballLevel n (s.bitAt (pmxA rPMX_GPIO_OUT) n) else s) s

/-- A write of a GPIO register (R684); EDGE is written whole. -/
def State.gpioWrite (s : State) (q : Requester) (o : Nat) (v : Word32) : State :=
  s.guarded q (pmxA o) v false fun s =>
    let m := s.gpioMine q
    let at_ (r : Nat) := s.rd (pmxA r)
    let s :=
      if o = rPMX_GPIO_SET then s.wr (pmxA rPMX_GPIO_OUT) (at_ rPMX_GPIO_OUT ||| (v &&& m))
      else if o = rPMX_GPIO_CLR then s.wr (pmxA rPMX_GPIO_OUT) (at_ rPMX_GPIO_OUT &&& ~~~(v &&& m))
      else if o = rPMX_GPIO_EDGE then s.wr (pmxA o) (at_ o &&& ~~~v)
      else s.wr (pmxA o) ((at_ o &&& ~~~m) ||| (v &&& m))
    s.gpioDrive.putBit (pa .pinmux 0 0x020) 1 (s.rd (pmxA rPMX_GPIO_EDGE) ≠ 0)

/-! ### Timers (R685) -/

/-- A write of a timer register; a requester that does not hold the timer is recorded as a conflict. -/
def State.tmrWrite (s : State) (q : Requester) (o : Nat) (v : Word32) : State :=
  let k := (o - rPMX_TMR_LOAD) / 8
  s.guarded q (pmxA o) v false fun s =>
    if s.pmxFunc (64 + k) ≠ 6 ∨ s.pmxHolder (64 + k) ≠ reqCode q then s.pmxConflict (64 + k) 6 (reqCode q)
    else
      let was := s.bitAt (pmxA (rPMX_TMR_CTRL + 8 * k)) 31
      let s := s.plain (pmxA o) (v.setWidth 64)
      let now := s.bitAt (pmxA (rPMX_TMR_CTRL + 8 * k)) 31
      let key := pmxA (rPMX_TMR_CTRL + 8 * k)
      if now && !was then s.setTimer key (s.now + (s.rd (pmxA (rPMX_TMR_LOAD + 8 * k))).toNat * 1000)
      else if was && !now then s.setTimer key 0 else s

/-- TIMER_EXPIRY (R685). -/
def execTimerExpiry (k : Fin 8) (t : Nat) (s : State) : Res :=
  let s := s.at t
  let a := pmxA (rPMX_TMR_CTRL + 8 * k.val)
  .next (if !s.domOn 2 ∨ !s.bitAt a 31 ∨ s.now < s.timer a then s
    else
      let s := (s.putBit a 29 true).irq .pinmux 0 (2 + k.val)
      if s.bitAt a 30 then s.setTimer a (s.timer a + (s.rd (pmxA (rPMX_TMR_LOAD + 8 * k.val))).toNat * 1000)
      else (s.putBit a 31 false).setTimer a 0)

end Sys2Proof.Machine
end

