-- ==== Sys2Proof/Machine/Time.lean ====
section
/-! DEFINITION. The TSU and the RTC (12_time.md). -/

namespace Sys2Proof.Machine

/-- A window address of the TSU. -/
abbrev tsuA (o : Nat) : Nat := pa .tsu 0 o
/-- A window address of the RTC. -/
abbrev rtcA (o : Nat) : Nat := pa .rtc 0 o

/-! ### Lock and rate (R424, R427) -/

/-- LOCKED changed (R427): its interrupt, and UNLOCK when it falls. -/
def State.setLocked (s : State) (b : Bool) : State :=
  if s.bitAt (tsuA rTSU_STAT) 3 = b then s
  else
    let s := (s.putBit (tsuA rTSU_STAT) 3 b).irq .tsu 0 0
    if b then s else { s.cause .tsu 0 0 with tsuTime := { s.tsuTime with unlocked := true, lockRun := 0 } }

/-- The limit of the rate offset looked at after a change of its terms (R424). -/
def State.rateCheck (s : State) : State :=
  if rhoLimit < s.rhoSum || s.rhoSum < -rhoLimit then s.cause .tsu 0 2 else s

/-- The slew remainder loaded (R428). -/
def State.loadSlew (s : State) (v : Word32) : State :=
  let s := s.wr (tsuA rTSU_SLEW) v
  { s with tsuTime := { s.tsuTime with slewFrac := 0 } }.rateCheck

/-- Does the servo own TSU_FREQ and TSU_SLEW (R432). -/
def State.servoOwns (s : State) (q : Requester) : Bool :=
  q = .host && (s.fld (tsuA rTSU_CTRL) 1 0 = 1 || s.fld (tsuA rTSU_CTRL) 1 0 = 2)

/-- A write of TSU_SLEW (R428, R432). -/
def State.tsuSlew (s : State) (q : Requester) (v : Word32) : State :=
  s.guarded q (tsuA rTSU_SLEW) v (s.servoOwns q) fun s => s.loadSlew v

/-- A write of TSU_FREQ (R432, R456): a rate outside the range leaves it. -/
def State.tsuFreqWrite (s : State) (q : Requester) (v : Word32) : State :=
  s.guarded q (tsuA rTSU_FREQ) v (s.servoOwns q) fun s =>
    let x := signed 32 v.toNat
    if -rhoLimit ≤ x && x ≤ rhoLimit then (s.wr (tsuA rTSU_FREQ) v).rateCheck else s

/-- A write of TSU_SLEW_RATE (R424). -/
def State.tsuSlewRate (s : State) (q : Requester) (v : Word32) : State :=
  s.guarded q (tsuA rTSU_SLEW_RATE) v false fun s => (s.plain (tsuA rTSU_SLEW_RATE) (v.setWidth 64)).rateCheck

/-- TSU_SLEW_WRITE (R428). -/
def execTsuSlewWrite (q : Requester) (v : BitVec 32) (t : Nat) (s : State) : Res := .next ((s.at t).tsuSlew q v)

/-- SLEW_DONE (R428): the remainder has been absorbed, and σ is 0 with it; before that the slew goes on. -/
def execSlewDone (t : Nat) (s : State) : Res :=
  let s := s.at t
  .next (if s.slewLeft = 0 then { s with tsuTime := { s.tsuTime with slewFrac := 0 } } else s)

/-! ### Intervals (R439 to R442) -/

/-- A written interval length that R439 names. -/
def ivlMinutes (m : Nat) : Bool := [1, 2, 3, 4, 5, 6, 10, 12, 15, 20, 30, 60].contains m

/-- A write of TSU_IVL (R439). -/
def State.tsuIvl (s : State) (q : Requester) (v : Word32) : State :=
  s.guarded q (tsuA rTSU_IVL) v false fun s =>
    if ivlMinutes (bits v 7 0) then s.putF (tsuA rTSU_IVL) 7 0 (bits v 7 0) else s

/-- An interval-mark cell pushed onto every claimed splice (R440); minutes: the length of its interval; back: closed by a backward step. -/
def State.pushMark (s : State) (fin start index skipped minutes : Nat) (lenChange back : Bool) : State :=
  let m := s.tsuTime
  let unl := m.unlocked || !s.bitAt (tsuA rTSU_STAT) 3
  let w4 := unl.toNat + m.stepped.toNat * 2 + back.toNat * 4 + lenChange.toNat * 8 + (m.marks = 0 : Bool).toNat * 16
  let cell := mkCompletion 0 ((m.marks + 1) % 2 ^ 32)
    [fin, start, index % 2 ^ 32 + minutes * 2 ^ 32 + min 65535 skipped * 2 ^ 40, w4]
  let s := (s.producedBy 0x0F).foldl (fun s n => s.offer n cell) s
  let s := (s.wr (tsuA rTSU_IVL_IDX) (BitVec.ofNat 32 index)).irq .tsu 0 3
  let m := { s.tsuTime with
    marks := m.marks + 1, lastEnd := some fin, unlocked := !s.bitAt (tsuA rTSU_STAT) 3, stepped := back, lenChange := back && m.lenChange }
  { s with tsuTime := m }

/-- The mark of a boundary (R439 to R441): the length written takes effect at the first boundary; a boundary is due to MEAS (R327). -/
def State.markBoundary (s : State) (first last : Nat) (skipped : Nat) : State :=
  let m := s.tsuTime
  let old := m.minutes
  let new := s.fld (tsuA rTSU_IVL) 7 0
  let here := if first = last then old else new
  let start := m.lastEnd.getD (last - 60 * here)
  let index := last / (60 * here)
  let s := s.pushMark last start index skipped here (m.lenChange || (first ≠ last && old ≠ new)) false
  let s := { s with
    tsuTime := { s.tsuTime with
      minutes := new, lenChange := first = last && old ≠ new
      oldMinutes := if old = new then m.oldMinutes else old, changedAt := if old = new then m.changedAt else first }
    meas := { s.meas with due := some (last, index) } }
  if last % 3600 = 0 ∧ s.bitAt (tsuA rTSU_STAT) 3 then s.lanyEvent 0x10 [] else s

/-- The boundaries passed in going from one second to a later one that have no mark: the first, the last and how many others. -/
def State.passed (s : State) (before after : Nat) : Option (Nat × Nat × Nat) :=
  let len := 60 * s.tsuTime.minutes
  let new := 60 * s.fld (tsuA rTSU_IVL) 7 0
  let done := max before (s.tsuTime.lastEnd.getD before)
  let first := (done / len + 1) * len
  if after < first then none
  else
    let last := max first (after / new * new)
    some (first, last, if first = last then 0 else last / new - first / new)

/-- INTERVAL_MARK (R440): TSU time has reached a boundary. -/
def execIntervalMark (t : Nat) (s : State) : Res :=
  let s := s.at t
  let b := s.tsuTime.sec / (60 * s.tsuTime.minutes) * (60 * s.tsuTime.minutes)
  .next (if !s.netOn || (s.tsuTime.lastEnd.any (fun e => b ≤ e)) then s else s.markBoundary b b 0)

/-! ### Steps (R431, R441, R442) -/

/-- TSU time in ns as a signed number. -/
def State.tsuNs (s : State) : Int := (s.tsuTime.sec * 1000000000 + s.tsuTime.ns : Nat)

/-- A step refused: TSU seconds would leave 0 to 2^48 - 1. -/
def State.stepBad (s : State) (v : Int) : Bool :=
  s.tsuNs + v < 0 || (2 ^ 48 * 1000000000 : Int) ≤ s.tsuNs + v

/-- A step applied (R431 steps 3 and 4, R441, R442); host: ordered by the host, which clears LOCKED (R427). -/
def State.applyStep (s : State) (v : Int) (host : Bool) : State :=
  let before := s.tsuTime.sec
  let n := (s.tsuNs + v).toNat
  let s := s.loadSlew 0
  let s := { s with tsuTime := { s.tsuTime with sec := n / 1000000000, ns := n % 1000000000, stepped := true } }
  let s := ((s.bumpMod (tsuA rTSU_STEP_CNT) 1).irq .tsu 0 1).putBit (tsuA rTSU_STAT) 5 false
  let s := if host then s.setLocked false else s
  let s := s.lanyEvent 0x11 []
  let s := { s with meas := { s.meas with stepped := true } }
  if 0 ≤ v then
    match s.passed before s.tsuTime.sec with
    | some (a, b, k) => s.markBoundary a b k
    | none => s
  else match s.tsuTime.lastEnd with
    | some e =>
      if s.tsuTime.sec < e then
        s.pushMark e e (e / (60 * s.tsuTime.minutes)) 0 s.tsuTime.minutes s.tsuTime.lenChange true
      else s
    | none => s

/-- The step written in TSU_STEP. -/
def State.stepValue (s : State) : Int := signed 64 (s.rd64 (tsuA rTSU_STEP)).toNat

/-- A write of TSU_STEP_CTL (R431): only the host may order a step; another requester's GO is refused with STATE (DESIGN CHOICE, log entry 34). -/
def State.tsuStepCtl (s : State) (q : Requester) (v : Word32) : State :=
  s.guarded q (tsuA rTSU_STEP_CTL) v (bit v 31 && (q ≠ .host || s.stepBad s.stepValue)) fun s =>
    if bit v 31 then s.applyStep s.stepValue true else s

/-- TSU_STEP (R431). -/
def execTsuStep (q : Requester) (t : Nat) (s : State) : Res := .next ((s.at t).tsuStepCtl q 0x80000000)

/-! ### The servo (R427, R429, R430) -/

/-- TSU_LOCK looked at for a measurement (R427). -/
def State.lockMeasure (s : State) (mag : Nat) : State :=
  let run := if mag < s.fld (tsuA rTSU_LOCK) 15 0 then s.tsuTime.lockRun + 1 else 0
  let s := { s with tsuTime := { s.tsuTime with lockRun := min 16 run } }
  if s.fld (tsuA rTSU_LOCK) 31 16 < mag then s.setLocked false
  else if 16 ≤ run then s.setLocked true else s

/-- A correction refused (R430): reported at the start of the episode only; no measurement of the episode counts towards a lock. -/
def State.refuseStep (s : State) (o : Int) : State :=
  let again := s.bitAt (tsuA rTSU_STAT) 5
  let s := { s.wr64 (tsuA rTSU_REFUSED) (BitVec.ofInt 64 (-o)) with tsuTime := { s.tsuTime with lockRun := 0 } }
  if again then s
  else ((((s.putBit (tsuA rTSU_STAT) 5 true).cause .tsu 0 1).irq .tsu 0 2).setLocked false).lanyEvent 0x12 []

/-- A source seen (R426, R456): one that is selected is what an offset was measured against. -/
def State.sourceSeen (s : State) (src : Nat) : State := { s with tsuTime := { s.tsuTime with seen := s.tsuTime.seen ||| 2 ^ src } }

/-- PTP_OFFSET_MEASUREMENT (R427 to R430): o is TSU time minus master time in ns; freq is the rate the servo sets, whose law the spec
does not give; none leaves it. A slew is held to the 32 bits of TSU_SLEW by the limit L. -/
def execPtpOffsetMeasurement (o : BitVec 64) (port : Fin 8) (freq : Option (BitVec 32)) (t : Nat) (s : State) : Res :=
  let s := s.at t
  let x := signed 64 o.toNat
  let l : Int := (s.fld (tsuA rTSU_STEP_BACK_LIMIT) 19 0 * 1000 : Nat)
  .next (if !s.netOn then s
    else
      let s := (s.wr64 (tsuA rTSU_OFFSET) o).putF (tsuA rTSU_STAT) 10 8 port.val
      let src := s.fld (tsuA rTSU_CTRL) 1 0
      let s := s.sourceSeen src
      if src = 0 then s.lockMeasure x.natAbs
      else if l < x ∨ (s.bitAt (tsuA rTSU_STAT) 5 ∧ x < -l) then s.refuseStep x
      else
        let s := (s.lockMeasure x.natAbs).putBit (tsuA rTSU_STAT) 5 false
        let s := match freq with
          | some f => if -rhoLimit ≤ signed 32 f.toNat ∧ signed 32 f.toNat ≤ rhoLimit then s.wr (tsuA rTSU_FREQ) f else s
          | none => s
        if -l ≤ x then s.loadSlew (BitVec.ofInt 32 (-x))
        else if s.stepBad (-x) then s else s.applyStep (-x) false)

/-- PTP_SOURCE_LOSS (R427). -/
def execPtpSourceLoss (s : State) : Res :=
  .next (if !s.netOn then s else (s.setLocked false).putF (tsuA rTSU_STAT) 10 8 7)

/-! ### PPS and captures (R437, R457) -/

/-- A write of TSU_PPS (R457, R682): EN claims or releases the named GPIO. -/
def State.ppsWrite (s : State) (q : Requester) (v : Word32) : State :=
  s.guarded q (tsuA rTSU_PPS) v false fun s =>
    let old := s.rd (tsuA rTSU_PPS)
    let s := s.plain (tsuA rTSU_PPS) (v.setWidth 64)
    let s := if bit old 31 ∧ (!bit v 31 ∨ bits old 20 16 ≠ bits v 20 16) then s.blockRelease (bits old 20 16) 3 else s
    if bit v 31 then (s.blockClaim (bits v 20 16) 3).2 else s

/-- PPS_CONFIG_WRITE (R457, R682). -/
def execPpsConfigWrite (q : Requester) (v : BitVec 32) (s : State) : Res := .next (s.ppsWrite q v)

/-- Does the PPS output drive its ball: the GPIO's number where it does. -/
def State.ppsBall (s : State) : Option Nat :=
  let n := s.fld (tsuA rTSU_PPS) 20 16
  if s.netOn && s.bitAt (tsuA rTSU_PPS) 31 && s.ppsOwned then some n else none

/-- Is TSU time within 8 ns of a second boundary (R457). -/
def State.atSecond (s : State) : Bool := s.tsuTime.ns ≤ 8 || 999999992 ≤ s.tsuTime.ns

/-- TSU_SECOND_BOUNDARY (R457): the PPS output rises. -/
def execTsuSecondBoundary (t : Nat) (s : State) : Res :=
  let s := s.at t
  .next (match if s.atSecond then s.ppsBall else none with
    | some n => (s.ballLevel n true).setTimer (tsuA rTSU_PPS) (s.now + s.fld (tsuA rTSU_PPS) 9 0 * 1000000)
    | none => s)

/-- PPS_PULSE_END (R457): the pulse has had its width. -/
def execPpsPulseEnd (t : Nat) (s : State) : Res :=
  let s := s.at t
  let up := s.timer (tsuA rTSU_PPS)
  .next (if up = 0 ∨ s.now < up then s
    else
      let s := s.setTimer (tsuA rTSU_PPS) 0
      match s.ppsBall with
      | some n => s.ballLevel n false
      | none => s)

/-- One channel's capture (R437). -/
def State.captureOn (s : State) (k : Nat) : State :=
  let a := tsuA (rTSU_CAPC + 8 * k)
  if s.bitAt a 27 then
    ((s.putBit a 26 true).cause .tsu 0 3).bump (tsuA rTSU_CAP_OVR_CNT) 1
  else
    let c := (s.tsuTime.sec * 1000000000 + s.tsuTime.ns) % 2 ^ 32
    (((s.wr (tsuA (rTSU_CAP + 8 * k)) (BitVec.ofNat 32 c)).putBit a 27 true).putF a 31 28
      (s.fld (tsuA rTSU_STEP_CNT) 3 0)).irq .tsu 0 4

/-- CAPTURE_EDGE (R437): an edge on a capture source, numbered as TSU_CAPC_k.SRC numbers them. -/
def execCaptureEdge (src : BitVec 8) (rising : Bool) (t : Nat) (s : State) : Res :=
  let s := s.at t
  .next (if !s.netOn ∨ src = 0 then s
    else (List.range 8).foldl (fun s k =>
      let a := tsuA (rTSU_CAPC + 8 * k)
      if s.fld a 7 0 = src.toNat && s.bitAt a (if rising then 8 else 9) then s.captureOn k else s) s)

/-! ### RTC (R445 to R454) -/

/-- The RTC's time set: a part of a tick in progress is dropped. -/
def State.setRtc (s : State) (sec frac : Nat) : State :=
  let s := (s.wr64 (rtcA rRTC_TIME) (BitVec.ofNat 64 (sec % 2 ^ 40 * 2 ^ 15 + frac))).putBit (rtcA rRTC_STAT) 2 true
  { s with rtc := { s.rtc with sub := 0, hold := 0 } }

/-- RTC_SECOND_CARRY (R445, R448, R450). -/
def execRtcSecondCarry (t : Nat) (s : State) : Res :=
  let s := s.at t
  .next (if !s.rtcRuns ∨ 0 < s.rtc.hold then s
    else
      let sec := (s.rtcSec + 1) % 2 ^ 40
      let s := s.wr64 (rtcA rRTC_TIME) (BitVec.ofNat 64 (sec * 2 ^ 15))
      let s := { s with rtc := { s.rtc with sub := 0 } }
      let ofs := s.fld (rtcA rRTC_DAY_OFS) 16 0
      let s := if ((sec : Int) - ofs) % 86400 = 0 then s.putF (rtcA rRTC_WDAY) 2 0 ((s.fld (rtcA rRTC_WDAY) 2 0 + 1) % 7) else s
      let al := s.rd64 (rtcA rRTC_ALARM)
      if bit al 63 ∧ bits al 39 0 = sec then (s.irq .rtc 0 0).wakeUp 1 else s)

/-- A write of RTC_CTRL (R446): counting resumes at the second oscillator cycle after HALT goes to 0. -/
def State.rtcCtrl (s : State) (q : Requester) (v : Word32) : State :=
  s.guarded q (rtcA rRTC_CTRL) v false fun s =>
    let resumes := s.bitAt (rtcA rRTC_CTRL) 0 && !bit v 0
    let s := s.plain (rtcA rRTC_CTRL) (v.setWidth 64)
    if resumes then { s with rtc := { s.rtc with hold := max 1 s.rtc.hold } } else s

/-- RTC_HALT (R446): HALT = 1, DISC as it is. -/
def execRtcHalt (q : Requester) (t : Nat) (s : State) : Res :=
  let s := s.at t
  .next (s.rtcCtrl q (s.rd (rtcA rRTC_CTRL) ||| 1))

/-- RTC_RESUME (R446): HALT = 0. -/
def execRtcResume (q : Requester) (t : Nat) (s : State) : Res :=
  let s := s.at t
  .next (s.rtcCtrl q (s.rd (rtcA rRTC_CTRL) &&& ~~~1))

/-- A committed write of RTC_TIME (R446). -/
def State.rtcTime (s : State) (q : Requester) (v : Word64) : State :=
  s.guarded q (rtcA rRTC_TIME) (v.extractLsb' 0 32) (!s.bitAt (rtcA rRTC_CTRL) 0) fun s =>
    (s.setRtc (bits v 54 15) (bits v 14 0)).lanyEvent 0x13 []

/-- RTC_TIME_WRITE (R446). -/
def execRtcTimeWrite (q : Requester) (v : BitVec 64) (t : Nat) (s : State) : Res := .next ((s.at t).rtcTime q v)

/-- RTC_DISCIPLINE (R447). -/
def execRtcDiscipline (t : Nat) (s : State) : Res :=
  let s := s.at t
  .next (if !s.discActive then s
    else
      let e : Int := (s.rtcSec * 32768 + s.rtcFrac : Nat) - (s.tsuTime.sec % 2 ^ 40 * 32768 : Nat)
      let s := s.wr (rtcA rRTC_DISC_ERR) (BitVec.ofInt 32 (clampI (-(2 ^ 31)) (2 ^ 31 - 1) e))
      if e < 0 then s.setRtc s.tsuTime.sec 0
      else if e = 0 then s
      else if e ≤ 32768 then { s with rtc := { s.rtc with hold := e.toNat } }
      else ((s.setRtc s.tsuTime.sec 0).putBit (rtcA rRTC_STAT) 6 true).irq .rtc 0 2)

/-- A read of RTC_CAL_DATE latches the matching RTC_CAL_TIME for its requester (R449). -/
def State.calDateRead (s : State) (q : Requester) : State :=
  { s with
    rdata := s.calDate.setWidth 64
    rtc := { s.rtc with latch := Machine.store (fun _ => 0) s.rtc.latch (reqCode q) s.calTime } }

/-- A read of RTC_CAL_TIME returns the latch (R449). -/
def State.calTimeRead (s : State) (q : Requester) : State :=
  { s with rdata := (look (fun _ => (0 : Word32)) s.rtc.latch (reqCode q)).setWidth 64 }

/-- RTC_CAL_READ (R449). -/
def execRtcCalRead (q : Requester) (t : Nat) (s : State) : Res := .next ((s.at t).readBy q fun s => if s.srstBusy (rtcA rRTC_CAL_DATE) then { s with rdata := 0 } else s.calDateRead q)

/-- A write of RTC_CAL_DATE (R449): kept for the write of RTC_CAL_TIME that follows. -/
def State.calDateWrite (s : State) (q : Requester) (v : Word32) : State :=
  s.guarded q (rtcA rRTC_CAL_DATE) v (!s.bitAt (rtcA rRTC_CTRL) 0) fun s =>
    { s.wr (rtcA rRTC_CAL_DATE) v with rtc := { s.rtc with dateBy := reqCode q } }

/-- A write of RTC_CAL_OFS (R15, R458): an offset outside its range leaves it. -/
def State.calOfsWrite (s : State) (q : Requester) (v : Word32) : State :=
  s.guarded q (rtcA rRTC_CAL_OFS) v false fun s =>
    let x := signed 32 v.toNat
    if -86399 ≤ x ∧ x ≤ 86399 then s.plain (rtcA rRTC_CAL_OFS) (v.setWidth 64) else s

/-- The RTC second of a written date and time: none where the date does not exist or the view's range is left (R449). -/
def State.calSecond (s : State) (date time : Word32) : Option Nat :=
  let y := bits date 31 16
  let m := bits date 11 8
  let d := bits date 4 0
  let x := dayOf y m d
  let sec : Int := (x * 86400 + bits time 20 16 * 3600 + bits time 13 8 * 60 + bits time 5 0 : Nat)
  let r := sec - signed 32 (s.rd (rtcA rRTC_CAL_OFS)).toNat
  if y < 2000 ∨ 2199 < y ∨ m = 0 ∨ d = 0 ∨ 12 < m ∨ civil x ≠ (y, m, d) ∨ 23 < bits time 20 16 ∨ 59 < bits time 13 8 ∨
      59 < bits time 5 0 ∨ !calInRange sec ∨ r < 0 then none
  else some r.toNat

/-- A write of RTC_CAL_TIME (R449). -/
def State.calTimeWrite (s : State) (q : Requester) (v : Word32) : State :=
  let paired := s.rtc.dateBy = reqCode q
  let r := s.calSecond (s.rd (rtcA rRTC_CAL_DATE)) v
  s.guarded q (rtcA rRTC_CAL_TIME) v (!s.bitAt (rtcA rRTC_CTRL) 0 || (paired && r = none)) fun s =>
    match r with
    | some x =>
      if paired then
        let s := (s.setRtc x 0).lanyEvent 0x13 []
        { s with rtc := { s.rtc with dateBy := 0 } }
      else s
    | none => s

/-- RTC_CAL_WRITE (R449): the pair of writes. -/
def execRtcCalWrite (q : Requester) (date time : BitVec 32) (t : Nat) (s : State) : Res :=
  .next (((s.at t).calDateWrite q date).calTimeWrite q time)

/-- The ticks of the RTC counted since a time taken back (R451): the crystal gave none. -/
def State.uncount (s : State) (t : Nat) : State :=
  let n := s.rtcSec * 32768 + s.rtcFrac
  let k := if s.rtcRuns && s.rtc.hold = 0 then (s.now - t) * 32768 / 1000000000 else 0
  s.wr64 (rtcA rRTC_TIME) (BitVec.ofNat 64 (n - k))

/-- OSC_STOP (R451): no crystal cycle since 4 ms before, so the count stands still since then. -/
def execOscStop (t : Nat) (s : State) : Res :=
  let quiet := t - 4000000
  let s := (s.at quiet).uncount quiet
  let s := ({ s with rtc := { s.rtc with oscOff := true } }).at t
  .next (((s.putBit (rtcA rRTC_STAT) 3 true).putBit (rtcA rRTC_STAT) 2 false).cause .rtc 0 0)

/-- OSC_RESUME (R451). -/
def execOscResume (t : Nat) (s : State) : Res :=
  let s := s.at t
  .next { s with rtc := { s.rtc with oscOff := false } }

/-- The main supply as last seen, in mV (R452, R453). -/
def State.mainAt (s : State) (mv : Nat) : State := { s with rtc := { s.rtc with main := mv } }

/-- The current the trickle charger drives on VBAT, in µA (R453): none unless EN, the domain on the main supply and VBAT below both the
limit and the main supply less 0.15 V. -/
def State.chargeUa (s : State) : Nat :=
  let chg := s.rd (rtcA rRTC_CHG)
  let v := s.fld (rtcA rRTC_VBAT) 11 0
  if chg.getLsbD 31 && !s.bitAt (rtcA rRTC_STAT) 1 && decide (v < (if chg.getLsbD 2 then 3300 else 3000)) && decide (v + 150 < s.rtc.main) then
    [100, 500, 1000, 2000].getD (bits chg 1 0) 0
  else 0

/-- SWITCH_TO_VBAT (R452): main, vbat: the supplies in mV. -/
def execSwitchToVbat (main vbat : BitVec 12) (s : State) : Res :=
  let s := s.mainAt main.toNat
  .next (if 1900 ≤ vbat.toNat ∧ (main.toNat < 2600 ∨ main.toNat < vbat.toNat) ∧ !s.bitAt (rtcA rRTC_STAT) 1 then
      ((s.bump (rtcA rRTC_BAT_CNT) 1).putBit (rtcA rRTC_STAT) 1 true).irq .rtc 0 1
    else s)

/-- SWITCH_TO_MAIN (R452). -/
def execSwitchToMain (main vbat : BitVec 12) (s : State) : Res :=
  let s := s.mainAt main.toNat
  .next (if s.bitAt (rtcA rRTC_STAT) 1 ∧ 2700 ≤ main.toNat ∧ vbat.toNat + 100 ≤ main.toNat then
      (s.putBit (rtcA rRTC_STAT) 1 false).irq .rtc 0 1
    else s)

/-! ### Durations (R443, R444) -/

/-- A stamp in ns. -/
def Stamp.inNs (a : Stamp) : Int := (a.sec * 1000000000 + a.ns : Nat)

/-- The duration from a start stamp to a stop stamp (R443): samples of 31.25 µs; FLAGS. -/
def duration (a b : Stamp) : Nat × Nat :=
  let d := b.inNs - a.inNs
  let stepped := if a.steps = b.steps then 0 else 4
  if d < 0 then (0, 2 + stepped)
  else if d < 31250 then (0, 1 + stepped)
  else ((d / 31250).toNat, stepped)

/-- The duration record (R444). -/
def durationRecord (a b : Stamp) : List Byte :=
  let (n, flags) := duration a b
  toLe 6 a.sec ++ toLe 4 a.ns ++ toLe 6 b.sec ++ toLe 4 b.ns ++ toLe 4 (min n (2 ^ 32 - 1)) ++ toLe 2 flags ++
    toLe 1 ((b.steps + 256 - a.steps % 256) % 256) ++ toLe 5 0

/-- VBAT_MEASUREMENT (R458). -/
def execVbatMeasurement (mv : BitVec 12) (s : State) : Res :=
  let s := s.putF (rtcA rRTC_VBAT) 11 0 mv.toNat
  .next (if mv.toNat < 2200 then s.cause .rtc 0 2 else s)

/-- BACKUP_LOSS (R454, R465, R470): the backup domain restarts; its root area reads as zeroed. -/
def execBackupLoss (t : Nat) (s : State) : Res :=
  let s := s.at t
  let s := { (s.pageOff .rtc 0).pageOff .tamper 0 with rtc := Rtc.off, tamperRun := [] }
  let s := (s.putBit (rtcA rRTC_STAT) 4 true).cause .rtc 0 1
  .next (s.zeroRoot.cause .tamper 0 1)

/-- The TSU's start when NET is turned on (R426). -/
def State.tsuStart (s : State) : State :=
  { s with tsuTime := { TsuTime.off with sec := s.rtcSec, ns := s.rtcFrac * 1000000000 / 32768 } }

end Sys2Proof.Machine
end

