-- ==== Sys2Proof/Machine/Measure.lean ====
section
/-! DEFINITION. Revenue measurement: MEAS, TOTALS and PULSE (08_measurement.md). -/

namespace Sys2Proof.Machine

/-- A window address of MEAS. -/
abbrev measA (o : Nat) : Nat := pa .meas 0 o
/-- A window address of point p. -/
abbrev mpA (p o : Nat) : Nat := pa .mp p o
/-- A window address of TOTALS. -/
abbrev totA (o : Nat) : Nat := pa .totals 0 o
/-- A window address of PULSE. -/
abbrev pulA (o : Nat) : Nat := pa .pulse 0 o

/-! ### Coefficients: staged and in force (R305, R337, R338) -/

/-- Is a register of the MP page staged (R305, R337). -/
def staged (o : Nat) : Bool :=
  o = rMP_CFG || (rMP_VFS ≤ o && o < rMP_KE) || (0x080 ≤ o && o < 0x100 && o % 16 ≠ 12) || (0x400 ≤ o && o < 0x820)

/-- A staged register's value in force. -/
def State.act (s : State) (p o : Nat) : Nat := (look regReset s.meas.act (mpA p o)).toNat

/-- MP_CFG in force. -/
def State.pointEn (s : State) (p : Nat) : Bool := (s.act p rMP_CFG).testBit 31
/-- THREE_WIRE in force. -/
def State.threeWire (s : State) (p : Nat) : Bool := (s.act p rMP_CFG).testBit 30

/-- The phases of a point, or its elements (R294, R311). -/
def State.phases (s : State) (p : Nat) : List Nat := if s.threeWire p then [1, 3] else [1, 2, 3]

/-- A write to the MP page (R305): refused while PENDING where the register is staged. -/
def State.mpWrite (s : State) (q : Requester) (p o : Nat) (v : Word32) : State :=
  s.guarded q (mpA p o) v (staged o && s.bitAt (mpA p rMP_STAT) 31) fun s =>
    if o = rMP_COMMIT then (if bit v 31 then s.putBit (mpA p rMP_STAT) 31 true else s)
    else s.plain (mpA p o) (v.setWidth 64)

/-- MP_COMMIT (R305). -/
def execMpCommit (q : Requester) (p : Fin 16) (s : State) : Res := .next (s.mpWrite q p.val rMP_COMMIT 0x80000000)

/-! ### Samples (R299 to R310) -/

/-- A channel's state. -/
def State.chan (s : State) (c : Nat) : Chan := look (fun _ => Chan.off) s.meas.chans c
/-- A phase's accumulators. -/
def State.phAcc (s : State) (p φ : Nat) : PhAcc := look (fun _ => PhAcc.zero) s.meas.acc (4 * p + φ)
/-- A point in MEAS. -/
def State.mpt (s : State) (p : Nat) : MeasPt := look (fun _ => MeasPt.off) s.meas.pts p
/-- A point in MEAS set. -/
def State.setMpt (s : State) (p : Nat) (x : MeasPt) : State :=
  { s with meas := { s.meas with pts := Machine.store (fun _ => MeasPt.off) s.meas.pts p x } }
/-- A channel's state set. -/
def State.setChan (s : State) (c : Nat) (x : Chan) : State :=
  { s with meas := { s.meas with chans := Machine.store (fun _ => Chan.off) s.meas.chans c x } }
/-- A phase's accumulators set. -/
def State.setAcc (s : State) (p φ : Nat) (x : PhAcc) : State :=
  { s with meas := { s.meas with acc := Machine.store (fun _ => PhAcc.zero) s.meas.acc (4 * p + φ) x } }

/-- A bit of a register array of one bit per channel. -/
def State.chBit (s : State) (o c : Nat) : Bool := s.bitAt (measA (o + 4 * (c / 32))) (c % 32)

/-- A bit of a register array of one bit per channel set or cleared. -/
def State.putCh (s : State) (o c : Nat) (b : Bool) : State := s.putBit (measA (o + 4 * (c / 32))) (c % 32) b

/-- A number held in a signed 32-bit fraction. -/
def frac32 (x : Int) : Int := clampI (-(2 ^ 31)) (2 ^ 31 - 1) x

/-- D_eff of a channel (R303). -/
def State.delayOf (s : State) (p k : Nat) : Nat :=
  let φ := ((s.mpt p).gp.getD k (0, 0)).2
  (clampI 0 262143 ((s.act p (rCH_DELAY + 16 * k) : Int) + rdiv (φ * 2097152) 1000000000)).toNat

/-- G_eff of a channel (R304). -/
def State.gainOf (s : State) (p k : Nat) : Int :=
  let g := ((s.mpt p).gp.getD k (0, 0)).1
  let gain : Int := s.act p (rCH_GAIN + 16 * k)
  clampI 0 (2 ^ 33 - 1) (gain + rdiv (gain * g) 10000000)

/-- The frequency of MCLK_n in Hz (R295, R296); 0 where its MCLK_EN bit is 0: its ball is held low. -/
def State.mclkHz (s : State) (n : Nat) : Nat :=
  if s.domOn 13 && s.bitAt (measA rMEAS_CTRL) (8 + n) then 160000 * s.fld (measA rMEAS_CTRL) 7 0 else 0

/-- A 40-bit register of the sinc filter. -/
def wrap40 (x : Int) : Int := signed 40 (unsigned 40 x)

/-- One MCLK cycle of a channel (R295, R299, R301): the bit stands for +1 or −1 and runs through the integrators; the watch counts. -/
def Chan.clock (c : Chan) (b : Bool) : Chan :=
  let ints := (c.ints.foldl (fun (a : Int × List Int) x => (wrap40 (x + a.1), a.2 ++ [wrap40 (x + a.1)])) (if b then 1 else -1, [])).2
  let turns := b != c.last
  { c with ints, last := b, still := if turns then 0 else c.still + 1
           moved := if turns || 0 < c.moved then c.moved + 1 else 0 }

/-- The reciprocal held for SINC_R, within 10^-9 of the exact one (R299): numerator and denominator. -/
def sincScale (r : Nat) : Nat × Nat :=
  let x := Config.reciprocal r
  if ((x.1 * r ^ 5 : Int) - 2 ^ x.2).natAbs * 1000000000 < 2 ^ x.2 then (x.1, 2 ^ x.2) else (1, r ^ 5)

/-- The combs and the normalisation (R299): one sinc output goes into the FIR filter. -/
def Chan.comb (c : Chan) (r : Nat) : Chan :=
  let (s, combs) := c.combs.foldl (fun (a : Int × List Int) x => (wrap40 (a.1 - x), a.2 ++ [a.1])) (c.ints.getLastD 0, [])
  let x := frac32 (rdiv (s * 2 ^ 31 * (sincScale r).1) (sincScale r).2)
  { c with combs, fir := (x :: c.fir).take 240 }

/-- The MCLK cycles of one sample period, 5 × SINC_R, the first in bit 0 (R296, R299). -/
def Chan.period (c : Chan) (r : Nat) (w : BitVec 780) : Chan :=
  (List.range (5 * r)).foldl (fun c j =>
    let c := c.clock (w.getLsbD j)
    if (j + 1) % r = 0 then c.comb r else c) c

/-- The output of the FIR filter before it saturates (R300): its 240 symmetric taps over the sinc outputs, newest first. -/
def Chan.firOut (c : Chan) (r : Nat) : Int :=
  let h := firTaps r
  rdiv ((c.fir.zipIdx.map (fun e => h.1 (if e.2 < 120 then e.2 else 239 - e.2) * e.1)).sum) (2 ^ h.2)

/-- The samples of a line, newest first, delayed by d in 2^-16 sample (R303): four adjacent samples, the two nearest in the middle where the line has a
newer one. -/
def lagrange (line : List Int) (d : Nat) : Int :=
  let a := d / 65536 - 1
  let sum := ((List.range 4).map (fun j => lagrangeCoef ((d : Int) - 65536 * a) j * line.getD (a + j) 0)).sum
  rdiv sum (2 ^ lagrangeBits)

/-- A word of MEAS's accumulator memory read for a point (R336): an armed error shows in it. -/
def State.accCheck (s : State) (p : Nat) : State :=
  let (e, s) := s.inject .meas 0 0 1
  if e = 1 then s.cause .meas 0 0
  else if e = 2 then (s.cause .meas 0 1).putBit (mpA p rMP_STAT) 19 true else s

/-- An active coefficient word of a point read (R338): an armed error shows in it; the word is used as read. -/
def State.coefCheck (s : State) (p : Nat) : State :=
  let (e, s) := s.inject .mp p 0 1
  if e = 1 then s.cause .mp p 0
  else if e = 2 then (s.cause .mp p 1).putBit (mpA p rMP_STAT) 19 true else s

/-- One channel's sample (R295 to R304); w: the bits of its ball in the sample period. -/
def State.chanSample (s : State) (c : Nat) (w : BitVec 780) : State :=
  let p := c / 8
  let k := c % 8
  let s := s.coefCheck p
  let top : Int := 2 ^ 31 - 1
  let live := s.chBit rMEAS_CH_EN c
  let runs := s.mclkHz (p / 2) ≠ 0
  let ch := if runs then (s.chan c).period (s.fld (measA rMEAS_CTRL) 7 0) w else s.chan c
  let deliver := live && runs && !s.chBit rMEAS_STUCK c
  let x := if deliver then ch.firOut (s.fld (measA rMEAS_CTRL) 7 0) else 0
  let s := if top < x || x < -top then s.putCh rMEAS_OVR c true else s
  let x := clampI (-top) top x
  let line := ((frac32 (x - signed 32 (s.act p (rCH_OFFSET + 16 * k)))) :: ch.line).take 8
  let d := s.delayOf p k
  let x2 := if d % 65536 = 0 then line.getD (d / 65536) 0 else lagrange line d
  let y := if deliver then frac32 (rdiv (x2 * s.gainOf p k) (2 ^ 31)) else 0
  s.setChan c { ch with line, y := (y :: ch.y).take 1025, sum := ch.sum + x, count := ch.count + 1 }

/-- The Hilbert filter over 1,025 samples, newest first (R310): antisymmetric about the sample 512 back. -/
def hilbert (v : List Int) : Int :=
  let h := hilbertTaps
  rdiv (((List.range 512).map (fun i => h.1 (i + 1) * (v.getD (512 + (i + 1)) 0 - v.getD (512 - (i + 1)) 0))).sum) (2 ^ h.2)

/-- The products of one phase (R309, R310), on samples delayed by 512. -/
def State.phaseSample (s : State) (p φ : Nat) : State :=
  let v := (s.chan (8 * p + φ - 1)).y
  let i := (s.chan (8 * p + 3 + φ)).y.getD 512 0
  let v0 := v.getD 512 0
  let s := s.accCheck p
  let a := s.phAcc p φ
  s.setAcc p φ ⟨a.ap + v0 * i, a.aq + hilbert v * i, a.sv + (v0 * v0).toNat, a.si + (i * i).toNat⟩

/-- MEAS_SAMPLE (R295 to R310): one sample period: the bits on the channels' balls; a ball not listed is low. -/
def execMeasSample (xs : List (Fin 128 × BitVec 780)) (t : Nat) (s : State) : Res :=
  let s := s.at t
  .next (if !(s.domOn 13 && s.bitAt (measA 0x00C) 0) then s
    else
      let at_ (c : Nat) : BitVec 780 := ((xs.find? (fun e => e.1.val = c)).map (·.2)).getD 0
      let used := (List.range 128).filter (fun c => s.chBit rMEAS_CH_EN c || s.chan c ≠ Chan.off)
      let s := used.foldl (fun s c => s.chanSample c (at_ c)) s
      if !s.bitAt (measA rMEAS_STAT) 1 then s
      else (List.range 16).foldl (fun s p =>
        if s.pointEn p then
          let s := (s.phases p).foldl (fun s φ => s.phaseSample p φ) s
          s.setMpt p { s.mpt p with n := (s.mpt p).n + 1 }
        else s) s)

/-! ### Start (R317) -/

/-- A write of MEAS BLK_CTRL.EN (R317). -/
def State.measEnable (s : State) (q : Requester) (v : Word32) : State :=
  s.guarded q (measA 0x00C) v false fun s =>
    let was := s.bitAt (measA 0x00C) 0
    let s := s.putBit (measA 0x00C) 0 (bit v 0)
    let s := if bit v 0 then s else s.putBit (measA rMEAS_STAT) 1 false
    if bit v 0 ∧ !was then
      let s := s.putBit (measA rMEAS_STAT) 1 false
      let pts := (List.range 16).map (fun p => (p, { s.mpt p with n := 0, first := true }))
      { s with meas := { s.meas with chans := [], acc := [], pts := pts, started := s.now, stamp := none, run := [] } }
    else s

/-- MEAS_ENABLE (R317). -/
def execMeasEnable (q : Requester) (t : Nat) (s : State) : Res := .next ((s.at t).measEnable q 1)

/-- Is the measurement PLL locked (MEAS_STAT.MPLL_LOCK). -/
def State.mpllLock (s : State) : Bool := s.bitAt (pa .clk 0 rCLK_STAT) 5

/-- MEAS_SETTLED (R317, R318): a second boundary at least 40 ms after the start, with the PLL locked. -/
def execMeasSettled (t : Nat) (s : State) : Res :=
  let s := s.at t
  .next (if s.domOn 13 && s.bitAt (measA 0x00C) 0 && !s.bitAt (measA rMEAS_STAT) 1 && s.mpllLock &&
      s.meas.started + 40000000 ≤ s.now then
      let s := (s.putBit (measA rMEAS_STAT) 1 true).irq .meas 0 0
      { s with meas := { s.meas with acc := [], chans := s.meas.chans.map (fun e => (e.1, { e.2 with sum := 0, count := 0 })) } }
    else s)

/-- SYNT_TRIM (R297). -/
def execSyntTrim (s : State) : Res :=
  .next (if !(s.domOn 13 && s.bitAt (measA rMEAS_CTRL) 16 && s.netOn && s.bitAt (pa .tsu 0 rTSU_STAT) 3) then s
    else
      let (trim, s) := s.roundFree s.tsuFreq 256
      let held := clampI (-200000) 200000 trim
      let s := s.wr (measA rMEAS_SYNT) (BitVec.ofInt 32 held)
      if held ≠ trim then s.cause .meas 0 5 else s)

/-! ### Detected events (R333, R334) -/

/-- The time MEAS stamps with: TSU time, or RTC time while NET is off (R318). -/
def State.measTime (s : State) : Nat × Nat :=
  if s.netOn then (s.tsuTime.sec, s.tsuTime.ns) else (s.rtcSec, s.rtcFrac * 1000000000 / 32768)

/-- The bit of an event in MP_STAT. -/
def eventBit (code phase : Nat) : Nat :=
  if code = 1 then 2 else if code = 2 then 3 else if code = 3 then 3 + phase else if code = 4 then 6 + phase
  else if code = 5 then 17 else if code = 6 then 18 else 15

/-- The key of an event's run. -/
def runKey (p code phase : Nat) : Nat := (p * 16 + code) * 4 + phase

/-- The stamp of an event. -/
def State.measStamp (s : State) : Stamp := ⟨s.measTime.1, s.measTime.2, (s.rd (tsuA rTSU_STEP_CNT)).toNat⟩

/-- An event's stamps and duration (R443, R444): its setting is its start, its clearing its stop. -/
def State.eventStamps (s : State) (k : Nat) (set : Bool) : State :=
  let m := s.meas
  if set then { s with meas := { m with starts := place k s.measStamp (drop m.starts k) } }
  else match m.starts.find? (fun e => e.1 = k) with
    | some a => { s with meas := { m with starts := drop m.starts k, durations := place k (durationRecord a.2 s.measStamp) (drop m.durations k) } }
    | none => s

/-- The setting or clearing of an event reported (R334). -/
def State.measEvent (s : State) (p code phase : Nat) (set : Bool) (value : Nat) : State :=
  let b := eventBit code phase
  let s := s.putBit (mpA p rMP_STAT) b set
  let s := if set then (s.putBit (mpA p rMP_EVT) b true).irq .mp p 0 else s
  let s := s.lanyEvent (if set then 0x28 else 0x29) []
  let s := { s with meas := { s.meas with events := s.meas.events + 1 } }
  let s := (s.setMpt p { s.mpt p with evented := true }).eventStamps (runKey p code phase) set
  let cell := mkCompletion p (s.meas.events % 2 ^ 32)
    [s.measTime.1, s.measTime.2 + code * 2 ^ 32 + phase * 2 ^ 40 + set.toNat * 2 ^ 48, value % 2 ^ 32, 0, 0, 0, 0]
  (s.producedBy 0x0E).foldl (fun s n => if s.splFull n ∨ s.held.any (fun h => h.1 = n) then s else s.commitAt n cell) s

/-- An event's criterion looked at once (R333): want is whether the criterion of the present direction holds; need: how many times in a row;
the deciding value. -/
def State.criterion (s : State) (p code phase : Nat) (setIf clearIf : Bool) (need value : Nat) : State :=
  let is := s.bitAt (mpA p rMP_STAT) (eventBit code phase)
  let k := runKey p code phase
  let run := if (if is then clearIf else setIf) then look (fun _ => 0) s.meas.run k + 1 else 0
  let fire := 0 < run ∧ need ≤ run
  let s := { s with meas := { s.meas with run := Machine.store (fun _ => 0) s.meas.run k (if fire then 0 else run) } }
  if fire then s.measEvent p code phase (!is) value else s

/-- Does a channel become stuck now (R301): 1,024 MCLK cycles without a transition. -/
def State.sticks (s : State) (c : Nat) : Bool :=
  s.domOn 13 && s.bitAt (measA 0x00C) 0 && s.chBit rMEAS_CH_EN c && !s.chBit rMEAS_STUCK c && decide (1024 ≤ (s.chan c).still)

/-- A channel marked stuck; the cycles since transitions resumed are counted from here. -/
def State.markStuck (s : State) (c : Nat) : State :=
  (((s.setChan c { s.chan c with moved := 0 }).putCh rMEAS_STUCK c true).cause .meas 0 3).irq .meas 0 1

/-- CHANNEL_STUCK (R301). -/
def execChannelStuck (c : Fin 128) (s : State) : Res :=
  .next (if !s.sticks c.val then s
    else
      let s := s.markStuck c.val
      if s.bitAt (mpA (c.val / 8) rMP_STAT) 18 then s
      else
        let (w, s) := s.draw
        s.measEvent (c.val / 8) 6 0 true (bits w 31 0))

/-- CHANNEL_STUCK_END (R301): 1,024 cycles after transitions resumed. -/
def execChannelStuckEnd (c : Fin 128) (s : State) : Res :=
  .next (if !s.domOn 13 || !s.chBit rMEAS_STUCK c.val || (s.chan c.val).moved < 1024 then s
    else
      let s := s.putCh rMEAS_STUCK c.val false
      let p := c.val / 8
      if (List.range 8).any (fun k => s.chBit rMEAS_STUCK (8 * p + k)) then s
      else
        let (w, s) := s.draw
        s.measEvent p 6 0 false (bits w 31 0))

/-- The imaginary part of x times the conjugate of y. -/
def crossIm (x y : Int × Int) : Int := x.2 * y.1 - x.1 * y.2

/-- The square of a magnitude. -/
def mag2 (x : Int × Int) : Int := x.1 * x.1 + x.2 * x.2

/-- The square root of num / den as a whole number, rounded by a free bit where it is none (log entry 22). -/
def State.rootFree (s : State) (num den : Nat) : Nat × State :=
  let r := Nat.sqrt (num / max 1 den)
  if r * r * max 1 den = num then (r, s) else let (w, s) := s.draw; (r + (bit w 0).toNat, s)

/-- The runs of a point's event criteria begin again (R333): the line cycles counted are consecutive. -/
def State.dropRuns (s : State) (p : Nat) (codes : List Nat) : State :=
  { s with meas := { s.meas with run := s.meas.run.filter (fun e => !(e.1 / 64 = p && codes.contains (e.1 / 4 % 16))) } }

/-- The run of one event of one phase begins again. -/
def State.dropRun (s : State) (p code phase : Nat) : State :=
  { s with meas := { s.meas with run := s.meas.run.filter (fun e => e.1 ≠ runKey p code phase) } }

/-- Is a phase in voltage loss. -/
def State.lossOf (s : State) (p φ : Nat) : Bool := s.bitAt (mpA p rMP_STAT) (3 + φ)

/-- The reference of the line period (R332): V1, else V2, else V3, whichever is not in voltage loss. -/
def State.lineRef (s : State) (p : Nat) : Option Nat := (s.phases p).find? (fun φ => !s.lossOf p φ)

/-- The line period of a point in 2^-16 sample from its reference, where there is one (R332). -/
def State.linePeriod (s : State) (p : Nat) : Nat := match s.lineRef p with
  | some φ => periodOf (s.chan (8 * p + φ - 1)).y
  | none => 0

/-- Is a period's frequency within 45 to 66 Hz. -/
def lineGood (period : Nat) : Bool := 45 * period ≤ 32000 * 65536 && 32000 * 65536 ≤ 66 * period

/-- The nominal period in 2^-16 sample. -/
def State.nominalPeriod (s : State) (p : Nat) : Nat := 32000 * 65536 / (if (s.act p rMP_CFG).testBit 29 then 60 else 50)

/-- The samples of a line cycle, newest first. -/
def cycleOf (period : Nat) (y : List Int) : List Int := y.take ((period + 32768) / 65536)

/-- The fundamental phasor of a channel over a line cycle by the single-bin transform (R332), in sample sums of 2^-30. -/
def phasor (period : Nat) (y : List Int) : Int × Int :=
  (cycleOf period y).zipIdx.foldl (fun a e =>
    let w := twiddle period e.2
    (a.1 + e.1 * w.1, a.2 + e.1 * w.2)) (0, 0)

/-- The sum of the squares of the samples of a line cycle. -/
def cycleSquares (period : Nat) (y : List Int) : Nat := ((cycleOf period y).map (fun x => (x * x).toNat)).sum

/-- LINE_CYCLE (R332 to R334): a line cycle of a point has ended. Every comparison is exact: magnitudes as squares, the sequence voltages by
9 (|V+|² - |V-|²), which is 2√3 times the sum of the three cross products. In three-wire mode the elements V12 and V32 stand for the line
voltages V12, V23 = -V32 and V31 = V32 - V12. -/
def execLineCycle (p : Fin 16) (t : Nat) (s : State) : Res :=
  let s := s.at t
  let p := p.val
  .next (if !(s.domOn 13 && s.bitAt (measA 0x00C) 0 && s.pointEn p) then s
    else
      let three := s.threeWire p
      let vnom : Int := s.act p rMP_VNOM
      let vfs := s.act p rMP_VFS
      let cfg := s.act p rMP_EVCFG
      let phases := s.phases p
      let measured := s.linePeriod p
      let bad := !lineGood measured
      let period := if bad then s.nominalPeriod p else measured
      let n := (period + 32768) / 65536
      let y (k : Nat) : List Int := (s.chan (8 * p + k)).y
      let s := s.putF (mpA p rMP_FREQ) 16 0 (rdiv (32000 * 65536 * 1000) period).toNat
      let (w, s) := s.draw
      let s := s.criterion p 5 0 bad (!bad) 5 (bits w 31 0)
      let s := if three then (s.dropRun p 2 0).dropRun p 3 2 else s
      if vnom = 0 then s.dropRuns p [1, 2, 3]
      else
        let lossPct : Int := nbits cfg 7 0
        let square (φ : Nat) : Nat := cycleSquares period (y (φ - 1)) * vfs * vfs * 10000
        let level (pct : Int) : Int := pct * vnom * (pct * vnom) * (n * 2 ^ 62 : Nat)
        let s := phases.foldl (fun s φ =>
          let (pct, s) := s.rootFree (square φ * 10000) (n * 2 ^ 62 * vnom.toNat * vnom.toNat)
          s.criterion p 3 φ ((square φ : Int) < level lossPct) (level (lossPct + 5) < (square φ : Int)) 5 pct) s
        if bad then s.dropRuns p [1, 2]
        else
          let u (k : Nat) : Int × Int := phasor period (y k)
          let v1 := u 0
          let v2 : Int × Int := if three then (-(u 2).1, -(u 2).2) else u 1
          let v3 : Int × Int := if three then ((u 2).1 - (u 0).1, (u 2).2 - (u 0).2) else u 2
          let dot (x y : Int × Int) : Int := x.1 * y.1 + x.2 * y.2
          let seq := crossIm v1 v2 + crossIm v2 v3 + crossIm v3 v1
          let base := mag2 v1 + mag2 v2 + mag2 v3 - (dot v1 v2 + dot v2 v3 + dot v3 v1)
          -- 9 |V+|² or 9 |V-|², whichever is the larger
          let larger := (base + (Nat.sqrt (3 * seq * seq).toNat : Int)).toNat
          let scale (m2 : Nat) : Nat := 2 * m2 * vfs * vfs * 100000000
          let unit : Nat := n * n * 2 ^ 122 * vnom.toNat * vnom.toNat
          let clear := !(phases.any (fun φ => s.lossOf p φ))
          let (value, s) := s.rootFree (scale larger) (9 * unit)
          let s := s.criterion p 1 0 (seq < 0 && clear) (0 < seq) 5 value
          if three then s
          else
            let nPct : Int := nbits cfg 15 8
            let zPct : Int := nbits cfg 23 16
            let vn := mag2 (u 3)
            let zero := mag2 (v1.1 + v2.1 + v3.1, v1.2 + v2.2 + v3.2)
            let volts (m2 : Int) : Int := 2 * m2 * (vfs * vfs * 10000 : Nat)
            let bound (k pct : Int) : Int := pct * vnom * k * (pct * vnom * k) * (n * n * 2 ^ 122 : Nat)
            let above (m2 k pct : Int) : Bool := pct < 0 || bound k pct < volts m2
            let below (m2 k pct : Int) : Bool := 0 ≤ pct && volts m2 < bound k pct
            let byZero := s.bitAt (mpA p rMP_STAT) 3 && !below vn 1 (nPct - 2)
            let (value, s) := if byZero then s.rootFree (scale zero.toNat) (9 * unit) else s.rootFree (scale vn.toNat) unit
            s.criterion p 2 0 (above vn 1 nPct && above zero 3 zPct) (below vn 1 (nPct - 2) || below zero 3 (zPct - 2)) 10 value)

/-! ### Quantities of a second (R311 to R314) -/

/-- The raw quantities of a point (R311): P, Q, S. -/
def State.raw (s : State) (p : Nat) : Int × Int × Nat :=
  let accs := (s.phases p).map (fun φ => s.phAcc p φ)
  let pp := accs.foldl (fun a x => a + x.ap) 0
  let qq := accs.foldl (fun a x => a + x.aq) 0
  (pp, qq, if s.threeWire p then Nat.sqrt (pp * pp + qq * qq).toNat else accs.foldl (fun a x => a + Nat.sqrt (x.sv * x.si)) 0)

/-- MP_KE in force. -/
def State.keOf (s : State) (p : Nat) : Nat := (s.rd64 (mpA p rMP_KE)).toNat

/-- The no-load test of one kind of energy (R314): thr is the threshold register; f the phase's sum. -/
def State.noLoad (s : State) (p thr : Nat) (f : PhAcc → Int) : Bool :=
  let t := s.act p thr
  t ≠ 0 && (s.phases p).all (fun φ => (f (s.phAcc p φ)).natAbs * s.keOf p / 2 ^ 64 * 3600 < t * 2 ^ 32)

/-- The slots and magnitudes of the second (R312), with what the no-load test leaves out (R314). -/
def State.bookings (s : State) (p : Nat) : List (Nat × Nat) :=
  let (pp, qq, ss) := s.raw p
  let cp := s.noLoad p rMP_NOLOAD_P (·.ap)
  let cq := s.noLoad p rMP_NOLOAD_Q (·.aq)
  let act := if 0 ≤ pp then 0 else 1
  let rea := if 0 ≤ qq then (if 0 ≤ pp then 2 else 3) else (if 0 ≤ pp then 5 else 4)
  let app := if 0 ≤ pp then 6 else 7
  (if cp then [] else [(act, pp.natAbs)]) ++ (if cq then [] else [(rea, qq.natAbs)]) ++ (if cp && cq then [] else [(app, ss)])

/-- The per-second registers of a phase (R314, R337). -/
def State.showPhase (s : State) (p φ : Nat) : State :=
  let a := s.phAcc p φ
  let n := max 1 (s.mpt p).n
  let vfs := s.act p rMP_VFS
  let ifs := s.act p rMP_IFS
  let o := 16 * (φ - 1)
  let (v, s) := s.rootFree (a.sv * vfs * vfs) (n * 2 ^ 62)
  let (i, s) := s.rootFree (a.si * ifs * ifs) (n * 2 ^ 62)
  let (pw, s) := s.roundFree (a.ap * (vfs * ifs : Nat)) (n * 2 ^ 62 * 1000000)
  let (qw, s) := s.roundFree (a.aq * (vfs * ifs : Nat)) (n * 2 ^ 62 * 1000000)
  (((s.wr (mpA p (rPH_VRMS + o)) (BitVec.ofNat 32 v)).wr (mpA p (rPH_IRMS + o)) (BitVec.ofNat 32 i)).wr
    (mpA p (rPH_P + o)) (BitVec.ofInt 32 pw)).wr (mpA p (rPH_Q + o)) (BitVec.ofInt 32 qw)

/-- The sum of Irms² over the phases for one transfer, in 2^-10 A²·s (R327). -/
def State.currentSquare (s : State) (p : Nat) : Nat × State :=
  let n := max 1 (s.mpt p).n
  let ifs := s.act p rMP_IFS
  let si := ((s.phases p).map (fun φ => (s.phAcc p φ).si)).sum
  let (x, s) := s.roundFree (si * ifs * ifs * 2 ^ 10 : Nat) (n * 2 ^ 62 * 1000000)
  (x.toNat, s)

/-! ### Temperature (R306 to R308) -/

/-- One coefficient of a temperature table (R308): at, the entry's field; u, the temperature above -40 °C in 1/16 °C. -/
def tableAt (entry : Nat → Int) (u : Nat) : Int :=
  let i := min 31 (u / 80)
  let r := u - 80 * i
  entry i + rdiv ((entry (i + 1) - entry i) * r) 80

/-- The gain and phase of a channel at a temperature (R308, R338). -/
def State.tempTable (s : State) (p k : Nat) (t16 : Int) : Int × Int :=
  let u := (clampI 0 2560 (t16 + 640)).toNat
  let word (j : Nat) := s.act p (rMP_TTAB + 132 * k + 4 * j)
  (tableAt (fun j => signed 16 (nbits (word j) 15 0)) u, tableAt (fun j => signed 16 (nbits (word j) 31 16)) u)

/-- The selected source of a point (R306): its value and its age where it has ever been valid. -/
def State.tempSource (s : State) (p : Nat) : Option (Int × Nat) :=
  if (s.act p rMP_CFG).testBit 8 then
    let slot := nbits (s.act p rMP_CFG) 23 16
    (look (fun _ => none) s.meas.sbusAge slot).map
      (fun age => (signed 16 (bits (s.bk (pa .sbus 0 rSB_SLOT_VAL) slot) 15 0), age))
  else look (fun _ => none) s.meas.hostTemp p

/-- The temperature for the coming second (R307). -/
def State.takeTemp (s : State) (p : Nat) : State :=
  let src := s.tempSource p
  let age := (src.map (·.2)).getD 4095
  let near := nbits (s.act p rMP_CFG) 3 0
  let fromDie := signed 16 (s.fld (pa .sens 0 (rSENS_T + 4 * near)) 15 0)
  let subst := 600 < age
  let t := if subst then fromDie else (src.map (·.1)).getD 0
  let code := if subst then 2 else if (s.act p rMP_CFG).testBit 8 then 1 else 0
  let held := clampI (-640) 1920 t
  let stale := if age ≤ 60 then false else if age ≤ 600 then true else s.bitAt (mpA p rMP_STAT) 14
  let s := ((s.putBit (mpA p rMP_STAT) 14 stale).putBit (mpA p rMP_STAT) 16 (held ≠ t)).wr (mpA p rMP_TEMP)
    (BitVec.ofNat 32 (unsigned 16 held + code * 2 ^ 16 + min 4095 age * 2 ^ 20))
  let s := s.setMpt p { s.mpt p with gp := (List.range 8).map (fun k => s.tempTable p k held) }
  if s.bitAt (mpA p rMP_STAT) 15 = subst then s
  else
    let (w, s) := s.draw
    let s := if subst then s.lanyEvent 0x2A [] else s
    s.measEvent p 7 0 subst (bits w 31 0)

/-- Every source a transfer older (R306). -/
def State.ageTemps (s : State) : State :=
  let m := s.meas
  { s with meas := { m with
      hostTemp := m.hostTemp.map (fun e => (e.1, e.2.map (fun x => (x.1, min 4095 (x.2 + 1)))))
      sbusAge := m.sbusAge.map (fun e => (e.1, e.2.map (fun x => min 4095 (x + 1)))) } }

/-- A write of MEAS_TEMP_HOST_p (R306). -/
def State.hostTempWrite (s : State) (q : Requester) (p : Nat) (v : Word32) : State :=
  s.guarded q (measA (rMEAS_TEMP_HOST + 4 * p)) v false fun s =>
    let s := s.plain (measA (rMEAS_TEMP_HOST + 4 * p)) (v.setWidth 64)
    if bit v 31 then
      { s with meas := { s.meas with
          hostTemp := Machine.store (fun _ => none) s.meas.hostTemp p (some (signed 16 (bits v 15 0), 0)) } }
    else s

/-- A write of MEAS_CTRL or MEAS_CH_EN_n (R336): SINC_R and the channel enables only while EN is 0. -/
def State.measWrite (s : State) (q : Requester) (o : Nat) (v : Word32) : State :=
  let en := s.bitAt (measA 0x00C) 0
  s.guarded q (measA o) v (en && (o ≠ rMEAS_CTRL || s.fld (measA rMEAS_CTRL) 7 0 ≠ bits v 7 0)) fun s =>
    s.plain (measA o) (v.setWidth 64)

/-! ### Totals, demand and copies (R279, R281, R313, R319 to R326) -/

/-- A point in TOTALS. -/
def State.tpt (s : State) (p : Nat) : TotPt := look (fun _ => TotPt.off) s.totals.pts p
/-- A point in TOTALS set. -/
def State.setTpt (s : State) (p : Nat) (x : TotPt) : State :=
  { s with totals := { s.totals with pts := Machine.store (fun _ => TotPt.off) s.totals.pts p x } }

/-- A total, 9q + e, in 2^-32 milli-unit. -/
def TotPt.total (x : TotPt) (i : Nat) : Nat := look (fun _ => 0) x.tot i

/-- A magnitude booked to a slot (R313, R319): the increment in 2^-32 milli-unit. -/
def TotPt.book (x : TotPt) (q mag ke : Nat) : Nat × TotPt :=
  let prod := mag * ke + look (fun _ => 0) x.resid q
  let inc := prod / 2 ^ 64
  let add (t : List (Nat × Nat)) (i : Nat) := Machine.store (fun _ => 0) t i ((look (fun _ => 0) t i + inc) % 2 ^ 96)
  (inc, { x with
    tot := add (add x.tot (9 * q + x.rate)) (9 * q)
    resid := Machine.store (fun _ => 0) x.resid q (prod % 2 ^ 64)
    cur := if q = 0 then (x.cur.1 + inc, x.cur.2) else if q = 1 then (x.cur.1, x.cur.2 + inc) else x.cur })

/-- DEMAND_SUBPERIOD_END (R281): the demand of the last DM_N sub-periods in mW, against the maxima of the rate and of e = 0. -/
def TotPt.subperiod (x : TotPt) (sub n sec : Nat) : TotPt :=
  let subs := (x.cur :: x.subs).take 60
  let count := min 65535 (x.dmCount + 1)
  let dem (f : Nat × Nat → Nat) : Nat := ((subs.take n).map f).sum * 3600 / (n * sub * 2 ^ 32)
  let d := (dem (·.1), dem (·.2))
  let one (m : List (Nat × (Nat × Nat))) (i v : Nat) : List (Nat × (Nat × Nat)) :=
    if (look (fun _ => (0, 0)) m i).1 < v then Machine.store (fun _ => (0, 0)) m i (v % 2 ^ 48, sec) else m
  let x := { x with cur := (0, 0), subs := subs, dmCount := count, demand := d }
  if count < n then x
  else { x with max := one (one (one (one x.max x.rate d.1) 0 d.1) (9 + x.rate) d.2) 9 d.2 }

/-- The list entry's key of a point (R340). -/
def swKey (p e : Nat) : Nat := e * 256 + p

/-- The switch list consumed for a second that starts at a time (R319): the entries at or before it, the latest giving the rate. -/
def State.consume (s : State) (p start : Nat) : State :=
  let a := totA rTOT_SW_DATA
  let due := (List.range 64).filter (fun e => bit (s.bk a (swKey p e)) 63 && bits (s.bk a (swKey p e)) 47 0 ≤ start)
  let best := due.foldl (fun (b : Option Nat) e =>
    match b with
    | none => some e
    | some f => if bits (s.bk a (swKey p f)) 47 0 ≤ bits (s.bk a (swKey p e)) 47 0 then some e else some f) none
  match best with
  | none => s
  | some e =>
    let s1 := s.setTpt p { s.tpt p with rate := bits (s.bk a (swKey p e)) 50 48 + 1 }
    due.foldl (fun s e => s.setBk a (swKey p e) (Sys2Proof.putBit (s.bk a (swKey p e)) 63 false)) s1

/-- An output's ball at its idle level while PULSE owns it. -/
def State.pulseIdle (s : State) (p : Nat) (level : Bool) : State :=
  if s.domOn 2 && s.pmxFunc p = 2 then s.ballLevel p level else s

/-- What an output has accumulated when a transfer begins (R326, R331): a change of QTY has set it to 0; clear: TOT_CLEAR does. -/
def State.pulseBegin (s : State) (p : Nat) (clear : Bool) : State :=
  if !s.domOn 2 then s
  else
    let q := bits (s.rd (pulA (rPUL_CFG + 16 * p))) 3 0
    let c := look (fun _ => PulseCh.off) s.pulses p
    let c := { c with acc := if clear || c.qty ≠ q then 0 else c.acc, qty := q, k := 0, done := 0, base := s.now }
    { s with pulses := Machine.store (fun _ => PulseCh.off) s.pulses p c }

/-- PULSE_COMPUTE (R329, R330): incs are the increments of the slots in 2^-32 milli-unit. -/
def State.pulseCompute (s : State) (p : Nat) (incs : List (Nat × Nat)) (clear : Bool) : State :=
  let s := s.pulseBegin p clear
  let cfg := s.rd (pulA (rPUL_CFG + 16 * p))
  if !(s.domOn 2 && s.bitAt (pulA 0x00C) 0 && bit cfg 31) then s
  else
    let c := look (fun _ => PulseCh.off) s.pulses p
    let w := max 1 (s.rd (pulA (rPUL_WEIGHT + 16 * p))).toNat * 2 ^ 32
    let acc := c.acc + ((incs.find? (fun e => e.1 = c.qty)).map (·.2)).getD 0
    let k := min (acc / w) 500
    let acc := acc - k * w
    let wms := bits cfg 24 16
    let per := if k = 0 then 1000000 else 1000000 / k
    let width := if 2 * wms * 1000 ≤ per then wms * 1000 else per / 2
    let backlog := min (acc / w) (2 ^ 32 - 1)
    let was := (s.rd (pulA (rPUL_BACKLOG + 16 * p))).toNat
    let s := { s with pulses := Machine.store (fun _ => PulseCh.off) s.pulses p ⟨acc, c.qty, k, width, bit cfg 30, 0, s.now⟩ }
    let s := s.wr (pulA (rPUL_BACKLOG + 16 * p)) (BitVec.ofNat 32 backlog)
    let s := if was = 0 ∧ backlog ≠ 0 then (s.cause .pulse 0 0).irq .pulse 0 0 else s
    s.pulseIdle p (bit cfg 30)

/-- A point's block of the copy (R320). -/
def State.pointBlock (s : State) (p : Nat) : List Byte :=
  let x := s.tpt p
  let st := s.rd (mpA p rMP_STAT)
  let flags := (bit st 12).toNat + (bit st 13).toNat * 2 + (bit st 15).toNat * 4 + (bit st 19).toNat * 8
  (List.range 72).flatMap (fun i => toLe 8 (x.total i / 2 ^ 32) ++ toLe 4 (x.total i % 2 ^ 32)) ++
  (List.range 18).flatMap (fun i => toLe 6 (look (fun _ => (0, 0)) x.max i).1 ++ toLe 6 (look (fun _ => (0, 0)) x.max i).2) ++
  [BitVec.ofNat 8 x.rate, BitVec.ofNat 8 flags] ++ toLe 2 x.dmCount ++ toLe 4 0

/-- A copy's image (R320). -/
def State.copyImage (s : State) (tseq points sec flags : Nat) : List Byte :=
  let body := toLe 4 tseq ++ toLe 2 1 ++ toLe 2 points ++ toLe 8 sec ++ toLe 4 flags ++ List.replicate 44 0 ++
    (List.range 16).flatMap (fun p => s.pointBlock p)
  body ++ toLe 4 tseq ++ toLe 4 (crc32 body) ++ toLe 8 0

/-- Where a copy lies on the die (R320). -/
def copyAt (c : Nat) : Nat := c * 0x8000

/-- Is a copy complete (R322). -/
def State.copyComplete (s : State) (c : Nat) : Bool :=
  let b := s.bytes .fram (copyAt c) 0x4440
  s.le .fram (copyAt c) 4 = s.le .fram (copyAt c + 0x4440) 4 && s.le .fram (copyAt c + 0x4444) 4 = crc32 b

/-- The newer complete copy (R322). -/
def State.newerCopy (s : State) : Option Nat :=
  let a := s.copyComplete 0
  let b := s.copyComplete 1
  if a && b then
    some (if 0 < signed 32 ((s.le .fram (copyAt 1) 4 + 2 ^ 32 - s.le .fram (copyAt 0) 4) % 2 ^ 32) then 1 else 0)
  else if a then some 0 else if b then some 1 else none

/-- Total i of point p in a copy: COUNT, FRAC. -/
def State.copyTotal (s : State) (c p i : Nat) : Nat × Nat :=
  let a := copyAt c + 0x40 + 1088 * p + 12 * i
  (s.le .fram a 8, s.le .fram (a + 8) 4)

/-- Maximum i of point p in a copy: mW and capture second. -/
def State.copyMax (s : State) (c p i : Nat) : Nat × Nat :=
  let a := copyAt c + 0x40 + 1088 * p + 0x360 + 12 * i
  (s.le .fram a 6, s.le .fram (a + 6) 6)

/-- A point as a copy holds it (R323). -/
def State.copyPoint (s : State) (c p : Nat) : TotPt :=
  let put {α : Type} [DecidableEq α] (d : α) (f : Nat → α) (n : Nat) : List (Nat × α) :=
    (List.range n).foldl (fun m i => Machine.store (fun _ => d) m i (f i)) []
  { TotPt.off with
    tot := put 0 (fun i => (s.copyTotal c p i).1 * 2 ^ 32 + (s.copyTotal c p i).2) 72
    max := put (0, 0) (fun i => s.copyMax c p i) 18
    rate := s.le .fram (copyAt c + 0x40 + 1088 * p + 0x438) 1 }

/-- TOT_STAT and TOT_TSEQ brought up to the newer complete copy. -/
def State.showCopies (s : State) : State :=
  match s.newerCopy with
  | some c => (s.putBit (totA rTOT_STAT) 0 (c = 1)).wr (totA rTOT_TSEQ) (BitVec.ofNat 32 (s.le .fram (copyAt c) 4))
  | none => s

/-- TOTALS restored when SYS is turned on (R323). -/
def State.totRestore (s : State) : State :=
  match s.newerCopy with
  | some c =>
    let pts := (List.range 16).foldl (fun m p => Machine.store (fun _ => TotPt.off) m p (s.copyPoint c p)) []
    let s := { s with totals := { Totals.off with pts := pts, tseq := s.le .fram (copyAt c) 4, last := c } }
    ((s.putBit (totA rTOT_STAT) 1 true).irq .totals 0 0).showCopies
  | none =>
    let pts := (List.range 16).map (fun p => (p, { TotPt.off with lost := true }))
    let s := { s with totals := { Totals.off with pts := pts } }
    (((s.putBit (totA rTOT_STAT) 2 true).cause .totals 0 3).irq .totals 0 1).lanyEvent 0x2B []

/-- A working-total word in error (R324, R339): corrected, or its point reloaded from the newer complete copy. -/
def State.totCheck (s : State) (p : Nat) : State :=
  let (e, s) := s.inject .totals 0 0 1
  if e = 1 then s.cause .totals 0 0
  else if e = 2 then
    let s := s.cause .totals 0 1
    match s.newerCopy with
    | some c => s.setTpt p { s.copyPoint c p with
        dmCount := (s.tpt p).dmCount, cur := (s.tpt p).cur, subs := (s.tpt p).subs, resid := (s.tpt p).resid }
    | none => (s.setTpt p { s.tpt p with lost := true }).cause .totals 0 3
  else s

/-! ### The transfer (R315 to R319, R325 to R329) -/

/-- The staged coefficients of a point taken into force (R305, R313). -/
def State.commitPoint (s : State) (p : Nat) : State :=
  if !s.bitAt (mpA p rMP_STAT) 31 then s
  else
    let os := (List.range 0x820).filter (fun o => o % 4 = 0 && staged o)
    let act := os.foldl (fun m o => Machine.store regReset m (mpA p o) (s.rd (mpA p o))) s.meas.act
    let s := { s with meas := { s.meas with act := act } }
    let ke := (rdiv (2 ^ 34 * s.act p rMP_VFS * s.act p rMP_IFS : Nat) 115200000000).toNat % 2 ^ 64
    let s := if ke ≠ s.keOf p then s.setTpt p { s.tpt p with resid := [] } else s
    let s := (s.wr64 (mpA p rMP_KE) (BitVec.ofNat 64 ke)).setMpt p { s.mpt p with bad := false }
    ((s.putBit (mpA p rMP_STAT) 31 false).putBit (mpA p rMP_STAT) 19 false).irq .mp p 1

/-- The FLAGS of a transfer of a point in its summaries (R327). -/
def State.transferFlags (s : State) (p : Nat) (isPartial stepped unlocked : Bool) : Nat :=
  let st := s.rd (mpA p rMP_STAT)
  let event := bits st 9 2 ≠ 0 || bit st 15 || bit st 17 || bit st 18 || (s.mpt p).evented
  (bit st 12 || bit st 13).toNat + (bit st 14).toNat * 2 + (bit st 15).toNat * 4 + unlocked.toNat * 8 + stepped.toNat * 16 +
  (bit st 18).toNat * 32 + event.toNat * 64 + isPartial.toNat * 128 + (s.tpt p).lost.toNat * 256 + (bit st 19).toNat * 512

/-- Reverse power (R333): a phase's P below the threshold, exactly. -/
def State.reverseTest (s : State) (p φ : Nat) : State :=
  let rev := s.act p rMP_REV_W
  if rev = 0 then s.dropRun p 4 φ
  else
    let n := max 1 (s.mpt p).n
    let below := (s.phAcc p φ).ap * (s.act p rMP_VFS * s.act p rMP_IFS : Nat) < -((rev * n * 2 ^ 62 * 1000 : Nat) : Int)
    s.criterion p 4 φ below (!below) (nbits (s.act p rMP_EVCFG) 31 24) (s.rd (mpA p (rPH_P + 16 * (φ - 1)))).toNat

/-- One point's part of a transfer: what MEAS converts and TOTALS books. -/
def State.transferPoint (s : State) (p sec start : Nat) (isPartial stepped unlocked : Bool) : State :=
  let s := (s.accCheck p).coefCheck p
  let s := (s.phases p).foldl (fun s φ => s.showPhase p φ) s
  let s := (s.phases p).foldl (fun s φ => s.reverseTest p φ) (if s.threeWire p then s.dropRun p 4 2 else s)
  let s := (s.putBit (mpA p rMP_STAT) 12 (s.noLoad p rMP_NOLOAD_P (·.ap))).putBit (mpA p rMP_STAT) 13
    (s.noLoad p rMP_NOLOAD_Q (·.aq))
  let s := s.consume p start
  let r := (s.bookings p).foldl (fun (a : List (Nat × Nat) × TotPt) b =>
    let (inc, x) := a.2.book b.1 b.2 (s.keOf p)
    (a.1 ++ [(b.1, inc)], x)) ([], s.tpt p)
  let s := s.setTpt p r.2
  let sub := s.fld (totA rTOT_DM_CFG) 15 0
  let s := if start / sub < sec / sub then s.setTpt p ((s.tpt p).subperiod sub (s.fld (totA rTOT_DM_CFG) 23 16) sec) else s
  let s := s.pulseCompute p r.1 false
  let (i2, s) := s.currentSquare p
  let fl := s.transferFlags p isPartial stepped unlocked
  let x := s.mpt p
  let st := s.rd (mpA p rMP_STAT)
  s.setMpt p { x with
    covered := x.covered + 1, flags := x.flags ||| fl, i2 := x.i2 + i2, creep := x.creep + (bit st 12).toNat
    subst := x.subst + (bit st 15).toNat, event := x.event + (fl.testBit 6).toNat, lastFlags := fl, lastI2 := i2
    lastCreep := bit st 12, evented := false }

/-- A point summary cell (R327). -/
def State.summaryCell (s : State) (p sec kind index covered flags i2 creep subst event : Nat) : Cell512 :=
  mkCompletion p (s.totals.tseq % 2 ^ 32)
    [sec + kind * 2 ^ 48, index % 2 ^ 32 + covered % 2 ^ 16 * 2 ^ 32 + flags % 2 ^ 16 * 2 ^ 48, (s.tpt p).total 0 / 2 ^ 32,
     (s.tpt p).total 9 / 2 ^ 32, i2, creep % 2 ^ 32 + subst % 2 ^ 32 * 2 ^ 32, event % 2 ^ 32]

/-- The interval values of a transfer (R327): built at the first transfer at or after a boundary, none at or before the last sent (R316). -/
def State.intervalCells (s : State) (sec : Nat) (en : List Nat) : State :=
  match s.meas.due with
  | none => s
  | some (fin, index) =>
    if !s.netOn || sec < fin then s
    else if s.meas.sent.any (fun e => fin ≤ e) then { s with meas := { s.meas with due := none } }
    else
      let s := en.foldl (fun s p =>
        let x := s.mpt p
        let fl := x.flags ||| (if x.first then 128 else 0)
        let cell := s.summaryCell p sec 1 index x.covered fl x.i2 x.creep x.subst x.event
        let s := s.setMpt p { x with covered := 0, flags := 0, i2 := 0, creep := 0, subst := 0, event := 0, first := false }
        let s := s.setTpt p { s.tpt p with lost := false }
        { s with meas := { s.meas with ready := s.meas.ready ++ [cell] } }) s
      { s with meas := { s.meas with due := none, sent := some fin } }

/-- The registers of phase 2, which read 0 in three-wire mode (R337). -/
def State.hidePhase2 (s : State) (p : Nat) : State := [0, 4, 8, 12].foldl (fun s o => s.wr (mpA p (0x110 + o)) 0) s

/-- What follows a transfer of a point for the coming second (R305, R307, R311): accumulators cleared, coefficients, temperature. -/
def State.nextSecond (s : State) (p : Nat) : State :=
  let s := (List.range 8).foldl (fun s k =>
    let ch := s.chan (8 * p + k)
    if ch = Chan.off then s.wr (mpA p (rCH_DC + 16 * k)) 0
    else
      let (dc, s) := s.roundFree ch.sum (max 1 ch.count)
      (s.wr (mpA p (rCH_DC + 16 * k)) (BitVec.ofInt 32 dc)).setChan (8 * p + k) { ch with sum := 0, count := 0 }) s
  let s := [1, 2, 3].foldl (fun s φ => s.setAcc p φ PhAcc.zero) s
  let was := s.pointEn p
  let s := (s.setMpt p { s.mpt p with n := 0 }).commitPoint p
  let s := if s.threeWire p then s.hidePhase2 p else s
  if !s.pointEn p then s
  else (if was then s else s.dropRuns p [1, 2, 3, 4, 5]).takeTemp p

/-- The totals that TOT_CLEAR selects set to 0, and the demand counts that TOT_DM_CFG restarts, of every point (R326, R340). -/
def State.clearPoints (s : State) : State :=
  (List.range 16).foldl (fun s p =>
    let s := if s.totals.clear.testBit p then
      (s.setTpt p { s.tpt p with tot := [], max := [], resid := [], dmCount := 0 }).pulseBegin p true else s
    if s.totals.dmRestart then s.setTpt p { s.tpt p with dmCount := 0 } else s) s

/-- What a transfer shows of a point beside its totals (R280): the demands of c = 1 and 2, the phases' voltages, currents and powers. -/
def State.shotOf (s : State) (p : Nat) : List Nat :=
  [(s.tpt p).demand.1, (s.tpt p).demand.2] ++ [rPH_VRMS, rPH_IRMS, rPH_P].flatMap (fun r =>
    [1, 2, 3].map (fun φ => (s.rd (mpA p (r + 16 * (φ - 1)))).toNat))

/-- A transfer (R315, R318, R319, R325): every enabled point booked, the copy not written last time started. -/
def State.transfer (s : State) (isPartial : Bool) : State :=
  if !(s.domOn 13 && s.domOn 1 && s.bitAt (measA 0x00C) 0 && s.bitAt (measA rMEAS_STAT) 1 && s.mpllLock) then s
  else
    let sec := s.measTime.1
    let start := s.meas.stamp.getD (sec - 1)
    let unlocked := !(s.netOn && s.bitAt (pa .tsu 0 rTSU_STAT) 3)
    let stepped := s.meas.stepped
    let en := (List.range 16).filter (fun p => s.pointEn p)
    let tseq := (s.totals.tseq + 1) % 2 ^ 32
    let s := (en.foldl (fun s p => s.totCheck p) s).clearPoints
    let s := en.foldl (fun s p => s.transferPoint p sec start isPartial stepped unlocked) s
    let s := { s with totals := { s.totals with tseq := tseq, clear := 0, dmRestart := false } }
    let s := s.wr (measA rMEAS_TSEQ) (BitVec.ofNat 32 tseq)
    let points := en.foldl (fun m p => m + 2 ^ p) 0
    let image := s.copyImage tseq points sec (isPartial.toNat + stepped.toNat * 2 + unlocked.toNat * 4)
    let c := 1 - s.totals.last
    let s := s.setLe .fram (copyAt c + 0x4440) 4 ((s.le .fram (copyAt c) 4 + 1) % 2 ^ 32)
    let shot := (List.range 16).flatMap (fun p => s.shotOf p)
    let s := { s with totals := { s.totals with
      writing := some (c, image, isPartial), last := c, shots := place c shot (drop s.totals.shots c) } }
    let s := s.putBit (totA rTOT_STAT) 3 true
    let s := if isPartial then s else s.intervalCells sec en
    let s := (List.range 16).foldl (fun s p => s.nextSecond p) s.ageTemps
    let s := { s with meas := { s.meas with stepped := false, stamp := some sec } }
    s.setTimer (measA rMEAS_STAT) (s.now + 10000)

/-- ONE_SECOND_TRANSFER (R315, R316, R318). -/
def execOneSecondTransfer (t : Nat) (s : State) : Res := .next ((s.at t).transfer false)

/-- A copy's write ends (R321): fails, the read-backs that differ. -/
def State.copyEnd (s : State) (fails : Nat) : State :=
  match s.totals.writing with
  | none => s
  | some (c, image, isPartial) =>
    let s := s.setBytes .fram (copyAt c) image
    let s := if fails = 0 then s else s.cause .totals 0 2
    let ok := fails < 2
    let s := if ok then s else s.setLe .fram (copyAt c + 0x4440) 4 ((leAt image 0 4 + 1) % 2 ^ 32)
    let s := { s with totals := { s.totals with writing := none, copyOk := ok, snapDue := ok && !isPartial } }
    ((s.putBit (totA rTOT_STAT) 3 false).bumpMod (totA rTOT_WR_CNT) 1).showCopies

/-- A copy's write ends and the port is free for the writes that wait (R34). -/
def State.copyWritten (s : State) (fails : Nat) : State := (s.copyEnd fails).dieServe

/-- TOTALS_COPY_WRITTEN (R321). -/
def execTotalsCopyWritten (fails : Fin 3) (s : State) : Res := .next (s.copyWritten fails.val)

/-- INTERVAL_VALUE_PUSH (R327): the cells built go out once the copy is complete; at most 32 of a point wait. -/
def execIntervalValuePush (s : State) : Res :=
  .next (if s.bitAt (totA rTOT_STAT) 3 || !s.totals.copyOk || s.meas.ready = [] then s
    else
      let cells := s.meas.ready
      let s := { s with meas := { s.meas with ready := [] } }
      match s.producedBy 0x0D with
      | [] => s
      | n :: _ => cells.foldl (fun s c =>
        let mine (h : Nat × Cell512) : Bool := h.1 = n && cellChan h.2 = cellChan c
        let s := if 32 ≤ s.held.countP mine ∧ s.splFull n then
            let s := { s with held := s.held.eraseP mine }
            (s.bump (measA rMEAS_IVL_DROP) 1).cause .meas 0 4
          else s
        s.offer n c) s)

/-- A snapshot message of a point (R328) from the newer copy. -/
def State.snapshotCells (s : State) (c p : Nat) : List Cell512 :=
  let sec := s.le .fram (copyAt c + 8) 6
  let x := s.mpt p
  let block := s.bytes .fram (copyAt c + 0x40 + 1088 * p) 1088
  let head := mkCell (mkHeader true false 56 p (s.le .fram (copyAt c) 4) ::
    [sec + 2 * 2 ^ 48, 2 ^ 32 + x.lastFlags % 2 ^ 16 * 2 ^ 48, (s.copyTotal c p 0).1, (s.copyTotal c p 9).1, x.lastI2,
     x.lastCreep.toNat + (x.lastFlags / 4 % 2) * 2 ^ 32, x.lastFlags / 64 % 2])
  head :: (List.range 20).map (fun i =>
    let part := (block.drop (56 * i)).take 56
    BitVec.ofNat 512 (mkHeader false (i = 19) part.length p (s.le .fram (copyAt c) 4) + leNat part * 2 ^ 64))

/-- SNAPSHOT_MESSAGE (R328): one message per enabled point after a complete copy, or a skip where 21 cells have no room. -/
def execSnapshotMessage (s : State) : Res :=
  .next (match s.newerCopy, s.producedBy 0x13 with
    | some c, n :: _ =>
      if !s.totals.snapDue then s
      else
        let points := s.le .fram (copyAt c + 6) 2
        let s := (List.range 16).foldl (fun s p =>
          if !points.testBit p then s
          else if s.space n < 21 then (s.bump (totA rTOT_SNAP_SKIP) 1).cause .totals 0 4
          else s.offerAll n (s.snapshotCells c p)) s
        { s with totals := { s.totals with snapDue := false } }
    | _, _ => { s with totals := { s.totals with snapDue := false } })

/-! ### PULSE (R330, R331) -/

/-- An output's ball driven while PULSE owns it, else NO_BALL (R331). -/
def State.pulseDrive (s : State) (p : Nat) (level : Bool) : State :=
  if s.pmxFunc p = 2 then s.ballLevel p level else s.cause .pulse 0 1

/-- When pulse j of the transfer starts (R330), in ns: at j × T. -/
def PulseCh.startOf (c : PulseCh) (j : Nat) : Nat := c.base + j * (1000000 / max 1 c.k) * 1000

/-- PULSE_START (R330, R331): the next pulse of the transfer, once its moment has come. -/
def execPulseStart (p : Fin 16) (t : Nat) (s : State) : Res :=
  let s := s.at t
  let c := look (fun _ => PulseCh.off) s.pulses p.val
  .next (if !(s.domOn 2 && s.bitAt (pulA 0x00C) 0) || c.k ≤ c.done || s.now < c.startOf c.done then s
    else
      let s := { s with pulses := Machine.store (fun _ => PulseCh.off) s.pulses p.val { c with done := c.done + 1 } }
      ((s.bumpMod (pulA (rPUL_COUNT + 16 * p.val)) 1).setTimer (pulA (rPUL_COUNT + 16 * p.val))
        (c.startOf c.done + c.width * 1000)).pulseDrive p.val (!c.invert))

/-- PULSE_END (R330): a pulse ends when its width has passed. -/
def execPulseEnd (p : Fin 16) (t : Nat) (s : State) : Res :=
  let s := s.at t
  let c := look (fun _ => PulseCh.off) s.pulses p.val
  let a := pulA (rPUL_COUNT + 16 * p.val)
  .next (if s.timer a = 0 ∨ s.now < s.timer a then s else (s.setTimer a 0).pulseIdle p.val c.invert)

/-- A write of PUL_CFG_p (R331, R682). -/
def State.pulseCfg (s : State) (q : Requester) (p : Nat) (v : Word32) : State :=
  s.guarded q (pulA (rPUL_CFG + 16 * p)) v false fun s =>
    let s := s.plain (pulA (rPUL_CFG + 16 * p)) (v.setWidth 64)
    if bit v 31 then
      let (ok, s) := s.blockClaim p 2
      if ok then s else s.cause .pulse 0 1
    else s.blockRelease p 2

/-- A write of PUL_WEIGHT_p (R341): 0 stores 1. -/
def State.pulseWeight (s : State) (q : Requester) (p : Nat) (v : Word32) : State :=
  s.guarded q (pulA (rPUL_WEIGHT + 16 * p)) v false fun s => s.wr (pulA (rPUL_WEIGHT + 16 * p)) (if v = 0 then 1 else v)

/-- PULSE_CONFIG_WRITE (R331, R341). -/
def execPulseConfigWrite (q : Requester) (p : Fin 16) (v : BitVec 32) (s : State) : Res := .next (s.pulseCfg q p.val v)

/-! ### The TOTALS page (R326, R339, R340) -/

/-- A write of TOT_CLEAR (R326). -/
def State.totClear (s : State) (q : Requester) (v : Word32) : State :=
  s.guarded q (totA rTOT_CLEAR) v (bit v 31 && 2 ≤ s.lcs) fun s =>
    if bit v 31 then { s with totals := { s.totals with clear := s.totals.clear ||| bits v 15 0 } } else s

/-- TOT_CLEAR (R326). -/
def execTotClear (q : Requester) (mask : BitVec 16) (s : State) : Res :=
  .next (s.totClear q (BitVec.ofNat 32 (2 ^ 31 + mask.toNat)))

/-- A write of TOT_SEL (R340): SNAP loads a total or maximum from the newer complete copy. -/
def State.totSel (s : State) (q : Requester) (v : Word32) : State :=
  s.guarded q (totA rTOT_SEL) v false fun s =>
    let s := s.plain (totA rTOT_SEL) (v.setWidth 64)
    match bit v 31, s.newerCopy with
    | true, some c =>
      let i := s.fld (totA rTOT_SEL) 14 8
      let p := s.fld (totA rTOT_SEL) 3 0
      let x := if i < 72 then s.copyTotal c p i else s.copyMax c p (i - 72)
      ((s.wr64 (totA rTOT_COUNT) (BitVec.ofNat 64 x.1)).wr64 (totA rTOT_AUX) (BitVec.ofNat 64 x.2)).wr (totA rTOT_SNAP_SEQ)
        (BitVec.ofNat 32 (s.le .fram (copyAt c) 4))
    | _, _ => s

/-- TOT_SNAP (R340). -/
def execTotSnap (q : Requester) (p : Fin 16) (index : Fin 90) (s : State) : Res :=
  .next (s.totSel q (BitVec.ofNat 32 (2 ^ 31 + index.val * 256 + p.val)))

/-- A commit of TOT_SW_DATA (R340): the selected entry written, the entry field advanced. -/
def State.totSwData (s : State) (q : Requester) (v : Word64) : State :=
  s.guarded q (totA rTOT_SW_DATA) (v.extractLsb' 0 32) false fun s =>
    let s := s.plain (totA rTOT_SW_DATA) v
    s.putF (totA rTOT_SW_SEL) 13 8 ((s.fld (totA rTOT_SW_SEL) 13 8 + 1) % 64)

/-- TOT_SWITCH_WRITE (R340). -/
def execTotSwitchWrite (q : Requester) (v : BitVec 64) (s : State) : Res := .next (s.totSwData q v)

/-- A write of TOT_DM_CFG (R340). -/
def State.totDmCfg (s : State) (q : Requester) (v : Word32) : State :=
  let sub := bits v 15 0
  let n := bits v 23 16
  s.guarded q (totA rTOT_DM_CFG) v (sub = 0 || 3600 % sub ≠ 0 || n = 0 || 60 < n) fun s =>
    let s := s.plain (totA rTOT_DM_CFG) (v.setWidth 64)
    { s with totals := { s.totals with dmRestart := true } }

/-- TOT_DM_CONFIG (R340). -/
def execTotDmConfig (q : Requester) (sub : BitVec 16) (n : BitVec 8) (s : State) : Res :=
  .next (s.totDmCfg q (BitVec.ofNat 32 (n.toNat * 65536 + sub.toNat)))

/-- PLL_UNLOCK (R336, R635): the PLL of domain d, which is no lay's, loses lock, or locks again. -/
def execPllUnlock (d : Fin 17) (locked : Bool) (s : State) : Res :=
  let d := d.val + 1
  .next (if 3 ≤ d ∧ d ≤ 10 then s
    else if locked then (if s.domOn d then s.putBit (pa .clk 0 rCLK_STAT) (lockBit d) true else s)
    else
      let s := s.putBit (pa .clk 0 rCLK_STAT) (lockBit d) false
      if d = 13 ∧ s.domOn 13 then
        let s := (s.clkCause 2).cause .meas 0 2
        { s with meas := { s.meas with stepped := true } }
      else s.clkCause 2)

end Sys2Proof.Machine
end

