-- ==== Sys2Proof/Machine/Crypto.lean ====
section
/-! DEFINITION. The job pages of the crypto engines (R479, R485, R490 to R492): AEAD, HASH and the Lanyard's PKE jobs. What a
job does to slots happens with its command, what it writes to memory with its end; RESULT and BUSY change when it ends (log entry 15). -/

namespace Sys2Proof.Machine

/-- The condition an engine's own memory shows a job: an uncorrectable word ends it. -/
def State.engineWord (s : State) (p : Pg) : Bool × State :=
  let (c, s) := s.inject p 0 0 1
  (c = 2, if c = 1 then s.cause p 0 0 else if c = 2 then s.cause p 0 1 else s)

/-- A job: BUSY at once, RESULT at its end. -/
def State.job (s : State) (p : Pg) (cmd : Nat) (q : Requester) (v : Word32) (run : State → Nat × State) : State :=
  s.guarded q (pa p 0 cmd) v (bit v 31 && s.bitAt (pa p 0 (cmd + 4)) 31) fun s =>
    if bit v 31 ∧ s.bitAt (pa p 0 0x00C) 0 then
      let (r, s) := run s
      s.startJob (pa p 0 (cmd + 4)) r
    else s

/-! ### AEAD (R490, R491) -/

/-- The fields of an AEAD parameter block (R490). -/
structure Param where
  iv : List Byte
  tag : List Byte
  aad : Nat
  tagLen : Nat
  good : Bool

/-- A parameter block read: every byte that is no field is zero. -/
def paramOf (l : List Byte) : Param :=
  ⟨(l.take 16).take (l.getD 48 0).toNat, ((l.drop 16).take 16).take (l.getD 49 0).toNat, leAt l 32 4, (l.getD 49 0).toNat,
    ((l.drop 36).take 12).all (· = 0) && (l.drop 50).all (· = 0) && (l.getD 48 0).toNat ≤ 16 && (l.getD 49 0).toNat ≤ 16⟩

/-- Are the nonce and tag lengths those the mode takes (SP 800-38C, SP 800-38D; PRESUMED, log entry 9). -/
def paramFits (op : Nat) (p : Param) : Bool :=
  let n := p.iv.length
  let t := p.tagLen
  p.good && (if op ≤ 2 then 1 ≤ n && 4 ≤ t
    else if op ≤ 4 then 7 ≤ n && n ≤ 13 && (t = 0 || (4 ≤ t && t % 2 = 0))
    else if op = 6 then n = 16 else true)

/-- One AEAD operation on its source: RESULT, what is written at the destination, and the tag. -/
def aeadRun (op : Nat) (key : List Byte) (p : Param) (src : List Byte) : Nat × List Byte × List Byte :=
  let a := src.take p.aad
  let m := src.drop p.aad
  match op with
  | 1 => let c := gcmText key p.iv m
         (0, c, (gcmTag key p.iv a c).take p.tagLen)
  | 2 => if (gcmTag key p.iv a m).take p.tagLen = p.tag then (0, gcmText key p.iv m, p.tag)
         else (1, List.replicate m.length 0, p.tag)
  | 3 => (0, ccmText key p.iv m, ccmTag p.tagLen key p.iv a m)
  | 4 => let t := ccmText key p.iv m
         if ccmTag p.tagLen key p.iv a t = p.tag then (0, t, p.tag) else (1, List.replicate m.length 0, p.tag)
  | 5 => (0, cmac key src, p.tag)
  | _ => (0, ctrMode key 16 p.iv m, p.tag)

/-- The status register of the AEAD page. -/
def aeadStat : Nat := pa .aead 0 rJOB_STAT

/-- The status register of the HASH page. -/
def hashStat : Nat := pa .hash 0 rJOB_STAT

/-- The status register of the PKE page. -/
def pkeStat : Nat := pa .pke 0 rPKE_STAT

/-- An AEAD register. -/
def State.aeadReg (s : State) (o : Nat) : Nat := (s.rd (pa .aead 0 o)).toNat

/-- An AEAD job of op 1 to 6 (R490): the key under engine 12, the parameter block, the source, the operation. -/
def State.aeadJob (s : State) (op slot : Nat) : Nat × State :=
  if s.kat .aead then (4, s)
  else if 2 ^ 24 < s.aeadReg rJOB_LEN then (5, s)
  else
    let (bad, s) := s.engineWord .aead
    if bad then (3, s)
    else
      let s := ((s.readSlot slot).2).defer aeadStat 0 []
      match s.useSlot slot 12 1 false with
      | some st => (2, s.afterUse slot (some st))
      | none =>
        let par := s.aeadReg rJOB_PAR * 64
        let (pl, ue, s) := s.ddrGet par 64
        let p := paramOf pl
        if ue then (3, s)
        else if !paramFits op p then (5, s)
        else
          let (src, ue, s) := s.ddrGet (s.aeadReg rJOB_SRC * 64) (s.aeadReg rJOB_LEN + p.aad)
          if ue then (3, s)
          else
            let (r, out, tag) := aeadRun op (s.slot slot).bytes p src
            let s := s.defer aeadStat (s.aeadReg rJOB_DST * 64) out
            (r, if op = 1 ∨ op = 3 then s.defer aeadStat (par + 16) tag else s)

/-- A SELFTEST job: ok: the tests pass. -/
def State.testJob (s : State) (p : Pg) (kat : Nat) (ok : Bool) : Nat × State := (if ok then 0 else kat, s.selfTest p ok)

/-- A write of the AEAD page's JOB_CMD; ok serves a SELFTEST. An OP of no operation ends MALFORMED. -/
def State.aeadCmd (s : State) (q : Requester) (v : Word32) (ok : Bool) : State :=
  s.job .aead rJOB_CMD q v fun s =>
    let op := bits v 3 0
    if op = 7 then s.testJob .aead 4 ok
    else if op = 0 ∨ 7 < op then (5, s) else s.aeadJob op (bits v 27 16)

/-- The word that orders a job on a slot. -/
def jobWord (op : Nat) (slot : BitVec 12) : Word32 := BitVec.ofNat 32 (2 ^ 31 + slot.toNat * 2 ^ 16 + op)

/-- AEAD_GCM_ENCRYPT (R490). -/
def execAeadGcmEncrypt (q : Requester) (slot : BitVec 12) (s : State) : Res := .next (s.aeadCmd q (jobWord 1 slot) true)
/-- AEAD_GCM_DECRYPT (R490, R491). -/
def execAeadGcmDecrypt (q : Requester) (slot : BitVec 12) (s : State) : Res := .next (s.aeadCmd q (jobWord 2 slot) true)
/-- AEAD_CCM_ENCRYPT (R490). -/
def execAeadCcmEncrypt (q : Requester) (slot : BitVec 12) (s : State) : Res := .next (s.aeadCmd q (jobWord 3 slot) true)
/-- AEAD_CCM_DECRYPT (R490, R491). -/
def execAeadCcmDecrypt (q : Requester) (slot : BitVec 12) (s : State) : Res := .next (s.aeadCmd q (jobWord 4 slot) true)
/-- AEAD_CMAC (R490). -/
def execAeadCmac (q : Requester) (slot : BitVec 12) (s : State) : Res := .next (s.aeadCmd q (jobWord 5 slot) true)
/-- AEAD_CTR (R490). -/
def execAeadCtr (q : Requester) (slot : BitVec 12) (s : State) : Res := .next (s.aeadCmd q (jobWord 6 slot) true)
/-- AEAD_SELFTEST (R479). -/
def execAeadSelftest (q : Requester) (ok : Bool) (s : State) : Res := .next (s.aeadCmd q (jobWord 7 0) ok)

/-! ### HASH (R490) -/

/-- A HASH job of op 1 or 2. -/
def State.hashJob (s : State) (op : Nat) : Nat × State :=
  let len := (s.rd (pa .hash 0 rJOB_LEN)).toNat
  if s.kat .hash then (4, s)
  else if 2 ^ 24 < len then (5, s)
  else
    let (bad, s) := s.engineWord .hash
    let s := s.defer hashStat 0 []
    let (src, ue, s) := s.ddrGet ((s.rd (pa .hash 0 rJOB_SRC)).toNat * 64) len
    if bad ∨ ue then (3, s)
    else (0, s.defer hashStat ((s.rd (pa .hash 0 rJOB_DST)).toNat * 64) (if op = 1 then sha256 src else sha384 src))

/-- A write of the HASH page's JOB_CMD. -/
def State.hashCmd (s : State) (q : Requester) (v : Word32) (ok : Bool) : State :=
  s.job .hash rJOB_CMD q v fun s =>
    let op := bits v 3 0
    if op = 7 then s.testJob .hash 4 ok else if op = 1 ∨ op = 2 then s.hashJob op else (5, s)

/-- HASH_SHA256 (R490). -/
def execHashSha256 (q : Requester) (s : State) : Res := .next (s.hashCmd q (jobWord 1 0) true)
/-- HASH_SHA384 (R490). -/
def execHashSha384 (q : Requester) (s : State) : Res := .next (s.hashCmd q (jobWord 2 0) true)
/-- HASH_SELFTEST (R479). -/
def execHashSelftest (q : Requester) (ok : Bool) (s : State) : Res := .next (s.hashCmd q (jobWord 7 0) ok)

/-- JOB_DONE (R490): hash: of the HASH page, else of the AEAD page; what the job wrote is in DDR with it, in a host slot (R33). -/
def execJobDone (hash : Bool) (s : State) : Res := .next (s.endJob (pa (if hash then .hash else .aead) 0 rJOB_STAT))

/-! ### PKE jobs of the Lanyard (R485, R492) -/

/-- A number of the 240-byte buffer (R478): 0 HASH, 1 QX, 2 QY, 3 r, 4 s. -/
def bufNum (l : List Byte) (i : Nat) : Nat := beNat ((l.drop (48 * i)).take 48)

/-- The curve of an EC slot. -/
def KeySlot.curve (x : KeySlot) : Curve := if x.type = 3 then p256 else p384

/-- The public point of a private scalar. -/
def Curve.pub (c : Curve) (d : Nat) : Nat × Nat := (c.affine (c.mul d (c.gx, c.gy))).getD (0, 0)

/-- Two numbers written in the buffer from number i on. -/
def State.bufPut (s : State) (buf i : Nat) (v : Nat × Nat) : State := s.defer pkeStat (buf + 48 * i) (toBe 48 v.1 ++ toBe 48 v.2)

/-- A signature of the maker's over the message of R485 for a target byte and a challenge: the key's hash is OTP slot 5's, and r and s
verify; else the status of the job. -/
def State.makerVerify (s : State) (q : Nat × Nat) (r sg target : Nat) (chal : List Byte) : Nat :=
  let serial : Word64 := if s.otp.badSerial then 0 else s.otp.serial
  let msg : List Byte := [0x4C, 0x43, 0x53, 0x31] ++ toBe 8 serial.toNat ++ toBe 1 target ++ chal
  if p384.p ≤ q.1 ∨ p384.p ≤ q.2 then 2
  else if !p384.on q then 3
  else if s.otp.hash 5 ≠ some (BitVec.ofNat 384 (beNat (sha384 (p384.sec1 q)))) then 1
  else if p384.verify q (sha384 msg) r sg then 0 else 1

/-- VERIFY_LCS's checks (R485). -/
def State.lcsVerify (s : State) (l : List Byte) : Nat :=
  s.makerVerify (bufNum l 1, bufNum l 2) (bufNum l 3) (bufNum l 4) (s.fld (lcsA rLCS_STAT) 6 4)
    ((List.range 8).flatMap (fun i => toLe 4 (s.rd (lcsA (rLCS_CHAL + 4 * i))).toNat))

/-- SIGN: r and s over HASH under a nonce of the DRBG. -/
def State.pkeSign (s : State) (buf slot : Nat) (l : List Byte) : Nat × State :=
  match s.useSlot slot 8 1 true with
  | some st => (4, s.afterUse slot (some st))
  | none =>
    let x := s.slot slot
    let c := x.curve
    let (k, s) := s.random 56
    match c.sign x.scalar (leNat k % (c.n - 1) + 1) ((l.take 48).drop (48 - c.bytes)) with
    | none => (2, s)
    | some v => (0, s.bufPut buf 3 v)

/-- KEYGEN: a private key of KEY_ARG.TYPE, USE DIRECT, with KEY_MASK and KEY_GEN_IN, under the root; QX and QY. A slot that takes
no key, an invalid root or no random output ends KEY. -/
def State.pkeKeygen (s : State) (buf slot : Nat) : Nat × State :=
  let type := s.fld (pa .key 0 rKEY_ARG) 18 16
  let gen := (s.keyArg rKEY_GEN_IN).toNat
  if type ≠ 3 ∧ type ≠ 4 then (2, s)
  else if s.targetSlot slot gen ≠ 0 ∨ s.root.id = 0 ∨ !s.drbgOk then (4, s)
  else
    let (k, s) := s.random 56
    let c := if type = 3 then p256 else p384
    let d := leNat k % (c.n - 1) + 1
    let s := s.placeKey slot ⟨type, 1, false, rootParent, s.root.id, gen, (s.keyArg rKEY_MASK).toNat, 0, scalarMaterial type d, 1⟩
    (0, s.bufPut buf 1 (c.pub d))

/-- PUBKEY. -/
def State.pkePubkey (s : State) (buf slot : Nat) : Nat × State :=
  match s.useSlot slot 8 1 true with
  | some st => (4, s.afterUse slot (some st))
  | none => (0, s.bufPut buf 1 ((s.slot slot).curve.pub (s.slot slot).scalar))

/-- The derived key of a shared secret (R492): of a 32-byte secret by R466; the spec does not say how a 48-byte one keys the
PRF, so that key is a free value. -/
def State.ecdhKey (s : State) (z : List Byte) : List Byte × State :=
  if z.length = 32 then (derive z (s.rd (pa .pke 0 rPKE_LABEL)).toNat (List.replicate 8 0) true, s) else s.random 32

/-- ECDH: the peer key in the buffer, the derived AES-256 key into the target slot, which engine 9 has to be able to use as a DERIVE slot: a USE
or a MASK that does not let it ends KEY (R462; DEDUCED, log entry 15). -/
def State.pkeEcdh (s : State) (slot : Nat) (l : List Byte) : Nat × State :=
  let dst := s.rd (pa .pke 0 rPKE_DST)
  let t := bits dst 11 0
  let use := bits dst 31 30
  let gen := (s.keyArg rKEY_GEN_IN).toNat
  match s.useSlot slot 8 1 true with
  | some st => (4, s.afterUse slot (some st))
  | none =>
    let c := (s.slot slot).curve
    let q := (bufNum l 1, bufNum l 2)
    if use = 0 ∨ c.p ≤ q.1 ∨ c.p ≤ q.2 then (2, s)
    else if !c.on q then (3, s)
    else if use ≠ 2 ∨ !bit (s.keyArg rKEY_MASK) 9 then (4, s)
    else if s.kat .kdf then (5, s)
    else if s.targetSlot t gen ≠ 0 ∨ s.root.id = 0 then (4, s)
    else match c.affine (c.mul (s.slot slot).scalar q) with
      | none => (2, s)
      | some z =>
        let (k, s) := s.ecdhKey (toBe c.bytes z.1)
        (0, s.placeKey t ⟨2, use, false, rootParent, s.root.id, gen, (s.keyArg rKEY_MASK).toNat, 0, material k, 1⟩)

/-- VERIFY_LCS: a valid signature sets AUTH for 10 s. -/
def State.pkeLcs (s : State) (l : List Byte) : Nat × State :=
  let r := s.lcsVerify l
  (r, if r = 0 then ((s.putBit (lcsA rLCS_STAT) 8 true).setTimer (lcsA rLCS_AUTH_LEFT) (s.now + 10000000000)).irq .lcs 0 0 else s)

/-- A PKE job of op 1 to 7. -/
def State.pkeJob (s : State) (op slot : Nat) : Nat × State :=
  let buf := (s.rd (pa .pke 0 rPKE_BUF)).toNat * 64
  if s.kat .pke then (5, s)
  else
    let (bad, s) := s.engineWord .pke
    let s := s.defer pkeStat 0 []
    let (l, ue, s) := s.ddrGet buf 240
    let s := if 3 ≤ op ∧ op ≤ 6 then (s.readSlot slot).2 else s
    if bad ∨ ue then (2, s)
    else match op with
      | 1 => (verifyStatus 1 l, s)
      | 2 => (verifyStatus 2 l, s)
      | 3 => s.pkeSign buf slot l
      | 4 => s.pkeKeygen buf slot
      | 5 => s.pkePubkey buf slot
      | 6 => s.pkeEcdh slot l
      | 7 => s.pkeLcs l
      | _ => (2, s)

/-- How many slots of the frame a PKE job takes (R477): a P-384 operation three in a row. -/
def State.pkeSlots (s : State) (op slot : Nat) : Nat :=
  let type := if op = 4 then s.fld (pa .key 0 rKEY_ARG) 18 16 else (s.slot slot).type
  if op = 2 ∨ op = 7 ∨ (3 ≤ op ∧ op ≤ 6 ∧ type = 4) then 3 else 1

/-- A write of PKE_CMD; ok serves a SELFTEST. The job runs in the slots of the frame coded 0x8 that come from now on (R477). -/
def State.pkeCmd (s : State) (q : Requester) (v : Word32) (ok : Bool) : State :=
  s.job .pke rPKE_CMD q v fun s =>
    let s := { s with rig := { s.rig with pkeRun := 0, pkeNeed := s.pkeSlots (bits v 3 0) (bits v 27 16) } }
    if bits v 3 0 = 8 then s.testJob .pke 5 ok else s.pkeJob (bits v 3 0) (bits v 27 16)

/-- PKE_VERIFY256 (R492). -/
def execPkeVerify256 (q : Requester) (s : State) : Res := .next (s.pkeCmd q (jobWord 1 0) true)
/-- PKE_VERIFY384 (R492). -/
def execPkeVerify384 (q : Requester) (s : State) : Res := .next (s.pkeCmd q (jobWord 2 0) true)
/-- PKE_SIGN (R492). -/
def execPkeSign (q : Requester) (slot : BitVec 12) (s : State) : Res := .next (s.pkeCmd q (jobWord 3 slot) true)
/-- PKE_KEYGEN (R492). -/
def execPkeKeygen (q : Requester) (slot : BitVec 12) (s : State) : Res := .next (s.pkeCmd q (jobWord 4 slot) true)
/-- PKE_PUBKEY (R492). -/
def execPkePubkey (q : Requester) (slot : BitVec 12) (s : State) : Res := .next (s.pkeCmd q (jobWord 5 slot) true)
/-- PKE_ECDH (R492). -/
def execPkeEcdh (q : Requester) (slot : BitVec 12) (s : State) : Res := .next (s.pkeCmd q (jobWord 6 slot) true)
/-- PKE_VERIFY_LCS (R485). -/
def execPkeVerifyLcs (q : Requester) (s : State) : Res := .next (s.pkeCmd q (jobWord 7 0) true)
/-- PKE_SELFTEST (R479). -/
def execPkeSelftest (q : Requester) (ok : Bool) (s : State) : Res := .next (s.pkeCmd q (jobWord 8 0) ok)

/-- Has the Lanyard's job had its slots of the frame (R477); while the frames stand there are none to wait for (DESIGN CHOICE, log entry 34). -/
def State.pkeTurn (s : State) : Bool := !s.rig.frames || s.rig.pkeNeed ≤ s.rig.pkeRun

/-- PKE_JOB_DONE (R477, R492). -/
def execPkeJobDone (s : State) : Res :=
  .next (if s.bitAt pkeStat 31 && s.pkeTurn && s.jobTurn pkeStat then (s.endJob pkeStat).bumpMod (pa .pke 0 rPKE_DONE_CNT) 1 else s)

end Sys2Proof.Machine
end

