-- ==== Sys2Proof/Machine/MeterTable.lean ====
section
/-! DEFINITION. The meter table and its index in DDR (R254 to R265): finding a meter by its system title, reading an entry, writing a
region under the sequence rule. -/

namespace Sys2Proof.Machine

/-- The window address of a METERDB register. -/
def mdbA (o : Nat) : Nat := pa .meterdb 0 o

/-- The DDR address of entry i (R254). -/
def State.entryAddr (s : State) (i : Nat) : Nat := s.fld (mdbA rMDB_TBL_BASE) 23 0 * 65536 + 512 * i

/-- The DDR address of bucket k of the index: home buckets, then overflow buckets (R255). -/
def State.bucketAddr (s : State) (k : Nat) : Nat := s.fld (mdbA rMDB_IDX_BASE) 23 0 * 65536 + 64 * k

/-- The mix of a title (R255): title byte 0 in bits 7:0. -/
def mixTitle (t : Word64) : Word64 :=
  let m := t ^^^ (t >>> 31)
  let m := m * 0x6B2FC395A17E0D4B
  let m := m ^^^ (m >>> 29)
  let m := m * 0xD1C47A3925E86F27
  m ^^^ (m >>> 32)

/-- The home bucket of a title. -/
def homeOf (t : Word64) : Nat := bits (mixTitle t) 20 0

/-- The tag of a title. -/
def tagOf (t : Word64) : Nat := bits (mixTitle t) 63 21

/-- A bucket read (R256): word 0, and the slots. -/
def State.bucket (s : State) (k : Nat) : Nat × (Nat → Nat) :=
  (s.le .ddr (s.bucketAddr k) 8, fun j => s.le .ddr (s.bucketAddr k + 8 * (1 + j)) 8)

/-- The slot in use of a bucket that has a tag. -/
def State.slotOf (s : State) (k tag : Nat) : Option Nat :=
  let (w, e) := s.bucket k
  (List.range 7).find? (fun j => w.testBit j && nbits (e j) 63 21 = tag)

/-- The meter index in a slot of a bucket. -/
def State.slotIndex (s : State) (k j : Nat) : Nat := nbits ((s.bucket k).2 j) 19 0

/-- The overflow bucket of a home bucket, numbered on after the home buckets, where it has one. -/
def State.overflowOf (s : State) (home : Nat) : Option Nat :=
  let w := (s.bucket home).1
  if w.testBit 7 then some (2097152 + nbits w 19 8) else none

/-- The bucket and slot that hold a title's tag (R257 steps 1 and 2). -/
def State.findSlot (s : State) (t : Word64) : Option (Nat × Nat) :=
  match s.slotOf (homeOf t) (tagOf t) with
  | some j => some (homeOf t, j)
  | none => match s.overflowOf (homeOf t) with
    | none => none
    | some k => (s.slotOf k (tagOf t)).map (fun j => (k, j))

/-- The 512 bytes of an entry, read through the checks of DDR; none where a word is uncorrectable. -/
def State.readEntry (s : State) (i : Nat) : Option (List Byte) × State :=
  let (l, ue, s) := s.ddrGet (s.entryAddr i) 512
  (if ue then none else some l, s)

/-- Is an entry VALID (R262). -/
def entryValid (e : List Byte) : Bool := (leAt e 0x084 4).testBit 31

/-- The words of the buckets of a title read through the checks of DDR (R256, R706): is one uncorrectable. -/
def State.bucketCheck (s : State) (t : Word64) : Bool × State :=
  let (c, s) := s.ddrCheck (s.bucketAddr (homeOf t)) 64
  match s.overflowOf (homeOf t) with
  | none => (c = 2, s)
  | some k => let (d, s) := s.ddrCheck (s.bucketAddr k) 64
              (decide (c = 2) || decide (d = 2), s)

/-- The meter of a title with its entry (R257); none too where a word of its buckets or its entry is uncorrectable. -/
def State.findMeter (s : State) (t : Word64) : Option (Nat × List Byte) × State :=
  let (ue, s) := s.bucketCheck t
  match if ue then none else s.findSlot t with
  | none => (none, s)
  | some (k, j) =>
    let i := s.slotIndex k j
    match s.readEntry i with
    | (some e, s) => (if entryValid e ∧ leAt e 0x088 8 = t.toNat then some (i, e) else none, s)
    | (none, s) => (none, s)

/-- The regions of an entry (R259): offset and length of D, S and F. -/
def regionSpan (r : Nat) : Nat × Nat := if r = 0 then (0, 0x80) else if r = 1 then (0x80, 0x100) else (0x180, 0x80)

/-- A region written by a writer with a new sequence word in both copies (R265). -/
def State.writeRegion (s : State) (i r writer : Nat) (l : List Byte) : State :=
  let (o, n) := regionSpan r
  let a := s.entryAddr i + o
  let w := toLe 4 ((s.le .ddr a 4 / 256 + 1) % 2 ^ 24 * 256 + writer)
  s.ddrPut a (w ++ (l.take (n - 4)).drop 4 ++ w)

/-- Bytes of a list replaced at an offset. -/
def patch (l : List Byte) (o : Nat) (v : List Byte) : List Byte := l.take o ++ v ++ l.drop (o + v.length)

end Sys2Proof.Machine
end

