-- ==== Sys2Proof/Machine/Readout.lean ====
section
/-! DEFINITION. The reading path in the lays (R235 to R250): validation and the record, the durable acknowledgement, and readout by
query. -/

namespace Sys2Proof.Machine

/-! ### The security header (R213, R235): its coding is IEC 62056-5-3's and IEC 62056-46's (PRESUMED, log entry 34) -/

/-- The security header of a protected APDU: the system title where it carries one, the security control byte, the invocation counter, the
text and the tag of 12 bytes. -/
structure SecHdr where
  title : Option Word64
  sc : Nat
  ctr : Nat
  text : List Byte
  tag : List Byte

/-- A length field, and what follows it. -/
def berLen (l : List Byte) : Option (Nat × List Byte) :=
  let b := be l 0 1
  if l = [] then none
  else if b < 128 then some (b, l.drop 1)
  else if b = 0x81 ∧ 2 ≤ l.length then some (be l 1 1, l.drop 2)
  else if b = 0x82 ∧ 3 ≤ l.length then some (be l 1 2, l.drop 3)
  else none

/-- Length, security control byte, invocation counter, text and tag. -/
def secBody (title : Option Word64) (l : List Byte) : Option SecHdr :=
  match berLen l with
  | none => none
  | some (n, t) =>
    if n ≠ t.length ∨ n < 17 then none else some ⟨title, be t 0 1, be t 1 4, (t.drop 5).take (n - 17), t.drop (n - 12)⟩

/-- The security header of a reading's bytes (R213): general-glo-ciphering, or the global ciphering of an event notification request or of a
get-response, in a wrapper or after an LLC header. -/
def secOf (l : List Byte) : Option SecHdr :=
  let a := if be l 0 2 = 1 then l.drop 8 else if l.take 3 = llcHeader then l.drop 3 else l
  if be a 0 2 = 0xDB08 then (if a.length < 10 then none else secBody (some (BitVec.ofNat 64 (leNat ((a.drop 2).take 8)))) (a.drop 10))
  else if be a 0 1 = 0xCA ∨ be a 0 1 = 0xCC then secBody none (a.drop 1)
  else none

/-- The protection R213 accepts: suite 0 or 1, authenticated, not compressed, the unicast key set. -/
def SecHdr.accepted (h : SecHdr) : Bool := h.sc % 16 ≤ 1 && h.sc.testBit 4 && !h.sc.testBit 6 && !h.sc.testBit 7

/-- The service that protection hides, as IEC 62056-5-3 tags it: a data-notification, an event-notification-request or a get-response-normal; no
other is accepted (R213). -/
def SecHdr.serviceOk (h : SecHdr) (key : List Byte) (title : Word64) : Bool :=
  let l := if h.sc.testBit 5 then gcmText key (toLe 8 title.toNat ++ toBe 4 h.ctr) h.text else h.text
  be l 0 1 = 0x0F || be l 0 1 = 0xC2 || be l 0 2 = 0xC401

/-- Does the AES-GCM tag verify (R235 check 1), under a key, an authentication key where there is one, and a system title. -/
def SecHdr.tagOk (h : SecHdr) (key ak : List Byte) (title : Word64) : Bool :=
  let iv := toLe 8 title.toNat ++ toBe 4 h.ctr
  let aad := toBe 1 h.sc ++ ak
  decide ((if h.sc.testBit 5 then gcmTag key iv aad h.text else gcmTag key iv (aad ++ h.text) []).take 12 = h.tag)

/-! ### Validation (R235, R236, R260 to R263) -/

/-- A register descriptor (R263): its logical name in wire order, KIND, and the scaler. -/
def regDesc (e : List Byte) (r : Nat) : Nat × Nat × Int :=
  let d := (e.drop (0x0F0 + 8 * r)).take 8
  (beNat (d.take 6), leAt d 6 1 % 16, signed 8 (leAt d 7 1))

/-- The registers of a reading that the entry describes: index, new value, last value where there is one. -/
def readRegs (e : List Byte) (r : Reading) : List (Nat × Nat × Option Nat) :=
  (List.range 16).filterMap (fun i =>
    let (name, kind, _) := regDesc e i
    if kind = 0 then none
    else (r.regs.find? (fun p => p.1.toNat = name)).map (fun p =>
      (i, p.2.toNat, if (leAt e 0x078 2).testBit i then some (leAt e (0x018 + 6 * i) 6) else none)))

/-- A register that rolls over (check 5). -/
def rolls (e : List Byte) (last new : Nat) : Bool :=
  let lim := leAt e 0x0D8 8 % 2 ^ 48
  new < last && decide (9 * lim < 10 * last) && decide (10 * new < lim)

/-- A register that goes back (check 5). -/
def regresses (e : List Byte) (last new : Nat) : Bool := new < last && !rolls e last new

/-- The increase of a register; under ROLLOVER modulo the limit. -/
def increase (e : List Byte) (last new : Nat) : Int :=
  if rolls e last new then new + leAt e 0x0D8 8 % 2 ^ 48 - last else (new : Int) - last

/-- A cumulative kind (checks 5 and 6). -/
def kindOf (e : List Byte) (i : Nat) : Nat := (regDesc e i).2.1

/-- v × 10^p compared with a bound: is it above. -/
def scaledAbove (v p : Int) (num : Int) (den : Nat) : Bool :=
  if 0 ≤ p then num < v * 10 ^ p.toNat * den else num * 10 ^ (-p).toNat < v * den

/-- Check 6 of one register: the increase above PMAX_W × Δt ÷ 3,600 × 65 ÷ 64. -/
def rateOver (e : List Byte) (dt : Int) (x : Nat × Nat × Option Nat) : Bool :=
  match x.2.2 with
  | some last => kindOf e x.1 = 1 &&
      scaledAbove (increase e last x.2.1) (regDesc e x.1).2.2 (leAt e 0x0D0 4 * dt * 65) (3600 * 64)
  | none => false

/-- What validation finds of a reading (R235). -/
structure Finding where
  cause : Nat
  auth : Bool
  stale : Bool
  unknown : Bool
  attach : Bool
  timeRange : Bool
  rollover : Bool
  regress : Bool
  rate : Bool
  duplicate : Bool
  conflict : Bool
  gap : Nat
  isGap : Bool

/-- The key of the entry for a system title, loaded through the lay's key port (R235 check 1, R469): AUTH_CAUSE where it does not serve. -/
def State.meterKey (s : State) (lay : Nat) (e : List Byte) (title : Word64) : Option Nat × KeyReg × State :=
  let kc := leAt e 0x0B4 4
  let mode := kc % 4
  let blob := s.bytes .ddr (leAt e 0x0BC 4 * 64) 64
  let req : KeyReq := ⟨0, 0, if mode = 1 then 1 else 2, BitVec.ofNat 64 (nbits kc 27 16 + leAt e 0x0B8 4 * 2 ^ 16), title,
    BitVec.ofNat 512 (leNat blob), false⟩
  if mode = 0 ∨ mode = 3 then (some 3, KeyReg.clear, s)
  else
    let (k, s) := s.serveLoad lay req
    let s := s.countLoad lay ((s.lay lay).keyq.length + 1) k.st
    let bad := match k.st with
      | .ready =>
        if (mode = 2 ∧ leAt blob 8 8 ≠ title.toNat) ∨ (nbits kc 3 2 = 1) ≠ (k.len256 = true) then some 4 else none
      | .orphaned => some 1
      | _ => some 2
    (bad, k, s)

/-- The descriptor cell's fields that validation uses (R218): source, admission number, capture, port kind and number, class, batch,
entry, reply, address, word 7. -/
structure Desc where
  source : Nat
  seq : Nat
  sec : Nat
  ns : Nat
  kind : Nat
  port : Nat
  cls : Nat
  batch : Nat
  entry : Nat
  reply : Nat
  addr : BitVec 128
  w7 : Nat

/-- The fields of a descriptor cell. -/
def descOf (c : Cell512) : Desc :=
  let w (i : Nat) := (cellWord c i).toNat
  ⟨cellChan c, cellAux c, nbits (w 1) 47 0, nbits (w 2) 29 0, nbits (w 2) 35 32, nbits (w 2) 39 36, nbits (w 2) 47 40,
    nbits (w 3) 63 32, nbits (w 2) 63 56, nbits (w 3) 31 24, BitVec.ofNat 128 (w 4 + w 5 * 2 ^ 64), w 7⟩

/-- Did a frame come on an attachment other than the entry's (check 3). -/
def wrongAttach (e : List Byte) (d : Desc) : Bool :=
  let a := leAt e 0x0B0 4
  !(nbits a 3 0 = d.kind && nbits a 7 4 = d.port && (1 < d.kind || nbits a 19 8 = 0xFFF || nbits a 19 8 = d.source))

/-- The records of the last second with the meter and interval end of a reading (R237). -/
def State.recent (s : State) (meter iend : Nat) : List Pend :=
  s.readings.filter (fun p => s.now ≤ p.packed + 1000000000 && bits p.record 87 64 = meter &&
    bits p.record 7 0 = 1 && bits p.record 175 128 = iend)

/-- The register words a record carries of a reading (R239): the entry's stored-register selection. -/
def storedRegs (e : List Byte) (l : List (Nat × Nat × Option Nat)) : List Nat :=
  let sel := leAt e 0x0D4 4
  (List.range (min 3 (nbits sel 13 12))).filterMap (fun j =>
    (l.find? (fun x => x.1 = nbits sel (4 * j + 3) (4 * j))).map (fun x => x.1 * 2 ^ 48 + x.2.1))

/-- The checks of the ingest lay on a reading with an invocation counter, against its meter's entry (R235, R236). -/
def checks (window ctr : Nat) (e : List Byte) (d : Desc) (r : Reading) (cause : Option Nat) : Finding :=
  let attach := wrongAttach e d
  match cause with
  | some c => ⟨c, true, false, attach, attach, false, false, false, false, false, false, 0, false⟩
  | none =>
    let t := r.time.toNat
    let range := window < ((t : Int) - (d.sec : Int)).natAbs
    if ctr ≤ leAt e 4 4 then ⟨0, false, true, attach, attach, range, false, false, false, false, false, 0, false⟩
    else
      let l := readRegs e r
      let cum := l.filter (fun x => kindOf e x.1 = 1 ∨ kindOf e x.1 = 2)
      let lastTime : Nat := leAt e 8 8 % 2 ^ 48
      let lastEnd : Nat := leAt e 0x10 8 % 2 ^ 48
      let ivl := leAt e 0x0CE 2
      let dup := r.interval && decide (t = lastEnd)
      let differs := l.any (fun x => x.2.2.any (· ≠ x.2.1))
      let isGap := r.interval && 0 < ivl && lastEnd + ivl < t
      { cause := 0, auth := false, stale := false, unknown := attach, attach, timeRange := range
        rollover := cum.any (fun x => x.2.2.any (fun v => rolls e v x.2.1))
        regress := cum.any (fun x => x.2.2.any (fun v => regresses e v x.2.1))
        rate := l.any (rateOver e ((t : Int) - (lastTime : Int)))
        duplicate := dup, conflict := dup && differs, isGap
        gap := if isGap then min 65535 ((t - lastEnd + ivl - 1) / ivl - 1) else 0 }

/-- An active-energy register by the C group of its logical name: 1 import, 2 export. -/
def groupC (e : List Byte) (i : Nat) : Nat := (regDesc e i).1 / 2 ^ 24 % 256

/-- The SUSPECT bits of a reading that passed checks 1 and 2 (R261). -/
def suspectBits (e : List Byte) (r : Reading) (f : Finding) (det : Nat) : Nat :=
  let ros := leAt e 0x084 4
  let decl := nbits (leAt e 0x0C8 4) 18 16
  let rev := (readRegs e r).any (fun x => kindOf e x.1 = 1 && groupC e x.1 = 2 && x.2.2.any (fun v => 0 < increase e v x.2.1)) && !ros.testBit 30
  let ev (code : Nat) := r.event.any (fun c => c.toNat = code)
  let phase := det.testBit 3 && det % 4 ≠ 0 && det % 4 ≠ decl
  rev.toNat + (ev (nbits ros 23 16)).toNat * 2 + (ev (nbits ros 15 8)).toNat * 4 + phase.toNat * 8 + f.attach.toNat * 16 +
    (decide (3 ≤ leAt e 0x07A 1)).toNat * 32 + f.rate.toNat * 64 + f.regress.toNat * 128

/-- Region D after a reading (R236, R237, R260, R261): before: the entry that the checks looked at; of a reading that failed check 1, only AUTH_RUN
advances (log entry 17). -/
def regionAfter (before e : List Byte) (ctr : Nat) (d : Desc) (r : Reading) (f : Finding) : List Byte :=
  if f.auth then patch e 0x07A (toLe 1 (min 255 (leAt e 0x07A 1 + 1)))
  else if f.stale then e
  else
    let w := leAt e 0x10 8
    let det := if d.kind = 3 then nbits d.w7 47 40 else nbits w 63 56
    let e' := patch (patch e 4 (toLe 4 (max (leAt e 4 4) ctr))) 0x07A [0]
    let kp := if f.attach then d.kind + d.port * 16 else nbits w 55 48
    let take := !f.regress
    let t := r.time.toNat
    let last := if take then t else leAt e 8 8 % 2 ^ 48
    let lend := if take && r.interval then max t (w % 2 ^ 48) else w % 2 ^ 48
    let e' := patch e' 8 (toLe 8 (last + suspectBits before r f det * 2 ^ 48))
    let e' := patch e' 0x10 (toLe 8 (lend + kp * 2 ^ 48 + det * 2 ^ 56))
    if take then
      (readRegs e r).foldl (fun e' x => patch (patch e' (0x018 + 6 * x.1) (toLe 6 x.2.1)) 0x078
        (toLe 2 (leAt e' 0x078 2 ||| 2 ^ x.1))) e'
    else e'

/-- The contribution cell of a reading, where it makes one (R349). -/
def contribution (meter : Nat) (e after : List Byte) (d : Desc) (r : Reading) (f : Finding) (taint : Bool) : Option Cell512 :=
  let bal := leAt e 0x0C8 4
  let used := (readRegs e r).filter (fun x => kindOf e x.1 = 1 && (groupC e x.1 = 1 || groupC e x.1 = 2))
  if !bal.testBit 31 || f.auth || f.stale || f.unknown || f.regress || f.duplicate || taint || !r.interval ||
      used.any (fun x => x.2.2.isNone) then none
  else
    let energy := (used.map (fun x =>
      let p := (regDesc e x.1).2.2 + 3
      let v := increase e (x.2.2.getD 0) x.2.1 * (if groupC e x.1 = 1 then 1 else -1)
      if 0 ≤ p then v * 10 ^ p.toNat else rdiv v (10 ^ (-p).toNat))).sum
    some (mkCompletion 0 d.seq [meter + nbits bal 15 0 * 2 ^ 20, leAt e 0x10 8 % 2 ^ 48, r.time.toNat, unsigned 64 energy,
      leAt after 0x0E 2 % 256 + leAt after 0x17 1 * 2 ^ 8 + nbits bal 18 16 * 2 ^ 16, 0, 0])

/-- A reading's record (R239) with its CRC. -/
def recordBytes (rtype nreg gap flags meter ctr readTime ingress : Nat) (regs : List Nat) (source lay cls : Nat) : List Byte :=
  let l := toLe 1 rtype ++ toLe 1 nreg ++ toLe 2 gap ++ toLe 4 flags ++ toLe 4 meter ++ toLe 4 ctr ++ toLe 8 readTime ++
    toLe 8 ingress ++ (List.range 3).flatMap (fun j => toLe 8 (regs.getD j 0)) ++ toLe 2 source ++ toLe 1 lay ++ toLe 1 cls
  l ++ toLe 4 (crc32 l)

/-- FLAGS of a record (R239). -/
def State.recordFlags (s : State) (lay : Nat) (d : Desc) (r : Reading) (f : Finding) (taint : Bool) : Nat :=
  let late := r.interval && !f.auth && s.bal.noticed.any (fun e => e.1 = lay && decide (s.ivlIndex r.time.toNat ≤ e.2))
  let b (p : Bool) (i : Nat) := if p then 2 ^ i else 0
  b f.auth 0 + b f.stale 1 + b f.unknown 2 + b f.timeRange 3 + b f.regress 4 + b f.rate 5 + b f.duplicate 6 + b f.isGap 7 +
    b f.rollover 8 + b f.conflict 9 + b (f.auth || f.stale) 10 + b taint 11 + b (s.ing.unlocked.contains d.seq) 12 +
    b late 13 + b (d.cls = 4) 15 + b s.pairMode 16 + b r.event.isSome 17 + (if f.auth then f.cause * 2 ^ 18 else 0)

/-- RTYPE of a record (R239): an unknown meter's, a credit entry, an event, an interval reading, or a snapshot. -/
def rtypeOf (known : Bool) (d : Desc) (r : Reading) : Nat :=
  if !known then 5 else if d.cls = 4 then 4 else if r.event.isSome then 3 else if r.interval then 1 else 2

/-- The meter's entry that the checks of a reading look at (R237): of a reading whose processing overlaps that of an earlier one, the entry as it
stood before that one. -/
def State.entryBefore (s : State) (i : Nat) (e : List Byte) (overlaps : Bool) : List Byte :=
  match s.work.prior.find? (fun p => p.1 = i && decide (s.now ≤ p.2.1 + 1000000000)) with
  | some p => if overlaps then p.2.2 else e
  | none => e

/-- The entry a reading's checks looked at kept for those that overlap it. -/
def State.keepPrior (s : State) (i : Nat) (before : List Byte) : State :=
  let rest := s.work.prior.filter (fun p => p.1 ≠ i && decide (s.now ≤ p.2.1 + 1000000000))
  { s with work := { s.work with prior := place i (s.now, before) rest } }

/-- What the storing lay finds of an interval record beside those it has packed in the last second (R237). -/
def State.stored (s : State) (i t : Nat) (regs : List Nat) (f : Finding) : Finding :=
  let same := s.recent i t
  let differs := same.any (fun p => (List.range 3).map (fun j => bits p.record (319 + 64 * j) (256 + 64 * j)) ≠
    (List.range 3).map (fun j => regs.getD j 0))
  { f with duplicate := f.duplicate || same ≠ [], conflict := f.conflict || differs }

/-- A CREDIT reading passed on to the field-service lay (R25, R288, R291): passed: checks 1 to 3. -/
def State.passToken (s : State) (i : Nat) (d : Desc) (f : Finding) : State :=
  if d.cls ≠ 4 then s
  else { s with work := { s.work with tokens := s.work.tokens ++ [(i, (d.seq, !f.auth && !f.stale && !f.unknown))] } }

/-- A reading's record kept until its acknowledgement (R239, R240). -/
def State.pack (s : State) (d : Desc) (spot : Nat) (record : List Byte) : State :=
  let s := s.ddrPut (spot * 64) record
  let port := if d.kind = 0 then d.port else if d.kind = 1 then 4 + d.port else if d.kind = 2 then 6 + d.port
    else if d.kind = 3 then 9 + d.port else 13 + d.port
  let p : Pend := ⟨d.seq, port, d.source, d.reply, d.addr, d.batch, d.entry, d.w7 % 8, BitVec.ofNat 512 (leNat record), spot,
    s.now, false⟩
  { s with readings := s.readings.filter (fun x => !x.acked || s.now ≤ x.packed + 1000000000) ++ [p]
           ing := { s.ing with unlocked := s.ing.unlocked.filter (· ≠ d.seq) } }

/-- The meter, AUTH_CAUSE and what else check 1 finds of a reading (R213, R235). -/
def State.authenticate (s : State) (lay : Nat) (h : Option SecHdr) (r : Reading) : Option (Nat × List Byte) × Option Nat × State :=
  let title := (h.bind (·.title)).getD r.title
  let (found, s) := s.findMeter title
  match found, h with
  | some (i, e), some h =>
    if !h.accepted || !r.supported then (some (i, e), some 3, s)
    else
      let (c, k, s) := s.meterKey lay e title
      (some (i, e), if c = none ∧ !h.tagOk (keyBytes k) [] title then some 0
        else if c = none ∧ !h.serviceOk (keyBytes k) title then some 3 else c, s)
  | x, _ => (x, some 3, s)

/-- One reading validated (R235 to R239): the record is packed at a DDR address, the entry updated, the contribution sent on. What an
unauthenticated or headerless reading would have for a time or a counter is a free value. -/
def State.validate (s : State) (lay writer spot n : Nat) (overlaps : Bool) (d : Desc) (data : List Byte) (taint : Bool) (r : Reading) : State :=
  let h := secOf data
  let (found, cause, s) := s.authenticate lay h r
  let (time, s) := s.draw
  let (count, s) := s.draw
  let ctr := (h.map (·.ctr)).getD (count.toNat % 2 ^ 32)
  let (i, e) := found.getD (0xFFFFFF, List.replicate 512 0)
  let before := s.entryBefore i e overlaps
  let f := checks s.work.window ctr before d r cause
  let f := if found = none then { f with unknown := true, attach := false } else f
  let after := regionAfter before e ctr d r f
  let s := if found = none then s else s.keepPrior i before
  let s := if found = none ∨ taint ∨ (f.stale ∧ !f.auth) then s else s.writeRegion i 0 writer (after.take 0x80)
  let regs := if f.auth then [] else storedRegs e (readRegs e r)
  let g := if r.interval ∧ !f.auth ∧ found.isSome then s.stored i r.time.toNat regs f else f
  let rt := if f.auth then time.toNat % 2 ^ 48 else r.time.toNat + (if r.interval then leAt e 0x0CE 2 else 0) * 2 ^ 48
  let record := recordBytes (rtypeOf found.isSome d r) regs.length g.gap (s.recordFlags lay d r g taint) (i + d.kind * 2 ^ 24)
    ctr rt (d.sec % 2 ^ 34 * 2 ^ 30 + d.ns) regs d.source lay d.cls
  let s := (s.pack d spot record).passToken i d f
  match (if found = none then none else contribution i before after d r f taint) with
  | some c => if s.layToLay n lay then s.offer n c else s
  | none => s

/-- READING_VALIDATE (R235): the ingest lay pops a reading from its interface splice; the strand that writes, what it finds in the
reading's text, whether its processing overlaps that of an earlier reading of the meter (R237), where the record is packed (DDR address ÷ 64),
the splice to the balance lay. -/
def execReadingValidate (lay : Fin 8) (strand : Fin 16) (r : Reading) (overlaps : Bool) (spot : BitVec 34)
    (bal : BitVec 13) (t : Nat) (s : State) : Res :=
  let s := s.at t
  .next (match s.toLay 1 lay.val with
    | none => s
    | some n => match s.pop n with
      | (none, s) => s
      | (some (c, ue), s) =>
        if !cellFirst c then s
        else
          let len := bits (cellWord c 3) 15 0
          let (cs, s) := s.popMany n (max 1 ((len + 55) / 56))
          let taint := ue || cellTaint c || cs.any cellTaint || (s.str (strandNo lay.val strand.val)).tainted
          s.validate lay.val (strandNo lay.val strand.val) spot.toNat bal.toNat overlaps (descOf c)
            ((cs.flatMap (fun x => cellBytes x 56)).take len) taint r)

/-! ### Durable acknowledgement (R222, R240, R241) -/

/-- The DURABLE of a batch (R222): the tag under the source's ACK_KEY, loaded by the storing lay; zeros where the key is not READY,
since AESB then writes zeros (R112). -/
def State.durable (s : State) (lay : Nat) (b : Batch) : List Byte × State :=
  let head := toBe 2 0x504C ++ toBe 1 1 ++ toBe 1 3 ++ toBe 4 b.seq ++ toBe 4 s.epoch ++ toBe 2 b.count ++ toBe 2 24 ++
    toBe 8 b.stored
  let (k, s) := s.serveLoad lay ⟨0, 0, 0, BitVec.ofNat 64 (s.source b.source).ackKey, 0, 0, false⟩
  let s := s.countLoad lay ((s.lay lay).keyq.length + 1) k.st
  (head ++ (if k.st = .ready then cmac (keyBytes k) head else List.replicate 16 0), s)

/-- The block end that transmits on a port (R187). -/
def txEnd (port : Nat) : Nat := match portKind port with
  | 0 => 3 | 1 => 3 | 2 => 4 | 3 => 5 | _ => 6

/-- An acknowledgement cell (R241). -/
def ackCell (p : Pend) (epoch : Nat) (send : Bool) : Cell512 :=
  mkCell [mkHeader true (!send) 56 p.source p.seq, p.reply + send.toNat * 2 ^ 8 + epoch * 2 ^ 32,
    if p.reply = 0 then p.batch else if p.reply = 3 then bits p.addr 31 0 + p.ns * 2 ^ 32 else 0, 0,
    bits p.addr 63 0, bits p.addr 127 64, 0, 0]

/-- Is a reading's record in a page that has been programmed and verified, in pair-durable mode with a KIND 1 completion (R240). -/
def State.isDurable (s : State) (p : Pend) (lbn page i : Nat) : Bool :=
  match s.lbnBlock lbn with
  | none => false
  | some (k, b) => decide (page < b.pages.length) &&
      decide (s.bytes .nand (pageAddr k page + 64 * i) 64 = toLe 64 p.record.toNat) &&
      (!s.pairMode || s.nand.partner.contains (lbn, page))

/-- ACK_COMMIT (R240, R241): the storing lay commits a reading's acknowledgement to a transmit splice of its port, its record being
record i of a page. -/
def execAckCommit (lay : Fin 8) (seq : BitVec 32) (lbn : BitVec 18) (page : BitVec 10) (i : BitVec 8) (n : BitVec 13) (t : Nat)
    (s : State) : Res :=
  let s := s.at t
  .next (match s.readings.find? (fun p => p.seq = seq.toNat && !p.acked) with
    | none => s
    | some p =>
      if !s.isDurable p lbn.toNat page.toNat i.toNat ∨ s.fld (descA n.toNat 1) 12 8 ≠ txEnd p.port then s
      else
        let s := { s with readings := s.readings.map (fun x => if x = p then { p with acked := true } else x) }
        match (if p.reply = 0 then s.ing.batches.find? (fun b => b.source = p.source && b.seq = p.batch) else none) with
        | none => s.offer n.toNat (ackCell p s.epoch false)
        | some b =>
          let b' := { b with stored := b.stored ||| 2 ^ p.entry }
          if b'.stored = b.admitted then
            let (msg, s) := s.durable lay.val b'
            let s := { s with ing := { s.ing with batches := s.ing.batches.erase b } }
            (s.offer n.toNat (ackCell p s.epoch true)).offer n.toNat (mkCell (mkHeader false true 40 p.source p.seq ::
              (List.range 7).map (fun j => leNat ((msg.drop (8 * j)).take 8))))
          else
            { s with ing := { s.ing with batches := s.ing.batches.map (fun x => if x = b then b' else x) } }.offer
              n.toNat (ackCell p s.epoch false))

/-! ### Queries (R246 to R250) -/

/-- The stored records in the order they were stored: those of the pages of stream 0, on an active part of a pair also of stream 2 (R586), in the order of their pages. -/
def State.records (s : State) : List (List Byte) :=
  let pages := s.nand.blocks.flatMap (fun e =>
    if (e.2.stream = 0 ∨ (e.2.stream = 2 ∧ s.pairEn = true ∧ s.role = 2)) ∧ (e.2.st = .opened ∨ e.2.st = .live ∨ e.2.st = .relocating) ∧ !s.nand.reloc.any (fun r => r.dst = some e.1)
    then e.2.pages.map (fun p => (p.ord, pageAddr e.1 p.page)) else [])
  (pages.insertionSort (fun a b => a.1 ≤ b.1)).flatMap (fun p =>
    ((List.range 256).map (fun i => s.bytes .nand (p.2 + 64 * i) 64)).filter (fun l => 1 ≤ leAt l 0 1 && leAt l 0 1 ≤ 5))

/-- A query's fields (R246). -/
structure Query where
  meter : Nat
  rtype : Nat
  flags : Nat
  lo : Nat
  hi : Nat
  most : Nat
  estimate : Bool
  byIngress : Bool

/-- A query of a cell, where it is well formed. -/
def queryOf (c : Cell512) : Option Query :=
  let w (i : Nat) := (cellWord c i).toNat
  let q : Query := ⟨nbits (w 1) 23 0, nbits (w 1) 31 24, nbits (w 1) 63 32, nbits (w 2) 47 0, nbits (w 3) 47 0, nbits (w 4) 15 0,
    (w 4).testBit 16, (w 4).testBit 17⟩
  if !cellFirst c ∨ !cellLast c ∨ cellLen c ≠ 56 ∨ cellChan c ≠ 0 ∨ 2 ^ 48 ≤ w 2 ∨ 2 ^ 48 ≤ w 3 ∨ 2 ^ 18 ≤ w 4 ∨ w 5 ≠ 0 ∨
      w 6 ≠ 0 ∨ w 7 ≠ 0 ∨ q.hi ≤ q.lo ∨ q.most = 0 ∨ 4096 < q.most then none
  else some q

/-- The time a query selects a record by. -/
def Query.timeOf (q : Query) (l : List Byte) : Nat := if q.byIngress then leAt l 24 8 / 2 ^ 30 else leAt l 16 8 % 2 ^ 48

/-- The time a query orders a record by: of an ingress also the nanoseconds (R239, R248). -/
def Query.orderOf (q : Query) (l : List Byte) : Nat := if q.byIngress then leAt l 24 8 else leAt l 16 8 % 2 ^ 48

/-- Does a record match. -/
def Query.selects (q : Query) (l : List Byte) : Bool :=
  leAt l 8 3 = q.meter && (q.rtype = 0 || leAt l 0 1 = q.rtype) && (q.flags = 0 || leAt l 4 4 &&& q.flags ≠ 0) &&
  q.lo ≤ q.timeOf l && q.timeOf l < q.hi

/-- A record's register value with an index, where it carries it (R239). -/
def regAt (l : List Byte) (index : Nat) : Option Nat :=
  ((List.range (min 3 (leAt l 1 1))).map (fun j => leAt l (32 + 8 * j) 8)).find? (fun (v : Nat) => v / 2 ^ 48 = index) |>.map (· % 2 ^ 48)

/-- The estimated records between two interval records (R249); registers are those of both. -/
def estimates (a b : List Byte) : List (List Byte) :=
  let n := leAt b 2 2
  let bad (l : List Byte) := leAt l 4 4 &&& 0x813 ≠ 0
  if n = 0 ∨ 96 < n ∨ bad a ∨ bad b then []
  else
    let ivl := leAt b 22 2
    (List.range n).map (fun (k0 : Nat) =>
      let k : Nat := k0 + 1
      let regs := (List.range (min 3 (leAt b 1 1))).filterMap (fun (j : Nat) =>
        let index := leAt b (32 + 8 * j) 8 / 2 ^ 48
        match regAt a index, regAt b index with
        | some va, some vb =>
          some (index * 2 ^ 48 + unsigned 48 ((va : Int) + (((vb : Int) - (va : Int)) * (k : Int)).tdiv ((n : Int) + 1)))
        | _, _ => none)
      recordBytes 1 regs.length 0 (2 ^ 14 + 2 ^ 7) (leAt b 8 4) 0 (leAt a 16 8 % 2 ^ 48 + k * ivl + ivl * 2 ^ 48) 0 regs 0 0 0)

/-- The answer's records with their order and kinds, estimates among them; last: the last interval record before. -/
def Query.withEstimates (q : Query) : Option (List Byte) → List (List Byte) → List (Nat × (Nat × List Byte))
  | _, [] => []
  | last, b :: t =>
    let kind := if leAt b 60 4 = crc32 (b.take 60) then 0 else 2
    let isIvl := leAt b 0 1 = 1
    let est := match last with
      | some a => if q.estimate && isIvl then
          (estimates a b).map (fun l => (if q.byIngress then q.orderOf b else q.orderOf l, (1, l))) else []
      | none => []
    est ++ (q.orderOf b, (kind, b)) :: q.withEstimates (if isIvl then some b else last) t

/-- The answer's records in ascending order of the selected time, with their kinds, estimates put in their gaps (R248, R249). -/
def Query.fill (q : Query) (l : List (List Byte)) : List (Nat × List Byte) :=
  ((q.withEstimates none (l.insertionSort (fun a b => q.orderOf a ≤ q.orderOf b))).insertionSort (fun a b => a.1 ≤ b.1)).map (·.2)

/-- A record message (R247). -/
def recordCells (tag kind : Nat) (l : List Byte) : List Cell512 :=
  [mkCell (mkHeader true false 56 kind tag :: (List.range 7).map (fun j => leAt l (8 * j) 8)),
   mkCell [mkHeader false true 8 kind tag, leAt l 56 8, 0, 0, 0, 0, 0, 0]]

/-- The end cell (R247). -/
def endCell (tag count status : Nat) : Cell512 := mkCell [mkHeader true true 16 0x80 tag, count, status, 0, 0, 0, 0, 0]

/-- Does a query name a meter of the table, or the records of unknown ones; its entry is read through the checks of DDR (R706). -/
def State.queryMeter (s : State) (q : Query) : Bool × State :=
  if q.meter = 0xFFFFFF then (true, s)
  else if 1048576 ≤ q.meter then (false, s)
  else
    let (e, s) := s.readEntry q.meter
    (e.any entryValid, s)

/-- A query taken to be answered on a splice (R246 to R250): held with what it will send, or answered at once with an end cell. -/
def State.takeQuery (s : State) (out : Nat) (c : Cell512) : State :=
  let tag := cellAux c
  if 16 ≤ s.work.queries.length then s.offer out (endCell tag 0 3)
  else match queryOf c with
    | none => s.offer out (endCell tag 0 4)
    | some q =>
      let (known, s) := s.queryMeter q
      if !known then s.offer out (endCell tag 0 2)
      else
        let all := q.fill (s.records.filter q.selects)
        let run : QueryRun := ⟨out, tag, all.take q.most, 0, if q.most < all.length then 1 else 0⟩
        { s with work := { s.work with queries := s.work.queries ++ [run] } }

/-- The queries held served in order, within a lay's budget of class 7 (R250). -/
def State.serveQueries (s : State) (lay : Nat) : List QueryRun → State
  | [] => { s with work := { s.work with queries := [] } }
  | q :: t =>
    let k := min (s.quota lay 7) q.left.length
    let s := (s.offerAll q.out ((q.left.take k).flatMap (fun e => recordCells q.tag e.1 e.2))).useQuota lay 7 k
    if k < q.left.length then
      { s with work := { s.work with queries := { q with left := q.left.drop k, sent := q.sent + k } :: t } }
    else (s.offer q.out (endCell q.tag (q.sent + k) q.status)).serveQueries lay t

/-- QUERY (R246 to R250): the storing lay pops a query from a ring, where one waits, and goes on answering those it holds. -/
def execQuery (ring reply : Fin 64) (s : State) : Res :=
  .next (match (s.ringOwner ring.val reply.val).filter storeLay with
    | none => s
    | some lay =>
      let s := match s.pop (6144 + ring.val) with
        | (none, s) => s
        | (some (c, _), s) => s.takeQuery (6144 + reply.val) c
      s.serveQueries lay s.work.queries)

end Sys2Proof.Machine
end

