-- ==== Sys2Proof/Machine/MeterDb.lean ====
section
/-! DEFINITION. METERDB, roster writes, checkpoint and reload of the meter table (R257, R258, R265 to R273, R292, R293). -/

namespace Sys2Proof.Machine

/-! ### The index (R256, R258, R269) -/

/-- A bucket slot set or freed. -/
def State.setBucketSlot (s : State) (k j : Nat) (v : Option Nat) : State :=
  let w := (s.bucket k).1
  let w := if v.isSome then w ||| 2 ^ j else w - (if w.testBit j then 2 ^ j else 0)
  (s.ddrPut (s.bucketAddr k) (toLe 8 w)).ddrPut (s.bucketAddr k + 8 * (1 + j)) (toLe 8 (v.getD 0))

/-- OVERFLOW and OVF of a home bucket. -/
def State.setOverflow (s : State) (home : Nat) (ovf : Option Nat) : State :=
  let w := (s.bucket home).1
  let kept := w % 128 + w / 2 ^ 20 * 2 ^ 20
  s.ddrPut (s.bucketAddr home) (toLe 8 (kept + match ovf with | some k => 128 + k * 256 | none => 0))

/-- A free slot of a bucket. -/
def State.freeSlot (s : State) (k : Nat) : Option Nat := (List.range 7).find? (fun j => !(s.bucket k).1.testBit j)

/-- May a tag be placed in a bucket. -/
def State.slotFor (s : State) (k tag : Nat) : Option Nat := if (s.slotOf k tag).isSome then none else s.freeSlot k

/-- An entry's SYS_TITLE (R262). -/
def State.titleOf (s : State) (i : Nat) : Word64 := BitVec.ofNat 64 (s.le .ddr (s.entryAddr i + 0x088) 8)

/-- A meter placed in the index (R258); none: BUCKET_FULL. -/
def State.placeMeter (s : State) (i : Nat) (title : Word64) : Option State :=
  let h := homeOf title
  let v := tagOf title * 2 ^ 21 + i
  match s.slotFor h (tagOf title) with
  | some j => some (s.setBucketSlot h j (some v))
  | none => match s.overflowOf h with
    | some k => (s.slotFor k (tagOf title)).map (fun j => s.setBucketSlot k j (some v))
    | none => ((List.range 4096).findSome? (fun o => (s.slotFor (2097152 + o) (tagOf title)).map (fun j => (o, j)))).map
        (fun x => (s.setBucketSlot (2097152 + x.1) x.2 (some v)).setOverflow h (some x.1))

/-- A meter taken out of the index (R258, R269): OVERFLOW clears with the home bucket's last meter in the overflow bucket. -/
def State.unplaceMeter (s : State) (title : Word64) : State :=
  match s.findSlot title with
  | none => s
  | some (k, j) =>
    let h := homeOf title
    let s := s.setBucketSlot k j none
    if k < 2097152 then s
    else if (List.range 7).any (fun m => (s.bucket k).1.testBit m && homeOf (s.titleOf (s.slotIndex k m)) = h) then s
    else s.setOverflow h none

/-- The words a roster write reads for a title through the checks of DDR (R293, R706): its buckets, and STATUS and title of the entries in their
slots in use; is one uncorrectable. -/
def State.indexWords (s : State) (title : Word64) : Bool × State :=
  let (ue, s) := s.bucketCheck title
  let ks := homeOf title :: (s.overflowOf (homeOf title)).toList
  let slots := ks.flatMap (fun k => ((List.range 7).filter (fun j => (s.bucket k).1.testBit j)).map (fun j => s.slotIndex k j))
  slots.foldl (fun (p : Bool × State) m =>
    let (c, s) := p.2.ddrCheck (p.2.entryAddr m + 0x080) 16
    (p.1 || decide (c = 2), s)) (ue, s)

/-- The buckets a roster write looks at hold only slots of VALID entries, but for the entry itself; else IDX_BAD (R293). -/
def State.indexCheck (s : State) (i : Nat) (title : Word64) : State :=
  let ks := homeOf title :: (s.overflowOf (homeOf title)).toList
  let bad := ks.any (fun k => (List.range 7).any (fun j =>
    (s.bucket k).1.testBit j && s.slotIndex k j ≠ i && !(s.le .ddr (s.entryAddr (s.slotIndex k j) + 0x084) 4).testBit 31))
  if bad then s.cause .meterdb 0 3 else s

/-! ### Roster images (R265, R268 to R270, R293) -/

/-- Is entry i VALID. -/
def State.meterValid (s : State) (i : Nat) : Bool := (s.le .ddr (s.entryAddr i + 0x084) 4).testBit 31

/-- One image written (R268 to R270): the status as MDB_WR_STAT codes it. mask: bit 0 D, bit 1 S, bit 2 F; before: VALID before the request. -/
def State.rosterImage (s : State) (i mask : Nat) (before : Bool) (img : List Byte) : Nat × State :=
  if s.fitted.ddrBytes < s.entryAddr i + 512 then (3, s)
  else
    let (e, s) := s.inject .meterdb 0 2 2
    let (old, s) := s.readEntry i
    let o := s.bytes .ddr (s.entryAddr i) 512
    let was := entryValid o
    let is := if mask.testBit 1 then entryValid img else was
    let tOld := BitVec.ofNat 64 (leAt o 0x088 8)
    let tNew := if mask.testBit 1 then BitVec.ofNat 64 (leAt img 0x088 8) else tOld
    let moves := was ≠ is ∨ tOld ≠ tNew
    let (ueOld, s) := if was ∧ moves then s.indexWords tOld else (false, s)
    let (ueNew, s) := if is ∧ moves then s.indexWords tNew else (false, s)
    let ue := old = none || e ≠ 0 || ueOld || ueNew
    let s := if ue then s.cause .meterdb 0 2 else s
    if (mask.testBit 0 || mask.testBit 2) && (!mask.testBit 1 || before) then (7, s)
    else
      let drop_ := was && (!is || tOld ≠ tNew)
      let add := is && (!was || tOld ≠ tNew)
      let s := if add then s.indexCheck i tNew else if drop_ then s.indexCheck i tOld else s
      let s1 := if drop_ then s.unplaceMeter tOld else s
      if add && (s1.placeMeter i tNew).isNone then (6, s)
      else
        let put (s : State) (r : Nat) : State :=
          if mask.testBit r then s.writeRegion i r 0xFE ((img.drop (regionSpan r).1).take (regionSpan r).2) else s
        let s2 := put (put (put s1 1) 2) 0
        let s3 := if add then (s2.placeMeter i tNew).getD s2 else s2
        (if ue then 4 else 1, s3)

/-- A tariff programme that has been loaded (R268, R282). -/
def State.progLoaded (s : State) (n : Nat) : Bool := s.work.progs.contains n

/-- Zero bytes of an image from an offset. -/
def zerosAt (l : List Byte) (o n : Nat) : Bool := ((l.drop o).take n).all (fun b => b = 0)

/-- The checks of the Lanyard on an image (R268), whatever regions are to be written. -/
def State.imageOk (s : State) (i : Nat) (img : List Byte) : Bool :=
  let f (o : Nat) : Nat := leAt img o 4
  img.length = 512 &&
  zerosAt img 0x07B 1 && zerosAt img 0x1BE 2 && nbits (leAt img 0x008 8) 63 56 = 0 &&
  nbits (f 0x188) 31 24 = 0 && nbits (f 0x18C) 31 16 = 0 &&
  nbits (leAt img 0x1A0 8) 31 24 = 0 && nbits (leAt img 0x1A0 8) 63 48 = 0 && zerosAt img 0x1AE 2 && zerosAt img 0x1C0 60 &&
  nbits (f 0x084) 7 0 = 1 && nbits (f 0x084) 29 24 = 0 && nbits (f 0x0B0) 31 20 = 0 &&
  nbits (f 0x0B4) 15 4 = 0 && nbits (f 0x0B4) 31 28 = 0 && nbits (f 0x0C0) 30 12 = 0 && nbits (f 0x0C8) 30 19 = 0 &&
  nbits (f 0x0CC) 15 8 = 0 && nbits (f 0x0D4) 31 14 = 0 && zerosAt img 0x0DE 2 && zerosAt img 0x0E9 7 &&
  (List.range 16).all (fun r => nbits (leAt img (0x0F6 + 8 * r) 1) 7 4 = 0) && zerosAt img 0x170 12 &&
  nbits (f 0x0B4) 1 0 ≤ 2 && nbits (f 0x0B4) 3 2 ≤ 1 && nbits (f 0x0C8) 18 16 ≤ 4 &&
  (nbits (f 0x0CC) 7 0 = 0xFF || s.progLoaded (nbits (f 0x0CC) 7 0)) &&
  (match (s.findMeter (BitVec.ofNat 64 (leAt img 0x088 8))).1 with
    | some (j, _) => j = i
    | none => true)

/-- The Lanyard's roster write of one image (R268): 0 where a check refuses it, else METERDB's status. -/
def State.rosterWrite (s : State) (i mask : Nat) (before : Bool) (img : List Byte) : Nat × State :=
  if !s.imageOk i img then (0, s)
  else if !s.bitAt (mdbA 0x00C) 0 then (5, s)
  else s.rosterImage i mask before img

/-- The images of a request written in order: how many were written and refused, the first refused with its status; was: VALID before the
request (R270, R271). -/
def State.rosterEach (s : State) (was : Nat → Bool) : List (Nat × Nat × List Byte) → (Nat × Nat × Option (Nat × Nat)) × State
  | [] => ((0, 0, none), s)
  | m :: t =>
    let (st, s1) := s.rosterWrite m.1 m.2.1 (was m.1) m.2.2
    let (r, s2) := { s1 with rdata := BitVec.ofNat 64 st }.rosterEach was t
    (if st = 1 ∨ st = 4 then ((r.1 + 1, r.2.1, r.2.2), s2) else ((r.1, r.2.1 + 1, some (m.1, st)), s2))

/-- The images of one request (R268 to R271). -/
def State.rosterAll (s : State) (l : List (Nat × Nat × List Byte)) : (Nat × Nat × Option (Nat × Nat)) × State :=
  s.rosterEach (fun i => s.meterValid i) l

/-- May the Lanyard have METERDB write now (R35, R36, R268): a ROSTER request of the host's is in service, in a host slot. -/
def State.rosterTurn (s : State) : Bool :=
  s.domOn 2 && s.domOn 14 && s.lany.mail.any (fun m => decide (m.req = 0x20)) && s.hostTurn

/-- ROSTER_WRITE (R36, R268): the images of the mailbox request in service in order; the data of the last answer is the status of the last. -/
def execRosterWrite (images : List (BitVec 20 × BitVec 3 × List (BitVec 8))) (s : State) : Res :=
  .next (if !s.rosterTurn then s
    else (s.rosterAll (images.map (fun m => (m.1.toNat, m.2.1.toNat, m.2.2)))).2)

/-! ### METERDB commands (R267, R292, R293) -/

/-- A buffer word read (R293): is it uncorrectable; its error reported. -/
def State.mdbBufRead (s : State) : Bool × State :=
  let (e, s) := s.inject .meterdb 0 0 1
  (e = 2, if e = 1 then s.cause .meterdb 0 0 else if e = 2 then s.cause .meterdb 0 1 else s)

/-- See `State.mdbBufRead`. -/
def State.bufCheck (s : State) : State := s.mdbBufRead.2

/-- Does an address lie in one of the two buffers. -/
def inBuf (a : Nat) : Bool := mdbA rMDB_RD_BUF ≤ a && a < mdbA rMDB_WR_BUF + 512

/-- BUSY of a command: 0 read, 1 single write, 2 bulk. -/
def State.mdbBusy (s : State) (c : Nat) : Bool :=
  s.bitAt (mdbA (if c = 0 then rMDB_RD_STAT else if c = 1 then rMDB_WR_STAT else rMDB_BULK_DONE)) 31

/-- The read buffer cleared. -/
def State.clearRdBuf (s : State) : State :=
  { s with regs := dropRange s.regs (mdbA rMDB_RD_BUF) (mdbA rMDB_RD_BUF + 512) }

/-- A write of MDB_RD_CMD (R267, R293). -/
def State.mdbRead (s : State) (q : Requester) (v : Word32) : State :=
  s.guarded q (mdbA rMDB_RD_CMD) v (bit v 31 && s.mdbBusy 0) fun s =>
    let s := s.plain (mdbA rMDB_RD_CMD) (v.setWidth 64)
    if !bit v 31 then s
    else if !s.bitAt (mdbA 0x00C) 0 then (s.wr (mdbA rMDB_RD_STAT) 5).irq .meterdb 0 0
    else s.clearRdBuf.wr (mdbA rMDB_RD_STAT) 0x80000000

/-- A write of MDB_WR_CMD (R293). -/
def State.mdbWrite (s : State) (q : Requester) (v : Word32) : State :=
  s.guarded q (mdbA rMDB_WR_CMD) v (bit v 31 && (s.mdbBusy 1 || s.mdbBusy 2)) fun s =>
    let s := s.plain (mdbA rMDB_WR_CMD) (v.setWidth 64)
    if !bit v 31 then s
    else if !s.bitAt (mdbA 0x00C) 0 then (s.wr (mdbA rMDB_WR_STAT) 5).irq .meterdb 0 1
    else s.wr (mdbA rMDB_WR_STAT) 0x80000000

/-- A write of MDB_BULK_CMD (R271, R293): heads, the index and region mask of each image of the buffer, whose places in the buffer the
spec does not give; done: the images processed when an ABORT takes effect. -/
def State.mdbBulk (s : State) (q : Requester) (v : Word32) (heads : List (Nat × Nat)) (done : Nat) : State :=
  s.guarded q (mdbA rMDB_BULK_CMD) v (bit v 31 && (s.mdbBusy 1 || s.mdbBusy 2)) fun s =>
    let s := if bit v 30 ∧ s.mdbBusy 2 then { s with work := { s.work with bulkTo := min s.work.bulkTo done } } else s
    if !bit v 31 ∨ !s.bitAt (mdbA 0x00C) 0 then s
    else
      let n := s.fld (mdbA rMDB_BULK_CNT) 20 0
      let s := { s with work := { s.work with bulk := heads.take n, bulkTo := n } }
      s.wr (mdbA rMDB_BULK_DONE) 0x80000000

/-- A write of MDB_WR_BUF (R293). -/
def State.mdbBuf (s : State) (q : Requester) (o : Nat) (v : Word32) : State :=
  s.guarded q (mdbA o) v (s.mdbBusy 1 || s.mdbBusy 2) fun s => s.wr (mdbA o) v

/-- MDB_HOST_READ (R267). -/
def execMdbHostRead (q : Requester) (i : BitVec 20) (regions : BitVec 3) (s : State) : Res :=
  .next (s.mdbRead q (BitVec.ofNat 32 (2 ^ 31 + regions.toNat * 2 ^ 24 + i.toNat)))

/-- MDB_SINGLE_WRITE (R268, R293). -/
def execMdbSingleWrite (q : Requester) (i : BitVec 20) (regions : BitVec 3) (s : State) : Res :=
  .next (s.mdbWrite q (BitVec.ofNat 32 (2 ^ 31 + regions.toNat * 2 ^ 24 + i.toNat)))

/-- MDB_BULK_LOAD (R271). -/
def execMdbBulkLoad (q : Requester) (heads : List (BitVec 20 × BitVec 3)) (s : State) : Res :=
  .next (s.mdbBulk q 0x80000000 (heads.map (fun h => (h.1.toNat, h.2.toNat))) 0)

/-- MDB_BULK_ABORT (R293): done counts the image in progress. -/
def execMdbBulkAbort (q : Requester) (done : BitVec 21) (s : State) : Res :=
  .next (s.mdbBulk q 0x40000000 [] done.toNat)

/-- The selected regions of an entry read through METERDB (R267, R293): their bytes at their offsets, the others 0; none: an uncorrectable
word. -/
def State.readRegions (s : State) (i : Nat) : List Nat → List Byte → Option (List Byte) × State
  | [], l => (some l, s)
  | r :: t, l =>
    let (o, n) := regionSpan r
    let (e, s) := s.inject .meterdb 0 2 2
    let (b, ue, s) := s.ddrGet (s.entryAddr i + o) n
    if ue || e ≠ 0 then (none, s) else s.readRegions i t (patch l o b)

/-- The end of a host read (R267); STATUS 3 RANGE is that of an entry beyond the fitted memory (DESIGN CHOICE, log entry 19: R292 does not say
which condition gives it); tries: how often each region that is consistent at last was read, one byte each, D lowest. -/
def State.readDoneMdb (s : State) (tries : Nat) : State :=
  let i := s.fld (mdbA rMDB_RD_CMD) 19 0
  let mask := s.fld (mdbA rMDB_RD_CMD) 26 24
  let most := s.fld (mdbA rMDB_RETRY_MAX) 7 0
  let wanted := (List.range 3).filter (fun r => mask.testBit r)
  let fin (s : State) (st torn n : Nat) : State :=
    (s.wr (mdbA rMDB_RD_STAT) (BitVec.ofNat 32 (torn * 2 ^ 16 + n * 2 ^ 8 + st))).irq .meterdb 0 0
  if s.fitted.ddrBytes < s.entryAddr i + 512 then fin s 3 0 0
  else
    match s.readRegions i wanted (List.replicate 512 0) with
    | (none, s) => fin (s.cause .meterdb 0 2) 4 0 1
    | (some b, s) =>
      let isTorn (r : Nat) : Bool := leAt b (regionSpan r).1 4 ≠ leAt b ((regionSpan r).1 + (regionSpan r).2 - 4) 4
      let took (r : Nat) : Nat := if isTorn r then most else max 1 (min (nbits tries (8 * r + 7) (8 * r)) most)
      let n := (wanted.map took).foldl max 0
      let s := s.bump (mdbA rMDB_RETRY_CNT) ((wanted.map (fun r => took r - 1)).sum)
      if wanted.any isTorn then
        fin (s.bump (mdbA rMDB_FAIL_CNT) 1) 2 (((wanted.filter isTorn).map (fun r => 2 ^ r)).sum) n
      else
        fin ((List.range 128).foldl (fun s j => s.wr (mdbA (rMDB_RD_BUF + 4 * j)) (BitVec.ofNat 32 (leAt b (4 * j) 4))) s) 1 0 n

/-- The image in MDB_WR_BUF. -/
def State.wrImage (s : State) : List Byte := (List.range 128).flatMap (fun j => toLe 4 (s.rd (mdbA (rMDB_WR_BUF + 4 * j))).toNat)

/-- An image of the bulk buffer read line by line (R293, R706): of a line with an uncorrectable word the entry keeps its own bytes. -/
def State.bulkImage (s : State) (a i : Nat) : List Byte × Bool × State :=
  (List.range 8).foldl (fun (p : List Byte × Bool × State) k =>
    let (l, ue, s) := p.2.2.ddrGet (a + 64 * k) 64
    (p.1 ++ (if ue then s.bytes .ddr (s.entryAddr i + 64 * k) 64 else l), p.2.1 || ue, s)) ([], false, s)

/-- One image of a bulk load (R271, R293). -/
def State.bulkOne (s : State) (a : Nat) (before : Bool) (h : Nat × Nat) : State :=
  let (img, ue, s) := s.bulkImage a h.1
  let s := if ue then s.cause .meterdb 0 2 else s
  (s.rosterImage h.1 h.2 before img).2

/-- MDB_COMMAND_DONE (R35, R267, R271, R293): which: 0 read, 1 single write, 2 bulk; tries: how often each region of the read was read, one byte
each, D lowest. -/
def execMdbCommandDone (which : Fin 3) (tries : BitVec 24) (s : State) : Res :=
  .next (if !s.domOn 14 || !s.mdbBusy which.val || !s.hostTurn then s
    else if which.val = 0 then s.readDoneMdb tries.toNat
    else if which.val = 1 then
      let s := s.bufCheck
      let i := s.fld (mdbA rMDB_WR_CMD) 19 0
      let (st, s) := s.rosterImage i (s.fld (mdbA rMDB_WR_CMD) 26 24) (s.meterValid i) s.wrImage
      (s.wr (mdbA rMDB_WR_STAT) (BitVec.ofNat 32 (256 + st))).irq .meterdb 0 1
    else
      let src := (s.rd (mdbA rMDB_BULK_SRC)).toNat * 64
      let heads := s.work.bulk.take s.work.bulkTo
      let s0 := s
      let s := heads.zipIdx.foldl (fun s h => s.bulkOne (src + 512 * h.2) (s0.meterValid h.1.1) h.1) s
      let s := { s with work := { s.work with bulk := [], bulkTo := 0 } }
      (s.wr (mdbA rMDB_BULK_DONE) (BitVec.ofNat 32 heads.length)).irq .meterdb 0 2)

/-! ### Checkpoint and reload (R272, R273, R364) -/

/-- A checkpoint completion taken: an OK page is remembered under its tag, the page's number (R505). -/
def Pass.take (p : Pass) (c : Cell512) : Pass :=
  let w (i : Nat) := (cellWord c i).toNat
  let j := nbits (w 1) 47 16
  let at_ := (nbits (w 2) 17 0, nbits (w 2) 41 32)
  if nbits (w 1) 7 0 = 2 ∧ nbits (w 1) 15 8 = 0 then
    { p with pages := place j at_ (drop p.pages j) }
  else p

/-- Every visible completion of a splice taken by the pass; fuel bounds the pops. -/
def State.takePages (s : State) (comp : Nat) : Nat → Pass → Pass × State
  | 0, p => (p, s)
  | n + 1, p => match s.pop comp with
    | (none, s) => (p, s)
    | (some (c, _), s) => s.takePages comp n (p.take c)

/-- The image of page j of a pass in DDR, and its RFMT (R272, R364, R504): meter table, node table, ZERO_RUN table. -/
def State.passImage (s : State) (j : Nat) : Nat × Nat :=
  if j < 32768 then (s.entryAddr (32 * j), 1)
  else if j < 33280 then (s.work.nodeBase + 16384 * (j - 32768), 2)
  else (s.work.zeroBase + 16384 * (j - 33280), 0)

/-- A checkpoint request for page j of a pass (R504): stream 1, the page's number as its tag. -/
def State.checkpointCell (s : State) (j : Nat) : Cell512 :=
  mkCompletion 0 0 [2 + 1 * 2 ^ 8 + (s.passImage j).2 * 2 ^ 14 + j * 2 ^ 16, (s.passImage j).1 / 16384, 0, 0, 0, 0, 0]

/-- Is a pass due (R272): its period has gone by since the last one began. -/
def State.passDue (s : State) : Bool := s.work.passAt.all (fun a => decide (a + s.work.period * 1000000000 ≤ s.now))

/-- CHECKPOINT_PASS (R272, R364): the storing lay starts a pass, once one is due, or goes on with it; req, comp: the splices of its checkpoint
port. -/
def execCheckpointPass (req comp : BitVec 13) (s : State) : Res :=
  .next (if s.work.pass.isNone && !s.passDue then s
    else
      let fresh := s.work.pass.isNone
      let p := s.work.pass.getD ⟨s.nand.seq, []⟩
      let s := if fresh then { s with work := { s.work with passAt := some s.now } } else s
      let (p, s) := s.takePages comp.toNat 64 p
      let n := if fresh then 0 else s.work.nextPage
      let k := min (s.space req.toNat) (passPages - n)
      let s := s.offerAll req.toNat ((List.range k).map (fun j => s.checkpointCell (n + j)))
      if p.pages.length = passPages then
        { s with passes := (p :: s.passes).take 2, work := { s.work with pass := none, nextPage := 0 } }
      else { s with work := { s.work with pass := some p, nextPage := n + k } })

/-- The 16,384 bytes of a stored page, and its TORN mask. -/
def State.storedPage (s : State) (x : Nat × Nat) : Option (List Byte × Nat) :=
  match s.lbnBlock x.1 with
  | none => none
  | some (k, b) => (b.pages[x.2]?).map (fun r => (s.bytes .nand (pageAddr k x.2) 16384, r.user))

/-- Page j of a pass with the records marked torn there taken from an older pass (R273 step 1); size: of a record. Beside the bytes, the records
that came from the older pass. -/
def State.passPage (s : State) (newer : Pass) (older : Option Pass) (j size : Nat) : Option (List Byte × List Nat) :=
  let get (p : Pass) := ((p.pages.find? (fun e => e.1 = j)).map (·.2)).bind s.storedPage
  (get newer).map (fun x =>
    match (older.bind get).map (·.1) with
    | none => (x.1, [])
    | some old =>
      let torn := (List.range (16384 / size)).filter (fun i => x.2.testBit i)
      (torn.foldl (fun l i => patch l (size * i) ((old.drop (size * i)).take size)) x.1, torn))

/-- The nodes declared in a page of the node table. -/
def nodesIn (j : Nat) (l : List Byte) : List (Nat × BalNode) :=
  (List.range 128).filterMap (fun i => (nodeOf ((l.drop (128 * i)).take 128)).map (fun x => (128 * j + i, x)))

/-- The ZERO_RUN counts in a page of their table. -/
def runsIn (j : Nat) (l : List Byte) : List (Nat × Nat) :=
  (List.range 2048).filterMap (fun i =>
    let v := leAt l (8 * i) 8
    if v = 0 then none else some (2048 * j + i, v))

/-- The tables of a pass put back into DDR (R273 step 1, R364); the entries taken from the older pass. -/
def State.reloadPass (s : State) (newer : Pass) (older : Option Pass) : List Nat × State :=
  newer.pages.foldl (fun (x : List Nat × State) e =>
    let j := e.1
    let s := x.2
    let size := if j < 32768 then 512 else if j < 33280 then 128 else 16384
    match s.passPage newer older j size with
    | none => x
    | some (l, torn) =>
      let s := s.ddrPut (s.passImage j).1 l
      if j < 32768 then (x.1 ++ torn.map (fun i => 32 * j + i), s)
      else if j < 33280 then
        let nodes := (nodesIn (j - 32768) l).foldl (fun n r => place r.1 r.2 (drop n r.1)) s.bal.nodes
        (x.1, { s with bal := { s.bal with nodes } })
      else
        let zeroRun := (runsIn (j - 33280) l).foldl (fun n r => Machine.store (fun _ => 0) n r.1 r.2) s.bal.zeroRun
        (x.1, { s with bal := { s.bal with zeroRun } }))
    ([], s)

/-- The register index a record carries beside its j-th value (R239), where it carries one. -/
def recordReg (r : List Byte) (j : Nat) : Option Nat :=
  let w := leAt r (32 + 8 * j) 8
  if nbits w 63 48 < 16 then some (nbits w 63 48) else none

/-- One record rolled forward into its entry (R273 step 2). -/
def State.rollRecord (s : State) (r : List Byte) : State :=
  let i := leAt r 8 3
  let fl := leAt r 4 4
  if i = 0xFFFFFF ∨ 1048576 ≤ i ∨ fl.testBit 0 || fl.testBit 1 || fl.testBit 4 || fl.testBit 11 then s
  else
    let e := s.bytes .ddr (s.entryAddr i) 512
    if !entryValid e then s
    else
      let t := leAt r 16 6
      let last := leAt e 0x008 6
      let iend := leAt e 0x010 6
      let e := patch e 0x004 (toLe 4 (max (leAt e 0x004 4) (leAt r 12 4)))
      let e := patch e 0x008 (toLe 6 (max last t))
      let e := if leAt r 0 1 = 1 then patch e 0x010 (toLe 6 (max iend t)) else e
      let e := if t ≤ last then e
        else (List.range (min 3 (leAt r 1 1))).foldl (fun e j => match recordReg r j with
          | none => e
          | some k =>
            let e := patch e (0x018 + 6 * k) (toLe 6 (leAt r (32 + 8 * j) 6))
            patch e 0x078 (toLe 2 (leAt e 0x078 2 ||| 2 ^ k))) e
      s.ddrPut (s.entryAddr i) e

/-- The stored records of pages of a stream with a SEQ at or above one, each with its page's SEQ. -/
def State.recordsSince (s : State) (stream seq : Nat) : List (Nat × List Byte) :=
  let pages := s.nand.blocks.flatMap (fun e =>
    if e.2.stream = stream ∧ (e.2.st = .opened ∨ e.2.st = .live ∨ e.2.st = .relocating) then
      (e.2.pages.filter (fun p => seq ≤ p.seq)).map (fun p => (p.seq, pageAddr e.1 p.page)) else [])
  (pages.insertionSort (fun a b => a.1 ≤ b.1)).flatMap (fun p =>
    (((List.range 256).map (fun i => s.bytes .nand (p.2 + 64 * i) 64)).filter (fun l => 1 ≤ leAt l 0 1 && leAt l 0 1 ≤ 5)).map
      (fun l => (p.1, l)))

/-- The meter table, the node table and ZERO_RUN reloaded (R273, R364): pages of the newer pass, each entry rolled forward over the records
stored since the start of the pass it came from, the index placed anew. -/
def State.tableReload (s : State) (streams : List Nat) : State :=
  match s.passes with
  | [] => s
  | p :: rest =>
    let (torn, s) := { s with bal := { s.bal with nodes := [], zeroRun := [] } }.reloadPass p rest.head?
    let first := min p.start ((rest.head?.map (·.start)).getD p.start)
    let s := (streams.flatMap (fun st => s.recordsSince st first)).foldl (fun s r =>
      if r.1 < p.start ∧ !torn.contains (leAt r.2 8 3) then s else s.rollRecord r.2) s
    (p.pages.filter (fun e => e.1 < 32768)).foldl (fun s e => (List.range 32).foldl (fun s i =>
      let m := 32 * e.1 + i
      if entryValid (s.bytes .ddr (s.entryAddr m) 512) ∧ (s.findSlot (s.titleOf m)).isNone then (s.placeMeter m (s.titleOf m)).getD s
      else s) s) s

/-- TABLE_RELOAD (R273): what STORE writes to DDR in its slots (R33). -/
def execTableReload (s : State) : Res := .next (if s.storeTurn && s.domOn 15 then s.tableReload (if s.pairEn then [0, 2] else [0]) else s)

end Sys2Proof.Machine
end

