-- ==== Sys2Proof/Machine/Tariff.lean ====
section
/-! DEFINITION. Tariff programmes, their expansion and distribution, and Ilueno tokens (R282 to R291); host commands (R37). -/

namespace Sys2Proof.Machine

/-! ### Programmes (R282, R283) -/

/-- A season of a programme: start month × 32 + day, the local offset, the day type of each weekday. -/
def progSeason (b : List Byte) (k : Nat) : Nat × Int × (Nat → Nat) :=
  let o := 0x020 + 16 * k
  (leAt b o 1 * 32 + leAt b (o + 1) 1, signed 32 (leAt b (o + 4) 4), fun d => leAt b (o + 8 + d) 1)

/-- Is a month and day of the table in range. -/
def monthDay (b : List Byte) (o : Nat) : Bool :=
  1 ≤ leAt b o 1 && leAt b o 1 ≤ 12 && 1 ≤ leAt b (o + 1) 1 && leAt b (o + 1) 1 ≤ 31

/-- A programme that keeps the rules of the table (R282, R283); a day type in use names a profile the programme has (log entry 19). -/
def progOk (b : List Byte) : Bool :=
  let ns := leAt b 1 1
  let nx := leAt b 2 1
  let np := leAt b 3 1
  let season (k : Nat) : Bool :=
    monthDay b (0x020 + 16 * k) && leAt b (0x02F + 16 * k) 1 = 0 &&
    (List.range 7).all (fun d => (progSeason b k).2.2 d ≤ 3 && leAt b (0x120 + 4 * (4 * (k % 4) + (progSeason b k).2.2 d)) 1 < np)
  let special (k : Nat) : Bool :=
    monthDay b (0x0A0 + 4 * k) && leAt b (0x0A2 + 4 * k) 1 ≤ 3 && leAt b (0x0A3 + 4 * k) 1 = 0 &&
    (List.range ns).all (fun j => leAt b (0x120 + 4 * (4 * (j % 4) + leAt b (0x0A2 + 4 * k) 1)) 1 < np)
  let point (k j : Nat) : Nat := leAt b (0x160 + 24 * k + 2 * j) 2
  let profile (k : Nat) : Bool :=
    (List.range 12).all (fun j => !(point k j).testBit 15 || nbits (point k j) 10 0 ≤ 1439) &&
    (List.range 12).any (fun j => (point k j).testBit 15 && nbits (point k j) 10 0 = 0)
  b.length = 1024 && leAt b 0 1 ≤ 63 && 1 ≤ ns && ns ≤ 8 && nx ≤ 32 && 1 ≤ np && np ≤ 16 && 1 ≤ leAt b 4 2 &&
  zerosAt b 0x006 2 && zerosAt b 0x00C 4 && zerosAt b 0x016 2 && zerosAt b 0x018 8 && zerosAt b 0x2E0 288 &&
  (List.range ns).all season && (List.range nx).all special && (List.range np).all profile

/-- A programme loaded under a number, as DDR holds it (R33, R282); where its 1 KiB lies is the rigging's (log entry 34). -/
def State.prog (s : State) (n : Nat) : Option (List Byte) :=
  if s.progLoaded n then some (s.bytes .ddr (s.work.progBase + 1024 * n) 1024) else none

/-- May an image be loaded (R282): its rules kept, its VERSION higher than that of the programme it replaces. -/
def State.progNewer (s : State) (image : List Byte) : Bool :=
  s.domOn 14 && progOk image && (s.prog (leAt image 0 1)).all (fun old => decide (leAt old 4 2 < leAt image 4 2))

/-- A programme put into DDR. -/
def State.putProg (s : State) (image : List Byte) : State :=
  let n := leAt image 0 1
  let s := s.ddrPut (s.work.progBase + 1024 * n) image
  { s with work := { s.work with progs := if s.work.progs.contains n then s.work.progs else s.work.progs ++ [n] } }

/-- TARIFF_LOAD (R36, R37, R282): a host command with a programme's image; refused where a rule is broken or VERSION is not higher. The outcome,
1 where it is loaded, is also the data of the last answer. -/
def execTariffLoad (ring reply : Fin 64) (image : List (BitVec 8)) (s : State) : Res :=
  .next (s.hostServe fieldLay ring.val reply.val (fun s =>
    if s.progNewer image then ([1], { s.putProg image with rdata := 1 }) else ([0], { s with rdata := 0 })))

/-- The season in force (R283 step 1); of equal starts the lowest number. -/
def seasonOf (b : List Byte) (t : Nat) : Nat :=
  let c := civil (((t : Int) + signed 32 (leAt b 8 4)).toNat / 86400)
  let date := c.2.1 * 32 + c.2.2
  let start (k : Nat) : Nat := (progSeason b k).1
  let latest (l : List Nat) : Option Nat := l.foldl (fun m k => match m with
    | none => some k
    | some j => if start j < start k then some k else some j) none
  let all := List.range (leAt b 1 1)
  ((latest (all.filter (fun k => start k ≤ date))).orElse (fun _ => latest all)).getD 0

/-- The rate a programme gives at a TSU time (R283): 1 to 8. -/
def progRate (b : List Byte) (t : Nat) : Nat :=
  let k := seasonOf b t
  let l := ((t : Int) + (progSeason b k).2.1).toNat
  let c := civil (l / 86400)
  let sp := (List.range (leAt b 2 1)).find? (fun j => leAt b (0x0A0 + 4 * j) 1 = c.2.1 && leAt b (0x0A1 + 4 * j) 1 = c.2.2)
  let d := match sp with
    | some j => leAt b (0x0A2 + 4 * j) 1
    | none => (progSeason b k).2.2 ((l / 86400 + 3) % 7)
  let p := leAt b (0x120 + 4 * (4 * (k % 4) + d)) 1
  let m := l / 60 % 1440
  let best := (List.range 12).foldl (fun (x : Nat × Nat) j =>
    let w := leAt b (0x160 + 24 * p + 2 * j) 2
    if w.testBit 15 ∧ nbits w 10 0 ≤ m ∧ x.1 ≤ nbits w 10 0 then (nbits w 10 0, nbits w 14 12 + 1) else x) (0, 1)
  best.2

/-- The programme in force for a point at a time (R283): the newest assigned whose ACTIVATE has come. -/
def State.progAt (s : State) (p t : Nat) : Option (List Byte) :=
  ((look (fun _ => []) s.work.assigned p).filterMap s.prog).find? (fun b => leAt b 0x010 6 ≤ t)

/-- The rate in force for a point at a time (R283). -/
def State.rateAt (s : State) (p t : Nat) : Nat := match s.progAt p t with
  | some b => progRate b t
  | none => 1

/-- The switches of a point from a time: the rate now, then each change of the next 48 hours; at most the 64 entries of the list. -/
def State.switches (s : State) (p t : Nat) : List (Nat × Nat) :=
  ((t, s.rateAt p t) :: ((List.range 172800).map (fun k => t + k + 1)).filterMap (fun x =>
    if s.rateAt p x ≠ s.rateAt p (x - 1) then some (x, s.rateAt p x) else none)).take 64

/-- A programme assigned to a point by host command (R284). -/
def State.assignProg (s : State) (p n : Nat) : State :=
  { s with work := { s.work with assigned := Machine.store (fun _ => []) s.work.assigned p (n :: look (fun _ => []) s.work.assigned p) } }

/-- SWITCH_LIST_REFILL (R284): the Lanyard refills the switch list of point p. -/
def execSwitchListRefill (p : Fin 16) (t : Nat) (s : State) : Res :=
  let s := s.at t
  let l := s.switches p.val s.tsuTime.sec
  .next (if !(s.domOn 1 && s.domOn 2) then s
    else ((List.range 64).foldl (fun s e =>
      s.setBk (totA rTOT_SW_DATA) (swKey p.val e) (match l[e]? with
        | some x => BitVec.ofNat 64 (2 ^ 63 + (x.2 - 1) * 2 ^ 48 + x.1)
        | none => 0)) s).wr (totA rTOT_SW_SEL) (BitVec.ofNat 32 p.val))

/-! ### The field region (R264, R265) -/

/-- The device-wide number of the strand that writes region F: strand 0 of the field-service lay, lay 7 (log entry 19). -/
def fieldStrand : Nat := 112

/-- Region F of a meter's entry. -/
def State.field (s : State) (i : Nat) : List Byte := s.bytes .ddr (s.entryAddr i + 0x180) 0x80

/-- Region F written by the field-service lay. -/
def State.setField (s : State) (i : Nat) (f : List Byte) : State := s.writeRegion i 2 fieldStrand f

/-- TAR_STATE with a state, a pending programme and tries. -/
def tarState (f : List Byte) (prog st tries : Nat) : List Byte :=
  let w := leAt f 0x20 8
  patch f 0x20 (toLe 8 (nbits w 7 0 + prog * 2 ^ 8 + st * 2 ^ 16 + tries * 2 ^ 20 + nbits w 47 32 * 2 ^ 32))

/-- A completion cell to the host that tells an outcome (R285, R288, R290, R610); how its words code it is the rigging's (log entry 34). -/
def State.tellHost (s : State) (ring : Nat) (what : List Nat) : State :=
  s.offer (6144 + ring) (mkCompletion 0 0 ((Config.hostWords what).map (·.toNat)))

/-- A transmit message (R386, R677): the descriptor's words, then the payload's cells. -/
def transmitCells (chan tag : Nat) (words : List Nat) (l : List Byte) : List Cell512 :=
  let n := (l.length + 55) / 56
  mkCell (mkHeader true false 56 chan tag :: words) :: (List.range n).map (fun i =>
    let part := (l.drop (56 * i)).take 56
    BitVec.ofNat 512 (mkHeader false (i + 1 = n) part.length chan tag + leNat part * 2 ^ 64))

/-- A message for port m of RADIO or PLC (R386, table "Transmit descriptor"): dest none is a broadcast; key: of the keys 0 to 3, none takes
the lay's own; couple: of PLC (R415). TX_TAG is the meter. -/
def State.macMessage (s : State) (m tag : Nat) (dest : Option Nat) (key : Option Nat) (couple : Nat) (l : List Byte) : List Cell512 :=
  let pan := s.fld (if m < 4 then pa .radio m rRAD_PAN else pa .plc 0 rPLC_PAN) 15 0
  let level := (([0, 5, 6, 7] : List Nat)[Config.txSecurity % 4]?).getD 0
  let k := (key.getD (Config.txSecurity / 4)) % 4
  let w := 65535 + pan * 2 ^ 16 + dest.isSome.toNat * 2 ^ 32 + dest.isSome.toNat * 2 ^ 33 + level * 2 ^ 36 + k * 2 ^ 40 +
    (if m < 4 then 0 else couple * 2 ^ 44)
  transmitCells (if m < 4 then 0xF000 + m else 0xF101 + m - 4) tag [dest.getD 0, w, l.length] l

/-- The block a splice ends at. -/
def State.spliceEnd (s : State) (n : Nat) : Nat := s.fld (descA n 1) 12 8

/-- The port of a splice of block end 0x04 or 0x05 that a meter's messages leave by, and their first hop (R386): a port with the meter among its
neighbours, else the open `Config.firstHop`. -/
def State.hopOf (s : State) (out i : Nat) : Nat × Nat :=
  let ports : List Nat := if s.spliceEnd out = 4 then [0, 1, 2, 3] else [4, 5, 6]
  (ports.findSome? (fun m => ((s.port7 m).nbs.find? (fun e => e.2.valid && e.2.isMeter && decide (e.2.meter = i))).map (fun e => (m, e.2.ext)))).getD
    (let x := Config.firstHop i
     (if s.spliceEnd out = 4 then x.1 % 4 else 4 + x.1 % 3, x.2.toNat))

/-- The station of a UART loop that a meter is (R677). -/
def State.loopOf (s : State) (i : Nat) : Option (Nat × Nat) :=
  (List.range 8).findSome? (fun n => ((s.uart n).stations.find? (fun e => e.2.valid && decide (e.2.meter = i))).map (fun e => (n, e.2.addr.toNat)))

/-- A message to a meter as the block at the end of its splice takes it (R386, R677). -/
def State.meterCells (s : State) (out i : Nat) (l : List Byte) : List Cell512 :=
  let e := s.spliceEnd out
  if e = 4 ∨ e = 5 then s.macMessage (s.hopOf out i).1 i (some (s.hopOf out i).2) none 0 l
  else match s.loopOf i with
    | some (n, a) => if e = 6 then transmitCells (0xF200 + n) i [a, 0, l.length] l else messageCells 0 i l
    | none => messageCells 0 i l

/-- Messages to a meter: TX_CTR advances by one for each (R264), and their bytes are DLMS messages (log entry 19). -/
def State.toMeterAll (s : State) (i out : Nat) (l : List (List Nat)) : State :=
  let f := s.field i
  let c := leAt f 4 4
  let s := s.setField i (patch f 4 (toLe 4 (c + l.length)))
  l.zipIdx.foldl (fun s m => s.offerAll out (s.meterCells out i (Config.dlmsBytes (i :: (c + m.2 + 1) :: m.1)))) s

/-- n messages to a meter that differ in their number alone. -/
def State.toMeter (s : State) (i n out : Nat) (content : List Nat) : State :=
  s.toMeterAll i out ((List.range n).map (fun k => k :: content))

/-! ### Distribution (R285) -/

/-- A meter's part in a distribution. -/
def State.setDist (s : State) (i : Nat) (d : Option Dist) : State :=
  let rest := drop s.work.dist i
  { s with work := { s.work with dist := match d with | some d => place i d rest | none => rest } }

/-- The meters of a distribution: those named that are VALID, or every VALID meter whose PLAN names the programme. -/
def State.distMeters (s : State) (prog : Nat) (meters : Option (List (BitVec 20))) : List Nat := match meters with
  | some l => (l.map (·.toNat)).filter s.meterValid
  | none => (List.range 1048576).filter (fun i => s.meterValid i && s.le .ddr (s.entryAddr i + 0x0CC) 1 = prog)

/-- TARIFF_DISTRIBUTION (R36, R37, R285): a host command, refused where the programme is not loaded, more than 4,096 meters are named or the
window is not 60 s to 7 days; the first sends are spread over the window. -/
def execTariffDistribution (ring reply prog : Fin 64) (meters : Option (List (BitVec 20))) (start : BitVec 48) (len : BitVec 20)
    (act : BitVec 48) (s : State) : Res :=
  .next (s.hostServe fieldLay ring.val reply.val (fun s =>
    if !s.domOn 10 || !s.domOn 14 || !s.progLoaded prog.val || decide (4096 < (meters.getD []).length) ||
        decide (len.toNat < 60) || decide (604800 < len.toNat) then ([0], s)
    else
      let l := s.distMeters prog.val meters
      ([1], l.zipIdx.foldl (fun s m =>
        let d : Dist := ⟨prog.val, len.toNat, act.toNat, start.toNat + m.2 * len.toNat / l.length, 0, none⟩
        (s.setField m.1 (tarState (s.field m.1) prog.val 1 0)).setDist m.1 (some d)) s)))

/-- How a meter's distribution ended, told to the host: 3 confirmed, 4 failed; cause 1: PDU_SIZE. -/
def distOutcome (i prog st cause : Nat) : List Nat := [1, i, prog, st, cause]

/-- A try that has failed: due again after a quarter of the window, or failed for good at the third (R285). -/
def State.tryFailed (s : State) (i : Nat) (d : Dist) (ring : Nat) : State :=
  if d.tries < 3 then
    (s.setField i (tarState (s.field i) d.prog 1 d.tries)).setDist i
      (some { d with sent := none, due := s.tsuTime.sec + d.len / 4 })
  else ((s.setField i (tarState (s.field i) d.prog 4 d.tries)).setDist i none).tellHost ring (distOutcome i d.prog 4 0)

/-- The passive season profile of a programme (R285): by season its number, start month and day, local offset and week. -/
def seasonTable (b : List Byte) : List Nat :=
  (List.range (leAt b 1 1)).flatMap (fun k => [k, leAt b (0x020 + 16 * k) 1, leAt b (0x021 + 16 * k) 1, leAt b (0x024 + 16 * k) 4, k])

/-- The passive week profile table: by season the day profile of Monday to Sunday. -/
def weekTable (b : List Byte) : List Nat :=
  (List.range (leAt b 1 1)).flatMap (fun k => k :: (List.range 7).map (fun d => 4 * (k % 4) + (progSeason b k).2.2 d))

/-- The logical name 0.0.10.0.100.255 of the tariff script table. -/
def scriptTable : List Nat := [0, 0, 10, 0, 100, 255]

/-- The passive day profile table (R285): by day profile its actions: the minute, the script table, the selector equal to the rate. -/
def dayTable (b : List Byte) : List Nat :=
  (List.range 16).flatMap (fun e =>
    let p := leAt b (0x120 + 4 * e) 1
    let acts := ((List.range 12).map (fun j => leAt b (0x160 + 24 * p + 2 * j) 2)).filter (fun w => w.testBit 15)
    e :: acts.length :: acts.flatMap (fun w => nbits w 10 0 :: scriptTable ++ [nbits w 14 12 + 1]))

/-- The set-requests of a calendar (R285): to the meter's Activity calendar 0.0.13.0.0.255, class 20, attributes 7 to 10. -/
def calendarRequests (b : List Byte) (act : Nat) : List (List Nat) :=
  let put (attr : Nat) (l : List Nat) : List Nat := 20 :: [0, 0, 13, 0, 0, 255] ++ attr :: l
  [put 7 (seasonTable b), put 8 (weekTable b), put 9 (dayTable b), put 10 [act]]

/-- TARIFF_SEND (R285): a meter's calendar sent at its time: three profile tables and the activation time; pduFits: the meter's PDU size
holds each table; answer: what its set-responses say where it answers, all success or a failure. -/
def execTariffSend (meter : BitVec 20) (pduFits : Bool) (answer : Option Bool) (ring : Fin 64) (out : BitVec 13) (t : Nat)
    (s : State) : Res :=
  let s := s.at t
  let i := meter.toNat
  .next (match s.work.dist.find? (fun e => e.1 = i) with
    | none => s
    | some (_, d) =>
      if d.sent.isSome || decide (s.tsuTime.sec < d.due) || !s.domOn 10 || !s.domOn 14 then s
      else if !pduFits then
        ((s.setField i (tarState (s.field i) d.prog 4 d.tries)).setDist i none).tellHost ring.val (distOutcome i d.prog 4 1)
      else
        let d := { d with tries := d.tries + 1, sent := some s.tsuTime.sec }
        let b := (s.prog d.prog).getD []
        let f := patch (tarState (s.field i) d.prog 2 d.tries) 0x28 (toLe 8 s.tsuTime.sec)
        let s := ((s.setField i f).toMeterAll i out.toNat (calendarRequests b d.act)).setDist i (some d)
        match answer with
        | none => s
        | some false => s.tryFailed i d ring.val
        | some true =>
          let w := d.prog + d.prog * 2 ^ 8 + 3 * 2 ^ 16 + d.tries * 2 ^ 20 + leAt b 4 2 * 2 ^ 32
          ((s.setField i (patch (s.field i) 0x20 (toLe 8 w))).setDist i none).tellHost ring.val (distOutcome i d.prog 3 0))

/-- TARIFF_RESPONSE_TIMEOUT (R285): a silence of 60 s. -/
def execTariffResponseTimeout (meter : BitVec 20) (ring : Fin 64) (t : Nat) (s : State) : Res :=
  let s := s.at t
  .next (match s.work.dist.find? (fun e => e.1 = meter.toNat) with
    | none => s
    | some (_, d) => match d.sent with
      | none => s
      | some t0 => if s.tsuTime.sec < t0 + 60 ∨ !s.domOn 10 ∨ !s.domOn 14 then s else s.tryFailed meter.toNat d ring.val)

/-! ### Tokens (R286 to R291) -/

/-- The value of 20 digits (R286). -/
def tokenValue (l : List Byte) : Nat := l.foldl (fun v c => 10 * v + (c.toNat - 0x30)) 0

/-- The digits of a reading's data (R288): the first string of 20 bytes, each a digit. -/
def tokenOf (strings : List (List Byte)) : Option Nat :=
  (strings.find? (fun l => l.length = 20 && l.all (fun c => 0x30 ≤ c.toNat && c.toNat ≤ 0x39))).map tokenValue

/-- AMOUNT in hundredths (R286). -/
def tokenAmount (v : Nat) : Nat := nbits v 34 24 * 10 ^ nbits v 37 35

/-- The MAC of a token (R287). -/
def tokenMac (key title : List Byte) (v : Nat) : Nat :=
  beNat ((cmac key (title ++ [0x49, 0x01] ++ toBe 6 (v / 2 ^ 24))).take 3)

/-- The ledger after an accepted identifier (R289 steps 1 to 3): floor and window; fuel bounds step 3. -/
def ledgerShift : Nat → Nat × Nat → Nat × Nat
  | 0, x => x
  | n + 1, (fl, w) => if w.testBit 0 then ledgerShift n (fl + 1, w / 2) else (fl, w)

/-- The floor and the window after an accepted identifier. -/
def ledger (fl w id : Nat) : Nat × Nat :=
  let (fl, w) := if fl + 64 < id then (id - 64, w / 2 ^ (id - 64 - fl)) else (fl, w)
  ledgerShift 64 (fl, w ||| 2 ^ (id - fl - 1))

/-- The result code of a token's checks after the key (R288), and its identifier. -/
def tokenCheck (f : List Byte) (mac v : Nat) : Nat :=
  let id := nbits v 61 38
  let fl := nbits (leAt f 8 4) 23 0
  if mac ≠ nbits v 23 0 then 5
  else if 2 ≤ nbits v 65 62 then 6
  else if id ≤ fl then 7
  else if id ≤ fl + 64 ∧ (leAt f 0x10 8).testBit (id - fl - 1) then 8
  else 0

/-- The credit key of a meter (R287), loaded through the field-service lay's key port. -/
def State.creditKey (s : State) (i : Nat) : KeyReg × State :=
  let a := s.entryAddr i
  let parent := nbits (s.le .ddr (a + 0x0C0) 4) 11 0
  let req : KeyReq := ⟨0, 0, 1, BitVec.ofNat 64 (parent + s.le .ddr (a + 0x0C4) 4 * 2 ^ 16), s.titleOf i, 0, false⟩
  let (k, s) := s.serveLoad 7 req
  (k, s.countLoad 7 ((s.lay 7).keyq.length + 1) k.st)

/-- The result of a redemption and what it writes (R288, R289): the code, the amount to deliver. -/
def State.redeem (s : State) (i : Nat) (tok : Option Nat) : Nat × Option Nat × State :=
  let f := s.field i
  let stat := leAt f 0x0C 4
  let fails := nbits stat 15 8
  let fin (s : State) (code fails : Nat) : State := s.setField i (patch (s.field i) 0x0C (toLe 4 (code + fails * 2 ^ 8)))
  match tok with
  | none => (1, none, fin s 1 fails)
  | some v =>
    if 2 ^ 66 ≤ v then (1, none, fin s 1 fails)
    else if !(s.le .ddr (s.entryAddr i + 0x0C0) 4).testBit 31 then (2, none, fin s 2 fails)
    else if 8 ≤ fails then (3, none, fin s 3 fails)
    else
      let (k, s) := s.creditKey i
      if k.st ≠ .ready then (4, none, fin s 4 fails)
      else
        let code := tokenCheck f (tokenMac (keyBytes k) (toLe 8 (s.titleOf i).toNat) v) v
        if code = 5 then (5, none, fin s 5 (min 255 (fails + 1)))
        else if code ≠ 0 then (code, none, fin s code fails)
        else
          let x := ledger (nbits (leAt f 8 4) 23 0) (leAt f 0x10 8) (nbits v 61 38)
          let add := nbits v 65 62 = 0
          let f := patch (patch f 8 (toLe 4 x.1)) 0x10 (toLe 8 x.2)
          let f := if add then patch f 0x18 (toLe 8 (leAt f 0x18 8 + tokenAmount v)) else f
          (0, if add then some (tokenAmount v) else none, s.setField i (patch f 0x0C (toLe 4 0)))

/-- The CREDIT reading of a meter that is next (R291): the one with the lowest INGRESS_SEQ, which counts modulo 2^32. -/
def State.nextToken (s : State) (i : Nat) : Option (Nat × (Nat × Bool)) :=
  (s.work.tokens.filter (fun e => e.1 = i)).foldl (fun m e => match m with
    | none => some e
    | some x => if signed 32 ((e.2.1 + 2 ^ 32 - x.2.1) % 2 ^ 32) < 0 then some e else some x) none

/-- The CREDIT readings of unknown meters reported with code 9 (R288): check 1 or 3 failed, and no meter's turn comes for them. -/
def State.reportUnknown (s : State) (ring : Nat) : State :=
  if !s.domOn 10 || !s.domOn 14 then s
  else
    let l := s.work.tokens.filter (fun e => e.1 = 0xFFFFFF)
    l.foldl (fun s _ => s.tellHost ring [2, 0xFFFFFF, 9])
      { s with work := { s.work with tokens := s.work.tokens.filter (fun e => e.1 ≠ 0xFFFFFF) } }

/-- TOKEN_REDEEM (R286 to R291): the next CREDIT reading of a meter, with the strings of its data, redeemed if it passed checks 1 to 3, else
reported with code 9. The ledger is written before the credit action is sent. -/
def execTokenRedeem (meter : BitVec 20) (strings : List (List (BitVec 8))) (ring : Fin 64) (out : BitVec 13)
    (t : Nat) (s : State) : Res :=
  let s := (s.at t).reportUnknown ring.val
  let i := meter.toNat
  .next (match s.nextToken i with
    | none => s
    | some e =>
      if !s.domOn 10 || !s.domOn 14 then s
      else
        let s := { s with work := { s.work with tokens := s.work.tokens.erase e } }
        if !e.2.2 || !s.meterValid i then s.tellHost ring.val [2, i, 9]
        else
          let (code, pay, s) := s.redeem i (tokenOf strings)
          let s := s.tellHost ring.val [2, i, code]
          match pay with
          | none => s
          | some n =>
            let s := s.toMeter i 1 out.toNat (n :: (s.bytes .ddr (s.entryAddr i + 0x0E0) 9).map (·.toNat))
            { s with work := { s.work with credits := s.work.credits ++ [(i, (n, s.tsuTime.sec))] } })

/-- CREDIT_ACTION_TIMEOUT (R290): the result of a meter's oldest credit action, or a silence of 60 s, reported to the host; the ledger stays. -/
def execCreditActionTimeout (meter : BitVec 20) (result : Option (BitVec 8)) (ring : Fin 64) (t : Nat) (s : State) : Res :=
  let s := s.at t
  let i := meter.toNat
  .next (match s.work.credits.find? (fun e => e.1 = i) with
    | none => s
    | some c =>
      if result.isNone ∧ s.tsuTime.sec < c.2.2 + 60 then s
      else { s with work := { s.work with credits := s.work.credits.erase c } }.tellHost ring.val
        (3 :: i :: c.2.1 :: (result.toList.map BitVec.toNat)))

/-! ### Host commands (R37) -/

/-- MAC_FAILS of a meter cleared (R288). -/
def State.clearFails (s : State) (i : Nat) : State :=
  let f := s.field i
  s.setField i (patch f 0x0C (toLe 4 (nbits (leAt f 0x0C 4) 7 0)))

/-- The Lanyard names the SECURITY role's authentication slot to DBG (R647). -/
def State.wideSlot (s : State) (slot : Nat) : State :=
  if s.normalRuns then (s.putF (pa .dbg 0 rDBG_KEY) 27 16 slot).putBit (pa .dbg 0 rDBG_KEY) 15 true else s

/-- What a host command orders, done (R37): 1 done, 0 refused. -/
def State.hostOrder (s : State) : HostOrder → List Nat × State
  | .clearFails i => if s.domOn 14 && s.meterValid i.toNat then ([1], s.clearFails i.toNat) else ([0], s)
  | .window w => if 1 ≤ w.toNat ∧ w.toNat ≤ 86400 then ([1], { s with work := { s.work with window := w.toNat } }) else ([0], s)
  | .passPeriod p => if 60 ≤ p.toNat ∧ p.toNat ≤ 86400 then ([1], { s with work := { s.work with period := p.toNat } }) else ([0], s)
  | .roleKeys r a u =>
    if r.val = 0 then ([0], s)
    else
      let s := { s with work := { s.work with roleKeys := place r.val (a.toNat, u.toNat) (drop s.work.roleKeys r.val) } }
      ([1], if r.val = 3 then s.wideSlot a.toNat else s)
  | .meshPort p => ([1], { s with work := { s.work with meshPort := p.toNat } })
  | .assign p n => if s.progLoaded n.val then ([1], s.assignProg p.val n.val) else ([0], s)
  | .other => ([1], s)

/-- The lay that owns the state a host command orders about (R25, R37). -/
def orderLay : HostOrder → Nat → Bool
  | .window _ => ingestLay
  | .passPeriod _ => storeLay
  | .other => fun _ => true
  | _ => fieldLay

/-- HOST_COMMAND (R36, R37): the owning lay pops a command from one host-facing splice and answers with a completion cell on the
paired one, with the command's CHAN and AUX. -/
def execHostCommand (ring reply : Fin 64) (order : HostOrder) (s : State) : Res :=
  .next (s.hostServe (orderLay order) ring.val reply.val (fun s => s.hostOrder order))

end Sys2Proof.Machine
end

