-- ==== Sys2Proof/Machine/Lanyard.lean ====
section
/-! DEFINITION. The Lanyard's lockstep, contexts, notices and watchdogs, SENS and the lifetime record (R523 to R527, R533, R536 to R544). -/

namespace Sys2Proof.Machine

/-- A register of the WDOG page. -/
abbrev wdA (o : Nat) : Nat := pa .wdog 0 o

/-! ### Lockstep, memory, contexts (R525 to R527) -/

/-- A comparison mismatch (R526). -/
def State.lockstep (s : State) : State :=
  if !s.domOn 2 ∨ s.bitAt (wdA rLNY_STAT) 0 then s
  else (s.putBit (wdA rLNY_ERR) 2 true).putBit (wdA rLNY_STAT) 0 true

/-- A write of LNY_ERR (R544): LOCKSTEP stays set until the chip reset that follows. -/
def State.lanyErr (s : State) (q : Requester) (v : Word32) : State :=
  s.guarded q (wdA rLNY_ERR) v false fun s =>
    let s := s.plain (wdA rLNY_ERR) (v.setWidth 64)
    if s.bitAt (wdA rLNY_STAT) 0 then s.putBit (wdA rLNY_ERR) 2 true else s

/-- LOCKSTEP_MISMATCH (R526). -/
def execLockstepMismatch (s : State) : Res := .next s.lockstep

/-- A Lanyard memory read under LNY_INJ (R544): the injected condition. -/
def State.lanyInject (s : State) : Nat × State :=
  let a := wdA rLNY_INJ
  let cont := s.bitAt a 31
  if s.bitAt a 1 then (2, if cont then s else s.putBit a 1 false)
  else if s.bitAt a 0 then (1, if cont then s else s.putBit a 0 false)
  else (0, s)

/-- What a checked Lanyard memory read reports (R527). -/
def State.lanyFound (s : State) (addr c : Nat) (scrub : Bool) : State :=
  let at_ (ue : Bool) : Word32 := BitVec.ofNat 32 (2 ^ 31 + ue.toNat * 2 ^ 30 + scrub.toNat * 2 ^ 29 + addr / 8 * 8)
  if c = 1 then
    (((s.putBit (wdA rLNY_ERR) 0 true).pulse 30).bump (wdA rLNY_CE_COUNT) 1).wr (wdA rLNY_MEM_ADDR) (at_ false)
  else if c = 2 then (s.putBit (wdA rLNY_ERR) 1 true).wr (wdA rLNY_MEM_ADDR) (at_ true)
  else s

/-- LANYARD_SCRUB (R527): busy: the bank a core uses in the cycle. -/
def execLanyardScrub (busy : Option (Fin 8)) (s : State) : Res :=
  let w := s.lany.scrub
  .next (if !s.domOn 2 ∨ busy.any (fun b => b.val = w / 8192) then s
    else
      let (i, s) := s.lanyInject
      let c := min 2 (s.eccOf .lany (8 * w) + i)
      let s := s.lanyFound (8 * w) c true
      let s := if c = 1 then s.setEcc .lany (8 * w) 0 else s
      { s with lany := { s.lany with scrub := (w + 1) % 65536 } })

/-- An entry to the safety context (R525): an NMI that finds it running, or the cores halted, waits; held cores take none. -/
def State.enterSafety (s : State) (nmi : Bool) : State :=
  if !s.domOn 2 ∨ s.bitAt (wdA rLNY_STAT) 0 then s
  else if s.bitAt (wdA rLNY_STAT) 1 ∨ s.lany.halted then
    (if nmi ∨ s.lany.halted then { s with lany := { s.lany with nmi := true } } else s)
  else s.putBit (wdA rLNY_STAT) 1 true

/-- SAFETY_GATE_CALL (R525). -/
def execSafetyGateCall (s : State) : Res := .next (if s.normalRuns then s.putBit (wdA rLNY_STAT) 1 true else s)

/-- SAFETY_RETURN (R525): a waiting NMI is taken at once. -/
def execSafetyReturn (s : State) : Res :=
  .next (if !(s.lanyRuns && s.bitAt (wdA rLNY_STAT) 1) then s
    else if s.lany.nmi then { s with lany := { s.lany with nmi := false } }
    else s.putBit (wdA rLNY_STAT) 1 false)

/-! ### Notices and capacity (R167, R533) -/

/-- The lays in RUN. -/
def State.running (s : State) : List Nat := (List.range 8).filter (fun n => s.domOn (3 + n) && s.laySt n = 3)

/-- The capacity of a class as a fraction (R167): UNITS_PER_TURN over the running lays, at 0.99 × FLOOR. -/
def State.capacityOf (s : State) (cls : Nat) : Nat × Nat :=
  s.running.foldl (fun (p : Nat × Nat) n =>
    let t := max 1 (s.fld (pa .lay n rLAY_TURN_LEN) 16 0)
    (p.1 * t + s.units n cls * s.fld (pa .lay n rLAY_FLOOR) 19 0 * 990 * p.2, p.2 * t)) (0, 1)

/-- A capacity in readings per second; its rounding is open (log entry 25). -/
def State.capacity (s : State) (cls : Nat) : Nat × State :=
  let (n, d) := s.capacityOf cls
  let (x, s) := s.roundFree (n : Int) d
  (x.toNat, s)

/-- The traffic classes that the budget sheets of the running lays list, in ascending order (R158, R216). -/
def State.classes (s : State) : List Nat :=
  (List.range 256).filter (fun c => s.running.any (fun n => s.sheetHas n c))

/-- A change of capacity since the last notice of one is noticed (R167, R533): the classes, each with its capacity. -/
def State.capacityCheck (s : State) : State :=
  let cs := s.classes
  let key := if s.running = [] then [] else cs.flatMap (fun c => [c, (s.capacityOf c).1, (s.capacityOf c).2])
  if key = s.lany.capacity then s
  else
    let (l, s) := cs.foldl (fun (p : List Nat × State) c =>
      let r := p.2.capacity c
      (p.1 ++ [c, r.1], r.2)) (([] : List Nat), s)
    ({ s with lany := { s.lany with capacity := key } }).notify 0x100 l

/-- NOTICE_PUSH (R533): the oldest notice, once ring 2 has space for it; DETAIL counts the notices dropped. -/
def execNoticePush (s : State) : Res :=
  .next (if !s.normalRuns then s
    else
      let s := s.capacityCheck
      match s.lany.notices with
      | [] => s
      | (code, (n, body)) :: rest =>
        let cs := wordCells (0x8000 + (Config.noticeKind code).toNat) n ((s.lany.dropped % 2 ^ 16 * 2 ^ 16) :: body)
        if s.space 6146 < cs.length then s
        else ({ s with lany := { s.lany with notices := rest, dropped := 0 } }).offerAll 6146 cs)

/-! ### Watchdogs (R539 to R541) -/

/-- A host expiry (R539); the count restarts from a time. -/
def State.hostExpiry (s : State) (at_ : Nat) : State :=
  let s := ((s.cause .wdog 0 0).irq .wdog 0 0).bumpF (wdA rWDG_CNT) 15 0 1
  (s.setTimer (wdA rWDG_HOST_LEFT) (at_ + s.fld (wdA rWDG_HOST_CFG) 15 0 * 1000000)).lanyEvent 0x41 []

/-- A write of WDG_HOST_CFG: the count starts with the write that sets EN (log entry 25). -/
def State.hostCfg (s : State) (q : Requester) (v : Word32) : State :=
  s.guarded q (wdA rWDG_HOST_CFG) v false fun s =>
    let was := s.bitAt (wdA rWDG_HOST_CFG) 31
    let s := s.plain (wdA rWDG_HOST_CFG) (v.setWidth 64)
    if !bit v 31 then s.setTimer (wdA rWDG_HOST_LEFT) 0
    else if was then s
    else ({ s with lany := { s.lany with kickAt := s.now } }).setTimer (wdA rWDG_HOST_LEFT)
      (s.now + s.fld (wdA rWDG_HOST_CFG) 15 0 * 1000000)

/-- A write of WDG_HOST_KICK (R539). -/
def State.hostKick (s : State) (q : Requester) (v : Word32) : State :=
  s.guarded q (wdA rWDG_HOST_KICK) v false fun s =>
    if !s.bitAt (wdA rWDG_HOST_CFG) 31 then s
    else if v = 0xC35A ∧ s.lany.kickAt + s.fld (wdA rWDG_HOST_WIN) 15 0 * 1000000 ≤ s.now then
      ({ s with lany := { s.lany with kickAt := s.now } }).setTimer (wdA rWDG_HOST_LEFT)
        (s.now + s.fld (wdA rWDG_HOST_CFG) 15 0 * 1000000)
    else (s.cause .wdog 0 1).hostExpiry s.now

/-- HOST_WATCHDOG_KICK (R539). -/
def execHostWatchdogKick (q : Requester) (v : BitVec 32) (t : Nat) (s : State) : Res := .next ((s.at t).hostKick q v)

/-- HOST_WATCHDOG_EXPIRY (R539). -/
def execHostWatchdogExpiry (t : Nat) (s : State) : Res :=
  let s := s.at t
  let due := s.timer (wdA rWDG_HOST_LEFT)
  .next (if !(s.domOn 2 && s.bitAt (wdA rWDG_HOST_CFG) 31) ∨ due = 0 ∨ s.now < due then s else s.hostExpiry due)

/-- The Lanyard watchdog's stage starts; while the Lanyard is halted its count is held (R541, R654). -/
def State.lanyStage (s : State) (two : Bool) : State :=
  let ms := if two then s.lany.t2 else s.lany.t1
  let s := { s with lany := { s.lany with stage2 := two, left := ms * 1000000 } }
  s.setTimer (wdA rWDG_LANY_LEFT) (s.now + ms * 1000000)

/-- Stage 1 ends (R541): held cores record nothing and take no entry. -/
def State.lanyWarn (s : State) : State :=
  let runs := s.lanyRuns
  let s := ((s.cause .wdog 0 2).irq .wdog 0 1).bumpF (wdA rWDG_CNT) 31 16 1
  let s := if runs then s.lanyEvent 0x42 [] else s
  (s.lanyStage true).enterSafety false

/-- The present stage ends (R541). -/
def State.lanyStageEnd (s : State) : State := if s.lany.stage2 then s.chipReset 2 else s.lanyWarn

/-- A write of WDG_LANY_KICK (R541). -/
def State.lanyKick (s : State) (q : Requester) (v : Word32) : State :=
  s.guarded q (wdA rWDG_LANY_KICK) v false fun s =>
    if s.timer (wdA rWDG_LANY_LEFT) = 0 then s
    else if v = 0xC35A then
      ({ s with lany := { s.lany with t1 := s.fld (wdA rWDG_LANY_CFG) 15 0, t2 := s.fld (wdA rWDG_LANY_CFG) 31 16 } }).lanyStage false
    else (s.cause .wdog 0 3).lanyStageEnd

/-- LANYARD_WATCHDOG_KICK (R541). -/
def execLanyardWatchdogKick (q : Requester) (v : BitVec 32) (t : Nat) (s : State) : Res := .next ((s.at t).lanyKick q v)

/-- Has the present stage run out, the count not held (R541). -/
def State.stageDue (s : State) : Bool :=
  s.domOn 2 && s.timer (wdA rWDG_LANY_LEFT) ≠ 0 && !s.lany.halted && decide (s.timer (wdA rWDG_LANY_LEFT) ≤ s.now)

/-- LANY_WARN (R541). -/
def execLanyWarn (t : Nat) (s : State) : Res :=
  let s := s.at t
  .next (if s.stageDue && !s.lany.stage2 then s.lanyWarn else s)

/-- LANYARD_WATCHDOG_RESET (R541). -/
def execLanyardWatchdogReset (t : Nat) (s : State) : Res :=
  let s := s.at t
  .next (if s.stageDue && s.lany.stage2 then s.chipReset 2 else s)

/-- A write of LNY_INJ (R544): an armed LOCKSTEP acts in the next cycle. -/
def State.lanyInj (s : State) (q : Requester) (v : Word32) : State :=
  s.guarded q (wdA rLNY_INJ) v false fun s =>
    let s := s.plain (wdA rLNY_INJ) (v.setWidth 64)
    if s.bitAt (wdA rLNY_INJ) 2 then
      let s := s.lockstep
      if s.bitAt (wdA rLNY_INJ) 31 then s else s.putBit (wdA rLNY_INJ) 2 false
    else s

/-- LANYARD_INJECT_ARM (R544). -/
def execLanyardInjectArm (q : Requester) (v : BitVec 32) (s : State) : Res := .next (s.lanyInj q v)

/-! ### Sensors (R536, R537, R542) -/

/-- Is a monitor enabled (R542). -/
def State.monitorEn (s : State) (v : Nat) : Bool := bit (s.bk (seA rSENS_V_LO) v) 31

/-- A run of samples. -/
def State.sensRun (s : State) (k : Nat) : Nat := look (fun _ => 0) s.lany.runs k

/-- A run goes on or starts again: its length. -/
def State.sensRunOn (s : State) (k : Nat) (on : Bool) : Nat × State :=
  let n := if on then min 15 (s.sensRun k + 1) else 0
  (n, { s with lany := { s.lany with runs := Machine.store (fun _ => 0) s.lany.runs k n } })

/-- One warning or alarm bit of a sensor at a sample (R536): a, i: its register and bit; runs: the sample beyond each of its limits;
inside: the sample inside them by the hysteresis; k: the first of its runs; e: its cause. -/
def State.sensBit (s : State) (a i : Nat) (runs : List Bool) (inside : Bool) (k e : Nat) : State :=
  let filt := s.fld (seA rSENS_CTRL) 3 0
  let (q, s) := runs.zipIdx.foldl (fun (p : Bool × State) r =>
    let n := p.2.sensRunOn (k + 2 * r.2) r.1
    (p.1 || decide (filt ≤ n.1), n.2)) (false, s)
  let was := s.bitAt a i
  let (n, s) := s.sensRunOn (k + 4) (was && inside)
  let s := if !was && q then (s.putBit a i true).lanyEvent 0x40 []
    else if was && filt ≤ n then s.putBit a i false else s
  if s.bitAt a i then (s.cause .sens 0 e).irq .sens 0 e else s

/-- An injected crossing for a sensor (R542): k: its number, voltage monitors from 32; all: the enabled sensors of its kind; i: the arming bit. -/
def State.sensInject (s : State) (k : Nat) (all : List Nat) (i : Nat) : Bool × State :=
  let a := seA 0x01C
  if !s.bitAt a i then (false, s)
  else if s.bitAt a 31 then (true, s)
  else if s.lany.injected.contains k then (false, s)
  else
    let l := k :: s.lany.injected
    if all.all l.contains then
      (true, ({ s with lany := { s.lany with injected := s.lany.injected.filter (fun j => !all.contains j) } }).putBit a i false)
    else (true, { s with lany := { s.lany with injected := l } })

/-- A temperature joins the hour's minutes and highest value (R538). -/
def State.tempMinute (s : State) (k : Nat) (x : Int) : State :=
  let due := look (fun _ => 0) s.lany.minute k
  let p := (s.lany.peak.find? (fun e => e.1 = k)).map (·.2)
  let s := if p.all (fun e => decide (e.1 < x)) then
      { s with lany := { s.lany with peak := place k (x, s.rtcSec) (drop s.lany.peak k) } } else s
  if due = 0 then { s with lany := { s.lany with minute := place k (s.now + 60000000000) (drop s.lany.minute k) } }
  else if s.now < due then s
  else
    let b := k * 16 + tempBin x
    let n := look (fun _ => 0) s.lany.hour b + 1
    { s with lany := { s.lany with minute := place k (due + 60000000000) (drop s.lany.minute k), hour := place b n (drop s.lany.hour b) } }

/-- A temperature sample (R536). -/
def State.tempSample (s : State) (k : Nat) (x : Int) : State :=
  let s := s.wr (seA (rSENS_T + 4 * k)) (BitVec.ofNat 32 (2 ^ 31 + (BitVec.ofInt 16 x).toNat))
  let s := if s.lany.seen ∧ x ≤ signed 16 (s.fld (seA rSENS_T_MAX) 15 0) then s
    else { s.wr (seA rSENS_T_MAX) (BitVec.ofNat 32 (k * 2 ^ 16 + (BitVec.ofInt 16 x).toNat)) with lany := { s.lany with seen := true } }
  let s := s.tempMinute k x
  let warn := signed 16 (s.fld (seA rSENS_T_LIM) 15 0)
  let alarm := signed 16 (s.fld (seA rSENS_T_LIM) 31 16)
  let h : Int := (s.fld (seA rSENS_CTRL) 15 8 : Nat)
  let (inj, s) := s.sensInject k (List.range 12) 1
  let s := s.sensBit (seA rSENS_T_WARN) k [decide (warn < x)] (decide (x ≤ warn - h)) (k * 8) 0
  s.sensBit (seA rSENS_T_ALARM) k [decide (alarm < x) || inj] (decide (x ≤ alarm - h) && !inj) (k * 8 + 1) 1

/-- A voltage sample (R536, R537); a monitor that is not enabled is not compared (log entry 25). -/
def State.voltSample (s : State) (v mv : Nat) : State :=
  let s := s.wr (seA (rSENS_V + 4 * v)) (BitVec.ofNat 32 (2 ^ 31 + mv))
  if !s.monitorEn v then s
  else
    let lo := s.bk (seA rSENS_V_LO) v
    let hi := s.bk (seA rSENS_V_HI) v
    let h := s.fld (seA rSENS_CTRL) 23 16
    let all := ((List.range 20).filter (fun u => s.monitorEn u && s.supplyOn u)).map (· + 32)
    let (inj, s) := s.sensInject (v + 32) all 3
    let s := s.sensBit (seA rSENS_V_WARN) v [decide (mv < bits lo 27 16), decide (bits hi 11 0 < mv)]
      (decide (bits lo 27 16 + h ≤ mv) && decide (mv + h ≤ bits hi 11 0)) ((v + 32) * 8) 2
    s.sensBit (seA rSENS_V_ALARM) v [decide (mv < bits lo 11 0), decide (bits hi 27 16 < mv) || inj]
      (decide (bits lo 11 0 + h ≤ mv) && decide (mv + h ≤ bits hi 27 16) && !inj) ((v + 32) * 8 + 1) 3

/-- SENSOR_SAMPLE (R536). -/
def execSensorSample (x : SensSample) (t : Nat) (s : State) : Res :=
  let s := s.at t
  let fail (a : Nat) : State := (s.putBit a 31 false).cause .sens 0 4
  .next (if !s.domOn 2 then s
    else match x with
      | .temp k v ok => if ok then s.tempSample k.val (signed 16 v.toNat) else fail (seA (rSENS_T + 4 * k.val))
      | .volt v mv ok =>
        if !s.supplyOn v.val then s.putBit (seA (rSENS_V + 4 * v.val)) 31 false
        else if ok then s.voltSample v.val mv.toNat else fail (seA (rSENS_V + 4 * v.val)))

/-! ### The lifetime record (R538) -/

/-- Minutes added to a count that saturates at 32 bits. -/
def addMinutes (l : List (Nat × Nat)) (k n : Nat) : List (Nat × Nat) :=
  Machine.store (fun _ => 0) l k (satAdd (2 ^ 32 - 1) (look (fun _ => 0) l k) n)

/-- The temperature history of a NAND target's bin (R520). -/
def State.thistOf (s : State) (t b : Nat) : Nat := (s.bk (nandA rNAND_THIST) (t / 8 + t % 8 * 16 + b * 2 ^ 16)).toNat

/-- A NAND target's new minutes since the last hour; a count below the last one has started again. -/
def State.nandHour (s : State) (t : Nat) : State :=
  (List.range 16).foldl (fun s b =>
    let k := t * 16 + b
    let x := s.thistOf t b
    let old := look (fun _ => 0) s.lany.thist k
    let n := if old ≤ x then x - old else x
    { s with lifetime := { s.lifetime with nand := addMinutes s.lifetime.nand k n }
             lany := { s.lany with thist := Machine.store (fun _ => 0) s.lany.thist k x } }) s

/-- When the lifetime record is next due: an hour after the firmware's start, then every hour (R538). -/
def lifetimeKey : Nat := seA rSENS_T_MAX

/-- LIFETIME_RECORD_UPDATE (R538). -/
def execLifetimeRecordUpdate (t : Nat) (s : State) : Res :=
  let s := s.at t
  .next (if !s.normalRuns || decide (s.now < s.timer lifetimeKey) then s
    else
      let s := s.setTimer lifetimeKey (s.timer lifetimeKey + 3600000000000)
      let bins := s.lany.hour.foldl (fun l e => addMinutes l e.1 e.2) s.lifetime.bins
      let peak := s.lany.peak.foldl (fun (l : List (Nat × (Int × Nat))) e =>
        if (l.find? (fun f => f.1 = e.1)).all (fun f => decide (f.2.1 < e.2.1)) then place e.1 e.2 (drop l e.1) else l) s.lifetime.peak
      let s := { s with lifetime := { s.lifetime with bins := bins, peak := peak }, lany := { s.lany with hour := [], peak := [] } }
      if s.domOn 15 then s.nandTargets.foldl (fun s t => s.nandHour t) s else s)

end Sys2Proof.Machine
end

