-- ==== Sys2Proof/Machine/Ptp.lean ====
section
/-! DEFINITION. IEEE 1588 (R433, R434, R436): messages received and sent, the best master, the clock's own Announce. The octets of the messages and the
comparison of data sets are those of IEEE 1588-2019 (PRESUMED, log entry 21). -/

namespace Sys2Proof.Machine

/-! ### 1588 messages (R433, R434, R436) -/

/-- TSU time in ps, whole. -/
def State.tsuPs (s : State) : Int := s.tsuNs * 1000 + (s.tsuTime.frac * 1000 / 2 ^ 32 : Nat)

/-- Does a port stamp in software mode (R434). -/
def State.softStamp (s : State) (port : Nat) : Bool := s.bitAt (tsuA rTSU_PORT_MODE) port

/-- The ingress stamp of a message in ps (R434). -/
def State.ingressStamp (s : State) (port : Nat) : Int :=
  if s.softStamp port then s.tsuPs
  else s.tsuPs - signed 32 (s.rd (tsuA (rTSU_ING_ASYM + 8 * port))).toNat

/-- The egress stamp of a message in ps (R434). -/
def State.egressStamp (s : State) (port : Nat) : Int :=
  if s.softStamp port then s.tsuPs
  else s.tsuPs + signed 32 (s.rd (tsuA (rTSU_EGR_ASYM + 8 * port))).toNat

/-- messageType of a 1588 message (IEEE 1588-2019). -/
def ptpType (l : List Byte) : Nat := be l 0 1 % 16

/-- The multicast that messages of a type go to (R433): of peer delay or of the others. -/
def ptpMulticast (l : List Byte) : BitVec 48 := if [2, 3, 10].contains (ptpType l) then 0x0180C200000E else 0x011B19000000

/-- A message of the supported subset (R433): Sync, Pdelay_Req, Pdelay_Resp, Follow_Up, Pdelay_Resp_Follow_Up, Announce, of the
domain and on an enabled port, over Ethernet to the multicast of its type. -/
def State.ptpSupported (s : State) (port : Nat) (overUdp : Bool) (mac : BitVec 48) (l : List Byte) : Bool :=
  !overUdp && mac = ptpMulticast l && s.bitAt (tsuA rTSU_PTP_CFG) port && 34 ≤ l.length && be l 1 1 % 16 = 2 && [0, 2, 3, 8, 10, 11].contains (ptpType l) &&
  be l 4 1 = s.fld (tsuA rTSU_PTP_CFG) 22 16

/-- A 1588 message handed to the Lanyard with its stamp, or discarded and counted (R433, R434). -/
def State.ptpTake (s : State) (port : Nat) (overUdp : Bool) (mac : BitVec 48) (msg : List Byte) : State :=
  if !s.netOn then s
  else if s.ptpSupported port overUdp mac msg then { s with ptp := s.ptp ++ [(port, (s.ingressStamp port).toNat, msg)] }
  else s.bumpF (tsuA rTSU_PTP_DISC) 15 0 1

/-- PTP_MESSAGE_RECEIVED (R433, R434). -/
def execPtpMessageReceived (port : Fin 6) (overUdp : Bool) (mac : BitVec 48) (msg : List (BitVec 8)) (t : Nat) (s : State) : Res :=
  .next ((s.at t).ptpTake port.val overUdp mac msg)

/-- A field of a message replaced. -/
def setBytesAt (l : List Byte) (o : Nat) (v : List Byte) : List Byte := l.take o ++ v ++ l.drop (o + v.length)

/-- correctionField gains a number of 2^-16 ns (IEEE 1588-2019). -/
def addCorrection (l : List Byte) (x : Int) : List Byte :=
  setBytesAt l 8 (toBe 8 (BitVec.ofInt 64 (signed 64 (be l 8 8) + x)).toNat)

/-- The stamp of the newest Pdelay_Req of a port with a sequence number. -/
def State.pdelayStamp (s : State) (port seq : Nat) : Int :=
  match (s.ptp.reverse.find? (fun m => m.1 = port && ptpType m.2.2 = 2 && be m.2.2 30 2 = seq)) with
  | some m => m.2.1
  | none => 0

/-- A departing message completed (R436): a one-step Sync or Pdelay_Resp. -/
def State.ptpComplete (s : State) (port : Nat) (l : List Byte) : List Byte :=
  let e := s.egressStamp port
  if ptpType l = 0 then
    let n := e / 1000
    addCorrection (setBytesAt l 34 (toBe 6 (n / 1000000000).toNat ++ toBe 4 (n % 1000000000).toNat)) (e % 1000 * 65536 / 1000)
  else if ptpType l = 3 then
    addCorrection (setBytesAt l 34 (List.replicate 10 0)) ((e - s.pdelayStamp port (be l 30 2)) * 65536 / 1000)
  else l

/-- The two-step flag set (IEEE 1588-2019, flagField octet 0 bit 1). -/
def twoStep (l : List Byte) : List Byte := setBytesAt l 6 [((l.drop 6).headD 0) ||| 2]

/-! ### The instance and its best master (R433) -/

/-- The clockIdentity (R433): the EUI-64 of ETH_0's MAC address. -/
def State.clockId (s : State) : List Byte :=
  let m := toBe 6 ((s.rd64 (ethA 0 rETH_MAC)).setWidth 48 : BitVec 48).toNat
  m.take 3 ++ [0xFF, 0xFE] ++ m.drop 3

/-- A grandmaster as an Announce describes it: priority1, clockClass, clockAccuracy, variance, priority2, identity; stepsRemoved; the sender's
identity and port; the receiving port. -/
structure PtpData where
  prio1 : Nat
  cls : Nat
  acc : Nat
  var : Nat
  prio2 : Nat
  gm : Nat
  steps : Nat
  sender : Nat
  via : Nat
  deriving DecidableEq, Repr

/-- The order of IEEE 1588-2019 between two data sets: by attributes for different grandmasters, else by distance and sender. -/
def PtpData.better (a b : PtpData) : Bool :=
  let key (x : PtpData) : List Nat := if a.gm = b.gm then [x.steps, x.sender, x.via] else [x.prio1, x.cls, x.acc, x.var, x.prio2, x.gm]
  (key a : List Nat) < key b

/-- clockClass (R433): 248, or 255 when no port may be slave. -/
def State.clockClass (s : State) : Nat :=
  if s.fld (tsuA rTSU_PTP_CFG) 5 0 &&& s.fld (tsuA rTSU_PTP_CFG) 13 8 = 0 then 255 else 248

/-- The device's own data set (R433). -/
def State.ownData (s : State) : PtpData :=
  ⟨s.fld (tsuA rTSU_PTP_CFG) 31 24, s.clockClass, 0xFE, 0xFFFF, s.fld (tsuA rTSU_PTP_PRIO2) 7 0, beNat s.clockId, 0, beNat s.clockId, 0⟩

/-- The data set of a received Announce. -/
def announceData (port : Nat) (l : List Byte) : PtpData :=
  ⟨be l 47 1, be l 48 1, be l 49 1, be l 50 2, be l 52 1, be l 53 8, be l 61 2 + 1, be l 20 10, port⟩

/-- The Announce messages a port has had from qualified masters (IEEE 1588-2019, R433): the newest of each sender within announceReceiptTimeout, 3 s,
from whom two have come within 4 s; none of the device's own. -/
def State.masters (s : State) (port : Nat) : List (List Byte) :=
  let near (ps : Int) (m : Nat × (Nat × List Byte)) : Bool := decide (s.tsuPs ≤ (m.2.1 : Int) + ps)
  let l := s.ptp.filter (fun m => m.1 = port && ptpType m.2.2 = 11 && decide (64 ≤ m.2.2.length) && (m.2.2.drop 20).take 8 != s.clockId &&
    decide (be m.2.2 61 2 < 255) && near 4000000000000 m)
  (l.filter (fun m => near 3000000000000 m && decide (2 ≤ (l.filter (fun x => be x.2.2 20 10 = be m.2.2 20 10)).length))).map (·.2.2)

/-- The best Announce of a port. -/
def State.portBest (s : State) (port : Nat) : Option (PtpData × List Byte) :=
  (s.masters port).foldl (fun b l =>
    let d := announceData port l
    match b with
    | some (x, _) => if d.better x || d = x then some (d, l) else b
    | none => some (d, l)) none

/-- The best master over the enabled ports that may be slave (R433). -/
def State.bestMaster (s : State) : Option (PtpData × List Byte) :=
  ((List.range 6).filter (fun p => s.bitAt (tsuA rTSU_PTP_CFG) p && s.bitAt (tsuA rTSU_PTP_CFG) (8 + p))).foldl (fun b p =>
    match b, s.portBest p with
    | none, x => x
    | some b, some x => if x.1.better b.1 then some x else some b
    | b, none => b) none

/-- The master the instance follows: the best, where it is better than the instance's own data set. -/
def State.parent (s : State) : Option (PtpData × List Byte) := s.bestMaster.filter (fun x => x.1.better s.ownData)

/-- Is an enabled port in the master state (R433): it is not the slave, and not passive, a better way to the grandmaster being there. -/
def State.portMaster (s : State) (port : Nat) : Bool :=
  s.bitAt (tsuA rTSU_PTP_CFG) port &&
  match s.parent, s.portBest port with
  | none, _ => true
  | some (b, _), own => b.via ≠ port && !own.any (fun x => x.1.gm = b.gm && b.better x.1)

/-- The time properties for the host (R433): currentUtcOffset in bits 15:0, leap61, leap59 and the validity of the offset in bits 16 to 18, of the
master the instance follows; 0 without one. -/
def State.timeProperties (s : State) : Nat := match s.parent with
  | some (_, l) => be l 44 2 + be l 7 1 % 8 * 2 ^ 16
  | none => 0

/-! ### Sending (R433, R434, R436) -/

/-- A message with what the instance itself puts into it (R433): version, domain, sender, the log message interval 0, of a response 0x7F, and the body
of an Announce. -/
def State.ptpFill (s : State) (port : Nat) (l : List Byte) : List Byte :=
  let l := setBytesAt l 1 [2]
  let l := setBytesAt l 4 (toBe 1 (s.fld (tsuA rTSU_PTP_CFG) 22 16))
  let l := setBytesAt (setBytesAt l 20 (s.clockId ++ toBe 2 (port + 1))) 33 [if [0, 2, 8, 11].contains (ptpType l) then 0 else 0x7F]
  if ptpType l ≠ 11 then l
  else
    let (d, flags, utc) : PtpData × Nat × Nat := match s.parent with
      | some (d, p) => (d, be p 7 1, be p 44 2)
      | none => (s.ownData, 8, 0)
    setBytesAt (setBytesAt l 7 (toBe 1 flags)) 44 (toBe 2 utc ++ [0] ++ toBe 1 d.prio1 ++ toBe 1 d.cls ++ toBe 1 d.acc ++ toBe 2 d.var ++ toBe 1 d.prio2 ++
      toBe 8 d.gm ++ toBe 2 d.steps ++ (if s.parent.isSome then (l.drop 63).take 1 else [0xA0]))

/-- May a port send a message (R433): one of the subset, of its whole length, on an enabled port; Announce, Sync and Follow_Up as a master only. -/
def State.ptpSends (s : State) (port : Nat) (l : List Byte) : Bool :=
  s.bitAt (tsuA rTSU_PTP_CFG) port &&
  match ptpType l with
  | 0 => decide (44 ≤ l.length) && s.portMaster port
  | 8 => decide (44 ≤ l.length) && s.portMaster port
  | 11 => decide (64 ≤ l.length) && s.portMaster port
  | 2 => decide (54 ≤ l.length)
  | 3 => decide (54 ≤ l.length)
  | 10 => decide (54 ≤ l.length)
  | _ => false

/-- A 1588 message sent in a frame to the multicast of its type (R433); of an event message the egress stamp is kept (R434). -/
def State.ptpOut (s : State) (port : Nat) (l : List Byte) : State :=
  let stamp := ((s.tsuTime.sent ++ [(port, ((s.egressStamp port).toNat, l))] : List (Nat × (Nat × List Byte))))
  let s := if ptpType l < 8 then { s with tsuTime := { s.tsuTime with sent := stamp } } else s
  if s.ethUp port then ({ s with wire := s.wire ++ [Sent.mk port 0 l 0 (ptpMulticast l) (0, 0) (s.vlanTag port)] }).ethCount port 8 else s

/-- The Ethernet frame of a 1588 message sent, with the FCS over the bytes that leave (R433, R436). -/
def State.ptpFrame (s : State) (x : Sent) : List Byte :=
  let l := toBe 6 x.mac.toNat ++ toBe 6 ((s.rd64 (ethA x.port rETH_MAC)).setWidth 48 : BitVec 48).toNat ++
    (match x.vlan with
      | some v => [0x81, 0x00] ++ toBe 2 v
      | none => []) ++ [0x88, 0xF7] ++ x.bytes
  l ++ toLe 4 (crc32 l)

/-- PTP_MESSAGE_SEND (R433, R434, R436): late: the port cannot complete the message as it leaves; port 0 to 5 in the order of the TSU. -/
def execPtpMessageSend (port : Fin 6) (msg : List (BitVec 8)) (late : Bool) (t : Nat) (s : State) : Res :=
  let s := s.at t
  let p := port.val
  let oneStep := ptpType msg = 0 ∨ ptpType msg = 3
  .next (if !s.netOn || !s.ptpSends p msg then s
    else
      let l := s.ptpFill p msg
      if !oneStep then s.ptpOut p l
      else if s.softStamp p then s.ptpOut p (twoStep l)
      else if late then (s.bumpF (tsuA rTSU_PTP_DISC) 31 16 1).ptpOut p (twoStep l)
      else s.ptpOut p (s.ptpComplete p l))

end Sys2Proof.Machine
end

