-- ==== Sys2Proof/Machine/Mailbox.lean ====
section
/-! DEFINITION. The host mailbox (R528 to R532, R538, R540, R632): requests popped and answered, one at a time. -/

namespace Sys2Proof.Machine

/-- The request codes of the table "Mailbox requests" (R531). -/
def reqKnown (c : Nat) : Bool :=
  [0x01, 0x10, 0x11, 0x12, 0x20, 0x30, 0x31, 0x32, 0x33, 0x40, 0x41, 0x50, 0x70, 0x80].contains c

/-- A request whose cells have been popped (R529 to R531): in service, or answered at once where it is malformed or unknown. -/
def State.mailTaken (s : State) (cs : List Cell512) (bad : Bool) : State :=
  match cs with
  | [] => s
  | c :: _ =>
    let s := { s with lany := { s.lany with mail := some ⟨cellChan c, cellAux c, cs.flatMap (fun c => cellBytes c (min 56 (cellLen c))), false⟩ } }
    if bad || cs.any cellTaint || decide (64 < cs.length) then s.reply 2 0 []
    else if !reqKnown (cellChan c) then s.reply 1 0 []
    else s

/-- MAILBOX_REQUEST (R530): the next request, while none is in service. -/
def execMailboxRequest (s : State) : Res :=
  .next (if !s.normalRuns ∨ s.lany.mail.isSome then s
    else
      let (gone, l, s) := s.takeMessage 21 6144 512
      if gone ≠ [] then s.mailTaken gone true else s.mailTaken l false)

/-- A request's effect: nothing unless that request is in service and not begun. -/
def State.serve (s : State) (req : Nat) (eff : MailReq → State → State) : State :=
  match s.lany.mail with
  | none => s
  | some m => if s.normalRuns && decide (m.req = req) && !m.begun then eff m s else s

/-- A request whose body is n words, all bits outside the masks zero, else MALFORMED. -/
def State.serveWords (s : State) (req : Nat) (masks : List Nat) (eff : List Nat → State → State) : State :=
  s.serve req fun m s =>
    let ws := (List.range masks.length).map (fun i => leNat ((m.body.drop (8 * i)).take 8))
    if m.body.length ≠ 8 * masks.length ∨ (List.zip ws masks).any (fun p => p.1 &&& p.2 ≠ p.1) then s.reply 2 0 []
    else eff ws s

/-- The request in service waits for its end. -/
def State.mailBegun (s : State) : State :=
  { s with lany := { s.lany with mail := s.lany.mail.map (fun m => { m with begun := true }) } }

/-- The mask of the lays that meet a condition. -/
def laysMask (p : Nat → Bool) : Nat := (((List.range 8).filter p).map (2 ^ ·)).sum

/-- MB_STATUS (R532); word 6 passes on the time properties of R433 (DESIGN CHOICE, log entry 25). -/
def execMbStatus (s : State) : Res :=
  .next (s.serveWords 0x01 [] fun _ s =>
    let (c, s) := s.capacity 0
    s.reply 0 0
      [laysMask (fun n => s.domOn (3 + n) && s.laySt n = 3) + laysMask (fun n => s.domOn (3 + n) && s.laySt n = 4) * 2 ^ 8 +
        laysMask (fun n => !s.domOn (3 + n)) * 2 ^ 16 + s.lcs * 2 ^ 24,
       s.fld (seA rSENS_T_ALARM) 11 0 + s.fld (seA rSENS_V_ALARM) 19 0 * 2 ^ 32, c, (s.rd64 (pa .fc 0 rFC_STATUS)).toNat, if s.netOn then s.timeProperties else 0])

/-- MB_RIGGING_LOAD (R161, R166, R531): a replacement that waits for DRAINED is answered when it ends. -/
def execMbRiggingLoad (addr len : Nat) (s : State) : Res :=
  .next (s.serve 0x10 fun _ s =>
    if !s.hostTurn then s else
    let s := { s with rig := { s.rig with failed := (0, 0, 0, 0) } }
    let s := s.rigLoad true addr len
    if s.rig.failed.1 ≠ 0 then s.reply 3 s.rig.failed.1 []
    else if s.rig.waiting || s.rig.stopping then s.mailBegun
    else s.reply 0 0 [])

/-- The returns of a strand in the last 24 hours of operating time (R175). -/
def State.returnsOf (s : State) (n k : Nat) : Nat :=
  s.lany.returned.countP (fun e => decide (e.1 = 16 * n + k) && decide ((s.rd (pa .evr 0 rEVR_OPSEC)).toNat < e.2 + 86400))

/-- May the Lanyard's firmware return a strand (R175): its instruction memory matches the rigging, the host has not ordered it kept out, and
it has been returned fewer than 3 times in the last 24 hours of operating time, unless the host orders the return. -/
def State.mayReturn (s : State) (n k : Nat) (host : Bool) : Bool :=
  let b := s.rig.image
  !s.lany.kept.contains (16 * n + k) && s.rig.running && s.rig.layMask.testBit n && s.domOn (3 + n) &&
  decide ((s.fill b (.imem n k) 0x20000 16 (strandE b n k)).mem = s.mem) && (host || decide (s.returnsOf n k < 3))

/-- Is a write of LAY_RETURN by the Lanyard refused (R173). -/
def State.returnRefused (s : State) (n k : Nat) : Bool :=
  (s.refusal .normal (pa .lay n rLAY_RETURN) true (BitVec.ofNat 32 (2 ^ 31 + k)) false
    (!(s.outSet n).testBit k || (s.laySt n ≠ 3 && s.laySt n ≠ 4))).isSome

/-- The Lanyard returns a strand (R173, R175): its data memory is loaded again, LAY_RETURN written, the return counted; RESUME where a HELD
lay keeps one strand out. -/
def State.doReturn (s : State) (n k : Nat) : State :=
  let b := s.rig.image
  let s := (s.fill b (.dmem n k) 0x20000 1 (strandE b n k + 8)).layReturn .normal n (BitVec.ofNat 32 (2 ^ 31 + k))
  let s := { s with lany := { s.lany with returned := s.lany.returned ++ [(16 * n + k, (s.rd (pa .evr 0 rEVR_OPSEC)).toNat)] } }
  if s.laySt n = 4 ∧ (membersOf ((s.lay n).ret.foldl clearBitN (s.outSet n))).length = 1 then s.layCtrl .normal n 4 else s

/-- A strand returned by the Lanyard (R173, R175); none: the return is refused. -/
def State.returnStrand (s : State) (n k : Nat) (host : Bool) : Option State :=
  if !s.mayReturn n k host || s.returnRefused n k then none else some (s.doReturn n k)

/-- LAY_RETURN (R173): of the Lanyard's firmware only where R175 lets it. -/
def execLayReturn (q : Requester) (lay : Fin 8) (strand : Fin 16) (s : State) : Res :=
  .next (if q ≠ .normal then s.layReturn q lay.val (BitVec.ofNat 32 (2 ^ 31 + strand.val))
    else if !s.mayReturn lay.val strand.val false then s
    else if s.returnRefused lay.val strand.val then s.layReturn q lay.val (BitVec.ofNat 32 (2 ^ 31 + strand.val))
    else s.doReturn lay.val strand.val)

/-- MB_STRAND_RETURN (R175): the host's order lifts the limit of three returns. -/
def execMbStrandReturn (s : State) : Res :=
  .next (s.serveWords 0x11 [0xF07] fun ws s =>
    let w := ws.getD 0 0
    match s.returnStrand (nbits w 2 0) (nbits w 11 8) true with
    | some s => s.reply 0 0 []
    | none => s.replyRefused)

/-- MB_STRAND_KEEP_OUT (R531). -/
def execMbStrandKeepOut (s : State) : Res :=
  .next (s.serveWords 0x12 [0x10F07] fun ws s =>
    let w := ws.getD 0 0
    let k := 16 * nbits w 2 0 + nbits w 11 8
    let rest := s.lany.kept.filter (· ≠ k)
    ({ s with lany := { s.lany with kept := if w.testBit 16 then rest ++ [k] else rest } }).reply 0 0 [])

/-- The image i of a roster request (R268): the last 512 bytes of the request's body, or in the DDR buffer that it names ÷ 64. -/
def State.rosterSource (s : State) (body : List Byte) (src : Option Nat) (i : Nat) : List Byte := match src with
  | none => body.drop (body.length - 512)
  | some a => s.bytes .ddr (a * 64 + 512 * i) 512

/-- The images of a roster request read and written one after the other (R268, R293): how many were written and refused, the first refused with
its status. An image whose words in the DDR buffer are uncorrectable ends UE (4) and is not written. -/
def State.rosterFrom (s : State) (body : List Byte) (src : Option Nat) (was : Nat → Bool) :
    List (Nat × (Nat × Nat)) → (Nat × Nat × Option (Nat × Nat)) × State
  | [] => ((0, 0, none), s)
  | (j, i, mask) :: t =>
    let (ue, s) := match src with
      | none => (false, s)
      | some a => let (c, s) := s.ddrCheck (a * 64 + 512 * j) 512
                  (decide (c = 2), s)
    let img := s.rosterSource body src j
    let (st, written, s) := if ue then (4, false, s) else
      let (st, s) := s.rosterWrite i mask (was i) img
      (st, st = 1 || st = 4, s)
    let (r, s) := s.rosterFrom body src was t
    (if written then (r.1 + 1, r.2.1, r.2.2) else (r.1, r.2.1 + 1, some (i, st)), s)

/-- MB_ROSTER (R268, R271): the images come from the request's body or from the DDR buffer it names; heads: the index and region mask of
each (the layout of the body is not given: log entry 25). The reply counts the images written and refused and names the first refused;
the status of a failed check of the Lanyard's own is a free value. Served in a host slot (R35). -/
def execMbRoster (src : Option (BitVec 34)) (heads : List (BitVec 20 × BitVec 3)) (s : State) : Res :=
  .next (s.serve 0x20 fun m s =>
    if !s.domOn 14 then s.replyRefused
    else if !s.hostTurn then s
    else
      let heads := if src.isNone then heads.take 1 else heads
      let was := s
      let (r, s) := s.rosterFrom m.body (src.map (·.toNat)) (fun i => was.meterValid i) (heads.zipIdx.map (fun h => (h.2, (h.1.1.toNat, h.1.2.toNat))))
      match r.2.2 with
      | none => s.reply 0 0 [r.1, 0, 0]
      | some (i, st) =>
        let (w, s) := if st = 0 then s.draw else (BitVec.ofNat 64 st, s)
        s.reply (if r.1 = 0 then 3 else 0) w.toNat [r.1, r.2.1, i])

/-- A register written by the Lanyard's normal context. -/
def State.lanyWrite (s : State) (a : Nat) (v : Word32) : State :=
  s.guarded .normal a v false fun s => s.plain a (v.setWidth 64)

/-- MB_KEY (R488, R531): the KEY registers written, the command run to its end; one with a DDR buffer waits for a host slot (R35). -/
def execMbKey (op : BitVec 4) (slot : BitVec 12) (arg mask label gen bufIn bufOut : BitVec 32) (ctx : BitVec 64) (s : State) : Res :=
  .next (s.serve 0x30 fun _ s =>
    let st := pa .key 0 rKEY_STAT
    let v : Word32 := BitVec.ofNat 32 (2 ^ 31 + op.toNat * 2 ^ 24 + slot.toNat)
    if (3 ≤ op.toNat && op.toNat ≤ 5) && !s.hostTurn then s
    else if (s.refusal .normal (pa .key 0 rKEY_CMD) true v false (s.bitAt st 31)).isSome then s.replyRefused
    else
      let s := [(rKEY_ARG, arg), (rKEY_MASK, mask), (rKEY_LABEL, label), (rKEY_GEN_IN, gen), (rKEY_BUF_IN, bufIn), (rKEY_BUF_OUT, bufOut)].foldl
        (fun s r => s.lanyWrite (pa .key 0 r.1) r.2) s
      let s := s.plain (pa .key 0 rKEY_CONTEXT) ctx
      let s := ((s.keyCmd .normal v).endJob st).irq .key 0 0
      let r := s.fld st 3 0
      s.reply (if r = 0 then 0 else 3) r [])

/-- MB_LIFE_CYCLE (R483 to R485): a challenge or a transition; NOT_ALLOWED is the status LIFE_CYCLE (log entry 25). good: which fuses of
each step read programmed. -/
def execMbLifeCycle (chal req : Bool) (target : BitVec 3) (good : BitVec 2) (s : State) : Res :=
  .next (s.serve 0x31 fun _ s =>
    let v : Word32 := BitVec.ofNat 32 (req.toNat * 2 ^ 31 + chal.toNat * 2 ^ 30 + target.toNat)
    if (s.refusal .safe (lcsA rLCS_CTRL) true v false false).isSome then s.replyRefused
    else
      let s := s.lcsCtrl .safe v good
      let r := s.fld (lcsA rLCS_STAT) 2 0
      s.reply (if !req && !chal || r = 0 then 0 else if r = 1 then 4 else 3) r [])

/-- MB_ROOT_NEW (R474); its body is empty (log entry 25). -/
def execMbRootNew (s : State) : Res :=
  .next (s.serveWords 0x32 [] fun _ s =>
    let v : Word32 := BitVec.ofNat 32 (2 ^ 29)
    if s.lcs = 4 then s.reply 4 0 []
    else if (s.refusal .safe (lcsA rLCS_CTRL) true v false (s.root.id ≠ 0 || s.tamperBars || !s.drbgOk)).isSome then s.replyRefused
    else (s.lcsCtrl .safe v 3).reply 0 0 [])

/-- MB_OTP_PROGRAM (R486): the hash in wire order. -/
def execMbOtpProgram (slot : BitVec 3) (hash : BitVec 384) (s : State) : Res :=
  .next (s.serve 0x33 fun _ s =>
    let v : Word32 := BitVec.ofNat 32 (2 ^ 31 + slot.toNat)
    if 1 < s.lcs then s.reply 4 0 []
    else if (s.refusal .normal (lcsA rLCS_OTP_CMD) true v false (s.otpHas slot.toNat)).isSome then s.replyRefused
    else
      let l := toBe 48 hash.toNat
      let s := (List.range 12).foldl (fun s i => s.lanyWrite (lcsA (rLCS_OTP_DATA + 4 * i)) (BitVec.ofNat 32 (leAt l (4 * i) 4))) s
      (s.otpCmd .normal v).reply 0 0 [])

/-- MB_DOMAIN (R632): a domain that does not exist and the reserved target are malformed. -/
def execMbDomain (s : State) : Res :=
  .next (s.serveWords 0x50 [0x31F] fun ws s =>
    let w := ws.getD 0 0
    let d := nbits w 4 0
    let t := nbits w 9 8
    if d = 0 ∨ 17 < d ∨ t = 3 then s.reply 2 0 []
    else if s.targetBad d t ≠ 0 then s.reply 3 (s.targetBad d t) []
    else ((s.lanyEvent 0x1E [w]).mailBegun).pwrDom .normal d (BitVec.ofNat 32 t))

/-- The lifetime record as HEALTH returns it (log entry 25): by temperature sensor the minutes of the 16 bins, the highest temperature and its
RTC second; then the bins of each NAND target. -/
def Lifetime.words (r : Lifetime) : List Nat :=
  let at_ (l : List (Nat × Nat)) (k : Nat) : Nat := look (fun _ => 0) l k
  let row (l : List (Nat × Nat)) (k : Nat) : List Nat := (List.range 8).map (fun i => at_ l (16 * k + 2 * i) + at_ l (16 * k + 2 * i + 1) * 2 ^ 32)
  (List.range 12).flatMap (fun k =>
    let p := ((r.peak.find? (fun e => e.1 = k)).map (·.2)).getD (0, 0)
    row r.bins k ++ [(BitVec.ofInt 16 p.1).toNat + p.2 % 2 ^ 32 * 2 ^ 32]) ++ (List.range 32).flatMap (row r.nand)

/-- MB_HEALTH (R538). -/
def execMbHealth (s : State) : Res := .next (s.serveWords 0x70 [] fun _ s => s.reply 0 0 s.lifetime.words)

/-- MB_WDOG_SET (R540). -/
def execMbWdogSet (s : State) : Res :=
  .next (s.serveWords 0x80 [0x1FFFFFFFF] fun ws s =>
    let w := ws.getD 0 0
    let t := nbits w 15 0
    let win := nbits w 31 16
    let en := s.bitAt (wdA rWDG_HOST_CFG) 31
    if t < 100 ∨ 60000 < t ∨ t ≤ win then s.reply 2 0 []
    else if s.lcs = 2 ∧ en ∧ (!w.testBit 32 ∨ s.fld (wdA rWDG_HOST_CFG) 15 0 < t) then s.reply 4 0 []
    else
      let s := s.guarded .safe (wdA rWDG_HOST_WIN) (BitVec.ofNat 32 win) false fun s => s.plain (wdA rWDG_HOST_WIN) (BitVec.ofNat 64 win)
      (s.hostCfg .safe (BitVec.ofNat 32 (t + (nbits w 32 32) * 2 ^ 31))).reply 0 0 [])

end Sys2Proof.Machine
end

