-- ==== Sys2Proof/Machine/Recorder.lean ====
section
/-! DEFINITION. The event recorder (R555 to R567): submissions, flushes to the ferroelectric die, the restore and reading. -/

namespace Sys2Proof.Machine

/-- A register of the EVR page. -/
abbrev evA (o : Nat) : Nat := pa .evr 0 o

/-- A write of EVR_SUBMIT (R558). -/
def State.evrSubmit (s : State) (q : Requester) (v : Word32) : State :=
  s.guarded q (evA rEVR_SUBMIT) v false fun s =>
    if !bit v 31 then s
    else s.event (bits v 7 0) (bits v 15 8)
      (if bit v 16 then (List.range 4).map (fun i => (s.rd (evA (rEVR_ARG + 4 * i))).toNat) else [])

/-- EVR_SUBMIT (R558). -/
def execEvrSubmit (q : Requester) (args : Bool) (src code : BitVec 8) (s : State) : Res :=
  .next (s.evrSubmit q (BitVec.ofNat 32 (2 ^ 31 + args.toNat * 2 ^ 16 + src.toNat * 2 ^ 8 + code.toNat)))

/-- EVR_CELL_POP (R558): an event cell of a lay. -/
def execEvrCellPop (n : BitVec 13) (s : State) : Res :=
  let n := n.toNat
  .next (if !(s.domOn 1 && s.fld (descA n 1) 12 8 = 0x12 && s.fld (descA n 1) 28 24 = 0) then s
    else match s.pop n with
      | (none, s) => s
      | (some (c, _), s) =>
        let w := cellWord c 1
        if bits w 7 0 < 0xC0 then s.bump (evA rEVR_LOST) 1
        else s.event (bits w 7 0) (0x80 + s.fld (descA n 1) 18 16)
          (if bit w 8 then (List.range 4).map (fun i => bits (cellWord c (2 + i)) 31 0) else []))

/-! ### Flushes (R561 to R563) -/

/-- Where a record lies on the die (R561). -/
def recordAt (seq : Nat) : Nat := if seq ≤ 4096 then 0x10000 + 64 * (seq - 1) else 0x50000 + 64 * ((seq - 4097) % 16384)

/-- SEQ of a record. -/
def recSeq (c : Cell512) : Nat := bits c 31 0

/-- What a failed write has left on the die: free values (log entry 26). -/
def State.spoiled (s : State) : List Byte × State :=
  let (ws, s) := s.drawN 8
  (ws.flatMap (fun w => toLe 8 w.toNat), s)

/-- A buffer word read (R567): its condition, with BUF_CE or BUF_UE. -/
def State.bufRead (s : State) : Nat × State :=
  let (c, s) := s.inject .evr 0 0 1
  (c, if c = 1 then s.cause .evr 0 0 else if c = 2 then s.cause .evr 0 1 else s)

/-- One record written; an uncorrectable buffer word is written with SEQ_T = SEQ + 1. -/
def State.writeRecord (s : State) (r : Cell512) (bad : Bool) : State :=
  let (c, s) := s.bufRead
  let r := if c = 2 then putBits r 511 480 (recSeq r + 1) else r
  if bad then
    let (l, s) := s.spoiled
    s.framPut 2 (recordAt (recSeq r)) l
  else s.framPut 2 (recordAt (recSeq r)) (toLe 64 r.toNat)

/-- The state block (R561). -/
def stateBlock (durable opsec pcyc : Nat) : List Byte :=
  let l := toLe 4 0x45565253 ++ toLe 4 durable ++ toLe 4 opsec ++ toLe 2 pcyc ++ List.replicate 46 0
  l ++ toLe 4 (crc32 l)

/-- The highest SEQ on the die once a flush has written its records. -/
def State.durableAfter (s : State) : Nat :=
  (((s.evr.buf.take s.evr.run).map recSeq).filter (fun q => !s.evr.bad.contains q)).foldl max (s.rd (evA rEVR_DURABLE)).toNat

/-- What a flush writes (R562): the records, then the state block copy; l: the records that fail their read-back twice, 0 the copy. -/
def State.evrWrite (s : State) (l : List Nat) : State :=
  if !s.domOn 1 ∨ !s.bitAt (evA rEVR_STAT) 0 ∨ s.evr.wrote then s
    else
      let s := { s with evr := { s.evr with wrote := true, bad := l } }
      let s := (s.evr.buf.take s.evr.run).foldl (fun s r => s.writeRecord r (l.contains (recSeq r))) s
      let at_ := 0xF000 + 0x40 * s.evr.nextCopy
      if l.contains 0 then
        let (x, s) := s.spoiled
        s.framPut 2 at_ x
      else s.framPut 2 at_ (stateBlock s.durableAfter (s.rd (evA rEVR_OPSEC)).toNat (s.fld (evA rEVR_PCYC) 15 0))

/-- EVR_FLUSH (R562). -/
def execEvrFlush (bad : List (BitVec 32)) (s : State) : Res := .next (s.evrWrite (bad.map (·.toNat)))

/-- A flush ends (R562, R563): the entries written are free; a further flush starts where one was asked for. -/
def State.evrDone (s : State) : State :=
  if !s.domOn 1 ∨ !s.bitAt (evA rEVR_STAT) 0 ∨ !s.evr.wrote then s
    else
      let e := s.evr
      let s := s.wr (evA rEVR_DURABLE) (BitVec.ofNat 32 s.durableAfter)
      let s := if e.bad.any (fun q => q = 0 || (e.buf.take e.run).any (fun r => recSeq r = q)) then s.cause .evr 0 3 else s
      let left := (e.buf.take e.run).filter (fun r => e.bad.contains (recSeq r)) ++ e.buf.drop e.run
      let s := { s with evr := { e with buf := left, run := 0, wrote := false, bad := []
                                        nextCopy := if e.bad.contains 0 then e.nextCopy else 1 - e.nextCopy } }
      let s := (s.putBit (evA rEVR_STAT) 0 false).irq .evr 0 0
      if e.again && (decide (left ≠ []) || e.always) then s.flushStart false else s

/-- EVR_FLUSH_DONE (R562, R563). -/
def execEvrFlushDone (s : State) : Res := .next s.evrDone

/-- A flush asked for and run to its end; one in progress ends first. -/
def State.flushNow (s : State) : State :=
  let s := (((s.flushStart true).evrWrite []).evrDone)
  (s.evrWrite []).evrDone

/-- EVR_FLUSH_TIMER (R563): 10 s since the last flush. -/
def execEvrFlushTimer (t : Nat) (s : State) : Res :=
  let s := s.at t
  .next (if s.now < s.evr.last + 10000000000 then s else s.flushStart true)

/-- A write of EVR_CTRL (R563). -/
def State.evrCtrl (s : State) (q : Requester) (v : Word32) : State :=
  s.guarded q (evA rEVR_CTRL) v false fun s => if bit v 0 then s.flushStart false else s

/-- EVR_FLUSH_REQUEST (R563). -/
def execEvrFlushRequest (q : Requester) (s : State) : Res := .next (s.evrCtrl q 1)

/-! ### Restore (R564) -/

/-- A state block copy: DURABLE, OPSEC and PCYC where MAGIC and CRC are right. -/
def State.stateCopy (s : State) (k : Nat) : Option (Nat × Nat × Nat) :=
  let l := s.die.bytes .fram (0xF000 + 0x40 * k) 64
  let f (o n : Nat) : Nat := leNat ((l.drop o).take n)
  if f 0 4 = 0x45565253 ∧ f 60 4 = crc32 (l.take 60) then some (f 4 4, f 8 4, f 12 2) else none

/-- The record of a slot (0 to 20,479), where its SEQ equals SEQ_T and belongs in that slot: SEQ, OPSEC, PCYC. -/
def State.slotRecord (s : State) (i : Nat) : Option (Nat × Nat × Nat) :=
  let a := if i < 4096 then 0x10000 + 64 * i else 0x50000 + 64 * (i - 4096)
  let q := s.die.le .fram a 4
  if q ≠ 0 ∧ q < 2 ^ 32 - 1 ∧ recordAt q = a ∧ s.die.le .fram (a + 60) 4 = q then some (q, s.die.le .fram (a + 4) 4, s.die.le .fram (a + 8) 2) else none

/-- The record of the largest SEQ of all slots. -/
def State.scanRecords (s : State) : Option (Nat × Nat × Nat) :=
  (List.range 20480).foldl (fun (m : Option (Nat × Nat × Nat)) i =>
    match s.slotRecord i with
    | none => m
    | some r => if m.all (fun x => decide (x.1 < r.1)) then some r else m) none

/-- The recorder continues after a SEQ. -/
def State.evrFrom (s : State) (seq opsec pcyc copy : Nat) : State :=
  let s := ((s.wr (evA rEVR_HEAD) (BitVec.ofNat 32 (seq + 1))).wr (evA rEVR_DURABLE) (BitVec.ofNat 32 seq)).wr
    (evA rEVR_OPSEC) (BitVec.ofNat 32 opsec)
  let s := s.wr (evA rEVR_PCYC) (BitVec.ofNat 32 (satAdd 65535 pcyc 1))
  let s := { s with evr := { s.evr with nextCopy := copy, last := s.now } }.setTimer (evA rEVR_OPSEC) (s.now + 1000000000)
  if seq + 1 = 2 ^ 32 - 1 then (s.putBit (evA rEVR_STAT) 1 true).cause .evr 0 4 else s

/-- The restore: once each time SYS has been turned on. -/
def State.evrRestore (s : State) : State :=
  if !s.domOn 1 ∨ s.rd (evA rEVR_HEAD) ≠ 0 then s
  else
    let a := s.stateCopy 0
    let b := s.stateCopy 1
    let useB := match a, b with
      | some x, some y => decide (x.1 < y.1)
      | none, some _ => true
      | _, _ => false
    match if useB then b else a with
    | some x => (s.evrFrom x.1 x.2.1 x.2.2 (if useB then 0 else 1)).event 0x00 0x41 [0]
    | none => match s.scanRecords with
      | some x => ((s.evrFrom x.1 x.2.1 x.2.2 0).event 0x03 0x41 []).event 0x00 0x41 [1]
      | none => (s.evrFrom 0 0 0 0).event 0x00 0x41 [2]

/-- EVR_RESTORE (R564). -/
def execEvrRestore (s : State) : Res := .next s.evrRestore

/-! ### Reading (R565) and operating seconds (R556) -/

/-- EVR_RD_BUF and RESULT. -/
def State.evrAnswer (s : State) (result : Nat) (l : List Byte) : State :=
  let s := (List.range 16).foldl (fun s i => s.wr (evA (rEVR_RD_BUF + 4 * i)) (BitVec.ofNat 32 (leNat ((l.drop (4 * i)).take 4)))) s
  s.wr (evA rEVR_RD_STAT) (BitVec.ofNat 32 result)

/-- The record of a SEQ read: from the buffer, else from the die. SEQ 0 has no slot: GONE (log entry 26). -/
def State.evrFind (s : State) (q : Nat) : State :=
  let head := (s.rd (evA rEVR_HEAD)).toNat
  if head ≤ q then s.evrAnswer 2 []
  else if q = 0 ∨ (4096 < q ∧ q + 16384 < head) then s.evrAnswer 3 []
  else match s.evr.buf.find? (fun r => recSeq r = q) with
    | some r =>
      let (c, s) := s.bufRead
      if c = 2 then s.evrAnswer 4 [] else s.evrAnswer 1 (toLe 64 r.toNat)
    | none =>
      let a := recordAt q
      let l := s.die.bytes .fram a 64
      let x := s.die.le .fram a 4
      let y := s.die.le .fram (a + 60) 4
      if (List.range 8).any (fun i => s.eccOf .fram (a + 8 * i) = 2) then s.evrAnswer 5 []
      else if x = q ∧ y = q then s.evrAnswer 1 l
      else if x = y then s.evrAnswer 3 []
      else s.evrAnswer 4 []

/-- A write of EVR_RD_CMD (R565): the record is found, and shown 20 µs later (log entry 26); until then BUSY is 1. -/
def State.evrRead (s : State) (q : Requester) (v : Word32) : State :=
  s.guarded q (evA rEVR_RD_CMD) v (bit v 31 && decide (s.now < s.evr.readEnd)) fun s =>
    if bit v 31 then
      let s := s.evrFind (s.rd (evA rEVR_RD_SEQ)).toNat
      { s with evr := { s.evr with readEnd := s.now + 20000 } }
    else s

/-- EVR_READ (R565). -/
def execEvrRead (q : Requester) (s : State) : Res := .next (s.evrRead q (BitVec.ofNat 32 (2 ^ 31)))

/-- OPSEC_TICK (R556): each second of the reference from the turn-on of SYS. -/
def execOpsecTick (t : Nat) (s : State) : Res :=
  let s := s.at t
  let due := s.timer (evA rEVR_OPSEC)
  .next (if !s.domOn 1 ∨ due = 0 ∨ s.now < due then s
    else (s.bumpMod (evA rEVR_OPSEC) 1).setTimer (evA rEVR_OPSEC) (due + 1000000000))

end Sys2Proof.Machine
end

