-- ==== Sys2Proof/Machine/Reserve.lean ====
section
/-! DEFINITION. Reservation limits on the ferroelectric die: two alternating 8-byte copies, RES then NOT RES (R276, R381). -/

namespace Sys2Proof.Machine

/-- RES of a copy, where its halves are complements. -/
def State.resCopy (s : State) (a : Nat) : Option Nat :=
  let r := s.die.le .fram a 4
  if s.die.le .fram (a + 4) 4 = 2 ^ 32 - 1 - r then some r else none

/-- The larger valid copy. -/
def State.reserved (s : State) (a : Nat) : Option Nat :=
  match s.resCopy a, s.resCopy (a + 8) with
  | some x, some y => some (max x y)
  | some x, none => some x
  | none, y => y

/-- A limit written to the copy that does not hold the larger valid one. -/
def State.reserve (s : State) (a r : Nat) : State :=
  let at_ := if s.resCopy a = s.reserved a ∧ (s.resCopy a).isSome then a + 8 else a
  s.framPut 3 at_ (toLe 4 r ++ toLe 4 (2 ^ 32 - 1 - r % 2 ^ 32))

end Sys2Proof.Machine
end

