-- ==== Sys2Proof/Machine/Mac.lean ====
section
/-! DEFINITION. The MAC of the field ports: keys, frames, counters, neighbours, strangers (R367 to R382, R391, R395 to R397, R402). -/

namespace Sys2Proof.Machine

/-! ### The port -/

/-- Does a field port work: FIELD on, enabled, its balls the block's (R42, R367, R368, R395, R398, R421, R422). -/
def State.macOn (s : State) (m : Nat) : Bool :=
  s.domOn 12 && s.bitAt (pa (macPg m) (macInst m) 0x00C) 0 && (isRadio m || s.bitAt (plcA 0x00C) 0) && s.ownsBalls m

/-- A counter of a port advanced (tables "Radio counters", "Power-line counters"). -/
def State.macCount (s : State) (m i : Nat) : State := s.bumpBk (macA m rRAD_CNT rPH_CNT) i (2 ^ 32 - 1) 1

/-- Half a period of SCK in ns (R367). -/
def State.spiHalf (s : State) (n : Nat) : Nat := 10 * (s.fld (pa .radio n rRAD_CFG) 5 0 + 1)

/-- An SPI transaction of a radio port (R368, R369): command code, data from the device, and how many bytes the transceiver answers; L counts both
(DEDUCED, log entry 23). It starts 1 ms after the release of RST_N at the earliest, and 200 ns after the last. -/
def State.spiSend (s : State) (n code : Nat) (data : List Byte) (answer : Nat) : State :=
  let last := ((s.spi.filter (fun x => x.port = n)).getLast?.map (fun x => x.stop + 200)).getD 0
  let start := max s.now (max last ((s.port7 n).rstAt + 1000000))
  let len := data.length + answer
  { s with spi := s.spi ++ [⟨n, start, start + 16 * s.spiHalf n * (3 + len), code, len, data⟩] }

/-- SET_CHANNEL and SET_RX sent. -/
def State.radioSetup (s : State) (n : Nat) : State :=
  (s.spiSend n 0x31 (toBe 2 (s.fld (pa .radio n rRAD_CHAN) 15 0)) 0).spiSend n 0x32 [1] 0

/-- XCVR_UP set or cleared; each change is an interrupt. -/
def State.xcvrUp (s : State) (n : Nat) (b : Bool) : State :=
  if s.bitAt (pa .radio n rRAD_STAT) 0 = b then s else (s.putBit (pa .radio n rRAD_STAT) 0 b).irq .radio n 1

/-- A field of a port whose place differs: the RADIO register and bits, the PLC register and bits. -/
def State.macFld (s : State) (m rad rh rl plc ph pl : Nat) : Nat :=
  if isRadio m then s.fld (pa .radio m rad) rh rl else s.fld (plcA plc) ph pl

/-- PAN_ID and own addresses. -/
def State.panId (s : State) (m : Nat) : Nat := s.fld (sharedA m rRAD_PAN rPLC_PAN) 15 0
/-- The port's own short address. -/
def State.ownShort (s : State) (m : Nat) : Nat := s.fld (sharedA m rRAD_PAN rPLC_PAN) 31 16
/-- The port's own extended address. -/
def State.ownExt (s : State) (m : Nat) : Nat := (s.rd64 (sharedA m rRAD_EXT rPLC_EXT)).toNat

/-! ### Keys and security (R377, R378, R465) -/

/-- The key slot register k of a port; 4 is the beacon's. -/
def keySlotA (m k : Nat) : Nat :=
  if isRadio m then pa .radio m (rRAD_KEYSLOT + 4 * k) else if k = 4 then plcA rPLC_BCN_KEY else plcA (rPLC_KEYSLOT + 4 * k)

/-- Where the engine keeps the copy of key k. -/
def copyKey (m k : Nat) : Nat := if isRadio m then 160 + 4 * m + k else 176 + k

/-- A usable key of a port (R377): the copy the engine holds, while its slot still lets the engine use it, or one it loads from the slot the
register names. -/
def State.macKey (s : State) (m k : Nat) : Option (List Byte) × State :=
  let a := keySlotA m k
  if !s.bitAt a 31 then (none, s)
  else
    let i := s.fld a 11 0
    let e := if isRadio m then 10 else 11
    match s.copies.find? (fun e => e.1 = copyKey m k) with
    | some (_, r) => (if r.st = .ready && (s.slot i).mask.testBit e then some (keyBytes r) else none, s)
    | none =>
      let s := (s.readSlot i).2
      let u := s.useSlot i e 1 false
      match u with
      | some _ => (none, s.afterUse i u)
      | none =>
        let r := s.readyReg i (s.slot i).bytes
        (some (keyBytes r), { s with copies := place (copyKey m k) r s.copies })

/-- The length of the MIC at a level. -/
def micLen (level : Nat) : Nat := if level = 5 then 4 else if level = 6 then 8 else 16

/-- The nonce of a frame (R378). -/
def macNonce (ext ctr level : Nat) : List Byte := toBe 8 ext ++ toBe 4 ctr ++ toBe 1 level

/-- A payload opened (R378): none where the MIC fails. -/
def macOpen (key : List Byte) (ext ctr level : Nat) (aad body : List Byte) : Option (List Byte) :=
  let n := body.length - micLen level
  let nonce := macNonce ext ctr level
  let p := ccmText key nonce (body.take n)
  if micLen level ≤ body.length ∧ ccmTag (micLen level) key nonce aad p = body.drop n then some p else none

/-- A payload secured. -/
def macSeal (key : List Byte) (ext ctr level : Nat) (aad p : List Byte) : List Byte :=
  let nonce := macNonce ext ctr level
  ccmText key nonce p ++ ccmTag (micLen level) key nonce aad p

/-! ### Outgoing frames (R372, R378) -/

/-- The FCS of a frame: 4 bytes, or 2 (the bit order of IEEE 802.15.4, PRESUMED, log entry 23). -/
def State.macFcs (s : State) (m : Nat) (l : List Byte) : Nat × Nat :=
  if isRadio m && s.bitAt (pa .radio m rRAD_CFG) 8 then (4, crc32 l) else (2, crcOver 0x8408 0 l)

/-- The header of a frame (IEEE 802.15.4 frame version 0b01, PRESUMED, log entry 23): type, flags, addresses, auxiliary security header. The
source is the extended address. -/
def State.macHeader (s : State) (m type : Nat) (x : TxMsg) (pending : Bool) (seq ctr : Nat) : List Byte :=
  let same := x.pan = s.panId m
  let fcf := type + (decide (x.level ≠ 0)).toNat * 8 + pending.toNat * 16 + x.ack.toNat * 32 + (decide same).toNat * 64 +
    (if x.useExt then 3 else 2) * 1024 + 4096 + 3 * 16384
  toLe 2 fcf ++ toLe 1 seq ++ toLe 2 x.pan ++ (if x.useExt then toLe 8 x.ext else toLe 2 x.short) ++
    (if same then [] else toLe 2 (s.panId m)) ++ toLe 8 (s.ownExt m) ++
    (if x.level = 0 then [] else
      toLe 1 (x.level + (if x.key = 0 then 0 else 8)) ++ toLe 4 ctr ++ (if x.key = 0 then [] else toLe 1 x.key))

/-- A frame's PSDU with its FCS, and the FCS. -/
def State.macFrame (s : State) (m : Nat) (x : TxMsg) (key : List Byte) (pending : Bool) (seq ctr : Nat) (p : List Byte) :
    List Byte × Nat :=
  let h := s.macHeader m (if x.command then 3 else 1) x pending seq ctr
  let l := h ++ (if x.level = 0 then p else macSeal key (s.ownExt m) ctr x.level h p)
  let (n, f) := s.macFcs m l
  (l ++ toLe n f, f)

/-! ### Message ends (R391) -/

/-- A message ends with a status (R391): its status cell waits for the lay; a message of the device's own has none. -/
def State.endMsg (s : State) (m : Nat) (x : TxMsg) (status tries lqi : Nat) : State :=
  let s := if status = 0 then s.macCount m 10 else if status = 1 then s.macCount m 11 else if status = 2 then s.macCount m 12
    else if status = 3 ∧ isRadio m then s.macCount m 13 else s
  let p := s.port7 m
  match x.splice with
  | none => s
  | some n =>
    let c := mkCompletion x.chan x.tag [status, p.strobeTx % 2 ^ 32 + tries % 256 * 2 ^ 32 + lqi * 2 ^ 40, 0, 0, 0, 0, 0]
    s.setPort7 m { p with status := p.status ++ [(n, c)] }

/-- The status cells that wait at a port: 0 to 3 RADIO, 4 to 6 PLC, 7 to 14 UART. -/
def State.statusOf (s : State) (m : Nat) : List (Nat × Cell512) := if m < 7 then (s.port7 m).status else (s.uart (m - 7)).status

/-- The status cells of a port set. -/
def State.setStatus (s : State) (m : Nat) (l : List (Nat × Cell512)) : State :=
  if m < 7 then s.setPort7 m { s.port7 m with status := l }
  else { s with uarts := Machine.store (fun _ => Uart.off) s.uarts (m - 7) { s.uart (m - 7) with status := l } }

/-- TX_STATUS_CELL (R391): the oldest status cell of a port goes to the lay whose splice carried the message. -/
def execTxStatusCell (m : Fin 15) (s : State) : Res :=
  .next (match s.statusOf m.val with
    | [] => s
    | (n, c) :: rest =>
      match s.toLay 2 (s.fld (descA n 1) 18 16) with
      | none => s
      | some k => if s.space k = 0 then s else (s.setStatus m.val rest).offer k c)

/-! ### Counters (R380 to R382) -/

/-- Where a port's outgoing reservation lies. -/
def resAt (m : Nat) : Nat := if isRadio m then 0x1E0000 + 16 * m else 0x1F1000

/-- The port that holds the counter state: the power line's three phases share one. -/
def ctrPort (m : Nat) : Nat := if isRadio m then m else 4

/-- The outgoing counter and the limit in force. -/
def State.txctr (s : State) (m : Nat) : Nat := (s.rd (sharedA m rRAD_TXCTR rPLC_TXCTR)).toNat
/-- RES. -/
def State.txres (s : State) (m : Nat) : Nat := (s.rd (sharedA m rRAD_TXRES rPLC_TXRES)).toNat

/-- The page of a port's counter. -/
def ctrPage (m : Nat) : Pg × Nat := if isRadio m then (.radio, m) else (.plc, 0)

/-- A read-back that failed twice (R381). -/
def State.framFail (s : State) (m : Nat) : State := s.cause (ctrPage m).1 (ctrPage m).2 (if isRadio m then 3 else 2)

/-- The outgoing counter has reached 0xFFFF_FFFF (R382). -/
def State.ctrExhaust (s : State) (m : Nat) : State :=
  (s.cause (ctrPage m).1 (ctrPage m).2 (if isRadio m then 4 else 3)).irq (ctrPage m).1 (ctrPage m).2 (if isRadio m then 2 else 1)

/-- At enable, the counter starts at the stored RES (R381, R382). -/
def State.txctrStart (s : State) (m : Nat) : State :=
  let r := BitVec.ofNat 32 ((s.reserved (resAt m)).getD 0)
  let s := (s.wr (sharedA m rRAD_TXCTR rPLC_TXCTR) r).wr (sharedA m rRAD_TXRES rPLC_TXRES) r
  let s := s.setPort7 (ctrPort m) { s.port7 (ctrPort m) with halted := false }
  if s.txctr m = 2 ^ 32 - 1 then s.ctrExhaust m else s

/-- May a secured frame take a counter now (R381). -/
def State.txctrReady (s : State) (m : Nat) : Bool := !(s.port7 (ctrPort m)).halted && s.txctr m < s.txres m

/-- The next outgoing counter taken; at 0xFFFF_FFFF it is exhausted (R382). -/
def State.takeCtr (s : State) (m : Nat) : Nat × State :=
  let c := s.txctr m
  let s := s.wr (sharedA m rRAD_TXCTR rPLC_TXCTR) (BitVec.ofNat 32 (c + 1))
  (c, if c + 1 = 2 ^ 32 - 1 then s.ctrExhaust m else s)

/-- Where a neighbour's counter image lies (R380). -/
def ctrImageAt (m i : Nat) : Nat := (if isRadio m then 0x1C0000 + 0x8000 * m else 0x1E1000 + 0x4000 * (m - 4)) + 8 * i

/-- COUNTER_IMAGE_FLUSH (R380): each NEXT_CTR that has changed is written; ok: the read-back agrees. -/
def execCounterImageFlush (m : Fin 7) (ok : Bool) (s : State) : Res :=
  let p := s.port7 m.val
  let l := p.nbs.filter (fun e => e.2.dirty)
  .next (if !s.domOn 12 || !s.domOn 1 || l.isEmpty then s
    else
      let s := l.foldl (fun s e => s.framPut 3 (ctrImageAt m.val e.1) (toLe 4 e.2.next ++ toLe 4 e.2.ext)) s
      let s := s.setPort7 m.val { p with nbs := p.nbs.map (fun e => (e.1, { e.2 with dirty := false })) }
      if ok then s else s.framFail m.val)

/-! ### Neighbours and strangers (R374 to R376, R380, R396) -/

/-- A neighbour set. -/
def State.setNb (s : State) (m i : Nat) (n : Neigh) : State :=
  let p := s.port7 m
  s.setPort7 m { p with nbs := Machine.store (fun _ => Neigh.off) p.nbs i n }

/-- Does an address name a neighbour (R374). -/
def nbHas (n : Neigh) (a : MacAddr) : Bool :=
  n.valid && (if a.short then decide (n.short = a.addr.toNat) && a.addr != 0xFFFE else n.ext = a.addr.toNat)

/-- The neighbour of an address. -/
def Mac.find (x : Mac) (a : MacAddr) : Option (Nat × Neigh) := x.nbs.find? (fun e => nbHas e.2 a)

/-- The address a message goes to. -/
def TxMsg.dst (x : TxMsg) : MacAddr := if x.useExt then ⟨false, BitVec.ofNat 64 x.ext⟩ else ⟨true, BitVec.ofNat 64 x.short⟩

/-- Is a message broadcast. -/
def TxMsg.broadcast (x : TxMsg) : Bool := !x.useExt && x.short = 0xFFFF

/-- The shadow's entry (R395, R422). -/
def State.nbShadow (s : State) (m : Nat) : Neigh :=
  let a := macA m rRAD_NB_CFG rPH_NB_CFG
  { Neigh.off with
    valid := s.bitAt a 31, flag := s.bitAt a 30, isMeter := s.bitAt a 29, meter := s.fld a 19 0
    txMask := if isRadio m then 0 else s.fld a 26 24
    short := s.fld (macA m rRAD_NB_SHORT rPH_NB_SHORT) 15 0, ext := (s.rd64 (macA m rRAD_NB_EXT rPH_NB_EXT)).toNat
    next := (s.rd (macA m rRAD_NB_CTR rPH_NB_CTR)).toNat }

/-- Is a commit of the shadow to entry i refused (R375, R402). -/
def State.nbBad (s : State) (m i : Nat) : Bool :=
  let n := s.nbShadow m
  n.ext = 0 || (n.valid && (s.port7 m).nbs.any (fun e => e.1 ≠ i && e.2.valid &&
      (e.2.ext = n.ext || (e.2.short = n.short && n.short ≠ 0xFFFE)))) ||
  (n.valid && !isRadio m && ([4, 5, 6] : List Nat).any (fun k => k ≠ m && (s.port7 k).nbs.any (fun e => e.2.valid && e.2.ext = n.ext)))

/-- Entry i read from the neighbour table: what an armed check finds (R397, R422). -/
def State.nbRead (s : State) (m i : Nat) : State :=
  let (e, s) := s.inject (macPg m) (macInst m) 0 1
  if e = 1 then s.cause (macPg m) (macInst m) 0
  else if e = 2 then (s.setNb m i { (s.port7 m).nb i with bad := true }).cause (macPg m) (macInst m) 1
  else s

/-- The slot maps and SNR records of a neighbour read (R421): an uncorrectable word clears EXT_SEEN and the SNR history. -/
def State.slotRead (s : State) (m i : Nat) : State :=
  let n := (s.port7 m).nb i
  if n.mapBad then (s.setNb m i { n with mapBad := false, extSeen := false, snr := [] }).cause .plc 0 1 else s

/-- A commit of the shadow to entry i (R375, R380). Where it makes the entry VALID or changes its address, the messages held under the entry's old
or new addresses end, and an acknowledgement still owed for a frame of the old entry leaves the new one's NEXT_CTR alone. -/
def State.nbCommit (s : State) (m i : Nat) : State :=
  let n := s.nbShadow m
  let old := (s.port7 m).nb i
  if n.ext = old.ext ∧ (old.valid ∨ !n.valid) then
    let keep := { old with valid := n.valid, flag := n.flag, isMeter := n.isMeter, meter := n.meter, txMask := n.txMask }
    s.setNb m i { keep with short := n.short, ext := n.ext, next := n.next, dirty := true, bad := false }
  else
    let p := s.port7 m
    let mine (x : TxMsg) : Bool := nbHas { old with valid := true } x.dst || nbHas n x.dst
    let s := s.setPort7 m { p with held := p.held.filter (fun x => !mine x)
                                   owed := p.owed.map (fun a => if a.nb = i then { a with ctr := none } else a) }
    let s := (p.held.filter mine).foldl (fun s x => s.endMsg m x 5 0 0) s
    let image := s.die.le .fram (ctrImageAt m i) 4
    let match_ := s.die.le .fram (ctrImageAt m i + 4) 4 = n.ext % 2 ^ 32
    s.setNb m i { n with next := if match_ then max n.next image else n.next, dirty := true }

/-- Entry i loaded into the shadow (R396); of an uncorrectable entry, which is marked so (R397), what it still holds (DESIGN CHOICE, log entry
23). -/
def State.nbLoad (s : State) (m i : Nat) : State :=
  let s := s.nbRead m i
  let n := (s.port7 m).nb i
  let cfg := n.valid.toNat * 2 ^ 31 + n.flag.toNat * 2 ^ 30 + n.isMeter.toNat * 2 ^ 29 + n.txMask * 2 ^ 24 + n.meter
  (((s.wr (macA m rRAD_NB_CFG rPH_NB_CFG) (BitVec.ofNat 32 cfg)).wr (macA m rRAD_NB_SHORT rPH_NB_SHORT) (BitVec.ofNat 32 n.short)).wr64
    (macA m rRAD_NB_EXT rPH_NB_EXT) (BitVec.ofNat 64 n.ext)).wr (macA m rRAD_NB_CTR rPH_NB_CTR) (BitVec.ofNat 32 n.next)

/-- A write of RAD_NB_SEL or PH_NB_SEL (R396). -/
def State.nbSel (s : State) (q : Requester) (m : Nat) (v : Word32) : State :=
  let a := macA m rRAD_NB_SEL rPH_NB_SEL
  let i := if isRadio m then bits v 11 0 else bits v 10 0
  s.guarded q a v (bit v 31 && s.nbBad m i) fun s =>
    let s := s.plain a (v.setWidth 64)
    if bit v 31 then s.nbCommit m i else if bit v 30 then s.nbLoad m i else s

/-- NEIGHBOUR_COMMIT (R375). -/
def execNeighbourCommit (q : Requester) (m : Fin 7) (i : BitVec 12) (s : State) : Res :=
  .next (s.nbSel q m.val (BitVec.ofNat 32 (2 ^ 31 + i.toNat)))

/-- NEIGHBOUR_LOAD (R396). -/
def execNeighbourLoad (q : Requester) (m : Fin 7) (i : BitVec 12) (s : State) : Res :=
  .next (s.nbSel q m.val (BitVec.ofNat 32 (2 ^ 30 + i.toNat)))

/-- A stranger logged (R376): its entry advanced, or a new one in the place seen longest ago. -/
def State.logStranger (s : State) (m : Nat) (a : MacAddr) (secured : Bool) (level lqi : Nat) : State :=
  let p := s.port7 m
  match p.strangers.find? (fun e => e.2.short = a.short && e.2.addr = a.addr.toNat) with
  | some (i, x) =>
    let x := { x with secured := secured, count := min 4095 (x.count + 1), level := level, lqi := lqi, last := s.now }
    s.setPort7 m { p with strangers := place i x (drop p.strangers i) }
  | none =>
    let x : Strange := ⟨a.addr.toNat, a.short, secured, 1, level, lqi, s.now, s.now, 0, 0, 0⟩
    let free := (List.range 64).find? (fun i => !p.strangers.any (fun e => e.1 = i))
    let oldest := p.strangers.foldl (fun (b : Option (Nat × Strange)) e => match b with
      | none => some e
      | some f => if e.2.last < f.2.last then some e else some f) none
    let i := free.getD ((oldest.map (·.1)).getD 0)
    let s := if free.isNone then s.macCount m 14 else s
    (s.setPort7 m { p with strangers := place i x (drop p.strangers i) }).irq (macPg m) (macInst m) 0

/-! ### Register writes (R395, R396, R421, R422) -/

/-- A write of RAD_CFG, PLC_CFG or PH_CFG: STATE while enabled. -/
def State.macCfg (s : State) (q : Requester) (p : Pg) (inst : Nat) (v : Word32) : State :=
  s.guarded q (pa p inst 0x040) v (s.bitAt (pa p inst 0x00C) 0) fun s => s.plain (pa p inst 0x040) (v.setWidth 64)

/-- A write of RAD_CHAN (R395): applied between frames. -/
def State.chanWrite (s : State) (q : Requester) (n : Nat) (v : Word32) : State :=
  s.guarded q (pa .radio n rRAD_CHAN) v false fun s =>
    let s := s.plain (pa .radio n rRAD_CHAN) (v.setWidth 64)
    if !s.macOn n then s
    else if s.acking n || (s.port7 n).run.any (fun r => r.st = 3) then s.setPort7 n { s.port7 n with chanDue := true }
    else s.spiSend n 0x31 (toBe 2 (s.fld (pa .radio n rRAD_CHAN) 15 0)) 0

/-- A write of RAD_CSMA or PLC_CSMA: MIN_BE above MAX_BE keeps its value. -/
def State.csmaWrite (s : State) (q : Requester) (m : Nat) (v : Word32) : State :=
  let a := sharedA m rRAD_CSMA rPLC_CSMA
  s.guarded q a v false fun s =>
    let (lo, hi) := if isRadio m then ((3, 0), (7, 4)) else ((11, 8), (15, 12))
    let old := s.fld a lo.1 lo.2
    let s := s.plain a (v.setWidth 64)
    if s.fld a hi.1 hi.2 < s.fld a lo.1 lo.2 then s.putF a lo.1 lo.2 old else s

/-- A write of a key slot register of a port: the engine's copy goes. -/
def State.keySlotWrite (s : State) (q : Requester) (m k : Nat) (v : Word32) : State :=
  s.guarded q (keySlotA m k) v false fun s =>
    let s := s.plain (keySlotA m k) (v.setWidth 64)
    let p := s.port7 (ctrPort m)
    { s.setPort7 (ctrPort m) { p with written := p.written ||| 2 ^ k } with copies := drop s.copies (copyKey m k) }

/-- A write of RAD_XREG (R396): a GO while the last access is under way is refused; data: the byte the transceiver returns. -/
def State.xreg (s : State) (q : Requester) (n : Nat) (v : Word32) (data : BitVec 8) : State :=
  let a := pa .radio n rRAD_XREG
  s.guarded q a v (bit v 31 && ((s.xregSettle n).port7 n).xreg.isSome) fun s =>
    let s := (s.xregSettle n).plain a (v.setWidth 64)
    if !bit v 31 then s
    else
      let addr := toBe 2 (s.fld a 23 8)
      let s := if bit v 30 then s.spiSend n 0x01 (addr ++ toBe 1 (s.fld a 7 0)) 0 else s.spiSend n 0x02 addr 1
      (s.setPort7 n { s.port7 n with xreg := some (s.now, data) }).putBit a 29 false

/-- XREG_ACCESS (R396). -/
def execXregAccess (q : Requester) (n : Fin 4) (write : Bool) (addr : BitVec 16) (data : BitVec 8) (s : State) : Res :=
  .next (s.xreg q n.val (BitVec.ofNat 32 (2 ^ 31 + write.toNat * 2 ^ 30 + addr.toNat * 2 ^ 8 + data.toNat)) data)

end Sys2Proof.Machine
end

