-- ==== Sys2Proof/Machine/Qspi.lean ====
section
/-! DEFINITION. The QSPI page's commands over the NOR (R595, R613, R645). -/

namespace Sys2Proof.Machine

/-- A register of the QSPI page. -/
abbrev qsA (o : Nat) : Nat := pa .qspi 0 o

/-- Does the debug port's command count as the boot ROM's (R645). -/
def State.romIssues (s : State) (q : Requester) : Bool :=
  decide (q = .debug) && decide (s.dbgLevel = 3) && decide (s.fld (pa .rst 0 rRST_BOOT) 2 0 = 4)

/-- A program or erase of the golden area outside MAKER (R595). -/
def State.goldenBad (s : State) (op a : Nat) : Bool := (op = 2 || op = 3) && decide (a < 0x800000) && decide (s.lcs ≠ 0)

/-- A GO refused with cause STATE (R595, R613). -/
def State.qspiBad (s : State) (q : Requester) (op a len : Nat) : Bool :=
  s.bitAt (qsA rQSPI_STAT) 0 ||
  ((op = 2 || op = 3) && ((decide (0x800000 ≤ a ∧ a < 0x1800000) && !s.romIssues q) || decide (0x2F0FFFF < a))) ||
  (decide (op = 2) && decide (256 < a % 256 + len)) || (decide (op = 3) && decide (a % 65536 ≠ 0))

/-- n bytes of NOR programmed: bits only go from 1 to 0 (PRESUMED, log entry 27). -/
def State.norProgram (s : State) (a : Nat) (l : List Byte) : State :=
  s.setBytes .nor a (List.zipWith (· &&& ·) (s.bytes .nor a l.length) l)

/-- A sector of NOR erased. -/
def State.norErase (s : State) (a : Nat) : State := s.clearMem .nor (a / 65536 * 65536) (a / 65536 * 65536 + 65536)

/-- The first n bytes of QSPI_BUF. -/
def State.qspiBuf (s : State) (n : Nat) : List Byte :=
  ((List.range 64).flatMap (fun i => toLe 4 (s.rd (qsA (rQSPI_BUF + 4 * i))).toNat)).take n

/-- QSPI_BUF with its first bytes replaced. -/
def State.setQspiBuf (s : State) (l : List Byte) : State :=
  let b := l ++ (s.qspiBuf 256).drop l.length
  (List.range 64).foldl (fun s i => s.wr (qsA (rQSPI_BUF + 4 * i)) (BitVec.ofNat 32 (leNat ((b.drop (4 * i)).take 4)))) s

/-- What a GO does to the NOR and the buffer; a reserved OP does nothing. -/
def State.qspiEffect (s : State) (op a len : Nat) : State :=
  if op = 1 then s.setQspiBuf (s.bytes .nor a len)
  else if op = 2 then s.norProgram a (s.qspiBuf len)
  else if op = 3 then s.norErase a
  else s

/-- A write of QSPI_CMD (R595, R613): BUSY until QSPI_COMMAND_DONE. -/
def State.qspiCmd (s : State) (q : Requester) (v : Word32) : State :=
  let op := bits v 2 0
  let a := s.fld (qsA rQSPI_ADDR) 25 0
  let len := s.fld (qsA rQSPI_LEN) 8 0
  let go := bit v 31
  match s.refusal q (qsA rQSPI_CMD) true v (go && s.goldenBad op a) (go && s.qspiBad q op a len) with
  | some c => s.refuse q (qsA rQSPI_CMD) c
  | none =>
    if !go then s
    else
      let s := (s.qspiEffect op a len).putBit (qsA rQSPI_STAT) 0 true
      { s with results := place (qsA rQSPI_STAT) op (drop s.results (qsA rQSPI_STAT)) }

/-- The word of a GO. -/
def qspiGo (op : Nat) : Word32 := BitVec.ofNat 32 (2 ^ 31 + op)

/-- QSPI_READ (R613). -/
def execQspiRead (q : Requester) (s : State) : Res := .next (s.qspiCmd q (qspiGo 1))

/-- QSPI_PROGRAM (R613, R595). -/
def execQspiProgram (q : Requester) (s : State) : Res := .next (s.qspiCmd q (qspiGo 2))

/-- QSPI_ERASE (R613, R595). -/
def execQspiErase (q : Requester) (s : State) : Res := .next (s.qspiCmd q (qspiGo 3))

/-- QSPI_COMMAND_DONE (R613): timeout: a program or erase missed its limit. -/
def execQspiCommandDone (timeout : Bool) (s : State) : Res :=
  .next (if !(s.domOn 2 && s.bitAt (qsA rQSPI_STAT) 0) then s
    else
      let op := look (fun _ => 0) s.results (qsA rQSPI_STAT)
      let s := { s.putBit (qsA rQSPI_STAT) 0 false with results := drop s.results (qsA rQSPI_STAT) }
      if timeout && (op = 2 || op = 3) then s.cause .qspi 0 0 else s)

end Sys2Proof.Machine
end

