-- ==== Sys2Proof/Machine/Settings.lean ====
section
/-! DEFINITION. Settings copies (R607, R608): what they hold, which is in use, writing one and applying one. -/

namespace Sys2Proof.Machine

/-! ### Which registers the sections hold (R607) -/

/-- Is block-specific offset o of a page in a settings section; LEASE_CTRL with them (R631). -/
def settingOffset (p : Pg) (o : Nat) : Bool :=
  match p with
  | .ingest => true
  | .radio => true
  | .plc => true
  | .plcPh => true
  | .bal => true
  | .tsu => !([rTSU_FREQ, rTSU_SLEW, rTSU_STEP_CTL, rTSU_STEP, rTSU_STEP + 4, rTSU_STEP_CNT].contains o)
  | .eth => decide (rETH_ADDR ≤ o ∧ o < rETH_NC_FLUSH)
  | .sgmii => decide (rETH_ADDR ≤ o ∧ o < rETH_NC_FLUSH)
  | .fc => decide (rFC_REACT ≤ o)
  | .wdog => o = rWDG_HOST_CFG || o = rWDG_HOST_WIN || o = rWDG_LANY_CFG
  | .sens => o = rSENS_CTRL || o = rSENS_T_LIM
  | .pinmux => decide (rPMX_OWN ≤ o)
  | .lease => o = rLEASE_CTRL
  | _ => false

/-- The bits of a window word that a settings copy holds: its RW fields; of PMX_OWN all. -/
def settingMask (a : Nat) : Word32 :=
  match pageAt (a / 4096) with
  | none => 0
  | some (p, _) =>
    let o := a % 4096
    if o < 0x040 ∨ !settingOffset p o then 0
    else if p = .pinmux then 0xFFFFFFFF
    else match rowAt p o with
      | none => 0
      | some r =>
        let m := r.fields.foldl (fun m f => if f.acc = .rw then m ||| (maskOf 64 f.hi f.lo).toNat else m) 0
        BitVec.ofNat 32 (if r.wide ∧ o ≠ r.start o then m / 2 ^ 32 else m)

/-- Is an entry of the selected registers in a settings section: the event class table and the voltage limits. -/
def settingBank (k : Nat) : Bool :=
  [pa .evr 0 rEVR_CLS_ADDR, pa .sens 0 rSENS_V_LO, pa .sens 0 rSENS_V_HI].contains (k / 2 ^ 20)

/-- A source as a copy holds it: its configuration, no credit. -/
def sourceConfig (x : Source) : Source := { x with credit := 0, ue := false }

/-- A neighbour as a copy holds it: its configuration. -/
def neighConfig (n : Neigh) : Neigh :=
  { Neigh.off with valid := n.valid, flag := n.flag, isMeter := n.isMeter, meter := n.meter, txMask := n.txMask, short := n.short, ext := n.ext }

/-- Defaults. -/
def Settings.off : Settings := ⟨[], [], [], []⟩

/-! ### The bytes of a copy (R607) -/

/-- The section that holds a register; LEASE_CTRL with BAL and TSU (log entry 28). -/
def settingSection (a : Nat) : Nat :=
  match pageAt (a / 4096) with
  | some (.ingest, _) => 1
  | some (.radio, _) => if a % 4096 / 8 * 8 = rRAD_EXT then 4 else 2
  | some (.plc, _) => if a % 4096 / 8 * 8 = rPLC_EXT then 4 else 3
  | some (.plcPh, _) => 3
  | some (.eth, _) => 4
  | some (.sgmii, _) => 4
  | some (.fc, _) => 5
  | some (.wdog, _) => 5
  | some (.sens, _) => 5
  | _ => 6

/-- The registers of a section, in ascending window offset. -/
def sectionWords (t : Nat) : List Nat :=
  ((List.range 0x180).flatMap fun i => ((List.range 1024).map (fun j => 4096 * i + 4 * j))).filter fun a =>
    decide (settingMask a ≠ 0) && decide (settingSection a = t)

/-- A section: its TYPE, zero, its length, its body. -/
def sectionBytes (t : Nat) (l : List Byte) : List Byte := toLe 2 t ++ toLe 2 0 ++ toLe 4 l.length ++ l

/-- The tables of a section, as numbers: the source table, the neighbours of the ports of its kind, the registers behind a selector. -/
def sectionTable (x : Settings) (t : Nat) : List Nat :=
  let nbs (ports : Nat → Bool) : List Nat := (x.nbs.filter (fun p => ports p.1)).flatMap fun p =>
    p.2.flatMap (fun e => [p.1, e.1, e.2.flag.toNat, e.2.isMeter.toNat, e.2.meter, e.2.txMask, e.2.short, e.2.ext])
  if t = 1 then x.sources.flatMap (fun e => [e.1, e.2.rate, e.2.burst, e.2.reply, e.2.mask, e.2.ackKey, e.2.addr.toNat])
  else if t = 2 then nbs (fun p => p < 4)
  else if t = 3 then nbs (fun p => 4 ≤ p)
  else if t = 5 then x.bank.flatMap (fun e => [e.1, e.2.toNat])
  else []

/-- The mirrored sections of a settings image: register images, then the section's tables. -/
def settingsBody (x : Settings) : List Byte :=
  (List.range' 1 6).flatMap fun t =>
    let words := (sectionWords t).flatMap fun a => toLe 4 (look regReset x.regs a).toNat
    let tab := sectionTable x t
    sectionBytes t (words ++ (if tab = [] then [] else Config.settingsBytes tab))

/-- The sections a pair does not mirror: the key catalogue and the lifetime record. -/
def State.ownSections (s : State) : List Byte :=
  let kept := s.catalogue.images.flatMap (fun e => [e.1, e.2.1.type, e.2.1.use, e.2.1.parent, e.2.1.pgen, e.2.1.gen, e.2.1.mask, e.2.1.label, e.2.1.key.toNat, e.2.2]) ++
    s.catalogue.floors.flatMap (fun e => [e.1, e.2])
  let life := s.lifetime.bins.flatMap (fun e => [e.1, e.2]) ++ s.lifetime.nand.flatMap (fun e => [e.1, e.2]) ++
    s.lifetime.peak.flatMap (fun e => [e.1, (e.2.1 + 2 ^ 15).toNat, e.2.2])
  sectionBytes 0x10 (Config.settingsBytes (0x10 :: kept)) ++ sectionBytes 0x11 (Config.settingsBytes (0x11 :: life))

/-- A copy: its header, whose CRC covers all but its own four bytes, and its sections. -/
def settingsImage (fmt gen : Nat) (body : List Byte) : List Byte :=
  let l := toLe 4 0x54455353 ++ toLe 2 fmt ++ toLe 2 0 ++ toLe 4 gen ++ toLe 4 body.length ++ List.replicate 44 0
  l ++ toLe 4 (crc32 (l ++ body)) ++ body

/-- Where a copy lies in NOR (R595). -/
def settingsAt (k : Nat) : Nat := 0x2800000 + 0x100000 * k

/-- Do the bytes in NOR begin with MAGIC and agree with their CRC. -/
def State.settingsCrc (s : State) (k : Nat) : Bool :=
  let a := settingsAt k
  let len := s.le .nor (a + 12) 4
  decide (s.le .nor a 4 = 0x54455353) && decide (64 + len ≤ 0x100000) &&
    decide (s.le .nor (a + 60) 4 = crc32 (s.bytes .nor a 60 ++ s.bytes .nor (a + 64) len))

/-! ### The copies -/

/-- a is newer than b in serial-number order (R607). -/
def serialNewer (a b : Nat) : Bool := let d := (a + 2 ^ 32 - b % 2 ^ 32) % 2 ^ 32
                                      1 ≤ d && d < 2 ^ 31

/-- Copy k (0 A, 1 B), where it counts and its CRC holds. -/
def State.settingsCopy (s : State) (k : Nat) : Option SettingsCopy :=
  ((s.settings.find? (fun e => e.1 = k)).map (·.2)).filter (fun c => c.good && s.settingsCrc k)

/-- The copy used: of two whose CRC holds the one with the larger GEN. -/
def State.settingsUsed (s : State) : Option (Nat × SettingsCopy) :=
  match s.settingsCopy 0, s.settingsCopy 1 with
  | some a, some b => some (if serialNewer b.gen a.gen then (1, b) else (0, a))
  | some a, none => some (0, a)
  | none, some b => some (1, b)
  | none, none => none

/-- The settings as they stand: of a domain that is not on, what the copy used holds (log entry 28). -/
def State.settingsNow (s : State) : Settings :=
  let old := (s.settingsUsed.map (·.2.body)).getD Settings.off
  let on (a : Nat) : Bool := s.domOn (domainOf a)
  let live := (s.regs.filter (fun e => on e.1 && !isDesc e.1)).map (fun e => (e.1, (e.2 &&& settingMask e.1) ||| (regReset e.1 &&& ~~~(settingMask e.1))))
  let regs := live.filter (fun e => decide (e.2 ≠ regReset e.1)) ++ old.regs.filter (fun e => !on e.1)
  let bank := s.bank.filter (fun e => settingBank e.1 && on (e.1 / 2 ^ 20)) ++ old.bank.filter (fun e => !on (e.1 / 2 ^ 20))
  { regs := regs, bank := bank
    sources := if s.domOn 1 then s.ing.sources.map (fun e => (e.1, sourceConfig e.2)) else old.sources
    nbs := if s.domOn 12 then s.mac.map (fun e => (e.1, (e.2.nbs.filter (fun n => n.2.valid)).map (fun n => (n.1, neighConfig n.2)))) else old.nbs }

/-- Where the active or golden manifest of the Lanyard firmware in use lies (R605). -/
def State.lanyManifest (s : State) : Nat := if s.bitAt (pa .upd 0 rUPD_STAT) 8 then 0 else activeArea

/-- SET_FMT of the firmware in use (R596). -/
def State.setFmt (s : State) : Nat := s.le .nor (s.lanyManifest + 0x1C) 2

/-- The active sends a new image to its standby in pieces of 1 KiB, each behind its offset in 4 bytes (R582, log entry 30). -/
def State.settingsMirror (s : State) (x : Settings) : State :=
  if !s.peerReady then s
  else
    let l := settingsBody x
    (List.range ((l.length + 1023) / 1024)).foldl (fun s i => s.pairSend 8 (toBe 4 (1024 * i) ++ (l.drop (1024 * i)).take 1024) false) s

/-- The bytes of a copy in its area, erased before; where the read-back does not agree the header's are free values. -/
def State.settingsPut (s : State) (k : Nat) (l : List Byte) (ok : Bool) : State :=
  let a := settingsAt k
  let s := s.clearMem .nor a (a + 0x100000)
  if ok then s.setBytes .nor a l
  else
    let (ws, s) := s.drawN 8
    s.setBytes .nor a (ws.flatMap (fun w => toLe 8 w.toNat) ++ l.drop 64)

/-- A copy written to the area that does not hold the newer one (R607); ok: its read-back agrees. -/
def State.settingsWrite (s : State) (x : Settings) (ok : Bool) : State :=
  let (k, gen) := match s.settingsUsed with
    | some (k, c) => (1 - k, (c.gen + 1) % 2 ^ 32)
    | none => (0, 1)
  let c : SettingsCopy := ⟨gen, s.setFmt, ok, x⟩
  (({ s with settings := place k c (drop s.settings k) }).settingsPut k (settingsImage c.fmt gen (settingsBody x ++ s.ownSections)) ok).settingsMirror x

/-! ### The key catalogue (R473) -/

/-- The catalogue passes its integrity check under the present KSTORE (R473): it and every image in it are wrapped under the root that is valid,
and the settings area of NOR, where one was ever written, holds a copy that reads right (section 0x10 of R607). -/
def State.catalogueGood (s : State) : Bool :=
  decide (s.root.id ≠ 0) && decide (s.catalogue.rootId = s.root.id) && s.catalogue.images.all (fun e => e.2.2 = s.root.id) &&
    (s.settings.isEmpty || s.settingsUsed.isSome)

/-- One image of the catalogue imported: not below its slot's floor. -/
def State.restoreOne (s : State) (e : Nat × (KeySlot × Nat)) : State :=
  if e.2.1.gen < look (fun _ => 0) s.catalogue.floors e.1 ∨ s.targetSlot e.1 e.2.1.gen ≠ 0 then s else s.renewSlot e.1 e.2.1

/-- The catalogue restored (R473): every image at or above its floor; a catalogue that fails its check is discarded and a new one started, with
floors from the DRBG. -/
def State.catalogueRestore (s : State) : State :=
  if !s.domOn 16 ∨ (s.catalogue.images = [] ∧ s.catalogue.floors = []) then s
  else if s.catalogueGood then s.catalogue.images.foldl (fun s e => s.restoreOne e) s
  else
    let (ws, s) := s.drawN 4096
    let floors := (List.range 4096).map (fun i => (i, (ws.getD i 0).toNat % 0x7FFFFFFF + 1))
    ({ s with catalogue := ⟨[], floors, s.root.id⟩ }).lanyEvent 0x32 []

/-- CATALOGUE_RESTORE (R473). -/
def execCatalogueRestore (s : State) : Res := .next s.catalogueRestore

/-! ### Applying a copy -/

/-- One register word set from a copy, but for the bits a copy does not hold. -/
def State.settingsWord (s : State) (x : Settings) (a : Nat) : State :=
  let m := settingMask a
  if m = 0 ∨ !s.domOn (domainOf a) then s
  else s.wr a ((s.rd a &&& ~~~m) ||| (look regReset x.regs a &&& m))

/-- A neighbour of a copy at start: NEXT_CTR from its image where that is the same neighbour's (R375, R380). -/
def State.settingsNb (s : State) (m i : Nat) (n : Neigh) : Neigh :=
  let image := s.die.le .fram (ctrImageAt m i) 4
  let match_ := s.die.le .fram (ctrImageAt m i + 4) 4 = n.ext % 2 ^ 32
  { n with next := if match_ then max n.next image else n.next, dirty := true }

/-- A settings image in force (R608, R631): registers, source table, neighbours. Sources have full credit as a new entry has (R225). -/
def State.settingsApply (s : State) (x : Settings) : State :=
  let keys := ((s.regs.filter (fun e => settingMask e.1 ≠ 0)).map (·.1) ++ x.regs.map (·.1)).eraseDups
  let s := keys.foldl (fun s a => s.settingsWord x a) s
  let bkeys := (((s.bank.filter (fun e => settingBank e.1)).map (·.1)) ++ x.bank.map (·.1)).eraseDups
  let s := bkeys.foldl (fun s k =>
    if s.domOn (domainOf (k / 2 ^ 20)) then s.setBk (k / 2 ^ 20) (k % 2 ^ 20) (look bankReset x.bank k) else s) s
  let skeys := ((s.ing.sources.map (·.1)) ++ x.sources.map (·.1)).eraseDups
  let s := if s.domOn 1 then skeys.foldl (fun s i => s.applySource i (look sourceReset x.sources i)) s else s
  if s.domOn 12 then
    (List.range 7).foldl (fun s m =>
      let old := s.port7 m
      let l := (x.nbs.find? (fun e => e.1 = m)).map (·.2)
      s.setPort7 m { old with nbs := (l.getD []).map (fun e => (e.1, s.settingsNb m e.1 e.2)) }) s
  else s

/-- Every mirrored section back to its default, in force and in NOR at once (R608), with event 0x49. -/
def State.settingsReset (s : State) : State :=
  ((s.settingsApply Settings.off).settingsWrite Settings.off true).lanyEvent 0x49 []

end Sys2Proof.Machine
end

