-- ==== Sys2Proof/Machine/Update.lean ====
section
/-! DEFINITION. Firmware update (R594 to R609): manifests, pieces, resume records, the copy journal, the mailbox's update and settings
requests, and the Lanyard-facing splices (R534). -/

namespace Sys2Proof.Machine

/-- A register of the UPD page. -/
abbrev upA (o : Nat) : Nat := pa .upd 0 o

/-! ### Manifests (R594, R596, R597) -/

/-- The largest image of a kind, in the golden area where golden is set (R594). -/
def maxImage (kind : Nat) (golden : Bool) : Nat :=
  if kind = 1 then 983040 else if kind = 2 then (if golden then 7012352 else 15400960) else if kind = 3 then 196608 else 4194304

/-- Where an image being received lies in NOR: the staging region, or the receive area (R594, R595). -/
def recvAt (kind : Nat) : Nat := if kind = 4 then 0x2B00000 else regionOf 0x1800000 kind

/-- The 64 KiB groups of an image. -/
def groupsOf (len : Nat) : Nat := (len + 65535) / 65536

/-- MAN_LEN of a number of groups. -/
def manLen (n : Nat) : Nat := (0x240 + 48 * n + 15) / 16 * 16 + 256

/-- Check 0x01 for a manifest received as a kind and version (log entry 28). -/
def badManifestForm (m : List Byte) (kind version limit : Nat) : Bool :=
  let n := u m 0x12 2
  let len := u m 0x18 4
  let ns := u m 0x11 1
  let e := manLen n - 256
  decide (m.length ≠ manLen n) || decide (u m 0 4 ≠ 0x54464E4D) || decide (u m 4 2 ≠ 1) || decide (u m 6 1 ≠ kind) || decide (1 < u m 7 1) ||
  decide (u m 8 8 ≠ version) || decide (len = 0) || decide (limit < len) || decide (n ≠ groupsOf len) ||
  decide (64 < ns) || (decide (u m 7 1 = 1) && decide (ns ≠ 0)) ||
  (List.range 64).any (fun i => decide (ns ≤ i) && decide (u m (0x40 + 8 * i) 8 ≠ 0)) ||
  (decide (kind = 4) && decide (u m 0x10 1 ≠ 0)) || decide (u m 0x17 1 ≠ 0) || (decide (kind ≠ 1) && !zeros m 0x1C 4) ||
  (decide (kind ≠ 4) && !zeros m 0x20 32) || !zeros m (e + 97) 15 || !zeros m (e + 208) 48

/-- Check 0x02: the key's digest is OTP hash slot 4's, and the signature block verifies. -/
def badManifestKey (otp : Otp) (m : List Byte) (slot : Nat) : Bool :=
  let o := m.length - 256
  let pub := (m.drop o).take 97
  match otp.hash slot, p384.point pub with
  | some h, some q =>
    h ≠ BitVec.ofNat 384 (beNat (sha384 pub)) ||
    !p384.verify q (sha384 (m.take (m.length - 144))) (beNat ((m.drop (o + 112)).take 48)) (beNat ((m.drop (o + 160)).take 48))
  | _, _ => true

/-- Check 0x03: the hardware type (R69). -/
def State.badManifestHw (s : State) (m : List Byte) (kind : Nat) : Bool :=
  let hw := (s.view (pa .chip 0 rCHIP_HWTYPE)).toNat / 256
  if kind = 4 then decide (u m 0x14 3 ≠ 0) else decide (u m 0x14 3 ≠ hw) || decide (hw = 0)

/-- Check 0x04: the unit is named. -/
def State.badManifestUnit (s : State) (m : List Byte) : Bool :=
  let serial := (s.viewWide (pa .chip 0 rCHIP_SERIAL)).toNat
  u m 7 1 % 2 = 0 && (decide (serial = 0) || !(List.range (u m 0x11 1)).any (fun i => u m (0x40 + 8 * i) 8 = serial))

/-- The code of the first manifest check that fails, 0 for none (R597); floor: the versions check 0x05 compares with; golden: checks 0x05 and
0x06 are not made (R605). -/
def State.manifestCheck (s : State) (m : List Byte) (kind version : Nat) (floor : List Nat) (golden : Bool) : Nat :=
  if badManifestForm m kind version (maxImage kind golden) then 1
  else if badManifestKey s.otp m 4 then 2
  else if s.badManifestHw m kind then 3
  else if s.badManifestUnit m then 4
  else if golden then 0
  else if floor.any (fun v => decide (version < v)) then 5
  else if kind ≠ 4 ∧ (u m 0x10 1 < look (fun _ => 0) s.otp.rollback kind ∨ 64 < u m 0x10 1) then 6
  else 0

/-- What check 0x05 compares a received manifest with. -/
def State.versionFloor (s : State) (kind : Nat) (m : List Byte) : List Nat :=
  let going := if s.resumeSt kind = 1 ∨ s.resumeSt kind = 2 then [s.die.le .fram (resumeAt kind + 8) 8] else []
  if kind = 4 then going ++ (s.images.filter (fun e => e.2.id = (m.drop 0x20).take 32)).map (·.2.version)
  else s.installed kind :: going

/-- The manifest in the first sector of a region of NOR. -/
def State.manifestAt (s : State) (a : Nat) : List Byte := s.bytes .nor a (manLen (s.le .nor (a + 0x12) 2))

/-- The length of group g of an image. -/
def groupLen (len g : Nat) : Nat := min 65536 (len - 65536 * g)

/-- Does group g of the image of the region at a have the hash its manifest says (R596). -/
def State.groupOk (s : State) (a g : Nat) : Bool :=
  sha384 (s.bytes .nor (a + 0x10000 * (g + 1)) (groupLen (s.le .nor (a + 0x18) 4) g)) = s.bytes .nor (a + 0x240 + 48 * g) 48

/-! ### The copy journal (R603) -/

/-- A journal entry. -/
def journalEntry (kind step sector version rollback : Nat) : List Byte :=
  let l := toLe 4 0x4C4E524A ++ toLe 1 kind ++ toLe 1 step ++ toLe 2 sector ++ toLe 8 version ++ toLe 1 rollback ++ List.replicate 11 0
  l ++ toLe 4 (crc32 l)

/-- The journal's slots up to the first that is erased. -/
def State.journal (s : State) : List (List Byte) :=
  ((List.range 2048).map (fun i => s.bytes .nor (0x2A00000 + 32 * i) 32)).takeWhile (fun e => !e.all (· = 0xFF))

/-- The last valid entry of a kind: STEP, SECTOR, VERSION, ROLLBACK. -/
def State.journalLast (s : State) (kind : Nat) : Option (Nat × Nat × Nat × Nat) :=
  ((s.journal.filter (fun e => u e 0 4 = 0x4C4E524A && u e 4 1 = kind && u e 28 4 = crc32 (e.take 28))).getLast?).map
    (fun e => (u e 5 1, u e 6 2, u e 8 8, u e 16 1))

/-- An entry appended; nothing where the sector is full (log entry 28). -/
def State.journalAdd (s : State) (kind step sector version rollback : Nat) : State :=
  let n := s.journal.length
  if 2048 ≤ n then s else s.norProgram (0x2A00000 + 32 * n) (journalEntry kind step sector version rollback)

/-! ### Resume records (R601) -/

/-- Bytes of a resume record written; fail: the read-back fails twice, which leaves free values. -/
def State.resPut (s : State) (kind off : Nat) (l : List Byte) (fail : Bool) : State :=
  if fail then
    let (ws, s) := s.drawN ((l.length + 7) / 8)
    (s.framPut 4 (resumeAt kind + off) ((ws.flatMap (fun w => toLe 8 w.toNat)).take l.length)).cause .upd 0 1
  else s.framPut 4 (resumeAt kind + off) l

/-- The header of a resume record. -/
def resumeHeader (st version pieces groups : Nat) : List Byte :=
  let l := toLe 4 0x44525055 ++ toLe 4 st ++ toLe 8 version ++ toLe 2 pieces ++ toLe 2 groups ++ List.replicate 40 0
  l ++ toLe 4 (crc32 l)

/-- A bit of a resume record's maps: ERASED 0x040, GROUP_OK 0x060, HELD 0x080. -/
def State.resBit (s : State) (kind off i : Nat) : Bool := bit (s.die.byte .fram (resumeAt kind + off + i / 8)) (i % 8)

/-- One of them set or cleared. -/
def State.setResBit (s : State) (kind off i : Nat) (v fail : Bool) : State :=
  s.resPut kind (off + i / 8) [Sys2Proof.putBit (s.die.byte .fram (resumeAt kind + off + i / 8)) (i % 8) v] fail

/-- STATE changed, the rest of the header kept. -/
def State.setResumeSt (s : State) (kind st : Nat) (fail : Bool) : State :=
  let a := resumeAt kind
  s.resPut kind 0 (resumeHeader st (s.die.le .fram (a + 8) 8) (s.die.le .fram (a + 0x10) 2) (s.die.le .fram (a + 0x12) 2)) fail

/-- UPD_CNT: 0 accepted, 1 duplicate, 2 rejected, 3 group failures. -/
def State.updCount (s : State) (i : Nat) : State := s.bumpBk (upA rUPD_CNT) i (2 ^ 32 - 1) 1

/-! ### Pieces (R598 to R602) -/

/-- A piece (R598). -/
structure Piece where
  kind : Nat
  man : Bool
  version : Nat
  no : Nat
  total : Nat
  data : List Byte
  deriving DecidableEq, Repr

/-- The piece a message is; none where it breaks a field rule. -/
def pieceOf (l : List Byte) : Option Piece :=
  let b (o n : Nat) : Nat := beNat ((l.drop o).take n)
  let p : Piece := ⟨b 2 1, (b 3 1).testBit 0, b 4 8, b 12 2, b 14 2, l.drop 20⟩
  if 20 < l.length ∧ b 0 2 = 0x5550 ∧ 1 ≤ p.kind ∧ p.kind ≤ 4 ∧ b 3 1 ≤ 1 ∧ p.no < p.total ∧ p.data.length = b 16 2 ∧ b 16 2 ≤ 1024 ∧
      b 18 2 = 0 ∧ (p.no + 1 = p.total ∨ b 16 2 = 1024) then some p else none

/-- A manifest that has passed its checks takes effect (R600). -/
def State.manifestAccept (s : State) (kind : Nat) (m : List Byte) (framFail : Bool) : State :=
  let a := recvAt kind
  let s := if kind ≠ 4 ∧ s.resumeSt kind = 2 then
      s.journalAdd kind 4 0 (s.die.le .fram (resumeAt kind + 8) 8) (s.le .nor (a + 0x10) 1) else s
  let pieces := (u m 0x18 4 + 1023) / 1024
  let s := s.resPut kind 0 (resumeHeader 1 (u m 8 8) pieces (u m 0x12 2) ++ List.replicate 2112 0) framFail
  ((s.norErase a).norProgram a m).lanyEvent 0x58 []

/-- A part of a manifest (R600): held until all are there; 0, or the code of the check that failed. -/
def State.manifestPiece (s : State) (p : Piece) (framFail : Bool) : Nat × State :=
  let old := (s.lany.manifests.find? (fun e => e.1 = p.kind)).map (·.2)
  let x : ManifestIn := match old with
    | some x => if x.version = p.version ∧ x.total = p.total then x else ⟨p.version, p.total, []⟩
    | none => ⟨p.version, p.total, []⟩
  if x.parts.any (fun e => e.1 = p.no) then (0, s.updCount 1)
  else
    let x : ManifestIn := { x with parts := place p.no p.data x.parts }
    let rest := drop s.lany.manifests p.kind
    let s := s.updCount 0
    if x.parts.length < x.total then (0, { s with lany := { s.lany with manifests := place p.kind x rest } })
    else
      let s := { s with lany := { s.lany with manifests := rest } }
      let m := x.parts.flatMap (·.2)
      let c := s.manifestCheck m p.kind p.version (s.versionFloor p.kind m) false
      if c = 0 then (0, s.manifestAccept p.kind m framFail) else (c, s.lanyEvent 0x5F [c])

/-- Every group of a kind's transfer has passed its hash. -/
def State.groupsDone (s : State) (kind : Nat) : Bool :=
  (List.range (s.die.le .fram (resumeAt kind + 0x12) 2)).all (fun g => s.resBit kind 0x060 g)

/-- The transfer ends (R602 step 6). -/
def State.transferEnd (s : State) (kind : Nat) (framFail : Bool) : State :=
  let s := if kind = 4 then s
    else
      let s := s.setResumeSt kind 2 framFail
      (s.journalAdd kind 1 0 (s.die.le .fram (resumeAt kind + 8) 8) (s.le .nor (recvAt kind + 0x10) 1)).irq .upd 0 0
  s.lanyEvent 0x59 []

/-- Group g is held whole: it is hashed (R602 step 5). -/
def State.groupHeld (s : State) (kind g : Nat) (framFail : Bool) : State :=
  if s.groupOk (recvAt kind) g then
    let s := s.setResBit kind 0x060 g true framFail
    if s.groupsDone kind then s.transferEnd kind framFail else s
  else
    let s := s.resPut kind (0x080 + 8 * g) (List.replicate 8 0) framFail
    let s := (s.setResBit kind 0x040 g false framFail).updCount 3
    ((s.lanyEvent 0x5C []).cause .upd 0 0).irq .upd 0 1

/-- An image piece stored (R602 steps 2 to 5); norFail: the read-back fails twice. -/
def State.pieceStore (s : State) (p : Piece) (norFail framFail : Bool) : State :=
  let k := p.kind
  let g := p.no / 64
  let at_ := recvAt k + 0x10000 + 1024 * p.no
  let s := if s.resBit k 0x040 g then s
    else (s.norErase (recvAt k + 0x10000 * (g + 1))).setResBit k 0x040 g true framFail
  if norFail then
    let (ws, s) := s.drawN 128
    (s.setBytes .nor at_ ((ws.flatMap (fun w => toLe 8 w.toNat)).take p.data.length)).cause .upd 0 2
  else
    let s := ((s.norProgram at_ p.data).setResBit k 0x080 p.no true framFail).updCount 0
    let n := s.die.le .fram (resumeAt k + 0x10) 2
    if (List.range 64).all (fun i => decide (n ≤ 64 * g + i) || s.resBit k 0x080 (64 * g + i)) then s.groupHeld k g framFail else s

/-- A piece handled (R598 to R602): 0 taken or a duplicate, a failed manifest check's code, 255 rejected or not stored. -/
def State.takePiece (s : State) (l : List Byte) (norFail framFail : Bool) : Nat × State :=
  match pieceOf l with
  | none => (255, s.updCount 2)
  | some p =>
    if p.man then s.manifestPiece p framFail
    else
      let a := resumeAt p.kind
      let n := s.die.le .fram (a + 0x10) 2
      let len := s.le .nor (recvAt p.kind + 0x18) 4
      if s.resumeSt p.kind = 0 ∨ s.die.le .fram (a + 8) 8 ≠ p.version ∨ p.total ≠ n ∨
          (p.no + 1 = n ∧ p.data.length ≠ len - 1024 * p.no) then (255, s.updCount 2)
      else if s.resBit p.kind 0x080 p.no then (0, s.updCount 1)
      else (if norFail then 255 else 0, s.pieceStore p norFail framFail)

/-- UPDATE_PIECE (R599 to R602): the mailbox's UPDATE request with OP PIECE, whose body is the word of OP and the piece (log entry 28). -/
def execUpdatePiece (norFail framFail : Bool) (s : State) : Res :=
  .next (s.serve 0x40 fun m s =>
    let (r, s) := s.takePiece (m.body.drop 8) norFail framFail
    if r = 0 then s.reply 0 0 [] else if r = 255 then s.replyRefused else s.reply 3 r [])

/-! ### Lanyard-facing splices (R534, R599) -/

/-- Does a message begin as a piece does. -/
def isPiece (c : Cell512) : Bool := decide (2 ≤ cellLen c) && decide ((cellBytes c 2).map (·.toNat) = [0x55, 0x50])

/-- The cells of a message's payload. -/
def payloadOf (cs : List Cell512) : List Byte := cs.flatMap (fun c => cellBytes c (min 56 (cellLen c)))

/-- A cell of a Lanyard-facing splice acted on (R534): a message whose first cell the Lanyard cannot interpret is discarded whole with event
0x48; known: it can. A piece is handled at its LAST cell, one with a tainted cell is rejected. -/
def State.lanyCell (s : State) (n : Nat) (c : Cell512) (known norFail framFail : Bool) : State :=
  let skip (on : Bool) (s : State) : State :=
    let rest := s.lany.discard.filter (· ≠ n)
    { s with lany := { s.lany with discard := if on then rest ++ [n] else rest } }
  let take (l : List Cell512) (s : State) : State :=
    if cellLast c then
      let s := s.setBegun 21 n []
      if l.any cellTaint then s.updCount 2 else (s.takePiece (payloadOf l) norFail framFail).2
    else s.setBegun 21 n l
  if !cellFirst c ∧ s.lany.discard.contains n then (if cellLast c then skip false s else s)
  else if !cellFirst c ∧ s.begun n ≠ [] then take (s.begun n ++ [c]) s
  else
    let s := skip false (s.setBegun 21 n [])
    if cellFirst c ∧ isPiece c then take [c] s
    else
      let s := if cellFirst c ∧ known then s else s.lanyEvent 0x48 []
      if cellLast c then s else skip true s

/-- LANYARD_SPLICE_POP (R534). -/
def execLanyardSplicePop (n : BitVec 13) (known norFail framFail : Bool) (s : State) : Res :=
  .next (if !(s.normalRuns && decide (6208 ≤ n.toNat) && decide (n.toNat < 6336) && decide (s.fld (descA n.toNat 1) 12 8 = 0x15)) then s
    else match s.pop n.toNat with
      | (none, s) => s
      | (some (c, _), s) => s.lanyCell n.toNat c known norFail framFail)

/-! ### The other update and settings requests -/

/-- Runs of consecutive numbers, each its first and length, of a rising list. -/
def runsOf : List Nat → List (Nat × Nat)
  | [] => []
  | x :: t => match runsOf t with
    | (y, n) :: r => if y = x + 1 then (x, n + 1) :: r else (x, 1) :: (y, n) :: r
    | [] => [(x, 1)]

/-- UPDATE_STATUS (R602): STATE, VERSION and PIECES of a kind, then up to 200 ranges of the pieces missing, two to a word (log entry 28). -/
def execUpdateStatus (kind : Fin 4) (s : State) : Res :=
  .next (s.serve 0x40 fun _ s =>
    let k := kind.val + 1
    let a := resumeAt k
    let n := if s.resumeSt k = 0 then 0 else s.die.le .fram (a + 0x10) 2
    let rs := ((runsOf ((List.range n).filter (fun i => !s.resBit k 0x080 i))).take 200).map (fun r => r.1 + r.2 * 2 ^ 16)
    s.reply 0 0 ([s.resumeSt k, if s.resumeSt k = 0 then 0 else s.die.le .fram (a + 8) 8, n] ++
      (List.range ((rs.length + 1) / 2)).map (fun i => rs.getD (2 * i) 0 + rs.getD (2 * i + 1) 0 * 2 ^ 32)))

/-- UPDATE_ACTIVATE (R604): EVR flushed, then a chip reset requested. -/
def execUpdateActivate (s : State) : Res :=
  .next (s.serve 0x40 fun _ s => ((s.reply 0 0 []).flushNow).rstCtrl .normal 0x800052A5)

/-- An image in pages of 16,384 bytes. -/
def imagePages (l : List Byte) : List (List Byte) :=
  (List.range ((l.length + 16383) / 16384)).map fun i => ((l.drop (16384 * i)).take 16384 ++ List.replicate 16384 0).take 16384

/-- The pages of a meter image programmed into stream 3 of NAND (R495, R609), the first target with room taking each; where they went, none where no
target has room. -/
def State.storeImage (s : State) : List (List Byte) → List (Nat × Nat) → Option (List (Nat × Nat) × State)
  | [], at_ => some (at_, s)
  | d :: rest, at_ =>
    match s.nandTargets.findSome? (fun t => s.openLog t 3) with
    | none => none
    | some (k, s) => (s.writePage k 0 none d).storeImage rest (at_ ++ [((s.blk k).lbn.getD 0, (s.blk k).pages.length)])

/-- UPDATE_IMAGE_STORE (R609): a complete meter image placed in NAND through the rigging; a slot a campaign uses is refused. -/
def execUpdateImageStore (slot : Fin 64) (framFail : Bool) (s : State) : Res :=
  .next (s.serve 0x40 fun _ s =>
    if s.resumeSt 4 ≠ 1 ∨ !s.groupsDone 4 ∨ s.camps.any (fun c => c.slot = slot.val) ∨ !s.rig.running ∨ !s.domOn 14 ∨ !s.domOn 15 then s.replyRefused
    else
      let m := s.manifestAt (recvAt 4)
      match s.storeImage (imagePages (s.bytes .nor (recvAt 4 + 0x10000) (u m 0x18 4))) [] with
      | none => s.replyRefused
      | some (pages, s) =>
        let x : SlotImage := ⟨(m.drop 0x20).take 32, u m 8 8, u m 0x18 4, pages⟩
        let s := { s with images := place slot.val x (drop s.images slot.val) }
        (s.setResumeSt 4 3 framFail).reply 0 0 [])

/-- SETTINGS_SAVE (R607, R608); ok: the read-back agrees. -/
def execSettingsSave (ok : Bool) (s : State) : Res :=
  .next (s.serve 0x41 fun _ s =>
    let s := s.settingsWrite s.settingsNow ok
    if ok then s.reply 0 0 [] else s.replyRefused)

/-- SETTINGS_DEFAULTS (R608). -/
def execSettingsDefaults (s : State) : Res := .next (s.serve 0x41 fun _ s => s.settingsReset.reply 0 0 [])

end Sys2Proof.Machine
end

