-- ==== Sys2Proof/Machine/Campaign.lean ====
section
/-! DEFINITION. Meter image campaigns (R610, R611). -/

namespace Sys2Proof.Machine

/-- A campaign set; none of its meters left ends it. -/
def State.setCamp (s : State) (k : Nat) (c : Camp) : State :=
  { s with camps := if c.meters = [] then s.camps.eraseIdx k else s.camps.set k c }

/-- IMG_STATE of a meter written (R611). -/
def State.imgState (s : State) (i slot st tries cause missing : Nat) : State :=
  s.setField i (patch (s.field i) 0x30
    (toLe 1 slot ++ toLe 1 st ++ toLe 1 tries ++ toLe 1 cause ++ toLe 4 missing ++ toLe 8 (s.tsuTime.sec % 2 ^ 48)))

/-- A meter's step in a campaign written to its entry. -/
def State.campStep (s : State) (slot i : Nat) (m : CampMeter) : State := s.imgState i slot m.st (min 255 m.tries) 0 m.missing.length

/-- A meter that ends, with its outcome to the host (R610). -/
def State.campEnd (s : State) (slot ring i : Nat) (m : CampMeter) (st cause : Nat) : State :=
  (s.imgState i slot st (min 255 m.tries) cause m.missing.length).tellHost ring [4, i, slot, st, cause]

/-- May the field-service lay work on meter entries. -/
def State.campOn (s : State) : Bool := s.domOn 10 && s.domOn 14

/-- A meter named in a new campaign leaves its older one (R610): cause REPLACED. -/
def State.replaced (s : State) (i : Nat) : State :=
  match s.camps.zipIdx.find? (fun c => c.1.meters.any (fun m => m.1 = i)) with
  | none => s
  | some (c, k) =>
    let s := ((c.meters.find? (fun m => m.1 = i)).map (fun m => s.campEnd c.slot c.ring i m.2 7 6)).getD s
    s.setCamp k { c with meters := drop c.meters i }

/-- A meter joins (R610 step 1): its enable and block size read, the transfer initiated. answer: 0 enabled with the size, else the CAUSE. -/
def State.campJoin (s : State) (slot ring block len : Nat) (i out answer : Nat) : Option (Nat × CampMeter) × State :=
  let s := (s.replaced i).imgState i slot 1 0 0 0
  let s := s.toMeter i 2 out [18, 5, 2]
  let n := (len + block - 1) / block
  let m : CampMeter := ⟨out, List.range n, 2, 0, 0, 0⟩
  if answer ≠ 0 then (none, s.campEnd slot ring i { m with missing := [] } 7 answer)
  else
    let s := s.toMeter i 1 out [18, 1, slot, len]
    (some (i, m), s.campStep slot i m)

/-- Is a campaign within the limits (R610). -/
def campOk (n block rounds gap : Nat) : Bool :=
  n ≤ 4096 && 64 ≤ block && block ≤ 1024 && 1 ≤ rounds && rounds ≤ 16 && 50 ≤ gap && gap ≤ 5000

/-- CAMPAIGN_START (R36, R37, R610): a host command on one ring, its outcomes on another: meters with the splice to each and what its answers say:
0 enabled with the block size, 1 not enabled, 2 another size, 3 none. A command outside the limits is answered and does nothing (log entry 29). -/
def execCampaignStart (cmd : Fin 64) (slot : Fin 64) (meters : List (BitVec 20 × BitVec 13 × Fin 4)) (block : BitVec 11) (key : BitVec 8)
    (rounds : BitVec 5) (gap : BitVec 13) (act : BitVec 48) (ring : Fin 64) (t : Nat) (s : State) : Res :=
  .next ((s.at t).hostServe fieldLay cmd.val ring.val (fun s => match s.images.find? (fun e => e.1 = slot.val) with
    | none => ([0], s)
    | some (_, x) =>
      if !s.campOn || !campOk meters.length block.toNat rounds.toNat gap.toNat then ([0], s)
      else
        let (ms, s) := meters.foldl (fun (p : List (Nat × CampMeter) × State) m =>
          if !p.2.meterValid m.1.toNat ∨ p.1.any (fun e => e.1 = m.1.toNat) then p
          else match p.2.campJoin slot.val ring.val block.toNat x.len m.1.toNat m.2.1.toNat m.2.2.val with
            | (some e, s) => (p.1 ++ [e], s)
            | (none, s) => (p.1, s)) (([] : List (Nat × CampMeter)), s)
        let c : Camp := ⟨slot.val, block.toNat, key.toNat, rounds.toNat, gap.toNat * 1000000, act.toNat, 1, [], [], ms, ring.val⟩
        ([1], if ms = [] then s else { s with camps := s.camps ++ [c] })))

/-- The blocks some meter of a port still misses and the round has not sent. -/
def Camp.unsent (c : Camp) (out : Nat) : List Nat :=
  (((c.meters.filter (fun m => m.2.out = out)).flatMap (·.2.missing)).eraseDups).filter (fun b => !c.sent.contains (out * 65536 + b))

/-- A status read by unicast from each meter still missing blocks (R610 step 2): of a meter that answers, what it holds is no longer missing. -/
def State.campStatus (s : State) (c : Camp) (held : List (BitVec 20 × List (BitVec 16))) : Camp × State :=
  c.meters.foldl (fun (p : Camp × State) e =>
    if e.2.missing = [] then p
    else
      let s := p.2.toMeter e.1 1 e.2.out [18, 3]
      match held.find? (fun h => h.1.toNat = e.1) with
      | none => (p.1, s)
      | some h =>
        let m : CampMeter := { e.2 with st := 3, missing := e.2.missing.filter (fun b => !h.2.any (fun x => x.toNat = b)) }
        ({ p.1 with meters := p.1.meters.map (fun f => if f.1 = e.1 then (e.1, m) else f) }, s.campStep c.slot e.1 m)) (c, s)

/-- The blocks a meter still misses sent to it by unicast, up to 3 tries each (R610 step 3): tries: what each took, 0 none of three. -/
def State.campDirect (s : State) (i : Nat) (m : CampMeter) (took : List (BitVec 16 × Fin 4)) : CampMeter × State :=
  m.missing.foldl (fun (p : CampMeter × State) b =>
    let n := ((took.find? (fun x => x.1.toNat = b)).map (fun x => x.2.val)).getD 0
    let s := p.2.toMeter i (if n = 0 then 3 else n) m.out [18, 2, b]
    ({ p.1 with tries := p.1.tries + (if n = 0 then 3 else n), missing := if n = 0 then p.1.missing else p.1.missing.filter (· ≠ b) }, s)) (m, s)

/-- What image_verify or a poll of it says (R610 step 4): 0 verified, 1 a temporary failure, 2 a failure, 3 no answer. -/
def State.campVerdict (s : State) (slot ring i : Nat) (m : CampMeter) (v : Nat) : Option (Nat × CampMeter) × State :=
  if v = 0 then
    let m := { m with st := 5 }
    (some (i, m), s.campStep slot i m)
  else if v = 1 then
    let m := { m with st := 4, poll := s.tsuTime.sec + 60 }
    (some (i, m), s.campStep slot i m)
  else (none, s.campEnd slot ring i m 7 (if v = 2 then 4 else 3))

/-- After the last round (R610 steps 3 and 4): the rest by unicast, then image_verify. -/
def State.campFinish (s : State) (c : Camp) (took : List (BitVec 20 × List (BitVec 16 × Fin 4))) (verify : List (BitVec 20 × Fin 4)) : List (Nat × CampMeter) × State :=
  c.meters.foldl (fun (p : List (Nat × CampMeter) × State) e =>
    let (m, s) := p.2.campDirect e.1 e.2 (((took.find? (fun x => x.1.toNat = e.1)).map (·.2)).getD [])
    if m.missing ≠ [] then (p.1, s.campEnd c.slot c.ring e.1 m 7 3)
    else
      let s := s.toMeter e.1 1 m.out [18, 3]
      let v := ((verify.find? (fun x => x.1.toNat = e.1)).map (fun x => x.2.val)).getD 3
      match s.campVerdict c.slot c.ring e.1 { m with since := s.tsuTime.sec } v with
      | (some x, s) => (p.1 ++ [x], s)
      | (none, s) => (p.1, s)) (([] : List (Nat × CampMeter)), s)

/-- A round ends (R610 steps 2 and 3). -/
def State.campRound (s : State) (k : Nat) (c : Camp) (held : List (BitVec 20 × List (BitVec 16)))
    (took : List (BitVec 20 × List (BitVec 16 × Fin 4))) (verify : List (BitVec 20 × Fin 4)) : State :=
  let (c, s) := s.campStatus c held
  if c.round < c.rounds ∧ c.meters.any (fun m => decide (m.2.missing ≠ [])) then s.setCamp k { c with round := c.round + 1, sent := [] }
  else
    let (ms, s) := s.campFinish c took verify
    s.setCamp k { c with round := 17, sent := [], meters := ms }

/-- A block broadcast for the meters of a splice (R610 step 2): on each port they hang on, under the group key; on the power line coupled to all
three phases (R415). -/
def State.broadcastBlock (s : State) (c : Camp) (out : Nat) (l : List Byte) : State :=
  if s.spliceEnd out = 4 ∨ s.spliceEnd out = 5 then
    (((c.meters.filter (fun m => m.2.out = out)).map (fun m => (s.hopOf out m.1).1)).eraseDups).foldl
      (fun s m => s.offerAll out (s.macMessage m 0 none (some c.key) 2 l)) s
  else s.offerAll out (messageCells 0 0 l)

/-- IMAGE_BLOCK_BROADCAST (R610 steps 2 to 4): campaign k sends one block on a port at its gap; with the last block of a round come the
meters' answers: held: what each that answers holds; took: the tries of each block sent by unicast; verify: what image_verify says. -/
def execImageBlockBroadcast (k : Nat) (out : BitVec 13) (held : List (BitVec 20 × List (BitVec 16)))
    (took : List (BitVec 20 × List (BitVec 16 × Fin 4))) (verify : List (BitVec 20 × Fin 4)) (t : Nat) (s : State) : Res :=
  let s := s.at t
  .next (match s.camps[k]? with
    | none => s
    | some c =>
      let due := look (fun _ => 0) c.due out.toNat
      if !s.campOn ∨ c.rounds < c.round ∨ s.now < due then s
      else match c.unsent out.toNat with
        | [] => s
        | b :: _ =>
          let c : Camp := { c with sent := c.sent ++ [out.toNat * 65536 + b], due := Machine.store (fun _ => 0) c.due out.toNat (s.now + c.gap) }
          let s := s.broadcastBlock c out.toNat (Config.dlmsBytes [18, 2, c.slot, c.key, b, c.block])
          if c.meters.all (fun m => decide (c.unsent m.2.out = [])) then s.campRound k c held took verify else s.setCamp k c)

/-- IMAGE_VERIFY_POLL (R610 step 4): a poll of image_transfer_status every 60 s, for up to 10 minutes. -/
def execImageVerifyPoll (meter : BitVec 20) (answer : Fin 4) (t : Nat) (s : State) : Res :=
  let s := s.at t
  let i := meter.toNat
  .next (match s.camps.zipIdx.find? (fun c => c.1.meters.any (fun m => m.1 = i)) with
    | none => s
    | some (c, k) => match c.meters.find? (fun m => m.1 = i) with
      | none => s
      | some (_, m) =>
        if !s.campOn ∨ m.st ≠ 4 ∨ s.tsuTime.sec < m.poll then s
        else
          let s := s.toMeter i 1 m.out [18, 6]
          let v := if answer.val = 1 ∧ m.since + 600 ≤ s.tsuTime.sec then 2 else answer.val
          match s.campVerdict c.slot c.ring i m v with
          | (some x, s) => s.setCamp k { c with meters := place i x.2 (drop c.meters i) }
          | (none, s) => s.setCamp k { c with meters := drop c.meters i })

/-- IMAGE_ACTIVATE (R610 step 5): at the activation time image_activate to every meter that has verified; answers: whether each succeeds, none
where it stays silent. -/
def execImageActivate (k : Nat) (answers : List (BitVec 20 × Bool)) (t : Nat) (s : State) : Res :=
  let s := s.at t
  .next (match s.camps[k]? with
    | none => s
    | some c =>
      if !s.campOn ∨ s.tsuTime.sec < c.act then s
      else
        let ready := c.meters.filter (fun m => m.2.st = 5)
        let s := ready.foldl (fun s e =>
          let s := s.toMeter e.1 1 e.2.out [18, 4]
          match answers.find? (fun a => a.1.toNat = e.1) with
          | some (_, true) => s.campEnd c.slot c.ring e.1 e.2 6 0
          | some (_, false) => s.campEnd c.slot c.ring e.1 e.2 7 5
          | none => s.campEnd c.slot c.ring e.1 e.2 7 3) s
        s.setCamp k { c with meters := c.meters.filter (fun m => decide (m.2.st ≠ 5)) })

end Sys2Proof.Machine
end

