-- ==== Sys2Proof/Machine/Lowpan.lean ====
section
/-! DEFINITION. What a MAC frame of IEEE 802.15.4 and a datagram of RFC 4944 and RFC 6282 look like (R212, R372, R373, R384, R401; the octets of
those standards are PRESUMED, log entry 23). -/

namespace Sys2Proof.Machine

/-! ### Compressed datagrams -/

/-- The head of a datagram: its bytes as sent, its bytes before compression, the UDP source and destination ports; none: no UDP under it. -/
structure LowpanHead where
  sent : Nat
  full : Nat
  ports : Option (Nat × Nat)
  deriving DecidableEq, Repr

/-- The header after IPv6, of next header 17 where it is not compressed: the UDP ports. -/
def udpPlain (l : List Byte) (o full next : Nat) : LowpanHead :=
  if next = 17 ∧ o + 8 ≤ l.length ∧ be l (o + 4) 2 = l.length - o then ⟨o + 8, full + 8, some (be l o 2, be l (o + 2) 2)⟩ else ⟨o, full, none⟩

/-- Compressed next headers (RFC 6282, section 4): extension headers, then UDP. -/
def nextHeaders : Nat → List Byte → Nat → Nat → LowpanHead
  | 0, _, o, full => ⟨o, full, none⟩
  | fuel + 1, l, o, full =>
    let b := be l o 1
    if l.length ≤ o then ⟨o, full, none⟩
    else if b / 8 = 0x1E then
      let o := o + 1
      let check := if b.testBit 2 then 0 else 2
      match b % 4 with
      | 0 => ⟨o + 4 + check, full + 8, some (be l o 2, be l (o + 2) 2)⟩
      | 1 => ⟨o + 3 + check, full + 8, some (be l o 2, 0xF000 + be l (o + 2) 1)⟩
      | 2 => ⟨o + 3 + check, full + 8, some (0xF000 + be l o 1, be l (o + 1) 2)⟩
      | _ => ⟨o + 1 + check, full + 8, some (0xF0B0 + be l o 1 / 16, 0xF0B0 + be l o 1 % 16)⟩
    else if b / 16 = 0xE ∧ (b / 2) % 8 ≠ 2 ∧ (b / 2) % 8 ≠ 7 then
      let inline := if b.testBit 0 then 0 else 1
      let n := be l (o + 1 + inline) 1
      let o' := o + 2 + inline + n
      let full := full + (n + 9) / 8 * 8
      if inline = 1 then udpPlain l o' full (be l (o + 1) 1) else nextHeaders fuel l o' full
    else ⟨o, full, none⟩

/-- The head of a datagram (RFC 4944, RFC 6282): uncompressed IPv6, or IPHC; none: it cannot be parsed. -/
def lowpanHead (l : List Byte) : Option LowpanHead :=
  let b := be l 0 1
  let c := be l 1 1
  let pick (k : Nat) (xs : List Nat) : Nat := xs.getD k 0
  if b = 0x41 then (if l.length < 41 then none else some (udpPlain l 41 40 (be l 7 1)))
  else if b / 32 ≠ 3 then none
  else
    let nextInline := if b.testBit 2 then 0 else 1
    let classes := pick (b / 8 % 4) [4, 3, 1, 0]
    let hops := if b % 4 = 0 then 1 else 0
    let src := pick (c / 16 % 4) (if c.testBit 6 then [0, 8, 2, 0] else [16, 8, 2, 0])
    let dst := pick (c % 4) (if c.testBit 3 then (if c.testBit 2 then [6, 0, 0, 0] else [0, 8, 2, 0])
      else if c.testBit 2 then [16, 6, 4, 1] else [16, 8, 2, 0])
    let o := 2 + (c / 128) + classes + nextInline + hops + src + dst
    let head := if nextInline = 1 then udpPlain l o 40 (be l (2 + c / 128 + classes) 1) else nextHeaders 8 l o 40
    if l.length < head.sent then none else some head

/-- Is a payload a mesh or broadcast header of RFC 4944. -/
def meshHeader (l : List Byte) : Bool := be l 0 1 / 64 = 2 || (be l 0 1 = 0x50 && l ≠ [])

/-! ### MAC frames -/

/-- Are the destination and the source PAN ID present, by frame version, addressing modes and PAN ID compression. -/
def panFields (ver dm sm : Nat) (comp : Bool) : Bool × Bool :=
  if ver = 2 then
    if dm = 0 ∧ sm = 0 then (comp, false)
    else if sm = 0 then (!comp, false)
    else if dm = 0 then (false, !comp)
    else if dm = 3 ∧ sm = 3 then (!comp, false)
    else (true, !comp)
  else (dm ≠ 0, sm ≠ 0 && !(comp && dm ≠ 0))

/-- The bytes of an address. -/
def addrLen (mode : Nat) : Nat := if mode = 2 then 2 else if mode = 3 then 8 else 0

/-- Header information elements: their bytes, and whether payload information elements follow. -/
def headerIes : Nat → List Byte → Option (Nat × Bool)
  | 0, _ => none
  | fuel + 1, l =>
    let d := leAt l 0 2
    if l = [] then some (0, false)
    else if l.length < 2 + d % 128 then none
    else if d / 128 = 0x7E then some (2 + d % 128, true)
    else if d / 128 = 0x7F then some (2 + d % 128, false)
    else (headerIes fuel (l.drop (2 + d % 128))).map (fun r => (r.1 + 2 + d % 128, r.2))

/-- A payload without its payload information elements. -/
def pastIes : Nat → List Byte → List Byte
  | 0, l => l
  | fuel + 1, l =>
    let d := leAt l 0 2
    if l.length < 2 then []
    else if d / 2048 % 16 = 15 then l.drop (2 + d % 2048)
    else pastIes fuel (l.drop (2 + d % 2048))

/-- A MAC frame taken apart: kind 0 data, 1 acknowledgement, 2 MAC command, 3 beacon; whether its version is 0b10; AR, sequence number, FCS;
addresses; security level, key index of mode 1, counter, the bytes authenticated, the payload with its MIC; whether the payload begins with
payload information elements. -/
structure MacFrame where
  kind : Nat
  version2 : Bool
  ar : Bool
  seq : Nat
  fcs : Nat
  dst : MacAddr
  dstPan : Nat
  src : MacAddr
  level : Nat
  key : Option Nat
  ctr : Nat
  header : List Byte
  body : List Byte
  pie : Bool
  deriving DecidableEq, Repr

/-- A PSDU taken apart; radio: on a radio port; fcsLen: the bytes of its FCS. None: outside the subset of R372 or R401. A beacon counts as sent to
every node of its PAN. -/
def parseMac (radio : Bool) (fcsLen : Nat) (l : List Byte) : Option MacFrame :=
  let n := l.length - fcsLen
  let fcf := leAt l 0 2
  let type := fcf % 8
  let ver := fcf / 4096 % 4
  let sec := fcf.testBit 3
  let dm := fcf / 1024 % 4
  let sm := fcf / 16384 % 4
  let (dp, sp) := panFields ver dm sm (fcf.testBit 6)
  let o1 := 3 + (if dp then 2 else 0)
  let o2 := o1 + addrLen dm
  let o3 := o2 + (if sp then 2 else 0)
  let o4 := o3 + addrLen sm
  let sc := be l o4 1
  let level := if sec then sc % 8 else 0
  let mode := if sec then sc / 8 % 4 else 0
  let o5 := o4 + (if sec then 5 + (if mode = 1 then 1 else 0) else 0)
  let ies := if ver = 2 && fcf.testBit 9 then headerIes 64 ((l.take n).drop o5) else some (0, false)
  let ack := type = 2
  let addr (mode o : Nat) : MacAddr := if mode = 2 then ⟨true, BitVec.ofNat 64 (leAt l o 2)⟩ else ⟨false, BitVec.ofNat 64 (leAt l o 8)⟩
  match ies with
  | none => none
  | some (il, pie) =>
    let o := o5 + il
    if l.length < 3 + fcsLen ∨ n < o ∨ !(ver = 1 ∨ (ver = 2 ∧ radio)) ∨ 3 < type ∨ dm = 1 ∨ sm = 1 ∨ (ver = 2 ∧ fcf.testBit 8) ∨
        (!radio ∧ (type = 0 ∨ ack)) ∨ (ack ∧ (sec ∨ il ≠ 0)) ∨ (!ack ∧ sm = 0) ∨ !(level = 0 ∨ 5 ≤ level) ∨ 1 < mode ∨
        (ver = 2 ∧ sec ∧ 32 ≤ sc % 128) then none
    else
      some { kind := if type = 0 then 3 else if type = 1 then 0 else if type = 2 then 1 else 2
             version2 := ver = 2, ar := fcf.testBit 5, seq := be l 2 1, fcs := leAt l n fcsLen
             dst := if type = 0 && dm = 0 then ⟨true, 0xFFFF⟩ else if dm = 0 then ⟨false, 0⟩ else addr dm o1
             dstPan := if dp then leAt l 3 2 else if sp then leAt l o2 2 else 0xFFFF
             src := addr sm o3, level := level, key := if mode = 1 then some (be l (o4 + 5) 1) else none
             ctr := if sec then leAt l (o4 + 1) 4 else 0
             header := l.take o, body := (l.take n).drop o, pie := pie }

end Sys2Proof.Machine
end

