-- ==== Sys2Proof/Machine/MacTx.lean ====
section
/-! DEFINITION. Sending on the field ports (R370, R383, R386 to R394, R402, R406, R409 to R412, R415, R416). -/

namespace Sys2Proof.Machine

/-! ### The mains grid and the beacon period (R400, R403 to R408) -/

/-- The mains period P in ns (R400): the mean of the last 16 intervals of the reference phase, the last one while every phase is lost. -/
def State.mainsPeriod (s : State) : Nat := s.plc.period

/-- Is a phase good (R400); n from 1. -/
def State.zcOk (s : State) (n : Nat) : Bool := s.bitAt (plcA rPLC_STAT) (n - 1)

/-- MAINS_FREE (R400). -/
def State.mainsFree (s : State) : Bool := s.bitAt (plcA rPLC_STAT) 3

/-- The last positive zero crossing on phase 1's grid: the reference phase's last edge, shifted back (R408). -/
def State.crossing1 (s : State) : Int :=
  (s.plc.base : Nat) - ((s.plc.ref - 1) * s.mainsPeriod / 3 : Nat)

/-- The next start of mains slot 0 after a time (R408). -/
def State.slot0 (s : State) (t : Nat) : Nat :=
  let p := max 1 s.mainsPeriod
  let base := s.crossing1 + signed 16 (s.fld (plcA rPLC_SLOT) 15 0) * 1000
  t + (p - (((t : Int) - base) % (p : Int)).toNat)

/-- The beacon period and the guard, in ns. -/
def State.bcnPeriod (s : State) : Nat := s.fld (plcA rPLC_BCN) 15 0 * 1000000
/-- GUARD_MS in ns. -/
def State.bcnGuard (s : State) : Nat := s.fld (plcA rPLC_BCN) 23 16 * 1000000

/-- The quiet windows that are enabled and lie within the guards (R405): start and length in ms. -/
def State.quiet (s : State) : List (Nat × Nat) :=
  ((List.range 4).filter (fun k => s.bitAt (plcA (rPLC_QUIET + 4 * k)) 31)).map (fun k =>
    (s.fld (plcA (rPLC_QUIET + 4 * k)) 13 0, s.fld (plcA (rPLC_QUIET + 4 * k)) 29 16))

/-- Does a quiet window of a beacon that is sent now fit between the guards (R405): before the next, which is due. -/
def State.quietFits (s : State) (w : Nat × Nat) : Bool :=
  s.bcnGuard ≤ w.1 * 1000000 && s.plc.sfd + (w.1 + w.2) * 1000000 + s.bcnGuard ≤ s.plc.due

/-- The start and the end of a quiet window that the last beacon listed, in ns (R403, R405). -/
def State.window (s : State) (w : Nat × Nat) : Nat × Nat := (s.plc.sfd + w.1 * 1000000, s.plc.sfd + (w.1 + w.2) * 1000000)

/-- The quiet window that a transmission of a length from now would meet, and that has not ended (R405, R406). -/
def State.windowMet (s : State) (len : Nat) : Option (Nat × Nat) :=
  (s.plc.windows.map s.window).find? (fun w => decide (w.1 < s.now + len ∧ s.now < w.2))

/-- May a transmission of a length run from now (R405, R406): it ends before the next beacon less the guard and before the next quiet window,
and none runs now. -/
def State.airFits (s : State) (len : Nat) : Bool :=
  decide (s.now + len + s.bcnGuard ≤ s.plc.due) && (s.windowMet len).isNone

/-- The longest free interval of the period (R406): the gaps that the beacon, guards and windows leave; the beacon's airtime is the last one's
(DEDUCED, log entry 24). -/
def State.longestFree (s : State) : Nat :=
  let l := (s.plc.windows.map (fun w => (w.1 * 1000000, (w.1 + w.2) * 1000000))).insertionSort (fun a b => a.1 ≤ b.1)
  let stop := s.bcnPeriod - s.bcnGuard
  let (best, at_) := l.foldl (fun (b : Nat × Nat) w => (max b.1 (w.1 - b.2), max b.2 w.2)) (0, s.plc.bcnAir + s.bcnGuard)
  max best (stop - at_)

/-! ### Channel access (R389) -/

/-- The PSDU limit of a port. -/
def State.mtu (s : State) (m : Nat) : Nat := s.fld (macA m rRAD_CFG rPH_CFG) 26 16

/-- A field of the CSMA word a frame started with (R389): its bits on the radio and on the power line. -/
def TxRun.csmaFld (r : TxRun) (m rh rl ph pl : Nat) : Nat := if isRadio m then nbits r.csma rh rl else nbits r.csma ph pl

/-- LBT_US of a frame. -/
def TxRun.listen (r : TxRun) : Nat := nbits r.time0 31 16

/-- A backoff of BE be begins at a time. -/
def State.backoffFrom (s : State) (base m : Nat) (r : TxRun) : State :=
  let unit := nbits r.time0 15 0
  let (w, s) := s.uniform 0 (2 ^ r.be - 1)
  s.setPort7 m { s.port7 m with run := some { r with st := 1, due := base + w * unit * 1000 } }

/-- A backoff begins with BE be. -/
def State.backoff (s : State) (m : Nat) (r : TxRun) : State := s.backoffFrom s.now m r

/-- A frame's channel access begins: NB = 0, BE = MIN_BE. -/
def State.access (s : State) (m : Nat) (r : TxRun) : State :=
  s.backoff m { r with nb := 0, be := r.csmaFld m 3 0 11 8 }

/-- Channel access waits for the end of the quiet window or the beacon that a transmission of a length would meet, and then starts afresh with
its backoff count kept (R406). -/
def State.waitFree (s : State) (m : Nat) (r : TxRun) (len : Nat) : State :=
  let r := { r with be := r.csmaFld m 3 0 11 8 }
  match s.windowMet len with
  | some w => s.backoffFrom w.2 m r
  | none => s.setPort7 m { s.port7 m with run := some { r with st := 5 } }

/-- The beacon has ended, or has been skipped: channel access that waited for it starts afresh (R406). -/
def State.beaconOver (s : State) (base : Nat) : State :=
  ([4, 5, 6] : List Nat).foldl (fun s m => match (s.port7 m).run with
    | some r => if r.st = 5 then s.backoffFrom base m r else s
    | none => s) s

/-- The front ends a transmission drives (R415): its coupling code, the destination's entry. -/
def State.maskOf (s : State) (m couple : Nat) (n : Option Neigh) : Nat :=
  let own := 2 ^ (m - 4)
  let c := if couple = 0 then s.fld (macA m 0 rPH_CFG) 1 0 else couple
  if isRadio m then 1
  else if c = 2 then 7
  else if c = 3 then
    match n with
    | some n => if n.txMask = 0 then own else n.txMask
    | none => own
  else own

/-- The front ends a message drives (R415). -/
def State.phaseMask (s : State) (m : Nat) (x : TxMsg) : Nat := s.maskOf m x.couple (((s.port7 m).find x.dst).map (·.2))

/-! ### The sample interface (R398, R399) -/

/-- A frame of the sample interface (R399): the sample in bits 31:16, sent from bit 31 down at 38.4 MHz. -/
def interfaceFrame (sample : BitVec 16) : BitVec 32 := sample ++ (0 : BitVec 16)

/-- TXEN of a phase, n from 1. -/
def State.txen (s : State) (n : Nat) : Bool :=
  let x := look (fun _ => (0, 0)) s.plc.txen n
  decide (x.1 ≤ s.now ∧ s.now < x.2)

/-- The front ends of a mask that PLC owns (R398). -/
def State.ends (s : State) (mask : Nat) : List Nat := ([1, 2, 3] : List Nat).filter (fun n => mask.testBit (n - 1) && s.ownsBalls (n + 3))

/-- A transmission of an airtime in us starts on the front ends of a mask (R399): TXEN rises now, 20 us before the first sample, and falls 20 us
after the last. -/
def State.drive (s : State) (mask air : Nat) : State :=
  (s.ends mask).foldl (fun s n =>
    let x := look (fun _ => (0, 0)) s.plc.txen n
    let on := (if s.txen n then x.1 else s.now, max (if s.txen n then x.2 else 0) (s.now + (air + 40) * 1000))
    { s with plc := { s.plc with txen := place n on (drop s.plc.txen n) } }) s

/-- The port of the wire a field port is, in the order of R228. -/
def wirePort (m : Nat) : Nat := 6 + m

/-- The PDC of a transmission that starts now (R401): none of the mains measured is 0 (DESIGN CHOICE, log entry 24). -/
def State.pdcNow (s : State) : Nat :=
  let t : Int := (s.tsuTime.sec * 1000000000 + s.tsuTime.ns + 20000 + Config.preambleTime : Nat)
  if s.mainsFree ∨ s.mainsPeriod = 0 then 0 else Config.pdcOf ((t - s.crossing1) % (s.mainsPeriod : Nat)).toNat s.mainsPeriod % 256

/-- A transmission sent on all front ends of its mask (R399, R403, R415), its bytes to an address. -/
def State.radiate (s : State) (b : Burst) (air : Nat) (dst : BitVec 128) : State :=
  let s := { s.drive b.mask air with plc := { (s.drive b.mask air).plc with bursts := s.plc.bursts ++ [b] } }
  (s.ends b.mask).foldl (fun s n => s.send (wirePort (n + 3)) dst (b.header ++ b.bytes)) s

/-- A transmission that G.9903 alone shapes (R401 to R403): form, front ends, DT, MAC bytes. -/
def State.burst (s : State) (form : PlcForm) (mask dt air : Nat) (l : List Byte) : Burst :=
  ⟨form, mask, dt, s.pdcNow, [], l, s.now + 20000, s.now + 20000 + air * 1000, [], []⟩

/-! ### Extended frames (R408 to R412) -/

/-- Does a message go as extended frames (R409, R411): EXT_EN, EXT_OK, EXT_SEEN, the mains measured, a slot to use. -/
def State.goesExtended (s : State) (m : Nat) (x : TxMsg) : Bool :=
  !isRadio m && !x.broadcast && s.bitAt (plcA rPLC_CFG) 2 && !s.mainsFree &&
  match (s.port7 m).find x.dst with
  | some (_, n) => n.flag && n.extSeen && n.rx.any (fun e => e % 8 ≠ 7)
  | none => false

/-- The bits a payload symbol carries under a slot entry (R412 to R414), in a band with so many carriers a subband: a ROBO bit lies on four. -/
def symbolBits (fcc : Bool) (e : Nat) : Nat :=
  let used := (List.range (if fcc then 24 else 6)).countP (fun b => e.testBit (3 + b)) * (if fcc then 3 else 6)
  if e % 8 = 7 then 0 else ([1, 4, 8, 12, 4, 8, 12] : List Nat).getD (e % 8) 0 * used / 4

/-- The payload symbols of an extended frame (R411), each with its start after the start of a slot 0 and its slot: entries, the map in use; p, the
mains period; len, a symbol's length in ns; t, where the next would start; need, the coded bits left. A symbol that would start in a SKIP slot starts
with the next slot that is not. -/
def symbolRun (fcc : Bool) (entries : List Nat) (p len : Nat) : Nat → Nat → Nat → List (Nat × Nat)
  | 0, _, _ => []
  | fuel + 1, t, need =>
    if need = 0 then []
    else
      let k := t * 6 / p
      let skip (j : Nat) : Bool := entries.getD ((k + j) % 6) 7 % 8 = 7
      let j := ((List.range 6).find? (fun j => !skip j)).getD 0
      let t := if j = 0 then t else ((k + j) * p + 5) / 6
      (t, (k + j) % 6) :: symbolRun fcc entries p len fuel (t + len) (need - symbolBits fcc (entries.getD ((k + j) % 6) 7))

/-- The interleaver's position of coded bit i of a block that carries n bits (R412). -/
def interleave (n i : Nat) : Nat :=
  let r := Nat.sqrt n + (if Nat.sqrt n * Nat.sqrt n = n then 0 else 1)
  let q := ((List.range (n + 2)).map (· + r)).find? (fun k => Nat.gcd k n = 1)
  (i * q.getD 1) % n

/-- The blocks of a payload (R412), each the coded bits in the order of their positions: sizes, the bits each block's symbols carry. The positions
beyond the last coded bit hold 0 (DESIGN CHOICE, log entry 24). -/
def interleaved : List Nat → List Bool → List (List Bool)
  | [], _ => []
  | n :: sizes, l =>
    ((List.range n).foldl (fun (b : List Bool) i => b.set (interleave n i) (l.getD i false)) (List.replicate n false)) :: interleaved sizes (l.drop n)

/-- An extended frame to a neighbour that starts now (R410 to R412), and its airtime in us: none where the message does not go as one, or needs more
symbols than NSYM tells (DESIGN CHOICE, log entry 24). The span of its interleaver is a free value of its range. -/
def State.extBurst (s : State) (m : Nat) (r : TxRun) : Option (Burst × Nat) × State :=
  match (s.port7 m).find r.msg.dst with
  | none => (none, s)
  | some (_, n) =>
    if !s.goesExtended m r.msg then (none, s)
    else
      let fcc := s.bitAt (plcA rPLC_CFG) 0
      let len := if fcc then 231670 else 695000
      let p := max 1 s.mainsPeriod
      let tsu := s.tsuTime.sec * 1000000000 + s.tsuTime.ns + 20000
      let pre := tsu + Config.preambleTime
      let first := pre + Config.headerTime
      let base := s.slot0 first - p
      let coded := Config.codedBits r.psdu
      let syms := symbolRun fcc n.rx p len 4096 (first - base) (max 1 coded.length)
      if 4095 < syms.length then (none, s)
      else
        let (w, s) := s.draw
        let span := 1 + w.toNat % (if fcc then 1079 else 359)
        let sizes := (List.range ((syms.length + span - 1) / span)).map (fun k =>
          (((syms.drop (k * span)).take span).map (fun x => symbolBits fcc (n.rx.getD x.2 7))).sum)
        let (t0, k0) := syms.headD (0, 0)
        let (t1, _) := syms.getLastD (0, 0)
        let zc := (((pre : Int) - s.crossing1) % (p : Int)).toNat / 1000
        let v := 2 ^ 60 + k0 * 2 ^ 57 + (t0 - t0 * 6 / p * p / 6) / 8000 % 512 * 2 ^ 48 + n.rxId % 16 * 2 ^ 44 + span * 2 ^ 33 +
          syms.length * 2 ^ 21 + zc % 2 ^ 16 * 2 ^ 5
        let b := toBe 8 v
        let air := (base + t1 + len - tsu + 999) / 1000
        (some (⟨.extended, r.mask, if r.msg.ack then 7 else 6, s.pdcNow, b ++ toBe 2 (fcs16 b), r.psdu, s.now + 20000, s.now + 20000 + air * 1000,
          syms.map (fun x => (base + x.1, x.2)), interleaved sizes coded⟩, air), s)

/-- A power-line frame that starts now, and its airtime in us (R401, R409): an extended one, or a standard one. -/
def State.frameBurst (s : State) (m : Nat) (r : TxRun) : (Burst × Nat) × State :=
  match s.extBurst m r with
  | (some x, s) => (x, s)
  | (none, s) =>
    let air := Config.airtime 0 r.psdu
    ((s.burst .standard r.mask r.msg.ack.toNat air r.psdu, air), s)

/-- Is the port's frame too long for the period (R406). -/
def State.tooLong (s : State) (m : Nat) (r : TxRun) : Bool :=
  !isRadio m && r.st ≠ 0 && decide (s.longestFree < (s.frameBurst m r).1.2 * 1000)

/-- The current part built into a frame (R378, R381, R387): it takes a sequence number, and a counter where it is secured; it waits while
no counter may be used. -/
def State.buildPart (s : State) (m : Nat) (r : TxRun) : State :=
  let x := r.msg
  let p := s.port7 m
  if x.level ≠ 0 ∧ !s.txctrReady m then s.setPort7 m { p with run := some { r with st := 0 } }
  else
    let (key, s) := if x.level = 0 then (some [], s) else s.macKey m x.key
    let (c, s) := if x.level = 0 then (0, s) else s.takeCtr m
    let (l, f) := s.macFrame m x (key.getD []) r.pending p.seq c (r.parts.headD [])
    let s := s.setPort7 m { s.port7 m with seq := (p.seq + 1) % 256 }
    s.access m { r with psdu := l, seq := p.seq, fcs := f, again := 0, csma := (s.rd (sharedA m rRAD_CSMA rPLC_CSMA)).toNat
                        time0 := (s.rd (sharedA m rRAD_TIME0 rPLC_TIME0)).toNat }

/-- The bytes a frame has beside its payload. -/
def State.overhead (s : State) (m : Nat) (x : TxMsg) : Nat :=
  (s.macHeader m 1 x false 0 0).length + (if x.level = 0 then 0 else micLen x.level) + (s.macFcs m []).1

/-- A payload cut into FRAGN pieces (RFC 4944): each a multiple of 8 bytes but the last. -/
def fragN (size tag room : Nat) : Nat → Nat → List Byte → List (List Byte)
  | 0, _, _ => []
  | fuel + 1, off, l =>
    if l = [] then []
    else
      let n := if l.length ≤ room then l.length else room / 8 * 8
      (toBe 2 (0xE000 + size) ++ toBe 2 tag ++ toBe 1 (off / 8) ++ l.take n) :: fragN size tag room fuel (off + n) (l.drop n)

/-- A message's frames (R387): one, or fragments under RFC 4944; offsets count the headers as they were before compression. -/
def State.cut (s : State) (m : Nat) (x : TxMsg) : List (List Byte) × State :=
  let room := s.mtu m - s.overhead m x
  if x.payload.length ≤ room then ([x.payload], s)
  else
    let p := s.port7 m
    let (sent, full) := ((lowpanHead x.payload).map (fun h => (h.sent, h.full))).getD (0, 0)
    let size := x.payload.length + full - sent
    let first := (room - 4 + full - sent) / 8 * 8 + sent - full
    let tag := p.dtag
    let s := s.setPort7 m { p with dtag := (p.dtag + 1) % 65536 }
    ((toBe 2 (0xC000 + size) ++ toBe 2 tag ++ x.payload.take first) ::
      fragN size tag (room - 5) 256 (first + full - sent) (x.payload.drop first), s)

/-- The status a message ends with before its next frame is built (R382, R387): its counter is used up, its key is not usable. -/
def State.barred (s : State) (m : Nat) (x : TxMsg) : Option Nat × State :=
  if x.level = 0 then (none, s)
  else if s.exhausted m then (some 7, s)
  else
    let (k, s) := s.macKey m x.key
    (if k.isNone then some 6 else none, s)

/-- A message read from a queue memory (R397, R421): what its check finds, 2 uncorrectable; an armed one acts on the power line's only. -/
def State.queueRead (s : State) (m : Nat) (x : TxMsg) : Nat × State :=
  let (c, s) := if isRadio m then (0, s) else s.inject .plc 0 0 1
  let c := if x.bad then 2 else c
  (c, if c = 0 then s else s.cause (ctrPage m).1 (ctrPage m).2 (c - 1))

/-- Do two addresses name one neighbour. -/
def Mac.same (x : Mac) (a b : MacAddr) : Bool := a = b || ((x.find a).isSome && (x.find a).map (·.1) == (x.find b).map (·.1))

/-- The next message taken in the order of R388: answers to data requests, then direct messages; one that can go no further ends (R382, R387, R397,
R406, R421), and the next is taken. -/
def State.takeNext : Nat → State → Nat → State
  | 0, s, _ => s
  | fuel + 1, s, m =>
    let p := s.port7 m
    let next : Option (TxMsg × Bool × Mac) := match p.answers, p.direct with
      | x :: rest, _ => some (x, p.held.any (fun h => p.same h.dst x.dst), { p with answers := rest })
      | [], x :: rest => some (x, false, { p with direct := rest })
      | [], [] => none
    match next with
    | none => s
    | some (x, pending, p) =>
      let (c, s) := (s.setPort7 m p).queueRead m x
      if c = 2 then takeNext fuel (s.endMsg m x 8 0 0) m
      else match s.barred m x with
        | (some st, s) => takeNext fuel (s.endMsg m x st 0 0) m
        | (none, s) =>
          let (parts, s) := s.cut m x
          let s := s.buildPart m ⟨x, parts, [], 0, 0, 0, 0, 0, 0, 0, 0, false, s.phaseMask m x, pending, 0, 0⟩
          match (s.port7 m).run with
          | some r => if s.tooLong m r then takeNext fuel ((s.setPort7 m { s.port7 m with run := none }).endMsg m x 2 0 0) m else s
          | none => s

/-- Does the power line's start-up period hold a port's frames back (R407). -/
def State.startingUp (s : State) (m : Nat) : Bool := !isRadio m && s.bitAt (plcA rPLC_STAT) 4

/-- A free port takes its next message. During the power line's start-up it takes none. -/
def State.nextRun (s : State) (m : Nat) : State :=
  let p := s.port7 m
  if p.run.isSome || !s.macOn m || s.startingUp m then s
  else State.takeNext (p.answers.length + p.direct.length) s m

/-- Extended frames of a neighbour: two messages in a row that end NO_ACK clear EXT_SEEN (R409). -/
def State.extOutcome (s : State) (m : Nat) (r : TxRun) (noAck : Bool) : State :=
  if !r.extended then s
  else match (s.port7 m).find r.msg.dst with
    | none => s
    | some (i, n) =>
      if !noAck then s.setNb m i { n with noAcks := 0 }
      else if 1 ≤ n.noAcks then (s.setNb m i { n with noAcks := 0, extSeen := false }).macCount m 19
      else s.setNb m i { n with noAcks := 1 }

/-- The message a port is sending ends; the next one begins. -/
def State.endTx (s : State) (m : Nat) (r : TxRun) (status lqi : Nat) : State :=
  let s := (s.extOutcome m r (status = 1)).endMsg m r.msg status r.tries lqi
  (s.setPort7 m { s.port7 m with run := none }).nextRun m

/-- The current part of a message built, where it is not to end first (R382, R387, R406); lqi: of the last acknowledgement. -/
def State.goOn (s : State) (m : Nat) (r : TxRun) (lqi : Nat) : State :=
  match s.barred m r.msg with
  | (some st, s) => s.endTx m r st lqi
  | (none, s) =>
    let s := s.buildPart m r
    match (s.port7 m).run with
    | some r => if s.tooLong m r then s.endTx m r 2 lqi else s
    | none => s

/-- A frame has been delivered: the next part, or SENT (R387). -/
def State.partDone (s : State) (m : Nat) (r : TxRun) (lqi : Nat) : State :=
  match r.parts.drop 1 with
  | [] => s.endTx m r 0 lqi
  | rest => s.goOn m { r with parts := rest } lqi

/-- A transceiver reset (R368, R370): RST_N is low for a time the spec does not give, a free value; the port sets the transceiver up again; a
transmission in progress ends. -/
def State.xcvrReset (s : State) (n : Nat) : State :=
  let (w, s) := s.draw
  let s := s.setPort7 n { s.port7 n with acking := none, rstAt := s.now + bits w 19 0 }
  let s := ((s.cause .radio n 2).xcvrUp n false).radioSetup n
  match (s.port7 n).run with
  | some r => if r.st = 2 ∨ r.st = 3 then s.endTx n r 10 0 else s
  | none => s

/-- BACKOFF_EXPIRY (R389): the wait ends and the channel is assessed, once no acknowledgement is being sent (R388); on the power line not in its
start-up period (R407), and a quiet window or the beacon is waited for (R405, R406). -/
def execBackoffExpiry (m : Fin 7) (t : Nat) (s : State) : Res :=
  let s := s.at t
  let m := m.val
  .next (match (s.port7 m).run with
    | none => s
    | some r =>
      if r.st ≠ 1 || decide (s.now < r.due) || !s.macOn m || s.fenced || s.acking m || s.startingUp m then s
      else
        let lbt := r.listen
        if !isRadio m && !s.airFits (lbt * 1000) then s.waitFree m r (lbt * 1000)
        else
          let s := if isRadio m then s.spiSend m 0x12 (toBe 2 lbt) 1 else s
          s.setPort7 m { s.port7 m with run := some { r with st := 2, due := s.now + lbt * 1000 + 1000000 } })

/-- Acknowledgements that have fallen due, the oldest first. -/
def Mac.dueAcks (x : Mac) (now : Nat) : List Owed := x.owed.filter (fun a => a.due ≤ now)

/-- An acknowledgement frame (R372, R402): Imm-Ack of version 0b01, Enh-Ack of version 0b10 with the PAN ID and the sender's extended address, or
on the power line the FCS it carries. -/
def State.ackFrame (s : State) (m : Nat) (a : Owed) : List Byte :=
  if !isRadio m then toLe 2 a.fcs
  else
    let fcf := 2 + a.pending.toNat * 16 + (if a.enhanced then 2 * 4096 + 3 * 1024 else 4096)
    let l := toLe 2 fcf ++ toLe 1 a.seq ++ (if a.enhanced then toLe 2 (s.panId m) ++ toLe 8 a.ext else [])
    let (k, f) := s.macFcs m l
    l ++ toLe k f

/-- A radio frame put on the air (R369). -/
def State.onAir (s : State) (m : Nat) (dst : BitVec 128) (l : List Byte) : State :=
  ((s.send (wirePort m) dst l).spiSend m 0x10 (toBe 1 (s.bitAt (pa .radio m rRAD_CFG) 8).toNat ++ l) 0).spiSend m 0x11 [] 0

/-- Are front ends of a mask in use by another phase's frame, by an acknowledgement or by a beacon (R416). -/
def State.frontBusy (s : State) (m mask : Nat) : Bool :=
  ([4, 5, 6] : List Nat).any (fun k => (mask.testBit (k - 4) && s.txen (k - 3)) ||
    (k ≠ m && (s.port7 k).run.any (fun r => r.st = 3 && r.mask &&& mask ≠ 0)))

/-- The front ends of an acknowledgement (R415). -/
def State.ackMask (s : State) (m : Nat) (a : Owed) : Nat := s.maskOf m 0 (some ((s.port7 m).nb a.nb))

/-- An acknowledgement sent (R379, R383): the neighbour's NEXT_CTR becomes the counter plus one. On the power line it waits for its front ends
(R416). While fenced none is sent (R392). -/
def State.sendAck (s : State) (m : Nat) (a : Owed) : State :=
  if !isRadio m && s.frontBusy m (s.ackMask m a) then s
  else
    let s := s.setPort7 m { s.port7 m with owed := (s.port7 m).owed.erase a }
    if s.fenced then s
    else
      let n := (s.port7 m).nb a.nb
      let l := s.ackFrame m a
      let air := Config.airtime 1 l
      let s := if isRadio m then s.onAir m (BitVec.ofNat 128 a.ext) l
        else s.radiate (s.burst .ackOnly (s.ackMask m a) 2 air l) air (BitVec.ofNat 128 a.ext)
      let s := s.setPort7 m { s.port7 m with acking := some (s.now + (if isRadio m then 100000000 else (air + 40) * 1000)) }
      match a.ctr with
      | none => s
      | some c => s.setNb m a.nb { n with next := c + 1, acked := some a.seq, dirty := true }

/-- MAC_ACK_SEND (R383, R388): the oldest acknowledgement that has fallen due is sent without CSMA, once no CCA runs and nothing is being sent. -/
def execMacAckSend (m : Fin 7) (t : Nat) (s : State) : Res :=
  let s := s.at t
  let p := s.port7 m.val
  .next (if !s.macOn m.val || s.acking m.val || p.run.any (fun r => r.st = 2 || r.st = 3) then s
    else match p.dueAcks s.now with
      | [] => s
      | a :: _ => s.sendAck m.val a)

/-- The address a message's frames go to, as the wire takes it. -/
def TxMsg.wireDst (x : TxMsg) : BitVec 128 := BitVec.ofNat 128 (if x.useExt then x.ext else x.short * 2 ^ 64)

/-- A frame whose channel test passed is under way (R389, R390). -/
def State.sendingNow (s : State) (m : Nat) (r : TxRun) : State :=
  s.setPort7 m { s.port7 m with run := some { r with st := 3, tries := r.tries + 1, due := s.now + 100000000 } }

/-- The radio frame whose channel test passed is sent (R389). -/
def State.transmit (s : State) (m : Nat) (r : TxRun) : State := (s.onAir m r.msg.wireDst r.psdu).sendingNow m r

/-- The power-line frame whose channel test passed takes every front end of its mask (R409, R415, R416). -/
def State.transmitPlc (s : State) (m : Nat) (r : TxRun) (b : Burst) (air : Nat) : State :=
  let s := if b.form = .extended then s.macCount m 18 else s
  (s.radiate b air r.msg.wireDst).sendingNow m { r with extended := b.form = .extended }

/-- A busy test (R389): NB advances, and the message ends CHANNEL_BUSY above MAX_BACKOFFS. -/
def State.busyTest (s : State) (m : Nat) (r : TxRun) : State :=
  let most := r.csmaFld m 11 8 7 0
  let hi := r.csmaFld m 7 4 15 12
  if most < r.nb + 1 then s.endTx m r 2 0
  else s.backoff m { r with nb := r.nb + 1, be := min (r.be + 1) hi }

/-- Does the frame of a lower phase number take a common front end in the same cycle of FIELD's 100 MHz (R416): its channel test, which waits behind
this one, passes. -/
def State.outranked (s : State) (m : Nat) (r : TxRun) : Bool :=
  s.pending.any (fun c => match c with
    | .ccaResult k _ busy t =>
      !isRadio k.val && decide (k.val < m) && !busy && decide (t / 10 = s.now / 10) && s.macOn k.val &&
      (s.port7 k.val).run.any (fun x => x.st = 2 && x.mask &&& r.mask ≠ 0 && !s.frontBusy k.val x.mask && ((s.port7 k.val).dueAcks s.now).isEmpty &&
        s.airFits ((s.frameBurst k.val x).1.2 * 1000 + (if x.msg.ack ∧ !x.msg.broadcast then s.fld (plcA rPLC_TIME1) 31 16 * 1000 else 0)))
    | _ => false)

/-- A power-line frame's channel test (R402, R406, R416): busy counts a busy test; where the frame does not fit before the next beacon or quiet
window, it waits for the end of that. -/
def State.plcTest (s : State) (m : Nat) (r : TxRun) (busy : Bool) : State :=
  let s := match (s.port7 m).find r.msg.dst with
    | some (i, _) => s.slotRead m i
    | none => s
  let ((b, air), s) := s.frameBurst m r
  let len := air * 1000 + (if r.msg.ack ∧ !r.msg.broadcast then s.fld (plcA rPLC_TIME1) 31 16 * 1000 else 0)
  if s.longestFree < air * 1000 then s.endTx m r 2 0
  else if busy || s.frontBusy m r.mask || s.outranked m r then s.busyTest m r
  else if !s.airFits len then s.waitFree m r len
  else s.transmitPlc m r b air

/-- CCA_RESULT (R389, R406, R416): energy, the answer of the transceiver; busy: a preamble or reception on a front end of the mask. An
acknowledgement that fell due is sent first, and then the test is made again (R388). In the power line's start-up period none is sent (R407). -/
def execCcaResult (m : Fin 7) (energy : BitVec 8) (busy : Bool) (t : Nat) (s : State) : Res :=
  let s := s.at t
  let m := m.val
  .next (match (s.port7 m).run with
    | none => s
    | some r =>
      if r.st ≠ 2 || !s.macOn m then s
      else if s.fenced || s.startingUp m then s.setPort7 m { s.port7 m with run := some { r with st := 1 } }
      else match (s.port7 m).dueAcks s.now with
        | a :: _ =>
          let s := s.sendAck m a
          s.setPort7 m { s.port7 m with run := some { r with st := 1, due := s.now } }
        | [] =>
          if isRadio m then
            if energy ≠ 0x80 ∧ signed 8 energy.toNat < signed 8 (nbits r.csma 23 16) then s.transmit m r
            else s.busyTest m r
          else s.plcTest m r busy)

/-- A channel change that waited for the end of a frame (R395). -/
def State.chanSet (s : State) (m : Nat) : State :=
  if (s.port7 m).chanDue then
    (s.setPort7 m { s.port7 m with chanDue := false }).spiSend m 0x31 (toBe 2 (s.fld (pa .radio m rRAD_CHAN) 15 0)) 0
  else s

/-- TX_DONE (R390): the wait for the acknowledgement starts; a frame without one is done, and so is an acknowledgement that was being sent (R388). -/
def execTxDone (m : Fin 7) (t : Nat) (s : State) : Res :=
  let s := s.at t
  let m := m.val
  .next (if isRadio m && s.acking m then (s.setPort7 m { s.port7 m with acking := none }).chanSet m
    else match (s.port7 m).run with
    | none => s
    | some r =>
      if r.st ≠ 3 then s
      else
      let s := s.chanSet m
      if r.msg.ack ∧ !r.msg.broadcast then
        let wait := s.macFld m rRAD_TIME1 31 16 rPLC_TIME1 31 16
        s.setPort7 m { s.port7 m with run := some { r with st := 4, due := s.now + wait * 1000 } }
      else s.partDone m r 0)

/-- ACK_WAIT_TIMEOUT (R390): the same frame is sent again, or the message ends NO_ACK. -/
def execAckWaitTimeout (m : Fin 7) (t : Nat) (s : State) : Res :=
  let s := s.at t
  let m := m.val
  .next (match (s.port7 m).run with
    | none => s
    | some r =>
      if r.st ≠ 4 ∨ s.now < r.due then s
      else if r.again < r.csmaFld m 15 12 19 16 then s.access m { r with again := r.again + 1 }
      else s.endTx m r 1 0)

/-- TX_DONE_TIMEOUT (R370): no TX_DONE within 100 ms of TX_START, of a frame or an acknowledgement. -/
def execTxDoneTimeout (n : Fin 4) (t : Nat) (s : State) : Res :=
  let s := s.at t
  .next (if (s.port7 n.val).acking.any (fun e => decide (e ≤ s.now)) || (s.port7 n.val).run.any (fun r => r.st = 3 && decide (r.due ≤ s.now)) then s.xcvrReset n.val else s)

/-- CCA_TIMEOUT (R370): no CCA_DONE within LBT_US + 1 ms. -/
def execCcaTimeout (n : Fin 4) (t : Nat) (s : State) : Res :=
  let s := s.at t
  .next (if (s.port7 n.val).run.any (fun r => r.st = 2 && decide (r.due ≤ s.now)) then s.xcvrReset n.val else s)

/-- TRANSCEIVER_IRQ (R370): STATUS is sent; its cause byte. An ERROR, or no cause while IRQ_N stays low, resets the transceiver; the other
causes are served by the commands that name them. -/
def execTransceiverIrq (n : Fin 4) (cause : BitVec 8) (low : Bool) (s : State) : Res :=
  let n := n.val
  .next (if !s.macOn n then s
    else
      let s := (s.spiSend n 0x30 [] 1).xcvrUp n true
      if bit cause 7 || (cause = 0 && low) then s.xcvrReset n else s)

/-- TIME_STROBE (R371, R437): the TSU captures a strobe in 32 bits of ns: of the frame or acknowledgement being sent, or for the next frame fetched, the later of two. -/
def execTimeStrobe (n : Fin 4) (t : Nat) (s : State) : Res :=
  let s := s.at t
  let p := s.port7 n.val
  let c := (s.tsuTime.sec * 1000000000 + s.tsuTime.ns) % 2 ^ 32
  .next (if !s.macOn n.val || !s.netOn then s
    else if s.acking n.val || p.run.any (fun r => r.st = 3) then s.setPort7 n.val { p with strobeTx := c }
    else s.setPort7 n.val { p with strobe := some (c, s.fld (pa .tsu 0 rTSU_STEP_CNT) 3 0) })

/-! ### Enable and reservation (R368, R381, R389) -/

/-- A write of BLK_CTRL.EN of a RADIO page (R368, R381, R389, R395). -/
def State.radioEnable (s : State) (q : Requester) (n : Nat) (v : Word32) : State :=
  let a := pa .radio n 0x00C
  s.guarded q a v (bit v 0 && s.rd64 (pa .radio n rRAD_EXT) = 0) fun s =>
    if s.bitAt a 0 = bit v 0 then s
    else
      let s := s.putBit a 0 (bit v 0)
      if bit v 0 then (((s.setPort7 n { s.port7 n with rstAt := s.now }).txctrStart n).radioSetup n).reseed
      else (s.setPort7 n { s.port7 n with acking := none }).xcvrUp n false

/-- RADIO_ENABLE (R368). -/
def execRadioEnable (q : Requester) (n : Fin 4) (s : State) : Res := .next (s.radioEnable q n.val 1)

/-- A port's new limit in force (R381): a message that waits for a counter goes on, or ends where it may no longer be sent (R382, R387). -/
def State.txresUse (s : State) (m r : Nat) : State :=
  let s := s.wr (sharedA m rRAD_TXRES rPLC_TXRES) (BitVec.ofNat 32 r)
  (if isRadio m then [m] else [4, 5, 6]).foldl (fun s k => match (s.port7 k).run with
    | some x => if x.st = 0 then s.goOn k x 0 else s
    | none => s) s

/-- A write of RAD_TXCTR_RST or PLC_TXCTR_RST (R382): a message that waits for a counter goes on. -/
def State.txctrRst (s : State) (q : Requester) (m : Nat) (v : Word32) : State :=
  let p := s.port7 (ctrPort m)
  let stale := (List.range 4).any (fun k => s.bitAt (keySlotA m k) 31 && !p.written.testBit k)
  s.guarded q (sharedA m rRAD_TXCTR_RST rPLC_TXCTR_RST) v (bit v 31 && stale) fun s =>
    if !bit v 31 then s
    else
      let s := s.wr (sharedA m rRAD_TXCTR rPLC_TXCTR) 0
      let s := s.framPut 3 (resAt m) (toLe 4 4096 ++ toLe 4 (2 ^ 32 - 1 - 4096))
      let s := s.framPut 3 (resAt m + 8) (toLe 4 4096 ++ toLe 4 (2 ^ 32 - 1 - 4096))
      (s.setPort7 (ctrPort m) { s.port7 (ctrPort m) with written := 0 }).txresUse m 4096

/-- TXCTR_RESET (R382). -/
def execTxctrReset (q : Requester) (m : Fin 7) (s : State) : Res := .next (s.txctrRst q m.val 0x80000000)

/-- TXCTR_RESERVE (R381): the next block written when the counter is within 1,024 of the limit; fails: the read-backs that failed. In pair
operation the limit is used once the standby has stored it, and without a standby none is taken (R581). -/
def execTxctrReserve (m : Fin 7) (fails : Fin 3) (s : State) : Res :=
  let m := m.val
  .next (if !s.macOn m || !s.domOn 1 || decide (s.txctr m + 1024 < s.txres m) || (s.port7 (ctrPort m)).halted || s.limitBars (min m 4) then s
    else if fails.val = 2 then
      (s.framFail m).setPort7 (ctrPort m) { s.port7 (ctrPort m) with halted := true }
    else
      let r := min (2 ^ 32 - 1) (s.txres m + 4096)
      let s := s.reserve (resAt m) r
      if s.pairEn then s.limitSend (min m 4) r else s.txresUse m r)

/-- MAC_RESEED (R389): the channel-access generator of a port, every 10 s. -/
def execMacReseed (m : Fin 7) (s : State) : Res := .next (if s.macOn m.val then s.reseed else s)

/-! ### Messages from lays (R386 to R388, R392, R393) -/

/-- A transmit descriptor read (R386): the message but for its payload, its payload length, INDIRECT; none where a field is out of range. -/
def txDescriptor (radio : Bool) (n : Nat) (c : Cell512) (now : Nat) : Option (TxMsg × Nat × Bool) :=
  let w (i : Nat) := (cellWord c i).toNat
  let level := nbits (w 2) 38 36
  let top := if radio then 42 else 46
  let couple := if radio then 0 else nbits (w 2) 45 44
  let x : TxMsg := ⟨some n, cellChan c, cellAux c, w 1, nbits (w 2) 15 0, nbits (w 2) 31 16, (w 2).testBit 32, (w 2).testBit 33, level,
    nbits (w 2) 41 40, couple, [], false, now, false⟩
  let x := { x with ack := x.ack && !x.broadcast }
  if !cellFirst c ∨ cellLast c ∨ cellLen c ≠ 56 ∨ 2 ^ top ≤ w 2 ∨ (w 2).testBit 35 ∨ (w 2).testBit 39 ∨ (!radio ∧ nbits (w 2) 43 42 ≠ 0) ∨
      !(level = 0 ∨ 5 ≤ level ∧ level ≤ 7) ∨ w 3 = 0 ∨ 1280 < w 3 ∨ w 4 ≠ 0 ∨ w 5 ≠ 0 ∨ w 6 ≠ 0 ∨ w 7 ≠ 0 ∨
      (!radio ∧ (w 2).testBit 34) then none
  else some (x, w 3, (w 2).testBit 34)

/-- The port a CHAN names, of the port's kind. -/
def txPort (radio : Bool) (chan : Nat) : Option Nat :=
  if radio then (if 0xF000 ≤ chan ∧ chan ≤ 0xF003 then some (chan - 0xF000) else none)
  else if 0xF101 ≤ chan ∧ chan ≤ 0xF103 then some (chan - 0xF101 + 4) else none

/-- A status for a message that never became one (R386): CHAN and AUX of its first cell. -/
def State.refuseMsg (s : State) (m n : Nat) (c : Cell512) (status : Nat) : State :=
  s.endMsg m ⟨some n, cellChan c, cellAux c, 0, 0, 0, false, false, 0, 0, 0, [], false, 0, false⟩ status 0 0

/-- A whole message taken by its port (R386 to R388, R392, R393). -/
def State.txTake (s : State) (m n : Nat) (l : List Cell512) : State :=
  match l with
  | [] => s
  | c :: rest =>
    if s.fenced then s.refuseMsg m n c 11
    else match txDescriptor (isRadio m) n c s.now with
      | none => s.refuseMsg m n c 8
      | some (x, len, indirect) =>
        let data := rest.flatMap (fun c => cellBytes c (min 56 (cellLen c)))
        if l.any cellTaint ∨ data.length ≠ len then s.refuseMsg m n c 8
        else
          let x := { x with payload := data }
          let e := (s.port7 m).find x.dst
          if !x.broadcast ∧ e.isNone then s.endMsg m x 5 0 0
          else
            let s := if x.broadcast then s else s.nbRead m ((e.map (·.1)).getD 0)
            let (key, s) := if x.level = 0 then (some [], s) else s.macKey m x.key
            if key.isNone then s.endMsg m x 6 0 0
            else if x.level ≠ 0 ∧ s.exhausted m then s.endMsg m x 7 0 0
            else
              let p := s.port7 m
              if indirect then
                if p.held.length = 64 then s.endMsg m x 4 0 0 else s.setPort7 m { p with held := p.held ++ [x] }
              else (s.setPort7 m { p with direct := p.direct ++ [x] }).nextRun m

/-- The direct messages a port holds. -/
def Mac.held16 (x : Mac) : Nat := x.direct.length + x.answers.length + x.run.isSome.toNat

/-- The CHAN of the message at the head of a splice, or of the one a block has begun. -/
def State.headChan (s : State) (n : Nat) : Option Nat :=
  match s.begun n, s.peekCell n 0 with
  | c :: _, _ => some (cellChan c)
  | [], c => c.map cellChan

/-- TRANSMIT_MESSAGE (R386): the MAC pops a transmit message from a splice of its block end; none while 16 are held or 64 status cells wait.
An acknowledgement cell of its kind is left to ACK_CELL_CONSUMED. A message for no port ends MALFORMED, its status cell with the first port's
(DESIGN CHOICE, log entry 23). -/
def execTransmitMessage (n : BitVec 13) (t : Nat) (s : State) : Res :=
  let s := s.at t
  let n := n.toNat
  let code := s.fld (descA n 1) 12 8
  let radio := code = 4
  .next (if !(code = 4 ∨ code = 5) ∨ !s.domOn 12 then s
    else match s.headChan n with
      | none => s
      | some chan =>
        let acks := if radio then decide (4080 ≤ chan ∧ chan ≤ 4083) else decide (4084 ≤ chan ∧ chan ≤ 4086)
        let port := txPort radio chan
        let m := port.getD (if radio then 0 else 4)
        if acks && (s.begun n).isEmpty then s
        else if (port.isSome && (!s.macOn m || decide (16 ≤ (s.port7 m).held16))) || decide (64 ≤ (s.port7 m).status.length) then s
        else
          let (gone, l, s) := s.takeMessage code n 64
          match gone, l with
          | c :: _, _ => s.refuseMsg m n c 9
          | [], c :: _ => if port.isNone then s.refuseMsg m n c 8 else s.txTake m n l
          | [], [] => s)

/-- INDIRECT_EXPIRY (R393): held messages that reach IND_TTL end EXPIRED. -/
def execIndirectExpiry (n : Fin 4) (t : Nat) (s : State) : Res :=
  let s := s.at t
  let n := n.val
  let ttl := s.fld (pa .radio n rRAD_TIME2) 7 0 * 1000000000
  let p := s.port7 n
  let old (x : TxMsg) : Bool := x.since + ttl ≤ s.now
  .next (if !s.domOn 12 then s
    else (p.held.filter old).foldl (fun s x => s.endMsg n x 3 0 0)
      (s.setPort7 n { p with held := p.held.filter (fun x => !old x) }))

end Sys2Proof.Machine
end

