-- ==== Sys2Proof/Machine/MacRx.lean ====
section
/-! DEFINITION. Receiving on the field ports (R371 to R379, R383 to R385, R390, R394, R397, R402, R410, R413, R414, R417 to R420). -/

namespace Sys2Proof.Machine

/-! ### Phase labels (R418 to R420) -/

/-- The candidate label and the deviation in 2^-16 degree of a sender's zero crossing (R418); none where no angle is formed. -/
def State.angle (s : State) (crossing : Option Nat) : Option (Nat × Nat) :=
  let p : Int := (s.mainsPeriod : Nat)
  match crossing with
  | none => none
  | some z =>
    if s.mainsFree ∨ p = 0 then none
    else
      let a := (((z : Int) - s.crossing1) % p * 3600 - signed 16 (s.fld (plcA rPLC_SLOT) 31 16) * p) % (3600 * p)
      let k := (a + 300 * p) / (600 * p) % 6
      let d := (a - 600 * p * k + 1800 * p) % (3600 * p) - 1800 * p
      some (([1, 7, 2, 5, 3, 6] : List Nat).getD k.toNat 0, d.natAbs * 65536 / (10 * p).toNat)

/-- LABEL, RUN and DEV_AVG after an angled frame (R419). -/
def relabel (label run dev cand d : Nat) : Nat × Nat × Nat :=
  let dev := (7 * dev + d) / 8
  if cand = label then (label, min 255 (run + 1), dev)
  else if run ≤ 1 then (cand, 1, dev)
  else (label, run - 1, dev)

/-- A neighbour's label brought up to date by a frame (R419): a change of the confident label is an interrupt. -/
def State.labelNb (s : State) (m i : Nat) (crossing : Option Nat) : State :=
  match s.angle crossing with
  | none => s
  | some (cand, d) =>
    let n := (s.port7 m).nb i
    let (l, r, v) := relabel n.label n.run n.dev cand d
    let was := s.confident n.run n.dev && n.label ≠ 0
    let is := s.confident r v
    let s := s.setNb m i { n with label := l, run := r, dev := v }
    if was ≠ is ∨ (is ∧ l ≠ n.label) then s.irq (macPg m) (macInst m) 1 else s

/-- A stranger's label brought up to date. -/
def State.labelStranger (s : State) (m : Nat) (a : MacAddr) (crossing : Option Nat) : State :=
  match s.angle crossing with
  | none => s
  | some (cand, d) =>
    let p := s.port7 m
    s.setPort7 m { p with strangers := p.strangers.map (fun e =>
      if e.2.short = a.short ∧ e.2.addr = a.addr.toNat then
        let (l, r, v) := relabel e.2.label e.2.run e.2.dev cand d
        (e.1, { e.2 with label := l, run := r, dev := v })
      else e) }

/-! ### Extended frames (R410, R413, R414) -/

/-- Is an extension header good: its CRC, and its fields in range. -/
def State.extGood (s : State) (h : BitVec 80) : Bool :=
  let most := if s.bitAt (plcA rPLC_CFG) 0 then 1079 else 359
  fcs16 (toBe 8 (bits h 79 16)) = bits h 15 0 && bits h 79 76 = 1 && bits h 75 73 ≤ 5 && 1 ≤ bits h 59 49 && bits h 59 49 ≤ most &&
    1 ≤ bits h 48 37 && bits h 20 16 = 0

/-- The SNRs of a frame added to the last 8 of each slot it had symbols in. -/
def nbMeasure (n : Neigh) (snr : List (Fin 6 × List Int)) : Neigh :=
  { n with snr := snr.foldl (fun l e => Machine.store (fun _ => []) l e.1.val ((e.2 :: look (fun _ => []) l e.1.val).take 8)) n.snr }

/-- A SLOT_TMR received (R413): the map to use toward the peer; none where it is malformed, as where it names a subband that the band does not have
(DEDUCED, log entry 24). -/
def nbTakeMap (fcc : Bool) (n : Neigh) (l : List Byte) : Option Neigh :=
  let b := be l 1 1
  let e (k : Nat) := be l (2 + 4 * k) 4
  if l.length ≠ 26 ∨ 64 ≤ b ∨ (List.range 6).any (fun k => (if fcc then 2 ^ 27 else 2 ^ 9) ≤ e k) then none
  else some { n with
    rxId := b % 16, coherent := b.testBit 4, rx := (List.range 6).map e, extSeen := true, noAcks := 0, tmrDue := n.tmrDue || b.testBit 5 }

/-! ### Admission (R385) -/

/-- A frame received: what the front end says of it, and its parts. -/
structure RxFrame where
  rssi : Nat
  lqi : Nat
  crossing : Option Nat
  ext : Option (BitVec 80)
  snr : List (Fin 6 × List Int)
  tmReq : Bool
  mac : MacFrame
  deriving DecidableEq, Repr

/-- A datagram or command handed to INGEST (R385): as MGMT where it carries no UDP; what is no DLMS datagram keeps its compressed header. -/
def State.fieldAdmit (s : State) (m : Nat) (f : RxFrame) (stamp : Int) (ext short code : Nat) (data : List Byte) (mgmt : Bool) :
    Answer × State :=
  if h : wirePort m < 21 then
    let ns := stamp.toNat
    let head := lowpanHead data
    let udp := if mgmt then none else (head.bind (·.ports)).map (fun x => (BitVec.ofNat 16 x.1, BitVec.ofNat 16 x.2))
    s.takeUnit
      { port := ⟨wirePort m, h⟩, sec := BitVec.ofNat 48 (ns / 1000000000), ns := BitVec.ofNat 30 (ns % 1000000000)
        addr := BitVec.ofNat 128 (ext + short * 2 ^ 64), udp := udp, sound := mgmt || head.isSome
        data := if udp.any (fun x => x.2.toNat = s.fld (ingA rING_UDP_PORTS) 15 0) then data.drop ((head.map (·.sent)).getD 0) else data
        word7 := BitVec.ofNat 64 (f.mac.ctr + f.lqi * 2 ^ 32 + code * 2 ^ 40) }
  else (.discarded, s)

/-! ### Reassembly (R384) -/

/-- A fragment of RFC 4944: datagram size, tag, offset in bytes, the bytes; none where the payload is no fragment. -/
def fragmentOf (l : List Byte) : Option (Nat × Nat × Nat × List Byte) :=
  let w := be l 0 2
  if w / 2048 = 0x18 ∧ 4 ≤ l.length then some (w % 2048, be l 2 2, 0, l.drop 4)
  else if w / 2048 = 0x1C ∧ 5 ≤ l.length then some (w % 2048, be l 2 2, 8 * be l 4 1, l.drop 5)
  else none

/-- A fragment put into its buffer: dropped without room; the datagram discarded where it overlaps with different bytes; buffered; or
complete, with the datagram's bytes. -/
inductive Pieced where
  | noRoom | discarded | buffered | complete (data : List Byte)

/-- A fragment taken (R384); a buffer with an uncorrectable word is freed (R397, R422), and the fragment with it (DESIGN CHOICE, log entry 23). -/
def State.takeFragment (s : State) (m sender size tag off : Nat) (l : List Byte) : Pieced × State :=
  let p := s.port7 m
  let head := if off = 0 then lowpanHead l else none
  let extent := l.length + (head.map (·.full)).getD 0 - (head.map (·.sent)).getD 0
  let same (b : Reasm) : Bool := b.sender = sender && b.size = size && b.tag = tag
  let old := p.reasm.find? same
  if old.any (·.bad) then (.discarded,
    ((s.setPort7 m { p with reasm := p.reasm.filter (fun b => !same b) }).macCount m 9).cause (macPg m) (macInst m) 1)
  else if old.isNone ∧ (p.reasm.length = 32 ∨ 1280 < size) then (.noRoom, s)
  else
    let b := old.getD ⟨sender, size, tag, [], s.now, false⟩
    let clash := b.parts.any (fun e => e.1 < off + extent && off < e.1 + e.2.1 && !(e.1 = off && decide (e.2.2 = l)))
    let rest := p.reasm.filter (fun b => !same b)
    if clash then (.discarded, (s.setPort7 m { p with reasm := rest }).macCount m 9)
    else
      let parts := place off (extent, l) (drop b.parts off)
      let s := s.setPort7 m { p with reasm := rest ++ [{ b with parts := parts }] }
      let reach := parts.foldl (fun a e => if e.1 = a then a + e.2.1 else a) 0
      (if size ≤ reach then .complete (parts.flatMap (fun e => e.2.2)) else .buffered, s)

/-- A datagram's buffer freed. -/
def State.freeReasm (s : State) (m sender size tag : Nat) : State :=
  let p := s.port7 m
  s.setPort7 m { p with reasm := p.reasm.filter (fun b => !(b.sender = sender && b.size = size && b.tag = tag)) }

/-- REASSEMBLY_TIMEOUT (R384): buffers older than REASM_S are freed. -/
def execReassemblyTimeout (m : Fin 7) (t : Nat) (s : State) : Res :=
  let s := s.at t
  let p := s.port7 m.val
  let limit := s.macFld m.val rRAD_TIME2 15 8 rPLC_TIME2 15 8 * 1000000000
  let old (b : Reasm) : Bool := b.since + limit ≤ s.now
  .next (if !s.domOn 12 then s
    else (p.reasm.filter old).foldl (fun s _ => s.macCount m.val 9)
      (s.setPort7 m.val { p with reasm := p.reasm.filter (fun b => !old b) }))

/-! ### Acknowledgement and replay (R379, R383, R394) -/

/-- An acknowledgement owed for a frame: due ACK_TURN_US from now. -/
def State.owe (s : State) (m i : Nat) (f : RxFrame) (pending : Bool) (ctr : Option Nat) : State :=
  if !f.mac.ar then s
  else
    let turn := s.macFld m rRAD_TIME1 15 0 rPLC_TIME1 15 0
    let p := s.port7 m
    s.setPort7 m { p with owed := p.owed ++ [⟨i, f.mac.seq, f.mac.fcs, s.now + turn * 1000, pending, ctr, f.mac.version2, (p.nb i).ext⟩] }

/-- A fresh frame accepted: NEXT_CTR advances with its acknowledgement, or at once where none is asked for. -/
def State.accept (s : State) (m i : Nat) (f : RxFrame) (pending : Bool) : State :=
  let c := f.mac.ctr
  if f.mac.ar then s.owe m i f pending (some c)
  else s.setNb m i { (s.port7 m).nb i with next := c + 1, dirty := true }

/-- A data request (R394): acknowledged, with frame pending where a message is held and young enough; that message is released. -/
def State.dataRequest (s : State) (n i : Nat) (f : RxFrame) : State :=
  let p := s.port7 n
  let nb := p.nb i
  let ttl := s.fld (pa .radio n rRAD_TIME2) 7 0 * 1000000000
  match p.held.find? (fun x => nbHas nb x.dst && decide (s.now < x.since + ttl)) with
  | none => s.accept n i f false
  | some x =>
    let s := s.accept n i f true
    let p := s.port7 n
    if s.fenced then s
    else (s.setPort7 n { p with held := p.held.erase x, answers := p.answers ++ [x] }).nextRun n

/-! ### A frame received (R383) -/

/-- The own-address and PAN test (R373): accepted; none: a broadcast frame that asks for an acknowledgement is discarded. -/
def State.filters (s : State) (m : Nat) (f : RxFrame) : Option Bool :=
  let bcast := f.mac.dst.short && f.mac.dst.addr = 0xFFFF
  let mine := bcast || (if f.mac.dst.short then decide (f.mac.dst.addr.toNat = s.ownShort m) && f.mac.dst.addr != 0xFFFE else f.mac.dst.addr.toNat = s.ownExt m)
  let pan := f.mac.dstPan = s.panId m || f.mac.dstPan = 0xFFFF
  if mine && pan then (if bcast && f.mac.ar then none else some true) else some false

/-- A frame's payload past its information elements (R372). -/
def MacFrame.past (f : MacFrame) (l : List Byte) : List Byte := if f.pie then pastIes 64 l else l

/-- The payload of a frame that is not secured. -/
def MacFrame.payload (f : MacFrame) : List Byte := f.past f.body

/-- INGEST's answer to a field frame counted: each refusal advances RX_REFUSED (R383). -/
def State.tell (s : State) (m : Nat) (a : Answer) : State := match a with
  | .refused _ => s.macCount m 8
  | _ => s

/-- A frame of a stranger (R376): logged; an unsecured one goes to INGEST under JOIN_PASS, reassembled like any other, never acknowledged. A mesh or
broadcast header is outside the radio's subset (R372), and on the power line it makes the frame MGMT (R401). -/
def State.strangerFrame (s : State) (m : Nat) (f : RxFrame) (stamp : Int) : State :=
  let s := (s.macCount m 7).logStranger m f.mac.src (f.mac.level ≠ 0) f.rssi f.lqi
  let join := if isRadio m then s.bitAt (pa .radio m rRAD_CFG) 9 else s.bitAt (macA m 0 rPH_CFG) 2
  let mesh := f.mac.kind = 0 && meshHeader f.mac.payload
  if !join ∨ f.mac.level ≠ 0 then s
  else if mesh && isRadio m then s.macCount m 2
  else
    let x := ((s.port7 m).strangers.find? (fun e => e.2.short = f.mac.src.short && e.2.addr = f.mac.src.addr.toNat)).map (·.2)
    let code := (x.map (fun x => if isRadio m then 0 else s.phaseCode x.label x.run x.dev)).getD 0
    let ext := if f.mac.src.short then 0 else f.mac.src.addr.toNat
    let short := if f.mac.src.short then f.mac.src.addr.toNat else 0
    let sender := ext + short * 2 ^ 64
    match (if f.mac.kind = 0 && !mesh then fragmentOf f.mac.payload else none) with
    | none =>
      let (a, s) := s.fieldAdmit m f stamp ext short code f.mac.payload (f.mac.kind ≠ 0 || mesh)
      s.tell m a
    | some (size, tag, off, d) =>
      match s.takeFragment m sender size tag off d with
      | (.complete data, s) =>
        let (a, s) := s.fieldAdmit m f stamp ext short code data false
        let s := s.tell m a
        match a with
        | .admitted => s.freeReasm m sender size tag
        | _ => s
      | (_, s) => s

/-- A datagram or command of a neighbour handed to INGEST, with the phase code its label has. -/
def State.nbAdmit (s : State) (m i : Nat) (f : RxFrame) (stamp : Int) (data : List Byte) (mgmt : Bool) : Answer × State :=
  let n := (s.port7 m).nb i
  let code := if isRadio m then 0 else s.phaseCode n.label n.run n.dev
  let (a, s) := s.fieldAdmit m f stamp n.ext n.short code data mgmt
  (a, s.tell m a)

/-- What INGEST answers of a whole datagram or command: admitted, it is acknowledged; refused, it is not. -/
def State.passUp (s : State) (m i : Nat) (f : RxFrame) (stamp : Int) (data : List Byte) (mgmt : Bool) : Answer × State :=
  let (a, s) := s.nbAdmit m i f stamp data mgmt
  (a, if a = .admitted then s.accept m i f false else s)

/-- A message of the device's own on the power line: a MAC command to a neighbour, secured at MIN_SEC (R413). -/
def State.ownCommand (s : State) (m : Nat) (n : Neigh) (body : List Byte) : State :=
  let x : TxMsg := ⟨none, 0, 0, n.ext, n.short, s.panId m, true, true, s.fld (macA m rRAD_CFG rPH_CFG) 14 12, 0, 0, body, true, s.now, false⟩
  s.setPort7 m { s.port7 m with direct := (s.port7 m).direct ++ [x] }

/-- A fresh frame of a neighbour with its payload open (R372, R383 to R385, R394, R401, R413); a mesh or broadcast header is outside the radio's
subset, and on the power line it makes the frame MGMT. The tone map response of G.9903, command 0x0A (PRESUMED, log entry 24), is kept (R401). -/
def State.freshFrame (s : State) (m i : Nat) (f : RxFrame) (stamp : Int) (l : List Byte) : State :=
  let mesh := f.mac.kind = 0 && meshHeader l
  let s := s.macCount m (if mesh && isRadio m then 2 else 0)
  let nb := (s.port7 m).nb i
  if mesh then (if isRadio m then s else (s.passUp m i f stamp l true).2) else
  if f.mac.kind = 2 then
    if isRadio m ∧ be l 0 1 = 4 ∧ l ≠ [] then s.dataRequest m i f
    else if !isRadio m ∧ be l 0 1 = 0xE1 ∧ l ≠ [] then
      match nbTakeMap (s.bitAt (plcA rPLC_CFG) 0) nb l with
      | some n => (s.setNb m i n).accept m i f false
      | none => s.macCount m 2
    else if !isRadio m ∧ be l 0 1 = 0x0A ∧ l ≠ [] then (s.setNb m i { nb with tone := l.drop 1 }).accept m i f false
    else (s.passUp m i f stamp l true).2
  else if f.mac.kind = 3 then (s.passUp m i f stamp l true).2
  else match fragmentOf l with
    | none => (s.passUp m i f stamp l false).2
    | some (size, tag, off, d) =>
      match s.takeFragment m nb.ext size tag off d with
      | (.noRoom, s) => s
      | (.discarded, s) => s
      | (.buffered, s) => if f.mac.ar then s.accept m i f false else s
      | (.complete data, s) =>
        let (a, s) := s.passUp m i f stamp data false
        match a with
        | .admitted => s.freeReasm m nb.ext size tag
        | _ => s

/-- The replay check (R379) of a frame whose MIC has passed. -/
def State.replayCheck (s : State) (m i : Nat) (f : RxFrame) (stamp : Int) (l : List Byte) : State :=
  let n := (s.port7 m).nb i
  let c := f.mac.ctr
  if c = 2 ^ 32 - 1 then s.macCount m 5
  else if n.next ≤ c then s.freshFrame m i f stamp l
  else if c + 1 = n.next ∧ n.acked = some f.mac.seq then (s.owe m i f false none).macCount m 6
  else s.macCount m 5

/-- A frame of a neighbour (R377, R378, R397); an unsecured beacon goes up as MGMT, is never acknowledged and leaves NEXT_CTR (R372, R379). -/
def State.neighbourFrame (s : State) (m i : Nat) (f : RxFrame) (stamp : Int) : State :=
  let n := (s.port7 m).nb i
  let s := s.setNb m i { n with lqi := f.lqi, level := f.rssi, last := some s.now }
  let level := f.mac.level
  let s := if f.ext.isSome then (s.slotRead m i).setNb m i (nbMeasure (((s.slotRead m i).port7 m).nb i) f.snr) else s
  let s := s.nbRead m i
  if ((s.port7 m).nb i).bad then s.macCount m 4
  else if f.mac.kind = 3 ∧ level = 0 then (s.nbAdmit m i f stamp f.mac.payload true).2
  else if level < s.fld (macA m rRAD_CFG rPH_CFG) 14 12 then s.macCount m 3
  else match f.mac.key with
    | some 0 => s.macCount m 4
    | k =>
      let k := k.getD 0
      if 3 < k then s.macCount m 4
      else
        let (key, s) := s.macKey m k
        match key with
        | none => s.macCount m 4
        | some key =>
          match macOpen key n.ext f.mac.ctr level f.mac.header f.mac.body with
          | none => s.macCount m 3
          | some l =>
            let s := (if f.ext.isSome then s.macCount m 17 else s).replayCheck m i f stamp (f.mac.past l)
            if f.tmReq then (s.ownCommand m ((s.port7 m).nb i) (toBe 1 0x0A ++ Config.toneReply f.rssi f.lqi)).nextRun m else s

/-- An acknowledgement read (R390, R402), within ACK_WAIT_US of TX_DONE: by its sequence number, or by the FCS it carries on any phase of the
sent frame's mask. -/
def State.ackRead (s : State) (m num lqi : Nat) : State :=
  if isRadio m then
    match (s.port7 m).run with
    | some r => if r.st = 4 ∧ r.seq = num ∧ s.now ≤ r.due then s.partDone m r lqi else s
    | none => s
  else
    match ([4, 5, 6] : List Nat).find? (fun k =>
        (s.port7 k).run.any (fun r => r.st = 4 && r.mask.testBit (m - 4) && r.fcs = num && decide (s.now ≤ r.due))) with
    | some k => match (s.port7 k).run with
      | some r => s.partDone k r lqi
      | none => s
    | none => s

/-- The phase label of a frame's sender brought up to date by every frame that passes its FCS (R418, R419), also one that is then discarded: in the
entry that declares it, on whichever phase (DEDUCED, log entry 24), or as a stranger's. -/
def State.relabelled (s : State) (m : Nat) (f : RxFrame) : State :=
  if isRadio m then s
  else match ([m, 4, 5, 6] : List Nat).findSome? (fun k => ((s.port7 k).find f.mac.src).map (fun e => (k, e.1))) with
    | some (k, i) => s.labelNb k i f.crossing
    | none => s.labelStranger m f.mac.src f.crossing

/-- Is a sender declared on another phase (R417). -/
def State.crossed (s : State) (m : Nat) (a : MacAddr) : Bool :=
  !isRadio m && ([4, 5, 6] : List Nat).any (fun k => k ≠ m && ((s.port7 k).find a).isSome)

/-- Does an extended frame carry a TM_ID of neither of the last two maps sent (R410). -/
def tmStrange (n : Neigh) (h : BitVec 80) : Bool :=
  !(n.tx ≠ [] && bits h 63 60 = n.txId) && n.old ≠ some (bits h 63 60)

/-- A sound frame in the subset, after the filter (R374, R410, R417). -/
def State.routed (s : State) (m : Nat) (f : RxFrame) (stamp : Int) : State :=
  match (s.port7 m).find f.mac.src with
  | none =>
    if s.crossed m f.mac.src then s.macCount m 15
    else if f.ext.isSome then s.macCount m 16
    else s.strangerFrame m f stamp
  | some (i, n) =>
    match f.ext with
    | some h => if tmStrange n h then (s.setNb m i { n with tmrDue := true }).macCount m 16 else s.neighbourFrame m i f stamp
    | none => s.neighbourFrame m i f stamp

/-- The stamp of a frame (R371, R438): the strobe since the previous fetch, extended from the time of the fetch, with its correction; or the time of
the fetch, also where a step lies between. -/
def State.frameStamp (s : State) (m : Nat) : Int × State :=
  let p := s.port7 m
  let now : Int := (s.tsuTime.sec * 1000000000 + s.tsuTime.ns : Nat)
  if !isRadio m then (now, s)
  else match p.strobe with
    | some (c, tag) =>
      let s := s.setPort7 m { p with strobe := none }
      if tag = s.fld (pa .tsu 0 rTSU_STEP_CNT) 3 0 then (extendCapture now.toNat c + signed 16 (s.fld (pa .radio m rRAD_TIME2) 31 16), s)
      else (now, s.macCount m 15)
    | none => (now, s.macCount m 15)

/-- The AGC step a reception settles on in its first two preamble symbols (R399): the spec states no value, so it is free. -/
def State.agcStep (s : State) (m : Nat) : State :=
  let (w, s) := s.draw
  { s with plc := { s.plc with agc := Machine.store (fun _ => 0) s.plc.agc (m - 3) (bits w 1 0) } }

/-- The FCS check (R372, R383): the status of the front end, and the FCS over the PSDU; an FCH-only acknowledgement has none of its own. -/
def State.frameGood (s : State) (m : Nat) (f : FieldFrame) : Bool :=
  let k := (s.macFcs m []).1
  let n := f.psdu.length - k
  f.status = 0 && (f.ack.isSome || (decide (k ≤ f.psdu.length) && (s.macFcs m (f.psdu.take n)).2 = leAt f.psdu n k))

/-- Is a power-line frame in the subset by its FCH (R401, R410): the band, the modulation, coherent ones only with COHERENT, DT. -/
def State.fchOk (s : State) (f : FieldFrame) : Bool :=
  f.fcc = s.bitAt (plcA rPLC_CFG) 0 && (decide (f.mod.toNat ≤ 3) || f.mod = 8 || (decide (f.mod.toNat ≤ 6) && s.bitAt (plcA rPLC_CFG) 1)) &&
    (if f.ext.isSome then decide (6 ≤ f.dt.toNat) else decide (f.dt.toNat ≤ 3))

/-- The zero-crossing time of a power-line frame's sender (R418): of an extended frame by ZC_OFS, of a standard one by PDC. -/
def State.crossingOf (s : State) (f : FieldFrame) : Option Nat := match f.ext with
  | some h => if bits h 36 21 = 0xFFFF then none else some (f.preamble - bits h 36 21 * 1000)
  | none => some (f.preamble - Config.pdcTime f.pdc.toNat s.mainsPeriod)

/-- The parts of a frame in the subset (R372, R401, R410, R418); none: outside it. -/
def State.frameParts (s : State) (m : Nat) (f : FieldFrame) : Option RxFrame :=
  if f.ext.any (fun h => !s.extGood h) ∨ s.mtu m < f.length.toNat ∨ (!isRadio m ∧ !s.fchOk f) then none
  else
    (parseMac (isRadio m) (s.macFcs m []).1 f.psdu).map (fun x => ⟨f.rssi.toNat, f.lqi.toNat, if isRadio m then none else s.crossingOf f, f.ext,
      f.snr, f.tmReq && !isRadio m, x⟩)

/-- A sound frame (R383): its parts, the label of its sender, then the filter. -/
def State.frameTake (s : State) (m : Nat) (f : FieldFrame) (stamp : Int) : State :=
  match f.ack, s.frameParts m f with
  | some a, _ => if isRadio m then s.macCount m 2 else s.ackRead m a.toNat f.lqi.toNat
  | none, none => s.macCount m 2
  | none, some x =>
    if x.mac.kind = 1 then s.ackRead m x.mac.seq x.lqi
    else
      let s := s.relabelled m x
      match s.filters m x with
      | none => s
      | some false => s.macCount m 2
      | some true => s.routed m x stamp

/-- FIELD_FRAME_RECEIVED (R383, R399): the checks in their order; while a phase's TXEN is high its port hears nothing. -/
def execFieldFrameReceived (m : Fin 7) (f : FieldFrame) (t : Nat) (s : State) : Res :=
  let s := s.at t
  let m := m.val
  .next (if !s.macOn m || (!isRadio m && (!s.bitAt (macA m 0 rPH_CFG) 3 || s.txen (m - 3))) then s
    else
      let s := if isRadio m then s.spiSend m 0x20 [] (5 + f.length.toNat) else s.agcStep m
      if isRadio m && s.mtu m < f.length.toNat then s.xcvrReset m
      else
        let (stamp, s) := s.frameStamp m
        if s.frameGood m f then s.frameTake m f stamp else s.macCount m 1)

end Sys2Proof.Machine
end

