-- ==== Sys2Proof/Machine/Plc.lean ====
section
/-! DEFINITION. The power line beside the shared MAC: zero crossings, beacons, start-up, slot maps (R400, R403 to R408, R413, R414, R421). -/

namespace Sys2Proof.Machine

/-! ### Zero crossings (R400, R408) -/

/-- Is a phase lost (R400). -/
def State.phaseLost (s : State) (n : Nat) : Bool := look (fun _ => false) s.plc.lost n

/-- The reference phase, MAINS_FREE and PLC_MAINS brought up to date (R400): phase 1, while it is lost phase 2, while that is also lost phase 3. P
keeps its value while the reference has no interval or every phase is lost. -/
def State.mainsUpdate (s : State) : State :=
  let ref := if !s.phaseLost 1 then 1 else if !s.phaseLost 2 then 2 else 3
  let free := s.phaseLost 1 && s.phaseLost 2 && s.phaseLost 3
  let l := look (fun _ => []) s.plc.ivls ref
  let s := { s with plc := { s.plc with ref := ref } }
  let s := if free then s
    else { s with plc := { s.plc with period := if l = [] then s.plc.period else l.sum / l.length, base := look (fun _ => 0) s.plc.edge ref } }
  let s := s.putBit (plcA rPLC_STAT) 3 free
  s.wr (plcA rPLC_MAINS) (BitVec.ofNat 32 (s.mainsPeriod / 10 % 2 ^ 24 + ref * 2 ^ 24))

/-- ZC_OK of a phase; each change is an interrupt. -/
def State.setZc (s : State) (n : Nat) (b : Bool) : State :=
  if s.zcOk n = b then s else (s.putBit (plcA rPLC_STAT) (n - 1) b).irq .plc 0 0

/-- A phase lost, or found good (R400). -/
def State.setLost (s : State) (n : Nat) (b : Bool) : State :=
  { s with plc := { s.plc with lost := Machine.store (fun _ => false) s.plc.lost n b } }

/-- A phase lost (R400): the cause and the event come as it becomes so. -/
def State.zcLost (s : State) (n : Nat) : State :=
  let s := { s with plc := { s.plc with good := Machine.store (fun _ => 0) s.plc.good n 0 } }
  if s.phaseLost n then s else ((((s.setZc n false).setLost n true).cause .plc 0 4).lanyEvent 0x38 [n]).mainsUpdate

/-- ZERO_CROSSING_EDGE (R400, R408): a deglitched rising edge of a phase, 1 to 3, at TSU time. -/
def execZeroCrossingEdge (phase : Fin 3) (t : Nat) (s : State) : Res :=
  let s := s.at t
  let n := phase.val + 1
  let now := s.tsuTime.sec * 1000000000 + s.tsuTime.ns
  .next (if !s.domOn 12 || !s.netOn then s
    else
      let last := look (fun _ => 0) s.plc.edge n
      let d := now - last
      let s := { s with plc := { s.plc with edge := Machine.store (fun _ => 0) s.plc.edge n now } }
      if last = 0 then s
      else if d < 15150000 ∨ 22222000 < d then s.zcLost n
      else
        let g := min 16 (look (fun _ => 0) s.plc.good n + 1)
        let l := (d :: look (fun _ => []) s.plc.ivls n).take 16
        let s := { s with plc := { s.plc with
          good := Machine.store (fun _ => 0) s.plc.good n g, ivls := Machine.store (fun _ => []) s.plc.ivls n l } }
        (if g = 16 then (s.setZc n true).setLost n false else s).mainsUpdate)

/-- ZERO_CROSSING_LOSS (R400): no edge for 3 periods; before P is measured, of the longest period of the range (DESIGN CHOICE, log entry 24). -/
def execZeroCrossingLoss (phase : Fin 3) (t : Nat) (s : State) : Res :=
  let s := s.at t
  let n := phase.val + 1
  let now := s.tsuTime.sec * 1000000000 + s.tsuTime.ns
  .next (if s.domOn 12 && decide (look (fun _ => 0) s.plc.edge n + 3 * (if s.mainsPeriod = 0 then 22222000 else s.mainsPeriod) ≤ now) then s.zcLost n else s)

/-! ### Beacons and start-up (R403 to R405, R407) -/

/-- The beacon's payload up to the MIC (R404). -/
def State.beaconBody (s : State) (bseq seed left : Nat) : List Byte :=
  let l := (s.quiet.filter s.quietFits)
  let now := s.tsuTime.sec * 1000000000 + s.tsuTime.ns
  let flags := (s.bitAt (plcA rPLC_STAT) 4).toNat + s.mainsFree.toNat * 2 + (s.bitAt (pa .tsu 0 rTSU_STAT) 3).toNat * 4
  toBe 1 1 ++ toBe 1 flags ++ toBe 2 (s.fld (plcA rPLC_BCN) 15 0) ++ toBe 2 bseq ++ toBe 6 s.tsuTime.sec ++ toBe 4 s.tsuTime.ns ++
  toBe 4 (s.mainsPeriod / 10) ++ toBe 4 ((s.slot0 now - now) / 1000) ++ toBe 1 l.length ++ [0] ++
  (List.range 4).flatMap (fun k => let w := l.getD k (0, 0)
    toBe 2 w.1 ++ toBe 2 w.2) ++ toBe 4 seed ++ toBe 2 left

/-- The beacon sent on all three front ends (R403, R404); the quiet windows it lists are in force until the next (R405), and channel access that
waited for it starts afresh (R406). -/
def State.beacon (s : State) : State :=
  let s := { s with plc := { s.plc with sfd := s.now } }
  let bseq := (s.fld (plcA rPLC_BSEQ) 15 0 + 1) % 65536
  let s := s.putF (plcA rPLC_BSEQ) 15 0 bseq
  let s := if s.quiet.all s.quietFits then s else s.cause .plc 0 5
  let starting := s.bitAt (plcA rPLC_STAT) 4
  let (w, s) := s.draw
  let seed := if starting then bits w 31 0 else s.plc.seed
  let left := (s.plc.startEnd.getD s.now - s.now + 999999999) / 1000000000
  let p := s.port7 4
  let h := toLe 2 (4 + 64 + 2 * 1024 + 4096 + 3 * 16384) ++ toLe 1 p.seq ++ toLe 2 (s.panId 4) ++ toLe 2 0xFFFF ++ toLe 8 (s.ownExt 4)
  let body := s.beaconBody bseq seed left
  let (key, s) := s.macKey 4 4
  let (f, s) := s.draw
  let mic := match key with
    | some k => (cmac k (h ++ body)).take 8
    | none => toBe 8 f.toNat
  let l := h ++ body ++ mic
  let s := s.setPort7 4 { s.port7 4 with seq := (p.seq + 1) % 256 }
  let l := l ++ toLe 2 (s.macFcs 4 l).2
  let air := Config.airtime 2 l
  let s := { s with plc := { s.plc with seed := seed, windows := s.quiet.filter s.quietFits, bcnAir := (air + 40) * 1000 } }
  (s.radiate (s.burst .superRobust 7 0 air l) air (BitVec.ofNat 128 (0xFFFF * 2 ^ 64))).beaconOver (s.now + (air + 40) * 1000)

/-- BEACON_SEND (R403, R405, R416): at its time, or as soon as no front end receives or carries a transmission and no quiet window runs; delayed by
more than half the period it is skipped. -/
def execBeaconSend (receiving : Bool) (t : Nat) (s : State) : Res :=
  let s := s.at t
  let next := { s with plc := { s.plc with due := s.plc.due + s.bcnPeriod } }
  .next (if !s.domOn 12 || !s.bitAt (plcA 0x00C) 0 || s.fenced || decide (s.now < s.plc.due) then s
    else if s.plc.due + s.bcnPeriod / 2 < s.now then (next.bumpF (plcA rPLC_BSEQ) 31 16 1).beaconOver s.now
    else if receiving || s.frontBusy 0 7 || (s.windowMet 0).isSome then s
    else next.beacon)

/-- A write of BLK_CTRL.EN of PLC (R381, R407, R421). -/
def State.plcEnable (s : State) (q : Requester) (v : Word32) : State :=
  let a := plcA 0x00C
  s.guarded q a v (bit v 0 && s.rd64 (plcA rPLC_EXT) = 0) fun s =>
    if s.bitAt a 0 = bit v 0 then s
    else
      let s := s.putBit a 0 (bit v 0)
      if !bit v 0 then s
      else
        let s := ((s.txctrStart 4).reseed)
        let start := s.fld (plcA rPLC_START) 9 0
        let fin := if start = 0 then none else some (s.now + start * 1000000000)
        let s := { s with plc := { s.plc with due := s.now + s.bcnPeriod, sfd := s.now, startEnd := fin, windows := [] } }
        if start = 0 then (s.putBit (plcA rPLC_STAT) 4 false).irq .plc 0 2 else s.putBit (plcA rPLC_STAT) 4 true

/-- A write of BLK_CTRL.EN of a PLC_PH page; m from 4. -/
def State.phEnable (s : State) (q : Requester) (m : Nat) (v : Word32) : State :=
  s.guarded q (macA m 0 0x00C) v (bit v 0 && !s.bitAt (plcA 0x00C) 0) fun s => s.putBit (macA m 0 0x00C) 0 (bit v 0)

/-- A write of PLC_SLOT: ZC_REF outside its range keeps its value. -/
def State.plcSlot (s : State) (q : Requester) (v : Word32) : State :=
  let a := plcA rPLC_SLOT
  s.guarded q a v false fun s =>
    let z := signed 16 (bits v 31 16)
    let old := s.fld a 31 16
    let s := s.plain a (v.setWidth 64)
    if -1800 ≤ z ∧ z ≤ 1799 then s else s.putF a 31 16 old

/-- PLC_STARTUP_END (R407). -/
def execPlcStartupEnd (t : Nat) (s : State) : Res :=
  let s := s.at t
  .next (match s.plc.startEnd with
    | none => s
    | some e =>
      if s.now < e ∨ !s.domOn 12 then s
      else
        let s := { s with plc := { s.plc with startEnd := none } }
        let s := (s.putBit (plcA rPLC_STAT) 4 false).irq .plc 0 2
        ([4, 5, 6] : List Nat).foldl (fun s m => s.nextRun m) s)

/-! ### Slot maps (R413, R414) -/

/-- The threshold of a modulation in dB, and four times its bits per carrier, in code order. -/
def modFacts (code : Nat) : Nat × Nat :=
  (([0, 4, 7, 11, 3, 6, 10] : List Nat).getD code 0, ([1, 4, 8, 12, 4, 8, 12] : List Nat).getD code 0)

/-- The entry of a slot from its measurements (R414): margin in 0.25 dB, the number of subbands and carriers in each, the coherent candidates. -/
def slotEntry (margin subbands carriers : Nat) (coherent : Bool) (l : List (List Int)) : Nat :=
  if l = [] then (2 ^ subbands - 1) * 8
  else
    let usable (code b : Nat) : Bool :=
      decide (((4 * (modFacts code).1 + margin : Nat) : Int) * (l.length : Nat) ≤ (l.map (fun x => x.getD b 0)).sum)
    let band (code : Nat) : List Nat := (List.range subbands).filter (usable code)
    let count (code : Nat) : Nat := (modFacts code).2 * (band code).length * carriers
    let best := (List.range (if coherent then 7 else 4)).foldl (fun (b : Nat × Nat) code =>
      if b.2 < count code then (code, count code) else b) (7, 0)
    if best.2 = 0 then 7 else best.1 + ((band best.1).map (fun b => 2 ^ (3 + b))).sum

/-- The map the device computes for a neighbour (R414). -/
def State.slotMap (s : State) (n : Neigh) : List Nat :=
  let fcc := s.bitAt (plcA rPLC_CFG) 0
  let coh := n.coherent && s.bitAt (plcA rPLC_CFG) 1
  (List.range 6).map (fun k => slotEntry (s.fld (plcA rPLC_TM) 7 0) (if fcc then 24 else 6) (if fcc then 3 else 6) coh
    (look (fun _ => []) n.snr k))

/-- SLOT_TMR_SEND (R411, R413, R414): a map asked for, changed for long enough, or missed by the peer, is sent secured; one in which every slot
is SKIP is never sent. -/
def execSlotTmrSend (phase : Fin 3) (i : BitVec 11) (t : Nat) (s : State) : Res :=
  let s := s.at t
  let m := phase.val + 4
  let i := i.toNat
  let s := if s.macOn m then s.slotRead m i else s
  let n := (s.port7 m).nb i
  let map_ := s.slotMap n
  let wait := s.fld (plcA rPLC_TIME2) 7 0 * 1000000000
  let changed := decide (map_ ≠ n.tx)
  let ripe := match n.tmrAt with
    | none => true
    | some x => decide (x + wait ≤ s.now)
  .next (if !s.macOn m || !n.valid || map_.all (fun e => e % 8 = 7) || !(n.tmrDue || (n.extSeen && changed && ripe)) then s
    else
      let id := if n.tx = [] then 0 else if changed then (n.txId + 1) % 16 else n.txId
      let old := if changed ∧ n.tx ≠ [] then some n.txId else n.old
      let b := id + (s.bitAt (plcA rPLC_CFG) 1).toNat * 16 + (decide (n.rx = [])).toNat * 32
      let body := toBe 1 0xE1 ++ toBe 1 b ++ map_.flatMap (fun e => toBe 4 e)
      let s := s.setNb m i { n with tx := map_, txId := id, old := old, tmrAt := some s.now, tmrDue := false }
      (s.ownCommand m n body).nextRun m)

end Sys2Proof.Machine
end

