-- ==== Sys2Proof/Machine/SoftReset.lean ====
section
/-! DEFINITION. Soft resets (R64): where a chapter refuses one, what it keeps, and what a block's own state becomes. -/

namespace Sys2Proof.Machine

/-- A soft reset refused with cause STATE (R64, R206). -/
def State.srstBad (s : State) (p : Pg) (inst : Nat) : Bool :=
  match p with
  | .lay => decide (3 ≤ s.laySt inst)
  | .strand => decide (3 ≤ s.laySt (inst / 16))
  | .splice => (List.range 8).any (fun n => !s.layQuiet n)
  | _ => false

/-- The registers that a chapter keeps through a soft reset (R447 and the RTC, TAMPER, WDOG and EVR pages, R548). -/
def srstWhole (p : Pg) : List Nat :=
  match p with
  | .rtc => [rRTC_TIME, rRTC_TIME + 4, rRTC_WDAY, rRTC_DAY_OFS, rRTC_ALARM, rRTC_ALARM + 4] ++ (List.range 32).map (fun i => rRTC_BKMEM + 4 * i)
  | .tamper => [rTAMPER_CFG, rTAMPER_CFG + 4, rTAMPER_CFG + 8, rTAMPER_CFG + 12, rTAMPER_STAT, rTAMPER_TIME, rTAMPER_TIME + 4]
  | .wdog => [rLNY_STAT, rLNY_ERR]
  | .evr => [rEVR_STAT, rEVR_HEAD, rEVR_DURABLE, rEVR_OPSEC, rEVR_PCYC]
  | .fc => [rFC_STATUS, rFC_STATUS + 4]
  | _ => []

/-- What a soft reset leaves of the registers, as bits: the whole of those that a chapter keeps, and the bits that show how a domain's switch or
a PLL stands, whose value is the switch's and the PLL's own (R10: RO reads the current value; log entry 26): PWR_DOM_d.STATE and CLK_STAT. TARGET,
TRIES and FAILED return to reset. -/
def srstKept (p : Pg) : List (Nat × Word32) :=
  (srstWhole p).map (fun o => (o, BitVec.allOnes 32)) ++
  (if p = .pwr then (List.range 17).map (fun i => (rPWR_DOM + 4 * i, 0x30000)) else if p = .clk then [(rCLK_STAT, BitVec.allOnes 32)] else [])

/-- Deadlines that a soft reset leaves: the Lanyard watchdog, domain retries, the wake port, a life-cycle reset, the operating seconds. -/
def timerKept (a : Nat) : Bool :=
  a / 4096 = (pageInfo .pwr).code || a / 4096 = (pageInfo .wake).code || a = wdA rWDG_LANY_LEFT || a = lcsA rLCS_CTRL ||
  a = pa .sens 0 rSENS_T_MAX || a = pa .evr 0 rEVR_OPSEC

/-- What a block's registers show of its own state returns to its start with them (log entry 26). -/
def State.blockOff (s : State) (p : Pg) (inst : Nat) : State :=
  match p with
  | .splice => { s with splices := [] }
  | .evr => { s with evr := { s.evr with readEnd := 0 } }
  | .strand => s.setStr inst { Strand.clear with imScrub := (s.str inst).imScrub, dmScrub := (s.str inst).dmScrub }
  | .lay => s.setLay inst { s.lay inst with tabs := [], ports := [] }
  | .ingest => { s with ing := Ing.off }
  | .meterdb => { s with work := { s.work with bulk := [], bulkTo := 0 } }
  | .meas => { s with meas := Meas.off }
  | .pulse => { s with pulses := s.pulses.map (fun e => (e.1, { e.2 with k := 0, done := 0 })) }
  | .totals => s.showCopies
  | .radio => { s with mac := drop s.mac inst }
  | .plcPh => { s with mac := drop s.mac (inst + 4) }
  | .plc => { s with plc := Plc.off }
  | .uart => { s with uarts := drop s.uarts inst }
  | .eth => { s with eth := drop s.eth inst }
  | .sgmii => { s with eth := drop s.eth (inst + 4) }
  | .sbus => { s with sbus := [], meas := { s.meas with sbusAge := [] } }
  | .tsu => s.tsuStart
  | .pair => { s with pair := s.pair.linkOff }
  | .lease => { s with pair := s.pair.leaseOff }
  | .pcie => { s with rings := [] }
  | .nand => s.setNand { Nand.off with blocks := s.nand.blocks, releases := s.nand.releases }
  | _ => s

/-- A soft reset starts (R64): the page's registers at their reset values but for those kept. -/
def State.srstStart (s : State) (p : Pg) (inst : Nat) : State :=
  let kept := (srstKept p).map (fun e => (pa p inst e.1, e.2, s.rd (pa p inst e.1)))
  let b := pa p inst 0
  let bank := if p = .evr then s.bank else []
  let s := s.softReset p inst
  let s := kept.foldl (fun s e => s.wr e.1 ((s.rd e.1 &&& ~~~e.2.1) ||| (e.2.2 &&& e.2.1))) s
  let s := if p = .evr then { s with bank := bank } else s
  let s := if p = .wdog then s.wr (wdA rLNY_ERR) (s.rd (wdA rLNY_ERR) &&& 4) else s
  let s := { s with timers := s.timers.filter (fun e => !(b ≤ e.1 && e.1 < b + 0x1000) || timerKept e.1)
                    results := dropRange s.results b (b + 0x1000), outputs := s.outputs.filter (fun e => e.1 < b || b + 0x1000 ≤ e.1) }
  s.blockOff p inst

/-- A soft reset completes (R64); ok: TRNG's tests, which it runs again, pass (R480, R481). -/
def State.srstDone (s : State) (p : Pg) (inst : Nat) (ok : Bool) : State :=
  if !s.srstBusy (pa p inst 0) then s
  else
    let s := s.putBit (pa p inst 0x010) 1 false
    if p = .trng then s.trngStart ok else s

end Sys2Proof.Machine
end

