-- ==== Sys2Proof/Machine/Faults.lean ====
section
/-! DEFINITION. The fault collector and the error pin (R545 to R554, R566). -/

namespace Sys2Proof.Machine

/-- A register of the FC page. -/
abbrev fcA (o : Nat) : Nat := pa .fc 0 o

/-- The pages whose error line drives a source, in page order (R67). -/
def pagesOfSource (n : Nat) : List (Pg × Nat) :=
  allPg.flatMap (fun p => ((List.range (pageInfo p).count).filter (fun i => pageSource p i = some n)).map (fun i => (p, i)))

/-- Is a source's line held by a level-type cause (R61, R544). -/
def State.lineHeld (s : State) (n : Nat) : Bool :=
  if n = 29 then s.bitAt (pa .wdog 0 rLNY_ERR) 2
  else if n = 30 then s.bitAt (pa .wdog 0 rLNY_ERR) 1
  else (pagesOfSource n).any (fun p => s.levels p.1 p.2 ≠ 0)

/-- The reaction mask of a source (R549). -/
def State.reactMask (s : State) (n : Nat) : Nat := s.fld (fcA (rFC_REACT + 4 * n)) 4 0

/-- The mask of a sequence: the OR of its sources' (R546). -/
def State.seqMask (s : State) (l : List Nat) : Nat := l.foldl (fun m n => m ||| s.reactMask n) 0

/-- BLK_ERR of the lowest-numbered page of a source; 0 where it has none (R558). -/
def State.sourceErr (s : State) (n : Nat) : Nat :=
  match pagesOfSource n with
  | [] => 0
  | p :: _ => (s.rd (pa p.1 p.2 0x014)).toNat

/-- A PIN reaction (R553). -/
def State.pinPulse (s : State) : State :=
  { s with errPin := { s.errPin with until_ := s.now + s.fld (fcA rFC_PIN) 19 0 * 1000 } }

/-- FC_FIRST and FC_OVERFLOW at a latch (R546). -/
def State.latchFirst (s : State) (l : List Nat) : State :=
  let valid := s.bitAt (fcA rFC_FIRST) 31
  let s := if valid then s else s.wr (fcA rFC_FIRST) (BitVec.ofNat 32 (2 ^ 31 + l.headD 0))
  let more := if valid then l.length else l.length - 1
  if more = 0 then s else (s.putBit (fcA rFC_OVERFLOW) 31 true).bumpF (fcA rFC_OVERFLOW) 15 0 more

/-- Sources latched in a cycle (R546, R549): l in ascending order, forced those that FC_FORCE drives. -/
def State.latchFaults (s : State) (l forced : List Nat) : State :=
  let st := l.foldl (fun (v : Nat) n => v ||| 2 ^ n) (s.rd64 (fcA rFC_STATUS)).toNat
  let s := (s.wr64 (fcA rFC_STATUS) (BitVec.ofNat 64 st)).latchFirst l
  let mask := s.seqMask l
  let s := (s.putBit (fcA rFC_STAT) 0 true).bumpMod (fcA rFC_SEQ_CNT) 1
  let s := { s with fc := { s.fc with seq := l, start := s.now, steps := 0 } }
  let s := l.foldl (fun s n =>
    s.event (if forced.contains n then 0x09 else 0x08) n [st % 2 ^ 32, st / 2 ^ 32, s.sourceErr n, mask]) s
  let s := s.flushStart false
  let s := if mask.testBit 0 then s.fire 0 else s
  let s := if mask.testBit 1 then s.enterSafety true else s
  if mask.testBit 4 then s.pinPulse else s

/-- BLOCK_RST on one source (R550). -/
def State.resetSource (s : State) (n : Nat) : State :=
  if n < 8 then
    (if s.domOn (3 + n) ∧ 3 ≤ s.laySt n then s.putBit (pa .lay n rLAY_STAT) 4 true else s)
  else if n = 29 ∨ n = 30 ∨ n = 31 ∨ n = 33 then s
  else (pagesOfSource n).foldl (fun s p =>
    if !s.domOn (pageDomain p.1 p.2) then s
    else if s.srstBad p.1 p.2 then s.putBit (fcA rFC_STAT) 2 true
    else s.srstStart p.1 p.2) s

/-- The sources of the sequence whose own mask holds a reaction. -/
def State.seqWith (s : State) (bit_ : Nat) : List Nat := s.fc.seq.filter (fun n => (s.reactMask n).testBit bit_)

/-- CHIP_RST (R552): the record, and the request, at the time given. -/
def State.chipRst (s : State) (at_ : Nat) : State :=
  match s.seqWith 3 with
  | [] => s
  | n :: _ =>
    let st := (s.rd64 (fcA rFC_STATUS)).toNat
    let s := s.event 0x0A n [st % 2 ^ 32, st / 2 ^ 32, (s.rd (fcA rFC_FIRST)).toNat, s.seqMask s.fc.seq]
    let s := { s with fc := { s.fc with request := some (at_, (s.rd (pa .evr 0 rEVR_HEAD)).toNat) } }
    s.flushStart false

/-- The running sequence brought up to the present (R549). -/
def State.seqProgress (s : State) : State :=
  if !s.bitAt (fcA rFC_STAT) 0 then s
  else
    let extra := 48 * (s.fc.seq.length - 1)
    let due (c : Nat) : Bool := decide (s.fc.start + 2 * (c + extra) ≤ s.now)
    let s := if s.fc.steps = 0 && due 60 then
        let s := (s.seqWith 2).foldl (fun s n => s.resetSource n) s
        { s with fc := { s.fc with steps := 1 } }
      else s
    let s := if s.fc.steps = 1 && due 62 then
        let s := s.chipRst (s.fc.start + 2 * (62 + extra))
        { s with fc := { s.fc with steps := 2 } }
      else s
    if due 65 then { (s.putBit (fcA rFC_STAT) 0 false) with fc := { s.fc with seq := [] } } else s

/-- A sampled cycle (R545). -/
def State.sampleLines (s : State) : State :=
  let pulses := s.fc.pulses
  let forced := s.fc.forced
  let l := (List.range 64).filter (fun n =>
    !(s.rd64 (fcA rFC_STATUS)).getLsbD n && (pulses.contains n || forced.contains n || s.lineHeld n))
  let s := { s with fc := { s.fc with pulses := [], forced := [] } }
  if l = [] then s else s.latchFaults l forced

/-- FAULT_LATCH (R545 to R549): the collector at time t. -/
def execFaultLatch (t : Nat) (s : State) : Res :=
  let s := s.at t
  .next (if !s.domOn 1 then s
    else
      let s := s.seqProgress
      if s.bitAt (fcA rFC_STAT) 0 then s else s.sampleLines)

/-- PULSE_NOT_LATCHED (R547): a pulse-type cause of a page during a sequence. -/
def execPulseNotLatched (page : BitVec 10) (bit_ : Fin 31) (s : State) : Res :=
  .next (match pageAt page.toNat with
    | none => s
    | some (p, i) =>
      if s.seqRun && s.domOn (pageDomain p i) && (pageInfo p).pulse.testBit bit_.val then s.cause p i bit_.val else s)

/-- A write of FC_STATUS (R548). -/
def State.fcStatus (s : State) (q : Requester) (v : Word64) : State :=
  s.guarded q (fcA rFC_STATUS) (v.extractLsb' 0 32) false fun s =>
    s.wr64 (fcA rFC_STATUS) (s.rd64 (fcA rFC_STATUS) &&& ~~~v)

/-- FC_STATUS_CLEAR (R548): a 64-bit write. -/
def execFcStatusClear (q : Requester) (v : BitVec 64) (s : State) : Res := .next (s.fcStatus q v)

/-- A write of FC_FORCE (R554). -/
def State.fcForce (s : State) (q : Requester) (v : Word32) : State :=
  s.guarded q (fcA rFC_FORCE) v false fun s =>
    if bit v 31 then { s with fc := { s.fc with forced := s.fc.forced ++ [bits v 5 0] } } else s

/-- FC_FORCE (R554). -/
def execFcForce (q : Requester) (source : BitVec 6) (s : State) : Res :=
  .next (s.fcForce q (BitVec.ofNat 32 (2 ^ 31 + source.toNat)))

/-- ERR_PIN_PULSE_END (R553). -/
def execErrPinPulseEnd (t : Nat) (s : State) : Res :=
  let s := s.at t
  .next (if s.errPin.until_ = 0 ∨ s.now < s.errPin.until_ then s
    else { s with errPin := ⟨0, s.domOn 1 && s.bitAt (fcA rFC_PIN) 31⟩ })

/-- A write of FC_PIN (R553, R566). -/
def State.fcPin (s : State) (q : Requester) (v : Word32) : State :=
  s.guarded q (fcA rFC_PIN) v (bit v 30 && s.errPin.until_ ≠ 0) fun s =>
    let s := s.plain (fcA rFC_PIN) (v.setWidth 64)
    if bit v 30 then { s with errPin := { s.errPin with held := false } } else s

/-- ERR_PIN_RELEASE (R553): a write of FC_PIN with RELEASE = 1, HOLD and WIDTH. -/
def execErrPinRelease (q : Requester) (hold : Bool) (width : BitVec 20) (s : State) : Res :=
  .next (s.fcPin q (BitVec.ofNat 32 (hold.toNat * 2 ^ 31 + 2 ^ 30 + width.toNat)))

end Sys2Proof.Machine
end

