-- ==== Sys2Proof/Machine/Cosem.lean ====
section
/-! DEFINITION. The device's own COSEM server: associations, rights, values, roles' counters (R274 to R281). -/

namespace Sys2Proof.Machine

/-- The objects of the server (R277): point-wise objects carry the point from 0; a total and a maximum their index in the copy. -/
inductive CosemObj where
  | total (p i : Nat)
  | maximum (p i : Nat)
  | demand (p c : Nat)
  | phase (p quantity φ : Nat)
  | calendar (p : Nat)
  | deviceName
  | clock
  | association
  | security
  deriving DecidableEq, Repr

/-- The object a class and logical name denote (R277). -/
def objectOf (x : CosemItem) : Option CosemObj :=
  let n (i : Nat) : Nat := bits x.name (47 - 8 * i) (40 - 8 * i)
  let cls := x.cls.toNat
  let p := n 1 - 1
  let point := 1 ≤ n 1 ∧ n 1 ≤ 16
  let quantity := ([1, 2, 5, 6, 7, 8, 9, 10] : List Nat).idxOf (n 2)
  let phases : List Nat := [32, 52, 72, 31, 51, 71, 21, 41, 61]
  if n 5 ≠ 255 then none
  else if n 0 = 1 ∧ point then
    if cls = 3 ∧ n 3 = 8 ∧ quantity < 8 ∧ n 4 ≤ 8 then some (.total p (9 * quantity + n 4))
    else if cls = 4 ∧ n 3 = 6 ∧ quantity < 2 ∧ n 4 ≤ 8 then some (.maximum p (9 * quantity + n 4))
    else if cls = 5 ∧ n 3 = 4 ∧ quantity < 2 ∧ n 4 = 0 then some (.demand p quantity)
    else if cls = 3 ∧ n 3 = 7 ∧ n 4 = 0 ∧ phases.idxOf (n 2) < 9 then
      some (.phase p (phases.idxOf (n 2) / 3) (phases.idxOf (n 2) % 3 + 1))
    else none
  else if n 0 = 0 ∧ n 3 = 0 ∧ n 4 = 0 then
    if cls = 20 ∧ point ∧ n 2 = 13 then some (.calendar p)
    else if n 1 ≠ 0 then none
    else if cls = 1 ∧ n 2 = 42 then some .deviceName
    else if cls = 8 ∧ n 2 = 1 then some .clock
    else if cls = 15 ∧ n 2 = 40 then some .association
    else if cls = 64 ∧ n 2 = 43 then some .security
    else none
  else none

/-- May a role read an attribute (R278): 0 PUBLIC, 1 READER, 2 OPERATOR, 3 SECURITY, 4 MAKER. -/
def mayRead (role : Nat) (o : CosemObj) (attr : Nat) : Bool :=
  match o with
  | .total _ _ => role ≠ 0
  | .maximum _ _ => role ≠ 0
  | .demand _ _ => role ≠ 0
  | .phase _ _ _ => role ≠ 0
  | .calendar _ => role ≠ 0
  | .deviceName => true
  | .clock => true
  | .association => role ≠ 0 || attr = 1 || attr = 2
  | .security => role ≠ 0 || attr = 1 || attr = 2

/-- May a role run a method (R278): the reset of a maximum, by OPERATOR alone. -/
def mayAct (role : Nat) (o : CosemObj) (method : Nat) : Bool :=
  match o with
  | .maximum _ _ => role = 2 && method = 1
  | _ => false

/-- The client SAP of a role (R275). -/
def roleOf (sap : Nat) : Option Nat := if sap % 16 = 0 ∧ 16 ≤ sap ∧ sap ≤ 80 then some (sap / 16 - 1) else none

/-- The protection a role requires (R275). -/
def roleNeeds (role : Nat) : Nat := if role = 0 then 0 else if role = 1 then 1 else 2

/-- Scaler −3 and a unit: 27 W, 30 Wh, 31 VAh, 32 varh (R279, R281). -/
def milli (unit : Nat) : List Nat := [253, unit]

/-- The unit of quantity i of the totals (R279): active, reactive, apparent. -/
def quantityUnit (i : Nat) : Nat := if i < 2 then 30 else if i < 6 then 32 else 31

/-- Value i of point p as the transfer showed it that wrote the newer complete copy (R280). -/
def State.shown (s : State) (p i : Nat) : Nat :=
  match s.newerCopy with
  | some c => (look (fun _ => []) s.totals.shots c).getD (11 * p + i) 0
  | none => 0

/-- An attribute of an object as numbers (R277, R279 to R281), all of one transfer; the logical name, and what no rule gives, follow from the object's
own numbers alone. -/
def State.cosemValue (s : State) (role attr : Nat) : CosemObj → List Nat
  | .total p i =>
    if attr = 2 then (s.newerCopy.map (fun c => (s.copyTotal c p i).1)).toList
    else if attr = 3 then milli (quantityUnit (i / 9)) else []
  | .maximum p i =>
    if attr = 2 then (s.newerCopy.map (fun c => (s.copyMax c p i).1)).toList
    else if attr = 3 then milli 27
    else if attr = 5 then (s.newerCopy.map (fun c => (s.copyMax c p i).2)).toList else []
  | .demand p c =>
    if attr = 2 then [s.shown p c]
    else if attr = 4 then milli 27
    else if attr = 8 then [s.fld (totA rTOT_DM_CFG) 15 0]
    else if attr = 9 then [s.fld (totA rTOT_DM_CFG) 23 16] else []
  | .phase p x φ => if attr = 2 then [s.shown p (2 + 3 * x + (φ - 1))] else []
  | .calendar p => ((s.progAt p s.tsuTime.sec).getD []).map (·.toNat)
  | .deviceName => []
  | .clock => if attr = 2 then [s.tsuTime.sec] else []
  | .association => [role]
  | .security => [role]

/-- One item of a get-response: data, or read-write-denied. -/
def State.cosemGet (s : State) (role : Nat) (x : CosemItem) : List Nat :=
  match objectOf x with
  | none => [1]
  | some o =>
    if mayRead role o x.index.toNat then [0, x.cls.toNat, x.name.toNat, x.index.toNat] ++ s.cosemValue role x.index.toNat o else [1]

/-- A maximum reset (R281): 0, and the count of sub-periods starts again. -/
def State.resetMax (s : State) (p i : Nat) : State :=
  let x := s.tpt p
  s.setTpt p { x with max := Machine.store (fun _ => (0, 0)) x.max i (0, 0), dmCount := 0 }

/-! ### Roles' counters (R276) -/

/-- Where a role's reservation lies. -/
def roleAt (k : Nat) : Nat := 0x1F3000 + 16 * k

/-- A role's counter. -/
def State.roleCtr (s : State) (k : Nat) : RoleCtr := look (fun _ => ⟨0, 0, false, false⟩) s.work.roles k

/-- A role's counter set. -/
def State.setRoleCtr (s : State) (k : Nat) (c : RoleCtr) : State :=
  { s with work := { s.work with roles := place k c (drop s.work.roles k) } }

/-- May a role cipher an answer now: below the last limit answered, and not refused. -/
def RoleCtr.ready (c : RoleCtr) : Bool := !c.dead && c.next < c.limit

/-- The next counter used: at the limit − 1,024 the serving lay asks for the next block (R276 step 2). -/
def RoleCtr.use (c : RoleCtr) : RoleCtr := { c with next := c.next + 1, asked := c.asked || decide (c.limit ≤ c.next + 1 + 1024) }

/-- The Lanyard-facing splice of the serving lay, down from the Lanyard or up to it, where the rigging claims one (R276). -/
def State.lanySplice (s : State) (down : Bool) : Option Nat :=
  ((List.range 128).map (6208 + ·)).find? (fun n =>
    let e := descA n 1
    s.splEn n && (if down then s.fld e 12 8 = 0 && fieldLay (s.fld e 2 0) else s.fld e 28 24 = 0 && fieldLay (s.fld e 18 16)))

/-- A cell on the serving lay's Lanyard-facing splice (R276): k is the role, what it tells follows. -/
def State.roleTell (s : State) (down : Bool) (what : List Nat) : State :=
  match s.lanySplice down with
  | some n => s.offer n (mkCompletion 0 0 ((Config.lanyWords what).map (·.toNat)))
  | none => s

/-- Has the serving lay asked for a role's next block, and has its cell come to the Lanyard (R276 step 2). -/
def State.roleAsked (s : State) (k : Nat) : Bool :=
  (s.roleCtr k).asked && (s.lanySplice false).all (fun n => (s.peekCell n 0).isSome)

/-- The Lanyard takes the cell that asks. -/
def State.askTaken (s : State) : State := match s.lanySplice false with
  | some n => (s.pop n).2
  | none => s

/-- A ciphered answer sent under the role's next counter, or kept until the limit moves; the counter that comes to its limit − 1,024 asks. -/
def State.cipherAnswer (s : State) (w : Waiting) : State :=
  let c := s.roleCtr w.role
  if c.ready then
    let s := if c.use.asked && !c.asked then s.roleTell false [w.role] else s
    (s.setRoleCtr w.role c.use).offerAll w.splice (messageCells w.session w.tag (Config.dlmsBytes (w.role :: c.next :: w.content)))
  else { s with work := { s.work with waiting := s.work.waiting ++ [w] } }

/-- The answers of a role that waited, tried again in order. -/
def State.resumeAnswers (s : State) (k : Nat) : State :=
  let l := s.work.waiting.filter (fun w => w.role = k)
  l.foldl (fun s w => s.cipherAnswer w) { s with work := { s.work with waiting := s.work.waiting.filter (fun w => w.role ≠ k) } }

/-- A role's counter at a rigging start (R276 step 1). -/
def RoleCtr.fresh (first limit : Nat) : RoleCtr := ⟨first, limit, false, false⟩

/-- A role's counter with a new limit answered. -/
def RoleCtr.answered (c : RoleCtr) (limit : Nat) : RoleCtr := { c with limit, asked := false }

/-- The first counter and the limit of a role handed to the serving lay at a rigging start (R276 step 1). -/
def State.roleStart (s : State) (k first limit : Nat) : State :=
  ((s.setRoleCtr k (RoleCtr.fresh first limit)).roleTell true [k, first, limit]).resumeAnswers k

/-- A new limit answered (R276 step 3). -/
def State.roleAnswer (s : State) (k limit : Nat) : State :=
  ((s.setRoleCtr k ((s.roleCtr k).answered limit)).roleTell true [k, limit]).resumeAnswers k

/-- A refusal answered (R276): no ciphered APDU until the next rigging start. -/
def State.roleRefuse (s : State) (k : Nat) : State :=
  ((s.setRoleCtr k { s.roleCtr k with dead := true, asked := false }).roleTell true [k]).lanyEvent 0x35 [k]

/-- ROLE_RESERVATION (R276): start: at a rigging start, with the stored limit as the first counter; else the next block, which the serving lay has
asked for. fails: the read-backs that failed. -/
def execRoleReservation (role : Fin 5) (start : Bool) (fails : Fin 3) (s : State) : Res :=
  let k := role.val
  let res := (s.reserved (roleAt k)).getD 0
  let limit := (if start then res else (s.roleCtr k).limit) + 4096
  .next (if !s.domOn 1 || !s.domOn 2 || (!start && (k = 0 || !s.roleAsked k || s.limitBars (5 + k))) then s
    else if start && s.limitBars (5 + k) then s.roleStart k res res
    else
      let s := if start then s else s.askTaken
      if fails.val = 2 then s.roleRefuse k
      else
        let s := s.reserve (roleAt k) limit
        if s.pairEn then (if start then s.roleStart k res res else s).limitSend (5 + k) limit
        else if start then s.roleStart k res limit
        else s.roleAnswer k limit)

/-! ### Requests (R274, R275, R277, R278) -/

/-- An association set or ended. -/
def State.setSession (s : State) (k : Nat) (x : Option Sess) : State :=
  let rest := drop s.work.sessions k
  { s with work := { s.work with sessions := match x with | some x => place k x rest | none => rest } }

/-- A key of a role loaded through the serving lay's key port (R275): none where the slot is not READY for it. -/
def State.roleLoad (s : State) (lay slot : Nat) : Option (List Byte) × State :=
  let (k, s) := s.serveLoad lay ⟨0, 0, 0, BitVec.ofNat 64 slot, 0, 0, false⟩
  (if k.st = .ready then some (keyBytes k) else none, s.countLoad lay ((s.lay lay).keyq.length + 1) k.st)

/-- A role's authentication key and unicast key, from the slots a host command has named (R275). -/
def State.roleKeys (s : State) (lay role : Nat) : Option (List Byte × List Byte) × State :=
  match s.work.roleKeys.find? (fun e => e.1 = role) with
  | none => (none, s)
  | some (_, a, u) =>
    let (ak, s) := s.roleLoad lay a
    let (uk, s) := s.roleLoad lay u
    (ak.bind (fun x => uk.map (fun y => (x, y))), s)

/-- The security header of a client's frame: general-glo-ciphering, or the global ciphering of a get, set or action request, in a wrapper. -/
def cosemHdr (l : List Byte) : Option SecHdr :=
  let a := if be l 0 2 = 1 then l.drop 8 else l
  if be a 0 2 = 0xDB08 then secOf a
  else if be a 0 1 = 0xC8 ∨ be a 0 1 = 0xC9 ∨ be a 0 1 = 0xCB then secBody none (a.drop 1)
  else none

/-- Does a request carry the protection its role requires, and does that verify under the role's keys (R275). -/
def State.protectionOk (s : State) (lay role : Nat) (h : Option SecHdr) (title : Word64) : Bool × State :=
  if role = 0 then (true, s)
  else match h with
    | none => (false, s)
    | some h =>
      if !h.accepted || (roleNeeds role = 2 && !h.sc.testBit 5) then (false, s)
      else match s.roleKeys lay role with
        | (none, s) => (false, s)
        | (some (ak, uk), s) => (h.tagOk uk ak (h.title.getD title), s)

/-- HLS mechanism 5 (R275): the client's GMAC over the server's challenge. -/
def hlsOk (ak uk : List Byte) (title : Word64) (challenge : List Byte) (sc ic tag : Nat) : Bool :=
  sc % 16 ≤ 1 && (gcmTag uk (toLe 8 title.toNat ++ toBe 4 ic) (toBe 1 sc ++ ak ++ challenge) []).take 12 = toBe 12 tag

/-- May an association begin (R275): PUBLIC's always, another's by HLS mechanism 5. -/
def State.mayAssociate (s : State) (lay role : Nat) (title : Word64) (challenge : List Byte) (sc ic tag : Nat) : Bool × State :=
  if role = 0 then (true, s)
  else match s.roleKeys lay role with
    | (none, s) => (false, s)
    | (some (ak, uk), s) => (hlsOk ak uk title challenge sc ic tag, s)

/-- What a service of an association does and answers: the content of the answer (log entry 13); [1, 2] is an exception-response with
service-not-supported (R277). -/
def State.cosemServe (s : State) (k : Nat) (x : Sess) (sv : CosemService) : List Nat × State :=
  match sv with
  | .associate _ _ _ _ => ([4, 1], s)
  | .release => ([5], s.setSession k none)
  | .get items => if items.length ≤ 16 then (2 :: items.flatMap (s.cosemGet x.role), s) else ([1, 2], s)
  | .action it =>
    match objectOf it with
    | some (.maximum p i) =>
      if mayAct x.role (.maximum p i) it.index.toNat then ([3, 0], s.resetMax p i) else ([3, 1], s)
    | _ => ([3, 1], s)
  | .other => ([1, 2], s)

/-- A request of an association that has been found, its protection checked: served and answered. -/
def State.cosemAnswer (s : State) (lay out : Nat) (c : Cell512) (x : Sess) (h : Option SecHdr) (r : CosemRequest) : State :=
  let k := cellChan c % 64
  let plain (s : State) (content : List Nat) : State :=
    s.offerAll out (messageCells (cellChan c) (cellAux c) (Config.dlmsBytes (0 :: 0 :: content)))
  match s.protectionOk lay x.role h r.title with
  | (false, s) => plain s [1, 1]
  | (true, s) =>
    let (content, s) := (s.setSession k (some { x with last := s.tsuTime.sec })).cosemServe k x r.service
    if x.role = 0 then plain s content else s.cipherAnswer ⟨x.role, cellChan c, cellAux c, out, content, s.now⟩

/-- COSEM_REQUEST (R274 to R278): the serving lay pops a client's frame from a ring and answers on the paired one, carrying back the session
and the tag. A request with no association, or whose protection is not the role's, is answered by an exception. -/
def execCosemRequest (ring reply : Fin 64) (r : CosemRequest) (t : Nat) (s : State) : Res :=
  let s := s.at t
  .next (match (s.ringOwner ring.val reply.val).filter fieldLay with
    | none => s
    | some lay => match s.popMessage (6144 + ring.val) 256 with
      | ([], s) => s
      | (c :: cs, s) =>
        let k := cellChan c % 64
        let out := 6144 + reply.val
        let plain (s : State) (content : List Nat) : State :=
          s.offerAll out (messageCells (cellChan c) (cellAux c) (Config.dlmsBytes (0 :: 0 :: content)))
        let h := cosemHdr ((c :: cs).flatMap (fun c => cellBytes c (min 56 (cellLen c))))
        match roleOf r.sap.toNat, r.service with
        | none, _ => plain s [1, 1]
        | some role, .associate challenge sc ic tag =>
          let (ok, s) := s.mayAssociate lay role r.title challenge sc.toNat ic.toNat tag.toNat
          plain (s.setSession k (if ok then some ⟨role, s.tsuTime.sec⟩ else none)) [4, ok.toNat]
        | some role, _ => match (s.work.sessions.find? (fun e => e.1 = k && e.2.role = role)).map (·.2) with
          | none => plain s [1, 1]
          | some x => s.cosemAnswer lay out c x h r)

/-- ASSOCIATION_TIMEOUT (R274, R276): 120 s without a request; the answers it waited for are dropped. -/
def execAssociationTimeout (session : Fin 64) (t : Nat) (s : State) : Res :=
  let s := s.at t
  .next (match s.work.sessions.find? (fun e => e.1 = session.val) with
    | none => s
    | some (_, x) =>
      if s.tsuTime.sec < x.last + 120 then s
      else
        let s := s.setSession session.val none
        { s with work := { s.work with waiting := s.work.waiting.filter (fun w => w.session % 64 ≠ session.val) } })

end Sys2Proof.Machine
end

