-- ==== Sys2Proof/Machine/Pair.lean ====
section
/-! DEFINITION. Redundant pair operation (R568 to R593): roles, the link, the cleat, replication, the standby, the return of a part. -/

namespace Sys2Proof.Machine

/-- A register of the LEASE page. -/
abbrev leA (o : Nat) : Nat := pa .lease 0 o

/-! ### Roles, epochs, the fence (R568, R569, R574, R577, R578) -/

/-- The role changed: its interrupt and event 0x50. -/
def State.setRole (s : State) (r : Nat) : State :=
  if s.role = r then s else ((s.putF (leA rLEASE_STAT) 2 0 r).irq .lease 0 0).lanyEvent 0x50 []

/-- An epoch stored (R577). -/
def State.storeEpoch (s : State) (v : Nat) (fail : Bool) : State :=
  let s := s.pairStore 0x1F2000 v fail
  if fail then s.cause .lease 0 1 else s

/-- The new epoch of a part that takes over or is forced (R578): true where it is stored. -/
def State.newEpoch (s : State) (fail : Bool) : Bool × State :=
  let s := s.storeEpoch (max s.epoch (s.rd (leA rLEASE_PEER_EPOCH)).toNat + 1) fail
  (!fail, if fail then s else s.lanyEvent 0x53 [])

/-- The part fences itself (R574, R576): conflict: two parts claim service, else the lease has lapsed. Ports read the role. -/
def State.fence (s : State) (conflict : Bool) : State :=
  let s := { s with pair := { s.pair with expiry := 0, renews := [] } }
  let s := ((s.setRole 5).bump (leA rLEASE_FENCE_CNT) 1).irq .lease 0 1
  let s := (s.cause .lease 0 (if conflict then 2 else 0)).lanyEvent 0x51 []
  if s.domOn 1 then s.closeAll else s

/-- Has the active's lease lapsed (R574). -/
def State.leaseDue (s : State) : Bool := decide (s.role = 2) && decide (s.pair.expiry ≠ 0) && decide (s.pair.expiry ≤ s.now)

/-- The part becomes ACTIVE (R572, R578, R593): no lease runs until a RENEW is granted; INGEST opens where a rigging runs. -/
def State.becomeActive (s : State) : State :=
  let s := { s with pair := { s.pair with expiry := 0, renews := [], granted := 0, grantAt := none } }
  let s := s.setRole 2
  if s.rig.running && s.domOn 1 then s.openSequence else s

/-- The domains off in STANDBY (R583). -/
def standbyOff : List Nat := [3, 4, 5, 6, 7, 8, 9, 10, 12, 13, 14, 16, 17]

/-- The part enters STANDBY (R573, R583, R589): it stores the peer's epoch, stops its lays and turns off all but SYS, MGMT, STORE and NET. -/
def State.enterStandby (s : State) : State :=
  let s := (s.setRole 3).storeEpoch (s.rd (leA rLEASE_PEER_EPOCH)).toNat false
  let s := { s with pair := { s.pair with expiry := 0, testAt := s.now + 600000000000, test := none } }
  let s := s.putBit (leA rLEASE_STAT) 8 false
  standbyOff.foldl (fun s d => s.turnOff d) s.stopAll

/-- A write of LEASE_CTRL (R569, R592). -/
def State.leaseCtrl (s : State) (q : Requester) (v : Word32) : State :=
  s.guarded q (leA rLEASE_CTRL) v (s.pairEn && !bit v 0 && !(s.role = 1 || s.role = 5)) fun s =>
    let was := s.pairEn
    let s := s.plain (leA rLEASE_CTRL) (v.setWidth 64)
    if bit v 0 && !was then s.setRole 1 else if !bit v 0 && was then s.setRole 0 else s

/-- LEASE_ENABLE (R569). -/
def execLeaseEnable (q : Requester) (pref : Bool) (s : State) : Res := .next (s.leaseCtrl q (BitVec.ofNat 32 (1 + 2 * pref.toNat)))

/-- LEASE_DISABLE (R592). -/
def execLeaseDisable (q : Requester) (pref : Bool) (s : State) : Res := .next (s.leaseCtrl q (BitVec.ofNat 32 (2 * pref.toNat)))

/-! ### The link (R570 to R572) -/

/-- The PAIR engine's key, loaded where it holds none (R571, R461). -/
def State.pairLoadKey (s : State) : State :=
  let i := s.fld (prA rPAIR_KEYSLOT) 11 0
  if !s.bitAt (prA rPAIR_KEYSLOT) 31 || s.copies.any (fun e => e.1 = 13 * 16) || !s.domOn 16 then s
  else
    let s := (s.readSlot i).2
    match s.useSlot i 13 1 false with
    | some x => s.afterUse i (some x)
    | none => { s with copies := place (13 * 16) (s.readyReg i (s.slot i).bytes) s.copies }

/-- A write of PAIR_KEYSLOT: the engine's copy goes. -/
def State.pairKeySlot (s : State) (q : Requester) (v : Word32) : State :=
  s.guarded q (prA rPAIR_KEYSLOT) v false fun s =>
    { s.plain (prA rPAIR_KEYSLOT) (v.setWidth 64) with copies := drop s.copies (13 * 16) }

/-- A received frame of a type and body (R571): its effect where it verifies under a counter above the last; an uncorrectable buffer word counts as
a failure. -/
def State.pairTake (s : State) (h : PairHead) (type : Nat) (body : List Byte) (eff : State → State) : State :=
  let s := s.pairLoadKey
  if !s.pairOn then s
  else
    let (c, s) := s.inject .pair 0 3 4
    let s := if c = 1 then s.cause .pair 0 3 else if c = 2 then s.cause .pair 0 4 else s
    if c = 2 || !s.pairGood h type body || (decide (h.session.toNat = s.pair.peerSession) && decide (h.fctr.toNat ≤ s.pair.peerCtr)) then
      (s.pairCount 2).cause .pair 0 1
    else eff { s with pair := { s.pair with peerSession := h.session.toNat, peerCtr := h.fctr.toNat } }

/-- The pages that wait for the peer's answer, forgotten. -/
def State.clearOut (s : State) : State := { s with pair := { s.pair with out := [] } }

/-- Every page that waits for the peer's answer completes PARTNER_FAIL (R579). -/
def State.failOutstanding (s : State) : State :=
  s.pair.out.foldl (fun s o => s.partnerFail o.req o.lbn o.page) s.clearOut

/-- What the link held of its peer's doings, forgotten. -/
def State.clearLink (s : State) : State :=
  { s with pair := { s.pair with seen := none, salvage := none, catchup := none } }

/-- A part that handed over pages stays out when the link goes (R590). -/
def State.salvageBroken (s : State) (salvaging : Bool) : State :=
  if salvaging && s.role == 3 then s.setRole 5 else s

/-- The link goes down (R570, R579, R590). -/
def State.linkDown (s : State) : State :=
  if !s.bitAt (prA rPAIR_STAT) 2 then s
  else
    (((((s.putBit (prA rPAIR_STAT) 2 false).irq .pair 0 0).lanyEvent 0x54 []).clearLink).failOutstanding).salvageBroken
      s.pair.salvage.isSome

/-- PAIR_LINK_DOWN (R570). -/
def execPairLinkDown (t : Nat) (s : State) : Res :=
  let s := s.at t
  .next (if s.domOn 11 && s.pair.seen.all (fun x => decide (x + 100000000 ≤ s.now)) then s.linkDown else s)

/-- LANE_DOWN (R570): a lane loses or regains its alignment. -/
def execLaneDown (lane : Fin 2) (up : Bool) (s : State) : Res :=
  .next (if !s.domOn 11 then s
    else if up then
      (if s.bitAt (prA 0x00C) 0 && s.bitAt (prA rPAIR_CTRL) (lane.val + 1) then s.putBit (prA rPAIR_STAT) lane.val true else s)
    else if !s.bitAt (prA rPAIR_STAT) lane.val then s
    else
      let s := (s.putBit (prA rPAIR_STAT) lane.val false).cause .pair 0 0
      if s.lanesUp = [] then s.linkDown else s)

/-- Lane i goes down where its enable bit is 0 (R570, R593). -/
def State.laneOff (s : State) (i : Nat) : State :=
  if s.bitAt (prA rPAIR_CTRL) (i + 1) || !s.bitAt (prA rPAIR_STAT) i then s
  else
    let s := (s.putBit (prA rPAIR_STAT) i false).cause .pair 0 0
    if s.lanesUp = [] then s.linkDown else s

/-- A write of PAIR_CTRL (R593): a lane that is not enabled is not driven. -/
def State.pairCtrl (s : State) (q : Requester) (v : Word32) : State :=
  s.guarded q (prA rPAIR_CTRL) v false fun s => ((s.plain (prA rPAIR_CTRL) (v.setWidth 64)).laneOff 0).laneOff 1

/-- A write of BLK_CTRL.EN of PAIR: while it is 0 no lane is driven. -/
def State.pairEnable (s : State) (q : Requester) (v : Word32) : State :=
  s.guarded q (prA 0x00C) v false fun s =>
    let s := s.putBit (prA 0x00C) 0 (bit v 0)
    if bit v 0 then s else (s.putF (prA rPAIR_STAT) 1 0 0).linkDown

/-- The HELLO the part sends (R571). -/
def State.ownHello (s : State) : HelloBody :=
  ⟨s.viewWide (pa .chip 0 rCHIP_SERIAL), s.view (pa .chip 0 rCHIP_HWTYPE), s.rd (nandA rNAND_FIT), Fin.ofNat 6 s.role, BitVec.ofNat 32 s.epoch,
    s.bitAt (leA rLEASE_CTRL) 1, s.bitAt (leA rLEASE_STAT) 8⟩

/-- The pages of a stream set in order of SEQ: where they lie, their records. -/
def State.pagesOfStreams (s : State) (l : List Nat) (from_ : Nat) : List (Nat × PageRec) :=
  let keep (e : Nat × Block) : Bool :=
    l.contains e.2.stream && (e.2.st == .opened || e.2.st == .live || e.2.st == .relocating) &&
      !s.nand.reloc.any (fun r => r.dst == some e.1)
  let all : List (Nat × PageRec) := (s.nand.blocks.filter keep).flatMap fun (e : Nat × Block) =>
    (e.2.pages.filter (fun (p : PageRec) => decide (from_ ≤ p.seq))).map fun (p : PageRec) => (pageAddr e.1 p.page, p)
  all.insertionSort fun (a b : Nat × PageRec) => a.2.seq ≤ b.2.seq

/-- Where a page lies and its record, by LBN and PAGE. -/
def State.pageAt (s : State) (lbn page : Nat) : Option (Nat × PageRec) :=
  (s.lbnBlock lbn).bind fun (e : Nat × Block) => (e.2.pages[page]?).map fun (p : PageRec) => (pageAddr e.1 page, p)

/-- A stored page sent in a frame of a type. -/
def State.sendStored (s : State) (type : Nat) (x : Nat × Nat) : State :=
  match s.pageAt x.1 x.2 with
  | none => s
  | some (a, p) => s.sendPage type p (s.bytes .nand a 16384)

/-- The CATCHUP frames of 20 ms at 800 MB/s (R589). -/
def catchupBurst : Nat := 974

/-- HELLO_SEND (R571): 20 ms after the last, with the catch-up pages of the same 20 ms (R589). -/
def execHelloSend (t : Nat) (s : State) : Res :=
  let s := (s.at t).pairLoadKey
  .next (if !s.pairOn || decide (s.now < s.timer (prA rPAIR_STAT)) then s
    else
      let s := (s.setTimer (prA rPAIR_STAT) (s.now + 20000000)).pairSend 1 (helloBytes s.ownHello) false
      match s.pair.catchup with
      | none => s
      | some l =>
        if !s.peerReady then s
        else
          let s := (l.take catchupBurst).foldl (fun s x => s.sendStored 0x0A x) s
          { s with pair := { s.pair with catchup := some (l.drop catchupBurst) } })

/-- Does the part win the election over its peer (R572). -/
def State.winsOver (s : State) (b : HelloBody) : Bool :=
  let pref := s.bitAt (leA rLEASE_CTRL) 1
  if s.epoch ≠ b.epoch.toNat then decide (b.epoch.toNat < s.epoch)
  else if pref ≠ b.pref then pref
  else decide ((s.viewWide (pa .chip 0 rCHIP_SERIAL)).toNat < b.serial.toNat)

/-- A RENEW sent (R573). -/
def State.renew (s : State) : State :=
  let n := s.rd (leA rLEASE_RSEQ) + 1
  let s := s.wr (leA rLEASE_RSEQ) n
  let s := { s with pair := { s.pair with renews := (s.pair.renews ++ [(n.toNat, s.now)]).filter (fun e => decide (s.pair.granted < e.1)) } }
  (s.pairCount 0).pairSend 2 (toBe 4 n.toNat ++ toBe 4 s.epoch) true

/-- A returning part hands over what it may hold alone (R590): SALVAGE frames of stream 0 from SOLO_SEQ on. -/
def State.salvageStart (s : State) : State :=
  let l : List (Nat × Nat) := match s.soloSeq with
    | none => []
    | some q => (s.pagesOfStreams [0] q).map (fun (e : Nat × PageRec) => (e.2.lbn, e.2.page))
  l.foldl (fun s x => s.sendStored 0x0B x) { s with pair := { s.pair with salvage := some l } }

/-- What a HELLO that fits may start (R572, R589, R590). -/
def State.helloActs (s : State) (b : HelloBody) : State :=
  let s := if s.role = 2 ∧ b.role.val = 3 then s.setSolo none else s
  if s.role = 1 ∧ b.role.val = 1 then (if s.winsOver b then s.becomeActive.renew else s)
  else if s.role = 5 ∧ b.role.val = 2 ∧ s.epoch < b.epoch.toNat ∧ !s.pair.stayOut then s.enterStandby.salvageStart
  else if s.role = 2 ∧ b.role.val = 3 then
    if b.caughtUp then { s with pair := { s.pair with catchup := none } }
    else if s.pair.catchup.isSome then s
    else { s with pair := { s.pair with catchup := some ((s.pagesOfStreams [0, 1, 2] 0).map (fun e => (e.2.lbn, e.2.page))) } }
  else s

/-- HELLO (R570 to R572). -/
def execHello (h : PairHead) (b : HelloBody) (t : Nat) (s : State) : Res :=
  .next ((s.at t).pairTake h 1 (helloBytes b) fun s =>
    let bad := b.hwtype ≠ s.view (pa .chip 0 rCHIP_HWTYPE) || b.fit ≠ s.rd (nandA rNAND_FIT)
    let s := { s with pair := { s.pair with seen := some s.now, peer := some b, told := false } }
    let s := (s.wr (leA rLEASE_PEER_EPOCH) b.epoch).wr64 (prA rPAIR_PEER_SERIAL) b.serial
    let s := if bad && !s.bitAt (prA rPAIR_STAT) 3 then (s.cause .pair 0 2).lanyEvent 0x57 [] else s
    let s := s.putBit (prA rPAIR_STAT) 3 bad
    let s := if s.linkUp then s else (((s.putBit (prA rPAIR_STAT) 2 true).irq .pair 0 0).newSession).lanyEvent 0x55 []
    let s := if s.peerReady then s else s.failOutstanding
    if bad then s else s.helloActs b)

/-! ### The cleat (R573 to R576) -/

/-- RENEW_SEND (R573): 500 ms after the last. -/
def execRenewSend (t : Nat) (s : State) : Res :=
  let s := s.at t
  .next (if s.role ≠ 2 then s
    else if s.leaseDue then s.fence false
    else if s.pair.renews.any (fun e => decide (s.now < e.2 + 500000000)) then s
    else s.renew)

/-- A RENEW granted (R573): the takeover time is 3,000 ms from now. -/
def State.grant (s : State) (rseq : Nat) : State :=
  let s := s.wr (leA rLEASE_RSEQ) (BitVec.ofNat 32 rseq)
  let s := { s with pair := { s.pair with granted := rseq, expiry := s.now + 3000000000 } }
  (s.pairCount 1).pairSend 3 (toBe 4 rseq) true

/-- RENEW (R573, R576). -/
def execRenew (h : PairHead) (rseq epoch : BitVec 32) (t : Nat) (s : State) : Res :=
  .next ((s.at t).pairTake h 2 (toBe 4 rseq.toNat ++ toBe 4 epoch.toNat) fun s =>
    let s := s.wr (leA rLEASE_PEER_EPOCH) epoch
    let e := epoch.toNat
    if s.role = 2 ∨ s.role = 4 then (if s.epoch ≤ e then s.fence true else s)
    else if e < s.epoch then s
    else if s.role = 1 then s.enterStandby.grant rseq.toNat
    else if s.role = 3 then s.grant rseq.toNat
    else s)

/-- GRANT (R573): the lease runs 2,000 ms from the moment its RENEW was sent; at the lease's end it changes nothing. -/
def execGrant (h : PairHead) (rseq : BitVec 32) (t : Nat) (s : State) : Res :=
  .next ((s.at t).pairTake h 3 (toBe 4 rseq.toNat) fun s =>
    if s.role ≠ 2 then s
    else if s.leaseDue then s.fence false
    else
      let s := s.pairCount 1
      match s.pair.renews.find? (fun e => e.1 = rseq.toNat) with
      | none => s
      | some (k, at_) =>
        if k ≤ s.pair.granted then s
        else { s with pair := { s.pair with granted := k, expiry := at_ + 2000000000, grantAt := some s.now
                                            renews := s.pair.renews.filter (fun e => decide (k ≤ e.1)) } })

/-- LEASE_EXPIRY (R574). -/
def execLeaseExpiry (t : Nat) (s : State) : Res :=
  let s := s.at t
  .next (if s.leaseDue then s.fence false else s)

/-- TAKEOVER_TIME (R575, R585 steps 1 to 3); epochFail: the new epoch fails its read-back twice. -/
def execTakeoverTime (epochFail : Bool) (t : Nat) (s : State) : Res :=
  let s := s.at t
  .next (if s.role ≠ 3 ∨ s.pair.expiry = 0 ∨ s.now < s.pair.expiry then s
    else
      let s := { s with pair := { s.pair with expiry := 0, test := none, salvage := none } }
      let s := (s.setRole 4).stopAll
      let s := (s.newEpoch epochFail).2.lanyEvent 0x52 []
      ([3, 4, 5, 6, 7, 8, 9, 10, 14, 16, 12, 13, 17] : List Nat).foldl (fun s d => s.turnOn d) s)

/-! ### Replication (R579 to R582) -/

/-- The block a mirrored page goes to (R580): none where its LBN is bound to another stream, the page is not the next unwritten one behind those on
their way, or no block is free. -/
def State.mirrorBlock (s : State) (p : PairPage) : Option (Nat × State) :=
  let stream := if p.stream.val = 1 then 1 else 2
  match s.lbnBlock p.lbn.toNat with
  | some (k, b) =>
    let next := b.pages.length + s.nand.mirror.countP (fun e => e.block = some k)
    if b.stream ≠ stream ∨ next ≠ p.page.toNat ∨ s.ppb ≤ next ∨ b.st ≠ .opened then none else some (k, s)
  | none =>
    if p.page.toNat ≠ 0 ∨ !s.nandTargets.contains p.target.val then none
    else (s.freeBlock p.target.val).map (fun k =>
      (k, (s.setBlk k { s.blk k with st := .opened, lbn := some p.lbn.toNat, stream := stream, pages := [] }).freeChanged))

/-- Is there room in the mirror buffer of 32 entries, with STORE ready to program (R519, R580). -/
def State.mirrorRoom (s : State) : Bool :=
  s.nandReady && decide (s.nand.mirror.length < 32) && !s.bitAt (pa .pwr 0 rPWR_STAT) 0

/-- A page that arrives at a STANDBY enters the mirror buffer and its program starts (R580): none where it is refused. -/
def State.mirror (s : State) (kind : Nat) (p : PairPage) (ck : Option (BitVec 16)) (last : Bool) : Option State :=
  if !s.mirrorRoom then none
  else (s.mirrorBlock p).map (fun x =>
    (x.2.setNand { x.2.nand with mirror := x.2.nand.mirror ++ [⟨kind, p, ck, last, some x.1, false⟩] }).startRun ⟨x.1 / 8192, 9, none, x.1⟩)

/-- A mirrored checkpoint page joins the pass it belongs to, which ends with the last of its pages (R272, R364, R580): ck: its number in the
pass. -/
def State.mirrorPass (s : State) (p : PairPage) (ck : Option (BitVec 16)) : State :=
  match ck with
  | none => s
  | some j =>
    let old := if j.toNat = 0 then (⟨s.nand.seq - 1, []⟩ : Pass) else s.work.pass.getD ⟨s.nand.seq - 1, []⟩
    let y : Pass := { old with pages := place j.toNat (p.lbn.toNat, p.page.toNat) (drop old.pages j.toNat) }
    if y.pages.length = passPages then { s with passes := (y :: s.passes).take 2, work := { s.work with pass := none } }
    else { s with work := { s.work with pass := some y } }

/-- PAGE (R580). -/
def execPage (h : PairHead) (p : PairPage) (ck : Option (BitVec 16)) (s : State) : Res :=
  .next (s.pairTake h 4 (pagePlain p) fun s =>
    if s.role ≠ 3 then s
    else
      let s := s.pairCount 3
      (s.mirror 4 p ck false).getD (s.verified p.lbn.toNat p.page.toNat 1))

/-- The metadata of a mirrored page: the frame's, but for SEQ (R580). -/
def State.mirrorRecord (s : State) (p : PairPage) (k : Nat) : PageRec :=
  let f (o n : Nat) : Nat := leNat ((p.record.drop o).take n)
  ⟨p.lbn.toNat, p.page.toNat, (s.blk k).stream, (f 6 1).testBit 3, s.nand.seq, f 16 4, f 24 16, s.nand.seq⟩

/-- The records of a page rolled into the meter table (R273, R590). -/
def State.rollPage (s : State) (data : List Byte) : State :=
  let rs := ((List.range 256).map (fun i => (data.drop (64 * i)).take 64)).filter (fun l => 1 ≤ leAt l 0 1 && leAt l 0 1 ≤ 5)
  if s.domOn 14 then rs.foldl (fun s r => s.rollRecord r) s else s

/-- A page of the mirror buffer that has verified in a block (R580, R589, R590). -/
def State.mirrorDone (s : State) (e : Mirrored) (k : Nat) : State :=
  let p := e.page
  let s := if e.kind = 11 then s.writePage k (leNat ((p.record.drop 24).take 16)) none p.data else s.storePage k (s.mirrorRecord p k) p.data
  if e.kind = 11 then (s.rollPage p.data).verified p.lbn.toNat p.page.toNat 0
  else
    let s := s.mirrorPass p e.ck
    if e.kind = 4 then s.verified p.lbn.toNat p.page.toNat 0
    else if e.last then (s.pairCount 6).putBit (leA rLEASE_STAT) 8 true
    else s.pairCount 6

/-- A page of the mirror buffer that is refused; a CATCHUP page is not answered. -/
def State.mirrorRefuse (s : State) (e : Mirrored) : State :=
  if e.kind = 10 then s else s.verified e.page.lbn.toNat e.page.page.toNat 1

/-- A program from the mirror buffer ends (R580): repeated once after a failed verify, then refused; a page behind one that was refused is no
longer the next and is refused with it. -/
def State.mirrorEnd (s : State) (x : NandRun) (good : Bool) : State :=
  match s.nand.mirror.find? (fun e => e.block = some x.block) with
  | none => s.endRun x
  | some e =>
    if !good && !e.failed then s.setNand { s.nand with mirror := s.nand.mirror.replace e { e with failed := true } }
    else
      let s := (s.endRun x).setNand { (s.endRun x).nand with mirror := s.nand.mirror.erase e }
      if !good || (e.kind != 11 && (s.blk x.block).pages.length != e.page.page.toNat) then s.mirrorRefuse e else s.mirrorDone e x.block

/-- NAND_PROGRAM_COMPLETE (R506, R580): ok: the program itself; decodes: every codeword decodes in the verify; corr: the largest
correction count of the verify. -/
def execNandProgramComplete (target : Fin 32) (ok decodes : Bool) (corr : Fin 65) (s : State) : Res :=
  let bad := !decodes || s.fld (nandA rNAND_ECC) 7 0 < corr.val
  .next (match s.runOf target.val (fun r => r.cls = 1 || r.cls = 3 || r.cls = 9) with
    | none => s
    | some x => match x.req with
      | none =>
        let s := if ok && !bad then s else (s.nandCount (if ok then 2 else 1)).cause .nand 0 3
        s.mirrorEnd x (ok && !bad)
      | some r =>
        let s := s.endRun x
        if !ok then s.programFailed x r false
        else if bad then s.programFailed x r true
        else
          let b := s.blk x.block
          let page := b.pages.length
          let seq := s.nand.seq
          let s := s.writePage x.block (if r.op = 2 then tornRecords r else r.user) none r.image
          s.nandDone r 0 (b.lbn.getD 0) page seq target.val corr.val)

/-- The limit that a VERIFIED answers comes into force (R581): 0 to 3 RADIO, 4 PLC, 5 + k role k. -/
def State.limitUse (s : State) (i : Nat) : State :=
  match s.pair.limits.find? (fun e => e.1 = i) with
  | none => s
  | some (_, r) =>
    let s := { s with pair := { s.pair with limits := s.pair.limits.filter (fun e => e.1 ≠ i) } }
    if i ≤ 4 then s.txresUse i r
    else s.roleAnswer (i - 5) r

/-- VERIFIED (R579, R581, R590): the answer to a PAGE, a SALVAGE or a RESERVE frame; a refused SALVAGE page is sent again. -/
def execVerified (h : PairHead) (reserve : Bool) (lbn : BitVec 18) (page : BitVec 10) (refused : Bool) (s : State) : Res :=
  .next (s.pairTake h 5 (verifiedBody (if reserve then 2 ^ 32 - 1 else lbn.toNat) page.toNat refused.toNat) fun s =>
    let s := s.pairCount 4
    let at_ := (lbn.toNat, page.toNat)
    if reserve then s.limitUse page.toNat
    else match s.pair.out.find? (fun o => o.lbn = at_.1 && o.page = at_.2) with
      | some o =>
        let s := { s with pair := { s.pair with out := s.pair.out.erase o } }
        if refused then s.partnerFail o.req o.lbn o.page
        else s.kindOne o.req 0 o.lbn o.page (s.pageSeq o.lbn o.page) (((s.lbnBlock o.lbn).map (·.1)).getD 0 / 8192)
      | none =>
        if !s.pair.salvage.any (fun l => l.contains at_) then s
        else if refused then s.sendStored 0x0B at_
        else { s with pair := { s.pair with salvage := s.pair.salvage.map (fun l => l.erase at_) } })

/-- PARTNER_FAIL (R579): the peer cannot take the pages that wait for it. -/
def execPartnerFail (s : State) : Res := .next (if s.domOn 11 && !s.peerReady then s.failOutstanding else s)

/-- PAIR_RELEASE (R580). -/
def execPairRelease (h : PairHead) (lbn : BitVec 18) (s : State) : Res :=
  .next (s.pairTake h 6 (toBe 4 lbn.toNat) fun s =>
    if s.role ≠ 3 then s
    else match s.lbnBlock lbn.toNat with
      | none => s
      | some (k, _) => s.releaseLive k)

/-- RESERVE (R581): the limit is stored and answered; the answer names the index as its PAGE (log entry 30). -/
def execReserve (h : PairHead) (i : Fin 10) (limit : BitVec 32) (s : State) : Res :=
  .next (s.pairTake h 7 (toBe 1 i.val ++ toBe 4 limit.toNat) fun s =>
    if s.role ≠ 3 then s else (s.reserve (0x1F2100 + 16 * i.val) limit.toNat).verified (2 ^ 32 - 1) i.val 0)

/-- The pieces of a settings image held at a STANDBY (R582): they follow one another from offset 0. -/
def State.setPieces (s : State) (l : List Byte) : State := { s with pair := { s.pair with pieces := l } }

/-- SETTINGS (R582): a piece of the image; image: what the image says that the piece completes, which is written where the pieces held are its
bytes; ok: the copy's read-back agrees. -/
def execSettings (h : PairHead) (offset : BitVec 32) (piece : List (BitVec 8)) (image : Option Settings) (ok : Bool) (s : State) : Res :=
  .next (s.pairTake h 8 (toBe 4 offset.toNat ++ piece) fun s =>
    let held := if offset.toNat = 0 then [] else s.pair.pieces
    if s.role ≠ 3 ∨ offset.toNat % 1024 ≠ 0 ∨ held.length ≠ offset.toNat then s
    else
      let s := s.setPieces (held ++ piece)
      match image with
      | none => s
      | some x => if settingsBody x = held ++ piece then (s.setPieces []).settingsWrite x ok else s)

/-! ### The standby (R583, R588) -/

/-- The health body (R588). -/
def State.healthBody (s : State) : List Byte :=
  let flags := s.fld (leA rLEASE_STAT) 8 8 + s.linkUp.toNat * 2 + s.fld (prA rPAIR_STAT) 3 3 * 4 + (decide (s.lanesUp.length = 1)).toNat * 8
  let clock := if s.netOn && s.bitAt (pa .tsu 0 rTSU_STAT) 3 then s.tsuTime.sec else s.rtcSec
  toLe 8 (s.viewWide (pa .chip 0 rCHIP_SERIAL)).toNat ++ toLe 4 s.epoch ++ toLe 1 s.role ++ toLe 1 flags ++ toLe 1 s.pair.passed ++
  toLe 1 s.pair.failed ++ toLe 8 (s.rd64 (pa .fc 0 rFC_STATUS)).toNat ++
  toLe 4 (s.fld (pa .sens 0 rSENS_T_ALARM) 11 0 + s.fld (pa .sens 0 rSENS_V_ALARM) 19 0 * 2 ^ 12) ++
  toLe 4 ((s.nandTargets.map s.freeBlocks).sum) ++ toLe 4 s.nand.mirror.length ++ toLe 4 (s.rd (pa .evr 0 rEVR_HEAD)).toNat ++ toLe 8 (clock % 2 ^ 48) ++
  List.replicate 16 0

/-- The destination of the health datagrams: byte 0 of the address in bits 31:24 of PAIR_HEALTH_IP3. -/
def State.healthDst (s : State) : BitVec 128 :=
  BitVec.ofNat 128 (leNat ((List.range 4).flatMap (fun j => toBe 4 (s.rd (prA (rPAIR_HEALTH_IP + 4 * (3 - j)))).toNat)))

/-- HEALTH_SEND (R588): 1 s after the last, the body over the link, from a STANDBY also as a datagram; an active whose peer has been silent for 3 s notices it once. -/
def execHealthSend (t : Nat) (s : State) : Res :=
  let s := s.at t
  .next (if (s.role ≠ 2 ∧ s.role ≠ 3) ∨ s.now < s.timer (prA rPAIR_HEALTH_DST) then s
    else
      let l := s.healthBody
      let s := (s.setTimer (prA rPAIR_HEALTH_DST) (s.now + 1000000000)).pairSend 9 l false
      let dst := s.rd (prA rPAIR_HEALTH_DST)
      if s.role = 3 then
        (if bit dst 31 && decide (bits dst 2 0 < 6) && s.netOn then s.send (bits dst 2 0) s.healthDst (toBe 2 (s.fld (prA rPAIR_HEALTH_UDP) 15 0) ++ l) else s)
      else if !s.pair.told && s.pair.seen.all (fun x => decide (x + 3000000000 ≤ s.now)) then
        ({ s with pair := { s.pair with told := true } }).notify 0x103 []
      else s)

/-- HEALTH (R588): the active notices a failed step or an alarm. -/
def execHealth (h : PairHead) (body : List (BitVec 8)) (s : State) : Res :=
  .next (s.pairTake h 9 body fun s =>
    let f (o n : Nat) : Nat := leNat ((body.drop o).take n)
    if s.role = 2 ∧ f 12 1 = 3 ∧ (f 15 1 ≠ 0 ∨ f 24 4 ≠ 0) then s.notify 0x102 ((List.range 8).map (fun i => f (8 * i) 8)) else s)

/-- STANDBY_TEST_STEP (R583): a lay, MEMIF and CRYPTO powered for ST-1. -/
def execStandbyTestStep (t : Nat) (s : State) : Res :=
  let s := s.at t
  .next (if s.role ≠ 3 ∨ s.pair.test.isSome ∨ s.now < s.pair.testAt ∨ !s.normalRuns then s
    else
      let n := s.pair.nextTest % 8
      let s := { s with pair := { s.pair with test := some n, testAt := s.pair.testAt + 600000000000 } }
      ((s.turnOn (3 + n)).turnOn 14).turnOn 16)

/-- STANDBY_TEST_END (R583): pass: ST-1 found the lay sound. -/
def execStandbyTestEnd (pass : Bool) (s : State) : Res :=
  .next (match s.pair.test with
    | none => s
    | some n =>
      if s.role ≠ 3 ∨ !s.normalRuns then s
      else
        let p := if pass then s.pair.passed ||| 2 ^ n else clearBitN s.pair.passed n
        let f := if pass then clearBitN s.pair.failed n else s.pair.failed ||| 2 ^ n
        let s := { s with pair := { s.pair with test := none, nextTest := (n + 1) % 8, passed := p, failed := f } }
        let s := if pass then s else s.lanyEvent 0x56 []
        ((s.turnOff (3 + n)).turnOff 14).turnOff 16)

/-! ### Return of a part (R589 to R591, R593) -/

/-- CATCHUP (R589): programmed by a returning standby, without an answer; last: the last catch-up page. -/
def execCatchup (h : PairHead) (p : PairPage) (last : Bool) (ck : Option (BitVec 16)) (s : State) : Res :=
  .next (s.pairTake h 0x0A (pagePlain p) fun s =>
    if s.role ≠ 3 ∨ s.pair.salvage.isSome then s else (s.mirror 10 p ck last).getD s)

/-- SALVAGE (R590): into the mirror buffer of the active, from which a garbage-collection entry programs it; refused while the buffer is full. -/
def execSalvage (h : PairHead) (p : PairPage) (s : State) : Res :=
  .next (s.pairTake h 0x0B (pagePlain p) fun s =>
    if s.role ≠ 2 then s
    else if !s.mirrorRoom then s.verified p.lbn.toNat p.page.toNat 1
    else s.setNand { s.nand with mirror := s.nand.mirror ++ [⟨11, p, none, false, none, false⟩] })

/-- SALVAGE_DONE (R589, R590): SOLO_SEQ cleared, then every block of streams 0, 1 and 2 released and erased. -/
def execSalvageDone (s : State) : Res :=
  .next (if s.pair.salvage ≠ some [] ∨ s.role ≠ 3 then s
    else
      let s := ({ s with pair := { s.pair with salvage := none }, passes := [] }).setSolo none
      (s.nand.blocks.filter (fun e => e.2.stream ≤ 2 && e.2.lbn.isSome)).foldl (fun s e =>
        let s := s.eraseBlock e.1
        (s.setBlk e.1 { Block.fresh with erases := e.2.erases + 1 }).nandCount 9) s)

/-- A write of PAIR_HOST_CMD (R593); epochFail: FORCE_ACTIVE's new epoch fails its read-back twice. -/
def State.pairHost (s : State) (q : Requester) (v : Word32) (epochFail : Bool) : State :=
  let c := bits v 3 0
  let down := !s.linkUp || s.pair.peer.any (fun p => p.role.val = 5)
  let ok := (c = 1 && (s.role = 1 || s.role = 5) && down) || (c = 2 && s.role = 5) || c = 3
  s.guarded q (prA rPAIR_HOST_CMD) v (bit v 31 && !ok) fun s =>
    if !bit v 31 then s
    else if c = 1 then
      let (stored, s) := s.newEpoch epochFail
      if stored then s.becomeActive else s
    else { s with pair := { s.pair with stayOut := c = 2 } }

/-- FORCE_ACTIVE (R593). -/
def execForceActive (q : Requester) (epochFail : Bool) (s : State) : Res := .next (s.pairHost q 0x80000001 epochFail)

/-- STAY_OUT (R593). -/
def execStayOut (q : Requester) (s : State) : Res := .next (s.pairHost q 0x80000002 false)

/-- REJOIN (R593). -/
def execRejoin (q : Requester) (s : State) : Res := .next (s.pairHost q 0x80000003 false)

end Sys2Proof.Machine
end

