-- ==== Sys2Proof/Machine/Rings.lean ====
section
/-! DEFINITION. The PCIe endpoint (R657 to R667): DMA rings, resets and the link, MSI-X messages. -/

namespace Sys2Proof.Machine

/-- A register of the PCIE page. -/
abbrev pcA (o : Nat) : Nat := pa .pcie 0 o

/-- Ring r beside its registers. -/
def State.ring (s : State) (r : Nat) : Ring := look (fun _ => Ring.off) s.rings r

/-- Ring r set. -/
def State.setRing (s : State) (r : Nat) (x : Ring) : State := { s with rings := Machine.store (fun _ => Ring.off) s.rings r x }

/-- The entries of a ring (R658). -/
def State.ringSize (s : State) (r : Nat) : Nat := 2 ^ bits (s.bk (pcA rPCIE_RC_CFG) r) 4 0

/-- EN of a ring. -/
def State.ringEn (s : State) (r : Nat) : Bool := bit (s.bk (pcA rPCIE_RC_CTRL) r) 0

/-- The device index of a ring: the consumer index C of H2D, the producer index P of D2H. -/
def State.ringDev (s : State) (r : Nat) : Nat := bits (s.bk (pcA rPCIE_RC_STAT) r) 15 0

/-- The last host index taken. -/
def State.ringHost (s : State) (r : Nat) : Nat := bits (s.bk (pcA rPCIE_RC_STAT) r) 31 16

/-- Both indices of a ring set. -/
def State.setRingIdx (s : State) (r dev host : Nat) : State :=
  s.setBk (pcA rPCIE_RC_STAT) r (BitVec.ofNat 64 (dev % 2 ^ 16 + host % 2 ^ 16 * 2 ^ 16))

/-- Is the endpoint out of reset with its link up (R665). -/
def State.pcieUp (s : State) : Bool := s.domOn 17 && !s.bitAt (pcA rPCIE_STAT) 7 && s.bitAt (pcA rPCIE_STAT) 0

/-- Does a ring move cells: enabled, not halted, the link up (R663, R665). -/
def State.ringLive (s : State) (r : Nat) : Bool := s.pcieUp && s.ringEn r && !bit (s.bk (pcA rPCIE_RC_ERR) r) 31

/-- Where the entry of an index lies in host memory. -/
def State.ringAt (s : State) (r i : Nat) : Nat := (s.bk (pcA rPCIE_RC_BASE) r).toNat + 64 * (i % s.ringSize r)

/-- A ring halts (R660, R663): 1 BAD_DB, 2 DMA, 3 UE. -/
def State.ringHalt (s : State) (r why : Nat) : State :=
  ((s.setBk (pcA rPCIE_RC_ERR) r (BitVec.ofNat 64 (3 * 2 ^ 30 + why))).cause .pcie 0 2).irq .pcie 0 1

/-- A ring signals its vector (R662). -/
def State.ringSignal (s : State) (r : Nat) : State := (s.setRing r { s.ring r with fresh := 0, irqAt := 0 }).fire (64 + r)

/-- The device index written back (R660 to R662): the vector where MAX_CELLS have been written back or MAX_US is 0, else MAX_US from the first. -/
def State.ringBack (s : State) (r : Nat) : State :=
  let x := s.ring r
  let us := bits (s.bk (pcA rPCIE_RC_IRQ) r) 25 16
  let irq := bit (s.bk (pcA rPCIE_RC_CTRL) r) 1
  let s := s.setLe .host (s.bk (pcA rPCIE_RC_WB) r).toNat 8 (s.ringDev r)
  let due := if !irq then 0 else if x.irqAt = 0 then s.now + us * 1000 else x.irqAt
  let s := s.setRing r ⟨0, 0, x.fresh + x.since, due⟩
  if irq ∧ (us = 0 ∨ bits (s.bk (pcA rPCIE_RC_IRQ) r) 7 0 ≤ x.fresh + x.since) then s.ringSignal r else s

/-- A cell has moved: 32 of them are written back at once, fewer within 10 us (R660, R661). -/
def State.ringMoved (s : State) (r : Nat) : State :=
  let s := s.setRing r { s.ring r with since := (s.ring r).since + 1, wbAt := s.now + 10000 }
  if 32 ≤ (s.ring r).since then s.ringBack r else s

/-- May the ring commit to its splice now (R196). -/
def State.ringRoom (s : State) (n : Nat) : Bool := !s.splFull n && !s.held.any (fun h => h.1 = n)

/-- One cell moved (R660, R661); none where the ring has nothing to do or must wait. -/
def State.ringMove (s : State) (r : Nat) : Option State :=
  let d := s.ringDev r
  let h := s.ringHost r
  if !s.ringLive r then none
  else if s.ringDir r = 1 then
    if d = h ∨ !s.ringRoom (6144 + r) then none
    else
      let c : Cell512 := BitVec.ofNat 512 (s.le .host (s.ringAt r d) 64)
      some (((s.blockPut (6144 + r) c).setRingIdx r (d + 1) h).ringMoved r)
  else if s.ringDir r = 2 then
    if s.ringSize r ≤ (d + 2 ^ 16 - h) % 2 ^ 16 then none
    else match s.pop (6144 + r) with
      | (none, _) => none
      | (some (c, _), s) => some (((s.setLe .host (s.ringAt r d) 64 c.toNat).setRingIdx r (d + 1) h).ringMoved r)
  else none

/-- A ring moves what it can; fuel bounds the cells. -/
def State.ringRun (r : Nat) : Nat → State → State
  | 0, s => s
  | fuel + 1, s => match s.ringMove r with
    | none => s
    | some s' => State.ringRun r fuel s'

/-- A ring's state read, with what its check finds (R667), and its work. -/
def State.ringGo (s : State) (r : Nat) : State :=
  if !s.ringLive r then s
  else
    let (c, s) := s.inject .pcie 0 0 1
    let s := if c = 1 then s.cause .pcie 0 0 else if c = 2 then (s.cause .pcie 0 1).ringHalt r 3 else s
    State.ringRun r 65536 s

/-- Every ring that can move cells. -/
def State.ringsGo (s : State) : State := (List.range 64).foldl (fun s r => s.ringGo r) s

/-- The Lanyard discards a partly popped request and what it has not yet written to rings 1 and 2 (R664). -/
def State.mailDiscard (s : State) : State :=
  { s with
    partials := s.partials.filter (fun e => e.2.1 ≠ 6144)
    held := s.held.filter (fun h => h.1 ≠ 6145 ∧ h.1 ≠ 6146)
    lany := { s.lany with notices := [] } }

/-- A ring reset (R664). -/
def State.ringReset (s : State) (r : Nat) : State :=
  let s := s.setBk (pcA rPCIE_RC_CTRL) r ((s.bk (pcA rPCIE_RC_CTRL) r) &&& 2)
  let s := ((s.splEmptied (6144 + r)).setRingIdx r 0 0).setRing r Ring.off
  let s := s.setBk (pcA rPCIE_RC_ERR) r ((s.bk (pcA rPCIE_RC_ERR) r) &&& (BitVec.ofNat 64 (2 ^ 30 + 7)))
  if r ≤ 2 then s.mailDiscard else s

/-- A write of PCIE_RC_CTRL with EN = 1 that R659 refuses. -/
def State.ringBad (s : State) (r : Nat) : Bool :=
  s.ringDir r = 0 || decide ((s.bk (pcA rPCIE_RC_BASE) r).toNat % (64 * s.ringSize r) ≠ 0) || decide (64 * s.ringSize r < 4096)

/-- A write of PCIE_RC_CTRL (R659, R664): it acts on the ring PCIE_RC_SEL names; RESET clears EN whatever else is written. -/
def State.ringCtrl (s : State) (q : Requester) (v : Word32) : State :=
  let r := s.fld (pcA rPCIE_RC_SEL) 5 0
  s.guarded q (pcA rPCIE_RC_CTRL) v (bit v 0 && s.ringBad r) fun s =>
    let s := s.setBk (pcA rPCIE_RC_CTRL) r (BitVec.ofNat 64 (bits v 1 0))
    if bit v 31 then s.ringReset r else s.ringGo r

/-- A write of PCIE_RC_CFG, PCIE_RC_BASE or PCIE_RC_WB is refused while the ring is enabled (R659). -/
def State.rcBad (s : State) : Bool := s.ringEn (s.fld (pcA rPCIE_RC_SEL) 5 0)

/-- RING_ENABLE (R659). -/
def execRingEnable (q : Requester) (irq : Bool) (s : State) : Res := .next (s.ringCtrl q (BitVec.ofNat 32 (1 + 2 * irq.toNat)))

/-- A doorbell written (R658, R660, R661): on a ring without a direction it is ignored and counted. -/
def State.doorbell (s : State) (r i : Nat) : State :=
  if !s.pcieUp then s
  else if s.ringDir r = 0 then s.bumpBk (pcA rPCIE_CNT) 0 (2 ^ 32 - 1) 1
  else
    let c := s.ringDev r
    let new := (i + 2 ^ 16 - c) % 2 ^ 16
    let old := (s.ringHost r + 2 ^ 16 - c) % 2 ^ 16
    let s' := s.setRingIdx r c i
    if s.ringDir r = 1 ∧ (new < old ∨ s.ringSize r < new) then s'.ringHalt r 1 else s'.ringGo r

/-- Entries the host writes to its ring from an index on. -/
def State.hostEntries (s : State) (r : Nat) : Nat → List Cell512 → State
  | _, [] => s
  | i, c :: l => (s.setLe .host (s.ringAt r i) 64 c.toNat).hostEntries r (i + 1) l

/-- RING_DOORBELL_H2D (R660): the entries the host has written behind its last index, and its new producer index. -/
def execRingDoorbellH2d (r : Fin 64) (p : BitVec 16) (entries : List (BitVec 512)) (t : Nat) (s : State) : Res :=
  let s := s.at t
  .next (if !s.pcieUp then s else (s.hostEntries r.val (s.ringHost r.val) entries).doorbell r.val p.toNat)

/-- RING_DOORBELL_D2H (R661): the host's new consumer index. -/
def execRingDoorbellD2h (r : Fin 64) (c : BitVec 16) (t : Nat) (s : State) : Res := .next ((s.at t).doorbell r.val c.toNat)

/-- RING_WRITE_BACK (R660, R661): 10 us after the last cell moved. -/
def execRingWriteBack (r : Fin 64) (t : Nat) (s : State) : Res :=
  let s := s.at t
  let x := s.ring r.val
  .next (if s.ringLive r.val && decide (0 < x.since) && decide (x.wbAt ≤ s.now) then (s.ringBack r.val).ringGo r.val else s)

/-- RING_IRQ_TIMER (R662). -/
def execRingIrqTimer (r : Fin 64) (t : Nat) (s : State) : Res :=
  let s := s.at t
  let x := s.ring r.val
  .next (if s.domOn 17 && bit (s.bk (pcA rPCIE_RC_CTRL) r.val) 1 && decide (x.irqAt ≠ 0) && decide (x.irqAt ≤ s.now) then
      s.ringSignal r.val else s)

/-- DMA_ERROR (R663): kind 0 a completion timed out, 1 poisoned, 2 Unsupported Request. -/
def execDmaError (r : Fin 64) (kind : Fin 3) (s : State) : Res :=
  .next (if !s.ringLive r.val then s
    else
      let s := if kind.val < 2 then s.bumpBk (pcA rPCIE_CNT) (kind.val + 1) (2 ^ 32 - 1) 1 else s
      s.ringHalt r.val 2)

/-- RING_RESET (R664), with the doorbells that came in during it: ignored and counted. -/
def execRingReset (q : Requester) (doorbells : BitVec 32) (s : State) : Res :=
  let s' := s.ringCtrl q (BitVec.ofNat 32 (2 ^ 31))
  .next (match s.refusal q (pcA rPCIE_RC_CTRL) true (BitVec.ofNat 32 (2 ^ 31)) false false with
    | none => s'.bumpBk (pcA rPCIE_CNT) 0 (2 ^ 32 - 1) doorbells.toNat
    | some _ => s')

/-! ### Reset and link (R665) -/

/-- PERST_ASSERT (R665). -/
def execPerstAssert (s : State) : Res :=
  .next (if !s.domOn 17 then s
    else
      let s := (List.range 64).foldl (fun s r => s.ringReset r) s
      (({ (s.pageOff .pcie 0) with rings := [], msix := { Msix.off with sent := s.msix.sent } }).wr (pcA rPCIE_STAT) 0).putBit (pcA rPCIE_STAT) 7 true)

/-- PERST_DEASSERT (R665). -/
def execPerstDeassert (s : State) : Res := .next (if s.domOn 17 then s.putBit (pcA rPCIE_STAT) 7 false else s)

/-- PCIE_LINK_CHANGE (R665, R667): speed Gen1 to Gen3 and width while it is up; correctable: the correctable errors AER has reported. -/
def execPcieLinkChange (up : Bool) (speed : Fin 4) (width : Fin 5) (correctable : BitVec 32) (s : State) : Res :=
  .next (if !s.domOn 17 || s.bitAt (pcA rPCIE_STAT) 7 then s
    else
      let was := s.bitAt (pcA rPCIE_STAT) 0
      let s := ((s.putBit (pcA rPCIE_STAT) 0 up).putF (pcA rPCIE_STAT) 2 1 (if up then speed.val else 0)).putF (pcA rPCIE_STAT) 6 4
        (if up then width.val else 0)
      let s := s.bumpBk (pcA rPCIE_CNT) 3 (2 ^ 32 - 1) correctable.toNat
      let s := if was ≠ up then s.irq .pcie 0 0 else s
      if was && !up then s.cause .pcie 0 3 else s.ringsGo)

/-! ### MSI-X (R666) -/

/-- A vector's message sent. -/
def State.msiSend (s : State) (v : Nat) : State :=
  let e := look (fun _ => ((0 : BitVec 64), (0 : BitVec 32))) s.msix.entries v
  { s with msix := { s.msix with sent := s.msix.sent ++ [(v, e)] } }

/-- MSIX_MESSAGE (R666): a message that is due is sent, or is pending while its vector is masked. -/
def execMsixMessage (v : BitVec 8) (s : State) : Res :=
  let v := v.toNat
  .next (if !s.pcieUp || !s.msix.due.contains v then s
    else
      let s := { s with msix := { s.msix with due := s.msix.due.erase v } }
      if s.msix.open_.contains v then s.msiSend v
      else if s.msix.pend.contains v then s
      else { s with msix := { s.msix with pend := s.msix.pend ++ [v] } })

/-- MSIX_UNMASK (R658, R666): the host writes a table entry; a pending message is sent if its request is still 1, of vector 0 in any case. A
ring's request stands until its message is sent. -/
def execMsixUnmask (v : BitVec 8) (addr : BitVec 64) (data : BitVec 32) (mask : Bool) (s : State) : Res :=
  let v := v.toNat
  .next (if !s.pcieUp then s
    else
      let rest := s.msix.open_.filter (· ≠ v)
      let s := { s with msix := { s.msix with
        entries := place v (addr, data) (drop s.msix.entries v), open_ := if mask then rest else rest ++ [v] } }
      if mask || !s.msix.pend.contains v then s
      else
        let s := { s with msix := { s.msix with pend := s.msix.pend.filter (· ≠ v) } }
        if v = 0 || (64 ≤ v && v < 128) || s.request v then s.msiSend v else s)

end Sys2Proof.Machine
end

