-- ==== Sys2Proof/Machine/Eth.lean ====
section
/-! DEFINITION. The Ethernet ports (R668 to R672) and the acknowledgement cells every port consumes (R242). -/

namespace Sys2Proof.Machine

/-- The page of Ethernet port n. -/
def ethPg (n : Nat) : Pg × Nat := if n < 4 then (.eth, n) else (.sgmii, n - 4)

/-- A cause of a port. -/
def State.ethCause (s : State) (n i : Nat) : State := s.cause (ethPg n).1 (ethPg n).2 i

/-- An interrupt of a port. -/
def State.ethIrq (s : State) (n i : Nat) : State := s.irq (ethPg n).1 (ethPg n).2 i

/-- A port's MAC address. -/
def State.ethMac (s : State) (n : Nat) : BitVec 48 := (s.rd64 (ethA n rETH_MAC)).setWidth 48

/-- The four words from a register, highest first, as an IPv6 address with byte 0 in bits 7:0 (R672). -/
def State.ip6At (s : State) (n o : Nat) : BitVec 128 :=
  BitVec.ofNat 128 (leNat ([3, 2, 1, 0].flatMap (fun j => toBe 4 (s.rd (ethA n (o + 4 * j))).toNat)))

/-- The link-local address formed from a MAC address as a modified EUI-64 (R669). -/
def linkLocal (mac : BitVec 48) : BitVec 128 :=
  let m := toBe 6 mac.toNat
  BitVec.ofNat 128 (leNat ([0xFE, 0x80, 0, 0, 0, 0, 0, 0, (m.headD 0) ^^^ 2] ++ (m.drop 1).take 2 ++ [0xFF, 0xFE] ++ m.drop 3))

/-- Address k of a port: 0 to 3 ETH_ADDR_k, 4 the link-local one. -/
def State.ethAddr (s : State) (n k : Nat) : BitVec 128 := if k = 4 then linkLocal (s.ethMac n) else s.ip6At n (rETH_ADDR + 16 * k)

/-- Is address k one the port answers and sends from now: VALID, and no service address that a fence has withdrawn (R574, R671). -/
def State.ethUsable (s : State) (n k : Nat) : Bool :=
  k = 4 || (s.bitAt (ethA n (rETH_ADDR_CTL + 4 * k)) 31 && !(s.fenced && s.bitAt (ethA n (rETH_ADDR_CTL + 4 * k)) 30))

/-- The addresses of a port. -/
def State.ethOwn (s : State) (n : Nat) : List (BitVec 128) :=
  ((List.range 5).filter (fun k => s.ethUsable n k)).map (fun k => s.ethAddr n k)

/-! ### ICMPv6 (R669; RFC 4443 and RFC 4861, log entry 31) -/

/-- The sum of big-endian 16-bit words. -/
def sum16 : List Byte → Nat
  | a :: b :: l => a.toNat * 256 + b.toNat + sum16 l
  | [a] => a.toNat * 256
  | [] => 0

/-- An ICMPv6 message with its checksum over the pseudo-header. -/
def icmp6 (src dst : BitVec 128) (type code : Nat) (body : List Byte) : List Byte :=
  let l (c : Nat) : List Byte := toBe 1 type ++ toBe 1 code ++ toBe 2 c ++ body
  let t := sum16 (toLe 16 src.toNat ++ toLe 16 dst.toNat ++ toBe 4 (l 0).length ++ toBe 4 58 ++ l 0)
  let f := t % 65536 + t / 65536
  l (65535 - (f % 65536 + f / 65536))

/-- The all-nodes multicast address. -/
def allNodes : BitVec 128 := BitVec.ofNat 128 (leNat ([0xFF, 2] ++ List.replicate 13 0 ++ [1]))

/-! ### Frames (R668, R669; IEEE 802.3 and 802.1Q, RFC 8200, RFC 768, RFC 4443, log entry 31) -/

/-- What a received frame carries: a fragment; a neighbour solicitation of a target; an echo request's identifier, sequence number and data; UDP
with its ports and payload; UDP or ICMPv6 with a wrong checksum; a PTP message; anything else. -/
inductive EthBody where
  | fragment
  | solicit (target : BitVec 128)
  | echo (rest : List Byte)
  | udp (src dst : BitVec 16) (payload : List Byte)
  | badSum
  | ptp (payload : List Byte)
  | other
  deriving DecidableEq, Repr

/-- A received frame: its length, whether its FCS is good, whether it is a PAUSE or PFC frame, its VID where it is tagged, its MAC addresses,
whether it is IPv6 and its addresses with byte 0 in bits 7:0, and what it carries. -/
structure EthFrame where
  length : Nat
  fcsOk : Bool
  pause : Bool
  vid : Option Nat
  dstMac : BitVec 48
  srcMac : BitVec 48
  ip : Bool
  src : BitVec 128
  dst : BitVec 128
  body : EthBody
  deriving DecidableEq, Repr

/-- An IPv6 address in a packet. -/
def ip6Of (l : List Byte) (o : Nat) : BitVec 128 := BitVec.ofNat 128 (leNat ((l.drop o).take 16))

/-- Is the checksum of a UDP datagram or an ICMPv6 message right, over the pseudo-header of its packet. -/
def sumGood (ip l : List Byte) (next : Nat) : Bool :=
  let t := sum16 ((ip.drop 8).take 32 ++ toBe 4 l.length ++ toBe 4 next ++ l)
  decide (0 < t ∧ t % 65535 = 0)

/-- What an IPv6 packet carries. -/
def ipBody (ip : List Byte) : EthBody :=
  let l := (ip.drop 40).take (be ip 4 2)
  let next := be ip 6 1
  if ip.length < 40 + be ip 4 2 ∨ be ip 0 1 / 16 ≠ 6 then .other
  else if next = 44 then .fragment
  else if next = 17 then
    let d := l.take (be l 4 2)
    if l.length < be l 4 2 ∨ be l 4 2 < 8 then .other
    else if be l 6 2 = 0 ∨ !sumGood ip d 17 then .badSum
    else .udp (BitVec.ofNat 16 (be l 0 2)) (BitVec.ofNat 16 (be l 2 2)) (d.drop 8)
  else if next = 58 then
    if !sumGood ip l 58 then .badSum
    else if be l 0 2 = 135 * 256 ∧ be ip 7 1 = 255 ∧ 24 ≤ l.length then .solicit (ip6Of l 8)
    else if be l 0 2 = 128 * 256 ∧ 8 ≤ l.length then .echo (l.drop 4)
    else .other
  else .other

/-- A frame as its octets are, from the destination MAC address to the FCS. -/
def ethParse (raw : List Byte) : EthFrame :=
  let l := raw.take (raw.length - 4)
  let tagged := be l 12 2 = 0x8100
  let type := be l (if tagged then 16 else 12) 2
  let p := l.drop (if tagged then 18 else 14)
  let ip := type = 0x86DD
  { length := raw.length
    fcsOk := decide (4 ≤ raw.length) && decide (crc32 l = leNat (raw.drop (raw.length - 4)))
    pause := type = 0x8808
    vid := if tagged then some (be l 14 2 % 4096) else none
    dstMac := BitVec.ofNat 48 (be l 0 6), srcMac := BitVec.ofNat 48 (be l 6 6)
    ip := ip
    src := if ip then ip6Of p 8 else 0
    dst := if ip then ip6Of p 24 else 0
    body := if ip then ipBody p else if type = 0x88F7 then .ptp (p.take (be p 2 2)) else .other }

/-- A neighbour advertisement of address k (R669). -/
def State.advertise (s : State) (n : Nat) (own dst : BitVec 128) (solicited : Bool) : State :=
  s.ethSend n own dst (0, 0) (icmp6 own dst 136 0
    ([if solicited then 0x60 else 0x20, 0, 0, 0] ++ toLe 16 own.toNat ++ [2, 1] ++ toBe 6 (s.ethMac n).toNat))

/-- Addresses that come to owe an unsolicited advertisement. -/
def State.oweAdv (s : State) (n : Nat) (l : List Nat) : State :=
  let x := s.ethPort n
  s.setEthPort n { x with adv := x.adv ++ l.filter (fun k => !x.adv.contains k) }

/-- Every address in force of a port owes one: at enable, and at takeover (R585, R669). -/
def State.oweAll (s : State) (n : Nat) : State := s.oweAdv n ((List.range 5).filter (fun k => s.ethUsable n k))

/-- NEIGHBOUR_ADVERTISEMENT (R669): k 0 to 3 an address register, 4 the link-local address. -/
def execNeighbourAdvertisement (n : Fin 6) (k : Fin 5) (s : State) : Res :=
  let x := s.ethPort n.val
  .next (if !s.ethUp n.val || !x.adv.contains k.val then s
    else
      let s := s.setEthPort n.val { x with adv := x.adv.erase k.val }
      if s.ethUsable n.val k.val then s.advertise n.val (s.ethAddr n.val k.val) allNodes false else s)

/-! ### Reception (R668 to R670) -/

/-- Does a port take a frame by its destination MAC address (R669): its own, the multicasts of its addresses, those of PTP. -/
def State.ethTakes (s : State) (n : Nat) (mac : BitVec 48) : Bool :=
  mac = s.ethMac n || mac = 0x333300000001 || mac = 0x011B19000000 || mac = 0x0180C200000E ||
  (s.ethOwn n).any (fun a => mac = BitVec.ofNat 48 (0x3333FF * 2 ^ 24 + beNat ((toLe 16 a.toNat).drop 13)))

/-- Does an address lie within ETH_PFX / ETH_PFX_LEN (R670). -/
def State.onLink (s : State) (n : Nat) (a : BitVec 128) : Bool :=
  let w := 2 ^ (128 - s.fld (ethA n rETH_PFX_LEN) 7 0)
  beNat (toLe 16 a.toNat) / w = beNat (toLe 16 (s.ip6At n rETH_PFX).toNat) / w

/-- The neighbour cache filled or refreshed (R670): 256 entries, the least recently used replaced. -/
def State.cacheFill (s : State) (n : Nat) (a : BitVec 128) (mac : BitVec 48) : State :=
  let x := s.ethPort n
  s.setEthPort n { x with cache := ((a, mac) :: x.cache.filter (fun e => e.1 ≠ a)).take 256 }

/-- Why a frame is discarded before its contents count (R668, R669): the counter. -/
def State.ethBad (s : State) (n : Nat) (f : EthFrame) : Option Nat :=
  let vlan := s.bitAt (ethA n rETH_CFG) 16
  let vid := s.fld (ethA n rETH_VLAN) 11 0
  if !f.fcsOk then some 1
  else if f.pause then some 6
  else if s.fld (ethA n rETH_CFG) 13 0 < f.length then some 7
  else if f.length < 64 then some 3
  else if vlan ≠ f.vid.isSome || (vlan && f.vid.any (fun v => decide (v ≠ vid))) then some 5
  else if !s.ethTakes n f.dstMac then some 3
  else if f.body = .fragment then some 4
  else none

/-- A UDP frame handed to INGEST (R212, R669), with the address it was sent to and its ports kept for the reply (R241, R671). -/
def State.ethAdmit (s : State) (n : Fin 6) (f : EthFrame) (sp dp : BitVec 16) (l : List Byte) : State :=
  let x := s.ethPort n.val
  let key := (f.src, batchSeqOf l)
  let s := s.setEthPort n.val { x with peers := (key, (f.dst, (sp.toNat, dp.toNat))) :: x.peers.filter (fun e => e.1 ≠ key) }
  (s.takeUnit
    { port := n.castLE (by decide), sec := BitVec.ofNat 48 s.tsuTime.sec, ns := BitVec.ofNat 30 s.tsuTime.ns
      addr := f.src, udp := some (sp, dp), sound := true, data := l, word7 := 0 }).2

/-- A frame fragmented at the IPv6 layer: counted by the port (R672) and, as a frame INGEST discards, in ING_DISCARD_CNT (R215). -/
def State.ethFragment (s : State) (n : Nat) : State :=
  let s := s.ethCount n 4
  if s.domOn 1 then s.discard.2 else s

/-- What a frame that is taken does (R669). -/
def State.ethBody (s : State) (n : Fin 6) (f : EthFrame) : State :=
  let p := n.val
  match f.body with
  | .solicit target =>
    if (s.ethOwn p).contains target then
      ((s.ethCount p 0).ethCount p 10).advertise p target (if f.src = 0 then allNodes else f.src) (f.src ≠ 0)
    else s.ethCount p 3
  | .echo l =>
    if s.bitAt (ethA p rETH_CFG) 17 ∧ 4 + l.length ≤ 1280 ∧ f.dst ∈ s.ethOwn p then
      ((s.ethCount p 0).ethCount p 11).ethSend p f.dst f.src (0, 0) (icmp6 f.dst f.src 129 0 l)
    else s.ethCount p 3
  | .udp sp dp l =>
    let known := dp.toNat = s.fld (ingA rING_UDP_PORTS) 15 0 ∨ dp.toNat = s.fld (ingA rING_UDP_PORTS) 31 16
    if known ∧ f.dst ∈ s.ethOwn p then (s.ethCount p 0).ethAdmit n f sp dp l
    else s.ethCount p 3
  | .ptp l => (s.ethCount p 0).ptpTake p false f.dstMac l
  | .badSum => s.ethCount p 2
  | .fragment => s
  | .other => s.ethCount p 3

/-- ETH_FRAME_RECEIVED (R668 to R670). -/
def execEthFrameReceived (n : Fin 6) (raw : List (BitVec 8)) (t : Nat) (s : State) : Res :=
  let s := s.at t
  let p := n.val
  let f := ethParse raw
  .next (if !s.ethUp p then s
    else
      let (c, s) := s.inject (ethPg p).1 (ethPg p).2 0 1
      let s := if c = 0 then s else s.ethCause p (c - 1)
      if c = 2 then s
      else
        let fill (s : State) : State := if f.ip && s.onLink p f.src then s.cacheFill p f.src f.srcMac else s
        match s.ethBad p f with
        | some i => if i = 4 then (fill s).ethFragment p else s.ethCount p i
        | none => (fill s).ethBody n f)

/-! ### Acknowledgement cells (R242, R574, R671) -/

/-- Is a source number one whose acknowledgement cells a port takes (R224, R386). -/
def ackFor (port chan : Nat) : Bool :=
  let k := portKind port
  if k ≤ 1 then chan ≤ 4079
  else if k = 2 then chan = 4080 + portNo port
  else if k = 3 then chan = 4083 + portNo port
  else chan = 4088 + portNo port

/-- The port a reading came in by, by its INGRESS_SEQ (R28): as the latency ring or the storing lay holds it. -/
def State.ackPort (s : State) (seq : Nat) : Option Nat :=
  match (look (fun _ => none) s.ing.ring (seq % 65536)).filter (fun e => e.seq = seq) with
  | some e => some e.port
  | none => (s.readings.find? (fun p => p.seq = seq)).map (·.port)

/-- Did the frame that a cell acknowledges come in by a port (R28, R241): by its INGRESS_SEQ, where the device still holds it; else an Ethernet
port that holds the frame's address and BATCH_SEQ; a cell that none holds, any of them takes (log entry 34). -/
def State.ackHere (s : State) (port : Nat) (c : Cell512) : Bool :=
  let key : BitVec 128 × Nat := ((cellWord c 5).append (cellWord c 4), nbits (cellWord c 2).toNat 31 0)
  let holds (p : Nat) : Bool := (s.ethPort p).peers.any (fun e => e.1 = key)
  ackFor port (cellChan c) && match s.ackPort (cellAux c) with
    | some p => p = port
    | none => 1 < portKind port || holds port || !(List.range 6).any holds

/-- The station of a loop with an address. -/
def Uart.byAddr (u : Uart) (a : BitVec 32) : Option (Nat × Station) := u.stations.find? (fun e => e.2.valid && !e.2.bad && e.2.addr = a)

/-- A station entry set. -/
def State.setStation (s : State) (n k : Nat) (x : Station) : State :=
  let u := s.uart n
  { s with uarts := Machine.store (fun _ => Uart.off) s.uarts n { u with stations := Machine.store (fun _ => Station.off) u.stations k x } }

/-- What a port does with an acknowledgement message by REPLY (R242); the device counts it in ACK_FENCED while fenced, an Ethernet port in
LINK_DROP while its link is down. -/
def State.ackAct (s : State) (port : Nat) (c : Cell512) (rest : List Cell512) : State :=
  let w1 := (cellWord c 1).toNat
  let w2 := (cellWord c 2).toNat
  if s.fenced then s.pairCount 7
  else if portKind port ≤ 1 then
    if !s.ethUp port then s.ethCount port 9
    else if nbits w1 7 0 = 0 ∧ w1.testBit 8 then
      let x := s.ethPort port
      s.setEthPort port { x with
        queue := x.queue ++ [((cellWord c 5).append (cellWord c 4), rest.flatMap (fun d => cellBytes d (min 56 (cellLen d))))] }
    else s
  else if nbits w1 7 0 = 3 ∧ portKind port = 4 then
    match (s.uart (portNo port)).byAddr (BitVec.ofNat 32 w2) with
    | some (k, x) => s.setStation (portNo port) k { x with vr := (nbits w2 34 32 + 1) % 8 }
    | none => s
  else s

/-- The power domain of a port. -/
def portDomain (port : Nat) : Nat := if portKind port ≤ 1 then 11 else 12

/-- A port consumes the acknowledgement message at the front of a splice of its block end (R242), and reports its INGRESS_SEQ as it consumes
the message's first cell; an Ethernet port holds 64 frames at most. -/
def State.ackConsume (s : State) (port n : Nat) : State :=
  let first := match s.begun n, s.peekCell n 0 with
    | c :: _, _ => some c
    | [], c => c
  if !s.domOn (portDomain port) || decide (s.fld (descA n 1) 12 8 ≠ txEnd port) ||
      (decide (portKind port ≤ 1) && decide (64 ≤ (s.ethPort port).queue.length)) || !first.any (fun c => s.ackHere port c) then s
  else
    let fresh := s.begun n = []
    let (_, l, s) := s.takeMessage (txEnd port) n 2
    match l with
    | c :: rest => (if fresh then s.ackReport (cellAux c) else s).ackAct port c rest
    | [] => match s.begun n with
      | c :: _ => if fresh then s.ackReport (cellAux c) else s
      | [] => s

/-- ACK_CELL_CONSUMED (R242): port in the order of R228. -/
def execAckCellConsumed (port : Fin 21) (spl : BitVec 13) (t : Nat) (s : State) : Res := .next ((s.at t).ackConsume port.val spl.toNat)

/-! ### Transmission and link (R671) -/

/-- ETH_TRANSMIT (R670, R671): the oldest frame of the port's queue, else the message at the front of a splice of block end 0x03; an advertisement
that is owed goes first. -/
def execEthTransmit (n : Fin 6) (spl : BitVec 13) (t : Nat) (s : State) : Res :=
  let s := s.at t
  let p := n.val
  let s := if (s.ethPort p).queue = [] then s.ackConsume p spl.toNat else s
  .next (match (s.ethPort p).queue with
    | [] => s
    | (dst, l) :: rest =>
      if s.ethUp p && decide ((s.ethPort p).adv = []) then (s.setEthPort p { s.ethPort p with queue := rest }).send p dst l else s)

/-- ETH_LINK_CHANGE (R671, R672): fast: 1000 Mb/s on an SGMII port; an: the partner's in-band word there. -/
def execEthLinkChange (n : Fin 6) (up fast : Bool) (an : BitVec 16) (s : State) : Res :=
  let p := n.val
  .next (if !s.netOn then s
    else
      let was := s.bitAt (ethA p rETH_STAT) 0
      let s := s.putBit (ethA p rETH_STAT) 0 up
      let s := if p < 4 then s.putBit (ethA p rETH_STAT) 2 up
        else
          let s := s.putF (ethA p rETH_STAT) 5 4 (if up then 1 + fast.toNat else 0)
          if p = 4 then s.wr (ethA p rSG_AN) (an.setWidth 32) else s
      let s := if was ≠ up then s.ethIrq p 0 else s
      if was && !up then s.ethCause p 2 else s)

/-! ### Registers (R672) -/

/-- A write of ETH_NC_FLUSH. -/
def State.ethFlush (s : State) (q : Requester) (n : Nat) (v : Word32) : State :=
  s.guarded q (ethA n rETH_NC_FLUSH) v false fun s => if bit v 31 then s.setEthPort n { s.ethPort n with cache := [] } else s

/-- ETH_NC_FLUSH (R672). -/
def execEthNcFlush (q : Requester) (n : Fin 6) (s : State) : Res := .next (s.ethFlush q n.val 0x80000000)

/-- A write of BLK_CTRL.EN of a port (R669, R672). -/
def State.ethEnable (s : State) (q : Requester) (n : Nat) (v : Word32) : State :=
  s.guarded q (ethA n 0x00C) v (bit v 0 && s.ethMac n = 0) fun s =>
    let was := s.bitAt (ethA n 0x00C) 0
    let s := s.putBit (ethA n 0x00C) 0 (bit v 0)
    if bit v 0 && !was then s.oweAll n else s

/-- A write of ETH_CFG, ETH_MAC or ETH_VLAN is refused while EN is 1 (R672). -/
def State.ethBusy (s : State) (n o : Nat) : Bool :=
  s.bitAt (ethA n 0x00C) 0 && (o = rETH_CFG || o = rETH_MAC || o = rETH_MAC + 4 || o = rETH_VLAN)

/-- A write of ETH_ADDR_CTL_k: an address that becomes VALID owes an advertisement (R669). -/
def State.ethAddrCtl (s : State) (q : Requester) (n k : Nat) (v : Word32) : State :=
  let a := ethA n (rETH_ADDR_CTL + 4 * k)
  s.guarded q a v false fun s =>
    let was := s.bitAt a 31
    let s := s.plain a (v.setWidth 64)
    if bit v 31 && !was && s.bitAt (ethA n 0x00C) 0 then s.oweAdv n [k] else s

/-- A write of SG_MDIO (R672): the access, refused while an earlier one has not completed; the bus transaction leaves by port 23, and answer is
what the PHY returns for a read. Elsewhere than on the SGMII_0 page the offset is reserved. -/
def State.mdio (s : State) (q : Requester) (v : Word32) (answer : BitVec 16) : State :=
  let a := ethA 4 rSG_MDIO
  s.guarded q a v (bit v 31 && (s.mdioSettle.ethPort 4).mdio.isSome) fun s =>
    let s := s.mdioSettle.plain a (v.setWidth 64)
    if !bit v 31 then s
    else
      let w := (s.rd a).toNat
      let s := s.send 23 0 (toBe 4 (w % 2 ^ 27 + nbits w 30 28 * 2 ^ 28))
      (s.setEthPort 4 { s.ethPort 4 with mdio := some (s.now, answer) }).putBit a 27 false

/-- MDIO_ACCESS (R672). -/
def execMdioAccess (q : Requester) (c45 : Bool) (op : BitVec 2) (phy reg : BitVec 5) (data answer : BitVec 16) (s : State) : Res :=
  .next (s.mdio q (BitVec.ofNat 32 (2 ^ 31 + c45.toNat * 2 ^ 30 + op.toNat * 2 ^ 28 + phy.toNat * 2 ^ 21 + reg.toNat * 2 ^ 16 + data.toNat))
    answer)

end Sys2Proof.Machine
end

