-- ==== Sys2Proof/Machine/Uart.lean ====
section
/-! DEFINITION. The RS-485 UARTs with their HDLC stations (R673 to R678) and the sensor bus (R679, R680). -/

namespace Sys2Proof.Machine

/-- A register of UART n. -/
abbrev uaA (n o : Nat) : Nat := pa .uart n o

/-- A UART set. -/
def State.setUart (s : State) (n : Nat) (u : Uart) : State := { s with uarts := Machine.store (fun _ => Uart.off) s.uarts n u }

/-- A UART counter advanced (R678). -/
def State.uartCount (s : State) (n i : Nat) : State := s.bumpBk (uaA n rUART_CNT) i (2 ^ 32 - 1) 1

/-- Does a UART work: FIELD on, enabled, its balls the block's (R681, R683). -/
def State.uartOn (s : State) (n : Nat) : Bool := s.domOn 12 && s.bitAt (uaA n 0x00C) 0 && s.pmxFunc (39 + n) = 5

/-! ### Characters (R673 to R675) -/

/-- A character received: its value; its parity is wrong; its stop bit is low; the sample its start bit begins with. -/
structure UartChar where
  val : Byte
  parity : Bool
  framing : Bool
  pos : Nat
  deriving DecidableEq, Repr

/-- Bit b of a character whose sample 0 is the first of the list: the majority of samples 7, 8 and 9 (R674); beyond the list the line is idle. -/
def majority (l : List Bool) (b : Nat) : Bool :=
  2 ≤ ((List.range 3).filter (fun i => l.getD (16 * b + 7 + i) true)).length

/-- One character (R673, R674); bits: data bits; par: PARITY. -/
def uartChar (bits par pos : Nat) (l : List Bool) : UartChar :=
  let data := (List.range bits).map (fun i => majority l (1 + i))
  let ones := (data.filter id).length
  let odd := (ones + (majority l (1 + bits)).toNat) % 2
  { val := BitVec.ofNat 8 ((data.zipIdx.map (fun e => e.1.toNat * 2 ^ e.2)).sum)
    parity := (par = 1 && odd != 0) || (par = 2 && odd != 1)
    framing := !majority l (1 + bits + (if par = 0 then 0 else 1))
    pos := pos }

/-- The characters in a run of samples, and the false starts (R674, R675). After a false start the search goes on at the next sample; otherwise it
re-arms at sample 8 of the first stop bit, so that sample 9 may begin the next character. all: how many samples there are. -/
def uartChars (bits par all : Nat) : Nat → List Bool → Nat × List UartChar
  | 0, _ => (0, [])
  | fuel + 1, l =>
    match l.dropWhile id with
    | [] => (0, [])
    | b :: l =>
      if majority (b :: l) 0 then
        let r := uartChars bits par all fuel ((b :: l).drop 10)
        (r.1 + 1, r.2)
      else
        let r := uartChars bits par all fuel ((b :: l).drop (16 * (1 + bits + (if par = 0 then 0 else 1)) + 9))
        (r.1, uartChar bits par (all - (b :: l).length) (b :: l) :: r.2)

/-! ### HDLC frames (R677): frame format type 3 of IEC 62056-46 (PRESUMED, log entry 34) -/

/-- What an HDLC frame of a station is (R677): an I-frame with N(S), N(R) and its information field, RR or RNR with N(R), UA, DM or FRMR. -/
inductive HdlcBody where
  | i (ns nr : BitVec 3) (info : List (BitVec 8))
  | rr (nr : BitVec 3)
  | rnr (nr : BitVec 3)
  | ua | dm | frmr
  deriving DecidableEq, Repr

/-- What comes in on a loop (R213, R677): a byte gap above 50 ms within a frame; a frame whose check sequences are bad; good but with the segmentation bit set; good, from a server address; none: a
control octet that is none of the kinds of `HdlcBody`, or a server address not of 1, 2 or 4 bytes. -/
inductive HdlcLine where
  | gap
  | badFcs
  | segmented
  | good (addr : BitVec 32) (body : Option HdlcBody)
  deriving DecidableEq, Repr

/-- An address field: its bytes up to the first whose bit 0 is 1, as a number read as sent, and the rest. -/
def hdlcAddr : Nat → List Byte → Option (Nat × List Byte)
  | _, [] => none
  | a, b :: l => if b.getLsbD 0 then some (a * 256 + b.toNat, l) else hdlcAddr (a * 256 + b.toNat) l

/-- A control octet and an information field. -/
def hdlcBodyOf (c : Nat) (info : List Byte) : Option HdlcBody :=
  let nr : BitVec 3 := BitVec.ofNat 3 (c / 32)
  if c % 2 = 0 then some (.i (BitVec.ofNat 3 (c / 2)) nr info)
  else if c % 16 = 1 then some (.rr nr)
  else if c % 16 = 5 then some (.rnr nr)
  else if c &&& 0xEF = 0x63 then some .ua
  else if c &&& 0xEF = 0x0F then some .dm
  else if c &&& 0xEF = 0x87 then some .frmr
  else none

/-- Does a run of bytes end in its check sequence. -/
def fcsGood (l : List Byte) : Bool := 2 ≤ l.length && l.drop (l.length - 2) == toLe 2 (fcs16 (l.take (l.length - 2)))

/-- A frame between its flags: format, destination and source address, control, HCS and information field where there is one, FCS. -/
def hdlcFrame (l : List Byte) : HdlcLine :=
  if !fcsGood l then .badFcs
  else match hdlcAddr 0 (l.drop 2) with
    | none => .badFcs
    | some (_, m0) =>
      match hdlcAddr 0 m0 with
      | some (a, c :: m) =>
        let kind (info : List Byte) : Option HdlcBody :=
          if [1, 2, 4].contains (m0.length - m.length - 1) then hdlcBodyOf c.toNat info else none
        let head := l.take (l.length - m.length)
        if m.length = 2 then (if (l.getD 0 0).getLsbD 3 then .segmented else .good (BitVec.ofNat 32 a) (kind []))
        else if m.length < 4 ∨ !fcsGood (head ++ m.take 2) then .badFcs
        else if (l.getD 0 0).getLsbD 3 then .segmented
        else .good (BitVec.ofNat 32 a) (kind ((m.drop 2).take (m.length - 4)))
      | _ => .badFcs

/-- One character: the frame it ends, if it does, and the bytes behind the flag from then on, none before a flag. A frame is of the length its
format field gives, to a flag; a parity or framing error discards the frame in progress (R674). -/
def hdlcChar (cur : Option (List Byte)) (x : UartChar) : Option HdlcLine × Option (List Byte) :=
  let flag := decide (x.val = 0x7E)
  let start : Option (List Byte) := if flag then some [] else none
  if x.parity || x.framing then (none, none)
  else match cur with
    | none => (none, start)
    | some l =>
      if flag ∧ l = [] then (none, start)
      else if 2 ≤ l.length ∧ be l 0 2 % 2048 ≤ l.length then (if flag then (some (hdlcFrame l), start) else (some .badFcs, none))
      else if l.length = 1 ∧ be l 0 1 / 16 ≠ 10 then (none, start)
      else (none, some (l ++ [x.val]))

/-- A byte gap above 50 ms within a frame, up to time t (R677). -/
def byteGap (cur : Option (List Byte)) (last t : Nat) : Bool := cur.any (fun l => l ≠ []) && decide (last + 50000000 < t)

/-- The frames in a run of characters with the times of their begin and end; and what is left of the last, with when the last character ended. -/
def hdlcFrames : Option (List Byte) → Nat → List (UartChar × Nat × Nat) → List HdlcLine × Option (List Byte) × Nat
  | cur, last, [] => ([], cur, last)
  | cur, last, (x, a, z) :: xs =>
    let cut := byteGap cur last a
    let r := hdlcChar (if cut then none else cur) x
    let rest := hdlcFrames r.2 z xs
    ((if cut then [.gap] else []) ++ r.1.toList ++ rest.1, rest.2)

/-- A frame as it is sent: to a server address, from client 0x10. -/
def hdlcBytes (addr : BitVec 32) (ctl : Nat) (info : List Byte) : List Byte :=
  let a := addr.toNat
  let dst := toBe (if a < 2 ^ 8 then 1 else if a < 2 ^ 16 then 2 else 4) a
  let len := dst.length + 6 + (if info = [] then 0 else 2 + info.length)
  let head := toBe 2 (0xA000 + len) ++ dst ++ [0x21] ++ toBe 1 ctl
  let body := if info = [] then head else head ++ toLe 2 (fcs16 head) ++ info
  [0x7E] ++ body ++ toLe 2 (fcs16 body) ++ [0x7E]

/-- A UART's data bits and PARITY (R678). -/
def State.uartForm (s : State) (n : Nat) : Nat × Nat :=
  (if s.bitAt (uaA n rUART_CFG) 3 then 7 else 8, s.fld (uaA n rUART_CFG) 1 0)

/-- The bits of a frame of x characters. -/
def State.uartLength (s : State) (n x : Nat) : Nat :=
  x * (2 + (s.uartForm n).1 + (if (s.uartForm n).2 = 0 then 0 else 1) + (s.bitAt (uaA n rUART_CFG) 2).toNat)

/-- A frame sent on a loop, control byte and information field, to a station; while fenced the driver enable is inactive (R574). DE is asserted once
RX has been idle for IDLE_BITS, DE_LEAD before the first start bit, and released DE_LAG after the last stop bit (R676). -/
def State.hdlcSend (s : State) (n : Nat) (addr : BitVec 32) (ctl : Nat) (info : List Byte) : State :=
  let l := hdlcBytes addr ctl info
  let cfg (hi lo : Nat) := s.fld (uaA n rUART_CFG) hi lo
  let u := s.uart n
  let start := max (max s.now u.deTo) (u.rxEnd + s.uartBits n (cfg 23 16))
  let stop := start + s.uartBits n (cfg 11 8 + s.uartLength n l.length + cfg 15 12)
  if s.fenced then s
  else (s.setUart n { u with deFrom := if s.now < u.deTo then u.deFrom else start, deTo := stop }).send (13 + n) (addr.setWidth 128) l

/-- RESP_MS and POLL_MS in ns. -/
def State.respNs (s : State) (n : Nat) : Nat := s.fld (uaA n rUART_HDLC) 27 16 * 1000000
/-- See `respNs`. -/
def State.pollNs (s : State) (n : Nat) : Nat := s.fld (uaA n rUART_HDLC) 15 0 * 1000000

/-- A message ends with a status (R391, R677). -/
def State.endUMsg (s : State) (n : Nat) (m : UMsg) (status : Nat) : State :=
  let u := s.uart n
  s.setUart n { u with run := none, status := u.status ++ [(m.splice, mkCompletion m.chan m.tag [status, m.tries % 256 * 2 ^ 32, 0, 0, 0, 0, 0])] }

/-- A frame sent to a station that must answer within RESP_MS of the release of DE; a station told RNR is not polled before RETRY_AFTER is over (R229). -/
def State.askStation (s : State) (n k ctl : Nat) (info : List Byte) : State :=
  let x := (s.uart n).st k
  let next := s.now + s.pollNs n
  let s := s.hdlcSend n x.addr ctl info
  s.setStation n k { x with await := max s.now (s.uart n).deTo + s.respNs n, poll := if x.rnr then max x.poll next else next }

/-- The message being sent goes out once more (R677): N(S) and N(R) are the UART's. -/
def State.uartFire (s : State) (n : Nat) (m : UMsg) : State :=
  match (s.uart n).byAddr m.addr with
  | none => s.endUMsg n m 5
  | some (k, x) =>
    if m.kind = 1 then s.askStation n k 0x93 []
    else if m.kind = 2 then s.askStation n k 0x53 []
    else (s.askStation n k (x.vr % 8 * 32 + 16 + x.vs % 8 * 2) m.payload).uartCount n 8

/-- Does a station of the loop owe an answer. -/
def Uart.waits (u : Uart) : Bool := u.stations.any (fun e => decide (e.2.await ≠ 0))

/-- The UART goes on with its messages: while none waits for an answer, the present one again, else the next (R677: the window is 1). -/
def State.uartGo (s : State) (n : Nat) : State :=
  let u := s.uart n
  if u.waits then s
  else match u.run, u.queue with
    | some m, _ => if s.fenced then s.endUMsg n m 11 else s.uartFire n m
    | none, [] => s
    | none, m :: rest =>
      let s := s.setUart n { u with run := some m, queue := rest }
      if s.fenced then s.endUMsg n m 11 else s.uartFire n m

/-! ### Reception (R674 to R677) -/

/-- A station answers: no answer is awaited, it is not DOWN. -/
def State.stationHeard (s : State) (n k : Nat) : State :=
  let x := (s.uart n).st k
  let s := s.setStation n k { x with misses := 0, await := 0, down := false }
  if x.down then s.irq .uart n 0 else s

/-- N(R) of a station's frame: it acknowledges the I-frame being sent to it where it is the next number. -/
def State.uartAcked (s : State) (n k nr : Nat) : State :=
  let x := (s.uart n).st k
  match (s.uart n).run with
  | some m =>
    if m.kind = 0 ∧ m.addr = x.addr ∧ nr % 8 = (x.vs + 1) % 8 then (s.setStation n k { x with vs := (x.vs + 1) % 8 }).endUMsg n m 0 else s
  | none => s

/-- The message being sent to a station, where it is of some kinds, ends with a status. -/
def State.uartEnds (s : State) (n k : Nat) (kinds : List Nat) (status : Nat) : State :=
  match (s.uart n).run with
  | some m => if m.addr = ((s.uart n).st k).addr ∧ kinds.contains m.kind then s.endUMsg n m status else s
  | none => s

/-- An I-frame of a station (R224, R229, R242): handed to INGEST where N(S) is the next expected; refused, the station is told RNR and polled
again no earlier than RETRY_AFTER later. -/
def State.uartTake (s : State) (n : Fin 8) (k : Nat) (ns : Nat) (info : List Byte) : State :=
  let x := (s.uart n).st k
  if ns % 8 ≠ x.vr % 8 then s
  else
    let f : Frame := { port := ⟨13 + n.val, by omega⟩, sec := BitVec.ofNat 48 s.tsuTime.sec, ns := BitVec.ofNat 30 s.tsuTime.ns
                       addr := x.addr.setWidth 128, udp := none, sound := true, data := info, word7 := BitVec.ofNat 64 (ns % 8) }
    match s.takeUnit f with
    | (.refused r, s) =>
      let x := (s.uart n).st k
      ((s.hdlcSend n x.addr (x.vr % 8 * 32 + 16 + 5) []).setStation n k { x with rnr := true, poll := s.now + r * 100000000 }).uartCount n 9
    | (_, s) => s

/-- What a station's frame does (R677). -/
def State.hdlcBody (s : State) (n : Fin 8) (k : Nat) (b : HdlcBody) : State :=
  match b with
  | .i ns nr info => (s.uartAcked n k nr.toNat).uartTake n k ns.toNat info
  | .rr nr => s.uartAcked n k nr.toNat
  | .rnr nr => s.uartAcked n k nr.toNat
  | .ua =>
    match (s.uart n).run with
    | some m =>
      let x := (s.uart n).st k
      if m.addr ≠ x.addr ∨ m.kind = 0 then s
      else (s.setStation n k { x with up := m.kind == 1, vs := 0, vr := 0 }).endUMsg n m 0
    | none => s
  | .dm => (s.setStation n k { (s.uart n).st k with up := false }).uartEnds n k [0, 1, 2] 8
  | .frmr => (s.setStation n k { (s.uart n).st k with up := false }).uartEnds n k [0, 1, 2] 8

/-- A frame received (R213, R677). -/
def State.hdlcTake (s : State) (n : Fin 8) (x : HdlcLine) : State :=
  match x with
  | .gap => s.uartCount n 5
  | .badFcs => s.uartCount n 1
  | .segmented => if s.domOn 1 then (s.uartCount n 0).discard.2 else s.uartCount n 0
  | .good addr body =>
    let s := s.uartCount n 0
    match (s.uart n).byAddr addr, body with
    | some (k, _), some b => ((s.stationHeard n k).hdlcBody n k b).uartGo n
    | _, _ => s

/-- The samples a UART takes of its RX ball, the first at the present time: none while DE is asserted and for 1 bit time after (R676). -/
def State.uartHears (s : State) (n : Nat) (rx : List Bool) : List Bool :=
  rx.zipIdx.map (fun e =>
    let t := s.now + s.uartSamples n e.2
    e.1 || s.uartDe n t || decide ((s.uart n).deTo ≤ t ∧ t < (s.uart n).deTo + s.uartBits n 1))

/-- RX is idle from the sample after the last low one. -/
def State.rxIdle (s : State) (n : Nat) (l : List Bool) : State :=
  let low := (l.zipIdx.filter (fun e => !e.1)).map (fun e => e.2 + 1)
  s.setUart n { s.uart n with rxEnd := if low = [] then (s.uart n).rxEnd else s.now + s.uartSamples n (low.foldl max 0) }

/-- The line's errors counted (R674, R678): false starts, parity and framing errors. -/
def State.lineErrors (s : State) (n : Nat) (falseStarts : Nat) (l : List UartChar) : State :=
  let add (s : State) (i x : Nat) := s.bumpBk (uaA n rUART_CNT) i (2 ^ 32 - 1) x
  add (add (add s 4 falseStarts) 3 (l.filter (·.parity)).length) 2 (l.filter (·.framing)).length

/-- Characters with when each begins and ends. -/
def State.charTimes (s : State) (n : Nat) (l : List UartChar) : List (UartChar × Nat × Nat) :=
  l.map (fun x => (x, s.now + s.uartSamples n x.pos, s.now + s.uartSamples n x.pos + s.uartBits n (s.uartLength n 1)))

/-- HDLC_FRAME_RECEIVED (R674 to R677): the samples of the RX ball from time t on. -/
def execHdlcFrameReceived (n : Fin 8) (rx : List Bool) (t : Nat) (s : State) : Res :=
  let s := s.at t
  .next (if !s.uartOn n then s
    else
      let l := s.uartHears n rx
      let (fs, cs) := uartChars (s.uartForm n).1 (s.uartForm n).2 l.length l.length l
      let (fr, cur, last) := hdlcFrames (s.uart n).cur (s.uart n).last (s.charTimes n cs)
      let s := (s.rxIdle n l).lineErrors n fs cs
      fr.foldl (fun s x => s.hdlcTake n x) (s.setUart n { s.uart n with cur := cur, last := last }))

/-- HDLC_BYTE_GAP_ABORT (R677): 50 ms after the last byte of a frame that is not complete. -/
def execHdlcByteGapAbort (n : Fin 8) (t : Nat) (s : State) : Res :=
  let s := s.at t
  .next (if s.uartOn n && byteGap (s.uart n).cur (s.uart n).last s.now then (s.setUart n { s.uart n with cur := none }).uartCount n 5 else s)

/-! ### Polls and time-outs (R677) -/

/-- A station's entry read for a poll: what its check finds (R678). -/
def State.readStation (s : State) (n k : Nat) : State :=
  let (c, s) := s.inject .uart n 0 1
  if c = 1 then s.cause .uart n 0
  else if c = 2 then (s.setStation n k { (s.uart n).st k with bad := true }).cause .uart n 1
  else s

/-- HDLC_POLL (R677): the first station in entry order whose poll is due, with nothing else due on the loop. -/
def execHdlcPoll (n : Fin 8) (t : Nat) (s : State) : Res :=
  let s := s.at t
  let u := s.uart n
  .next (if !s.uartOn n || s.fenced || u.waits then s
    else if u.run.isSome || decide (u.queue ≠ []) then s.uartGo n
    else match u.stations.find? (fun e => e.2.valid && !e.2.bad && decide (e.2.poll ≤ s.now)) with
      | none => s
      | some (k, _) =>
        let s := s.readStation n k
        let x := (s.uart n).st k
        if x.bad then s
        else ((s.setStation n k { x with rnr := false }).askStation n k (x.vr % 8 * 32 + 16 + 1) []).uartCount n 6)

/-- A station's third silence running (R677, R678). -/
def State.stationDown (s : State) (n k : Nat) : State :=
  let x := (s.uart n).st k
  if x.misses < 3 ∨ x.down then s
  else ((s.setStation n k { x with down := true }).cause .uart n 2).irq .uart n 0

/-- HDLC_RESPONSE_TIMEOUT (R677). -/
def execHdlcResponseTimeout (n : Fin 8) (t : Nat) (s : State) : Res :=
  let s := s.at t
  .next (if !s.uartOn n then s
    else match (s.uart n).stations.find? (fun e => decide (e.2.await ≠ 0) && decide (e.2.await ≤ s.now)) with
      | none => s
      | some (k, x) =>
        let s := ((s.setStation n k { x with await := 0, misses := min 3 (x.misses + 1) }).uartCount n 7).stationDown n k
        let s := match (s.uart n).run with
          | some m =>
            if m.addr ≠ x.addr then s
            else
              let m := { m with tries := m.tries + 1 }
              if 3 ≤ m.tries then s.endUMsg n m 1 else s.setUart n { s.uart n with run := some m }
          | none => s
        s.uartGo n)

/-! ### Transmission (R386, R391, R677) -/

/-- A transmit descriptor read: address, kind and payload length; none where a field is out of range. -/
def uartDescriptor (c : Cell512) : Option (BitVec 32 × Nat × Nat) :=
  let w (i : Nat) := (cellWord c i).toNat
  if !cellFirst c ∨ cellLast c ∨ cellLen c ≠ 56 ∨ 2 ^ 32 ≤ w 1 ∨ 2 < w 2 ∨ 1280 < w 3 ∨ (w 2 = 0 ∧ w 3 = 0) ∨ w 4 ≠ 0 ∨ w 5 ≠ 0 ∨ w 6 ≠ 0 ∨
      w 7 ≠ 0 then none
  else some (BitVec.ofNat 32 (w 1), w 2, w 3)

/-- A status for a message that never became one (R386). -/
def State.refuseUMsg (s : State) (n spl : Nat) (c : Cell512) (status : Nat) : State :=
  let run := (s.uart n).run
  let s := s.endUMsg n ⟨spl, cellChan c, cellAux c, 0, 0, [], 0⟩ status
  s.setUart n { s.uart n with run := run }

/-- A whole message taken (R386, R677). -/
def State.uartMessage (s : State) (n spl : Nat) (c : Cell512) (rest : List Cell512) : State :=
  let data := rest.flatMap (fun d => cellBytes d (min 56 (cellLen d)))
  if s.fenced then s.refuseUMsg n spl c 11
  else if cellChan c ≠ 0xF200 + n ∨ cellTaint c ∨ rest.any cellTaint then s.refuseUMsg n spl c 8
  else match uartDescriptor c with
    | none => s.refuseUMsg n spl c 8
    | some (addr, kind, len) =>
      if data.length ≠ len then s.refuseUMsg n spl c 8
      else
        let u := s.uart n
        (s.setUart n { u with queue := u.queue ++ [⟨spl, cellChan c, cellAux c, addr, kind, data, 0⟩] }).uartGo n

/-- UART_TRANSMIT (R386, R677): a message popped from a splice of block end 0x06; none while 16 are held or 64 status cells wait. An
acknowledgement cell is left to ACK_CELL_CONSUMED. -/
def execUartTransmit (n : Fin 8) (spl : BitVec 13) (t : Nat) (s : State) : Res :=
  let s := s.at t
  let k := spl.toNat
  let u := s.uart n
  let chan := match s.begun k, s.peekCell k 0 with
    | c :: _, _ => cellChan c
    | [], some c => cellChan c
    | [], none => 0
  .next (if !s.uartOn n || decide (s.fld (descA k 1) 12 8 ≠ 6) || decide (16 ≤ u.queue.length + u.run.isSome.toNat) ||
        decide (64 ≤ u.status.length) || decide (4088 ≤ chan ∧ chan ≤ 4095) then s
    else
      let (gone, l, s) := s.takeMessage 6 k 64
      match gone, l with
      | c :: _, _ => s.refuseUMsg n k c 9
      | [], c :: rest => s.uartMessage n k c rest
      | [], [] => s)

/-! ### Registers (R678) -/

/-- A write of UART_CFG or UART_DIV is refused while EN is 1. -/
def State.uartBusy (s : State) (n o : Nat) : Bool := s.bitAt (uaA n 0x00C) 0 && (o = rUART_CFG || o = rUART_DIV)

/-- A COMMIT that would give two VALID stations one address. -/
def State.stationBad (s : State) (n k : Nat) : Bool :=
  s.bitAt (uaA n rUART_ST_CFG) 31 &&
  (s.uart n).stations.any (fun e => decide (e.1 ≠ k) && e.2.valid && decide (e.2.addr = s.rd (uaA n rUART_ST_ADDR)))

/-- The shadow applied: an entry that becomes VALID or changes its address starts with no link (log entry 31). -/
def State.commitStation (s : State) (n k : Nat) : State :=
  let c := s.rd (uaA n rUART_ST_CFG)
  let a := s.rd (uaA n rUART_ST_ADDR)
  let old := (s.uart n).st k
  let x := if bit c 31 ∧ (!old.valid ∨ old.addr ≠ a) then Station.off else old
  s.setStation n k { x with addr := a, valid := bit c 31, meter := bits c 19 0, bad := false }

/-- The shadow filled from an entry. -/
def State.loadStation (s : State) (n k : Nat) : State :=
  let x := (s.uart n).st k
  (s.wr (uaA n rUART_ST_ADDR) x.addr).wr (uaA n rUART_ST_CFG) (BitVec.ofNat 32 (x.valid.toNat * 2 ^ 31 + x.meter))

/-- A write of UART_ST_SEL (R396, R678). -/
def State.stSel (s : State) (q : Requester) (n : Nat) (v : Word32) : State :=
  s.guarded q (uaA n rUART_ST_SEL) v (bit v 31 && s.stationBad n (bits v 4 0)) fun s =>
    let s := s.plain (uaA n rUART_ST_SEL) (v.setWidth 64)
    if bit v 31 then s.commitStation n (bits v 4 0) else if bit v 30 then s.loadStation n (bits v 4 0) else s

/-- STATION_COMMIT (R678). -/
def execStationCommit (q : Requester) (n : Fin 8) (k : BitVec 5) (s : State) : Res :=
  .next (s.stSel q n (BitVec.ofNat 32 (2 ^ 31 + k.toNat)))

/-- STATION_LOAD (R678). -/
def execStationLoad (q : Requester) (n : Fin 8) (k : BitVec 5) (s : State) : Res :=
  .next (s.stSel q n (BitVec.ofNat 32 (2 ^ 30 + k.toNat)))

/-! ### The sensor bus (R679, R680) -/

/-- A register of the SBUS page. -/
abbrev sbA (o : Nat) : Nat := pa .sbus 0 o

/-- A valid reading of a slot (R679). -/
def State.sbusValue (s : State) (slot : Nat) (raw : Nat) : State :=
  let v := clampI (-32768) 32767 ((signed 16 raw * signed 16 (bits (s.bk (sbA rSB_SLOT_SCALE) slot) 15 0)) / 256)
  let w := (BitVec.ofInt 16 v).toNat
  let s := s.setBk (sbA rSB_SLOT_VAL) slot (BitVec.ofNat 64 (2 ^ 31 + w))
  let s := { s with sbus := place slot s.now (drop s.sbus slot)
                    meas := { s.meas with sbusAge := place slot (some 0) (drop s.meas.sbusAge slot) } }
  s.bumpBk (sbA rSB_CNT) 0 (2 ^ 32 - 1) 1

/-- Bus b is stuck, or no longer. -/
def State.setStuck (s : State) (b : Nat) (on : Bool) : State :=
  let was := s.bitAt (sbA rSB_STAT) (2 + b)
  let s := s.putBit (sbA rSB_STAT) (2 + b) on
  if on && !was then (s.cause .sbus 0 1).irq .sbus 0 0 else s

/-- When a slot's next reading is due. -/
def sbusKey (k : Nat) : Nat := sbA rSB_SLOT_CFG + 2 ^ 24 * (k + 1)

/-- Is an enabled slot's reading due. -/
def State.sbusDue (s : State) (k : Nat) : Bool :=
  bit (s.bk (sbA rSB_SLOT_CFG) k) 31 && decide (s.timer (sbusKey k) ≠ 0) && decide (s.timer (sbusKey k) ≤ s.now)

/-- A slot's PERIOD_S in ns. -/
def State.sbusPeriod (s : State) (k : Nat) : Nat := bits (s.bk (sbA rSB_SLOT_CFG) k) 7 0 * 1000000000

/-- SBUS_SLOT_READ (R679): of a slot that is due; slots due together on one bus go in ascending order. -/
def execSbusSlotRead (slot : BitVec 5) (x : SbusRead) (t : Nat) (s : State) : Res :=
  let s := s.at t
  let k := slot.toNat
  let cfg := s.bk (sbA rSB_SLOT_CFG) k
  let b := (bit cfg 30).toNat
  let first := !(List.range k).any (fun j => s.sbusDue j && decide (bit (s.bk (sbA rSB_SLOT_CFG) j) 30 = bit cfg 30))
  .next (if !s.domOn 12 || !s.bitAt (sbA 0x00C) 0 || !s.sbusDue k || !first || decide (s.pmxFunc (47 + b) ≠ 5) then s
    else
      let s := s.setTimer (sbusKey k) (s.timer (sbusKey k) + s.sbusPeriod k)
      match x with
      | .value raw => (s.setStuck b false).sbusValue k raw.toNat
      | .nack => ((s.setStuck b false).cause .sbus 0 0).bumpBk (sbA rSB_CNT) 1 (2 ^ 32 - 1) 1
      | .stretched => s.bumpBk (sbA rSB_CNT) 2 (2 ^ 32 - 1) 1
      | .sdaLow freed => (s.bumpBk (sbA rSB_CNT) 3 (2 ^ 32 - 1) 1).setStuck b (!freed))

/-- A write of SB_SLOT_CFG (R679, R680): a slot enabled anew has no valid reading yet, its AGE counts from now, and its first reading is due
PERIOD_S later. -/
def State.slotCfg (s : State) (q : Requester) (v : Word32) : State :=
  let k := s.fld (sbA rSB_SEL) 4 0
  s.guarded q (sbA rSB_SLOT_CFG) v false fun s =>
    let was := bit (s.bk (sbA rSB_SLOT_CFG) k) 31
    let s := s.plain (sbA rSB_SLOT_CFG) (v.setWidth 64)
    if bit v 31 && !was then
      let s := (s.setBk (sbA rSB_SLOT_VAL) k 0).setTimer (sbusKey k) (s.now + s.sbusPeriod k)
      { s with sbus := place k s.now (drop s.sbus k), meas := { s.meas with sbusAge := drop s.meas.sbusAge k } }
    else if bit v 31 then s else s.setTimer (sbusKey k) 0

end Sys2Proof.Machine
end

