-- ==== Sys2Proof/Machine/Window.lean ====
section
/-! DEFINITION. Accesses to the register window by any requester (R45 to R71): each register's own write and read effect found by its
page and offset, the two halves of 64-bit registers, the page header. -/

namespace Sys2Proof.Machine

/-- The index of an offset in an array of n registers that begins at base. -/
def arrIdx (o base stride n : Nat) : Option Nat :=
  if base ≤ o ∧ o < base + stride * n ∧ (o - base) % stride = 0 then some ((o - base) / stride) else none

/-! ### The page header (R58 to R66) -/

/-- A write of BLK_CTRL.EN that a chapter forbids in the block's present state. -/
def State.enBad (s : State) (p : Pg) (inst : Nat) (en : Bool) : Bool :=
  match p with
  | .eth => en && decide (s.ethMac inst = 0)
  | .sgmii => en && decide (s.ethMac (inst + 4) = 0)
  | .radio => en && decide (s.rd64 (pa .radio inst rRAD_EXT) = 0)
  | .plc => en && decide (s.rd64 (pa .plc 0 rPLC_EXT) = 0)
  | .plcPh => en && !s.bitAt (pa .plc 0 0x00C) 0
  | .nand => !en && s.rig.frames
  | .ddr => !en && s.rig.frames
  | _ => false

/-- The effect of a write of BLK_CTRL.EN; ok: TRNG's tests pass when it starts (R480). -/
def State.enEffect (s : State) (q : Requester) (p : Pg) (inst : Nat) (v : Word32) (ok : Bool) : State :=
  match p with
  | .ingest => s.ingEnable q v
  | .nand => s.nandEnable q v
  | .meas => s.measEnable q v
  | .radio => s.radioEnable q inst v
  | .plc => s.plcEnable q v
  | .plcPh => s.phEnable q (inst + 4) v
  | .pair => s.pairEnable q v
  | .eth => s.ethEnable q inst v
  | .sgmii => s.ethEnable q (inst + 4) v
  | .trng =>
    let was := s.bitAt (pa .trng 0 0x00C) 0
    let s := s.putBit (pa .trng 0 0x00C) 0 (bit v 0)
    if bit v 0 && !was then s.trngStart ok else if bit v 0 then s else s.putBit (pa .trng 0 rTRNG_STAT) 0 false
  | .bal =>
    if s.bitAt (balA 0x00C) 0 = bit v 0 then s else (s.putBit (balA 0x00C) 0 (bit v 0)).putBit (balA rBAL_STAT) 0 false
  | p => if (pageInfo p).enWritable then s.putBit (pa p inst 0x00C) 0 (bit v 0) else s

/-- A write of BLK_CTRL (R58, R64, R65): of a locked page only LOCK_REQ takes effect. -/
def State.blkCtrl (s : State) (q : Requester) (p : Pg) (inst : Nat) (v : Word32) : State :=
  let a := pa p inst 0x00C
  s.guarded q a v (s.enBad p inst (bit v 0) || (bit v 1 && s.srstBad p inst)) fun s =>
    if s.locked a then s.freeLock a
    else
      let (w, s) := if p = .trng then s.draw else (0, s)
      let s := s.enEffect q p inst v (bit w 0)
      let s := if bit v 2 then s.takeLock q a else s
      if bit v 1 then s.srstStart p inst else s

/-- A write to an interrupt register leaves its vector's request at 1: a message is due again (R666). -/
def State.reraise (s : State) (p : Pg) (inst : Nat) : State :=
  match vectorOf p inst with
  | none => s
  | some v => if s.request v then s.fire v else s

/-- BLK_ERR bits cleared (R61), and what clears with them (R209). -/
def State.errClear (s : State) (p : Pg) (inst : Nat) (v : Word32) : State :=
  let a := pa p inst 0x014
  let s := s.wr a (s.rd a &&& ~~~v)
  if p = .splice then
    let s := if bit v 2 then s.wr (pa .splice 0 rSPL_OVR_FIRST) 0 else s
    if bit v 3 then s.wr (pa .splice 0 rSPL_PTR_FIRST) 0 else s
  else s

/-- BLK_IRQ_STAT bits cleared (R63); PINMUX's EDGE bit shows PMX_GPIO_EDGE. -/
def State.irqClear (s : State) (p : Pg) (inst : Nat) (v : Word32) : State :=
  let a := pa p inst 0x020
  let s := s.wr a (s.rd a &&& ~~~v)
  if p = .pinmux then s.putBit a 1 (s.bitAt a 1 || decide (s.rd (pa .pinmux 0 rPMX_GPIO_EDGE) ≠ 0)) else s

/-- A write of BLK_ERR_INJ (R62): the implemented bits and CONT. -/
def State.injArm (s : State) (q : Requester) (p : Pg) (inst : Nat) (v : Word32) : State :=
  s.guarded q (pa p inst 0x01C) v false fun s =>
    if (pageInfo p).inj then s.wr (pa p inst 0x01C) (v &&& BitVec.ofNat 32 ((pageInfo p).injMask ||| 2 ^ 31)) else s

/-- A write of BLK_IRQ_SET (R63). -/
def State.irqSet (s : State) (q : Requester) (p : Pg) (inst : Nat) (v : Word32) : State :=
  s.guarded q (pa p inst 0x028) v false fun s =>
    (s.wr (pa p inst 0x020) (s.rd (pa p inst 0x020) ||| (v &&& BitVec.ofNat 32 (pageInfo p).irq))).reraise p inst

/-- A write of BLK_LOCK (R10, R65): a 1 sets STICKY, on an unlocked page too. -/
def State.stickyWrite (s : State) (q : Requester) (p : Pg) (inst : Nat) (v : Word32) : State :=
  let a := pa p inst 0x02C
  s.guarded q a v false fun s => if bit v 30 then s.putBit a 30 true else s

/-- A write of BLK_OWNER (R66). -/
def State.ownerWrite (s : State) (q : Requester) (p : Pg) (inst : Nat) (v : Word32) : State :=
  let a := pa p inst 0x030
  s.guarded q a v false fun s =>
    if (pageInfo p).owner ≠ .h then s else if bit v 31 then s.claim q a (bits v 15 0) else s.wr a 0

/-- A write to a page's header. -/
def State.headerWrite (s : State) (q : Requester) (p : Pg) (inst o : Nat) (v : Word32) : State :=
  let a := pa p inst o
  if o = 0x00C then s.blkCtrl q p inst v
  else if o = 0x014 then s.guarded q a v false fun s => if (pageInfo p).errLine then s.errClear p inst v else s
  else if o = 0x018 then s.guarded q a v false fun s =>
    if (pageInfo p).errLine then s.wr a (v &&& BitVec.ofNat 32 (pageInfo p).err) else s
  else if o = 0x01C then s.injArm q p inst v
  else if o = 0x020 then s.guarded q a v false fun s => (s.irqClear p inst v).reraise p inst
  else if o = 0x024 then s.guarded q a v false fun s => (s.wr a (v &&& BitVec.ofNat 32 (pageInfo p).irq)).reraise p inst
  else if o = 0x028 then s.irqSet q p inst v
  else if o = 0x02C then s.stickyWrite q p inst v
  else if o = 0x030 then s.ownerWrite q p inst v
  else s.guarded q a v false id

/-! ### Block-specific registers -/

/-- A write by the register's fields alone (R10, R11, R15). -/
def State.plainWrite (s : State) (q : Requester) (a : Nat) (v : Word32) (bad : Bool) : State :=
  s.guarded q a v bad fun s => s.plain a (v.setWidth 64)

/-- Writes to the pages of the chip's own management (CHIP to EVR). -/
def State.mgmtWrite (s : State) (q : Requester) (p : Pg) (o : Nat) (v : Word32) : State :=
  let a := pa p 0 o
  match p with
  | .pinmux =>
    if o = rPMX_CLAIM then s.pmxClaim q v
    else if o = rPMX_GPIO_DIR ∨ o = rPMX_GPIO_OUT ∨ o = rPMX_GPIO_SET ∨ o = rPMX_GPIO_CLR ∨ o = rPMX_GPIO_RISE ∨
        o = rPMX_GPIO_FALL ∨ o = rPMX_GPIO_EDGE then s.gpioWrite q o v
    else if rPMX_TMR_LOAD ≤ o ∧ o < rPMX_TMR_LOAD + 64 then s.tmrWrite q o v
    else s.plainWrite q a v false
  | .pwr =>
    if o = rPWR_SLEEP then s.sleepWrite q v
    else match arrIdx o rPWR_DOM 4 17 with
      | some k => s.pwrDom q (k + 1) v
      | none => s.plainWrite q a v false
  | .rst => if o = rRST_CTRL then s.rstCtrl q v else s.plainWrite q a v false
  | .clk => match arrIdx o rCLK_LAY 4 8 with
    | some n => s.plainWrite q a v (!s.layQuiet n)
    | none => s.plainWrite q a v false
  | .fc =>
    if o = rFC_FORCE then s.fcForce q v
    else if o = rFC_PIN then s.fcPin q v
    else if o = rFC_FIRST then s.guarded q a v false fun s => if bit v 31 then s.wr a 0 else s
    else if o = rFC_OVERFLOW then s.guarded q a v false fun s => if bit v 31 then s.wr a 0 else s
    else s.plainWrite q a v false
  | .wdog =>
    if o = rWDG_HOST_CFG then s.hostCfg q v
    else if o = rWDG_HOST_KICK then s.hostKick q v
    else if o = rWDG_LANY_KICK then s.lanyKick q v
    else if o = rLNY_INJ then s.lanyInj q v
    else if o = rLNY_ERR then s.lanyErr q v
    else s.plainWrite q a v false
  | .lease => if o = rLEASE_CTRL then s.leaseCtrl q v else s.plainWrite q a v false
  | .evr =>
    if o = rEVR_CTRL then s.evrCtrl q v
    else if o = rEVR_SUBMIT then s.evrSubmit q v
    else if o = rEVR_RD_CMD then s.evrRead q v
    else if o = rEVR_CLS_ADDR then s.guarded q a v false fun s =>
      let i := s.fld (evA rEVR_CLS_SEL) 11 0
      let was := s.bk a i
      let s := s.plain a (v.setWidth 64)
      if s.bk a i = was then s else s.lanyEvent 0x02 [i % 256, 2 ^ (i / 256)]
    else s.plainWrite q a v false
  | _ => s.plainWrite q a v false

/-- Writes to the pages of the lays and what feeds them (LAY to BAL). LAY_FLOOR and LAY_CEIL are held to 400,000 to 1,000,000 each for
itself, and one above the other is taken (DESIGN CHOICE, log entry 34: R180 does not say whether that is outside the range of R145). -/
def State.layWrite (s : State) (q : Requester) (p : Pg) (inst o : Nat) (v : Word32) : State :=
  let a := pa p inst o
  match p with
  | .lay =>
    if o = rLAY_CTRL then s.layCtrl q inst v
    else if o = rLAY_RETURN then s.layReturn q inst v
    else if rLAY_TURN_LEN ≤ o ∧ o ≤ rLAY_CEIL then
      s.guarded q a v (!s.layQuiet inst) fun s =>
        if o = rLAY_TURN_LEN ∧ bits v 16 0 % 64 ≠ 0 then s else s.plain a (v.setWidth 64)
    else s.plainWrite q a v false
  | .splice => if o = rSPL_FLUSH then s.splFlush q v else s.plainWrite q a v false
  | .ingest =>
    if o = rING_CTRL then s.ingCtrl q v else if o = rING_SRC_SEL then s.srcSel q v else s.plainWrite q a v false
  | .meterdb =>
    if o = rMDB_RD_CMD then s.mdbRead q v
    else if o = rMDB_WR_CMD then s.mdbWrite q v
    else if o = rMDB_BULK_CMD then
      let n := if bit v 31 then s.fld (pa .meterdb 0 rMDB_BULK_CNT) 20 0 else 0
      let (l, s) := s.drawN n
      let (d, s) := if bit v 30 then s.draw else (0, s)
      s.mdbBulk q v (l.map (fun w => (bits w 19 0, bits w 22 20))) (bits d 20 0)
    else if rMDB_WR_BUF ≤ o ∧ o < rMDB_WR_BUF + 512 then s.mdbBuf q o v
    else s.plainWrite q a v false
  | .bal =>
    if o = rBAL_CTRL ∨ (rBAL_LAMBDA ≤ o ∧ o ≤ rBAL_ZERO) then s.balReg q o v else s.plainWrite q a v false
  | _ => s.plainWrite q a v false

/-- Writes to the pages of measurement, keys, cryptography and life cycle. -/
def State.keyWrite (s : State) (q : Requester) (p : Pg) (inst o : Nat) (v : Word32) : State :=
  let a := pa p inst o
  match p with
  | .meas =>
    if o = rMEAS_CTRL ∨ (rMEAS_CH_EN ≤ o ∧ o < rMEAS_STUCK) then s.measWrite q o v
    else match arrIdx o rMEAS_TEMP_HOST 4 16 with
      | some k => s.hostTempWrite q k v
      | none => s.plainWrite q a v false
  | .mp => s.mpWrite q inst o v
  | .key => if o = rKEY_CMD then s.keyCmd q v else s.plainWrite q a v false
  | .aead =>
    if o = rJOB_CMD then
      let (w, s) := if bits v 3 0 = 7 then s.draw else (0, s)
      s.aeadCmd q v (bit w 0)
    else s.plainWrite q a v false
  | .hash =>
    if o = rJOB_CMD then
      let (w, s) := if bits v 3 0 = 7 then s.draw else (0, s)
      s.hashCmd q v (bit w 0)
    else s.plainWrite q a v false
  | .pke =>
    if o = rPKE_CMD then
      let (w, s) := if bits v 3 0 = 8 then s.draw else (0, s)
      s.pkeCmd q v (bit w 0)
    else s.plainWrite q a v false
  | .lcs =>
    if o = rLCS_CTRL then
      let (w, s) := if bit v 31 then s.draw else (0, s)
      s.lcsCtrl q v (w.extractLsb' 0 2)
    else if o = rLCS_OTP_CMD then s.otpCmd q v
    else s.plainWrite q a v false
  | .tamper =>
    if o = rTAMPER_STAT then s.tamperStat q v
    else match arrIdx o rTAMPER_CFG 4 4 with
      | some k => s.tamperCfg q k v
      | none => s.plainWrite q a v false
  | .totals =>
    if o = rTOT_CLEAR then s.totClear q v
    else if o = rTOT_SEL then s.totSel q v
    else if o = rTOT_DM_CFG then s.totDmCfg q v
    else s.plainWrite q a v false
  | .pulse =>
    match arrIdx o rPUL_CFG 16 16, arrIdx o rPUL_WEIGHT 16 16 with
    | some k, _ => s.pulseCfg q k v
    | none, some k => s.pulseWeight q k v
    | none, none => s.plainWrite q a v false
  | _ => s.plainWrite q a v false

/-- Writes to the pages of time and the media access controllers. -/
def State.airWrite (s : State) (q : Requester) (p : Pg) (inst o : Nat) (v : Word32) : State :=
  let a := pa p inst o
  match p with
  | .tsu =>
    if o = rTSU_FREQ then s.tsuFreqWrite q v
    else if o = rTSU_SLEW then s.tsuSlew q v
    else if o = rTSU_SLEW_RATE then s.tsuSlewRate q v
    else if o = rTSU_IVL then s.tsuIvl q v
    else if o = rTSU_STEP_CTL then s.tsuStepCtl q v
    else if o = rTSU_PPS then s.ppsWrite q v
    else s.plainWrite q a v false
  | .rtc =>
    if o = rRTC_CTRL then s.rtcCtrl q v
    else if o = rRTC_CAL_DATE then s.calDateWrite q v
    else if o = rRTC_CAL_OFS then s.calOfsWrite q v
    else if o = rRTC_CAL_TIME then s.calTimeWrite q v
    else s.plainWrite q a v false
  | .radio =>
    if o = rRAD_CFG then s.macCfg q p inst v
    else if o = rRAD_NB_SEL then s.nbSel q inst v
    else if o = rRAD_CSMA then s.csmaWrite q inst v
    else if o = rRAD_CHAN then s.chanWrite q inst v
    else if o = rRAD_TXCTR_RST then s.txctrRst q inst v
    else if o = rRAD_XREG then
      let (w, s) := if bit v 31 && !bit v 30 then s.draw else (0, s)
      s.xreg q inst v (w.extractLsb' 0 8)
    else match arrIdx o rRAD_KEYSLOT 4 4 with
      | some k => s.keySlotWrite q inst k v
      | none => s.plainWrite q a v false
  | .plc =>
    if o = rPLC_CFG then s.macCfg q p inst v
    else if o = rPLC_CSMA then s.csmaWrite q 4 v
    else if o = rPLC_BCN_KEY then s.keySlotWrite q 4 4 v
    else if o = rPLC_TXCTR_RST then s.txctrRst q 4 v
    else if o = rPLC_SLOT then s.plcSlot q v
    else match arrIdx o rPLC_KEYSLOT 4 4 with
      | some k => s.keySlotWrite q 4 k v
      | none => s.plainWrite q a v false
  | .plcPh =>
    if o = rPH_CFG then s.macCfg q p inst v
    else if o = rPH_NB_SEL then s.nbSel q (inst + 4) v
    else s.plainWrite q a v false
  | _ => s.plainWrite q a v false

/-- A write to the page of Ethernet port n. -/
def State.ethWrite (s : State) (q : Requester) (n o : Nat) (v : Word32) : State :=
  let a := ethA n o
  if o = rETH_NC_FLUSH then s.ethFlush q n v
  else if o = rSG_MDIO ∧ n = 4 then
    let (w, s) := if bit v 31 then s.draw else (0, s)
    s.mdio q v (w.extractLsb' 0 16)
  else match arrIdx o rETH_ADDR_CTL 4 4 with
    | some k => s.ethAddrCtl q n k v
    | none => s.plainWrite q a v (s.ethBusy n o)

/-- Writes to the pages of the local interfaces, storage, the host link and the pair. -/
def State.ioWrite (s : State) (q : Requester) (p : Pg) (inst o : Nat) (v : Word32) : State :=
  let a := pa p inst o
  match p with
  | .eth => s.ethWrite q inst o v
  | .sgmii => s.ethWrite q (inst + 4) o v
  | .uart =>
    if o = rUART_CFG ∨ o = rUART_DIV then s.plainWrite q a v (s.uartBusy inst o)
    else if o = rUART_ST_SEL then s.stSel q inst v
    else s.plainWrite q a v false
  | .sbus => if o = rSB_SLOT_CFG then s.slotCfg q v else s.plainWrite q a v false
  | .nand => if o = rNAND_GC then s.plainWrite q a v (decide (bits v 15 8 ≤ bits v 7 0)) else s.plainWrite q a v false
  | .qspi => if o = rQSPI_CMD then s.qspiCmd q v else s.plainWrite q a v false
  | .pcie =>
    if s.bitAt (pa .pcie 0 rPCIE_STAT) 7 then s.guarded q a v false id
    else if o = rPCIE_RC_CTRL then s.ringCtrl q v
    else if o = rPCIE_RC_CFG then s.plainWrite q a v s.rcBad
    else s.plainWrite q a v false
  | .pair =>
    if o = rPAIR_CTRL then s.pairCtrl q v
    else if o = rPAIR_KEYSLOT then s.pairKeySlot q v
    else if o = rPAIR_HOST_CMD then
      let (w, s) := if bit v 31 then s.draw else (0, s)
      s.pairHost q v (bit w 0)
    else s.plainWrite q a v false
  | _ => s.plainWrite q a v false

/-- The group of pages that a block's writes are listed with. -/
def pgGroup : Pg → Fin 5
  | .chip => 0 | .pinmux => 0 | .pwr => 0 | .rst => 0 | .clk => 0 | .fc => 0 | .wdog => 0 | .lease => 0 | .sens => 0 | .evr => 0
  | .lay => 1 | .strand => 1 | .splice => 1 | .ingest => 1 | .meterdb => 1 | .bal => 1
  | .meas => 2 | .mp => 2 | .key => 2 | .kdf => 2 | .aead => 2 | .pke => 2 | .hash => 2 | .trng => 2 | .lcs => 2 | .tamper => 2
  | .totals => 2 | .pulse => 2
  | .tsu => 3 | .rtc => 3 | .radio => 3 | .plc => 3 | .plcPh => 3
  | .eth => 4 | .sgmii => 4 | .uart => 4 | .sbus => 4 | .wake => 4 | .nand => 4 | .ddr => 4 | .qspi => 4 | .upd => 4 | .pcie => 4
  | .dbg => 4 | .pair => 4

/-- A 32-bit write of a block-specific register. -/
def State.blockWrite (s : State) (q : Requester) (p : Pg) (inst o : Nat) (v : Word32) : State :=
  match pgGroup p with
  | 0 => s.mgmtWrite q p o v
  | 1 => s.layWrite q p inst o v
  | 2 => s.keyWrite q p inst o v
  | 3 => s.airWrite q p inst o v
  | 4 => s.ioWrite q p inst o v

/-! ### 64-bit registers (R55 to R57) -/

/-- A write of a 64-bit register that its chapter forbids in the block's present state. -/
def State.wideBad (s : State) (p : Pg) (inst o : Nat) : Bool :=
  match p with
  | .rtc => o = rRTC_TIME && !s.bitAt (pa .rtc 0 rRTC_CTRL) 0
  | .lay => o = rLAY_LD_DATA && !s.ldMay inst
  | .strand => o = rSTR_DBG_DATA && decide (s.strandSt (inst / 16) (inst % 16) ≠ 5)
  | .pcie => (o = rPCIE_RC_BASE || o = rPCIE_RC_WB) && s.rcBad
  | .eth => s.ethBusy inst o
  | .sgmii => s.ethBusy (inst + 4) o
  | .mp => staged o && s.bitAt (pa .mp inst rMP_STAT) 31
  | _ => false

/-- A 64-bit register committed whole; o: the low half's offset (R48, R57). -/
def State.commit (s : State) (q : Requester) (p : Pg) (inst o : Nat) (v : Word64) : State :=
  let a := pa p inst o
  if p = .fc ∧ o = rFC_STATUS then s.fcStatus q v
  else if p = .rtc ∧ o = rRTC_TIME then s.rtcTime q v
  else if p = .lay ∧ o = rLAY_LD_DATA then s.ldCommit q inst v
  else if p = .strand ∧ o = rSTR_DBG_DATA then s.dbgDataWrite q inst v
  else if p = .totals ∧ o = rTOT_SW_DATA then s.totSwData q v
  else if p = .pcie ∧ s.bitAt (pa .pcie 0 rPCIE_STAT) 7 then s.guarded q a (v.extractLsb' 0 32) false id
  else s.guarded q a (v.extractLsb' 0 32) (s.wideBad p inst o) fun s => s.plain a v

/-- The 64 bits a high-half write commits (R57): with no valid shadow the low half's RW fields keep their values, which of STR_DBG_DATA and
LAY_LD_DATA are the strand's and the memory's, and its W1C and W1S bits are written 0. -/
def State.commitValue (s : State) (q : Requester) (a : Nat) (hi : Word32) : Word64 :=
  match s.shadowOf q a with
  | some lo => hi.append lo
  | none =>
    let low : Word64 := match Machine.pageAt (a / 4096) with
      | none => 0
      | some (p, i) =>
        if p = .strand ∧ a % 4096 / 8 * 8 = rSTR_DBG_DATA then s.viewDbgData i
        else if p = .lay ∧ a % 4096 / 8 * 8 = rLAY_LD_DATA then (s.ldRead i).1
        else match rowAt p (a % 4096) with
        | none => 0
        | some r => r.fields.foldl (fun (v : Word64) (f : Field) =>
            if f.acc = .rw then (putBits v f.hi f.lo (bits (s.regVal p i r (a % 4096)) f.hi f.lo)) else v) (0 : Word64)
    hi.append (low.extractLsb' 0 32)

/-- A write of the low half of a 64-bit register (R57). -/
def State.lowHalfWrite (s : State) (q : Requester) (p : Pg) (inst o : Nat) (v : Word32) : State :=
  s.guarded q (pa p inst o) v (s.wideBad p inst o) fun s => s.setShadow q (pa p inst o) v

/-- A write of the high half of a 64-bit register (R57); o: its own offset. -/
def State.highHalfWrite (s : State) (q : Requester) (p : Pg) (inst o : Nat) (v : Word32) : State :=
  let a := pa p inst o
  s.guarded q a v (s.wideBad p inst (o - 4)) fun s => (s.dropShadow q a).commit q p inst (o - 4) (s.commitValue q a v)

/-! ### Any access -/

/-- A write to a word of a splice descriptor (R191). -/
def State.descWrite (s : State) (q : Requester) (a : Nat) (v : Word32) : State :=
  let n := (a - 0x400000) / 16
  if a % 16 = 0 then s.splCfg q n v
  else if a % 16 = 4 then s.splEnds q n v
  else s.guarded q a v (6336 ≤ n) fun s =>
    if !bit v 30 then s
    else if a % 16 = 8 then s.setSpl n { s.spl n with overrun := false }
    else s.setSpl n { s.spl n with ptrRst := false }

/-- A 32-bit write with all byte enables (R48, R52). -/
def State.write32 (s : State) (q : Requester) (a : Nat) (v : Word32) : State :=
  if isDesc a then s.descWrite q a v
  else match (if mapped a then Machine.pageAt (a / 4096) else none) with
    | none => s.guarded q a v false id
    | some (p, i) =>
      let o := a % 4096
      if o < 0x040 then s.headerWrite q p i o v
      else if isWide a then (if a % 8 = 0 then s.lowHalfWrite q p i o v else s.highHalfWrite q p i o v)
      else s.blockWrite q p i o v

/-- One word of a write: fewer than all byte enables are refused (R48). -/
def State.writeWord (s : State) (q : Requester) (a : Nat) (be : Bool) (v : Word32) : State :=
  if be then s.write32 q a v
  else match s.refusal q a false v false false with
    | some c => s.refuse q a c
    | none => s

/-- A 32-bit or 64-bit write (R48); be: all four byte enables of the lower and of the upper word are set. -/
def State.windowWrite (s : State) (q : Requester) (a0 : Nat) (wide : Bool) (be : BitVec 2) (v : Word64) : State :=
  let a := a0 / 4 * 4
  let lo : Word32 := v.extractLsb' 0 32
  let hi : Word32 := v.extractLsb' 32 32
  if !wide then s.writeWord q a (be.getLsbD 0) lo
  else if a % 8 = 0 ∧ isWide a then
    match Machine.pageAt (a / 4096) with
    | some (p, i) =>
      if be ≠ 3 then s.writeWord q a false lo
      else s.guarded q a lo (s.wideBad p i (a % 4096)) fun s => (s.commit q p i (a % 4096) v).dropShadow q a
    | none => s
  else (s.writeWord q a (be.getLsbD 0) lo).writeWord q (a + 4) (be.getLsbD 1) hi

/-- A read of one word, its effects included (R12, R47 to R49, R56). -/
def State.readWord (s : State) (q : Requester) (a : Nat) : State :=
  let s := if a / 4096 = ingA 0 / 4096 then s.ingRead a else s
  if a = pa .splice 0 rSPL_PEEK_DATA then
    let s := s.poolPeek q
    { s with rdata := (s.rdata.extractLsb' 0 32).setWidth 64 }
  else if a = pa .trng 0 rTRNG_OUT then s.trngRead q false
  else if a = pa .rtc 0 rRTC_CAL_DATE ∧ !s.srstBusy a then s.calDateRead q
  else if a = pa .rtc 0 rRTC_CAL_TIME ∧ !s.srstBusy a then s.calTimeRead q
  else match arrIdx a (pa .lay 0 rLAY_LD_DATA) 4096 8 with
    | some n => { s.loadPortRead q n with rdata := ((s.loadPortRead q n).rdata.extractLsb' 0 32).setWidth 64 }
    | none =>
      if a = pa .sens 0 rSENS_T_MAX ∧ s.domOn 2 then
        let s := s.read32 q a
        { s with lany := { s.lany with seen := false } }
      else if inBuf a ∧ s.domOn 1 then
        if a < mdbA rMDB_WR_BUF ∧ s.mdbBusy 0 then { s with rdata := 0 }
        else
          let (ue, s) := s.mdbBufRead
          let s := s.read32 q a
          if ue then
            let (w, s) := s.draw
            { s with rdata := (w.extractLsb' 0 32).setWidth 64 }
          else s
      else s.read32 q a

/-- A 64-bit read of a 64-bit register (R56). -/
def State.readWide (s : State) (q : Requester) (a : Nat) : State :=
  let s := if a / 4096 = ingA 0 / 4096 then s.ingRead a else s
  if a = pa .splice 0 rSPL_PEEK_DATA then s.poolPeek q
  else if a = pa .trng 0 rTRNG_OUT then s.trngRead q true
  else match arrIdx a (pa .lay 0 rLAY_LD_DATA) 4096 8 with
    | some n => s.loadPortRead q n
    | none => s.read64 q a

/-- The bytes that a read enables; the others of the answer are 0 here. -/
def enabledBytes (be : BitVec 8) (v : Word64) : Word64 :=
  (List.range 8).foldl (fun x i => if be.getLsbD i then x else Sys2Proof.putBits x (8 * i + 7) (8 * i) 0) v

/-- A 32-bit or 64-bit read (R48); in VOID the debug port has no access at all (R50): its read answers 0 and does nothing. -/
def State.windowRead (s : State) (q : Requester) (a0 : Nat) (wide : Bool) (be : BitVec 8) : State :=
  let a := a0 / 4 * 4
  let s := s.readBy q fun s =>
    if !wide then s.readWord q a
    else if a % 8 = 0 ∧ isWide a then s.readWide q a
    else
      let s1 := s.readWord q a
      let s2 := s1.readWord q (a + 4)
      { s2 with rdata := (s2.rdata.extractLsb' 0 32).append (s1.rdata.extractLsb' 0 32) }
  { s with rdata := enabledBytes be s.rdata }

/-! ### The commands -/

/-- WINDOW_WRITE (R52): a 32-bit or 64-bit write at a window offset; be: for each word, all four of its byte enables. -/
def execWindowWrite (q : Requester) (a : BitVec 24) (wide : Bool) (be : BitVec 2) (v : BitVec 64) (t : Nat) (s : State) : Res :=
  .next ((s.at t).windowWrite q a.toNat wide be v)

/-- RC_READ (R12): a 32-bit or 64-bit read at a window offset; be: the byte enables. -/
def execRcRead (q : Requester) (a : BitVec 24) (wide : Bool) (be : BitVec 8) (t : Nat) (s : State) : Res :=
  .next ((s.at t).windowRead q a.toNat wide be)

/-- WIDE_LOW_HALF_READ (R56). -/
def execWideLowHalfRead (q : Requester) (a : BitVec 24) (t : Nat) (s : State) : Res :=
  .next ((s.at t).windowRead q (a.toNat / 8 * 8) false 0xFF)

/-- WIDE_LOW_HALF_WRITE (R57). -/
def execWideLowHalfWrite (q : Requester) (a : BitVec 24) (v : BitVec 32) (s : State) : Res :=
  .next (s.write32 q (a.toNat / 8 * 8) v)

/-- WIDE_HIGH_HALF_WRITE (R57). -/
def execWideHighHalfWrite (q : Requester) (a : BitVec 24) (v : BitVec 32) (t : Nat) (s : State) : Res :=
  .next ((s.at t).write32 q (a.toNat / 8 * 8 + 4) v)

/-- The bits of BLK_CTRL that a write which changes only SRST or LOCK_REQ repeats. -/
def State.ctrlKept (s : State) (page : BitVec 12) : Word32 := s.rd (page.toNat * 4096 + 0x00C)

/-- SOFT_RESET (R64): EN and LOCK_REQ as they are. -/
def execSoftReset (q : Requester) (page : BitVec 12) (s : State) : Res :=
  .next (s.write32 q (page.toNat * 4096 + 0x00C) ((s.ctrlKept page &&& 5) ||| 2))

/-- SOFT_RESET_DONE (R64); ok: TRNG's tests, which it runs again, pass. -/
def execSoftResetDone (page : BitVec 12) (ok : Bool) (s : State) : Res :=
  .next (match pageAt page.toNat with
    | some (p, i) => if s.domOn (pageDomain p i) then s.srstDone p i ok else s
    | none => s)

/-- LOCK_REQUEST (R65). -/
def execLockRequest (q : Requester) (page : BitVec 12) (s : State) : Res :=
  .next (s.write32 q (page.toNat * 4096 + 0x00C) ((s.ctrlKept page &&& 1) ||| 4))

/-- LOCK_RELEASE (R65). -/
def execLockRelease (q : Requester) (page : BitVec 12) (s : State) : Res :=
  .next (s.write32 q (page.toNat * 4096 + 0x00C) (s.ctrlKept page &&& 1))

/-- LOCK_STICKY_SET (R65). -/
def execLockStickySet (q : Requester) (page : BitVec 12) (s : State) : Res :=
  .next (s.write32 q (page.toNat * 4096 + 0x02C) 0x40000000)

/-- PAGE_CLAIM (R66). -/
def execPageClaim (q : Requester) (page : BitVec 12) (tag : BitVec 16) (s : State) : Res :=
  .next (s.write32 q (page.toNat * 4096 + 0x030) (BitVec.ofNat 32 (2 ^ 31 + tag.toNat)))

/-- PAGE_CLAIM_RELEASE (R66). -/
def execPageClaimRelease (q : Requester) (page : BitVec 12) (s : State) : Res :=
  .next (s.write32 q (page.toNat * 4096 + 0x030) 0)

/-- IRQ_SET (R63). -/
def execIrqSet (q : Requester) (page : BitVec 12) (v : BitVec 32) (s : State) : Res :=
  .next (s.write32 q (page.toNat * 4096 + 0x028) v)

/-- ERROR_INJECT_ARM (R62). -/
def execErrorInjectArm (q : Requester) (page : BitVec 12) (v : BitVec 32) (s : State) : Res :=
  .next (s.write32 q (page.toNat * 4096 + 0x01C) v)

end Sys2Proof.Machine
end

