-- ==== Sys2Proof/Machine/Debug.lean ====
section
/-! DEFINITION. The debug port (R637 to R656): requests and their answers, the address spaces, authentication and levels, freezing and
stepping lays, halting the Lanyard. -/

namespace Sys2Proof.Machine

/-- A register of the DBG page. -/
abbrev dbA (o : Nat) : Nat := pa .dbg 0 o

/-- The answer to a request: 1 OK, 2 WAIT, 4 FAULT, 7 none (R639, R640). -/
def State.ack (s : State) (a : Nat) : State := { s with dbg := { s.dbg with ack := a } }

/-- FAULT with a cause (R640, R656): nothing has been done. -/
def State.dbgFault (s : State) (cause : Nat) : State := (s.putF (dbA rDBG_STAT) 31 28 cause).ack 4

/-- Is the number of ones of the low w bits odd. -/
def oddOnes (w n : Nat) : Bool := (List.range w).foldl (fun b i => b != n.testBit i) false

/-- The parity bit of a request (R639): over its OP, SPACE, W64, ARG and write data. -/
def dbgParity (op sp : Nat) (w64 : Bool) (arg wdata : Nat) : Bool :=
  oddOnes 105 (op + sp * 2 ^ 6 + w64.toNat * 2 ^ 8 + arg * 2 ^ 9 + wdata * 2 ^ 41)

/-- Response data goes out with its parity bit (R639). -/
def State.answer (s : State) (v : Word64) : State := { s with rdata := v, dbg := { s.dbg with rpar := oddOnes 64 v.toNat } }

/-- A request answered (R640, R646), p the parity bit that came and want the one its bits call for: the line waits for a line reset or the
unit is VOID: no ACK; a parity error: FAULT; a level below the one needed: FAULT; else its effect. -/
def State.dbgRequest (s : State) (p want : Bool) (level : Nat) (eff : State → State) : State :=
  if !s.domOn 2 || s.dbg.deaf || s.lcs = 4 then s.ack 7
  else if p ≠ want then (s.cause .dbg 0 0).dbgFault 1
  else if s.dbgLevel < level then s.dbgFault 2
  else (eff (s.ack 1))

/-- The level authenticated changes; AUTH is raised where LEVEL does (R656). -/
def State.setLevel (s : State) (l : Nat) : State :=
  let was := s.dbgLevel
  let s := { s with dbg := { s.dbg with level := l } }
  if s.dbgLevel = was then s else s.irq .dbg 0 1

/-- DBG_LINE_RESET (R638). -/
def execDbgLineReset (s : State) : Res :=
  .next (if !s.domOn 2 then s else let s := s.setLevel 0
                                  { s with dbg := { s.dbg with deaf := false } })

/-- DBG_NOP (R640); op: 0, or an operation that the table does not list, which gets no ACK. -/
def execDbgNop (p : Bool) (op : BitVec 6) (s : State) : Res :=
  .next (if 0x0C < op.toNat then (if s.domOn 2 then { s with dbg := { s.dbg with ack := 7, deaf := true } } else s)
    else s.dbgRequest p (dbgParity 0 0 false 0 0) 0 id)

/-- DBG_IDCODE (R640). -/
def execDbgIdcode (p : Bool) (s : State) : Res := .next (s.dbgRequest p (dbgParity 1 0 false 0 0) 0 fun s => s.answer 0x4128A15B)

/-- DBG_STATUS (R640). -/
def execDbgStatus (p : Bool) (s : State) : Res :=
  .next (s.dbgRequest p (dbgParity 2 0 false 0 0) 0 fun s =>
    (s.putF (dbA rDBG_STAT) 31 28 0).answer ((s.view (dbA rDBG_STAT)).setWidth 64))

/-! ### Address spaces (R641 to R645) -/

/-- The bytes an access of a width has. -/
def accBytes (w64 : Bool) : Nat := if w64 then 8 else 4

/-- Is an address outside its space or misaligned (R643). -/
def spaceBad (sp : BitVec 2) (w64 : Bool) (a : Nat) : Bool :=
  a % accBytes w64 ≠ 0 ||
  (match sp.toNat with
   | 2 => decide (0x80000 ≤ a)
   | 3 =>
     let t := nbits a 28 27
     let o := nbits a 21 0
     t = 3 || (t < 2 && decide (0x20000 ≤ o))
   | _ => a / 2 ^ 24 ≠ 0x40)

/-- The level a read needs (R643). -/
def readLevel (sp : BitVec 2) (a : Nat) : Nat :=
  match sp.toNat with
  | 0 => 3
  | 1 => 1
  | 2 => if 0x70000 ≤ a ∧ a < 0x80000 then 3 else 2
  | _ => 2

/-- A read that leaves what it reads alone (R643): the whole 64-bit register; a random word where the register gives a new one at each read. -/
def State.quietRead (s : State) (a : Nat) (w64 : Bool) : State :=
  let v : Word64 := (s.view (a + 4)).append (s.view a)
  let (v, s) : Word64 × State := if a / 8 * 8 = pa .trng 0 rTRNG_OUT && s.drbgOk then s.draw else (v, s)
  let v : Word64 := match arrIdx (a / 8 * 8) (pa .lay 0 rLAY_LD_DATA) 4096 8 with
    | some n => if s.domOn (3 + n) && !s.srstBusy a then
        (if a % 8 = 0 then (s.ldRead n).1 else ((s.ldRead n).1.extractLsb' 32 32).setWidth 64) else 0
    | none => v
  { s with rdata := if w64 then v else (v.extractLsb' 0 32).setWidth 64 }

/-- A checked read of the Lanyard's memory (R527). -/
def State.dbgLany (s : State) (a n : Nat) : State :=
  let (i, s) := s.lanyInject
  let s := s.lanyFound a (min 2 (s.eccOf .lany a + i)) false
  { s with rdata := BitVec.ofNat 64 (s.le .lany a n) }

/-- A read of a lay's memories in a scrubber's cycle (R644). -/
def State.dbgLay (s : State) (a n : Nat) : State :=
  let lay := nbits a 31 29
  let strand := nbits a 26 23
  let o := nbits a 21 0
  let me := strandNo lay strand
  if !s.domOn (3 + lay) then { s with rdata := 0 }
  else match nbits a 28 27 with
    | 0 =>
      let s := (s.readStrandWord me false true (o / 8 * 8)).2
      let s := s.setStr me { s.str me with imUsed := true }
      { s with rdata := BitVec.ofNat 64 (s.le (.imem lay strand) o n) }
    | 1 =>
      let s := (s.readStrandWord me true true (o / 8 * 8)).2
      let s := s.setStr me { s.str me with dmUsed := true }
      { s with rdata := BitVec.ofNat 64 (s.le (.dmem lay strand) o n) }
    | _ =>
      let s := (s.readLmemWord lay true (o / 8 * 8)).2
      { s with rdata := BitVec.ofNat 64 (s.le (.lmem lay) o n) }

/-- DBG_READ (R643, R644); served: the access is complete, else the answer is WAIT (R641, R644). -/
def execDbgRead (p : Bool) (sp : BitVec 2) (w64 : Bool) (a : BitVec 32) (served : Bool) (t : Nat) (s : State) : Res :=
  let n := accBytes w64
  let x := a.toNat
  .next ((s.at t).dbgRequest p (dbgParity 3 sp.toNat w64 x 0) (readLevel sp x) fun s =>
    if spaceBad sp w64 x then s.dbgFault 4
    else if !served && decide (sp.toNat = 0 ∨ (sp.toNat = 3 ∧ s.laySt (x / 2 ^ 29) ≠ 5)) then s.ack 2
    else
      let s := match sp.toNat with
        | 0 => s.windowRead .debug (x % 2 ^ 24) w64 0xFF
        | 1 => s.quietRead (x % 2 ^ 24) w64
        | 2 => s.dbgLany x n
        | _ => s.dbgLay x n
      s.answer s.rdata)

/-- A write of a lay's memories (R643, R644). -/
def State.dbgLayWrite (s : State) (a n v : Nat) : State :=
  let lay := nbits a 31 29
  let strand := nbits a 26 23
  let o := nbits a 21 0
  if !s.domOn (3 + lay) || (s.laySt lay ≠ 0 && s.laySt lay ≠ 1 && s.laySt lay ≠ 5) then s.dbgFault 5
  else match nbits a 28 27 with
    | 0 => s.storeBytes (.imem lay strand) o n v
    | 1 => s.storeBytes (.dmem lay strand) o n v
    | _ => s.storeBytes (.lmem lay) o n v

/-- A window write of the debug port (R642): one that is refused is answered FAULT. -/
def State.dbgWindow (s : State) (a : Nat) (w64 : Bool) (v : Word64) : State :=
  let refused := ((s.wr (pa .chip 0 rCHIP_ACC_COUNT) 0).windowWrite .debug a w64 3 v).rd (pa .chip 0 rCHIP_ACC_COUNT) ≠ 0
  let s := s.windowWrite .debug a w64 3 v
  if refused then s.dbgFault 3 else s

/-- The level a write needs (R643, R647): in FIELD a window write goes on to be refused. -/
def State.writeLevel (s : State) (sp : BitVec 2) : Nat := if sp = 0 && s.lcs = 2 then 0 else if sp = 1 then 4 else 3

/-- DBG_WRITE (R642 to R644); served: the access is complete, else the answer is WAIT (R641). -/
def execDbgWrite (p : Bool) (sp : BitVec 2) (w64 : Bool) (a : BitVec 32) (v : BitVec 64) (served : Bool) (t : Nat) (s : State) : Res :=
  let n := accBytes w64
  let x := a.toNat
  .next ((s.at t).dbgRequest p (dbgParity 4 sp.toNat w64 x (v.toNat % 2 ^ (8 * n))) (s.writeLevel sp) fun s =>
    if spaceBad sp w64 x then s.dbgFault 4
    else if !served && decide (sp.toNat = 0) then s.ack 2
    else match sp.toNat with
      | 0 => s.dbgWindow (x % 2 ^ 24) w64 v
      | 2 => if s.lany.halted then s.storeBytes .lany x n v.toNat else s.dbgFault 5
      | _ => s.dbgLayWrite x n v.toNat)

/-! ### Freezing lays (R649 to R653) -/

/-- The strands that are about to issue a bundle an armed breakpoint names, with the breakpoint (R124, R649). -/
def State.breakHits (s : State) (lay : Nat) : List (Nat × Nat) :=
  if s.laySt lay ≠ 3 || (s.lay lay).issued || (s.lay lay).thaw ≠ 0 then []
  else (List.range 16).flatMap (fun k =>
    let me := strandNo lay k
    let t := s.str me
    if s.inVariant lay k && t.gap = 0 && !t.tended then
      (List.range 2).filterMap (fun j =>
        let a := pa .strand me (rSTR_BP0 + 4 * j)
        if s.bitAt a 31 && s.fld a 12 0 = t.pc then some (k, j) else none)
    else [])

/-- A lay freezes (R649, R652, R653, R656): cause 0 HALT, 1 and 2 a breakpoint, 3 the end of a step. -/
def State.freezeLay (s : State) (lay cause strand : Nat) (multi : Bool) : State :=
  let v := 2 ^ 31 + multi.toNat * 2 ^ 30 + cause * 2 ^ 28 + lay * 2 ^ 24 + strand * 2 ^ 20 + s.tcyc lay % 2 ^ 16
  let s := s.setLay lay { s.lay lay with thaw := s.laySt lay, stepLeft := 0 }
  let s := (s.setLaySt lay 5).wr (dbA rDBG_FREEZE) (BitVec.ofNat 32 v)
  (s.irq .dbg 0 0).layEvent lay 0x26 [v]

/-- A lay halted (R649, R652): breakpoints matched in the same cycle are recorded in its place. -/
def State.haltLay (s : State) (lay : Nat) : State :=
  match s.breakHits lay with
  | [] => s.freezeLay lay 0 0 false
  | (k, j) :: _ => s.freezeLay lay (1 + j) k true

/-- A frozen lay goes on in the state it had (R651); count: the cycles of a step, with one more; 0: none. -/
def State.thawLay (s : State) (lay count : Nat) : State :=
  let l := s.lay lay
  (s.setLaySt lay (if l.thaw = 4 then 4 else 3)).setLay lay { l with stepLeft := count }

/-- The lays a mask names. -/
def lays (mask : Nat) : List Nat := (List.range 8).filter (fun n => mask.testBit n)

/-- The Lanyard is halted (R654): the watchdog's count is held. -/
def State.haltLany (s : State) : State :=
  if s.lany.halted then s
  else
    let due := s.timer (wdA rWDG_LANY_LEFT)
    { s with lany := { s.lany with halted := true, left := if due = 0 then s.lany.left else due - s.now } }

/-- The Lanyard runs on (R654): the watchdog's count goes on, and an entry to the safety context that waited is taken. -/
def State.runLany (s : State) : State :=
  if !s.lany.halted then s
  else
    let s := { s with lany := { s.lany with halted := false } }
    let s := if s.timer (wdA rWDG_LANY_LEFT) = 0 then s else s.setTimer (wdA rWDG_LANY_LEFT) (s.now + s.lany.left)
    if s.lany.nmi && !s.bitAt (wdA rLNY_STAT) 1 then ({ s with lany := { s.lany with nmi := false } }).enterSafety false else s

/-- DBG_HALT (R649, R654): a lay that is neither RUN nor HELD, and nothing is done. -/
def execDbgHalt (p : Bool) (mask : BitVec 8) (lany : Bool) (t : Nat) (s : State) : Res :=
  .next ((s.at t).dbgRequest p (dbgParity 5 0 false (mask.toNat + 256 * lany.toNat) 0) 3 fun s =>
    if (lays mask.toNat).any (fun n => !s.domOn (3 + n) || (s.laySt n ≠ 3 && s.laySt n ≠ 4)) then s.dbgFault 5
    else
      let s := (lays mask.toNat).foldl (fun (s : State) n => s.haltLay n) s
      if lany then s.haltLany else s)

/-- DBG_RUN (R651, R654). -/
def execDbgRun (p : Bool) (mask : BitVec 8) (lany : Bool) (t : Nat) (s : State) : Res :=
  .next ((s.at t).dbgRequest p (dbgParity 6 0 false (mask.toNat + 256 * lany.toNat) 0) 3 fun s =>
    if (lays mask.toNat).any (fun n => !s.domOn (3 + n) || s.laySt n ≠ 5) then s.dbgFault 5
    else
      let s := (lays mask.toNat).foldl (fun (s : State) n => s.thawLay n 0) s
      if lany then s.runLany else s)

/-- DBG_STEP (R651, R654): the Lanyard executes one instruction, which is its firmware's, and is held again; else the lay runs COUNT cycles. -/
def execDbgStep (p : Bool) (lay : Fin 8) (lany : Bool) (count : BitVec 16) (t : Nat) (s : State) : Res :=
  .next ((s.at t).dbgRequest p (dbgParity 7 0 false (lay.val + 8 * lany.toNat + 65536 * count.toNat) 0) 3 fun s =>
    if lany then s.runLany.haltLany
    else if !s.domOn (3 + lay.val) || s.laySt lay.val ≠ 5 then s.dbgFault 5
    else if count = 0 then s
    else s.thawLay lay.val (count.toNat + 1))

/-- DBG_STEP_END (R651): the last cycle of a step has ended. -/
def execDbgStepEnd (lay : Fin 8) (s : State) : Res :=
  let n := lay.val
  .next (if s.domOn (3 + n) && (s.laySt n = 3 || s.laySt n = 4) && (s.lay n).stepLeft = 1 then s.freezeLay n 3 0 false else s)

/-- LAY_BREAKPOINT_FREEZE (R649, R652). -/
def execLayBreakpointFreeze (lay : Fin 8) (s : State) : Res :=
  .next (if !s.domOn (3 + lay.val) then s
    else match s.breakHits lay.val with
      | [] => s
      | (k, j) :: rest => s.freezeLay lay.val (1 + j) k (rest ≠ []))

/-- A comparator that matches a fetch at an address in the present context (R655). -/
def State.lanyBreaks (s : State) (a : Nat) : Bool :=
  (List.range 4).any (fun k =>
    let r := dbA (rDBG_LBP + 4 * k)
    let safe := s.bitAt (wdA rLNY_STAT) 1
    s.bitAt r 31 && s.fld r 18 0 = a && (if safe then s.bitAt r 30 && decide (s.lcs ≤ 1 ∨ s.lcs = 3) else s.bitAt r 29))

/-- LANYARD_BREAKPOINT (R655): the Lanyard is about to fetch the instruction at an address. -/
def execLanyardBreakpoint (a : BitVec 19) (t : Nat) (s : State) : Res :=
  let s := s.at t
  .next (if s.lanyRuns && s.lanyBreaks a.toNat then s.haltLany else s)

/-- Every freeze and every step ends, and the Lanyard's halt (R652). -/
def State.endFreezes (s : State) : State :=
  let s := (List.range 8).foldl (fun (s : State) n =>
    if s.domOn (3 + n) && s.laySt n = 5 then s.thawLay n 0
    else s.setLay n { s.lay n with stepLeft := 0 }) s
  s.runLany

/-! ### Authentication (R646 to R648) -/

/-- DBG_NEWCHAL (R648): WAIT within 1 s of a failure; without random output nothing can be drawn, and the answer is FAULT. -/
def execDbgNewchal (p : Bool) (sought : BitVec 2) (t : Nat) (s : State) : Res :=
  .next ((s.at t).dbgRequest p (dbgParity 8 0 false sought.toNat 0) 0 fun s =>
    if s.dbg.failAt.any (fun f => decide (s.now < f + 1000000000)) then s.ack 2
    else if !s.drbgOk then s.dbgFault 5
    else
      let (c, s) := (s.setLevel 0).random 32
      { s with dbg := { s.dbg with chal := c, sought := sought.toNat, fresh := true, resp := [], checking := false }
               results := drop s.results (dbA rDBG_STAT) })

/-- DBG_CHAL (R648). -/
def execDbgChal (p : Bool) (word : BitVec 3) (s : State) : Res :=
  .next (s.dbgRequest p (dbgParity 9 0 false word.toNat 0) 0 fun s => s.answer (BitVec.ofNat 64 (leAt s.dbg.chal (4 * word.toNat) 4)))

/-- DBG_RESP (R648): a word above 48 is outside. -/
def execDbgResp (p : Bool) (word : BitVec 6) (v : BitVec 32) (s : State) : Res :=
  .next (s.dbgRequest p (dbgParity 10 0 false word.toNat v.toNat) 0 fun s =>
    if 48 < word.toNat then s.dbgFault 4
    else { s with dbg := { s.dbg with resp := place word.toNat v (drop s.dbg.resp word.toNat) } })

/-- n response words from word w on, as bytes. -/
def Dbg.words (d : Dbg) (w n : Nat) : List Byte :=
  (List.range n).flatMap (fun i => toLe 4 (((d.resp.find? (fun (e : Nat × Word32) => e.1 = w + i)).map (fun (e : Nat × Word32) => e.2)).getD 0).toNat)

/-- DBG_AUTH (R648): WAIT until the check is complete, then OK or FAULT. -/
def execDbgAuth (p : Bool) (t : Nat) (s : State) : Res :=
  .next ((s.at t).dbgRequest p (dbgParity 11 0 false 0 0) 0 fun s =>
    match s.results.find? (fun (e : Nat × Nat) => e.1 = dbA rDBG_STAT) with
    | some r =>
      let s := { s with results := drop s.results (dbA rDBG_STAT) }
      if r.2 = 1 then s else s.dbgFault 6
    | none => { s with dbg := { s.dbg with checking := true, ack := 2 } })

/-- The CMAC check of OBSERVE and WIDE (R648): engine 14 presents the slot that DBG_KEY names. -/
def State.cmacGood (s : State) : Bool × State :=
  let k := s.rd (dbA rDBG_KEY)
  let (valid, i) := if s.dbg.sought = 1 then (bit k 31, bits k 11 0) else (bit k 15, bits k 27 16)
  if !valid then (false, s)
  else
    let s := (s.readSlot i).2
    let u := s.useSlot i 14 1 false
    let serial : Word64 := if s.otp.badSerial then 0 else s.otp.serial
    let m := s.dbg.chal ++ toBe 8 serial.toNat ++ toBe 1 s.dbg.sought
    match u with
    | some _ => (false, s.afterUse i u)
    | none => (decide (cmac (s.slot i).bytes m = s.dbg.words 0 4), s)

/-- The signature check of FULL (R648). -/
def State.signatureGood (s : State) : Bool :=
  let l := s.dbg.words 0 49
  match p384.point (l.take 97) with
  | some q =>
    s.domOn 16 && !s.kat .pke && (l.drop 97 |>.take 3).all (· = 0) &&
    decide (s.makerVerify q (beNat ((l.drop 100).take 48)) (beNat ((l.drop 148).take 48)) 0x83 s.dbg.chal = 0)
  | none => false

/-- DBG_AUTH_COMPLETE (R648). -/
def execDbgAuthComplete (t : Nat) (s : State) : Res :=
  let s := s.at t
  .next (if !s.domOn 2 || !s.dbg.checking then s
    else
      let l := s.dbg.sought
      let (ok, s) : Bool × State :=
        if !s.dbg.fresh then (false, s)
        else if s.lcs = 2 && (l = 1 || l = 2) then s.cmacGood
        else (s.lcs = 3 && l = 3 && s.signatureGood, s)
      let s := { s with dbg := { s.dbg with checking := false, fresh := false }
                        results := place (dbA rDBG_STAT) ok.toNat (drop s.results (dbA rDBG_STAT)) }
      let s := s.lanyEvent 0x34 [l, ok.toNat]
      if ok then s.setLevel l
      else
        let s := (s.bump (dbA rDBG_AUTH_FAIL) 1).cause .dbg 0 1
        { s with dbg := { s.dbg with failAt := some s.now } })

/-- DBG_RESET (R641). -/
def execDbgReset (p : Bool) (key : BitVec 16) (s : State) : Res :=
  .next (s.dbgRequest p (dbgParity 12 0 false key.toNat 0) 3 fun s => if key = 0x52A5 then (s.chipReset 6).ack 1 else s.dbgFault 5)

end Sys2Proof.Machine
end

