-- ==== Sys2Proof/Machine/Boot.lean ====
section
/-! DEFINITION. The start of the part: domains that have come on, the boot ROM, the firmware's start-up, the power-fail sequence and the end
of a takeover (R585, R602 to R606, R616, R624 to R626, R629 to R631). -/

namespace Sys2Proof.Machine

/-! ### Domains that have come on (R616) -/

/-- EVR and then TOTALS restored where SYS has come on and they have not been (R323, R564). -/
def State.sysRestore (s : State) : State :=
  let s := s.evrRestore
  if s.domOn 1 && !s.bitAt (pa .totals 0 rTOT_STAT) 1 && !s.bitAt (pa .totals 0 rTOT_STAT) 2 then s.totRestore else s

/-- A domain's turn-on ends: its state, its lock, and what its blocks do when they come on (R323, R426, R623). -/
def State.domainUp (s : State) (d : Nat) : State :=
  if s.domSt d ≠ 3 then s
  else
    let s := ((s.setDom d 1).putBit (pa .clk 0 rCLK_STAT) (lockBit d) true).putF (domReg d) 25 24 0
    let s := if d = 1 then s.sysRestore else if d = 2 then s.wakeRelease else if d = 11 then s.tsuStart else if d = 16 then s.lcsStart else s
    s.domainReply

/-- DOMAIN_ON_COMPLETE (R616 steps 3 and 4). -/
def execDomainOnComplete (d : Fin 17) (s : State) : Res := .next (s.domainUp (d.val + 1))

/-- A domain turned on, to the end of its turn-on. -/
def State.powerUp (s : State) (d : Nat) : State := (s.turnOn d).domainUp d

/-! ### Images in NOR (R604 to R606) -/

/-- Every group hash of a region agrees. -/
def State.groupsOk (s : State) (a : Nat) : Bool := (List.range (s.le .nor (a + 0x12) 2)).all (fun g => s.groupOk a g)

/-- A region's manifest and group hashes (R604, R605). -/
def State.regionOk (s : State) (area kind : Nat) (golden : Bool) : Bool :=
  let a := regionOf area kind
  let m := s.manifestAt a
  s.manifestCheck m kind (u m 8 8) [s.installed kind] golden == 0 && s.groupsOk a

/-- The image of a region. -/
def State.imageOf (s : State) (area kind : Nat) : List Byte :=
  let a := regionOf area kind
  s.bytes .nor (a + 0x10000) (s.le .nor (a + 0x18) 4)

/-- The entries of a measurement-defaults image: window offset and value (R606). -/
def defaultsOf (b : List Byte) : List (Nat × Word32) :=
  (List.range (u b 4 4)).map (fun i => (u b (16 + 8 * i) 4, BitVec.ofNat 32 (u b (20 + 8 * i) 4)))

/-- The point and offset of a staged MP register at a window offset. -/
def mpStaged (a : Nat) : Option (Nat × Nat) :=
  match pageAt (a / 4096) with
  | some (.mp, p) => if staged (a % 4096) then some (p, a % 4096) else none
  | _ => none

/-- The start check of a measurement-defaults image (R606). -/
def defaultsOk (b : List Byte) : Bool :=
  u b 0 4 = 0x53464544 && zeros b 8 8 && b.length = 16 + 8 * u b 4 4 &&
  (defaultsOf b).all (fun e => (mpStaged e.1).isSome)

/-- The start checks of a kind's image (R605); of kind 2 the load checks follow at the load. -/
def State.startOk (s : State) (area kind : Nat) (golden : Bool) : Bool :=
  s.regionOk area kind golden &&
  (if kind = 1 then !badManifestKey s.otp (s.imageOf area kind) 0 else if kind = 3 then defaultsOk (s.imageOf area kind) else true)

/-- A kind starts from its golden image (R605). -/
def State.useGolden (s : State) (kind : Nat) : State := (s.putBit (pa .upd 0 rUPD_STAT) (7 + kind) true).lanyEvent 0x5A []

/-! ### The copy at start (R603, R604) -/

/-- One sector copied from staging to the active area; bad: the NOR does not take it, and what it then holds is free. -/
def State.copySector (s : State) (kind i : Nat) (bad : Bool) : State :=
  let a := regionOf activeArea kind + 0x10000 * i
  let s := s.norErase a
  if bad then
    let (ws, s) := s.drawN 8192
    s.setBytes .nor a (ws.flatMap (fun w => toLe 8 w.toNat))
  else s.norProgram a (s.bytes .nor (regionOf 0x1800000 kind + 0x10000 * i) 65536)

/-- The sectors of a region copied from one on, n at most, each followed by its journal entry; left: how many sectors power lasts for.
What is left of it, none where power is lost. -/
def State.copySectors (s : State) (kind version rollback : Nat) (bad : Nat → Bool) : Nat → Nat → Nat → Option Nat × State
  | 0, _, left => (some left, s)
  | _ + 1, _, 0 => (none, s)
  | n + 1, i, left + 1 =>
    ((s.copySector kind i (bad i)).journalAdd kind 2 (i + 1) version rollback).copySectors kind version rollback bad n (i + 1) left

/-- The last steps of a copy (R604 steps 4 and 5): the kinds whose copy is complete and whose counter advanced, as event codes. -/
def State.copyDone (s : State) (kind version rollback : Nat) : List Nat × State :=
  let was := look (fun _ => 0) s.otp.rollback kind
  let s1 : State := if was < rollback then { s with otp := { s.otp with rollback := place kind rollback (drop s.otp.rollback kind) } } else s
  (if was < rollback then [0x5B, 0x5D] else [0x5B],
    { s1.journalAdd kind 3 0 version rollback with versions := place kind version (drop s1.versions kind) })

/-- The copy of a kind from a sector on (R604 steps 2 to 5). -/
def State.copyFrom (s : State) (kind sector version rollback : Nat) (bad : Bool → Nat → Bool) (left : Nat) : Option Nat × List Nat × State :=
  let n := s.le .nor (regionOf 0x1800000 kind + 0x12) 2 + 1
  match s.copySectors kind version rollback (bad false) (n - sector) sector left with
  | (none, s) => (none, [], s)
  | (some left, s) =>
    if s.regionOk activeArea kind false then (some left, s.copyDone kind version rollback)
    else match s.copySectors kind version rollback (bad true) n 0 left with
      | (none, s) => (none, [], s)
      | (some left, s) =>
        if s.regionOk activeArea kind false then (some left, s.copyDone kind version rollback)
        else (some left, [], s.journalAdd kind 4 0 version rollback)

/-- A kind copied where its last entry is STAGED or COPYING (R604). -/
def State.copyKind (s : State) (kind : Nat) (bad : Bool → Nat → Bool) (left : Nat) : Option Nat × List Nat × State :=
  match s.journalLast kind with
  | some (1, _, version, rollback) =>
    if s.regionOk 0x1800000 kind false then
      (s.journalAdd kind 2 0 version rollback).copyFrom kind 0 version rollback bad left
    else (some left, [], s.journalAdd kind 4 0 version rollback)
  | some (2, sector, version, rollback) => s.copyFrom kind sector version rollback bad left
  | _ => (some left, [], s)

/-- The kinds in ascending order. -/
def State.copyKinds (s : State) (bad : Nat → Bool → Nat → Bool) : List Nat → Nat → Option Nat × List Nat × State
  | [], left => (some left, [], s)
  | k :: ks, left =>
    match s.copyKind k (bad k) left with
    | (none, l, s) => (none, l, s)
    | (some left, l, s) =>
      let r := s.copyKinds bad ks left
      (r.1, l ++ r.2.1, r.2.2)

/-! ### The boot ROM (R629, R630) -/

/-- RST_BOOT: the stage reached and the code. -/
def State.bootStage (s : State) (stage code : Nat) : State :=
  (s.putF (pa .rst 0 rRST_BOOT) 2 0 stage).putF (pa .rst 0 rRST_BOOT) 15 8 code

/-- STAGE. -/
def State.bootAt (s : State) : Nat := s.fld (pa .rst 0 rRST_BOOT) 2 0

/-- ROM_WAIT (R630). -/
def State.romWait (s : State) : State :=
  let s := s.bootStage 4 2
  if s.domOn 1 then (s.putBit (fcA rFC_PIN) 31 true).pinPulse else s

/-- The load segments placed in the Lanyard's memory (R629 step 3). -/
def State.loadLany (s : State) (b : List Byte) : State :=
  (Config.lanySegments b).foldl (fun s x =>
    if x.1 + x.2.2 ≤ 0x80000 then s.setBytes .lany x.1 ((b.drop x.2.1).take x.2.2) else s) s

/-- The handover (R629 step 4): the watchdog armed, the firmware in the safety context; it then records what the ROM has done. -/
def State.handover (s : State) (golden : Bool) (events : List Nat) : State :=
  let s := s.loadLany (s.imageOf (if golden then 0 else activeArea) 1)
  let t1 := s.fld (wdA rWDG_LANY_CFG) 15 0
  let t2 := s.fld (wdA rWDG_LANY_CFG) 31 16
  let s := ({ s with lany := { s.lany with t1 := t1, t2 := t2 } }).lanyStage false
  let s := (s.putBit (wdA rLNY_STAT) 1 true).bootStage 3 golden.toNat
  let s := events.foldl (fun s e => s.lanyEvent e []) s
  if golden then s.useGolden 1 else s

/-- OTP loaded (R70; table "Start-up", step 2): a word with an uncorrectable error sets OTP_UNCORR. -/
def State.otpLoad (s : State) : State := if s.otp.badHwtype || s.otp.badSerial then s.irq .chip 0 1 else s

/-- The boot ROM's steps (R629); bad: the sectors (kind, second copy, sector) that NOR does not take; left: how many sectors power lasts for. -/
def State.boot (s : State) (bad : List (Nat × Bool × Nat)) (left : Nat) : State :=
  if !s.domOn 2 || decide (3 ≤ s.bootAt) then s
  else if s.lcs = 4 then s.otpLoad.sysRestore.powerUp 17
  else
    let s := ((s.otpLoad.sysRestore.powerUp 16).powerUp 17).bootStage 1 0
    match s.copyKinds (fun k second i => bad.contains (k, second, i)) [1, 2, 3] left with
    | (none, _, s) => s
    | (some _, events, s) =>
      let s := s.bootStage 2 0
      if s.startOk activeArea 1 false then s.handover false events
      else if s.startOk 0 1 true then s.handover true events
      else s.romWait

/-- BOOT (R629). -/
def execBoot (bad : List (Nat × Bool × Nat)) (left t : Nat) (s : State) : Res := .next ((s.at t).boot bad left)

/-! ### What the firmware does at its start (R631) -/

/-- The descriptor words of a splice the rigging does not place (R188, R528). -/
def startDesc (n : Nat) : Nat × Nat :=
  if n < 6208 then
    (2 ^ 31 + 2 * 2 ^ 29 + 8 * 2 ^ 24 + 110592 + 256 * (n - 6144),
      if n = 6144 then 0x14001500 else if n ≤ 6146 then 0x15001400 else 0x14001400)
  else (2 ^ 31 + 2 * 2 ^ 29 + 5 * 2 ^ 24 + 126976 + 32 * (n - 6208), 0x15001500)

/-- The descriptors of the host-facing and Lanyard-facing splices written. -/
def State.startDescs (s : State) : State :=
  (List.range 192).foldl (fun s i =>
    (s.wr (descA (6144 + i) 0) (BitVec.ofNat 32 (startDesc (6144 + i)).1)).wr (descA (6144 + i) 1) (BitVec.ofNat 32 (startDesc (6144 + i)).2)) s

/-- The journal erased whenever no kind's last entry is STAGED or COPYING (R603). -/
def State.journalClean (s : State) : State :=
  if ([1, 2, 3] : List Nat).any (fun k => (s.journalLast k).any (fun e => e.1 = 1 || e.1 = 2)) then s else s.norErase 0x2A00000

/-- A resume record kept or reset (R601, R602). -/
def State.resumeStart (s : State) (kind : Nat) : State :=
  let a := resumeAt kind
  let m := s.manifestAt (recvAt kind)
  let good := s.die.le .fram (a + 60) 4 = crc32 (s.die.bytes .fram a 60) && (s.resumeSt kind ≠ 1 ||
    (s.manifestCheck m kind (s.die.le .fram (a + 8) 8) (s.versionFloor kind m) false == 0))
  if s.die.le .fram a 4 ≠ 0x44525055 ∨ good then s else s.resPut kind 0 (resumeHeader 0 0 0 0 ++ List.replicate 2112 0) false

/-- Settings in force, each class of events that changes recorded (R557, R608). -/
def State.settingsForce (s : State) (x : Settings) : State :=
  let a := evA rEVR_CLS_ADDR
  let s1 := s.settingsApply x
  let changed := (List.range 4096).filter (fun i => s.bk a i ≠ s1.bk a i)
  ((changed.map (· % 256)).eraseDups).foldl (fun s c =>
    s.lanyEvent 0x02 [c, ((changed.filter (fun i => i % 256 = c)).map (fun i => 2 ^ (i / 256))).sum]) s1

/-- The settings at start (R537, R608): of the firmware's format in force, else the defaults; then the I/O bank monitors are enabled. -/
def State.settingsStart (s : State) : State :=
  let s := match s.settingsUsed with
    | some (_, c) => if c.fmt = s.setFmt then s.settingsForce c.body else s.settingsReset
    | none => s
  (List.range 6).foldl (fun s i => s.setBk (seA rSENS_V_LO) (14 + i) (s.bk (seA rSENS_V_LO) (14 + i) ||| 0x80000000)) s

/-- MEAS enabled with its defaults (R606): the active image, else the golden one, else none. -/
def State.measStart (s : State) : State :=
  let put (area : Nat) (s : State) : State :=
    let l := (defaultsOf (s.imageOf area 3)).filterMap (fun e => (mpStaged e.1).map (fun x => (x.1, x.2, e.2)))
    let s := l.foldl (fun s e => s.mpWrite .normal e.1 e.2.1 e.2.2) s
    ((l.map (·.1)).eraseDups).foldl (fun s p => s.mpWrite .normal p rMP_COMMIT 0x80000000) s
  let s := if s.startOk activeArea 3 false then put activeArea s
    else if s.startOk 0 3 true then put 0 (s.useGolden 3)
    else s
  s.measEnable .normal 1

/-- The rigging loaded from NOR and started (R163, R605): the active image, else the golden one. -/
def State.rigStart (s : State) : State :=
  let load (area : Nat) (s : State) : State := s.rigOrder (s.imageOf area 2) (s.imageOf area 2).length State.closeAll
  let s := if s.regionOk activeArea 2 false then load activeArea s else s
  if s.rig.running then s
  else if s.startOk 0 2 true then load 0 (s.useGolden 2)
  else s

/-- A port's enable written by the Lanyard, where its own settings let it be. -/
def State.portOn (s : State) (p : Pg) (inst : Nat) : State := if s.enBad p inst true then s else s.enEffect .normal p inst 1 true

/-- The ports enabled (R631 step 4); the power line's start-up period begins. -/
def State.portsStart (s : State) : State :=
  ([(Pg.eth, 4), (.sgmii, 2), (.pair, 1), (.radio, 4), (.plc, 1), (.plcPh, 3), (.uart, 8), (.sbus, 2)] : List (Pg × Nat)).foldl
    (fun s x => (List.range x.2).foldl (fun s i => s.portOn x.1 i) s) s

/-- The entries of a checkpoint pass are all of a format (R608). -/
def State.passFormat (s : State) (p : Pass) (fmt : Nat) : Bool :=
  p.pages.all (fun e => 32768 ≤ e.1 || (s.storedPage e.2).all (fun x => (List.range 32).all (fun i =>
    let l := (x.1.drop (512 * i)).take 512
    !entryValid l || decide (leAt l 0x084 1 = fmt))))

/-- The meter table at start (R273, R608): reloaded, or empty with event 0x5E where the formats differ. -/
def State.tableStart (s : State) (streams : List Nat) : State :=
  let fmt := s.le .nor (s.lanyManifest + 0x1E) 2
  match s.passes with
  | [] => s
  | p :: _ => if s.passFormat p fmt then s.tableReload streams else s.lanyEvent 0x5E []

/-- The DDR controller enabled once its initialisation has completed (R706). -/
def State.ddrStart (s : State) : State := s.putBit (pa .ddr 0 0x00C) 0 true

/-- Steps 4 to 11 of the table "Start-up" (R631); unreadable, ms: as in NAND_SCAN and NAND_SCAN_DONE. -/
def State.firmwareStart (s : State) (unreadable : List Nat) (ms : Word32) : State :=
  let s := { s with lany := { s.lany with started := true, nmi := false } }.setTimer lifetimeKey (s.now + 3600000000000)
  let s := s.recordDue
  let s := (s.putBit (wdA rLNY_STAT) 1 false).lanyEvent 0x18 [(s.rd (pa .rst 0 rRST_CAUSE)).toNat]
  let s := if s.fld (pa .wake 0 rWAKE_CAUSE) 4 0 = 0 then s else s.lanyEvent 0x1B [(s.rd (pa .wake 0 rWAKE_CAUSE)).toNat]
  let s := match s.newerCopy with
    | some c => if s.die.le .fram (copyAt c + 0x10) 4 % 2 = 1 then s.lanyEvent 0x1A [s.die.le .fram (copyAt c) 4] else s
    | none => s
  let s := ([1, 2, 3, 4] : List Nat).foldl (fun s k => s.resumeStart k) s.journalClean
  let s := ([11, 12, 13, 14, 15, 3, 4, 5, 6, 7, 8, 9, 10] : List Nat).foldl (fun s d => s.powerUp d) s.startDescs
  let s := s.settingsStart
  let s := (s.ingEnable .normal 1).portsStart
  let s := (s.catalogueRestore.measStart).ddrStart
  let s := (s.nandEnable .normal 1).rigStart
  let s := ((s.scanAll unreadable).scanDone ms).tableStart (if s.pairEn then [0, 2] else [0])
  let s := if s.pairEn then s.setRole 1 else if s.rig.running then s.openSequence else s
  s.lanyStage false

/-- START_UP (R631): the boot ROM's steps where they have not been made, then the firmware's, once. -/
def execStartUp (bad : List (Nat × Bool × Nat)) (left : Nat) (unreadable : List Nat) (ms : BitVec 32) (t : Nat) (s : State) : Res :=
  let s := (s.at t).boot bad left
  .next (if s.lanyRuns && !s.lany.started then s.firmwareStart unreadable ms else s)

/-! ### The end of a takeover (R581, R585 steps 4 to 7) -/

/-- A mirrored reservation limit put in force where it is the larger: 0 to 3 RADIO, 4 PLC, 5 + k COSEM role k. -/
def State.limitStart (s : State) (i : Nat) : State :=
  let a := if i ≤ 4 then resAt i else roleAt (i - 5)
  match s.reserved (0x1F2100 + 16 * i) with
  | none => s
  | some r => if (s.reserved a).any (fun x => decide (r ≤ x)) then s else s.reserve a r

/-- The takeover's loading and its last step. -/
def State.takeoverEnd (s : State) : State :=
  let s := ([3, 4, 5, 6, 7, 8, 9, 10, 14, 16, 12, 13, 17] : List Nat).foldl (fun s d => s.powerUp d) s
  let s := s.ddrStart.catalogueRestore
  let s := s.rigStart
  let s := match s.settingsUsed with
    | some (_, c) => s.settingsForce c.body
    | none => s
  let s := (List.range 10).foldl (fun s i => s.limitStart i) s
  let s := s.measStart.tableStart [0, 2]
  let s := (List.range 6).foldl (fun s n => s.oweAll n) s.portsStart
  s.becomeActive

/-- TAKEOVER_COMPLETE (R578, R585): of a part in TAKEOVER whose new epoch is stored. -/
def execTakeoverComplete (t : Nat) (s : State) : Res :=
  let s := s.at t
  .next (if s.role = 4 ∧ (s.rd (leA rLEASE_PEER_EPOCH)).toNat < s.epoch ∧ s.normalRuns then s.takeoverEnd else s)

/-! ### Power failure (R624 to R626) -/

/-- The links whose SerDes are turned off (R624 step 2). -/
def State.linksOff (s : State) : State :=
  let s := if !s.netOn then s else (List.range 6).foldl (fun s p =>
    if !s.bitAt (ethA p rETH_STAT) 0 then s
    else
      let s := (s.putBit (ethA p rETH_STAT) 0 false).putBit (ethA p rETH_STAT) 2 false
      (((s.putF (ethA p rETH_STAT) 5 4 0).ethIrq p 0).ethCause p 2)) s
  let s := if s.domOn 11 then (s.putF (prA rPAIR_STAT) 1 0 0).linkDown else s
  if !(s.domOn 17 && s.bitAt (pcA rPCIE_STAT) 0) then s
  else ((((s.putBit (pcA rPCIE_STAT) 0 false).putF (pcA rPCIE_STAT) 2 1 0).putF (pcA rPCIE_STAT) 6 4 0).irq .pcie 0 0).cause .pcie 0 3

/-- The partial transfer of a power failure (R325): the port goes to it before the writes that wait (R34). -/
def State.lastTransfer (s : State) : State :=
  let s := s.transfer true
  if s.totals.writing.isSome then s else s.dieServe

/-- An indication accepted (R624 steps 1 and 2; R652): every freeze ends, lays stop at their boundaries, domains being turned on go off. -/
def State.powerFail (s : State) : State :=
  let s := (((s.putBit (pa .pwr 0 rPWR_STAT) 0 true).cause .pwr 0 1).irq .pwr 0 1).endFreezes
  let s := if s.domOn 1 then s.closeAll else s
  let s := (List.range 8).foldl (fun s n =>
    if s.domOn (3 + n) && (s.laySt n = 3 || s.laySt n = 4) then s.putBit (pa .lay n rLAY_STAT) 4 true else s) s
  let s := (((s.copyEnd 0).lastTransfer).flushStart false).linksOff
  (List.range 17).foldl (fun s d => if s.domSt (d + 1) = 3 then s.turnOff (d + 1) else s) s

/-- POWER_FAIL (R624): from the ball or from the supply monitor, where it is enabled; a second indication is ignored. -/
def execPowerFail (monitor : Bool) (t : Nat) (s : State) : Res :=
  let s := s.at t
  .next (if s.bitAt (pa .pwr 0 rPWR_STAT) 0 || !s.bitAt (pa .pwr 0 rPWR_PF_CFG) (if monitor then 31 else 30) then s else s.powerFail)

/-- POWER_FAIL_DONE (R624 step 7). -/
def execPowerFailDone (t : Nat) (s : State) : Res :=
  let s := s.at t
  .next (if !s.bitAt (pa .pwr 0 rPWR_STAT) 0 || s.bitAt (pa .pwr 0 rPWR_STAT) 1 then s
    else (List.range 15).foldl (fun s i => s.turnOff (i + 3))
      ((s.putBit (pa .pwr 0 rPWR_STAT) 1 true).setTimer (pa .pwr 0 rPWR_STAT) (s.now + 10000000)))

/-- POWER_RETURN (R626): the indication has been clear for 10 ms after PF_DONE. -/
def execPowerReturn (t : Nat) (s : State) : Res :=
  let s := s.at t
  .next (if s.bitAt (pa .pwr 0 rPWR_STAT) 1 && decide (s.timer (pa .pwr 0 rPWR_STAT) ≤ s.now) then s.chipReset 7 else s)

end Sys2Proof.Machine
end

