-- ==== Sys2Proof/Machine/Dispatch.lean ====
section
/-! DEFINITION. The dispatcher: one arm per command, each one direct call of its meaning. -/

namespace Sys2Proof.Machine

def exec (i : Instr) (s : State) : Host.Outcome State Fault Refusal :=
  match i with
  | .windowWrite q a wide be v t => Sys2Proof.Machine.execWindowWrite q a wide be v t s
  | .rcRead q a wide be t => Sys2Proof.Machine.execRcRead q a wide be t s
  | .wideLowHalfRead q a t => Sys2Proof.Machine.execWideLowHalfRead q a t s
  | .wideLowHalfWrite q a v => Sys2Proof.Machine.execWideLowHalfWrite q a v s
  | .wideHighHalfWrite q a v t => Sys2Proof.Machine.execWideHighHalfWrite q a v t s
  | .softReset q page => Sys2Proof.Machine.execSoftReset q page s
  | .softResetDone page ok => Sys2Proof.Machine.execSoftResetDone page ok s
  | .lockRequest q page => Sys2Proof.Machine.execLockRequest q page s
  | .lockRelease q page => Sys2Proof.Machine.execLockRelease q page s
  | .lockStickySet q page => Sys2Proof.Machine.execLockStickySet q page s
  | .pageClaim q page tag => Sys2Proof.Machine.execPageClaim q page tag s
  | .pageClaimRelease q page => Sys2Proof.Machine.execPageClaimRelease q page s
  | .irqSet q page v => Sys2Proof.Machine.execIrqSet q page v s
  | .errorInjectArm q page v => Sys2Proof.Machine.execErrorInjectArm q page v s
  | .nop x u w => Sys2Proof.Machine.execNop x u w s
  | .add x u d a b => Sys2Proof.Machine.execAdd x u d a b s
  | .sub x u d a b => Sys2Proof.Machine.execSub x u d a b s
  | .and x u d a b => Sys2Proof.Machine.execAnd x u d a b s
  | .or x u d a b => Sys2Proof.Machine.execOr x u d a b s
  | .xor x u d a b => Sys2Proof.Machine.execXor x u d a b s
  | .andn x u d a b => Sys2Proof.Machine.execAndn x u d a b s
  | .shl x u d a b => Sys2Proof.Machine.execShl x u d a b s
  | .shr x u d a b => Sys2Proof.Machine.execShr x u d a b s
  | .sar x u d a b => Sys2Proof.Machine.execSar x u d a b s
  | .ror x u d a b => Sys2Proof.Machine.execRor x u d a b s
  | .sel x u d a b p => Sys2Proof.Machine.execSel x u d a b p s
  | .minu x u d a b => Sys2Proof.Machine.execMinu x u d a b s
  | .maxu x u d a b => Sys2Proof.Machine.execMaxu x u d a b s
  | .mins x u d a b => Sys2Proof.Machine.execMins x u d a b s
  | .maxs x u d a b => Sys2Proof.Machine.execMaxs x u d a b s
  | .addi x u d a imm => Sys2Proof.Machine.execAddi x u d a imm s
  | .andi x u d a imm => Sys2Proof.Machine.execAndi x u d a imm s
  | .ori x u d a imm => Sys2Proof.Machine.execOri x u d a imm s
  | .xori x u d a imm => Sys2Proof.Machine.execXori x u d a imm s
  | .shli x u d a n => Sys2Proof.Machine.execShli x u d a n s
  | .shri x u d a n => Sys2Proof.Machine.execShri x u d a n s
  | .sari x u d a n => Sys2Proof.Machine.execSari x u d a n s
  | .rori x u d a n => Sys2Proof.Machine.execRori x u d a n s
  | .movz x u d imm => Sys2Proof.Machine.execMovz x u d imm s
  | .movk0 x u d imm => Sys2Proof.Machine.execMovk0 x u d imm s
  | .movk1 x u d imm => Sys2Proof.Machine.execMovk1 x u d imm s
  | .movk2 x u d imm => Sys2Proof.Machine.execMovk2 x u d imm s
  | .movk3 x u d imm => Sys2Proof.Machine.execMovk3 x u d imm s
  | .bswap x u d a m => Sys2Proof.Machine.execBswap x u d a m s
  | .clz x u d a => Sys2Proof.Machine.execClz x u d a s
  | .popc x u d a => Sys2Proof.Machine.execPopc x u d a s
  | .cmpeq x u pd a b => Sys2Proof.Machine.execCmpeq x u pd a b s
  | .cmpne x u pd a b => Sys2Proof.Machine.execCmpne x u pd a b s
  | .cmpltu x u pd a b => Sys2Proof.Machine.execCmpltu x u pd a b s
  | .cmplts x u pd a b => Sys2Proof.Machine.execCmplts x u pd a b s
  | .cmpleu x u pd a b => Sys2Proof.Machine.execCmpleu x u pd a b s
  | .cmples x u pd a b => Sys2Proof.Machine.execCmples x u pd a b s
  | .cmpeqi x u pd a imm => Sys2Proof.Machine.execCmpeqi x u pd a imm s
  | .cmpnei x u pd a imm => Sys2Proof.Machine.execCmpnei x u pd a imm s
  | .cmpltui x u pd a imm => Sys2Proof.Machine.execCmpltui x u pd a imm s
  | .cmpltsi x u pd a imm => Sys2Proof.Machine.execCmpltsi x u pd a imm s
  | .tbit x u pd a n => Sys2Proof.Machine.execTbit x u pd a n s
  | .pand x u pd p1 p2 => Sys2Proof.Machine.execPand x u pd p1 p2 s
  | .por x u pd p1 p2 => Sys2Proof.Machine.execPor x u pd p1 p2 s
  | .pxor x u pd p1 p2 => Sys2Proof.Machine.execPxor x u pd p1 p2 s
  | .mul x d a b => Sys2Proof.Machine.execMul x d a b s
  | .mulhu x d a b => Sys2Proof.Machine.execMulhu x d a b s
  | .mulhs x d a b => Sys2Proof.Machine.execMulhs x d a b s
  | .sid x d => Sys2Proof.Machine.execSid x d s
  | .divu x d a b => Sys2Proof.Machine.execDivu x d a b s
  | .divs x d a b => Sys2Proof.Machine.execDivs x d a b s
  | .remu x d a b => Sys2Proof.Machine.execRemu x d a b s
  | .rems x d a b => Sys2Proof.Machine.execRems x d a b s
  | .br x target => Sys2Proof.Machine.execBr x target s
  | .brl x d target => Sys2Proof.Machine.execBrl x d target s
  | .brr x a => Sys2Proof.Machine.execBrr x a s
  | .chk x imm => Sys2Proof.Machine.execChk x imm s
  | .tend x => Sys2Proof.Machine.execTend x s
  | .ld8u x d a imm => Sys2Proof.Machine.execLd8u x d a imm s
  | .ld16u x d a imm => Sys2Proof.Machine.execLd16u x d a imm s
  | .ld32u x d a imm => Sys2Proof.Machine.execLd32u x d a imm s
  | .ld32s x d a imm => Sys2Proof.Machine.execLd32s x d a imm s
  | .ld64 x d a imm => Sys2Proof.Machine.execLd64 x d a imm s
  | .ld128 x d a imm => Sys2Proof.Machine.execLd128 x d a imm s
  | .st8 x d a imm => Sys2Proof.Machine.execSt8 x d a imm s
  | .st16 x d a imm => Sys2Proof.Machine.execSt16 x d a imm s
  | .st32 x d a imm => Sys2Proof.Machine.execSt32 x d a imm s
  | .st64 x d a imm => Sys2Proof.Machine.execSt64 x d a imm s
  | .st128 x d a imm => Sys2Proof.Machine.execSt128 x d a imm s
  | .pope x oct n => Sys2Proof.Machine.execPope x oct n s
  | .popo x oct n => Sys2Proof.Machine.execPopo x oct n s
  | .poper x oct a => Sys2Proof.Machine.execPoper x oct a s
  | .popor x oct a => Sys2Proof.Machine.execPopor x oct a s
  | .push x oct n => Sys2Proof.Machine.execPush x oct n s
  | .pushr x oct a => Sys2Proof.Machine.execPushr x oct a s
  | .semp x pd n => Sys2Proof.Machine.execSemp x pd n s
  | .sfull x pd n => Sys2Proof.Machine.execSfull x pd n s
  | .klds x k a => Sys2Proof.Machine.execKlds x k a s
  | .kldd x k a b => Sys2Proof.Machine.execKldd x k a b s
  | .kldw x k oct => Sys2Proof.Machine.execKldw x k oct s
  | .keyLoadDone lay => Sys2Proof.Machine.execKeyLoadDone lay s
  | .kst x k d => Sys2Proof.Machine.execKst x k d s
  | .kclr x k => Sys2Proof.Machine.execKclr x k s
  | .aesb x k d a => Sys2Proof.Machine.execAesb x k d a s
  | .gmul x d a b => Sys2Proof.Machine.execGmul x d a b s
  | .crc16 x d a b n => Sys2Proof.Machine.execCrc16 x d a b n s
  | .crc32 x d a b n => Sys2Proof.Machine.execCrc32 x d a b n s
  | .macu x a b => Sys2Proof.Machine.execMacu x a b s
  | .macs x a b => Sys2Proof.Machine.execMacs x a b s
  | .macz x => Sys2Proof.Machine.execMacz x s
  | .macrl x d => Sys2Proof.Machine.execMacrl x d s
  | .macrh x d => Sys2Proof.Machine.execMacrh x d s
  | .strandScrub lay strand => Sys2Proof.Machine.execStrandScrub lay strand s
  | .debugDataWrite q lay strand v => Sys2Proof.Machine.execDebugDataWrite q lay strand v s
  | .turnBoundary lay => Sys2Proof.Machine.execTurnBoundary lay s
  | .dbgStepEnd lay => Sys2Proof.Machine.execDbgStepEnd lay s
  | .layBreakpointFreeze lay => Sys2Proof.Machine.execLayBreakpointFreeze lay s
  | .clockMonitorWindow lay count => Sys2Proof.Machine.execClockMonitorWindow lay count s
  | .crossDomainVisibility n freed => Sys2Proof.Machine.execCrossDomainVisibility n freed s
  | .ddrSlot slot => Sys2Proof.Machine.execDdrSlot slot s
  | .ddrBurstComplete => Sys2Proof.Machine.execDdrBurstComplete s
  | .pkeSlot slot => Sys2Proof.Machine.execPkeSlot slot s
  | .pkeVerifyRequest lay => Sys2Proof.Machine.execPkeVerifyRequest lay s
  | .pkeVerifyComplete => Sys2Proof.Machine.execPkeVerifyComplete s
  | .layArm q lay => Sys2Proof.Machine.execLayArm q lay s
  | .layDisarm q lay => Sys2Proof.Machine.execLayDisarm q lay s
  | .layGo q lay arm => Sys2Proof.Machine.execLayGo q lay arm s
  | .layStop q lay => Sys2Proof.Machine.execLayStop q lay s
  | .layResume q lay => Sys2Proof.Machine.execLayResume q lay s
  | .layReturn q lay strand => Sys2Proof.Machine.execLayReturn q lay strand s
  | .loadPortRead q lay => Sys2Proof.Machine.execLoadPortRead q lay s
  | .loadPortWrite q lay v => Sys2Proof.Machine.execLoadPortWrite q lay v s
  | .layMemScrub lay bank => Sys2Proof.Machine.execLayMemScrub lay bank s
  | .riggingLoad fromDdr addr len => Sys2Proof.Machine.execRiggingLoad fromDdr addr len s
  | .riggingReplaceDrained => Sys2Proof.Machine.execRiggingReplaceDrained s
  | .riggingReplaceTimeout => Sys2Proof.Machine.execRiggingReplaceTimeout s
  | .spliceConfigWrite q n v => Sys2Proof.Machine.execSpliceConfigWrite q n v s
  | .spliceEndsWrite q n v => Sys2Proof.Machine.execSpliceEndsWrite q n v s
  | .blockCommit n => Sys2Proof.Machine.execBlockCommit n s
  | .pointerCheck n producer => Sys2Proof.Machine.execPointerCheck n producer s
  | .poolScrub busy => Sys2Proof.Machine.execPoolScrub busy s
  | .spliceFlush q n => Sys2Proof.Machine.execSpliceFlush q n s
  | .poolPeek q => Sys2Proof.Machine.execPoolPeek q s
  | .hostCommand ring reply clear => Sys2Proof.Machine.execHostCommand ring reply clear s
  | .frameAdmission f t => Sys2Proof.Machine.execFrameAdmission f t s
  | .ingestEnable q t => Sys2Proof.Machine.execIngestEnable q t s
  | .creditRefill => Sys2Proof.Machine.execCreditRefill s
  | .ingestReseed => Sys2Proof.Machine.execIngestReseed s
  | .openSeq q => Sys2Proof.Machine.execOpenSeq q s
  | .classOpenStep => Sys2Proof.Machine.execClassOpenStep s
  | .closeAll q => Sys2Proof.Machine.execCloseAll q s
  | .openAll q => Sys2Proof.Machine.execOpenAll q s
  | .ackReport seq t => Sys2Proof.Machine.execAckReport seq t s
  | .lateScan t => Sys2Proof.Machine.execLateScan t s
  | .sourceCommit q source => Sys2Proof.Machine.execSourceCommit q source s
  | .sourceLoad q source => Sys2Proof.Machine.execSourceLoad q source s
  | .readingValidate lay strand r window spot bal t => Sys2Proof.Machine.execReadingValidate lay strand r window spot bal t s
  | .ackCommit lay seq lbn page idx n t => Sys2Proof.Machine.execAckCommit lay seq lbn page idx n t s
  | .ackCellConsumed port spl t => Sys2Proof.Machine.execAckCellConsumed port spl t s
  | .query ring reply => Sys2Proof.Machine.execQuery ring reply s
  | .rosterWrite images => Sys2Proof.Machine.execRosterWrite images s
  | .mdbHostRead q idx regions => Sys2Proof.Machine.execMdbHostRead q idx regions s
  | .mdbSingleWrite q idx regions => Sys2Proof.Machine.execMdbSingleWrite q idx regions s
  | .mdbBulkLoad q heads => Sys2Proof.Machine.execMdbBulkLoad q heads s
  | .mdbBulkAbort q done => Sys2Proof.Machine.execMdbBulkAbort q done s
  | .mdbCommandDone which tries => Sys2Proof.Machine.execMdbCommandDone which tries s
  | .checkpointPass req comp => Sys2Proof.Machine.execCheckpointPass req comp s
  | .tableReload => Sys2Proof.Machine.execTableReload s
  | .cosemRequest ring reply r t => Sys2Proof.Machine.execCosemRequest ring reply r t s
  | .associationTimeout session t => Sys2Proof.Machine.execAssociationTimeout session t s
  | .roleReservation role start fails => Sys2Proof.Machine.execRoleReservation role start fails s
  | .tariffLoad ring reply image => Sys2Proof.Machine.execTariffLoad ring reply image s
  | .switchListRefill p t => Sys2Proof.Machine.execSwitchListRefill p t s
  | .tariffDistribution ring reply prog meters start len act => Sys2Proof.Machine.execTariffDistribution ring reply prog meters start len act s
  | .tariffSend meter pduFits answer ring out t => Sys2Proof.Machine.execTariffSend meter pduFits answer ring out t s
  | .tariffResponseTimeout meter ring t => Sys2Proof.Machine.execTariffResponseTimeout meter ring t s
  | .tokenRedeem meter strings ring out t => Sys2Proof.Machine.execTokenRedeem meter strings ring out t s
  | .creditActionTimeout meter result ring t => Sys2Proof.Machine.execCreditActionTimeout meter result ring t s
  | .measSample xs t => Sys2Proof.Machine.execMeasSample xs t s
  | .channelStuck c => Sys2Proof.Machine.execChannelStuck c s
  | .syntTrim => Sys2Proof.Machine.execSyntTrim s
  | .measEnable q t => Sys2Proof.Machine.execMeasEnable q t s
  | .measSettled t => Sys2Proof.Machine.execMeasSettled t s
  | .oneSecondTransfer t => Sys2Proof.Machine.execOneSecondTransfer t s
  | .totalsCopyWritten fails => Sys2Proof.Machine.execTotalsCopyWritten fails s
  | .intervalValuePush => Sys2Proof.Machine.execIntervalValuePush s
  | .snapshotMessage => Sys2Proof.Machine.execSnapshotMessage s
  | .pulseStart p t => Sys2Proof.Machine.execPulseStart p t s
  | .pulseEnd p t => Sys2Proof.Machine.execPulseEnd p t s
  | .pulseConfigWrite q p v => Sys2Proof.Machine.execPulseConfigWrite q p v s
  | .mpCommit q p => Sys2Proof.Machine.execMpCommit q p s
  | .totClear q mask => Sys2Proof.Machine.execTotClear q mask s
  | .totSnap q p index => Sys2Proof.Machine.execTotSnap q p index s
  | .totSwitchWrite q v => Sys2Proof.Machine.execTotSwitchWrite q v s
  | .totDmConfig q sub n => Sys2Proof.Machine.execTotDmConfig q sub n s
  | .lineCycle p t => Sys2Proof.Machine.execLineCycle p t s
  | .contributionCell n => Sys2Proof.Machine.execContributionCell n s
  | .closeOrder k lost us => Sys2Proof.Machine.execCloseOrder k lost us s
  | .forcedClose n us => Sys2Proof.Machine.execForcedClose n us s
  | .closureNotice lay => Sys2Proof.Machine.execClosureNotice lay s
  | .nodeDecl ring reply => Sys2Proof.Machine.execNodeDecl ring reply s
  | .nodeRemove ring reply => Sys2Proof.Machine.execNodeRemove ring reply s
  | .nodeReset ring reply => Sys2Proof.Machine.execNodeReset ring reply s
  | .nodeRead ring reply => Sys2Proof.Machine.execNodeRead ring reply s
  | .reportPush n => Sys2Proof.Machine.execReportPush n s
  | .balanceStatus => Sys2Proof.Machine.execBalanceStatus s
  | .balNoStatus t => Sys2Proof.Machine.execBalNoStatus t s
  | .balCommit q reportAll hold => Sys2Proof.Machine.execBalCommit q reportAll hold s
  | .radioEnable q n => Sys2Proof.Machine.execRadioEnable q n s
  | .transceiverIrq n cause low => Sys2Proof.Machine.execTransceiverIrq n cause low s
  | .txDoneTimeout n t => Sys2Proof.Machine.execTxDoneTimeout n t s
  | .ccaTimeout n t => Sys2Proof.Machine.execCcaTimeout n t s
  | .timeStrobe n t => Sys2Proof.Machine.execTimeStrobe n t s
  | .fieldFrameReceived m f t => Sys2Proof.Machine.execFieldFrameReceived m f t s
  | .macAckSend m t => Sys2Proof.Machine.execMacAckSend m t s
  | .reassemblyTimeout m t => Sys2Proof.Machine.execReassemblyTimeout m t s
  | .neighbourCommit q m idx => Sys2Proof.Machine.execNeighbourCommit q m idx s
  | .neighbourLoad q m idx => Sys2Proof.Machine.execNeighbourLoad q m idx s
  | .counterImageFlush m ok => Sys2Proof.Machine.execCounterImageFlush m ok s
  | .txctrReserve m fails => Sys2Proof.Machine.execTxctrReserve m fails s
  | .txctrReset q m => Sys2Proof.Machine.execTxctrReset q m s
  | .transmitMessage n t => Sys2Proof.Machine.execTransmitMessage n t s
  | .backoffExpiry m t => Sys2Proof.Machine.execBackoffExpiry m t s
  | .ccaResult m energy busy t => Sys2Proof.Machine.execCcaResult m energy busy t s
  | .txDone m t => Sys2Proof.Machine.execTxDone m t s
  | .ackWaitTimeout m t => Sys2Proof.Machine.execAckWaitTimeout m t s
  | .txStatusCell m => Sys2Proof.Machine.execTxStatusCell m s
  | .indirectExpiry n t => Sys2Proof.Machine.execIndirectExpiry n t s
  | .xregAccess q n write addr data => Sys2Proof.Machine.execXregAccess q n write addr data s
  | .macReseed m => Sys2Proof.Machine.execMacReseed m s
  | .zeroCrossingEdge phase t => Sys2Proof.Machine.execZeroCrossingEdge phase t s
  | .zeroCrossingLoss phase t => Sys2Proof.Machine.execZeroCrossingLoss phase t s
  | .beaconSend receiving t => Sys2Proof.Machine.execBeaconSend receiving t s
  | .plcStartupEnd t => Sys2Proof.Machine.execPlcStartupEnd t s
  | .slotTmrSend phase idx t => Sys2Proof.Machine.execSlotTmrSend phase idx t s
  | .intervalMark t => Sys2Proof.Machine.execIntervalMark t s
  | .tsuSecondBoundary t => Sys2Proof.Machine.execTsuSecondBoundary t s
  | .ppsPulseEnd t => Sys2Proof.Machine.execPpsPulseEnd t s
  | .ptpMessageReceived port overUdp mac msg t => Sys2Proof.Machine.execPtpMessageReceived port overUdp mac msg t s
  | .ptpMessageSend port msg late t => Sys2Proof.Machine.execPtpMessageSend port msg late t s
  | .ptpOffsetMeasurement o port freq t => Sys2Proof.Machine.execPtpOffsetMeasurement o port freq t s
  | .ptpSourceLoss => Sys2Proof.Machine.execPtpSourceLoss s
  | .tsuSlewWrite q v t => Sys2Proof.Machine.execTsuSlewWrite q v t s
  | .slewDone t => Sys2Proof.Machine.execSlewDone t s
  | .tsuStep q t => Sys2Proof.Machine.execTsuStep q t s
  | .captureEdge src rising t => Sys2Proof.Machine.execCaptureEdge src rising t s
  | .rtcSecondCarry t => Sys2Proof.Machine.execRtcSecondCarry t s
  | .rtcHalt q t => Sys2Proof.Machine.execRtcHalt q t s
  | .rtcResume q t => Sys2Proof.Machine.execRtcResume q t s
  | .rtcTimeWrite q v t => Sys2Proof.Machine.execRtcTimeWrite q v t s
  | .rtcDiscipline t => Sys2Proof.Machine.execRtcDiscipline t s
  | .rtcCalRead q t => Sys2Proof.Machine.execRtcCalRead q t s
  | .rtcCalWrite q date time t => Sys2Proof.Machine.execRtcCalWrite q date time t s
  | .oscStop t => Sys2Proof.Machine.execOscStop t s
  | .oscResume t => Sys2Proof.Machine.execOscResume t s
  | .switchToVbat main vbat => Sys2Proof.Machine.execSwitchToVbat main vbat s
  | .switchToMain main vbat => Sys2Proof.Machine.execSwitchToMain main vbat s
  | .backupLoss t => Sys2Proof.Machine.execBackupLoss t s
  | .keyGenerate q idx => Sys2Proof.Machine.execKeyGenerate q idx s
  | .keyDerive q idx => Sys2Proof.Machine.execKeyDerive q idx s
  | .keyImport q idx => Sys2Proof.Machine.execKeyImport q idx s
  | .keyExport q idx => Sys2Proof.Machine.execKeyExport q idx s
  | .keyRewrap q idx => Sys2Proof.Machine.execKeyRewrap q idx s
  | .keyInvalidate q idx => Sys2Proof.Machine.execKeyInvalidate q idx s
  | .keySetMask q idx => Sys2Proof.Machine.execKeySetMask q idx s
  | .keySweep q => Sys2Proof.Machine.execKeySweep q s
  | .keyWipe q => Sys2Proof.Machine.execKeyWipe q s
  | .keyCommandDone => Sys2Proof.Machine.execKeyCommandDone s
  | .catalogueRestore => Sys2Proof.Machine.execCatalogueRestore s
  | .lcsRootNew q => Sys2Proof.Machine.execLcsRootNew q s
  | .tamperSample levels => Sys2Proof.Machine.execTamperSample levels s
  | .tamperLatchClear q latches => Sys2Proof.Machine.execTamperLatchClear q latches s
  | .cryptoSelfTest kdf aead hash pke trng => Sys2Proof.Machine.execCryptoSelfTest kdf aead hash pke trng s
  | .trngHealthFail raw => Sys2Proof.Machine.execTrngHealthFail raw s
  | .drbgReseed t => Sys2Proof.Machine.execDrbgReseed t s
  | .trngRead q => Sys2Proof.Machine.execTrngRead q s
  | .lcsTransitionRequest q target good => Sys2Proof.Machine.execLcsTransitionRequest q target good s
  | .lcsTransitionReset t => Sys2Proof.Machine.execLcsTransitionReset t s
  | .lcsNewChallenge q target => Sys2Proof.Machine.execLcsNewChallenge q target s
  | .lcsAuthExpiry t => Sys2Proof.Machine.execLcsAuthExpiry t s
  | .otpProgram q slot => Sys2Proof.Machine.execOtpProgram q slot s
  | .aeadGcmEncrypt q slot => Sys2Proof.Machine.execAeadGcmEncrypt q slot s
  | .aeadGcmDecrypt q slot => Sys2Proof.Machine.execAeadGcmDecrypt q slot s
  | .aeadCcmEncrypt q slot => Sys2Proof.Machine.execAeadCcmEncrypt q slot s
  | .aeadCcmDecrypt q slot => Sys2Proof.Machine.execAeadCcmDecrypt q slot s
  | .aeadCmac q slot => Sys2Proof.Machine.execAeadCmac q slot s
  | .aeadCtr q slot => Sys2Proof.Machine.execAeadCtr q slot s
  | .aeadSelftest q ok => Sys2Proof.Machine.execAeadSelftest q ok s
  | .hashSha256 q => Sys2Proof.Machine.execHashSha256 q s
  | .hashSha384 q => Sys2Proof.Machine.execHashSha384 q s
  | .hashSelftest q ok => Sys2Proof.Machine.execHashSelftest q ok s
  | .jobDone hash => Sys2Proof.Machine.execJobDone hash s
  | .pkeVerify256 q => Sys2Proof.Machine.execPkeVerify256 q s
  | .pkeVerify384 q => Sys2Proof.Machine.execPkeVerify384 q s
  | .pkeSign q slot => Sys2Proof.Machine.execPkeSign q slot s
  | .pkeKeygen q slot => Sys2Proof.Machine.execPkeKeygen q slot s
  | .pkePubkey q slot => Sys2Proof.Machine.execPkePubkey q slot s
  | .pkeEcdh q slot => Sys2Proof.Machine.execPkeEcdh q slot s
  | .pkeVerifyLcs q => Sys2Proof.Machine.execPkeVerifyLcs q s
  | .pkeSelftest q ok => Sys2Proof.Machine.execPkeSelftest q ok s
  | .pkeJobDone => Sys2Proof.Machine.execPkeJobDone s
  | .nandInit q => Sys2Proof.Machine.execNandInit q s
  | .nandScan target unreadable => Sys2Proof.Machine.execNandScan target unreadable s
  | .nandScanDone target ms => Sys2Proof.Machine.execNandScanDone target ms s
  | .nandRequestPop n => Sys2Proof.Machine.execNandRequestPop n s
  | .nandFramePeriod => Sys2Proof.Machine.execNandFramePeriod s
  | .nandSlot entry t => Sys2Proof.Machine.execNandSlot entry t s
  | .nandProgramComplete target ok decodes corr => Sys2Proof.Machine.execNandProgramComplete target ok decodes corr s
  | .checkpointFetch n => Sys2Proof.Machine.execCheckpointFetch n s
  | .nandReadComplete target ue corr => Sys2Proof.Machine.execNandReadComplete target ue corr s
  | .nandRelease target => Sys2Proof.Machine.execNandRelease target s
  | .nandEraseComplete target ok => Sys2Proof.Machine.execNandEraseComplete target ok s
  | .relocationCopy target => Sys2Proof.Machine.execRelocationCopy target s
  | .journalProgram target => Sys2Proof.Machine.execJournalProgram target s
  | .nandScrubRead target ue corr => Sys2Proof.Machine.execNandScrubRead target ue corr s
  | .nandFull => Sys2Proof.Machine.execNandFull s
  | .nandTempSample t => Sys2Proof.Machine.execNandTempSample t s
  | .lockstepMismatch => Sys2Proof.Machine.execLockstepMismatch s
  | .lanyardScrub busy => Sys2Proof.Machine.execLanyardScrub busy s
  | .safetyGateCall => Sys2Proof.Machine.execSafetyGateCall s
  | .safetyReturn => Sys2Proof.Machine.execSafetyReturn s
  | .mailboxRequest => Sys2Proof.Machine.execMailboxRequest s
  | .mbStatus => Sys2Proof.Machine.execMbStatus s
  | .mbRiggingLoad addr len => Sys2Proof.Machine.execMbRiggingLoad addr len s
  | .mbStrandReturn => Sys2Proof.Machine.execMbStrandReturn s
  | .mbStrandKeepOut => Sys2Proof.Machine.execMbStrandKeepOut s
  | .mbRoster src heads => Sys2Proof.Machine.execMbRoster src heads s
  | .mbKey op slot arg mask label gen bufIn bufOut ctx => Sys2Proof.Machine.execMbKey op slot arg mask label gen bufIn bufOut ctx s
  | .mbLifeCycle chal req target good => Sys2Proof.Machine.execMbLifeCycle chal req target good s
  | .mbRootNew => Sys2Proof.Machine.execMbRootNew s
  | .mbOtpProgram slot hash => Sys2Proof.Machine.execMbOtpProgram slot hash s
  | .updatePiece norFail framFail => Sys2Proof.Machine.execUpdatePiece norFail framFail s
  | .updateStatus kind => Sys2Proof.Machine.execUpdateStatus kind s
  | .updateActivate => Sys2Proof.Machine.execUpdateActivate s
  | .updateImageStore slot framFail => Sys2Proof.Machine.execUpdateImageStore slot framFail s
  | .settingsSave ok => Sys2Proof.Machine.execSettingsSave ok s
  | .settingsDefaults => Sys2Proof.Machine.execSettingsDefaults s
  | .mbDomain => Sys2Proof.Machine.execMbDomain s
  | .mbHealth => Sys2Proof.Machine.execMbHealth s
  | .mbWdogSet => Sys2Proof.Machine.execMbWdogSet s
  | .noticePush => Sys2Proof.Machine.execNoticePush s
  | .lanyardSplicePop n known norFail framFail => Sys2Proof.Machine.execLanyardSplicePop n known norFail framFail s
  | .sensorSample x t => Sys2Proof.Machine.execSensorSample x t s
  | .lifetimeRecordUpdate t => Sys2Proof.Machine.execLifetimeRecordUpdate t s
  | .hostWatchdogKick q v t => Sys2Proof.Machine.execHostWatchdogKick q v t s
  | .hostWatchdogExpiry t => Sys2Proof.Machine.execHostWatchdogExpiry t s
  | .lanyardWatchdogKick q v t => Sys2Proof.Machine.execLanyardWatchdogKick q v t s
  | .lanyWarn t => Sys2Proof.Machine.execLanyWarn t s
  | .lanyardWatchdogReset t => Sys2Proof.Machine.execLanyardWatchdogReset t s
  | .lanyardInjectArm q v => Sys2Proof.Machine.execLanyardInjectArm q v s
  | .faultLatch t => Sys2Proof.Machine.execFaultLatch t s
  | .pulseNotLatched page bit_ => Sys2Proof.Machine.execPulseNotLatched page bit_ s
  | .fcStatusClear q v => Sys2Proof.Machine.execFcStatusClear q v s
  | .fcForce q source => Sys2Proof.Machine.execFcForce q source s
  | .errPinPulseEnd t => Sys2Proof.Machine.execErrPinPulseEnd t s
  | .errPinRelease q hold width => Sys2Proof.Machine.execErrPinRelease q hold width s
  | .evrSubmit q args src code => Sys2Proof.Machine.execEvrSubmit q args src code s
  | .evrCellPop n => Sys2Proof.Machine.execEvrCellPop n s
  | .evrFlushTimer t => Sys2Proof.Machine.execEvrFlushTimer t s
  | .evrFlush bad => Sys2Proof.Machine.execEvrFlush bad s
  | .evrFlushDone => Sys2Proof.Machine.execEvrFlushDone s
  | .evrFlushRequest q => Sys2Proof.Machine.execEvrFlushRequest q s
  | .evrRestore => Sys2Proof.Machine.execEvrRestore s
  | .evrRead q => Sys2Proof.Machine.execEvrRead q s
  | .opsecTick t => Sys2Proof.Machine.execOpsecTick t s
  | .leaseEnable q pref => Sys2Proof.Machine.execLeaseEnable q pref s
  | .leaseDisable q pref => Sys2Proof.Machine.execLeaseDisable q pref s
  | .helloSend t => Sys2Proof.Machine.execHelloSend t s
  | .hello h b t => Sys2Proof.Machine.execHello h b t s
  | .pairLinkDown t => Sys2Proof.Machine.execPairLinkDown t s
  | .renewSend t => Sys2Proof.Machine.execRenewSend t s
  | .renew h rseq epoch t => Sys2Proof.Machine.execRenew h rseq epoch t s
  | .grant h rseq t => Sys2Proof.Machine.execGrant h rseq t s
  | .leaseExpiry t => Sys2Proof.Machine.execLeaseExpiry t s
  | .takeoverTime epochFail t => Sys2Proof.Machine.execTakeoverTime epochFail t s
  | .takeoverComplete t => Sys2Proof.Machine.execTakeoverComplete t s
  | .page h p ck => Sys2Proof.Machine.execPage h p ck s
  | .verified h reserve lbn page refused => Sys2Proof.Machine.execVerified h reserve lbn page refused s
  | .partnerFail => Sys2Proof.Machine.execPartnerFail s
  | .pairRelease h lbn => Sys2Proof.Machine.execPairRelease h lbn s
  | .reserve h idx limit => Sys2Proof.Machine.execReserve h idx limit s
  | .settings h offset piece image ok => Sys2Proof.Machine.execSettings h offset piece image ok s
  | .health h body => Sys2Proof.Machine.execHealth h body s
  | .healthSend t => Sys2Proof.Machine.execHealthSend t s
  | .catchup h p last ck => Sys2Proof.Machine.execCatchup h p last ck s
  | .salvage h p => Sys2Proof.Machine.execSalvage h p s
  | .salvageDone => Sys2Proof.Machine.execSalvageDone s
  | .standbyTestStep t => Sys2Proof.Machine.execStandbyTestStep t s
  | .standbyTestEnd pass => Sys2Proof.Machine.execStandbyTestEnd pass s
  | .forceActive q epochFail => Sys2Proof.Machine.execForceActive q epochFail s
  | .stayOut q => Sys2Proof.Machine.execStayOut q s
  | .rejoin q => Sys2Proof.Machine.execRejoin q s
  | .campaignStart cmd slot meters block key rounds gap act ring t => Sys2Proof.Machine.execCampaignStart cmd slot meters block key rounds gap act ring t s
  | .imageBlockBroadcast k out held took verify t => Sys2Proof.Machine.execImageBlockBroadcast k out held took verify t s
  | .imageVerifyPoll meter answer t => Sys2Proof.Machine.execImageVerifyPoll meter answer t s
  | .imageActivate k answers t => Sys2Proof.Machine.execImageActivate k answers t s
  | .qspiRead q => Sys2Proof.Machine.execQspiRead q s
  | .qspiProgram q => Sys2Proof.Machine.execQspiProgram q s
  | .qspiErase q => Sys2Proof.Machine.execQspiErase q s
  | .qspiCommandDone timeout => Sys2Proof.Machine.execQspiCommandDone timeout s
  | .domainTargetOn q d => Sys2Proof.Machine.execDomainTargetOn q d s
  | .domainTargetOff q d => Sys2Proof.Machine.execDomainTargetOff q d s
  | .domainTargetRet q d => Sys2Proof.Machine.execDomainTargetRet q d s
  | .domainOnComplete d => Sys2Proof.Machine.execDomainOnComplete d s
  | .domainOnFail d => Sys2Proof.Machine.execDomainOnFail d s
  | .domainRetry d t => Sys2Proof.Machine.execDomainRetry d t s
  | .sleep q ret => Sys2Proof.Machine.execSleep q ret s
  | .wake src => Sys2Proof.Machine.execWake src s
  | .wakePortMatch addr read data => Sys2Proof.Machine.execWakePortMatch addr read data s
  | .wakeStretchTimeout t => Sys2Proof.Machine.execWakeStretchTimeout t s
  | .powerFail monitor t => Sys2Proof.Machine.execPowerFail monitor t s
  | .powerFailDone t => Sys2Proof.Machine.execPowerFailDone t s
  | .powerReturn t => Sys2Proof.Machine.execPowerReturn t s
  | .powerOnReset => Sys2Proof.Machine.execPowerOnReset s
  | .resetPin => Sys2Proof.Machine.execResetPin s
  | .rstChip q => Sys2Proof.Machine.execRstChip q s
  | .chipReset code t => Sys2Proof.Machine.execChipReset code t s
  | .boot bad left t => Sys2Proof.Machine.execBoot bad left t s
  | .startUp bad left unreadable ms t => Sys2Proof.Machine.execStartUp bad left unreadable ms t s
  | .refMonitorWindow count => Sys2Proof.Machine.execRefMonitorWindow count s
  | .refLost => Sys2Proof.Machine.execRefLost s
  | .dbgLineReset => Sys2Proof.Machine.execDbgLineReset s
  | .dbgNop parity op => Sys2Proof.Machine.execDbgNop parity op s
  | .dbgIdcode parity => Sys2Proof.Machine.execDbgIdcode parity s
  | .dbgStatus parity => Sys2Proof.Machine.execDbgStatus parity s
  | .dbgRead parity sp w64 a served t => Sys2Proof.Machine.execDbgRead parity sp w64 a served t s
  | .dbgWrite parity sp w64 a v served t => Sys2Proof.Machine.execDbgWrite parity sp w64 a v served t s
  | .dbgHalt parity mask lany t => Sys2Proof.Machine.execDbgHalt parity mask lany t s
  | .dbgRun parity mask lany t => Sys2Proof.Machine.execDbgRun parity mask lany t s
  | .dbgStep parity lay lany count t => Sys2Proof.Machine.execDbgStep parity lay lany count t s
  | .dbgNewchal parity sought t => Sys2Proof.Machine.execDbgNewchal parity sought t s
  | .dbgChal parity word => Sys2Proof.Machine.execDbgChal parity word s
  | .dbgResp parity word v => Sys2Proof.Machine.execDbgResp parity word v s
  | .dbgAuth parity t => Sys2Proof.Machine.execDbgAuth parity t s
  | .dbgAuthComplete t => Sys2Proof.Machine.execDbgAuthComplete t s
  | .dbgReset parity key => Sys2Proof.Machine.execDbgReset parity key s
  | .lanyardBreakpoint a t => Sys2Proof.Machine.execLanyardBreakpoint a t s
  | .ringEnable q irq => Sys2Proof.Machine.execRingEnable q irq s
  | .ringDoorbellH2d r p entries t => Sys2Proof.Machine.execRingDoorbellH2d r p entries t s
  | .ringDoorbellD2h r c t => Sys2Proof.Machine.execRingDoorbellD2h r c t s
  | .ringWriteBack r t => Sys2Proof.Machine.execRingWriteBack r t s
  | .ringIrqTimer r t => Sys2Proof.Machine.execRingIrqTimer r t s
  | .dmaError r kind => Sys2Proof.Machine.execDmaError r kind s
  | .ringReset q doorbells => Sys2Proof.Machine.execRingReset q doorbells s
  | .perstAssert => Sys2Proof.Machine.execPerstAssert s
  | .perstDeassert => Sys2Proof.Machine.execPerstDeassert s
  | .pcieLinkChange up speed width correctable => Sys2Proof.Machine.execPcieLinkChange up speed width correctable s
  | .msixMessage v => Sys2Proof.Machine.execMsixMessage v s
  | .msixUnmask v addr data mask => Sys2Proof.Machine.execMsixUnmask v addr data mask s
  | .ethFrameReceived n f t => Sys2Proof.Machine.execEthFrameReceived n f t s
  | .neighbourAdvertisement n k => Sys2Proof.Machine.execNeighbourAdvertisement n k s
  | .ethTransmit n spl t => Sys2Proof.Machine.execEthTransmit n spl t s
  | .ethLinkChange n up fast an => Sys2Proof.Machine.execEthLinkChange n up fast an s
  | .ethNcFlush q n => Sys2Proof.Machine.execEthNcFlush q n s
  | .mdioAccess q c45 op phy reg data answer => Sys2Proof.Machine.execMdioAccess q c45 op phy reg data answer s
  | .hdlcFrameReceived n rx t => Sys2Proof.Machine.execHdlcFrameReceived n rx t s
  | .hdlcPoll n t => Sys2Proof.Machine.execHdlcPoll n t s
  | .hdlcResponseTimeout n t => Sys2Proof.Machine.execHdlcResponseTimeout n t s
  | .hdlcByteGapAbort n t => Sys2Proof.Machine.execHdlcByteGapAbort n t s
  | .uartTransmit n spl t => Sys2Proof.Machine.execUartTransmit n spl t s
  | .stationCommit q n k => Sys2Proof.Machine.execStationCommit q n k s
  | .stationLoad q n k => Sys2Proof.Machine.execStationLoad q n k s
  | .sbusSlotRead slot x t => Sys2Proof.Machine.execSbusSlotRead slot x t s
  | .pmxClaim q func res => Sys2Proof.Machine.execPmxClaim q func res s
  | .pmxRelease q res => Sys2Proof.Machine.execPmxRelease q res s
  | .gpioEdge ball level => Sys2Proof.Machine.execGpioEdge ball level s
  | .timerExpiry k t => Sys2Proof.Machine.execTimerExpiry k t s
  | .ppsConfigWrite q v => Sys2Proof.Machine.execPpsConfigWrite q v s
  | .pllUnlock d locked => Sys2Proof.Machine.execPllUnlock d locked s
  | .laneDown lane up => Sys2Proof.Machine.execLaneDown lane up s
  | .vbatMeasurement mv => Sys2Proof.Machine.execVbatMeasurement mv s
  | .channelStuckEnd c => Sys2Proof.Machine.execChannelStuckEnd c s

end Sys2Proof.Machine
end

