-- ==== Sys2Proof/Machine/Tick.lean ====
section
/-! DEFINITION. What the block does while no command waits: a lay cycle of each running lay, and the rings (log entry 2). -/

namespace Sys2Proof.Machine

/-- The bundle a strand issues next, read from its instruction memory: uncorrectable, it executes as four NOPs (R82, R121). -/
def State.fetchBundle (s : State) (lay : Fin 8) (k : Fin 16) : List Instr × State :=
  let n := strandNo lay.val k.val
  let a := 16 * (s.str n).pc
  let (c0, s) := s.readStrandWord n false false a
  let (c1, s) := s.readStrandWord n false false (a + 8)
  let s := s.setStr n { s.str n with fetched := true }
  (bundleInstrs lay k (if c0 = 2 ∨ c1 = 2 then 0 else BitVec.ofNat 128 (s.le (.imem lay.val k.val) a 16)), s)

/-- The bundles of a lay's cycle, strand by strand: of the strands of the variant that no branch and no TEND holds (R74, R75, R79, R80). -/
def State.issueLay (s : State) (lay : Fin 8) : List Instr × State :=
  let s := s.setLay lay.val { s.lay lay.val with issued := true, thaw := 0 }
  (List.finRange 16).foldl (fun (r : List Instr × State) k =>
    let t := r.2.str (strandNo lay.val k.val)
    if r.2.inVariant lay.val k.val && t.gap == 0 && !t.tended then
      let x := r.2.fetchBundle lay k
      (r.1 ++ x.1, x.2)
    else r) ([], s)

/-- The cycles left of a step, one of them run (R651). -/
def State.stepCycle (s : State) (n : Nat) : State :=
  let l := s.lay n
  if 1 < l.stepLeft then s.setLay n { l with stepLeft := l.stepLeft - 1 } else s

/-- A lay's cycle ends: results act, the turn goes on or its boundary is due, and so is the end of a step (R76, R129, R168, R651). -/
def State.closeCycle (s : State) (lay : Fin 8) : List Instr × State :=
  let n := lay.val
  let s := ((s.readVtab n).endCycle n).stepCycle n
  let due := decide (s.turnLen n ≤ s.tcyc n + 1)
  let s := if due then s else s.setLay n { s.lay n with tcyc := s.tcyc n + 1 }
  ((if due then [Instr.turnBoundary lay] else []) ++ (if (s.lay n).stepLeft = 1 then [Instr.dbgStepEnd lay] else []), s)

/-- One phase of a lay's cycle: the issue, or the end of a cycle whose bundles have issued; a HELD lay issues none. -/
def State.tickLay (s : State) (lay : Fin 8) : List Instr × State :=
  let n := lay.val
  if !s.domOn (3 + n) then ([], s)
  else if s.laySt n = 4 then s.closeCycle lay
  else if s.laySt n ≠ 3 then ([], s)
  else if (s.lay n).issued then s.closeCycle lay
  else if s.breakHits n ≠ [] then ([Instr.layBreakpointFreeze lay], s)
  else s.issueLay lay

/-- What happens while no command waits. -/
def State.tick (s : State) : State :=
  let r := (List.finRange 8).foldl (fun (r : List Instr × State) lay =>
    let x := r.2.tickLay lay
    (r.1 ++ x.1, x.2)) ([], s)
  { r.2.ringsGo with pending := r.1 }

end Sys2Proof.Machine
end

