-- ==== Sys2Proof/WellFormed.lean ====
section
/-! DEFINITION. Which commands are well formed: the ranges of the rows' operands that their types do not already carry. -/

namespace Sys2Proof

/-- Entry images are 512 bytes each (R268). -/
def imagesOk (images : List (BitVec 20 × BitVec 3 × List (BitVec 8))) : Bool := images.all (fun x => x.2.2.length == 512)

/-- An update kind that a copy can be of: 1, 2 or 3 (R597, R603). -/
def kindOk (k : Nat) : Bool := decide (1 ≤ k ∧ k ≤ 3)

/-- A field frame carries what its PSDU length holds, 2,047 bytes at most (R372). -/
def fieldOk (f : FieldFrame) : Bool := decide (f.psdu.length = min 2047 f.length.toNat)

/-- A pair frame's page is 16,384 bytes with its metadata record of 48 (R500, R571). -/
def pageOk (p : PairPage) : Bool := decide (p.data.length = 16384 ∧ p.record.length = 48)

/-- An image lies within a 64-bit address space. -/
def extentOk (a n : Nat) : Bool := decide (a + n ≤ 2 ^ 64)

/-- Is a command well formed. -/
def Instr.wellFormed : Instr → Bool
  | .windowWrite _ _ _ _ _ _ => true
  | .rcRead _ _ _ _ _ => true
  | .wideLowHalfRead _ _ _ => true
  | .wideLowHalfWrite _ _ _ => true
  | .wideHighHalfWrite _ _ _ _ => true
  | .softReset _ _ => true
  | .softResetDone _ _ => true
  | .lockRequest _ _ => true
  | .lockRelease _ _ => true
  | .lockStickySet _ _ => true
  | .pageClaim _ _ _ => true
  | .pageClaimRelease _ _ => true
  | .irqSet _ _ _ => true
  | .errorInjectArm _ _ _ => true
  | .nop _ _ _ => true
  | .add _ _ _ _ _ => true
  | .sub _ _ _ _ _ => true
  | .and _ _ _ _ _ => true
  | .or _ _ _ _ _ => true
  | .xor _ _ _ _ _ => true
  | .andn _ _ _ _ _ => true
  | .shl _ _ _ _ _ => true
  | .shr _ _ _ _ _ => true
  | .sar _ _ _ _ _ => true
  | .ror _ _ _ _ _ => true
  | .sel _ _ _ _ _ _ => true
  | .minu _ _ _ _ _ => true
  | .maxu _ _ _ _ _ => true
  | .mins _ _ _ _ _ => true
  | .maxs _ _ _ _ _ => true
  | .addi _ _ _ _ _ => true
  | .andi _ _ _ _ _ => true
  | .ori _ _ _ _ _ => true
  | .xori _ _ _ _ _ => true
  | .shli _ _ _ _ _ => true
  | .shri _ _ _ _ _ => true
  | .sari _ _ _ _ _ => true
  | .rori _ _ _ _ _ => true
  | .movz _ _ _ _ => true
  | .movk0 _ _ _ _ => true
  | .movk1 _ _ _ _ => true
  | .movk2 _ _ _ _ => true
  | .movk3 _ _ _ _ => true
  | .bswap _ _ _ _ _ => true
  | .clz _ _ _ _ => true
  | .popc _ _ _ _ => true
  | .cmpeq _ _ _ _ _ => true
  | .cmpne _ _ _ _ _ => true
  | .cmpltu _ _ _ _ _ => true
  | .cmplts _ _ _ _ _ => true
  | .cmpleu _ _ _ _ _ => true
  | .cmples _ _ _ _ _ => true
  | .cmpeqi _ _ _ _ _ => true
  | .cmpnei _ _ _ _ _ => true
  | .cmpltui _ _ _ _ _ => true
  | .cmpltsi _ _ _ _ _ => true
  | .tbit _ _ _ _ _ => true
  | .pand _ _ _ _ _ => true
  | .por _ _ _ _ _ => true
  | .pxor _ _ _ _ _ => true
  | .mul _ _ _ _ => true
  | .mulhu _ _ _ _ => true
  | .mulhs _ _ _ _ => true
  | .sid _ _ => true
  | .divu _ _ _ _ => true
  | .divs _ _ _ _ => true
  | .remu _ _ _ _ => true
  | .rems _ _ _ _ => true
  | .br _ _ => true
  | .brl _ _ _ => true
  | .brr _ _ => true
  | .chk _ _ => true
  | .tend _ => true
  | .ld8u _ _ _ _ => true
  | .ld16u _ _ _ _ => true
  | .ld32u _ _ _ _ => true
  | .ld32s _ _ _ _ => true
  | .ld64 _ _ _ _ => true
  | .ld128 _ _ _ _ => true
  | .st8 _ _ _ _ => true
  | .st16 _ _ _ _ => true
  | .st32 _ _ _ _ => true
  | .st64 _ _ _ _ => true
  | .st128 _ _ _ _ => true
  | .pope _ _ _ => true
  | .popo _ _ _ => true
  | .poper _ _ _ => true
  | .popor _ _ _ => true
  | .push _ _ _ => true
  | .pushr _ _ _ => true
  | .semp _ _ _ => true
  | .sfull _ _ _ => true
  | .klds _ _ _ => true
  | .kldd _ _ _ _ => true
  | .kldw _ _ _ => true
  | .keyLoadDone _ => true
  | .kst _ _ _ => true
  | .kclr _ _ => true
  | .aesb _ _ _ _ => true
  | .gmul _ _ _ _ => true
  | .crc16 _ _ _ _ _ => true
  | .crc32 _ _ _ _ _ => true
  | .macu _ _ _ => true
  | .macs _ _ _ => true
  | .macz _ => true
  | .macrl _ _ => true
  | .macrh _ _ => true
  | .strandScrub _ _ => true
  | .debugDataWrite _ _ _ _ => true
  | .turnBoundary _ => true
  | .dbgStepEnd _ => true
  | .layBreakpointFreeze _ => true
  | .clockMonitorWindow _ _ => true
  | .crossDomainVisibility _ _ => true
  | .ddrSlot _ => true
  | .ddrBurstComplete => true
  | .pkeSlot _ => true
  | .pkeVerifyRequest _ => true
  | .pkeVerifyComplete => true
  | .layArm _ _ => true
  | .layDisarm _ _ => true
  | .layGo _ _ _ => true
  | .layStop _ _ => true
  | .layResume _ _ => true
  | .layReturn _ _ _ => true
  | .loadPortRead _ _ => true
  | .loadPortWrite _ _ _ => true
  | .layMemScrub _ _ => true
  | .riggingLoad _ addr len => extentOk addr len
  | .riggingReplaceDrained => true
  | .riggingReplaceTimeout => true
  | .spliceConfigWrite _ _ _ => true
  | .spliceEndsWrite _ _ _ => true
  | .blockCommit _ => true
  | .pointerCheck _ _ => true
  | .poolScrub _ => true
  | .spliceFlush _ _ => true
  | .poolPeek _ => true
  | .hostCommand _ _ _ => true
  | .frameAdmission _ _ => true
  | .ingestEnable _ _ => true
  | .creditRefill => true
  | .ingestReseed => true
  | .openSeq _ => true
  | .classOpenStep => true
  | .closeAll _ => true
  | .openAll _ => true
  | .ackReport _ _ => true
  | .lateScan _ => true
  | .sourceCommit _ _ => true
  | .sourceLoad _ _ => true
  | .readingValidate _ _ _ _ _ _ _ => true
  | .ackCommit _ _ _ _ _ _ _ => true
  | .ackCellConsumed _ _ _ => true
  | .query _ _ => true
  | .rosterWrite images => imagesOk images
  | .mdbHostRead _ _ _ => true
  | .mdbSingleWrite _ _ _ => true
  | .mdbBulkLoad _ _ => true
  | .mdbBulkAbort _ _ => true
  | .mdbCommandDone _ _ => true
  | .checkpointPass _ _ => true
  | .tableReload => true
  | .cosemRequest _ _ _ _ => true
  | .associationTimeout _ _ => true
  | .roleReservation _ _ _ => true
  | .tariffLoad _ _ _ => true
  | .switchListRefill _ _ => true
  | .tariffDistribution _ _ _ _ _ _ _ => true
  | .tariffSend _ _ _ _ _ _ => true
  | .tariffResponseTimeout _ _ _ => true
  | .tokenRedeem _ _ _ _ _ => true
  | .creditActionTimeout _ _ _ _ => true
  | .measSample xs _ => decide ((xs.map (·.1)).Nodup)
  | .channelStuck _ => true
  | .syntTrim => true
  | .measEnable _ _ => true
  | .measSettled _ => true
  | .oneSecondTransfer _ => true
  | .totalsCopyWritten _ => true
  | .intervalValuePush => true
  | .snapshotMessage => true
  | .pulseStart _ _ => true
  | .pulseEnd _ _ => true
  | .pulseConfigWrite _ _ _ => true
  | .mpCommit _ _ => true
  | .totClear _ _ => true
  | .totSnap _ _ _ => true
  | .totSwitchWrite _ _ => true
  | .totDmConfig _ _ _ => true
  | .lineCycle _ _ => true
  | .contributionCell _ => true
  | .closeOrder _ _ _ => true
  | .forcedClose _ _ => true
  | .closureNotice _ => true
  | .nodeDecl _ _ => true
  | .nodeRemove _ _ => true
  | .nodeReset _ _ => true
  | .nodeRead _ _ => true
  | .reportPush _ => true
  | .balanceStatus => true
  | .balNoStatus _ => true
  | .balCommit _ _ _ => true
  | .radioEnable _ _ => true
  | .transceiverIrq _ _ _ => true
  | .txDoneTimeout _ _ => true
  | .ccaTimeout _ _ => true
  | .timeStrobe _ _ => true
  | .fieldFrameReceived _ f _ => fieldOk f
  | .macAckSend _ _ => true
  | .reassemblyTimeout _ _ => true
  | .neighbourCommit _ _ _ => true
  | .neighbourLoad _ _ _ => true
  | .counterImageFlush _ _ => true
  | .txctrReserve _ _ => true
  | .txctrReset _ _ => true
  | .transmitMessage _ _ => true
  | .backoffExpiry _ _ => true
  | .ccaResult _ _ _ _ => true
  | .txDone _ _ => true
  | .ackWaitTimeout _ _ => true
  | .txStatusCell _ => true
  | .indirectExpiry _ _ => true
  | .xregAccess _ _ _ _ _ => true
  | .macReseed _ => true
  | .zeroCrossingEdge _ _ => true
  | .zeroCrossingLoss _ _ => true
  | .beaconSend _ _ => true
  | .plcStartupEnd _ => true
  | .slotTmrSend _ _ _ => true
  | .intervalMark _ => true
  | .tsuSecondBoundary _ => true
  | .ppsPulseEnd _ => true
  | .ptpMessageReceived _ _ _ _ _ => true
  | .ptpMessageSend _ _ _ _ => true
  | .ptpOffsetMeasurement _ _ _ _ => true
  | .ptpSourceLoss => true
  | .tsuSlewWrite _ _ _ => true
  | .slewDone _ => true
  | .tsuStep _ _ => true
  | .captureEdge _ _ _ => true
  | .rtcSecondCarry _ => true
  | .rtcHalt _ _ => true
  | .rtcResume _ _ => true
  | .rtcTimeWrite _ _ _ => true
  | .rtcDiscipline _ => true
  | .rtcCalRead _ _ => true
  | .rtcCalWrite _ _ _ _ => true
  | .oscStop _ => true
  | .oscResume _ => true
  | .switchToVbat _ _ => true
  | .switchToMain _ _ => true
  | .backupLoss _ => true
  | .keyGenerate _ _ => true
  | .keyDerive _ _ => true
  | .keyImport _ _ => true
  | .keyExport _ _ => true
  | .keyRewrap _ _ => true
  | .keyInvalidate _ _ => true
  | .keySetMask _ _ => true
  | .keySweep _ => true
  | .keyWipe _ => true
  | .keyCommandDone => true
  | .catalogueRestore => true
  | .lcsRootNew _ => true
  | .tamperSample _ => true
  | .tamperLatchClear _ _ => true
  | .cryptoSelfTest _ _ _ _ _ => true
  | .trngHealthFail _ => true
  | .drbgReseed _ => true
  | .trngRead _ => true
  | .lcsTransitionRequest _ _ _ => true
  | .lcsTransitionReset _ => true
  | .lcsNewChallenge _ _ => true
  | .lcsAuthExpiry _ => true
  | .otpProgram _ _ => true
  | .aeadGcmEncrypt _ _ => true
  | .aeadGcmDecrypt _ _ => true
  | .aeadCcmEncrypt _ _ => true
  | .aeadCcmDecrypt _ _ => true
  | .aeadCmac _ _ => true
  | .aeadCtr _ _ => true
  | .aeadSelftest _ _ => true
  | .hashSha256 _ => true
  | .hashSha384 _ => true
  | .hashSelftest _ _ => true
  | .jobDone _ => true
  | .pkeVerify256 _ => true
  | .pkeVerify384 _ => true
  | .pkeSign _ _ => true
  | .pkeKeygen _ _ => true
  | .pkePubkey _ _ => true
  | .pkeEcdh _ _ => true
  | .pkeVerifyLcs _ => true
  | .pkeSelftest _ _ => true
  | .pkeJobDone => true
  | .nandInit _ => true
  | .nandScan _ _ => true
  | .nandScanDone _ _ => true
  | .nandRequestPop _ => true
  | .nandFramePeriod => true
  | .nandSlot _ _ => true
  | .nandProgramComplete _ _ _ _ => true
  | .checkpointFetch _ => true
  | .nandReadComplete _ _ _ => true
  | .nandRelease _ => true
  | .nandEraseComplete _ _ => true
  | .relocationCopy _ => true
  | .journalProgram _ => true
  | .nandScrubRead _ _ _ => true
  | .nandFull => true
  | .nandTempSample _ => true
  | .lockstepMismatch => true
  | .lanyardScrub _ => true
  | .safetyGateCall => true
  | .safetyReturn => true
  | .mailboxRequest => true
  | .mbStatus => true
  | .mbRiggingLoad addr len => extentOk addr len
  | .mbStrandReturn => true
  | .mbStrandKeepOut => true
  | .mbRoster src heads => src.isSome || decide (heads.length = 1)
  | .mbKey _ _ _ _ _ _ _ _ _ => true
  | .mbLifeCycle _ _ _ _ => true
  | .mbRootNew => true
  | .mbOtpProgram _ _ => true
  | .updatePiece _ _ => true
  | .updateStatus _ => true
  | .updateActivate => true
  | .updateImageStore _ _ => true
  | .settingsSave _ => true
  | .settingsDefaults => true
  | .mbDomain => true
  | .mbHealth => true
  | .mbWdogSet => true
  | .noticePush => true
  | .lanyardSplicePop _ _ _ _ => true
  | .sensorSample _ _ => true
  | .lifetimeRecordUpdate _ => true
  | .hostWatchdogKick _ _ _ => true
  | .hostWatchdogExpiry _ => true
  | .lanyardWatchdogKick _ _ _ => true
  | .lanyWarn _ => true
  | .lanyardWatchdogReset _ => true
  | .lanyardInjectArm _ _ => true
  | .faultLatch _ => true
  | .pulseNotLatched _ _ => true
  | .fcStatusClear _ _ => true
  | .fcForce _ _ => true
  | .errPinPulseEnd _ => true
  | .errPinRelease _ _ _ => true
  | .evrSubmit _ _ _ _ => true
  | .evrCellPop _ => true
  | .evrFlushTimer _ => true
  | .evrFlush _ => true
  | .evrFlushDone => true
  | .evrFlushRequest _ => true
  | .evrRestore => true
  | .evrRead _ => true
  | .opsecTick _ => true
  | .leaseEnable _ _ => true
  | .leaseDisable _ _ => true
  | .helloSend _ => true
  | .hello _ _ _ => true
  | .pairLinkDown _ => true
  | .renewSend _ => true
  | .renew _ _ _ _ => true
  | .grant _ _ _ => true
  | .leaseExpiry _ => true
  | .takeoverTime _ _ => true
  | .takeoverComplete _ => true
  | .page _ p _ => pageOk p
  | .verified _ _ _ _ _ => true
  | .partnerFail => true
  | .pairRelease _ _ => true
  | .reserve _ _ _ => true
  | .settings _ _ piece _ _ => decide (piece.length ≤ 1024)
  | .health _ _ => true
  | .healthSend _ => true
  | .catchup _ p _ _ => pageOk p
  | .salvage _ p => pageOk p
  | .salvageDone => true
  | .standbyTestStep _ => true
  | .standbyTestEnd _ => true
  | .forceActive _ _ => true
  | .stayOut _ => true
  | .rejoin _ => true
  | .campaignStart _ _ _ _ _ _ _ _ _ _ => true
  | .imageBlockBroadcast _ _ _ _ _ _ => true
  | .imageVerifyPoll _ _ _ => true
  | .imageActivate _ _ _ => true
  | .qspiRead _ => true
  | .qspiProgram _ => true
  | .qspiErase _ => true
  | .qspiCommandDone _ => true
  | .domainTargetOn _ _ => true
  | .domainTargetOff _ _ => true
  | .domainTargetRet _ _ => true
  | .domainOnComplete _ => true
  | .domainOnFail _ => true
  | .domainRetry _ _ => true
  | .sleep _ _ => true
  | .wake _ => true
  | .wakePortMatch _ _ _ => true
  | .wakeStretchTimeout _ => true
  | .powerFail _ _ => true
  | .powerFailDone _ => true
  | .powerReturn _ => true
  | .powerOnReset => true
  | .resetPin => true
  | .rstChip _ => true
  | .chipReset _ _ => true
  | .boot bad _ _ => bad.all (fun b => kindOk b.1)
  | .startUp bad _ _ _ _ => bad.all (fun b => kindOk b.1)
  | .refMonitorWindow _ => true
  | .refLost => true
  | .dbgLineReset => true
  | .dbgNop _ _ => true
  | .dbgIdcode _ => true
  | .dbgStatus _ => true
  | .dbgRead _ _ _ _ _ _ => true
  | .dbgWrite _ _ _ _ _ _ _ => true
  | .dbgHalt _ _ _ _ => true
  | .dbgRun _ _ _ _ => true
  | .dbgStep _ _ _ _ _ => true
  | .dbgNewchal _ _ _ => true
  | .dbgChal _ _ => true
  | .dbgResp _ _ _ => true
  | .dbgAuth _ _ => true
  | .dbgAuthComplete _ => true
  | .dbgReset _ _ => true
  | .lanyardBreakpoint _ _ => true
  | .ringEnable _ _ => true
  | .ringDoorbellH2d _ _ entries _ => decide (entries.length ≤ 65536)
  | .ringDoorbellD2h _ _ _ => true
  | .ringWriteBack _ _ => true
  | .ringIrqTimer _ _ => true
  | .dmaError _ _ => true
  | .ringReset _ _ => true
  | .perstAssert => true
  | .perstDeassert => true
  | .pcieLinkChange _ _ _ _ => true
  | .msixMessage _ => true
  | .msixUnmask _ _ _ _ => true
  | .ethFrameReceived _ _ _ => true
  | .neighbourAdvertisement _ _ => true
  | .ethTransmit _ _ _ => true
  | .ethLinkChange _ _ _ _ => true
  | .ethNcFlush _ _ => true
  | .mdioAccess _ _ _ _ _ _ _ => true
  | .hdlcFrameReceived _ _ _ => true
  | .hdlcPoll _ _ => true
  | .hdlcResponseTimeout _ _ => true
  | .hdlcByteGapAbort _ _ => true
  | .uartTransmit _ _ _ => true
  | .stationCommit _ _ _ => true
  | .stationLoad _ _ _ => true
  | .sbusSlotRead _ _ _ => true
  | .pmxClaim _ _ _ => true
  | .pmxRelease _ _ => true
  | .gpioEdge _ _ => true
  | .timerExpiry _ _ => true
  | .ppsConfigWrite _ _ => true
  | .pllUnlock _ _ => true
  | .laneDown _ _ => true
  | .vbatMeasurement _ => true
  | .channelStuckEnd _ => true

end Sys2Proof
end

