-- ==== Sys2Proof/Safety.lean ====
section
/-! DEFINITION. What counts as a safe run, and the terms the statements use. -/

namespace Sys2Proof.Machine

/-- A step that neither faults nor is refused. -/
def State.goesOn (s : State) : Prop := ∃ t, step s = .next t

/-- The tables that commands read and write hold their canonical form: keys strictly rising, no entry equal to what an unlisted key reads as. -/
def State.canonical (s : State) : Bool :=
  canon regReset s.regs && canon bankReset s.bank && canon memDefault s.mem && canon (fun _ => 0) s.ecc

/-- A write of v by q at a window address is not refused (R52, R53); bad: what the block's chapter adds to cause STATE. -/
def State.takes (s : State) (q : Requester) (a : Nat) (v : Word32) (bad : Bool) : Prop := s.refusal q a true v false bad = none

/-- A state with one more operation in flight: it acts at the end of the issue cycle + latency − 1 (R76), from the slot of that rank
(ALU-A 0, ALU-B 1, MEM 2, XU 3); nothing else differs. -/
def State.inFlight (s : State) (x : Issue) (rank latency : Nat) (l : Late) : State :=
  s.setStr (issueNo x) { s.str (issueNo x) with
    flight := (s.str (issueNo x)).flight ++ [⟨(s.lay x.lay.val).cyc + latency - 1, rank, (s.lay x.lay.val).cyc, false, l⟩] }

/-- The general register a field names, as the strand of an issue holds it (R72, R84). -/
def State.val (s : State) (x : Issue) (r : BitVec 6) : Word64 := (s.str (issueNo x)).reg r.toNat

/-- Is the divider of the strand of an issue free (R91). -/
def State.dividerFree (s : State) (x : Issue) : Prop := ∀ c0, (s.str (issueNo x)).divAt = some c0 → c0 + 34 ≤ (s.lay x.lay.val).cyc

/-- A state whose strand has started a division (R90, R91). -/
def State.dividing (s : State) (x : Issue) (d : BitVec 6) (v : Word64) : State :=
  s.setStr (issueNo x) { s.str (issueNo x) with
    divAt := some (s.lay x.lay.val).cyc
    flight := (s.str (issueNo x)).flight ++ [⟨(s.lay x.lay.val).cyc + 33, 1, (s.lay x.lay.val).cyc, true, .regs [(d.toNat, v)]⟩] }

/-- A state whose strand issues nothing for two cycles and then the bundle at a target, or the next bundle (R79). -/
def State.branching (s : State) (x : Issue) (target : Option Nat) : State :=
  s.setStr (issueNo x) { s.str (issueNo x) with gap := 2, fetched := true, target := target }

/-- Every byte of every memory outside n bytes from an address reads in t as in s. -/
def State.memOutside (s t : State) (sp : Space) (a n : Nat) : Prop :=
  ∀ (sq : Space) (b : Nat), sq.base + b < sp.base + a ∨ sp.base + a + n ≤ sq.base + b → t.byte sq b = s.byte sq b

end Sys2Proof.Machine
end

