-- ==== Sys2Proof/Certificates/Slice0/Obligations.lean ====
section
/-! DEFINITION. The statements for the provers. -/

open Sys2Proof Sys2Proof.Machine

/-- The queue is first in, first out: a step runs the front command on the state with the queue's rest. -/
def Obligations.StepRunsTheFrontCommand : Prop :=
  ∀ (c : Instr) (rest : List Instr) (s : State), s.pending = c :: rest → step s = exec c { s with pending := rest }

/-- With no command waiting the block does what its clocks make it do (the model's choice: log entry 2); with one waiting it takes it: every command of
the table completes in every state, with a next state, never a fault or a refusal (log entry 7). -/
def Obligations.EmptyQueueTicks : Prop :=
  (∀ s : State, s.pending = [] → step s = .next s.tick) ∧ (∀ (i : Instr) (s : State), ∃ t, exec i s = .next t) ∧
  (∀ s : State, ∃ t, step s = .next t)

/-- The tables that commands read and write hold their canonical form. -/
def Obligations.ResetTablesAreCanonical : Prop := State.reset.canonical = true

/-- R16: after power-on reset every register word and every selected register reads its reset value, no byte of a memory differs from an
erased one, every strand, lay and splice is at its start, no command waits and the life cycle is MAKER. -/
def Obligations.ResetLeavesEverythingAtReset : Prop :=
  (∀ a, State.reset.rd a = regReset a) ∧ (∀ a i, State.reset.bk a i = bankReset (bankKey a i)) ∧
  (∀ sp a, State.reset.byte sp a = memDefault (sp.base + a)) ∧ (∀ n, State.reset.str n = Strand.clear) ∧
  (∀ n, State.reset.lay n = Lay.clear) ∧ (∀ n, State.reset.spl n = Splice.clear) ∧ State.reset.pending = [] ∧ State.reset.lcs = 0

/-- Every step keeps the canonical form of the register window, of the selected registers, of the memories and of their check bits. -/
def Obligations.EveryStepKeepsTablesCanonical : Prop :=
  ∀ s t : State, s.canonical = true → step s = .next t → t.canonical = true

/-- R82 to R94: a slot operation's word decodes to that operation, whatever its operands (a NOP: the word of zeros after its guard). -/
def Obligations.SlotWordsDecodeToTheirOperation : Prop :=
  ∀ (i : Instr) (u : Slot) (w : BitVec 32), encodeSlot i = some (u, w) → (∀ x u' v, i = .nop x u' v → v = 0) →
    ∃ lay strand, decodeSlot u lay strand w = i

/-- R83: every 32-bit word of every slot has one meaning, whose word is that word: decoding drops no bit. -/
def Obligations.SlotDecodingDropsNoBit : Prop :=
  ∀ (u : Slot) (lay : Fin 8) (strand : Fin 16) (w : BitVec 32), encodeSlot (decodeSlot u lay strand w) = some (u, w)

/-- R78, R79, R91: a slot operation whose guard is false changes nothing at all, but that a branch still leaves two empty cycles and a
division still occupies the divider. -/
def Obligations.FalseGuardsDoNothing : Prop :=
  ∀ (i : Instr) (u : Slot) (lay : Fin 8) (strand : Fin 16) (w : BitVec 32) (s : State), decodeSlot u lay strand w = i →
    s.exec? (slotIssue lay strand w) = false →
    let x := slotIssue lay strand w
    exec i s = .next s ∨
      (exec i s = .next (s.branching x none) ∧ u = .b ∧ 0x38 ≤ (w.extractLsb' 22 6).toNat ∧ (w.extractLsb' 22 6).toNat ≤ 0x3A) ∨
      (exec i s = .next (s.occupyDivider x) ∧ u = .b ∧ 0x30 ≤ (w.extractLsb' 22 6).toNat ∧ (w.extractLsb' 22 6).toNat ≤ 0x33)

/-- R76, R77: the one operation of a strand that is due with a cycle acts at its end, writing its registers and no other; one that is not due stays. -/
def Obligations.ResultsAreWrittenWhenDue : Prop :=
  ∀ (s : State) (n c r : Nat) (f : Flight) (v : Word64), (s.str n).flight = [f] → f.rank < 4 → f.late = .regs [(r, v)] →
    (f.due ≤ c → let t := s.retireStrand n c
      (t.str n).reg r = v ∧ (∀ k, k ≠ r → (t.str n).reg k = (s.str n).reg k) ∧ (t.str n).flight = [] ∧
      (∀ m, m ≠ n → t.str m = s.str m) ∧ t.regs = s.regs ∧ t.mem = s.mem) ∧
    (c < f.due → let t := s.retireStrand n c
      (∀ k, (t.str n).reg k = (s.str n).reg k) ∧ (t.str n).flight = [f] ∧ t.regs = s.regs ∧ t.mem = s.mem)

/-- R87: what the two-register operations of both ALUs write, one cycle after their issue, with a true guard; nothing else changes. -/
def Obligations.AluTwoRegisterResults : Prop :=
  ∀ (s : State) (x : Issue) (u : Bool) (d a b : BitVec 6) (p : BitVec 3), s.exec? x = true →
    let A := s.val x a
    let B := s.val x b
    let D : Word64 → Res := fun v => .next (s.inFlight x u.toNat 1 (.regs [(d.toNat, v)]))
    exec (.add x u d a b) s = D (BitVec.ofNat 64 (A.toNat + B.toNat)) ∧
    exec (.sub x u d a b) s = D (BitVec.ofInt 64 ((A.toNat : Int) - B.toNat)) ∧
    exec (.and x u d a b) s = D (A &&& B) ∧
    exec (.or x u d a b) s = D (A ||| B) ∧
    exec (.xor x u d a b) s = D (A ^^^ B) ∧
    exec (.andn x u d a b) s = D (A &&& ~~~B) ∧
    exec (.shl x u d a b) s = D (BitVec.ofNat 64 (A.toNat * 2 ^ (B.toNat % 64))) ∧
    exec (.shr x u d a b) s = D (BitVec.ofNat 64 (A.toNat / 2 ^ (B.toNat % 64))) ∧
    exec (.sar x u d a b) s = D (BitVec.ofInt 64 (A.toInt / 2 ^ (B.toNat % 64))) ∧
    exec (.ror x u d a b) s = D (BitVec.ofNat 64 (A.toNat / 2 ^ (B.toNat % 64)) ||| BitVec.ofNat 64 (A.toNat * 2 ^ (64 - B.toNat % 64))) ∧
    exec (.sel x u d a b p) s = D (if p = 0 ∨ (s.str (issueNo x)).p.getLsbD p.toNat then A else B) ∧
    exec (.minu x u d a b) s = D (if A.toNat ≤ B.toNat then A else B) ∧
    exec (.maxu x u d a b) s = D (if A.toNat ≤ B.toNat then B else A) ∧
    exec (.mins x u d a b) s = D (if A.toInt ≤ B.toInt then A else B) ∧
    exec (.maxs x u d a b) s = D (if A.toInt ≤ B.toInt then B else A)

/-- R84, R87, R88: what the operations with an immediate, the moves and the counting operations write. -/
def Obligations.AluImmediateResults : Prop :=
  ∀ (s : State) (x : Issue) (u : Bool) (d a n : BitVec 6) (imm : BitVec 10) (k : BitVec 16), s.exec? x = true →
    let A := s.val x a
    let D : Word64 → Res := fun v => .next (s.inFlight x u.toNat 1 (.regs [(d.toNat, v)]))
    exec (.addi x u d a imm) s = D (BitVec.ofInt 64 (A.toInt + imm.toInt)) ∧
    exec (.andi x u d a imm) s = D (A &&& imm.signExtend 64) ∧
    exec (.ori x u d a imm) s = D (A ||| imm.signExtend 64) ∧
    exec (.xori x u d a imm) s = D (A ^^^ imm.signExtend 64) ∧
    exec (.shli x u d a n) s = D (BitVec.ofNat 64 (A.toNat * 2 ^ n.toNat)) ∧
    exec (.shri x u d a n) s = D (BitVec.ofNat 64 (A.toNat / 2 ^ n.toNat)) ∧
    exec (.sari x u d a n) s = D (BitVec.ofInt 64 (A.toInt / 2 ^ n.toNat)) ∧
    exec (.rori x u d a n) s = D (BitVec.ofNat 64 (A.toNat / 2 ^ n.toNat) ||| BitVec.ofNat 64 (A.toNat * 2 ^ (64 - n.toNat))) ∧
    exec (.movz x u d k) s = D (BitVec.ofNat 64 k.toNat) ∧
    exec (.sid x d) s = .next (s.inFlight x 0 1 (.regs [(d.toNat, BitVec.ofNat 64 (x.lay.val * 16 + x.strand.val + 256 * s.variant x.lay.val))])) ∧
    (∀ h : Fin 4, ∃ v, exec (match h with | 0 => .movk0 x u d k | 1 => .movk1 x u d k | 2 => .movk2 x u d k | 3 => .movk3 x u d k) s = D v ∧
      ∀ i : Fin 64, v.getLsbD i.val =
        if 16 * h.val ≤ i.val ∧ i.val < 16 * h.val + 16 then k.getLsbD (i.val - 16 * h.val) else (s.val x d).getLsbD i.val) ∧
    (∀ m : Fin 3, ∃ v, exec (.bswap x u d a m) s = D v ∧
      ∀ i : Fin 64, v.getLsbD i.val =
        (decide (i.val < 64 / 2 ^ m.val) && A.getLsbD (8 * (8 / 2 ^ m.val - 1 - i.val / 8) + i.val % 8))) ∧
    (∃ v, exec (.clz x u d a) s = D v ∧ v.toNat ≤ 64 ∧ A.toNat < 2 ^ (64 - v.toNat) ∧ (v.toNat < 64 → 2 ^ (63 - v.toNat) ≤ A.toNat)) ∧
    (∃ v, exec (.popc x u d a) s = D v ∧ v.toNat = ((List.range 64).filter (fun i => A.getLsbD i)).length)

/-- R87: what the compares and the predicate logic write: one predicate, one cycle after the issue. -/
def Obligations.ComparesWriteOnePredicate : Prop :=
  ∀ (s : State) (x : Issue) (u : Bool) (pd p1 p2 : BitVec 3) (a b n : BitVec 6) (imm : BitVec 10), s.exec? x = true →
    let A := s.val x a
    let B := s.val x b
    let I := imm.signExtend 64
    let PD : Bool → Res := fun v => .next (s.inFlight x u.toNat 1 (.preds [(pd.toNat, v)]))
    let P : BitVec 3 → Bool := fun i => decide (i = 0) || (s.str (issueNo x)).p.getLsbD i.toNat
    exec (.cmpeq x u pd a b) s = PD (decide (A = B)) ∧
    exec (.cmpne x u pd a b) s = PD (decide (A ≠ B)) ∧
    exec (.cmpltu x u pd a b) s = PD (decide (A.toNat < B.toNat)) ∧
    exec (.cmplts x u pd a b) s = PD (decide (A.toInt < B.toInt)) ∧
    exec (.cmpleu x u pd a b) s = PD (decide (A.toNat ≤ B.toNat)) ∧
    exec (.cmples x u pd a b) s = PD (decide (A.toInt ≤ B.toInt)) ∧
    exec (.cmpeqi x u pd a imm) s = PD (decide (A = I)) ∧
    exec (.cmpnei x u pd a imm) s = PD (decide (A ≠ I)) ∧
    exec (.cmpltui x u pd a imm) s = PD (decide (A.toNat < I.toNat)) ∧
    exec (.cmpltsi x u pd a imm) s = PD (decide (A.toInt < imm.toInt)) ∧
    exec (.tbit x u pd a n) s = PD (decide (A.toNat / 2 ^ n.toNat % 2 = 1)) ∧
    exec (.pand x u pd p1 p2) s = PD (P p1 && P p2) ∧
    exec (.por x u pd p1 p2) s = PD (P p1 || P p2) ∧
    exec (.pxor x u pd p1 p2) s = PD (xor (P p1) (P p2))

/-- R79, R80, R83, R88 to R92: products, divisions in a free divider, branches, CHK, TEND and NOP. -/
def Obligations.ProductsDivisionsAndBranches : Prop :=
  ∀ (s : State) (x : Issue) (d a b : BitVec 6) (t : BitVec 13) (k : BitVec 16) (u : Slot) (w : BitVec 28), s.exec? x = true →
    let A := s.val x a
    let B := s.val x b
    let D : Word64 → Res := fun v => .next (s.inFlight x 0 3 (.regs [(d.toNat, v)]))
    let Q : Word64 → Res := fun v => .next (s.dividing x d v)
    exec (.mul x d a b) s = D (BitVec.ofNat 64 (A.toNat * B.toNat)) ∧
    exec (.mulhu x d a b) s = D (BitVec.ofNat 64 (A.toNat * B.toNat / 2 ^ 64)) ∧
    exec (.mulhs x d a b) s = D (BitVec.ofInt 64 (A.toInt * B.toInt / 2 ^ 64)) ∧
    (s.dividerFree x →
      exec (.divu x d a b) s = Q (if B = 0 then 0xFFFFFFFFFFFFFFFF else BitVec.ofNat 64 (A.toNat / B.toNat)) ∧
      exec (.divs x d a b) s = Q (if B = 0 then (if 0 ≤ A.toInt then BitVec.ofInt 64 (-1) else 1) else BitVec.ofInt 64 (A.toInt.tdiv B.toInt)) ∧
      exec (.remu x d a b) s = Q (if B = 0 then A else BitVec.ofNat 64 (A.toNat % B.toNat)) ∧
      exec (.rems x d a b) s = Q (if B = 0 then A else BitVec.ofInt 64 (A.toInt.tmod B.toInt))) ∧
    exec (.br x t) s = .next (s.branching x (some t.toNat)) ∧
    exec (.brl x d t) s =
      .next ((s.inFlight x 1 1 (.regs [(d.toNat, BitVec.ofNat 64 (((s.str (issueNo x)).pc + 1) % 8192))])).branching x (some t.toNat)) ∧
    exec (.brr x a) s = .next (s.branching x (some (A.toNat % 8192))) ∧
    exec (.chk x k) s = .next (if k.toNat = (s.lay x.lay.val).tcyc then s else s.strandCause (issueNo x) 14) ∧
    exec (.tend x) s = .next (s.setStr (issueNo x) { s.str (issueNo x) with tended := true }) ∧
    exec (.nop x u w) s = .next (if w = 0 then s else s.strandCause (issueNo x) 6)

/-- R93, R95, R97: aligned accesses of a strand to its own data memory: a load writes its result two cycles on, a store acts at the end
of its cycle; 16 bytes are a register pair. -/
def Obligations.DataMemoryAccesses : Prop :=
  ∀ (s : State) (x : Issue) (d a : BitVec 6) (imm : BitVec 10) (size ea : Nat), s.exec? x = true →
    (ea : Int) = ((s.val x a).toNat + imm.toInt * size) % 2 ^ 64 → ea < 0x20000 → ea % size = 0 →
    let M : Space := .dmem x.lay.val x.strand.val
    let L : List (Nat × Word64) → Res := fun ws => .next ((s.readDmem (issueNo x) ea size).inFlight x 2 2 (.regs ws))
    let S : Nat → Res := fun v =>
      .next ((s.setStr (issueNo x) { s.str (issueNo x) with dmUsed := true }).inFlight x 2 1 (.dmemStore ea size v))
    let D := (s.val x d).toNat
    let pair := d.toNat / 2 * 2
    (size = 1 → exec (.ld8u x d a imm) s = L [(d.toNat, BitVec.ofNat 64 (s.le M ea 1))]) ∧
    (size = 2 → exec (.ld16u x d a imm) s = L [(d.toNat, BitVec.ofNat 64 (s.le M ea 2))]) ∧
    (size = 4 → exec (.ld32u x d a imm) s = L [(d.toNat, BitVec.ofNat 64 (s.le M ea 4))]) ∧
    (size = 4 → exec (.ld32s x d a imm) s = L [(d.toNat, (BitVec.ofNat 32 (s.le M ea 4)).signExtend 64)]) ∧
    (size = 8 → exec (.ld64 x d a imm) s = L [(d.toNat, BitVec.ofNat 64 (s.le M ea 8))]) ∧
    (size = 16 → exec (.ld128 x d a imm) s = L [(pair, BitVec.ofNat 64 (s.le M ea 8)), (pair + 1, BitVec.ofNat 64 (s.le M (ea + 8) 8))]) ∧
    (size = 1 → exec (.st8 x d a imm) s = S (D % 2 ^ 8)) ∧
    (size = 2 → exec (.st16 x d a imm) s = S (D % 2 ^ 16)) ∧
    (size = 4 → exec (.st32 x d a imm) s = S (D % 2 ^ 32)) ∧
    (size = 8 → exec (.st64 x d a imm) s = S D) ∧
    (size = 16 → exec (.st128 x d a imm) s =
      S (((s.str (issueNo x)).reg pair).toNat + 2 ^ 64 * ((s.str (issueNo x)).reg (pair + 1)).toNat))

/-- R76, R93: when a store in flight acts, exactly its bytes change, little-endian, and no strand's or other memory's byte. -/
def Obligations.StoresWriteTheirBytesAlone : Prop :=
  ∀ (s : State) (n : Nat) (f : Flight) (a size v : Nat), f.late = .dmemStore a size v → n < 128 → a + size ≤ 2 ^ 48 →
    let M : Space := .dmem (n / 16) (n % 16)
    let t := s.complete n f
    (∀ i, i < size → (t.byte M (a + i)).toNat = v / 256 ^ i % 256) ∧ s.memOutside t M a size ∧
      t.regs = s.regs ∧ t.strands = s.strands

/-- R97, R98: an access outside the address map, or not granted by the wheel, is not performed: a load writes 0, and the cause is raised. -/
def Obligations.AccessesNotPerformed : Prop :=
  ∀ (s : State) (x : Issue) (d a : BitVec 6) (imm : BitVec 10) (ea : Nat), s.exec? x = true →
    (ea : Int) = ((s.val x a).toNat + imm.toInt * 8) % 2 ^ 64 → ea % 8 = 0 →
    (0x20000 ≤ ea → ¬(0x400000 ≤ ea ∧ ea < 0x800000) →
      exec (.ld64 x d a imm) s = .next ((s.strandCause (issueNo x) 4).inFlight x 2 2 (.regs [(d.toNat, 0)])) ∧
      exec (.st64 x d a imm) s = .next (s.strandCause (issueNo x) 4)) ∧
    (0x400000 ≤ ea ∧ ea < 0x800000 →
      s.wheelGrant x.lay.val (s.lay x.lay.val).tcyc ((ea - 0x400000) / 2 ^ 19) ≠ some x.strand.val →
      exec (.ld64 x d a imm) s = .next ((s.strandCause (issueNo x) 13).inFlight x 2 6 (.regs [(d.toNat, 0)])) ∧
      exec (.st64 x d a imm) s = .next (s.strandCause (issueNo x) 13)) ∧
    (0x400000 ≤ ea ∧ ea < 0x800000 →
      s.wheelGrant x.lay.val (s.lay x.lay.val).tcyc ((ea - 0x400000) / 2 ^ 19) = some x.strand.val →
      exec (.ld64 x d a imm) s = .next (s.inFlight x 2 4 (.lmemLoad (ea - 0x400000) 8 false d.toNat)) ∧
      exec (.st64 x d a imm) s = .next (s.inFlight x 2 4 (.lmemStore (ea - 0x400000) 8 (s.val x d).toNat)))

/-- R94, R100 to R104, R177: pops and pushes of a granted end that no strand of the lay has used in the cycle: the cell delivered four
cycles on, or a not-valid cell; the octet committed at the end of cycle c + 2 with VALID set; and the two flags. -/
def Obligations.PopsPushesAndFlags : Prop :=
  ∀ (s : State) (x : Issue) (oct pd : BitVec 3) (n : BitVec 13) (a : BitVec 6) (c : Cell512) (r : State), s.exec? x = true →
    (s.val x a).toNat % 8192 = n.toNat →
    let O : State → Cell512 → Res := fun t c =>
      .next (t.inFlight x 3 4 (.regs ((List.range 8).map (fun m => (8 * oct.toNat + m, c.extractLsb' (64 * m) 64)))))
    let me := s.str (issueNo x)
    (s.granted x.lay.val x.strand.val n.toNat false = true → (s.lay x.lay.val).used.contains (n.toNat, false) = false →
      ((s.useEnd x n.toNat false).pop n.toNat = (some (c, false), r) → r.bitAt (pa .strand (issueNo x) 0x01C) 17 = false →
        exec (.pope x oct n) s = O r c ∧ exec (.popo x oct n) s = O r c ∧
        exec (.poper x oct a) s = O r c ∧ exec (.popor x oct a) s = O r c) ∧
      ((s.useEnd x n.toNat false).pop n.toNat = (none, r) →
        exec (.popo x oct n) s = O r 0 ∧ exec (.popor x oct a) s = O r 0 ∧
        (r.producerQuiet n.toNat = false → exec (.pope x oct n) s = O (r.strandCause (issueNo x) 15) 0 ∧
          exec (.poper x oct a) s = O (r.strandCause (issueNo x) 15) 0))) ∧
    (s.granted x.lay.val x.strand.val n.toNat true = true → (s.lay x.lay.val).used.contains (n.toNat, true) = false →
      let t := Host.Outcome.next ((s.useEnd x n.toNat true).inFlight x 3 3
        (.commit n.toNat (BitVec.ofNat 512 ((me.octet oct.toNat).toNat ||| 2 ^ 63))))
      exec (.push x oct n) s = t ∧ exec (.pushr x oct a) s = t) ∧
    exec (.semp x pd n) s = .next (s.inFlight x 3 1 (.preds [(pd.toNat, !s.splEn n.toNat || decide (s.cfill n.toNat = 0))])) ∧
    (s.splKind n.toNat = 0 → exec (.sfull x pd n) s =
      .next (s.inFlight x 3 1 (.preds [(pd.toNat, !s.splEn n.toNat || decide (s.splDepth n.toNat ≤ s.pfill n.toNat))])))

/-- R84, R100, R104: a pop or push of an end not granted raises SPLICE_MAP, a second one of a cycle SPLICE_CLASH; neither touches the splice. -/
def Obligations.RefusedSpliceOperations : Prop :=
  ∀ (s : State) (x : Issue) (oct : BitVec 3) (n : BitVec 13), s.exec? x = true →
    let zero : Late := .regs ((List.range 8).map (fun m => (8 * oct.toNat + m, (0 : Word64))))
    (s.granted x.lay.val x.strand.val n.toNat false = false →
      exec (.pope x oct n) s = .next ((s.strandCause (issueNo x) 11).inFlight x 3 4 zero)) ∧
    (s.granted x.lay.val x.strand.val n.toNat false = true → (s.lay x.lay.val).used.contains (n.toNat, false) = true →
      exec (.pope x oct n) s = .next ((s.strandCause (issueNo x) 12).inFlight x 3 4 zero)) ∧
    (s.granted x.lay.val x.strand.val n.toNat true = false → exec (.push x oct n) s = .next (s.strandCause (issueNo x) 11)) ∧
    (s.granted x.lay.val x.strand.val n.toNat true = true → (s.lay x.lay.val).used.contains (n.toNat, true) = true →
      exec (.push x oct n) s = .next (s.strandCause (issueNo x) 12))

/-- R94, R107 to R116, R707: key loads and key registers, AES, GHASH, CRC and the accumulator. -/
def Obligations.KeyAndStreamUnitOperations : Prop :=
  ∀ (s : State) (x : Issue) (k : BitVec 2) (d a b : BitVec 6) (oct m : BitVec 3), s.exec? x = true →
    let me := s.str (issueNo x)
    let K := me.key k.toNat
    let A := s.val x a
    let B := s.val x b
    let asks : Nat → Word64 → Word64 → Cell512 → Res := fun op v w blob =>
      let t := s.setStr (issueNo x) (me.setKey k.toNat ⟨.pending, false, 0, ⟨[], 0⟩⟩)
      .next (t.setLay x.lay.val { s.lay x.lay.val with
        keyq := (s.lay x.lay.val).keyq ++ [⟨x.strand.val, k.toNat, op, v, w, blob, false⟩] })
    let P : BitVec 6 → Nat := fun r => (me.reg (r.toNat / 2 * 2)).toNat + 2 ^ 64 * (me.reg (r.toNat / 2 * 2 + 1)).toNat
    let W : Nat → Nat → List (Nat × Word64) → Res := fun lat v ws =>
      .next (s.inFlight x 3 lat (.regs (ws ++ [(d.toNat / 2 * 2, BitVec.ofNat 64 v), (d.toNat / 2 * 2 + 1, BitVec.ofNat 64 (v / 2 ^ 64))])))
    (K.st ≠ .pending → exec (.klds x k a) s = asks 0 A 0 0 ∧ exec (.kldd x k a b) s = asks 1 A B 0 ∧
      exec (.kldw x k oct) s = asks 2 0 0 (me.octet oct.toNat)) ∧
    (K.st = .pending → exec (.klds x k a) s = .next (s.strandCause (issueNo x) 8)) ∧
    exec (.kst x k d) s = .next (s.inFlight x 3 1 (.regs [(d.toNat,
      BitVec.ofNat 64 (keyStCode K.st + if K.len256 ∧ K.st = .ready then 256 else 0))])) ∧
    exec (.kclr x k) s = .next ((s.setStr (issueNo x) (me.setKey k.toNat KeyReg.clear)).setLay x.lay.val { s.lay x.lay.val with
      keyq := (s.lay x.lay.val).keyq.map (fun r => if r.strand = x.strand.val ∧ r.k = k.toNat then { r with cancelled := true } else r) }) ∧
    (K.st = .ready → exec (.aesb x k d a) s = W 16 (leNat (aes (toBe (if K.len256 then 32 else 16) K.key.toNat) (toLe 16 (P a)))) []) ∧
    (K.st = .empty → exec (.aesb x k d a) s = .next ((s.strandCause (issueNo x) 10).inFlight x 3 16
      (.regs [(d.toNat / 2 * 2, 0), (d.toNat / 2 * 2 + 1, 0)]))) ∧
    exec (.gmul x d a b) s = W 4 (leNat (toBe 16 (gfMul (blockNat (toLe 16 (P a))) (blockNat (toLe 16 (P b)))))) [] ∧
    exec (.crc16 x d a b m) s = .next (s.inFlight x 3 2 (.regs [(d.toNat,
      BitVec.ofNat 64 (crcOver 0x8408 (A.toNat % 2 ^ 16) (toLe (m.toNat + 1) B.toNat)))])) ∧
    exec (.crc32 x d a b m) s = .next (s.inFlight x 3 2 (.regs [(d.toNat,
      BitVec.ofNat 64 (crcOver 0xEDB88320 (A.toNat % 2 ^ 32) (toLe (m.toNat + 1) B.toNat)))])) ∧
    exec (.macu x a b) s = .next (s.inFlight x 3 4 (.accAdd (BitVec.ofNat 128 (A.toNat * B.toNat)))) ∧
    exec (.macs x a b) s = .next (s.inFlight x 3 4 (.accAdd (BitVec.ofInt 128 (A.toInt * B.toInt)))) ∧
    exec (.macz x) s = .next (s.inFlight x 3 1 .accClear) ∧
    exec (.macrl x d) s = .next (s.inFlight x 3 1 (.regs [(d.toNat, BitVec.ofNat 64 me.acc.toNat)])) ∧
    exec (.macrh x d) s = .next (s.inFlight x 3 1 (.regs [(d.toNat, BitVec.ofNat 64 (me.acc.toNat / 2 ^ 64))]))

/-- R90: a division's result is written 34 cycles after its issue whatever its operands, with the values of the corner cases; nothing is raised
for an operand. The divider is taken as R91 says (`State.occupyDivider`). -/
def Obligations.DivisionResultsAndCorners : Prop :=
  ∀ (s : State) (x : Issue) (d a b : BitVec 6), s.exec? x = true →
    let A := s.val x a
    let B := s.val x b
    let r := s.occupyDivider x
    let Q : Word64 → Res := fun v => .next (r.setStr (issueNo x) { r.str (issueNo x) with
      flight := (r.str (issueNo x)).flight ++ [⟨(r.lay x.lay.val).cyc + 33, 1, (r.lay x.lay.val).cyc, true, .regs [(d.toNat, v)]⟩] })
    (B = 0 →
      exec (.divu x d a b) s = Q 0xFFFFFFFFFFFFFFFF ∧ exec (.divs x d a b) s = Q (if 0 ≤ A.toInt then BitVec.ofInt 64 (-1) else 1) ∧
      exec (.remu x d a b) s = Q A ∧ exec (.rems x d a b) s = Q A) ∧
    (A.toInt = -(2 ^ 63) → B.toInt = -1 →
      exec (.divs x d a b) s = Q (BitVec.ofInt 64 (-(2 ^ 63))) ∧ exec (.rems x d a b) s = Q 0) ∧
    (B ≠ 0 →
      exec (.divu x d a b) s = Q (BitVec.ofNat 64 (A.toNat / B.toNat)) ∧ exec (.divs x d a b) s = Q (BitVec.ofInt 64 (A.toInt.tdiv B.toInt)) ∧
      exec (.remu x d a b) s = Q (BitVec.ofNat 64 (A.toNat % B.toNat)) ∧ exec (.rems x d a b) s = Q (BitVec.ofInt 64 (A.toInt.tmod B.toInt)))

/-- R112: an AESB on a key register that is not READY writes 0 to pair D; PENDING also raises KEY_LATE (cause 9), EMPTY raises KEY_USE (cause
10), and ORPHANED, DENIED, NO_SLOT and BAD_BLOB raise nothing. -/
def Obligations.AesOnAKeyThatIsNotReady : Prop :=
  ∀ (s : State) (x : Issue) (k : BitVec 2) (d a : BitVec 6), s.exec? x = true →
    let st := ((s.str (issueNo x)).key k.toNat).st
    let zeros : State → Res := fun t => .next (t.inFlight x 3 16 (.regs [(d.toNat / 2 * 2, 0), (d.toNat / 2 * 2 + 1, 0)]))
    (st = .pending → exec (.aesb x k d a) s = zeros (s.strandCause (issueNo x) 9)) ∧
    (st = .empty → exec (.aesb x k d a) s = zeros (s.strandCause (issueNo x) 10)) ∧
    (st = .orphaned ∨ st = .denied ∨ st = .noSlot ∨ st = .badBlob → exec (.aesb x k d a) s = zeros s)

/-- R164, R165, R173, R174, R179: the writes of LAY_CTRL and LAY_RETURN that are not refused take the lay to the state of their rule. -/
def Obligations.LayControlCommands : Prop :=
  ∀ (s : State) (q : Requester) (lay : Fin 8) (k : Fin 16),
    let n := lay.val
    let C := pa .lay n rLAY_CTRL
    let S := pa .lay n rLAY_STAT
    (s.laySt n = 1 → s.takes q C 1 false → exec (.layArm q lay) s = .next ((s.putF S 2 0 2).putBit C 0 true)) ∧
    (s.laySt n = 2 → s.takes q C 0 false → exec (.layDisarm q lay) s = .next ((s.putF S 2 0 1).putBit C 0 false)) ∧
    (s.takes q C 8 false → exec (.layGo q lay false) s = .next s.strobe) ∧
    (s.laySt n = 1 → s.takes q C 9 false → exec (.layGo q lay true) s = .next ((s.putF S 2 0 2).putBit C 0 true).strobe) ∧
    (3 ≤ s.laySt n → s.takes q C 2 false → exec (.layStop q lay) s = .next (s.putBit S 4 true)) ∧
    (s.laySt n = 4 → s.takes q C 4 false → exec (.layResume q lay) s = .next (s.setLay n { s.lay n with resume := true })) ∧
    (s.laySt n = 3 ∨ s.laySt n = 4 → (s.outSet n).testBit k.val = true → s.takes q (pa .lay n rLAY_RETURN) (BitVec.ofNat 32 (2 ^ 31 + k.val)) false →
      (q ≠ .normal → exec (.layReturn q lay k) s =
        .next ((s.setLay n { s.lay n with ret := (s.lay n).ret.filter (· ≠ k.val) ++ [k.val] }).putBit S 3 true))) ∧
    (s.mayReturn n k.val false = true → s.returnRefused n k.val = false → exec (.layReturn .normal lay k) s = .next (s.doReturn n k.val)) ∧
    (s.mayReturn n k.val false = false → exec (.layReturn .normal lay k) s = .next s)

/-- R165, R166, R168, R174: a turn boundary of a RUN or HELD lay: a stop requested is carried out, and where a replacement waits for it as the
last the new rigging is loaded and started; otherwise the out-set is brought up to date, the turn
cycle starts from 0 and no strand that was out keeps its taint. A lay that neither runs nor is held has none. Whatever the lay's state, the boundary
completes: with the lay's own part, and with the replacement where that leaves no lay to stop. -/
def Obligations.TurnBoundaries : Prop :=
  ∀ (s : State) (lay : Fin 8),
    let n := lay.val
    (s.rig.stopping = false → s.laySt n = 3 ∨ s.laySt n = 4 → s.bitAt (pa .lay n rLAY_STAT) 4 = true →
      exec (.turnBoundary lay) s = .next (s.stopLay n)) ∧
    (s.rig.stopping = true → s.laySt n = 3 ∨ s.laySt n = 4 → s.bitAt (pa .lay n rLAY_STAT) 4 = true → (s.stopLay n).activeLays = [] →
      exec (.turnBoundary lay) s = .next (s.stopLay n).replaceGo) ∧
    (s.rig.stopping = false → s.laySt n = 3 ∨ s.laySt n = 4 → s.bitAt (pa .lay n rLAY_STAT) 4 = false →
      ∃ t, exec (.turnBoundary lay) s = .next t ∧ (t.lay n).tcyc = 0 ∧ (t.lay n).resume = false ∧
        ∀ k, k < 16 → (s.newOutSet n).testBit k = true → (t.str (strandNo n k)).tainted = false) ∧
    (s.rig.stopping = false → s.laySt n < 3 ∨ s.laySt n = 5 → exec (.turnBoundary lay) s = .next s) ∧
    exec (.turnBoundary lay) s =
      .next (if s.rig.stopping = true ∧ (s.turnBoundary n).activeLays = [] then (s.turnBoundary n).replaceGo else s.turnBoundary n) ∧
    (s.laySt n = 3 ∨ s.laySt n = 4 → s.bitAt (pa .lay n rLAY_STAT) 4 = true → s.turnBoundary n = s.stopLay n) ∧
    (s.laySt n < 3 ∨ s.laySt n = 5 → s.turnBoundary n = s)

/-- R122, R125, R146, R155, R182: the scrubbers' step, the debug data register, the clock monitor and the load port of a lay that is on. -/
def Obligations.LayServiceCommands : Prop :=
  ∀ (s : State) (q : Requester) (lay : Fin 8) (k : Fin 16) (bank : Fin 8) (v : BitVec 64) (count : Nat),
    let n := lay.val
    let me := n * 16 + k.val
    let D := pa .strand me rSTR_DBG_DATA
    let L := pa .lay n rLAY_LD_DATA
    let w := look (fun _ => 0) (s.lay n).lmScrub bank.val
    let r := s.readLmemWord n true (bank.val * 2 ^ 19 + 8 * w)
    let lo := s.fld (pa .lay n rLAY_FLOOR) 19 0 * 99 / 10000
    let hi := (s.fld (pa .lay n rLAY_CEIL) 19 0 * 101 + 9999) / 10000
    let F := s.wr (pa .lay n rLAY_FREQ) (BitVec.ofNat 32 (count * 100 % 2 ^ 20))
    (s.domOn (3 + n) = true → (s.str me).dmUsed = true → (s.str me).imUsed = true → exec (.strandScrub lay k) s = .next (s.freeScrub me)) ∧
    (s.domOn (3 + n) = true → (s.str me).dmUsed = true → (s.str me).imUsed = false →
      exec (.strandScrub lay k) s = .next (
        let u := s.freeScrub me
        let t := u.scrubStrandWord me false (u.str me).imScrub
        t.setStr me { t.str me with imScrub := ((u.str me).imScrub + 1) % 16384 })) ∧
    (s.strandSt n k.val = 5 → s.takes q D (v.extractLsb' 0 32) false →
      exec (.debugDataWrite q lay k v) s =
        .next ((s.dropShadow q D).setStr me (setDbgData (s.str me) (s.fld (pa .strand me rSTR_DBG_SEL) 7 0) v))) ∧
    (s.laySt n = 3 ∨ s.laySt n = 4 → s.wheelGrant n (s.lay n).tcyc bank.val = none → exec (.layMemScrub lay bank) s = .next (
      let t := if r.1 = 1 then r.2.setEcc (.lmem n) (bank.val * 2 ^ 19 + 8 * w) 0 else r.2
      t.setLay n { t.lay n with lmScrub := Machine.store (fun _ => 0) (t.lay n).lmScrub bank.val ((w + 1) % 65536) })) ∧
    (s.domOn (3 + n) = true → lo ≤ count → count ≤ hi → s.bitAt (pa .lay n rLAY_STAT) 5 = true →
      exec (.clockMonitorWindow lay count) s =
        .next (F.setLay n { s.lay n with goodWin := min 10 ((s.lay n).goodWin + 1) })) ∧
    (s.noAccess q = false → s.domOn (3 + n) = true → s.srstBusy L = false → exec (.loadPortRead q lay) s =
      .next (({ (s.ldRead n).2.setLatch q L ((s.ldRead n).1.extractLsb' 32 32) with rdata := (s.ldRead n).1 } : State).ldNext n)) ∧
    (s.ldMay n = true → s.takes q L (v.extractLsb' 0 32) false →
      exec (.loadPortWrite q lay v) s = .next (((s.dropShadow q L).ldWrite n v).ldNext n))

/-- R107 to R109, R137 to R144, R468, R478: the key port's answer to its oldest load, and the slots of the DDR and PKE frames. -/
def Obligations.SharedEngineCommands : Prop :=
  ∀ (s : State) (lay : Fin 8) (slot : BitVec 12) (p : Fin 20) (r : KeyReq) (rest : List KeyReq) (e : Nat × Nat × List Cell512) (req comp : Nat),
    (((s.lay lay.val).keyq = r :: rest → r.cancelled = false →
      (((s.serveLoad lay.val r).2.str (strandNo lay.val r.strand)).key r.k).st = .pending →
      ∃ t, exec (.keyLoadDone lay) s = .next t ∧ ((t.str (strandNo lay.val r.strand)).key r.k) = (s.serveLoad lay.val r).1)) ∧
    (s.domOn 14 = true → s.bitAt (pa .ddr 0 0x00C) 0 = true → s.rig.frames = true → s.rig.ddrAt = slot.toNat →
      let o := s.rig.ddr.getD slot.toNat 0
      let u : State := { s with rig := { s.rig with ddrAt := (slot.toNat + 1) % 4096, slotUse := o / 4096 } }
      (o / 4096 = 3 → exec (.ddrSlot slot) s = .next u.ddrScrubSlot) ∧
      (o / 4096 = 1 → s.port (nbits o 11 9) 0 (nbits o 8 6) = some (req, comp) → exec (.ddrSlot slot) s = .next (u.ddrRequest req comp)) ∧
      (o / 4096 ≠ 1 → o / 4096 ≠ 3 → exec (.ddrSlot slot) s = .next u)) ∧
    (s.outbox.find? (fun x => x.1 = 8) = some e →
      exec .ddrBurstComplete s = .next (({ s with outbox := s.outbox.erase e } : State).offerAll e.2.1 e.2.2)) ∧
    (s.domOn 16 = true → s.rig.frames = true → s.rig.pkeAt = p.val →
      let o := fun i => s.pkeOwner (p.val + i)
      let u : State := { s with rig := { s.rig with pkeAt := (p.val + 1) % 20, pkeRun := if o 0 = 8 then s.rig.pkeRun + 1 else 0 } }
      (0 < s.rig.pkeBusy → exec (.pkeSlot p) s = .next { u with rig := { u.rig with pkeBusy := s.rig.pkeBusy - 1 } }) ∧
      (s.rig.pkeBusy = 0 → o 0 < 8 → exec (.pkeSlot p) s = .next (u.pkeTake (o 0) (o 1 = o 0 && o 2 = o 0))) ∧
      (s.rig.pkeBusy = 0 → 8 ≤ o 0 → exec (.pkeSlot p) s = .next u) ∧
      (s.rig.pkeBusy = 0 → o 0 = lay.val → exec (.pkeVerifyRequest lay) s = .next (u.pkeTake lay.val (o 1 = o 0 && o 2 = o 0)))) ∧
    (s.outbox.find? (fun x => x.1 = 12) = some e → exec .pkeVerifyComplete s =
      .next ((({ s with outbox := s.outbox.erase e } : State).offerAll e.2.1 e.2.2).bumpMod (pa .pke 0 rPKE_DONE_CNT) 1))

/-- R191, R192, R196, R199, R201, R202, R204, R207, R210: the commands of the splices. -/
def Obligations.SpliceCommands : Prop :=
  ∀ (s : State) (q : Requester) (m : BitVec 13) (v : BitVec 32) (producer : Bool) (busy : Option (Fin 16)) (h : Nat × Cell512),
    let n := m.toNat
    let D0 := 0x400000 + n * 16
    let x := s.spl n
    let p := if producer then x.w else x.r
    let w := s.poolScrub
    (s.takes q D0 v (s.cfgBad n v) → exec (.spliceConfigWrite q m v) s =
      .next ((s.wr D0 (cfgAfter (s.rd D0) v)).setSpl n Splice.clear)) ∧
    (s.takes q (D0 + 4) v (s.endsBad n v) → exec (.spliceEndsWrite q m v) s = .next (s.wr (D0 + 4) (endsAfter (s.rd (D0 + 4)) v))) ∧
    (s.splKind n ≠ 0 → exec (.crossDomainVisibility m true) s = .next (s.setSpl n { x with rSeen := x.r.t.toNat })) ∧
    (s.splKind n ≠ 0 → exec (.crossDomainVisibility m false) s = .next (s.setSpl n { x with wSeen := x.w.t.toNat })) ∧
    (s.splKind n = 0 → exec (.crossDomainVisibility m producer) s = .next s) ∧
    (s.held.find? (fun e => e.1 = n) = some h → s.splFull n = false → 0 < x.window →
      exec (.blockCommit m) s = .next (({ s with held := s.held.erase h } : State).bump (pa .splice 0 rSPL_RST_DROP) 1)) ∧
    (s.held.find? (fun e => e.1 = n) = some h → s.splFull n = false → x.window = 0 →
      exec (.blockCommit m) s = .next (({ s with held := s.held.erase h } : State).commitAt n h.2)) ∧
    (s.splEn n = true → 0 < x.window → exec (.pointerCheck m producer) s = .next (s.setSpl n { x with window := x.window - 1 })) ∧
    (s.splEn n = true → x.window = 0 → p.c = ~~~p.t → exec (.pointerCheck m producer) s = .next s) ∧
    (s.splEn n = true → x.window = 0 → p.c ≠ ~~~p.t → p.restore = none → exec (.pointerCheck m producer) s = .next (s.ptrReset n)) ∧
    (s.domOn 1 = true → (∀ b, busy = some b → b.val ≠ w / 65536) → s.eccOf .pool (8 * w) = 0 →
      exec (.poolScrub busy) s = .next { s with poolScrub := (w + 1) % 1048576 }) ∧
    (s.splIdle n = true → s.takes q (pa .splice 0 rSPL_FLUSH) (BitVec.ofNat 32 (2 ^ 31 + n)) false →
      exec (.spliceFlush q m) s = .next (s.setSpl n Splice.clear)) ∧
    (s.noAccess q = false → s.domOn 1 = false → exec (.poolPeek q) s = .next (s.read64 q (pa .splice 0 rSPL_PEEK_DATA))) ∧
    (s.noAccess q = true → exec (.poolPeek q) s = .next { s with rdata := 0 }) ∧
    (s.noAccess q = false → s.domOn 1 = true → exec (.poolPeek q) s = .next (
      let k := s.rd (pa .splice 0 rSPL_PEEK_ADDR)
      let t := s.read64 q (pa .splice 0 rSPL_PEEK_DATA)
      t.poolFound (bits k 19 3) (bits k 2 0) (t.eccOf .pool (bits k 19 3 * 64 + bits k 2 0 * 8)) false))

/-- R161 to R167, R533: a load order whose image passes every check is loaded and started where no lay runs, and waits for DRAINED where one does;
a failed check leaves everything but the report; the replacement tells the lays to stop at DRAINED, goes on where none is left to stop, and is given up at its time-out.
An order from DDR waits for a slot of the host in the DDR frame (R706); an order, DRAINED and the time-out complete in every state. -/
def Obligations.RiggingCommands : Prop :=
  ∀ (s : State) (fromDdr : Bool) (addr len : Nat) (f : Nat × Nat × Nat × Nat),
    let b := (s.imageAt fromDdr addr (min len (2 ^ 24))).1
    let r := (s.imageAt fromDdr addr (min len (2 ^ 24))).2
    let z : State := { r with rig := { r.rig with buffer := b } }
    (fromDdr = true → s.hostTurn = false → exec (.riggingLoad fromDdr addr len) s = .next s) ∧
    (fromDdr = false ∨ s.hostTurn = true →
      (rigCheck r b len = none → r.activeLays = [] → exec (.riggingLoad fromDdr addr len) s = .next z.loadRigging.armAndGo) ∧
      (rigCheck r b len = none → r.activeLays ≠ [] → exec (.riggingLoad fromDdr addr len) s =
        .next { z.closeAll with rig := { z.closeAll.rig with waiting := true, reopen := z.anyOpen } }) ∧
      (rigCheck r b len = some f → exec (.riggingLoad fromDdr addr len) s =
        .next (({ r with rig := { r.rig with failed := f } } : State).lanyEvent 0x20 [f.1, f.2.1, f.2.2.1, f.2.2.2])) ∧
      (exec (.riggingLoad fromDdr addr len) s = .next (match rigCheck r b len with
        | some f => ({ r with rig := { r.rig with failed := f } } : State).lanyEvent 0x20 [f.1, f.2.1, f.2.2.1, f.2.2.2]
        | none => if r.activeLays = [] then z.loadRigging.armAndGo
          else { z.closeAll with rig := { z.closeAll.rig with waiting := true, reopen := z.anyOpen } }))) ∧
    (s.rig.waiting = true → s.bitAt (pa .ingest 0 rING_STAT) 17 = true →
      (s.activeLays = [] → exec .riggingReplaceDrained s = .next s.stopAll.replaceGo) ∧
      (s.activeLays ≠ [] → exec .riggingReplaceDrained s = .next s.stopAll)) ∧
    (s.rig.waiting = true → s.bitAt (pa .ingest 0 rING_STAT) 17 = false → exec .riggingReplaceTimeout s =
      .next (({ s with rig := { s.rig with waiting := false, failed := (0x80, 0xFF, 0xFF, 0) } } : State).reopen.replyLater 0x10 3 0x80 [])) ∧
    (s.rig.waiting = false ∨ s.bitAt (pa .ingest 0 rING_STAT) 17 = false → exec .riggingReplaceDrained s = .next s) ∧
    (s.rig.waiting = false ∨ s.bitAt (pa .ingest 0 rING_STAT) 17 = true → exec .riggingReplaceTimeout s = .next s)

/-- R62 to R66: the page-header commands of a mapped page whose write is not refused: soft reset and its end, lock, release, sticky lock, claim
and its release, interrupt set, error-injection arm. A write of BLK_CTRL repeats EN, whose effect comes first. -/
def Obligations.PageHeaderCommands : Prop :=
  ∀ (s : State) (q : Requester) (page : BitVec 12) (p : Pg) (i : Nat) (tag : BitVec 16) (v : BitVec 32), pageAt page.toNat = some (p, i) →
    let h := fun o => pa p i o
    let c := s.rd (h 0x00C)
    let asIs := s.enEffect q p i (c &&& 1 ||| 4) false
    let asIsR := s.enEffect q p i (c &&& 5 ||| 2) false
    (p ≠ .trng → s.locked (h 0x00C) = false → s.takes q (h 0x00C) (c &&& 1 ||| 4) (s.enBad p i (bit c 0)) →
      exec (.lockRequest q page) s = .next (asIs.takeLock q (h 0x00C))) ∧
    (s.locked (h 0x00C) = true → s.takes q (h 0x00C) (c &&& 1) (s.enBad p i (bit c 0)) →
      exec (.lockRelease q page) s = .next ((s.putBit (hdr (h 0x00C) 0x00C) 2 false).wr (hdr (h 0x00C) 0x02C) 0)) ∧
    (s.takes q (h 0x02C) 0x40000000 false → exec (.lockStickySet q page) s = .next (s.putBit (h 0x02C) 30 true)) ∧
    (p ≠ .trng → s.locked (h 0x00C) = false → bit c 2 = false →
      s.takes q (h 0x00C) (c &&& 5 ||| 2) (s.enBad p i (bit c 0) || s.srstBad p i) →
      exec (.softReset q page) s = .next (asIsR.srstStart p i)) ∧
    (p ≠ .trng → s.domOn (pageDomain p i) = true → s.srstBusy (h 0) = true →
      exec (.softResetDone page true) s = .next (s.putBit (h 0x010) 1 false)) ∧
    ((pageInfo p).owner = .h → s.takes q (h 0x030) (BitVec.ofNat 32 (2 ^ 31 + tag.toNat)) false → exec (.pageClaim q page tag) s =
      .next (s.wr (hdr (h 0x030) 0x030) (BitVec.ofNat 32 (2 ^ 31 + reqCode q * 2 ^ 16 + tag.toNat)))) ∧
    ((pageInfo p).owner = .h → s.takes q (h 0x030) 0 false → exec (.pageClaimRelease q page) s = .next (s.wr (h 0x030) 0)) ∧
    (s.takes q (h 0x028) v false → exec (.irqSet q page v) s =
      .next ((s.wr (h 0x020) (s.rd (h 0x020) ||| (v &&& BitVec.ofNat 32 (pageInfo p).irq))).reraise p i)) ∧
    ((pageInfo p).inj = true → s.takes q (h 0x01C) v false → exec (.errorInjectArm q page v) s =
      .next (s.wr (h 0x01C) (v &&& BitVec.ofNat 32 ((pageInfo p).injMask ||| 2 ^ 31))))

/-- R12, R50, R52, R56, R57, R61, R63: accesses by address: header writes that take effect, plain registers written by their fields, the two halves of a
64-bit register, and reads with the reader's latch and clear on read. -/
def Obligations.WindowAccesses : Prop :=
  ∀ (s : State) (q : Requester) (a : BitVec 24) (p : Pg) (i : Nat) (v : BitVec 64) (t : Nat), pageAt (a.toNat / 4096) = some (p, i) →
    a.toNat % 4 = 0 → a.toNat < 0x400000 →
    let r := s.at t
    let o := a.toNat % 4096
    let w : Word32 := v.extractLsb' 0 32
    (o = 0x018 → (pageInfo p).errLine = true → r.takes q (pa p i o) w false → exec (.windowWrite q a false 1 v t) s =
      .next (r.wr (pa p i o) (w &&& BitVec.ofNat 32 (pageInfo p).err))) ∧
    (o = 0x024 → r.takes q (pa p i o) w false → exec (.windowWrite q a false 1 v t) s =
      .next ((r.wr (pa p i o) (w &&& BitVec.ofNat 32 (pageInfo p).irq)).reraise p i)) ∧
    (0x040 ≤ o → isWide a.toNat = false → p = .sens ∨ p = .strand ∨ p = .kdf ∨ p = .trng ∨ p = .wake ∨ p = .ddr ∨ p = .upd ∨ p = .dbg →
      r.takes q (pa p i o) w false → exec (.windowWrite q a false 1 v t) s = .next (r.plain (pa p i o) (w.setWidth 64))) ∧
    (∀ c, r.refusal q a.toNat false w false false = some c → exec (.windowWrite q a false 0 v t) s = .next (r.refuse q a.toNat c)) ∧
    (0x040 ≤ o → a.toNat % 8 = 0 → isWide a.toNat = true → s.takes q (pa p i o) w (s.wideBad p i o) →
      exec (.wideLowHalfWrite q a w) s = .next (s.setShadow q (pa p i o) w)) ∧
    (0x040 ≤ o → a.toNat % 8 = 0 → isWide (a.toNat + 4) = true → r.takes q (pa p i (o + 4)) w (r.wideBad p i o) →
      exec (.wideHighHalfWrite q a w t) s =
        .next ((r.dropShadow q (pa p i (o + 4))).commit q p i o (r.commitValue q (pa p i (o + 4)) w))) ∧
    (q = .debug → r.lcs = 4 → exec (.wideLowHalfRead q a t) s = .next { r with rdata := enabledBytes 0xFF 0 } ∧
      exec (.rcRead q a false 0x0F t) s = .next { r with rdata := enabledBytes 0x0F 0 }) ∧
    (q ≠ .debug ∨ r.lcs ≠ 4 → p ≠ .splice → p ≠ .trng → p ≠ .rtc → p ≠ .lay → p ≠ .sens → p ≠ .meterdb → a.toNat % 8 = 0 → isWide a.toNat = true →
      exec (.wideLowHalfRead q a t) s = .next (
        let r := if p = .ingest then r.ingRead a.toNat else r
        let x := r.viewWide a.toNat
        let u := ({ r.setLatch q a.toNat (x.extractLsb' 32 32) with rdata := (x.extractLsb' 0 32).setWidth 64 } : State).clearRc a.toNat
        { u with rdata := enabledBytes 0xFF u.rdata })) ∧
    (q ≠ .debug ∨ r.lcs ≠ 4 → p ≠ .splice → p ≠ .trng → p ≠ .rtc → p ≠ .lay → p ≠ .sens → p ≠ .meterdb → isWide a.toNat = false →
      exec (.rcRead q a false 0x0F t) s = .next (
        let r := if p = .ingest then r.ingRead a.toNat else r
        let u := ({ r with rdata := (r.view a.toNat).setWidth 64 } : State).clearRc a.toNat
        { u with rdata := enabledBytes 0x0F u.rdata }))

/-- R52, R53: a write that is refused changes nothing but the refusal's record: CHIP_ACC, CHIP_ACC_COUNT and the REFUSED interrupt. Shown for commands of
every kind of owner. -/
def Obligations.RefusedWritesChangeNothingElse : Prop :=
  ∀ (s : State) (q : Requester) (page : BitVec 12) (p : Pg) (i : Nat) (v : BitVec 32) (c : Nat) (lay : Fin 8) (n : BitVec 13),
    (pageAt page.toNat = some (p, i) → s.refusal q (pa p i 0x028) true v false false = some c →
      exec (.irqSet q page v) s = .next (s.refuse q (pa p i 0x028) c)) ∧
    (s.refusal q (pa .lay lay.val rLAY_CTRL) true 2 false (s.layCtrlBad lay.val 2) = some c →
      exec (.layStop q lay) s = .next (s.refuse q (pa .lay lay.val rLAY_CTRL) c)) ∧
    (s.refusal q (descA n.toNat 0) true v false (s.cfgBad n.toNat v) = some c →
      exec (.spliceConfigWrite q n v) s = .next (s.refuse q (descA n.toNat 0) c)) ∧
    (let t := s.refuse q (pa p i 0x028) c
     t.mem = s.mem ∧ t.bank = s.bank ∧ t.strands = s.strands ∧ t.lays = s.lays ∧ t.splices = s.splices ∧ t.shadow = s.shadow ∧
     (∀ b, b ≠ pa .chip 0 rCHIP_ACC → b ≠ pa .chip 0 rCHIP_ACC_COUNT → b ≠ pa .chip 0 0x020 → t.rd b = s.rd b) ∧
     t.rd (pa .chip 0 rCHIP_ACC_COUNT) = BitVec.ofNat 32 (min (2 ^ 32 - 1) ((s.rd (pa .chip 0 rCHIP_ACC_COUNT)).toNat + 1)) ∧
     bit (t.rd (pa .chip 0 0x020)) 0 = true)

/-- R545 to R554: the fault collector and the error pin, with domain SYS on. -/
def Obligations.FaultCollectorCommands : Prop :=
  ∀ (s : State) (q : Requester) (t : Nat) (page : BitVec 10) (k : Fin 31) (p : Pg) (i : Nat) (v : BitVec 64) (src : BitVec 6) (hold : Bool) (w : BitVec 20),
    let r := s.at t
    let F := fun o => pa .fc 0 o
    let pin := BitVec.ofNat 32 (hold.toNat * 2 ^ 31 + 2 ^ 30 + w.toNat)
    (r.domOn 1 = true → r.bitAt (F rFC_STAT) 0 = false → exec (.faultLatch t) s = .next r.sampleLines) ∧
    (r.domOn 1 = true → r.bitAt (F rFC_STAT) 0 = true → r.seqProgress.bitAt (F rFC_STAT) 0 = true → exec (.faultLatch t) s = .next r.seqProgress) ∧
    (pageAt page.toNat = some (p, i) → s.seqRun = true → s.domOn (pageDomain p i) = true → (pageInfo p).pulse.testBit k.val = true →
      exec (.pulseNotLatched page k) s = .next (s.cause p i k.val)) ∧
    (s.takes q (F rFC_STATUS) (v.extractLsb' 0 32) false → exec (.fcStatusClear q v) s =
      .next (s.wr64 (F rFC_STATUS) (s.rd64 (F rFC_STATUS) &&& ~~~v))) ∧
    (s.takes q (F rFC_FORCE) (BitVec.ofNat 32 (2 ^ 31 + src.toNat)) false → exec (.fcForce q src) s =
      .next { s with fc := { s.fc with forced := s.fc.forced ++ [src.toNat] } }) ∧
    (r.errPin.until_ ≠ 0 → r.errPin.until_ ≤ r.now → exec (.errPinPulseEnd t) s =
      .next { r with errPin := ⟨0, r.domOn 1 && r.bitAt (F rFC_PIN) 31⟩ }) ∧
    (s.errPin.until_ = 0 → s.takes q (F rFC_PIN) pin false → exec (.errPinRelease q hold w) s =
      .next { s.plain (F rFC_PIN) (pin.setWidth 64) with errPin := { (s.plain (F rFC_PIN) (pin.setWidth 64)).errPin with held := false } })

/-- R555 to R565: the event recorder: submissions, cells, flushes, the restore, reads and the operating seconds. -/
def Obligations.EventRecorderCommands : Prop :=
  ∀ (s : State) (q : Requester) (t : Nat) (args : Bool) (src code : BitVec 8) (n : BitVec 13) (bad : List (BitVec 32)) (c : Cell512) (ue : Bool) (u : State)
    (x : Nat × Nat × Nat),
    let r := s.at t
    let E := fun o => pa .evr 0 o
    let W := BitVec.ofNat 32 (2 ^ 31 + args.toNat * 2 ^ 16 + src.toNat * 2 ^ 8 + code.toNat)
    let e := s.evr
    (s.takes q (E rEVR_SUBMIT) W false → exec (.evrSubmit q args src code) s =
      .next (s.event code.toNat src.toNat (if args then (List.range 4).map (fun i => (s.rd (E (rEVR_ARG + 4 * i))).toNat) else []))) ∧
    (s.domOn 1 = true → s.fld (descA n.toNat 1) 12 8 = 0x12 → s.fld (descA n.toNat 1) 28 24 = 0 → s.pop n.toNat = (some (c, ue), u) →
      0xC0 ≤ bits (cellWord c 1) 7 0 → exec (.evrCellPop n) s =
        .next (u.event (bits (cellWord c 1) 7 0) (0x80 + u.fld (descA n.toNat 1) 18 16)
          (if bit (cellWord c 1) 8 then (List.range 4).map (fun i => bits (cellWord c (2 + i)) 31 0) else []))) ∧
    (r.evr.last + 10000000000 ≤ r.now → exec (.evrFlushTimer t) s = .next (r.flushStart true)) ∧
    (s.takes q (E rEVR_CTRL) 1 false → exec (.evrFlushRequest q) s = .next (s.flushStart false)) ∧
    (s.domOn 1 = true → s.bitAt (E rEVR_STAT) 0 = true → e.wrote = false →
      let l := bad.map (·.toNat)
      let w := (e.buf.take e.run).foldl (fun (y : State) c => y.writeRecord c (l.contains (recSeq c)))
        { s with evr := { e with wrote := true, bad := l } }
      let A := 0xF000 + 0x40 * w.evr.nextCopy
      (0 ∉ l → exec (.evrFlush bad) s =
        .next (w.framPut 2 A (stateBlock w.durableAfter (w.rd (E rEVR_OPSEC)).toNat (w.fld (E rEVR_PCYC) 15 0)))) ∧
      (0 ∈ l → exec (.evrFlush bad) s = .next (w.spoiled.2.framPut 2 A w.spoiled.1))) ∧
    (s.domOn 1 = true → s.bitAt (E rEVR_STAT) 0 = true → e.wrote = true → e.bad = [] → e.again = false → exec .evrFlushDone s =
      .next ((({ s.wr (E rEVR_DURABLE) (BitVec.ofNat 32 s.durableAfter) with
        evr := { e with buf := e.buf.drop e.run, run := 0, wrote := false, bad := [], nextCopy := 1 - e.nextCopy } } : State).putBit
          (E rEVR_STAT) 0 false).irq .evr 0 0)) ∧
    (s.domOn 1 = true → s.rd (E rEVR_HEAD) = 0 → s.stateCopy 0 = some x → s.stateCopy 1 = none →
      exec .evrRestore s = .next ((s.evrFrom x.1 x.2.1 x.2.2 1).event 0x00 0x41 [0])) ∧
    (s.domOn 1 = true → s.rd (E rEVR_HEAD) = 0 → s.stateCopy 0 = none → s.stateCopy 1 = none → s.scanRecords = none →
      exec .evrRestore s = .next ((s.evrFrom 0 0 0 0).event 0x00 0x41 [2])) ∧
    (e.readEnd ≤ s.now → s.takes q (E rEVR_RD_CMD) 0x80000000 false →
      let f := s.evrFind (s.rd (E rEVR_RD_SEQ)).toNat
      exec (.evrRead q) s = .next { f with evr := { f.evr with readEnd := f.now + 20000 } }) ∧
    (r.domOn 1 = true → r.timer (E rEVR_OPSEC) ≠ 0 → r.timer (E rEVR_OPSEC) ≤ r.now → exec (.opsecTick t) s =
      .next ((r.wr (E rEVR_OPSEC) (r.rd (E rEVR_OPSEC) + 1)).setTimer (E rEVR_OPSEC) (r.timer (E rEVR_OPSEC) + 1000000000)))

/-- R525, R527, R533, R536 to R541, R544: the Lanyard's own commands: scrubber, safety context, notices, watchdogs, sensors, lifetime record. -/
def Obligations.LanyardWatchdogAndSensorCommands : Prop :=
  ∀ (s : State) (q : Requester) (t : Nat) (v : BitVec 32) (busy : Option (Fin 8)) (k : Fin 12) (m : Fin 20) (x : BitVec 16) (mv : BitVec 12),
    let r := s.at t
    let W := fun o => pa .wdog 0 o
    let w := s.lany.scrub
    (s.domOn 2 = true → (∀ b, busy = some b → b.val ≠ w / 8192) → s.bitAt (W rLNY_INJ) 0 = false → s.bitAt (W rLNY_INJ) 1 = false →
      s.eccOf .lany (8 * w) = 0 → exec (.lanyardScrub busy) s = .next { s with lany := { s.lany with scrub := (w + 1) % 65536 } }) ∧
    (s.normalRuns = true → exec .safetyGateCall s = .next (s.putBit (W rLNY_STAT) 1 true)) ∧
    (s.lanyRuns = true → s.bitAt (W rLNY_STAT) 1 = true → s.lany.nmi = false → exec .safetyReturn s = .next (s.putBit (W rLNY_STAT) 1 false)) ∧
    (s.normalRuns = true → s.capacityCheck.lany.notices = [] → exec .noticePush s = .next s.capacityCheck) ∧
    (∀ (code n : Nat) (body : List Nat) (rest : List (Nat × Nat × List Nat)), s.normalRuns = true → s.capacityCheck.lany.notices = (code, (n, body)) :: rest →
      let u := s.capacityCheck
      let cs := wordCells (0x8000 + (Config.noticeKind code).toNat) n ((u.lany.dropped % 2 ^ 16 * 2 ^ 16) :: body)
      cs.length ≤ u.space 6146 → exec .noticePush s =
        .next (({ u with lany := { u.lany with notices := rest, dropped := 0 } } : State).offerAll 6146 cs)) ∧
    (r.bitAt (W rWDG_HOST_CFG) 31 = true → r.lany.kickAt + r.fld (W rWDG_HOST_WIN) 15 0 * 1000000 ≤ r.now →
      r.takes q (W rWDG_HOST_KICK) 0xC35A false → exec (.hostWatchdogKick q 0xC35A t) s =
        .next (({ r with lany := { r.lany with kickAt := r.now } } : State).setTimer (W rWDG_HOST_LEFT) (r.now + r.fld (W rWDG_HOST_CFG) 15 0 * 1000000))) ∧
    (r.domOn 2 = true → r.bitAt (W rWDG_HOST_CFG) 31 = true → r.timer (W rWDG_HOST_LEFT) ≠ 0 → r.timer (W rWDG_HOST_LEFT) ≤ r.now →
      exec (.hostWatchdogExpiry t) s = .next (r.hostExpiry (r.timer (W rWDG_HOST_LEFT)))) ∧
    (r.timer (W rWDG_LANY_LEFT) ≠ 0 → r.takes q (W rWDG_LANY_KICK) 0xC35A false → exec (.lanyardWatchdogKick q 0xC35A t) s =
      .next (({ r with lany := { r.lany with t1 := r.fld (W rWDG_LANY_CFG) 15 0, t2 := r.fld (W rWDG_LANY_CFG) 31 16 } } : State).lanyStage false)) ∧
    (r.stageDue = true → r.lany.stage2 = false → exec (.lanyWarn t) s = .next r.lanyWarn) ∧
    (r.stageDue = true → r.lany.stage2 = true → exec (.lanyardWatchdogReset t) s = .next (r.chipReset 2)) ∧
    (bit v 2 = false → s.bitAt (W rLNY_INJ) 2 = false → s.takes q (W rLNY_INJ) v false → (s.plain (W rLNY_INJ) (v.setWidth 64)).bitAt (W rLNY_INJ) 2 = false →
      exec (.lanyardInjectArm q v) s = .next (s.plain (W rLNY_INJ) (v.setWidth 64))) ∧
    (r.domOn 2 = true → exec (.sensorSample (.temp k x true) t) s = .next (r.tempSample k.val x.toInt)) ∧
    (r.domOn 2 = true → r.supplyOn m.val = true → r.monitorEn m.val = false → exec (.sensorSample (.volt m mv true) t) s =
      .next (r.wr (pa .sens 0 (rSENS_V + 4 * m.val)) (BitVec.ofNat 32 (2 ^ 31 + mv.toNat)))) ∧
    (r.domOn 2 = true → exec (.sensorSample (.temp k x false) t) s =
      .next ((r.putBit (pa .sens 0 (rSENS_T + 4 * k.val)) 31 false).cause .sens 0 4)) ∧
    (r.normalRuns = true → r.domOn 15 = false → r.timer lifetimeKey ≤ r.now → ∃ y, exec (.lifetimeRecordUpdate t) s = .next y ∧
      y.lany.hour = [] ∧ y.lany.peak = [] ∧ y.lifetime.bins = r.lany.hour.foldl (fun l e => addMinutes l e.1 e.2) r.lifetime.bins)

/-- R464, R473, R474, R488: a KEY command that is not refused runs its operation, BUSY is set with its write and RESULT with its end. -/
def Obligations.KeyStoreCommands : Prop :=
  ∀ (s : State) (q : Requester) (i : BitVec 12),
    let K := pa .key 0 rKEY_CMD
    let S := pa .key 0 rKEY_STAT
    let busy := s.bitAt S 31
    let n := i.toNat
    let u := fun (op : Nat) => (s.readSlot (s.keyFirst op n)).2
    let run := fun (r : Nat × State) => r.2.startJob S r.1
    let x := (u 7).slot n
    let m := ((u 7).keyArg rKEY_MASK).toNat % 2 ^ 15
    ((∀ op, (s.readSlot (s.keyFirst op n)).1 = false) →
      (s.takes q K (keyWord 1 i) busy → exec (.keyGenerate q i) s = .next (run ((u 1).keyGenerate n))) ∧
      ((∀ op, (u op).kat .kdf = false) →
        (s.takes q K (keyWord 2 i) busy → exec (.keyDerive q i) s = .next (run ((u 2).keyDerive n))) ∧
        (s.takes q K (keyWord 3 i) busy → exec (.keyImport q i) s = .next (run ((u 3).keyImport n))) ∧
        (s.takes q K (keyWord 4 i) busy → exec (.keyExport q i) s = .next (run ((u 4).keyExport n))) ∧
        (s.takes q K (keyWord 5 i) busy → exec (.keyRewrap q i) s = .next (run ((u 5).keyRewrap n)))) ∧
      (s.takes q K (keyWord 6 i) busy → exec (.keyInvalidate q i) s = .next (((u 6).eraseSlot n).startJob S 0)) ∧
      (s.takes q K (keyWord 7 i) busy → x.type ≠ 0 → (u 7).lcs ≠ 2 ∨ m &&& x.mask = m →
        exec (.keySetMask q i) s = .next (((u 7).placeKey n { x with mask := m }).startJob S 0))) ∧
    (s.takes q K (keyWord 8 0) busy → exec (.keySweep q) s = .next (((s.readSlot (s.keyFirst 8 0)).2.sweep 4096).startJob S 0)) ∧
    (s.takes q K (keyWord 9 0) busy → exec (.keyWipe q) s = .next ((s.readSlot 0).2.wipeKeys.startJob S 0)) ∧
    (busy = true → s.jobTurn S = true → exec .keyCommandDone s = .next ((s.endJob S).irq .key 0 0)) ∧
    (s.domOn 16 = true → s.catalogue.images ≠ [] → s.root.id ≠ 0 → s.catalogue.rootId = s.root.id →
      (∀ e ∈ s.catalogue.images, e.2.2 = s.root.id) → s.settings = [] →
      exec .catalogueRestore s = .next (s.catalogue.images.foldl (fun s e =>
        if e.2.1.gen < look (fun _ => 0) s.catalogue.floors e.1 ∨ s.targetSlot e.1 e.2.1.gen ≠ 0 then s else s.renewSlot e.1 e.2.1) s))

/-- R474 to R476, R479 to R486, R493: the commands of the life cycle, the root and the OTP that are not refused, the tamper inputs, the engines' tests and
the random number generator. -/
def Obligations.LifeCycleAndTamperCommands : Prop :=
  (∀ (s : State) (q : Requester) (target : BitVec 3) (good : BitVec 2) (t : Nat),
    let C := lcsA rLCS_CTRL
    let n := target.toNat
    (s.root.id = 0 → s.lcs ≠ 4 → s.tamperBars = false → s.drbgOk = true → s.takes q C (BitVec.ofNat 32 (2 ^ 29)) false →
      exec (.lcsRootNew q) s = .next s.newRoot) ∧
    (s.transitionBad n = 0 → s.takes q C (BitVec.ofNat 32 (2 ^ 31 + n)) false →
      exec (.lcsTransitionRequest q target good) s = .next (
        let u := if n = 3 ∨ n = 4 then s.dropAuth.zeroRoot.wipeKeys else s.dropAuth
        let b := u.burn n good
        let w := (if good = 3 then b.lcsResult 0 else (b.cause .lcs 0 2).lcsResult 4).irq .lcs 0 1
        if w.lcs = u.lcs then w
        else ((w.lanyEvent 0x31 [n]).putBit (lcsA rLCS_STAT) 31 true).setTimer C (w.now + 1000000))) ∧
    ((s.at t).timer C ≠ 0 → (s.at t).timer C ≤ (s.at t).now → exec (.lcsTransitionReset t) s = .next ((s.at t).chipReset 4)) ∧
    (s.takes q C (BitVec.ofNat 32 (2 ^ 30 + n)) false → exec (.lcsNewChallenge q target) s = .next (s.newChallenge n)) ∧
    ((s.at t).authOver = true → exec (.lcsAuthExpiry t) s = .next (s.at t).dropAuth) ∧
    (s.otpHas n = false → s.lcs ≤ 1 → s.takes q (lcsA rLCS_OTP_CMD) (BitVec.ofNat 32 (2 ^ 31 + n)) false →
      exec (.otpProgram q target) s = .next
        ((({ s with otp := { s.otp with hashes := s.otp.hashes ++ [(n, s.otpData)] } } : State).lcsResult 0).irq .lcs 0 1))) ∧
  (∀ (s : State) (q : Requester) (l : BitVec 4) (kdf aead hash pke trng b : Bool) (raw : List Bool) (t : Nat),
    let T := pa .tamper 0 rTAMPER_STAT
    let G := pa .trng 0 rTRNG_STAT
    let x := s.trng.bit b
    let z : State := { s with trng := x }
    let cut := s.fld (pa .trng 0 rTRNG_CUTOFF) 7 0
    let apt := s.fld (pa .trng 0 rTRNG_CUTOFF) 26 16
    let on := s.bitAt (pa .trng 0 0x00C) 0
    let c := (List.range 4).foldl (fun s k => if bit (l.setWidth 32) k && !s.bitAt T (8 + k) then s.putBit T k false else s) s
    let e := (((s.selfTest .kdf kdf).selfTest .aead aead).selfTest .hash hash).selfTest .pke pke
    let O := pa .trng 0 rTRNG_OUT
    exec (.tamperSample l) s =
      .next ((((s.tamperInput 0 (bit l 0)).tamperInput 1 (bit l 1)).tamperInput 2 (bit l 2)).tamperInput 3 (bit l 3)).recordDue ∧
    (s.takes q T (l.setWidth 32) false → c.fld T 3 0 ≠ 0 → exec (.tamperLatchClear q l) s = .next c) ∧
    (s.takes q T (l.setWidth 32) false → c.fld T 3 0 = 0 → exec (.tamperLatchClear q l) s =
      .next (((c.putBit T 16 false).putF T 21 20 0).wr64 (pa .tamper 0 rTAMPER_TIME) 0)) ∧
    (s.domOn 16 = true → e.bitAt (pa .trng 0 0x00C) 0 = false → exec (.cryptoSelfTest kdf aead hash pke trng) s = .next e) ∧
    (s.domOn 16 = true → e.bitAt (pa .trng 0 0x00C) 0 = true → e.bitAt G 1 = true → exec (.cryptoSelfTest kdf aead hash pke trng) s = .next e) ∧
    (s.domOn 16 = true → e.bitAt (pa .trng 0 0x00C) 0 = true → e.bitAt G 1 = false → trng = true → exec (.cryptoSelfTest kdf aead hash pke trng) s =
      .next (((({ e.selfTest .trng true with trng := Trng.fresh } : State).wr G 1).irq .trng 0 0).setTimer (pa .trng 0 rTRNG_RESEEDS)
        (e.now + 1000000000))) ∧
    (s.domOn 16 = true → on = true → s.bitAt G 1 = false →
      (cut ≤ x.run → exec (.trngHealthFail (b :: raw)) s = .next ((z.cause .trng 0 0).wr G 2)) ∧
      (x.run < cut → apt ≤ x.count → exec (.trngHealthFail (b :: raw)) s = .next ((z.cause .trng 0 1).wr G 2)) ∧
      (x.run < cut → x.count < apt → exec (.trngHealthFail [b]) s = .next (if x.near apt then z.bump (pa .trng 0 rTRNG_NEAR) 1 else z))) ∧
    ((s.at t).reseedDue = true → exec (.drbgReseed t) s = .next ((({ s.at t with trng := { (s.at t).trng with used := 0 } } : State).bumpMod
      (pa .trng 0 rTRNG_RESEEDS) 1).setTimer (pa .trng 0 rTRNG_RESEEDS) ((s.at t).now + 1000000000))) ∧
    (s.noAccess q = false → s.drbgOk = true → s.srstBusy O = false → exec (.trngRead q) s = .next
      { s.generated.draw.2.setLatch q O (s.generated.draw.1.extractLsb' 32 32) with
        rdata := (s.generated.draw.1.extractLsb' 0 32).setWidth 64 }) ∧
    (s.noAccess q = false → s.drbgOk = false → exec (.trngRead q) s = .next { s.setLatch q O 0 with rdata := 0 }))

/-- R478, R479, R485, R490 to R492: a job of the AEAD, HASH or PKE page that is not refused, on an engine that is enabled and reads its memory well, runs
its operation: BUSY is set with its write, RESULT with its end. -/
def Obligations.CryptoJobCommands : Prop :=
  (∀ (s : State) (q : Requester) (slot : BitVec 12) (ok : Bool) (u : State),
    let A := pa .aead 0 rJOB_CMD
    let H := pa .hash 0 rJOB_CMD
    let aR := fun (r : Nat × State) => r.2.startJob (pa .aead 0 rJOB_STAT) r.1
    let hR := fun (r : Nat × State) => r.2.startJob (pa .hash 0 rJOB_STAT) r.1
    let aOk := fun op sl => s.takes q A (jobWord op sl) (s.bitAt (pa .aead 0 rJOB_STAT) 31) ∧ s.bitAt (pa .aead 0 0x00C) 0 = true
    let hOk := fun op => s.takes q H (jobWord op 0) (s.bitAt (pa .hash 0 rJOB_STAT) 31) ∧ s.bitAt (pa .hash 0 0x00C) 0 = true
    let S := pa .hash 0 rJOB_STAT
    let len := (s.rd (pa .hash 0 rJOB_LEN)).toNat
    let z := u.defer S 0 []
    let src := (z.rd (pa .hash 0 rJOB_SRC)).toNat * 64
    let dst := fun (y : State) => (y.rd (pa .hash 0 rJOB_DST)).toNat * 64
    let g := z.ddrGet src len
    (aOk 1 slot → exec (.aeadGcmEncrypt q slot) s = .next (aR (s.aeadJob 1 slot.toNat))) ∧
    (aOk 2 slot → exec (.aeadGcmDecrypt q slot) s = .next (aR (s.aeadJob 2 slot.toNat))) ∧
    (aOk 3 slot → exec (.aeadCcmEncrypt q slot) s = .next (aR (s.aeadJob 3 slot.toNat))) ∧
    (aOk 4 slot → exec (.aeadCcmDecrypt q slot) s = .next (aR (s.aeadJob 4 slot.toNat))) ∧
    (aOk 5 slot → exec (.aeadCmac q slot) s = .next (aR (s.aeadJob 5 slot.toNat))) ∧
    (aOk 6 slot → exec (.aeadCtr q slot) s = .next (aR (s.aeadJob 6 slot.toNat))) ∧
    (aOk 7 0 → exec (.aeadSelftest q ok) s = .next ((s.selfTest .aead ok).startJob (pa .aead 0 rJOB_STAT) (if ok then 0 else 4))) ∧
    (s.kat .hash = false → len ≤ 2 ^ 24 → s.inject .hash 0 0 1 = (0, u) → g.2.1 = false →
      (hOk 1 → exec (.hashSha256 q) s = .next (hR (0, g.2.2.defer S (dst g.2.2) (sha256 g.1)))) ∧
      (hOk 2 → exec (.hashSha384 q) s = .next (hR (0, g.2.2.defer S (dst g.2.2) (sha384 g.1))))) ∧
    (hOk 7 → exec (.hashSelftest q ok) s = .next ((s.selfTest .hash ok).startJob (pa .hash 0 rJOB_STAT) (if ok then 0 else 4))) ∧
    (exec (.jobDone true) s = .next (s.endJob (pa .hash 0 rJOB_STAT)) ∧ exec (.jobDone false) s = .next (s.endJob (pa .aead 0 rJOB_STAT)))) ∧
  (∀ (s u v : State) (q : Requester) (slot : BitVec 12) (ok : Bool) (l : List Byte),
    let C := pa .pke 0 rPKE_CMD
    let S := pa .pke 0 rPKE_STAT
    let buf := (s.rd (pa .pke 0 rPKE_BUF)).toNat * 64
    let n := slot.toNat
    let run := fun (r : Nat × State) => r.2.startJob S r.1
    let may := fun op sl => s.takes q C (jobWord op sl) (s.bitAt S 31)
    let begun := fun (op sl : Nat) => ({ s with rig := { s.rig with pkeRun := 0, pkeNeed := s.pkeSlots op sl } } : State)
    let reads := fun (op : Nat) (sl : BitVec 12) => (begun op sl.toNat).inject .pke 0 0 1 = (0, u) ∧ (u.defer S 0 []).ddrGet buf 240 = (l, false, v)
    let w := (v.readSlot n).2
    (s.bitAt (pa .pke 0 0x00C) 0 = true → s.kat .pke = false →
      (may 1 0 → reads 1 0 → exec (.pkeVerify256 q) s = .next (v.startJob S (verifyStatus 1 l))) ∧
      (may 2 0 → reads 2 0 → exec (.pkeVerify384 q) s = .next (v.startJob S (verifyStatus 2 l))) ∧
      (may 3 slot → reads 3 slot → exec (.pkeSign q slot) s = .next (run (w.pkeSign buf n l))) ∧
      (may 4 slot → reads 4 slot → exec (.pkeKeygen q slot) s = .next (run (w.pkeKeygen buf n))) ∧
      (may 5 slot → reads 5 slot → w.useSlot n 8 1 true = none → exec (.pkePubkey q slot) s =
        .next ((w.bufPut buf 1 ((w.slot n).curve.pub (w.slot n).scalar)).startJob S 0)) ∧
      (may 6 slot → reads 6 slot → exec (.pkeEcdh q slot) s = .next (run (w.pkeEcdh n l))) ∧
      (may 7 0 → reads 7 0 → v.lcsVerify l = 0 → exec (.pkeVerifyLcs q) s = .next
        ((((v.putBit (lcsA rLCS_STAT) 8 true).setTimer (lcsA rLCS_AUTH_LEFT) (v.now + 10000000000)).irq .lcs 0 0).startJob S 0)) ∧
      (may 7 0 → reads 7 0 → v.lcsVerify l ≠ 0 → exec (.pkeVerifyLcs q) s = .next (v.startJob S (v.lcsVerify l)))) ∧
    (s.bitAt (pa .pke 0 0x00C) 0 = true → may 8 0 →
      exec (.pkeSelftest q ok) s = .next (((begun 8 0).selfTest .pke ok).startJob S (if ok then 0 else 5))) ∧
    (s.bitAt S 31 = true → s.pkeTurn = true → s.jobTurn S = true → exec .pkeJobDone s = .next ((s.endJob S).bumpMod (pa .pke 0 rPKE_DONE_CNT) 1)))

/-- R637 to R648, R641: requests of the debug port that are answered OK: the line is on and answers, the parity is right, and the level present is
the one needed. -/
def Obligations.DebugRequests : Prop :=
  ∀ (s : State) (t : Nat) (sp : BitVec 2) (w64 : Bool) (a : BitVec 32) (v : BitVec 64) (served : Bool) (word : BitVec 3) (rw : BitVec 6)
    (x : BitVec 32) (sought : BitVec 2) (e : Nat × Nat) (p : Bool),
    let P := dbgParity
    let r := s.at t
    let hears := fun (y : State) => y.domOn 2 = true ∧ y.dbg.deaf = false ∧ y.lcs ≠ 4
    let n := accBytes w64
    let d := a.toNat
    let ready := served = true ∨ (sp.toNat ≠ 0 ∧ ¬(sp.toNat = 3 ∧ r.laySt (d / 2 ^ 29) ≠ 5))
    (s.domOn 2 = true → exec .dbgLineReset s = .next (
      let y := s.setLevel 0
      { y with dbg := { y.dbg with deaf := false } })) ∧
    (hears s → exec (.dbgNop (P 0 0 false 0 0) 0) s = .next (s.ack 1)) ∧
    (hears s → exec (.dbgIdcode (P 1 0 false 0 0)) s = .next ((s.ack 1).answer 0x4128A15B)) ∧
    (hears s → exec (.dbgStatus (P 2 0 false 0 0)) s = .next
      (((s.ack 1).putF (dbA rDBG_STAT) 31 28 0).answer (((s.ack 1).view (dbA rDBG_STAT)).setWidth 64))) ∧
    (hears r → readLevel sp d ≤ r.dbgLevel → spaceBad sp w64 d = false → ready → exec (.dbgRead (P 3 sp.toNat w64 d 0) sp w64 a served t) s = .next (
      let y := if sp = 0 then (r.ack 1).windowRead .debug (d % 2 ^ 24) w64 0xFF else if sp = 1 then (r.ack 1).quietRead (d % 2 ^ 24) w64
        else if sp = 2 then (r.ack 1).dbgLany d n else (r.ack 1).dbgLay d n
      y.answer y.rdata)) ∧
    (hears r → s.writeLevel sp ≤ r.dbgLevel → spaceBad sp w64 d = false → served = true → exec (.dbgWrite (P 4 sp.toNat w64 d (v.toNat % 2 ^ (8 * n))) sp w64 a v served t) s =
      .next (if sp = 0 then (r.ack 1).dbgWindow (d % 2 ^ 24) w64 v
        else if sp = 2 then (if r.lany.halted then (r.ack 1).storeBytes .lany d n v.toNat else (r.ack 1).dbgFault 5)
        else (r.ack 1).dbgLayWrite d n v.toNat)) ∧
    (hears r → (∀ f, r.dbg.failAt = some f → f + 1000000000 ≤ r.now) → r.drbgOk = true → exec (.dbgNewchal (P 8 0 false sought.toNat 0) sought t) s = .next (
      let c := ((r.ack 1).setLevel 0).random 32
      { c.2 with dbg := { c.2.dbg with chal := c.1, sought := sought.toNat, fresh := true, resp := [], checking := false }
                 results := drop c.2.results (dbA rDBG_STAT) })) ∧
    (hears s → exec (.dbgChal (P 9 0 false word.toNat 0) word) s =
      .next ((s.ack 1).answer (BitVec.ofNat 64 (leAt s.dbg.chal (4 * word.toNat) 4)))) ∧
    (hears s → rw.toNat ≤ 48 → exec (.dbgResp (P 10 0 false rw.toNat x.toNat) rw x) s = .next
      { s.ack 1 with dbg := { (s.ack 1).dbg with resp := place rw.toNat x (drop s.dbg.resp rw.toNat) } }) ∧
    (hears r → r.results.find? (fun (e : Nat × Nat) => e.1 = dbA rDBG_STAT) = some e → e.2 = 1 → exec (.dbgAuth (P 11 0 false 0 0) t) s = .next
      { r.ack 1 with results := drop r.results (dbA rDBG_STAT) }) ∧
    (hears s → 3 ≤ s.dbgLevel → exec (.dbgReset (P 12 0 false 0x52A5 0) 0x52A5) s = .next (((s.ack 1).chipReset 6).ack 1)) ∧
    (hears s → p ≠ P 0 0 false 0 0 → exec (.dbgNop p 0) s = .next ((s.cause .dbg 0 0).dbgFault 1))

/-- R648 to R656: freezing, stepping and resuming lays, halting the Lanyard, and the end of an authentication. -/
def Obligations.DebugControl : Prop :=
  ∀ (s : State) (t : Nat) (mask : BitVec 8) (lany : Bool) (lay : Fin 8) (count : BitVec 16) (a : BitVec 19) (k j : Nat) (rest : List (Nat × Nat)),
    let r := s.at t
    let n := lay.val
    let P := dbgParity
    let hears := r.domOn 2 = true ∧ r.dbg.deaf = false ∧ r.lcs ≠ 4 ∧ 3 ≤ r.dbgLevel
    (hears → (∀ m ∈ lays mask.toNat, r.domOn (3 + m) = true ∧ (r.laySt m = 3 ∨ r.laySt m = 4)) → exec (.dbgHalt (P 5 0 false (mask.toNat + 256 * lany.toNat) 0) mask lany t) s = .next (
      let y := (lays mask.toNat).foldl (fun (s : State) n => s.haltLay n) (r.ack 1)
      if lany then y.haltLany else y)) ∧
    (hears → (∀ m ∈ lays mask.toNat, r.domOn (3 + m) = true ∧ r.laySt m = 5) → exec (.dbgRun (P 6 0 false (mask.toNat + 256 * lany.toNat) 0) mask lany t) s = .next (
      let y := (lays mask.toNat).foldl (fun (s : State) n => s.thawLay n 0) (r.ack 1)
      if lany then y.runLany else y)) ∧
    (hears → r.domOn (3 + n) = true → r.laySt n = 5 → count ≠ 0 → exec (.dbgStep (P 7 0 false (n + 65536 * count.toNat) 0) lay false count t) s =
      .next ((r.ack 1).thawLay n (count.toNat + 1))) ∧
    (hears → exec (.dbgStep (P 7 0 false (n + 8 + 65536 * count.toNat) 0) lay true count t) s = .next (r.ack 1).runLany.haltLany) ∧
    (s.domOn (3 + n) = true → (s.laySt n = 3 ∨ s.laySt n = 4) → (s.lay n).stepLeft = 1 → exec (.dbgStepEnd lay) s = .next (s.freezeLay n 3 0 false)) ∧
    (s.domOn (3 + n) = true → s.breakHits n = (k, j) :: rest → exec (.layBreakpointFreeze lay) s =
      .next (s.freezeLay n (1 + j) k (decide (rest ≠ [])))) ∧
    (r.lanyRuns = true → r.lanyBreaks a.toNat = true → exec (.lanyardBreakpoint a t) s = .next r.haltLany) ∧
    (r.domOn 2 = true → r.dbg.checking = true → r.dbg.fresh = true → r.lcs = 3 → r.dbg.sought = 3 → r.signatureGood = true →
      exec (.dbgAuthComplete t) s = .next ((({ r with
        dbg := { r.dbg with checking := false, fresh := false }
        results := place (dbA rDBG_STAT) 1 (drop r.results (dbA rDBG_STAT)) } : State).lanyEvent 0x34 [3, 1]).setLevel 3)) ∧
    (r.domOn 2 = true → r.dbg.checking = true → r.dbg.fresh = false → exec (.dbgAuthComplete t) s = .next (
      let y := ((({ r with
        dbg := { r.dbg with checking := false, fresh := false }
        results := place (dbA rDBG_STAT) 0 (drop r.results (dbA rDBG_STAT)) } : State).lanyEvent 0x34 [r.dbg.sought, 0]).bump (dbA rDBG_AUTH_FAIL) 1).cause .dbg 0 1
      { y with dbg := { y.dbg with failAt := some y.now } }))

/-- R225, R230 to R232, R245, R251, R252: the registers of INGEST and what its time brings. -/
def Obligations.IngestCommands : Prop :=
  ∀ (s : State) (q : Requester) (t : Nat) (i : BitVec 12) (seq : BitVec 32) (e : RingE),
    let r := s.at t
    let n := i.toNat
    let on := s.domOn 1 && s.bitAt (ingA 0x00C) 0
    let bad := fun (k : Nat) => r.ing.ringBad.contains k
    let sel := (s.putF (ingA rING_SRC_SEL) 18 16 0).putF (ingA rING_SRC_SEL) 11 0 n
    (r.bitAt (ingA 0x00C) 0 = false → r.takes q (ingA 0x00C) 1 false → exec (.ingestEnable q t) s = .next (
      let y := r.putBit (ingA 0x00C) 0 true
      (({ y with ing := { y.ing with opened := false } } : State).setTimer (ingA 0x00C) (y.now + 1000000)).reseed)) ∧
    (on = true → exec .creditRefill s = .next (s.refilled.foldl (fun (s : State) i =>
      let y := s.readSource i
      y.setSource i { y.source i with credit := min ((y.source i).credit + (y.source i).rate) ((y.source i).burst * 1000) }) s)) ∧
    (on = true → exec .ingestReseed s = .next s.reseed) ∧
    (s.takes q (ingA rING_CTRL) 2 false → exec (.openSeq q) s = .next s.openSequence) ∧
    (s.domOn 1 = true → s.bitAt (ingA rING_STAT) 16 = true → exec .classOpenStep s = .next (s.openStep s.ing.nibble)) ∧
    (s.takes q (ingA rING_CTRL) 1 false → exec (.closeAll q) s = .next
      (((s.putBit (ingA rING_CTRL) 0 true).putF (ingA rING_STAT) 6 1 0).putBit (ingA rING_STAT) 16 false).drainCheck) ∧
    (s.takes q (ingA rING_CTRL) 4 false → exec (.openAll q) s = .next
      (((s.putBit (ingA rING_CTRL) 0 false).putF (ingA rING_STAT) 6 1 0x3F).putBit (ingA rING_STAT) 16 false).drainCheck) ∧
    (bad (seq.toNat % 65536) = true → exec (.ackReport seq t) s = .next ({ r with ing := { r.ing with
      ring := drop r.ing.ring (seq.toNat % 65536), ringBad := r.ing.ringBad.filter (· ≠ seq.toNat % 65536) } } : State).settle) ∧
    (bad (seq.toNat % 65536) = false → look (fun _ => none) r.ing.ring (seq.toNat % 65536) = some e → e.seq = seq.toNat → r.now - e.time ≤ r.lateLimit ∨ e.counted = true →
      exec (.ackReport seq t) s = .next (
        let y := { r with ing := { r.ing with ring := drop r.ing.ring (seq.toNat % 65536) } }
        (y.wr (ingA rING_LAT_MAX) (BitVec.ofNat 32 (max (y.rd (ingA rING_LAT_MAX)).toNat (min (2 ^ 32 - 1) ((r.now - e.time) / 1000))))).settle)) ∧
    (r.ing.ring = [] → exec (.lateScan t) s = .next r) ∧
    (r.ing.ring = [(seq.toNat % 65536, some e)] → bad (seq.toNat % 65536) = false → e.counted = false → r.lateLimit < r.now - e.time → exec (.lateScan t) s = .next (
      let y := r.countLate
      { y with ing := { y.ing with ring := Machine.store (fun _ => none) y.ing.ring (seq.toNat % 65536) (some { e with counted := true }) } })) ∧
    (s.takes q (ingA rING_SRC_SEL) (BitVec.ofNat 32 (2 ^ 31 + n)) (s.commitBad n) → exec (.sourceCommit q i) s = .next ((sel.readSource n).commitSource n)) ∧
    (s.takes q (ingA rING_SRC_SEL) (BitVec.ofNat 32 (2 ^ 30 + n)) false → exec (.sourceLoad q i) s = .next ((sel.readSource n).loadSource n))

/-- R212 to R218, R228: a frame that the classifier takes for one reading and whose source admits its class is decided by the first step of R228
that fails; an admitted one takes one unit of credit and of its budgets and is dealt to the interface splice; a refused one is counted and answered. -/
def Obligations.FrameAdmission : Prop :=
  ∀ (s : State) (f : Frame) (t : Nat) (i : Item) (w : Why) (l n : Nat),
    let r := s.at t
    let src := r.sourceOf f
    let u := r.readSource src
    let x := u.source src
    let hold := u.heldBack f
    let d := (u.decideOne src f.port.val hold i (fun _ => 0)).2
    r.domOn 1 = true →
      (r.classify f = none → exec (.frameAdmission f t) s = .next (r.bump (ingA rING_DISCARD_CNT) 1)) ∧
      (r.classify f = some ([i], none) → x.ue = false → x.valid = false ∨ x.mask.testBit i.cls = false →
        exec (.frameAdmission f t) s = .next (u.bump (ingA rING_DISCARD_CNT) 1)) ∧
      (r.classify f = some ([i], none) → x.valid = true → x.mask.testBit i.cls = true → i.tooBig = false → i.no = 0 →
        (u.verdict src hold i (fun _ => 0) = .inr (l, n) → exec (.frameAdmission f t) s =
          .next (d.offerAll n (frameCells f src x.reply i (u.rd (ingA rING_SEQ)).toNat 1 1 none))) ∧
        (u.verdict src hold i (fun _ => 0) = .inl w → exec (.frameAdmission f t) s =
          .next (d.refusalReply f src [(i, .refused w)] none).2))

/-- R235 to R242, R246 to R250: validation of a reading, its durable acknowledgement, the cells transmit ends consume, and queries. -/
def Obligations.ReadingPathCommands : Prop :=
  ∀ (s u v : State) (t : Nat) (lay : Fin 8) (strand : Fin 16) (rd : Reading) (overlaps : Bool) (spot : BitVec 34) (bal : BitVec 13)
    (n owner : Nat) (c : Cell512) (ue : Bool) (cs : List Cell512) (p : Pend) (seq : BitVec 32) (lbn : BitVec 18) (page : BitVec 10) (i : BitVec 8)
    (m : BitVec 13) (ring reply : Fin 64) (qy : Query) (known : Bool),
    let r := s.at t
    let out := 6144 + reply.val
    let len := bits (cellWord c 3) 15 0
    let me := strandNo lay.val strand.val
    let asked := s.ringOwner ring.val reply.val = some owner ∧ storeLay owner = true ∧ s.pop (6144 + ring.val) = (some (c, ue), u)
    let go := fun (z : State) => z.serveQueries owner z.work.queries
    let all := qy.fill (v.records.filter qy.selects)
    (r.toLay 1 lay.val = some n → r.pop n = (some (c, ue), u) → cellFirst c = true → u.popMany n (max 1 ((len + 55) / 56)) = (cs, v) →
      exec (.readingValidate lay strand rd overlaps spot bal t) s = .next (v.validate lay.val me spot.toNat bal.toNat overlaps (descOf c)
        ((cs.flatMap (fun x => cellBytes x 56)).take len) (ue || cellTaint c || cs.any cellTaint || (v.str me).tainted) rd)) ∧
    (r.readings.find? (fun x => x.seq = seq.toNat && !x.acked) = some p → p.reply ≠ 0 → r.isDurable p lbn.toNat page.toNat i.toNat = true →
      r.fld (descA m.toNat 1) 12 8 = txEnd p.port → exec (.ackCommit lay seq lbn page i m t) s = .next (
        ({ r with readings := r.readings.map (fun x => if x = p then { p with acked := true } else x) } : State).offer m.toNat
          (ackCell p r.epoch false))) ∧
    (asked → 16 ≤ u.work.queries.length → exec (.query ring reply) s = .next (go (u.offer out (endCell (cellAux c) 0 3)))) ∧
    (asked → u.work.queries.length < 16 → queryOf c = none → exec (.query ring reply) s = .next (go (u.offer out (endCell (cellAux c) 0 4)))) ∧
    (asked → u.work.queries.length < 16 → queryOf c = some qy → u.queryMeter qy = (known, v) →
      (known = false → exec (.query ring reply) s = .next (go (v.offer out (endCell (cellAux c) 0 2)))) ∧
      (known = true → exec (.query ring reply) s = .next (go { v with work := { v.work with queries := v.work.queries ++
        [⟨out, cellAux c, all.take qy.most, 0, if qy.most < all.length then 1 else 0⟩] } })))

/-- R267 to R273, R292, R293: roster writes, the commands of METERDB that are not refused on an enabled page, their ends, the checkpoint pass and the
reload of the meter table. -/
def Obligations.MeterTableCommands : Prop :=
  ∀ (s : State) (q : Requester) (i : BitVec 20) (mask : BitVec 3) (img : List (BitVec 8)) (heads : List (BitVec 20 × BitVec 3)) (n : BitVec 21)
    (tries : BitVec 24) (req comp : BitVec 13) (p g : Pass) (u : State),
    let E := mdbA 0x00C
    let W := BitVec.ofNat 32 (2 ^ 31 + mask.toNat * 2 ^ 24 + i.toNat)
    let R := s.plain (mdbA rMDB_RD_CMD) (W.setWidth 64)
    let X := s.plain (mdbA rMDB_WR_CMD) (W.setWidth 64)
    let B := mdbA rMDB_BULK_CMD
    let k := s.fld (mdbA rMDB_BULK_CNT) 20 0
    let b := s.bufCheck
    let st : State := { s with work := { s.work with passAt := some s.now } }
    let wi := b.fld (mdbA rMDB_WR_CMD) 19 0
    let one := b.rosterImage wi (b.fld (mdbA rMDB_WR_CMD) 26 24) (b.meterValid wi) b.wrImage
    (s.rosterTurn = true → s.imageOk i.toNat img = true → s.bitAt E 0 = true → exec (.rosterWrite [(i, mask, img)]) s = .next (
      let w := s.rosterImage i.toNat mask.toNat (s.meterValid i.toNat) img
      { w.2 with rdata := BitVec.ofNat 64 w.1 })) ∧
    (s.rosterTurn = true → s.imageOk i.toNat img = false → exec (.rosterWrite [(i, mask, img)]) s = .next { s with rdata := 0 }) ∧
    (s.rosterTurn = false → exec (.rosterWrite [(i, mask, img)]) s = .next s) ∧
    (s.takes q (mdbA rMDB_RD_CMD) W (s.mdbBusy 0) → R.bitAt E 0 = true → exec (.mdbHostRead q i mask) s =
      .next (R.clearRdBuf.wr (mdbA rMDB_RD_STAT) 0x80000000)) ∧
    (s.takes q (mdbA rMDB_WR_CMD) W (s.mdbBusy 1 || s.mdbBusy 2) → X.bitAt E 0 = true → exec (.mdbSingleWrite q i mask) s =
      .next (X.wr (mdbA rMDB_WR_STAT) 0x80000000)) ∧
    (s.takes q B 0x80000000 (s.mdbBusy 1 || s.mdbBusy 2) → s.bitAt E 0 = true → exec (.mdbBulkLoad q heads) s =
      .next (({ s with work := { s.work with bulk := (heads.map (fun h => (h.1.toNat, h.2.toNat))).take k, bulkTo := k } } : State).wr
        (mdbA rMDB_BULK_DONE) 0x80000000)) ∧
    (s.takes q B 0x40000000 false → s.mdbBusy 2 = true → exec (.mdbBulkAbort q n) s =
      .next { s with work := { s.work with bulkTo := min s.work.bulkTo n.toNat } }) ∧
    (s.domOn 14 = true → s.mdbBusy 0 = true → s.hostTurn = true → exec (.mdbCommandDone 0 tries) s = .next (s.readDoneMdb tries.toNat)) ∧
    (s.domOn 14 = true → s.mdbBusy 1 = true → s.hostTurn = true → exec (.mdbCommandDone 1 tries) s =
      .next ((one.2.wr (mdbA rMDB_WR_STAT) (BitVec.ofNat 32 (256 + one.1))).irq .meterdb 0 1)) ∧
    (s.domOn 14 = true → s.mdbBusy 2 = true → s.hostTurn = true → s.work.bulk.take s.work.bulkTo = [] → exec (.mdbCommandDone 2 tries) s =
      .next ((({ s with work := { s.work with bulk := [], bulkTo := 0 } } : State).wr (mdbA rMDB_BULK_DONE) 0).irq .meterdb 0 2)) ∧
    (s.work.pass = none → s.passDue = true → st.takePages comp.toNat 64 ⟨s.nand.seq, []⟩ = (p, u) → p.pages.length ≠ passPages →
      exec (.checkpointPass req comp) s = .next (
        let m := min (u.space req.toNat) passPages
        let y := u.offerAll req.toNat ((List.range m).map (fun j => u.checkpointCell (0 + j)))
        { y with work := { y.work with pass := some p, nextPage := 0 + m } })) ∧
    (s.work.pass = some g → s.takePages comp.toNat 64 g = (p, u) → p.pages.length = passPages →
      exec (.checkpointPass req comp) s = .next (
        let m := min (u.space req.toNat) (passPages - s.work.nextPage)
        let y := u.offerAll req.toNat ((List.range m).map (fun j => u.checkpointCell (s.work.nextPage + j)))
        { y with passes := (p :: y.passes).take 2, work := { y.work with pass := none, nextPage := 0 } })) ∧
    (s.storeTurn = true → s.domOn 15 = true → exec .tableReload s = .next (s.tableReload (if s.pairEn then [0, 2] else [0]))) ∧
    (s.storeTurn = true → s.domOn 15 = true → s.passes = [] → exec .tableReload s = .next s)

/-- R37, R282 to R291: programmes, switch lists, distribution, tokens and the host's commands. -/
def Obligations.TariffCommands : Prop :=
  ∀ (s u : State) (t : Nat) (img : List (BitVec 8)) (p : Fin 16) (n : Fin 64) (meter : BitVec 20) (act start : BitVec 48) (len : BitVec 20)
    (ring reply : Fin 64) (out : BitVec 13) (d : Dist) (t0 : Nat) (strings : List (List (BitVec 8))) (res : BitVec 8) (pay : Nat) (c : Cell512)
    (gone : List Cell512) (tok : Nat × (Nat × Bool)) (order : HostOrder),
    let r := s.at t
    let i := meter.toNat
    let popped := fun (own : Nat → Bool) => s.hostMay own ring.val reply.val = true ∧ s.popMessage (6144 + ring.val) 4096 = (c :: gone, u)
    let z := u.hostSpend ring.val reply.val
    let answered := fun (w : List Nat) (y : State) => y.offer (6144 + reply.val) (mkCompletion (cellChan c) (cellAux c)
      ((Config.hostWords w).map (fun (x : Word64) => x.toNat)))
    let due := r.work.dist.find? (fun e => e.1 = i) = some (i, d) ∧ d.sent = none ∧ d.due ≤ r.tsuTime.sec ∧ r.domOn 10 = true ∧ r.domOn 14 = true
    let d1 := { d with tries := d.tries + 1, sent := some r.tsuTime.sec }
    let b := (r.prog d.prog).getD []
    let y := ((r.setField i (patch (tarState (r.field i) d.prog 2 (d.tries + 1)) 0x28 (toLe 8 r.tsuTime.sec))).toMeterAll i out.toNat
      (calendarRequests b d.act)).setDist i (some d1)
    let h := r.reportUnknown ring.val
    let x : State := { h with work := { h.work with tokens := h.work.tokens.erase tok } }
    let m := (x.redeem i (tokenOf strings)).2.2.tellHost ring.val [2, i, (x.redeem i (tokenOf strings)).1]
    let heard := h.nextToken i = some tok ∧ h.domOn 10 = true ∧ h.domOn 14 = true
    (popped fieldLay →
      (z.progNewer img = true → exec (.tariffLoad ring reply img) s = .next (answered [1] { z.putProg img with rdata := 1 })) ∧
      (z.progNewer img = false → exec (.tariffLoad ring reply img) s = .next (answered [0] { z with rdata := 0 })) ∧
      (z.domOn 10 = true → z.domOn 14 = true → z.progLoaded n.val = true → 60 ≤ len.toNat → len.toNat ≤ 604800 →
        z.distMeters n.val (some [meter]) = [i] → exec (.tariffDistribution ring reply n (some [meter]) start len act) s = .next (answered [1]
          ((z.setField i (tarState (z.field i) n.val 1 0)).setDist i (some ⟨n.val, len.toNat, act.toNat, start.toNat + 0 * len.toNat / 1, 0, none⟩))))) ∧
    (popped (orderLay order) → exec (.hostCommand ring reply order) s = .next (answered (z.hostOrder order).1 (z.hostOrder order).2)) ∧
    (r.domOn 1 = true → r.domOn 2 = true → exec (.switchListRefill p t) s = .next (
      let l := r.switches p.val r.tsuTime.sec
      ((List.range 64).foldl (fun (s : State) e => s.setBk (totA rTOT_SW_DATA) (swKey p.val e) (match l[e]? with
        | some x => BitVec.ofNat 64 (2 ^ 63 + (x.2 - 1) * 2 ^ 48 + x.1)
        | none => 0)) r).wr (totA rTOT_SW_SEL) (BitVec.ofNat 32 p.val))) ∧
    (due → exec (.tariffSend meter true none ring out t) s = .next y) ∧
    (due → exec (.tariffSend meter true (some false) ring out t) s = .next (y.tryFailed i d1 ring.val)) ∧
    (due → exec (.tariffSend meter true (some true) ring out t) s = .next (((y.setField i (patch (y.field i) 0x20 (toLe 8
      (d.prog + d.prog * 2 ^ 8 + 3 * 2 ^ 16 + (d.tries + 1) * 2 ^ 20 + leAt b 4 2 * 2 ^ 32)))).setDist i none).tellHost ring.val
        (distOutcome i d.prog 3 0))) ∧
    (due → exec (.tariffSend meter false none ring out t) s =
      .next (((r.setField i (tarState (r.field i) d.prog 4 d.tries)).setDist i none).tellHost ring.val (distOutcome i d.prog 4 1))) ∧
    (r.work.dist.find? (fun e => e.1 = i) = some (i, d) → d.sent = some t0 → t0 + 60 ≤ r.tsuTime.sec → r.domOn 10 = true → r.domOn 14 = true →
      exec (.tariffResponseTimeout meter ring t) s = .next (r.tryFailed i d ring.val)) ∧
    (heard → tok.2.2 = false ∨ x.meterValid i = false → exec (.tokenRedeem meter strings ring out t) s = .next (x.tellHost ring.val [2, i, 9])) ∧
    (heard → tok.2.2 = true → x.meterValid i = true → (x.redeem i (tokenOf strings)).2.1 = none →
      exec (.tokenRedeem meter strings ring out t) s = .next m) ∧
    (heard → tok.2.2 = true → x.meterValid i = true → (x.redeem i (tokenOf strings)).2.1 = some pay →
      exec (.tokenRedeem meter strings ring out t) s = .next (
        let v := m.toMeter i 1 out.toNat (pay :: (m.bytes .ddr (m.entryAddr i + 0x0E0) 9).map (fun (x : Byte) => x.toNat))
        { v with work := { v.work with credits := v.work.credits ++ [(i, (pay, v.tsuTime.sec))] } })) ∧
    (r.work.credits.find? (fun e => e.1 = i) = some (i, (pay, t0)) →
      exec (.creditActionTimeout meter (some res) ring t) s =
        .next (({ r with work := { r.work with credits := r.work.credits.erase (i, (pay, t0)) } } : State).tellHost ring.val [3, i, pay, res.toNat]) ∧
      (t0 + 60 ≤ r.tsuTime.sec → exec (.creditActionTimeout meter none ring t) s =
        .next (({ r with work := { r.work with credits := r.work.credits.erase (i, (pay, t0)) } } : State).tellHost ring.val [3, i, pay])))

/-- R274 to R278: requests to the device's own server, associations and the roles' counters. -/
def Obligations.CosemCommands : Prop :=
  ∀ (s u w : State) (t : Nat) (ring reply session : Fin 64) (rq : CosemRequest) (c : Cell512) (l : List Cell512) (role lay : Nat) (x : Sess)
    (e : Nat) (k : Fin 5) (good : Bool) (fails : Fin 3) (challenge : List (BitVec 8)) (sc : BitVec 8) (ic : BitVec 32) (tag : BitVec 96),
    let r := s.at t
    let out := 6144 + reply.val
    let n := cellChan c % 64
    let h := cosemHdr ((c :: l).flatMap (fun c => cellBytes c (min 56 (cellLen c))))
    let plain := fun (y : State) (a : List Nat) => y.offerAll out (messageCells (cellChan c) (cellAux c) (Config.dlmsBytes (0 :: 0 :: a)))
    let popped := r.ringOwner ring.val reply.val = some lay ∧ fieldLay lay = true ∧ r.popMessage (6144 + ring.val) 256 = (c :: l, u)
    let served := ((w.setSession n (some { x with last := w.tsuTime.sec })).cosemServe n x rq.service)
    let v := s.roleCtr k.val
    let res := (s.reserved (roleAt k.val)).getD 0
    let bars := s.limitBars (5 + k.val)
    (popped → roleOf rq.sap.toNat = none → exec (.cosemRequest ring reply rq t) s = .next (plain u [1, 1])) ∧
    (popped → roleOf rq.sap.toNat = some role → rq.service = .associate challenge sc ic tag →
      u.mayAssociate lay role rq.title challenge sc.toNat ic.toNat tag.toNat = (good, w) →
      exec (.cosemRequest ring reply rq t) s =
        .next (plain (w.setSession n (if good then some ⟨role, w.tsuTime.sec⟩ else none)) [4, good.toNat])) ∧
    (popped → roleOf rq.sap.toNat = some role → (∀ b1 b2 b3 b4, rq.service ≠ .associate b1 b2 b3 b4) →
      (u.work.sessions.find? (fun e => e.1 = n && e.2.role = role) = none → exec (.cosemRequest ring reply rq t) s = .next (plain u [1, 1])) ∧
      (u.work.sessions.find? (fun e => e.1 = n && e.2.role = role) = some (e, x) → u.protectionOk lay x.role h rq.title = (good, w) →
        (good = false → exec (.cosemRequest ring reply rq t) s = .next (plain w [1, 1])) ∧
        (good = true → x.role = 0 → exec (.cosemRequest ring reply rq t) s = .next (plain served.2 served.1)) ∧
        (good = true → x.role ≠ 0 → exec (.cosemRequest ring reply rq t) s =
          .next (served.2.cipherAnswer ⟨x.role, cellChan c, cellAux c, out, served.1, served.2.now⟩)))) ∧
    (r.work.sessions.find? (fun e => e.1 = session.val) = some (e, x) → x.last + 120 ≤ r.tsuTime.sec → exec (.associationTimeout session t) s = .next (
      let z := r.setSession session.val none
      { z with work := { z.work with waiting := z.work.waiting.filter (fun w => w.session % 64 ≠ session.val) } })) ∧
    (s.domOn 1 = true → s.domOn 2 = true → bars = true → exec (.roleReservation k true fails) s = .next (s.roleStart k.val res res)) ∧
    (s.domOn 1 = true → s.domOn 2 = true → bars = false →
      (fails.val = 2 → exec (.roleReservation k true fails) s = .next (s.roleRefuse k.val)) ∧
      (fails.val < 2 → (s.reserve (roleAt k.val) (res + 4096)).pairEn = false → exec (.roleReservation k true fails) s =
        .next ((s.reserve (roleAt k.val) (res + 4096)).roleStart k.val res (res + 4096))) ∧
      (k.val ≠ 0 → s.roleAsked k.val = true → fails.val = 2 → exec (.roleReservation k false fails) s = .next (s.askTaken.roleRefuse k.val)) ∧
      (k.val ≠ 0 → s.roleAsked k.val = true → fails.val < 2 → (s.askTaken.reserve (roleAt k.val) (v.limit + 4096)).pairEn = false →
        exec (.roleReservation k false fails) s =
          .next ((s.askTaken.reserve (roleAt k.val) (v.limit + 4096)).roleAnswer k.val (v.limit + 4096))))

/-- R297 to R301, R306, R310, R317, R318, R332, R333: the measurement block's samples, channels, start, trim and line cycles. -/
def Obligations.MeasurementCommands : Prop :=
  ∀ (s : State) (q : Requester) (t : Nat) (xs : List (Fin 128 × BitVec 780)) (c : Fin 128) (p : Fin 16),
    let r := s.at t
    let n := c.val / 8
    let input := fun (k : Nat) => ((xs.find? (fun e => e.1.val = k)).map (fun e => e.2)).getD (0 : BitVec 780)
    let u := ((List.range 128).filter (fun k => r.chBit rMEAS_CH_EN k || r.chan k ≠ Chan.off)).foldl (fun (s : State) k => s.chanSample k (input k)) r
    let y := s.markStuck c.val
    let z := s.putCh rMEAS_STUCK c.val false
    let f := s.roundFree s.tsuFreq 256
    let held := clampI (-200000) 200000 f.1
    let far := !lineGood (r.linePeriod p.val)
    let m := r.putF (mpA p.val rMP_FREQ) 16 0 (rdiv (32000 * 65536 * 1000) (if far then r.nominalPeriod p.val else r.linePeriod p.val)).toNat
    (r.domOn 13 = true → r.bitAt (measA 0x00C) 0 = true → u.bitAt (measA rMEAS_STAT) 1 = false → exec (.measSample xs t) s = .next u) ∧
    (r.domOn 13 = true → r.bitAt (measA 0x00C) 0 = true → u.bitAt (measA rMEAS_STAT) 1 = true → exec (.measSample xs t) s =
      .next ((List.range 16).foldl (fun (s : State) p => if s.pointEn p then
        let a := (s.phases p).foldl (fun (s : State) φ => s.phaseSample p φ) s
        a.setMpt p { a.mpt p with n := (a.mpt p).n + 1 } else s) u)) ∧
    (s.sticks c.val = true → y.bitAt (mpA n rMP_STAT) 18 = true → exec (.channelStuck c) s = .next y) ∧
    (s.sticks c.val = true → y.bitAt (mpA n rMP_STAT) 18 = false → exec (.channelStuck c) s =
      .next (y.draw.2.measEvent n 6 0 true (bits y.draw.1 31 0))) ∧
    (s.domOn 13 = true → s.chBit rMEAS_STUCK c.val = true → 1024 ≤ (s.chan c.val).moved → (∃ k, k < 8 ∧ z.chBit rMEAS_STUCK (8 * n + k) = true) →
      exec (.channelStuckEnd c) s = .next z) ∧
    (s.domOn 13 = true → s.chBit rMEAS_STUCK c.val = true → 1024 ≤ (s.chan c.val).moved → (∀ k, k < 8 → z.chBit rMEAS_STUCK (8 * n + k) = false) →
      exec (.channelStuckEnd c) s = .next (z.draw.2.measEvent n 6 0 false (bits z.draw.1 31 0))) ∧
    (s.domOn 13 = true → s.bitAt (measA rMEAS_CTRL) 16 = true → s.netOn = true → s.bitAt (pa .tsu 0 rTSU_STAT) 3 = true → exec .syntTrim s =
      .next (if held ≠ f.1 then (f.2.wr (measA rMEAS_SYNT) (BitVec.ofInt 32 held)).cause .meas 0 5 else f.2.wr (measA rMEAS_SYNT) (BitVec.ofInt 32 held))) ∧
    (r.bitAt (measA 0x00C) 0 = false → r.takes q (measA 0x00C) 1 false → exec (.measEnable q t) s = .next (
      let a := (r.putBit (measA 0x00C) 0 true).putBit (measA rMEAS_STAT) 1 false
      { a with meas := { a.meas with
          chans := [], acc := [], pts := (List.range 16).map (fun p => (p, { a.mpt p with n := 0, first := true })), started := a.now, stamp := none, run := [] } })) ∧
    (r.domOn 13 = true → r.bitAt (measA 0x00C) 0 = true → r.bitAt (measA rMEAS_STAT) 1 = false → r.mpllLock = true →
      r.meas.started + 40000000 ≤ r.now → exec (.measSettled t) s = .next (
        let a := (r.putBit (measA rMEAS_STAT) 1 true).irq .meas 0 0
        { a with meas := { a.meas with acc := [], chans := a.meas.chans.map (fun e => (e.1, { e.2 with sum := 0, count := 0 })) } })) ∧
    (r.domOn 13 = true → r.bitAt (measA 0x00C) 0 = true → r.pointEn p.val = true → r.act p.val rMP_VNOM = 0 → exec (.lineCycle p t) s = .next (
      let d := m.draw.2.criterion p.val 5 0 far (!far) 5 (bits m.draw.1 31 0)
      (if r.threeWire p.val then (d.dropRun p.val 2 0).dropRun p.val 3 2 else d).dropRuns p.val [1, 2, 3]))

/-- R305, R313 to R331, R336, R340, R635: the transfer of a second, its copy, interval values, snapshots, the page of the totals, the pulse outputs, the
commit of a point and the locks of the PLLs. -/
def Obligations.TotalsAndPulseCommands : Prop :=
  (∀ (s : State) (q : Requester) (t c n : Nat) (image : List Byte) (part : Bool) (l : List Nat) (cell : Cell512) (mask : BitVec 16) (p : Fin 16)
    (index : Fin 90) (v : BitVec 64) (sub : BitVec 16) (k : BitVec 8),
    let r := s.at t
    let w := s.setBytes .fram (copyAt c) image
    let gone : State := { w with totals := { w.totals with writing := none, copyOk := true, snapDue := !part } }
    let e := { s with meas := { s.meas with ready := [] } }
    let V := BitVec.ofNat 32 (2 ^ 31 + index.val * 256 + p.val)
    let y := s.plain (totA rTOT_SEL) (V.setWidth 64)
    let i := y.fld (totA rTOT_SEL) 14 8
    let pt := y.fld (totA rTOT_SEL) 3 0
    let x := if i < 72 then y.copyTotal c pt i else y.copyMax c pt (i - 72)
    let D := BitVec.ofNat 32 (k.toNat * 65536 + sub.toNat)
    let d := s.plain (totA rTOT_DM_CFG) (D.setWidth 64)
    let b := s.plain (totA rTOT_SW_DATA) v
    (r.domOn 13 = true → r.domOn 1 = true → r.bitAt (measA 0x00C) 0 = true → r.bitAt (measA rMEAS_STAT) 1 = true → r.mpllLock = true →
      ∃ u, exec (.oneSecondTransfer t) s = .next u ∧ u.meas.stamp = some r.measTime.1 ∧ u.meas.stepped = false) ∧
    (s.totals.writing = some (c, image, part) → exec (.totalsCopyWritten 0) s =
      .next ((gone.putBit (totA rTOT_STAT) 3 false).bumpMod (totA rTOT_WR_CNT) 1).showCopies.dieServe) ∧
    (s.bitAt (totA rTOT_STAT) 3 = false → s.totals.copyOk = true → s.meas.ready = [cell] → e.producedBy 0x0D = n :: l → e.splFull n = false →
      exec .intervalValuePush s = .next (e.offer n cell)) ∧
    (s.newerCopy = some c → s.producedBy 0x13 = n :: l → s.totals.snapDue = true → exec .snapshotMessage s = .next (
      let z := (List.range 16).foldl (fun (u : State) p =>
        if !(s.le .fram (copyAt c + 6) 2).testBit p then u
        else if u.space n < 21 then (u.bump (totA rTOT_SNAP_SKIP) 1).cause .totals 0 4
        else u.offerAll n (u.snapshotCells c p)) s
      { z with totals := { z.totals with snapDue := false } })) ∧
    (s.lcs < 2 → s.takes q (totA rTOT_CLEAR) (BitVec.ofNat 32 (2 ^ 31 + mask.toNat)) false → exec (.totClear q mask) s =
      .next { s with totals := { s.totals with clear := s.totals.clear ||| mask.toNat } }) ∧
    (s.takes q (totA rTOT_SEL) V false → y.newerCopy = some c → exec (.totSnap q p index) s =
      .next (((y.wr64 (totA rTOT_COUNT) (BitVec.ofNat 64 x.1)).wr64 (totA rTOT_AUX) (BitVec.ofNat 64 x.2)).wr (totA rTOT_SNAP_SEQ)
        (BitVec.ofNat 32 (y.le .fram (copyAt c) 4)))) ∧
    (s.takes q (totA rTOT_SW_DATA) (v.extractLsb' 0 32) false → exec (.totSwitchWrite q v) s =
      .next (b.putF (totA rTOT_SW_SEL) 13 8 ((b.fld (totA rTOT_SW_SEL) 13 8 + 1) % 64))) ∧
    (sub ≠ 0 → 3600 % sub.toNat = 0 → 1 ≤ k.toNat → k.toNat ≤ 60 → s.takes q (totA rTOT_DM_CFG) D false → exec (.totDmConfig q sub k) s =
      .next { d with totals := { d.totals with dmRestart := true } })) ∧
  (∀ (s : State) (q : Requester) (t : Nat) (p : Fin 16) (v : BitVec 32) (d : Fin 17) (u : State),
    let r := s.at t
    let c := look (fun _ => PulseCh.off) r.pulses p.val
    let C := pulA (rPUL_COUNT + 16 * p.val)
    let y := (({ r with pulses := Machine.store (fun _ => PulseCh.off) r.pulses p.val { c with done := c.done + 1 } } : State).bumpMod C 1)
    let a := s.plain (pulA (rPUL_CFG + 16 * p.val)) (v.setWidth 64)
    let n := d.val + 1
    let off := s.putBit (pa .clk 0 rCLK_STAT) (lockBit n) false
    (r.domOn 2 = true → r.bitAt (pulA 0x00C) 0 = true → c.done < c.k → c.startOf c.done ≤ r.now → exec (.pulseStart p t) s =
      .next ((y.setTimer C (c.startOf c.done + c.width * 1000)).pulseDrive p.val (!c.invert))) ∧
    (r.timer C ≠ 0 → r.timer C ≤ r.now → exec (.pulseEnd p t) s = .next ((r.setTimer C 0).pulseIdle p.val c.invert)) ∧
    (s.takes q (pulA (rPUL_CFG + 16 * p.val)) v false → v.getLsbD 31 = true → a.blockClaim p.val 2 = (true, u) →
      exec (.pulseConfigWrite q p v) s = .next u) ∧
    (s.takes q (pulA (rPUL_CFG + 16 * p.val)) v false → v.getLsbD 31 = true → a.blockClaim p.val 2 = (false, u) →
      exec (.pulseConfigWrite q p v) s = .next (u.cause .pulse 0 1)) ∧
    (s.takes q (pulA (rPUL_CFG + 16 * p.val)) v false → v.getLsbD 31 = false →
      exec (.pulseConfigWrite q p v) s = .next (a.blockRelease p.val 2)) ∧
    (s.takes q (mpA p.val rMP_COMMIT) 0x80000000 false → exec (.mpCommit q p) s = .next (s.putBit (mpA p.val rMP_STAT) 31 true)) ∧
    (3 ≤ n ∧ n ≤ 10 → exec (.pllUnlock d true) s = .next s ∧ exec (.pllUnlock d false) s = .next s) ∧
    (n < 3 ∨ 10 < n → s.domOn n = true → exec (.pllUnlock d true) s = .next (s.putBit (pa .clk 0 rCLK_STAT) (lockBit n) true)) ∧
    (n < 3 ∨ 10 < n → n ≠ 13 → exec (.pllUnlock d false) s = .next (off.clkCause 2)) ∧
    (n = 13 → off.domOn 13 = true → exec (.pllUnlock d false) s = .next (
      let z := (off.clkCause 2).cause .meas 0 2
      { z with meas := { z.meas with stepped := true } })))

/-- R345 to R348, R350 to R352, R363, R366: contributions and the balance commands, well formed and each with the status its rule gives, answered on the
paired ring; close orders and marks, notices, reports, the status cell and the parameters of the balance. -/
def Obligations.BalanceCommands : Prop :=
  (∀ (s u : State) (n : BitVec 13) (c : Cell512) (ue : Bool) (ring reply : Fin 64) (x : BalNode),
    let w := fun (i : Nat) => (cellWord c i).toNat
    let k := nbits (w 1) 15 0
    let front := s.peekCell (6144 + ring.val) 0 = some c ∧ balFormed c = true ∧ s.hostMay balLay ring.val reply.val = true
    let y := ((s.pop (6144 + ring.val)).2.hostSpend ring.val reply.val).balStart.nodeRead k
    let b := y.bal.planned
    let out := 6144 + reply.val
    let d := declNode w
    let ok := ({ y with bal := { y.bal with waiting := y.bal.waiting ++ [(out, c)] } } : State).offerAll out (balAnswer c 0 [])
    (s.pop n.toNat = (some (c, ue), u) → exec (.contributionCell n) s = .next (u.contribute c)) ∧
    (front → cellChan c = 1 → b.declBad k d ≠ 0 → exec (.nodeDecl ring reply) s = .next (y.offerAll out (balAnswer c (b.declBad k d) []))) ∧
    (front → cellChan c = 1 → b.declBad k d = 0 → exec (.nodeDecl ring reply) s = .next ok ∧ b.effect c = b.declare k d) ∧
    (front → cellChan c = 2 → b.node k = none → exec (.nodeRemove ring reply) s = .next (y.offerAll out (balAnswer c 1 []))) ∧
    (front → cellChan c = 2 → b.node k = some x → (∀ e ∈ b.nodes, e.1 ≠ k → e.2.isRoot = false → e.2.up ≠ k) →
      exec (.nodeRemove ring reply) s = .next ok ∧ b.effect c = { b.markTopo k with nodes := drop (b.markTopo k).nodes k }) ∧
    (front → cellChan c = 3 → (w 1).testBit 32 = false → b.node k = some x →
      exec (.nodeReset ring reply) s = .next ok ∧ b.effect c = b.setNode k x.clearEst) ∧
    (front → cellChan c = 3 → (w 1).testBit 32 = true → exec (.nodeReset ring reply) s = .next ok ∧
      b.effect c = b.nodes.foldl (fun (b : Bal) e => b.setNode e.1 e.2.clearEst) b) ∧
    (front → cellChan c = 4 → y.bal.node k = some x → exec (.nodeRead ring reply) s =
      .next (y.offerAll out (balAnswer c 0 (({ x with seq := y.le .ddr (y.nodeAddr k) 4 / 256 } : BalNode).bytes y.bal k))))) ∧
  (∀ (s u : State) (q : Requester) (k us : BitVec 32) (lost : List (BitVec 16 × Bool)) (n : BitVec 13) (c : Cell512) (ue : Bool) (lay : Fin 8) (t : Nat)
    (e : Nat × Nat) (x : BalStatus) (l : List BalStatus) (all hold : Bool),
    let y := s.balStart
    let z := if y.timer (balA rBAL_STAT) = 0 then y.setTimer (balA rBAL_STAT) (y.now + 10000000000) else y
    let fin := bits (cellWord c 1) 47 0
    let o := u.balStart
    let prev := o.ivlStart fin
    let v := s.at t
    let W := BitVec.ofNat 32 (2 ^ 31 + hold.toNat * 4 + all.toNat * 2)
    (s.domOn 1 = true → s.ivlEnd k.toNat + s.fld (balA rBAL_SETTLE) 11 0 ≤ s.tsuTime.sec →
      (z.isClosed (z.ivlEnd k.toNat) = false →
        exec (.closeOrder k lost us) s = .next (z.balClose (z.ivlEnd k.toNat) false (lost.map (fun e => (e.1.toNat, e.2))) us.toNat)) ∧
      (z.isClosed (z.ivlEnd k.toNat) = true → exec (.closeOrder k lost us) s = .next z.balIgnore)) ∧
    (s.pop n.toNat = (some (c, ue), u) →
      (o.isClosed fin = true → exec (.forcedClose n us) s = .next o.balIgnore) ∧
      (o.isClosed fin = false → o.bal.open_.filter (fun e => e.1 < prev) = [] →
        (o.isClosed prev = false → exec (.forcedClose n us) s = .next (o.balClose prev true [] us.toNat)) ∧
        (o.isClosed prev = true → exec (.forcedClose n us) s = .next o))) ∧
    (s.bal.notices.find? (fun e => e.1 = lay.val) = some e → exec (.closureNotice lay) s = .next { s with bal := { s.bal with
      notices := s.bal.notices.erase e, noticed := place e.1 e.2 (drop s.bal.noticed e.1) } }) ∧
    (s.bal.out ≠ [] → exec (.reportPush n) s = .next (
      let m := min 8 (min s.bal.out.length (s.space n.toNat))
      ({ s with bal := { s.bal with out := s.bal.out.drop m } } : State).offerAll n.toNat (s.bal.out.take m))) ∧
    (s.bal.status = x :: l → s.domOn 1 = true → x.late = 0 → x.forced = 0 → x.drop = 0 → x.ignored = 0 → x.nodeUe = false → x.alarm = false →
      exec .balanceStatus s = .next (
        let a := ({ s with bal := { s.bal with status := l } } : State)
        let b := ((((a.wr (balA rBAL_LAST_CLOSED) (BitVec.ofNat 32 x.closed)).wr (balA rBAL_NODES) (BitVec.ofNat 32 x.nodes)).wr
          (balA rBAL_ALARMS) (BitVec.ofNat 32 x.alarms)).wr (balA rBAL_UNIDENT) (BitVec.ofNat 32 x.unident)).wr (balA rBAL_CLOSE_US) (BitVec.ofNat 32 x.us)
        let d := (((b.bump (balA rBAL_LATE_CNT) 0).bump (balA rBAL_FORCED_CNT) 0).bump (balA rBAL_RPT_DROP) 0).bump (balA rBAL_IGNORED_CNT) 0
        ((d.putBit (balA rBAL_STAT) 0 true).setTimer (balA rBAL_STAT) 0).irq .bal 0 0)) ∧
    (v.timer (balA rBAL_STAT) ≠ 0 → v.timer (balA rBAL_STAT) ≤ v.now → exec (.balNoStatus t) s = .next ((v.setTimer (balA rBAL_STAT) 0).cause .bal 0 2)) ∧
    (s.takes q (balA rBAL_CTRL) W (s.bitAt (balA rBAL_STAT) 31) → exec (.balCommit q all hold) s =
      .next ((s.plain (balA rBAL_CTRL) (W.setWidth 64)).putBit (balA rBAL_STAT) 31 true)))

/-- R368 to R371, R375, R380 to R382, R389, R391, R393, R396: the field ports' registers, counters, neighbours and transceivers. -/
def Obligations.FieldPortCommands : Prop :=
  ∀ (s : State) (q : Requester) (t : Nat) (n : Fin 4) (m : Fin 7) (i : BitVec 12) (addr : BitVec 16) (data : BitVec 8) (low : Bool) (r : TxRun)
    (fails : Fin 3) (e : Neigh) (k d : Nat) (c : Cell512) (rest : List (Nat × Cell512)) (p7 : Fin 15) (x : TxMsg),
    let y := s.at t
    let E := pa .radio n.val 0x00C
    let up := (s.spiSend n.val 0x30 [] 1).xcvrUp n.val true
    let sel := macA m.val rRAD_NB_SEL rPH_NB_SEL
    let W := BitVec.ofNat 32 (2 ^ 31 + i.toNat)
    let L := BitVec.ofNat 32 (2 ^ 30 + i.toNat)
    let j := if isRadio m.val then i.toNat else i.toNat % 2048
    let now := (y.tsuTime.sec * 1000000000 + y.tsuTime.ns) % 2 ^ 32
    let G := pa .radio n.val rRAD_XREG
    let X := BitVec.ofNat 32 (2 ^ 31 + 2 ^ 30 + addr.toNat * 2 ^ 8 + data.toNat)
    let R := BitVec.ofNat 32 (2 ^ 31 + addr.toNat * 2 ^ 8 + data.toNat)
    let a := s.plain G (X.setWidth 64)
    let b := s.plain G (R.setWidth 64)
    let begun := fun (z : State) => (z.setPort7 n.val { z.port7 n.val with xreg := some (z.now, data) }).putBit G 29 false
    let lim := min (2 ^ 32 - 1) (s.txres m.val + 4096)
    (s.takes q E 1 false → s.rd64 (pa .radio n.val rRAD_EXT) ≠ 0 → s.bitAt E 0 = false → exec (.radioEnable q n) s =
      .next (
        let z := s.putBit E 0 true
        (((z.setPort7 n.val { z.port7 n.val with rstAt := z.now }).txctrStart n.val).radioSetup n.val).reseed)) ∧
    (s.macOn n.val = true → data.getLsbD 7 = false → data ≠ 0 ∨ low = false → exec (.transceiverIrq n data low) s = .next up) ∧
    (s.macOn n.val = true → data.getLsbD 7 = true ∨ (data = 0 ∧ low = true) → exec (.transceiverIrq n data low) s = .next (up.xcvrReset n.val)) ∧
    ((y.port7 n.val).run = some r → r.st = 3 → r.due ≤ y.now → exec (.txDoneTimeout n t) s = .next (y.xcvrReset n.val)) ∧
    ((y.port7 n.val).run = some r → r.st = 2 → r.due ≤ y.now → exec (.ccaTimeout n t) s = .next (y.xcvrReset n.val)) ∧
    (y.macOn n.val = true → y.netOn = true → (y.port7 n.val).acking = none → (y.port7 n.val).run = none → exec (.timeStrobe n t) s =
      .next (y.setPort7 n.val { y.port7 n.val with strobe := some (now, y.fld (pa .tsu 0 rTSU_STEP_CNT) 3 0) })) ∧
    (y.macOn n.val = true → y.netOn = true → y.acking n.val = true ∨ ((y.port7 n.val).run = some r ∧ r.st = 3) → exec (.timeStrobe n t) s =
      .next (y.setPort7 n.val { y.port7 n.val with strobeTx := now })) ∧
    (s.takes q sel W (s.nbBad m.val j) → exec (.neighbourCommit q m i) s = .next ((s.plain sel (W.setWidth 64)).nbCommit m.val j)) ∧
    (s.takes q sel L false → exec (.neighbourLoad q m i) s = .next ((s.plain sel (L.setWidth 64)).nbLoad m.val j)) ∧
    (s.domOn 12 = true → s.domOn 1 = true → (s.port7 m.val).nbs = [(k, e)] → e.dirty = true → exec (.counterImageFlush m true) s = .next (
      let z := s.framPut 3 (ctrImageAt m.val k) (toLe 4 e.next ++ toLe 4 e.ext)
      z.setPort7 m.val { s.port7 m.val with nbs := [(k, { e with dirty := false })] })) ∧
    (s.macOn m.val = true → s.domOn 1 = true → s.txres m.val ≤ s.txctr m.val + 1024 → (s.port7 (ctrPort m.val)).halted = false →
      s.limitBars (min m.val 4) = false →
      (fails.val = 2 → exec (.txctrReserve m fails) s = .next
        ((s.framFail m.val).setPort7 (ctrPort m.val) { (s.framFail m.val).port7 (ctrPort m.val) with halted := true })) ∧
      (fails.val < 2 → (s.reserve (resAt m.val) lim).pairEn = false → exec (.txctrReserve m fails) s =
        .next ((s.reserve (resAt m.val) lim).txresUse m.val lim))) ∧
    (s.takes q (sharedA m.val rRAD_TXCTR_RST rPLC_TXCTR_RST) 0x80000000 false →
      (∀ k, k < 4 → s.bitAt (keySlotA m.val k) 31 = true → (s.port7 (ctrPort m.val)).written.testBit k = true) →
      exec (.txctrReset q m) s = .next (
        let u := ((s.wr (sharedA m.val rRAD_TXCTR rPLC_TXCTR) 0).framPut 3 (resAt m.val) (toLe 4 4096 ++ toLe 4 (2 ^ 32 - 1 - 4096))).framPut 3
          (resAt m.val + 8) (toLe 4 4096 ++ toLe 4 (2 ^ 32 - 1 - 4096))
        (u.setPort7 (ctrPort m.val) { u.port7 (ctrPort m.val) with written := 0 }).txresUse m.val 4096)) ∧
    (s.statusOf p7.val = (k, c) :: rest → s.toLay 2 (s.fld (descA k 1) 18 16) = some d → 0 < s.space d → exec (.txStatusCell p7) s =
      .next ((s.setStatus p7.val rest).offer d c)) ∧
    (y.domOn 12 = true → (y.port7 n.val).held = [x] → x.since + y.fld (pa .radio n.val rRAD_TIME2) 7 0 * 1000000000 ≤ y.now →
      exec (.indirectExpiry n t) s = .next ((y.setPort7 n.val { y.port7 n.val with held := [] }).endMsg n.val x 3 0 0)) ∧
    ((s.port7 n.val).xreg = none → s.takes q G X false → exec (.xregAccess q n true addr data) s =
      .next (begun (a.spiSend n.val 0x01 (toBe 2 (a.fld G 23 8) ++ toBe 1 (a.fld G 7 0)) 0))) ∧
    ((s.port7 n.val).xreg = none → s.takes q G R false → exec (.xregAccess q n false addr data) s =
      .next (begun (b.spiSend n.val 0x02 (toBe 2 (b.fld G 23 8)) 1))) ∧
    (s.macOn m.val = true → exec (.macReseed m) s = .next s.reseed)

/-- R383 to R394: frames sent and received by the field ports, each port enabled and with what the clause names in progress. -/
def Obligations.FieldFrameCommands : Prop :=
  ∀ (s : State) (t : Nat) (m : Fin 7) (r : TxRun) (a : Owed) (l : List Owed) (f : FieldFrame) (k : BitVec 16) (g : RxFrame) (stamp : Int) (u : State) (energy : BitVec 8)
    (n : BitVec 13) (cs : List Cell512) (c : Cell512) (x : Reasm) (busy : Bool),
    let y := s.at t
    let i := m.val
    let runs := fun (k : Nat) => (y.port7 i).run = some r ∧ r.st = k
    let lbt := r.listen
    let w := if isRadio i then y.spiSend i 0x20 [] (5 + f.length.toNat) else y.agcStep i
    let quiet := y.macOn i = true ∧ y.fenced = false ∧ y.startingUp i = false
    let code := y.fld (descA n.toNat 1) 12 8
    let limit := y.macFld i rRAD_TIME2 15 8 rPLC_TIME2 15 8 * 1000000000
    (runs 1 → r.due ≤ y.now → quiet → y.acking i = false → isRadio i = true → exec (.backoffExpiry m t) s = .next (
      let z := y.spiSend i 0x12 (toBe 2 lbt) 1
      z.setPort7 i { z.port7 i with run := some { r with st := 2, due := z.now + lbt * 1000 + 1000000 } })) ∧
    (runs 1 → r.due ≤ y.now → quiet → y.acking i = false → isRadio i = false →
      (y.airFits (lbt * 1000) = false → exec (.backoffExpiry m t) s = .next (y.waitFree i r (lbt * 1000))) ∧
      (y.airFits (lbt * 1000) = true → exec (.backoffExpiry m t) s =
        .next (y.setPort7 i { y.port7 i with run := some { r with st := 2, due := y.now + lbt * 1000 + 1000000 } }))) ∧
    (runs 2 → quiet → (y.port7 i).dueAcks y.now = a :: l → exec (.ccaResult m energy busy t) s = .next (
      let z := y.sendAck i a
      z.setPort7 i { z.port7 i with run := some { r with st := 1, due := z.now } })) ∧
    (runs 2 → quiet → (y.port7 i).dueAcks y.now = [] → isRadio i = true →
      (energy ≠ 0x80 → signed 8 energy.toNat < signed 8 (nbits r.csma 23 16) → exec (.ccaResult m energy busy t) s = .next (y.transmit i r)) ∧
      (signed 8 (nbits r.csma 23 16) ≤ signed 8 energy.toNat → exec (.ccaResult m energy busy t) s = .next (y.busyTest i r))) ∧
    (runs 2 → quiet → (y.port7 i).dueAcks y.now = [] → isRadio i = false → exec (.ccaResult m energy busy t) s = .next (
      let z := match (y.port7 i).find r.msg.dst with
        | some (k, _) => y.slotRead i k
        | none => y
      let b := (z.frameBurst i r).1
      let v := (z.frameBurst i r).2
      let len := b.2 * 1000 + (if r.msg.ack ∧ !r.msg.broadcast then v.fld (plcA rPLC_TIME1) 31 16 * 1000 else 0)
      if v.longestFree < b.2 * 1000 then v.endTx i r 2 0
      else if busy || v.frontBusy i r.mask || v.outranked i r then v.busyTest i r
      else if !v.airFits len then v.waitFree i r len
      else v.transmitPlc i r b.1 b.2)) ∧
    (runs 3 → y.acking i = false → (y.port7 i).chanDue = false → r.msg.ack = true → r.msg.broadcast = false → exec (.txDone m t) s =
      .next (y.setPort7 i { y.port7 i with run := some { r with
        st := 4, due := y.now + y.macFld i rRAD_TIME1 31 16 rPLC_TIME1 31 16 * 1000 } })) ∧
    (runs 3 → y.acking i = false → (y.port7 i).chanDue = false → r.msg.ack = false ∨ r.msg.broadcast = true → exec (.txDone m t) s = .next (y.partDone i r 0)) ∧
    (runs 4 → r.due ≤ y.now → r.again < r.csmaFld i 15 12 19 16 → exec (.ackWaitTimeout m t) s =
      .next (y.access i { r with again := r.again + 1 })) ∧
    (runs 4 → r.due ≤ y.now → r.csmaFld i 15 12 19 16 ≤ r.again → exec (.ackWaitTimeout m t) s = .next (y.endTx i r 1 0)) ∧
    (y.macOn i = true → y.acking i = false → (y.port7 i).run = none → (y.port7 i).dueAcks y.now = a :: l → exec (.macAckSend m t) s = .next (y.sendAck i a)) ∧
    (y.domOn 12 = true → (y.port7 i).reasm = [x] → x.since + limit ≤ y.now → exec (.reassemblyTimeout m t) s =
      .next ((y.setPort7 i { y.port7 i with reasm := [] }).macCount i 9)) ∧
    (y.macOn i = true → isRadio i = true → w.mtu i < f.length.toNat → exec (.fieldFrameReceived m f t) s = .next (w.xcvrReset i)) ∧
    (y.macOn i = true → (isRadio i = true → f.length.toNat ≤ w.mtu i) →
      (isRadio i = false → y.bitAt (macA i 0 rPH_CFG) 3 = true ∧ y.txen (i - 3) = false) → w.frameStamp i = (stamp, u) →
      (u.frameGood i f = false → exec (.fieldFrameReceived m f t) s = .next (u.macCount i 1)) ∧
      (u.frameGood i f = true →
        (f.ack = some k → isRadio i = false → exec (.fieldFrameReceived m f t) s = .next (u.ackRead i k.toNat f.lqi.toNat)) ∧
        (f.ack = none → u.frameParts i f = none → exec (.fieldFrameReceived m f t) s = .next (u.macCount i 2)) ∧
        (f.ack = none → u.frameParts i f = some g →
          (g.mac.kind = 1 → exec (.fieldFrameReceived m f t) s = .next (u.ackRead i g.mac.seq g.lqi)) ∧
          (g.mac.kind ≠ 1 → (u.relabelled i g).filters i g = none → exec (.fieldFrameReceived m f t) s = .next (u.relabelled i g)) ∧
          (g.mac.kind ≠ 1 → (u.relabelled i g).filters i g = some false →
            exec (.fieldFrameReceived m f t) s = .next ((u.relabelled i g).macCount i 2)) ∧
          (g.mac.kind ≠ 1 → (u.relabelled i g).filters i g = some true →
            exec (.fieldFrameReceived m f t) s = .next ((u.relabelled i g).routed i g stamp))))) ∧
    (code = 4 → y.domOn 12 = true → y.begun n.toNat = [] → y.peekCell n.toNat 0 = some c → txPort true (cellChan c) = some i →
      y.macOn i = true → (y.port7 i).held16 < 16 → (y.port7 i).status.length < 64 → y.takeMessage 4 n.toNat 64 = ([], c :: cs, u) →
      exec (.transmitMessage n t) s = .next (u.txTake i n.toNat (c :: cs)))

/-- R400, R403 to R408, R413, R414: the power line's zero crossings, beacons, start-up and slot maps. -/
def Obligations.PowerLineCommands : Prop :=
  ∀ (s : State) (t : Nat) (phase : Fin 3) (e : Nat) (i : BitVec 11),
    let y := s.at t
    let n := phase.val + 1
    let now := y.tsuTime.sec * 1000000000 + y.tsuTime.ns
    let last := look (fun _ => 0) y.plc.edge n
    let z := { y with plc := { y.plc with edge := Machine.store (fun _ => 0) y.plc.edge n now } }
    let g := min 16 (look (fun _ => 0) z.plc.good n + 1)
    let w := { z with plc := { z.plc with
      good := Machine.store (fun _ => 0) z.plc.good n g
      ivls := Machine.store (fun _ => []) z.plc.ivls n (((now - last) :: look (fun _ => []) z.plc.ivls n).take 16) } }
    let next := { y with plc := { y.plc with due := y.plc.due + y.bcnPeriod } }
    let beacons := y.domOn 12 = true ∧ y.bitAt (plcA 0x00C) 0 = true ∧ y.fenced = false ∧ y.plc.due ≤ y.now
    let m := phase.val + 4
    let h := y.slotRead m i.toNat
    let nb := (h.port7 m).nb i.toNat
    (y.domOn 12 = true → y.netOn = true → last = 0 → exec (.zeroCrossingEdge phase t) s = .next z) ∧
    (y.domOn 12 = true → y.netOn = true → last ≠ 0 → now - last < 15150000 ∨ 22222000 < now - last →
      exec (.zeroCrossingEdge phase t) s = .next (z.zcLost n)) ∧
    (y.domOn 12 = true → y.netOn = true → last ≠ 0 → 15150000 ≤ now - last → now - last ≤ 22222000 → g < 16 →
      exec (.zeroCrossingEdge phase t) s = .next w.mainsUpdate) ∧
    (y.domOn 12 = true → y.netOn = true → last ≠ 0 → 15150000 ≤ now - last → now - last ≤ 22222000 → g = 16 →
      exec (.zeroCrossingEdge phase t) s = .next ((w.setZc n true).setLost n false).mainsUpdate) ∧
    (y.domOn 12 = true → last + 3 * (if y.mainsPeriod = 0 then 22222000 else y.mainsPeriod) ≤ now → exec (.zeroCrossingLoss phase t) s = .next (y.zcLost n)) ∧
    (beacons → y.now ≤ y.plc.due + y.bcnPeriod / 2 →
      (y.frontBusy 0 7 = false → y.windowMet 0 = none → exec (.beaconSend false t) s = .next next.beacon) ∧
      (y.frontBusy 0 7 = true ∨ (y.windowMet 0).isSome = true → exec (.beaconSend false t) s = .next y) ∧
      exec (.beaconSend true t) s = .next y) ∧
    (beacons → y.plc.due + y.bcnPeriod / 2 < y.now → ∀ receiving,
      exec (.beaconSend receiving t) s = .next ((next.bumpF (plcA rPLC_BSEQ) 31 16 1).beaconOver y.now)) ∧
    (y.plc.startEnd = some e → e ≤ y.now → y.domOn 12 = true → exec (.plcStartupEnd t) s = .next (
      let a := (({ y with plc := { y.plc with startEnd := none } } : State).putBit (plcA rPLC_STAT) 4 false).irq .plc 0 2
      ((a.nextRun 4).nextRun 5).nextRun 6)) ∧
    (y.macOn m = true → nb.valid = true → nb.tmrDue = true → nb.tx = [] → (∃ x ∈ h.slotMap nb, x % 8 ≠ 7) → exec (.slotTmrSend phase i t) s = .next (
      let b := (h.bitAt (plcA rPLC_CFG) 1).toNat * 16 + (decide (nb.rx = [])).toNat * 32
      let a := h.setNb m i.toNat { nb with tx := h.slotMap nb, txId := 0, tmrAt := some h.now, tmrDue := false }
      let x : TxMsg := ⟨none, 0, 0, nb.ext, nb.short, a.panId m, true, true, a.fld (macA m 0 rPH_CFG) 14 12, 0, 0,
        toBe 1 0xE1 ++ toBe 1 (0 + b) ++ (h.slotMap nb).flatMap (fun e => toBe 4 e), true, a.now, false⟩
      (a.setPort7 m { a.port7 m with direct := (a.port7 m).direct ++ [x] }).nextRun m))

/-- R427 to R437, R440, R457: the marks, messages, servo, steps, captures and PPS output of the TSU, with NET on. -/
def Obligations.TsuCommands : Prop :=
  ∀ (s : State) (q : Requester) (t : Nat) (port : Fin 6) (p : Fin 8) (v o : BitVec 32) (x : BitVec 64) (late : Bool) (m : List (BitVec 8))
    (src : BitVec 8) (n k : Nat) (mac : BitVec 48) (overUdp : Bool),
    let y := s.at t
    let len := 60 * y.tsuTime.minutes
    let b := y.tsuTime.sec / len * len
    let S := tsuA rTSU_STAT
    let d := signed 64 x.toNat
    let l : Int := (y.fld (tsuA rTSU_STEP_BACK_LIMIT) 19 0 * 1000 : Nat)
    let src2 := ((y.wr64 (tsuA rTSU_OFFSET) x).putF S 10 8 p.val).fld (tsuA rTSU_CTRL) 1 0
    let g := ((y.wr64 (tsuA rTSU_OFFSET) x).putF S 10 8 p.val).sourceSeen src2
    let z := (g.lockMeasure d.natAbs).putBit S 5 false
    let w := y.ptpFill port.val m
    let sends := y.netOn = true ∧ y.ptpSends port.val m = true
    let c := (((y.wr (tsuA (rTSU_CAP + 8 * k)) (BitVec.ofNat 32 ((y.tsuTime.sec * 1000000000 + y.tsuTime.ns) % 2 ^ 32))).putBit
      (tsuA (rTSU_CAPC + 8 * k)) 27 true).putF (tsuA (rTSU_CAPC + 8 * k)) 31 28 (y.fld (tsuA rTSU_STEP_CNT) 3 0)).irq .tsu 0 4
    (y.netOn = true → y.tsuTime.lastEnd = none → exec (.intervalMark t) s = .next (y.markBoundary b b 0)) ∧
    (y.netOn = true → y.tsuTime.lastEnd = some n → n < b → exec (.intervalMark t) s = .next (y.markBoundary b b 0)) ∧
    (y.atSecond = true → y.ppsBall = some n → exec (.tsuSecondBoundary t) s =
      .next ((y.ballLevel n true).setTimer (tsuA rTSU_PPS) (y.now + y.fld (tsuA rTSU_PPS) 9 0 * 1000000))) ∧
    (y.timer (tsuA rTSU_PPS) ≠ 0 → y.timer (tsuA rTSU_PPS) ≤ y.now → (y.setTimer (tsuA rTSU_PPS) 0).ppsBall = some n → exec (.ppsPulseEnd t) s = .next ((y.setTimer (tsuA rTSU_PPS) 0).ballLevel n false)) ∧
    (y.netOn = true → mac = ptpMulticast m → y.bitAt (tsuA rTSU_PTP_CFG) port.val = true → 34 ≤ m.length → be m 1 1 % 16 = 2 →
      ptpType m ∈ [0, 2, 3, 8, 10, 11] → be m 4 1 = y.fld (tsuA rTSU_PTP_CFG) 22 16 →
      exec (.ptpMessageReceived port false mac m t) s = .next { y with ptp := y.ptp ++ [(port.val, (y.ingressStamp port.val).toNat, m)] }) ∧
    (y.netOn = true → mac ≠ ptpMulticast m ∨ overUdp = true →
      exec (.ptpMessageReceived port overUdp mac m t) s = .next (y.bumpF (tsuA rTSU_PTP_DISC) 15 0 1)) ∧
    (y.netOn = true → y.ptpSends port.val m = false → exec (.ptpMessageSend port m late t) s = .next y) ∧
    (sends → ptpType m ≠ 0 → ptpType m ≠ 3 → exec (.ptpMessageSend port m late t) s = .next (y.ptpOut port.val w)) ∧
    (sends → ptpType m = 0 ∨ ptpType m = 3 →
      (y.softStamp port.val = true → exec (.ptpMessageSend port m late t) s = .next (y.ptpOut port.val (twoStep w))) ∧
      (y.softStamp port.val = false → exec (.ptpMessageSend port m true t) s =
        .next ((y.bumpF (tsuA rTSU_PTP_DISC) 31 16 1).ptpOut port.val (twoStep w))) ∧
      (y.softStamp port.val = false → exec (.ptpMessageSend port m false t) s = .next (y.ptpOut port.val (y.ptpComplete port.val w)))) ∧
    (y.netOn = true → src2 = 0 → exec (.ptpOffsetMeasurement x p (some o) t) s = .next (g.lockMeasure d.natAbs)) ∧
    (y.netOn = true → src2 ≠ 0 →
      (l < d ∨ (g.bitAt S 5 = true ∧ d < -l) → exec (.ptpOffsetMeasurement x p none t) s = .next (g.refuseStep d)) ∧
      (-l ≤ d → d ≤ l → exec (.ptpOffsetMeasurement x p none t) s = .next (z.loadSlew (BitVec.ofInt 32 (-d)))) ∧
      (-l ≤ d → d ≤ l → signed 32 o.toNat < -rhoLimit ∨ rhoLimit < signed 32 o.toNat →
        exec (.ptpOffsetMeasurement x p (some o) t) s = .next (z.loadSlew (BitVec.ofInt 32 (-d)))) ∧
      (-l ≤ d → d ≤ l → -rhoLimit ≤ signed 32 o.toNat → signed 32 o.toNat ≤ rhoLimit → exec (.ptpOffsetMeasurement x p (some o) t) s =
        .next ((z.wr (tsuA rTSU_FREQ) o).loadSlew (BitVec.ofInt 32 (-d)))) ∧
      (d < -l → g.bitAt S 5 = false → z.stepBad (-d) = false →
        exec (.ptpOffsetMeasurement x p none t) s = .next (z.applyStep (-d) false))) ∧
    (s.netOn = true → exec .ptpSourceLoss s = .next ((s.setLocked false).putF S 10 8 7)) ∧
    (y.takes q (tsuA rTSU_SLEW) v (y.servoOwns q) → exec (.tsuSlewWrite q v t) s = .next (y.loadSlew v)) ∧
    (y.slewLeft = 0 → exec (.slewDone t) s = .next { y with tsuTime := { y.tsuTime with slewFrac := 0 } }) ∧
    (y.takes q (tsuA rTSU_STEP_CTL) 0x80000000 (q ≠ .host || y.stepBad y.stepValue) → exec (.tsuStep q t) s = .next (y.applyStep y.stepValue true)) ∧
    (y.netOn = true → src ≠ 0 → k < 8 → y.fld (tsuA (rTSU_CAPC + 8 * k)) 7 0 = src.toNat → y.bitAt (tsuA (rTSU_CAPC + 8 * k)) 8 = true →
      (∀ j, j < 8 → j ≠ k → y.fld (tsuA (rTSU_CAPC + 8 * j)) 7 0 ≠ src.toNat ∧ c.fld (tsuA (rTSU_CAPC + 8 * j)) 7 0 ≠ src.toNat) →
      y.bitAt (tsuA (rTSU_CAPC + 8 * k)) 27 = false → exec (.captureEdge src true t) s = .next c) ∧
    (s.takes q (tsuA rTSU_PPS) v false →
      let e := s.plain (tsuA rTSU_PPS) (v.setWidth 64)
      bit (s.rd (tsuA rTSU_PPS)) 31 = false →
      (bit v 31 = false → exec (.ppsConfigWrite q v) s = .next e) ∧
      (bit v 31 = true → exec (.ppsConfigWrite q v) s = .next (e.blockClaim (bits v 20 16) 3).2))

/-- R445 to R454, R458: the RTC's second, halt, time, discipline, calendar, oscillator, supplies and backup domain. -/
def Obligations.RtcCommands : Prop :=
  ∀ (s : State) (q : Requester) (t x : Nat) (v : BitVec 64) (date time : BitVec 32) (main vbat mv : BitVec 12),
    let y := s.at t
    let C := rtcA rRTC_CTRL
    let S := rtcA rRTC_STAT
    let sec := (y.rtcSec + 1) % 2 ^ 40
    let a := y.wr64 (rtcA rRTC_TIME) (BitVec.ofNat 64 (sec * 2 ^ 15))
    let z := { a with rtc := { a.rtc with sub := 0 } }
    let al := z.rd64 (rtcA rRTC_ALARM)
    let day := ((sec : Int) - z.fld (rtcA rRTC_DAY_OFS) 16 0) % 86400
    let e : Int := (y.rtcSec * 32768 + y.rtcFrac : Nat) - (y.tsuTime.sec % 2 ^ 40 * 32768 : Nat)
    let w := y.wr (rtcA rRTC_DISC_ERR) (BitVec.ofInt 32 (clampI (-(2 ^ 31)) (2 ^ 31 - 1) e))
    let D := rtcA rRTC_CAL_DATE
    let f := { y.wr D date with rtc := { y.rtc with dateBy := reqCode q } }
    (y.rtcRuns = true → y.rtc.hold = 0 → day ≠ 0 → bit al 63 = false ∨ bits al 39 0 ≠ sec → exec (.rtcSecondCarry t) s = .next z) ∧
    (y.rtcRuns = true → y.rtc.hold = 0 → day ≠ 0 → bit al 63 = true → bits al 39 0 = sec →
      exec (.rtcSecondCarry t) s = .next ((z.irq .rtc 0 0).wakeUp 1)) ∧
    (y.rtcRuns = true → y.rtc.hold = 0 → day = 0 → bit al 63 = false → exec (.rtcSecondCarry t) s =
      .next (z.putF (rtcA rRTC_WDAY) 2 0 ((z.fld (rtcA rRTC_WDAY) 2 0 + 1) % 7))) ∧
    (y.takes q C (y.rd C ||| 1) false → exec (.rtcHalt q t) s = .next (y.plain C ((y.rd C ||| 1).setWidth 64))) ∧
    (y.takes q C (y.rd C &&& ~~~1) false → y.bitAt C 0 = false → exec (.rtcResume q t) s = .next (y.plain C ((y.rd C &&& ~~~1).setWidth 64))) ∧
    (y.takes q C (y.rd C &&& ~~~1) false → y.bitAt C 0 = true → exec (.rtcResume q t) s = .next (
      let g := y.plain C ((y.rd C &&& ~~~1).setWidth 64)
      { g with rtc := { g.rtc with hold := max 1 g.rtc.hold } })) ∧
    (y.takes q (rtcA rRTC_TIME) (v.extractLsb' 0 32) (!y.bitAt C 0) → exec (.rtcTimeWrite q v t) s =
      .next ((y.setRtc (bits v 54 15) (bits v 14 0)).lanyEvent 0x13 [])) ∧
    (y.discActive = true →
      (e < 0 → exec (.rtcDiscipline t) s = .next (w.setRtc y.tsuTime.sec 0)) ∧
      (e = 0 → exec (.rtcDiscipline t) s = .next w) ∧
      (0 < e → e ≤ 32768 → exec (.rtcDiscipline t) s = .next { w with rtc := { w.rtc with hold := e.toNat } }) ∧
      (32768 < e → exec (.rtcDiscipline t) s =
        .next (((w.setRtc y.tsuTime.sec 0).putBit S 6 true).irq .rtc 0 2))) ∧
    (y.noAccess q = true → exec (.rtcCalRead q t) s = .next { y with rdata := 0 }) ∧
    (y.noAccess q = false → y.srstBusy D = true → exec (.rtcCalRead q t) s = .next { y with rdata := 0 }) ∧
    (y.noAccess q = false → y.srstBusy D = false → exec (.rtcCalRead q t) s = .next { y with
      rdata := y.calDate.setWidth 64, rtc := { y.rtc with latch := Machine.store (fun _ => 0) y.rtc.latch (reqCode q) y.calTime } }) ∧
    (y.takes q D date (!y.bitAt C 0) → f.calSecond (f.rd D) time = some x → f.takes q (rtcA rRTC_CAL_TIME) time (!f.bitAt C 0) →
      exec (.rtcCalWrite q date time t) s = .next (
        let g := (f.setRtc x 0).lanyEvent 0x13 []
        { g with rtc := { g.rtc with dateBy := 0 } })) ∧
    (exec (.oscStop t) s = .next (
      let g := (s.at (t - 4000000)).uncount (t - 4000000)
      let f := ({ g with rtc := { g.rtc with oscOff := true } } : State).at t
      ((f.putBit S 3 true).putBit S 2 false).cause .rtc 0 0)) ∧
    (exec (.oscResume t) s = .next { y with rtc := { y.rtc with oscOff := false } }) ∧
    (s.bitAt S 1 = false → 1900 ≤ vbat.toNat → main.toNat < 2600 ∨ main.toNat < vbat.toNat → exec (.switchToVbat main vbat) s =
      .next ((((s.mainAt main.toNat).bump (rtcA rRTC_BAT_CNT) 1).putBit S 1 true).irq .rtc 0 1)) ∧
    (s.bitAt S 1 = true → 2700 ≤ main.toNat → vbat.toNat + 100 ≤ main.toNat → exec (.switchToMain main vbat) s =
      .next (((s.mainAt main.toNat).putBit S 1 false).irq .rtc 0 1)) ∧
    (exec (.vbatMeasurement mv) s = .next (
      if mv.toNat < 2200 then (s.putF (rtcA rRTC_VBAT) 11 0 mv.toNat).cause .rtc 0 2 else s.putF (rtcA rRTC_VBAT) 11 0 mv.toNat)) ∧
    (exec (.backupLoss t) s = .next (
      let g := { (y.pageOff .rtc 0).pageOff .tamper 0 with rtc := Rtc.off, tamperRun := [] }
      (((g.putBit S 4 true).cause .rtc 0 1).zeroRoot).cause .tamper 0 1))

/-- R604, R615 to R636: the domains' targets, sleep and wake, power failure and return, the chip resets, the reference monitor, the boot ROM
and the firmware's start. -/
def Obligations.PowerCommands : Prop :=
  ∀ (s : State) (q : Requester) (t : Nat) (dom : Fin 17) (ret : Bool) (src : Fin 5) (addr : BitVec 7) (data : List (BitVec 8)) (mon : Bool)
    (code : Fin 8) (bad : List (Nat × Bool × Nat)) (left : Nat) (unreadable : List Nat) (ms : BitVec 32) (count left' : Nat) (ev : List Nat) (w : State),
    let y := s.at t
    let d := dom.val + 1
    let R := domReg d
    let on := s.putF R 1 0 1
    let P := pa .pwr 0 rPWR_STAT
    let W := pa .wake 0 rWAKE_CFG
    let K := pa .wake 0 rWAKE_CAUSE
    let up := ((s.setDom d 1).putBit (pa .clk 0 rCLK_STAT) (lockBit d) true).putF R 25 24 0
    let down := s.turnOff d
    let n := s.fld R 25 24
    let zz := 2 ^ 31 + ret.toNat
    let sl := s.lanyEvent 0x1D [(BitVec.ofNat 32 zz).toNat]
    let wk := s.putBit K src.val true
    let matched := s.bitAt W 7 = true ∧ s.fld W 6 0 = addr.toNat
    let kept := data.take 3
    let freed := ({ y with wakeHeld := none } : State).setTimer W 0
    let f := down.putBit R 31 true
    let dev : Int := 10 * (count : Int) - 10009766
    let rm := s.wr (pa .clk 0 rCLK_REF_DEV) (BitVec.ofInt 32 ((dev * 1000000).tdiv 10009766))
    let z := ((y.otpLoad.sysRestore.powerUp 16).powerUp 17).bootStage 1 0
    let b := w.bootStage 2 0
    (s.takes q R 1 (s.targetBad d 1 != 0) → s.bitAt R 31 = false → on.bitAt R 31 = false → on.timer R = 0 →
      (on.domSt d = 0 → exec (.domainTargetOn q dom) s = .next ((on.lose d 0).setDom d 3).domainReply) ∧
      (on.domSt d = 2 → exec (.domainTargetOn q dom) s = .next ((on.resetPages d).setDom d 3).domainReply)) ∧
    (s.takes q R 0 (s.targetBad d 0 != 0) → exec (.domainTargetOff q dom) s = .next ((s.putF R 1 0 0).turnOff d).domainReply) ∧
    (s.takes q R 2 (s.targetBad d 2 != 0) → exec (.domainTargetRet q dom) s = .next ((s.putF R 1 0 2).retain d).domainReply) ∧
    (s.domSt d = 3 →
      (d ≠ 1 → d ≠ 2 → d ≠ 11 → d ≠ 16 → exec (.domainOnComplete dom) s = .next up.domainReply) ∧
      (d = 16 → exec (.domainOnComplete dom) s = .next up.lcsStart.domainReply) ∧
      (d = 2 → exec (.domainOnComplete dom) s = .next up.wakeRelease.domainReply) ∧
      (d = 1 → exec (.domainOnComplete dom) s = .next up.sysRestore.domainReply) ∧
      (d = 11 → exec (.domainOnComplete dom) s = .next up.tsuStart.domainReply) ∧
      (n < 3 → exec (.domainOnFail dom) s = .next ((down.putF R 25 24 (n + 1)).setTimer R (down.now + 1000000 * 10 ^ n))) ∧
      (n = 3 → f.bitAt (pa .pwr 0 rPWR_FAIL_DOM) 31 = false → exec (.domainOnFail dom) s =
        .next ((((f.wr (pa .pwr 0 rPWR_FAIL_DOM) (BitVec.ofNat 32 (2 ^ 31 + d))).cause .pwr 0 0).lanyEvent 0x19 [d]).domainReply))) ∧
    (y.timer R ≠ 0 → y.timer R ≤ y.now → exec (.domainRetry dom t) s = .next ((y.setTimer R 0).turnOn d)) ∧
    (s.takes q (pa .pwr 0 rPWR_SLEEP) (BitVec.ofNat 32 zz) ((List.range 18).any (fun e => 3 ≤ e && s.domSt e ≠ 0 && s.domSt e ≠ 2)) →
      exec (.sleep q ret) s = .next (if ret then (sl.retain 2).retain 1 else sl.retain 2)) ∧
    (src.val = 4 ∧ s.bitAt P 1 = true ∨ src.val < 4 ∧ s.bitAt (pa .wake 0 rWAKE_SRC_EN) src.val = true →
      (wk.domOn 2 = true → exec (.wake src) s = .next (wk.lanyEvent 0x1B [(wk.rd K).toNat])) ∧
      (wk.domOn 2 = false → exec (.wake src) s = .next (((wk.turnOn 1).turnOn 2).wr (pa .rst 0 rRST_BOOT) 0))) ∧
    (matched → s.domOn 2 = false → s.timer W = 0 → exec (.wakePortMatch addr ret data) s =
      .next (({ s.setTimer W (s.now + 2000000) with wakeHeld := some (ret, data) } : State).wakeUp 0)) ∧
    (matched → s.domOn 2 = true → exec (.wakePortMatch addr true data) s =
      .next { s with rdata := BitVec.ofNat 64 (s.fld (pa .wake 0 rWAKE_REPLY) 7 0) }) ∧
    (matched → s.domOn 2 = true → data ≠ [] → exec (.wakePortMatch addr false data) s =
      .next ((s.wr (pa .wake 0 rWAKE_MSG) (BitVec.ofNat 32 (kept.length * 2 ^ 30 + leNat kept))).irq .wake 0 0)) ∧
    (y.timer W ≠ 0 → y.timer W ≤ y.now → freed.domOn 2 = false → exec (.wakeStretchTimeout t) s =
      .next ((freed.putBit K 8 true).cause .wake 0 0)) ∧
    (y.bitAt P 0 = false → y.bitAt (pa .pwr 0 rPWR_PF_CFG) (if mon then 31 else 30) = true → exec (.powerFail mon t) s = .next y.powerFail) ∧
    (y.bitAt P 0 = true → y.bitAt P 1 = false → exec (.powerFailDone t) s =
      .next ((List.range 15).foldl (fun (s : State) i => s.turnOff (i + 3)) ((y.putBit P 1 true).setTimer P (y.now + 10000000)))) ∧
    (y.bitAt P 1 = true → y.timer P ≤ y.now → exec (.powerReturn t) s = .next (y.chipReset 7)) ∧
    exec .powerOnReset s = .next s.powerOn ∧
    exec .resetPin s = .next (s.chipReset 1) ∧
    (s.takes q (pa .rst 0 rRST_CTRL) 0x800052A5 false → exec (.rstChip q) s = .next (s.chipReset 5)) ∧
    (exec (.chipReset 0 t) s = .next y.powerOn) ∧
    (code ≠ 0 → y.timer resetKey ≠ y.now + 1 → code ≠ 3 ∨ y.resetReady = true →
      exec (.chipReset code t) s = .next ((y.chipReset code.val).setTimer resetKey (y.now + 1))) ∧
    (code ≠ 0 → y.timer resetKey = y.now + 1 → exec (.chipReset code t) s = .next (y.resetAlso code.val)) ∧
    (s.domOn 1 = true → s.bitAt (pa .clk 0 rCLK_REF_MON) 31 = true → exec (.refMonitorWindow count) s = .next (
      if (rm.fld (pa .clk 0 rCLK_REF_MON) 11 0 : Int) * 10009766 < dev.natAbs * 1000000 then (rm.setRefOk false).clkCause 0 else rm.setRefOk true)) ∧
    (s.domOn 1 = true → exec .refLost s = .next ((s.setRefOk false).clkCause 1)) ∧
    (y.domOn 2 = true → y.bootAt < 3 → y.lcs ≠ 4 →
      z.copyKinds (fun k second i => bad.contains (k, second, i)) [1, 2, 3] left = (some left', ev, w) →
      (b.startOk activeArea 1 false = true → exec (.boot bad left t) s = .next (b.handover false ev)) ∧
      (b.startOk activeArea 1 false = false → b.startOk 0 1 true = true → exec (.boot bad left t) s = .next (b.handover true ev)) ∧
      (b.startOk activeArea 1 false = false → b.startOk 0 1 true = false → exec (.boot bad left t) s = .next b.romWait)) ∧
    ((y.boot bad left).lanyRuns = true → (y.boot bad left).lany.started = false →
      exec (.startUp bad left unreadable ms t) s = .next ((y.boot bad left).firmwareStart unreadable ms))

/-- R498, R503, R506 to R520: STORE's start, scan, requests, slots and the ends of programs, reads, releases, erases, copies, journal pages and
scrub reads; a slot's own clauses are those of a target whose map word reads well. -/
def Obligations.NandCommands : Prop :=
  ∀ (s : State) (q : Requester) (t : Nat) (tg : Fin 32) (us : List Nat) (ms : BitVec 32) (n : BitVec 13) (entry : BitVec 8) (ok : Bool)
    (corr : Fin 65) (x : NandRun) (r r' : NandReq) (lay port comp : Nat) (c : Cell512) (a : Bool) (u w z : State) (e : NandEntry) (k p : Nat)
    (b : Block) (l : Reloc) (g : PageRec),
    let y := s.at t
    let B := nandA 0x00C
    let S := nandA rNAND_STAT
    let T := tg.val
    let rescan := s.nand.rescan.filter (· ≠ T)
    let up := s.domOn 15 = true ∧ s.bitAt B 0 = true
    let v := s.endRun x
    let blk := v.blk x.block
    let q1 := nandReqOf u.pairMode n.toNat u.now c
    let m := e.chan * 8 + e.target
    let op := q1.op
    let served := (q1.bad = true → u.rig.nand.any (fun e => e.cls = classOf op && e.lay = lay && e.port = port) = true)
    let ordered := if y.nand.odd then (List.range y.positions.length).reverse else List.range y.positions.length
    (s.takes q B 1 false → s.bitAt B 0 = false → exec (.nandInit q) s = .next (s.putBit B 0 true).nandInit) ∧
    (up → s.bitAt S 0 = true → exec (.nandScan none us) s = .next (s.scanAll us) ∧ exec (.nandScan (some tg) us) s = .next (s.nandScan [T] us)) ∧
    (up → exec (.nandScanDone none ms) s = .next (s.scanDone ms)) ∧
    (up → s.bitAt (nandA 0x01C) 31 = false ∨ s.bitAt (nandA 0x01C) 1 = false → exec (.nandScanDone (some tg) ms) s =
      .next ((s.setNand { s.nand with rescan := rescan }).putBit S 5 (decide (rescan ≠ []))).freeChanged) ∧
    (s.nandPort n.toNat = some (lay, port, comp) → s.nandReady = true → s.nand.queue.countP (fun r => r.splice = n.toNat) < 32 →
      s.pop n.toNat = (some (c, a), u) → served →
      (q1.bad = true ∨ op ≠ 1 → exec (.nandRequestPop n) s = .next (u.setNand { u.nand with queue := u.nand.queue ++ [q1] })) ∧
      (q1.bad = false → op = 1 → u.fetchImage q1 = (r, w) → exec (.nandRequestPop n) s =
        .next (w.setNand { w.nand with queue := w.nand.queue ++ [r] }))) ∧
    (s.nandReady = true → s.rig.frames = true → s.bitAt S 3 = false → exec .nandFramePeriod s =
      .next { s with nand := { s.nand with taken := [], odd := !s.nand.odd }, rig := { s.rig with nandDone := [] } }) ∧
    (y.nandReady = true → y.rig.frames = true → y.bitAt S 3 = true → exec .nandFramePeriod y = .next (
      let need (p : Nat) : Bool := match y.rig.nand[y.positions.getD p 0]? with
        | some e => y.needsGc (e.chan * 8 + e.target)
        | none => false
      let prev := 0 < y.positions.length && y.nand.taken.contains (y.positions.length - 1)
      { y with nand := { y.nand with taken := takeGreedy need prev y.positions.length ordered [], odd := !y.nand.odd }
               rig := { y.rig with nandDone := [] } })) ∧
    (y.nandReady = true → y.rig.frames = true → y.bitAt (pa .pwr 0 rPWR_STAT) 0 = false → y.rig.nand[entry.toNat]? = some e →
      y.nandDue entry.toNat = true → (y.nandPast entry.toNat).mapRead m = (false, w) → m ∉ w.nand.rescan → m ∈ w.nandTargets →
      (e.cls = 1 → w.nand.taken.contains (w.positions.idxOf entry.toNat) = true → w.startErase m = some z →
        exec (.nandSlot entry t) s = .next (z.nandCount 11)) ∧
      (1 < e.cls ∨ w.nand.taken.contains (w.positions.idxOf entry.toNat) = false → e.cls ≤ 3 → w.port e.lay 1 e.port = some (k, comp) →
        w.nand.queue.find? (fun r => r.splice = k && classOf r.op = e.cls && r.popped + 100000 ≤ w.now && !w.rescanWaits r) = some r → r.bad = false →
        (e.cls = 2 → exec (.nandSlot entry t) s =
          .next ((w.setNand { w.nand with queue := w.nand.queue.erase r }).startRun ⟨m, 2, some r, 0⟩)) ∧
        (e.cls ≠ 2 → w.takeProgram m r = some z → exec (.nandSlot entry t) s = .next z)) ∧
      (e.cls = 4 → e.chan ∈ w.nand.journal → w.openLog m 7 = some (k, z) → exec (.nandSlot entry t) s = .next (z.startRun ⟨m, 7, none, k⟩)) ∧
      (e.cls = 4 → e.chan ∉ w.nand.journal → w.startSalvage m = some z → exec (.nandSlot entry t) s = .next z) ∧
      (e.cls = 4 → e.chan ∉ w.nand.journal → w.startSalvage m = none → w.startCopy m = some z → exec (.nandSlot entry t) s = .next z) ∧
      (e.cls = 5 → w.startErase m = some z → exec (.nandSlot entry t) s = .next z) ∧
      (6 ≤ e.cls → exec (.nandSlot entry t) s = .next (w.startRun ⟨m, 6, none, 0⟩))) ∧
    (s.runOf T (fun r => r.cls = 1 || r.cls = 3 || r.cls = 9) = some x → x.req = some r →
      (exec (.nandProgramComplete tg false ok corr) s = .next (v.programFailed x r false)) ∧
      (v.fld (nandA rNAND_ECC) 7 0 < corr.val → exec (.nandProgramComplete tg true ok corr) s = .next (v.programFailed x r true)) ∧
      (corr.val ≤ v.fld (nandA rNAND_ECC) 7 0 → exec (.nandProgramComplete tg true true corr) s = .next (
        (v.writePage x.block (if r.op = 2 then tornRecords r else r.user) none r.image).nandDone r 0 (blk.lbn.getD 0) blk.pages.length v.nand.seq
          T corr.val))) ∧
    (s.nand.queue.find? (fun r => r.splice = n.toNat && r.op = 2 && !r.bad) = some r → r.tries < 4 → s.fetchCheckpoint r = (r', w) →
      exec (.checkpointFetch n) s = .next (w.setNand { w.nand with queue := w.nand.queue.replace r r' })) ∧
    (s.storeTurn = true → s.runOf T (fun x => x.req.any (fun r => r.op = 3)) = some x → x.req = some r →
      exec (.nandReadComplete tg ok corr) s = .next (v.readDone T r ok corr.val)) ∧
    (s.runOf T (fun x => x.req.any (fun r => r.op = 4)) = some x → x.req = some r →
      v.lbnBlock r.lbn = some (k, b) → b.st ≠ .opened →
      exec (.nandRelease tg) s = .next (
        let w := if v.pairMode && v.peerReady && decide (b.stream ≤ 1) then v.pairSend 6 (toBe 4 r.lbn) false else v
        (w.releaseLive k).nandDone r 0 r.lbn 0 0 T 0)) ∧
    (s.runOf T (fun x => x.cls = 5) = some x → exec (.nandEraseComplete tg false) s = .next (((v.nandCount 3).cause .nand 0 4).growBad x.block)) ∧
    (s.runOf T (fun x => x.cls = 5) = some x → exec (.nandEraseComplete tg true) s = .next (
      let w := (v.eraseBlock x.block).setBlk x.block { Block.fresh with erases := blk.erases + 1 }
      ((w.nandCount 9).freeChanged).wearLevel T)) ∧
    (s.runOf T (fun x => x.cls = 8) = some x → v.nand.reloc.find? (fun r => r.src = x.block) = some l → l.dst = some k →
      (v.blk l.src).pages[l.copied]? = some g → l.copied + 1 < (v.blk l.src).pages.length →
      exec (.relocationCopy tg) s = .next (
        let w := v.writePage k g.user (some g.ord) (v.bytes .nand (pageAddr l.src l.copied) 16384)
        w.setNand { w.nand with reloc := w.nand.reloc.replace l { l with copied := l.copied + 1 } })) ∧
    (s.runOf T (fun x => x.cls = 7) = some x → exec (.journalProgram tg) s = .next (
      let i := v.badEntries (T / 8)
      let w := v.writePage x.block 0 none ((toLe 4 i.length ++ i.flatMap (toLe 4) ++ List.replicate 16384 0).take 16384)
      let w := w.setNand { w.nand with journal := w.nand.journal.filter (· ≠ T / 8) }
      (w.oldJournals (T / 8) x.block).foldl (fun (w : State) k => w.releaseBlk k) w)) ∧
    (s.runOf T (fun x => x.cls = 6) = some x →
      ((v.writtenPages T).find? (fun p => look (fun _ => 0) v.nand.scrub T ≤ p)).or (v.writtenPages T).head? = some p →
      let w := (v.setNand { v.nand with scrub := Machine.store (fun _ => 0) v.nand.scrub T (p + 1) }).nandCount 7
      (corr.val < w.fld (nandA rNAND_ECC) 15 8 → exec (.nandScrubRead tg false corr) s = .next w) ∧
      (w.fld (nandA rNAND_ECC) 15 8 ≤ corr.val → exec (.nandScrubRead tg false corr) s = .next (w.queueReloc (p / 1024))) ∧
      exec (.nandScrubRead tg true corr) s = .next ((w.pageUe true (p / 1024) (p % 1024)).queueReloc (p / 1024))) ∧
    (s.nandReady = true → exec .nandFull s = .next s.fullCheck) ∧
    (y.domOn 15 = true → y.bitAt B 0 = true → y.timer (nandA rNAND_TEMP_SRC) ≤ y.now → exec (.nandTempSample t) s = .next (
      (y.nandTargets.foldl (fun (s : State) t => s.tempMinuteOf t) y).setTimer (nandA rNAND_TEMP_SRC)
        (y.timer (nandA rNAND_TEMP_SRC) + 60000000000)))

/-- R474, R483 to R486, R530 to R534, R538, R540, R599 to R609, R632: the mailbox's requests in service with a body in its form, the next request,
a Lanyard-facing splice's cell, and a lockstep mismatch. -/
def Obligations.MailboxCommands : Prop :=
  ∀ (s : State) (m : MailReq) (addr len : Nat) (u : State) (src : Option (BitVec 34)) (heads : List (BitVec 20 × BitVec 3)) (r : Nat × Nat × Option (Nat × Nat))
    (op : BitVec 4) (slot : BitVec 12) (arg mask label gen bIn bOut : BitVec 32) (ctx : BitVec 64) (chal req : Bool) (target : BitVec 3) (good : BitVec 2)
    (hash : BitVec 384) (nf ff ok : Bool) (kind : Fin 4) (sl : Fin 64) (n : BitVec 13) (c : Cell512) (a : Bool) (cs : List Cell512)
    (k : Nat) (at_ : List (Nat × Nat)),
    let served := fun (c : Nat) => s.lany.mail = some m ∧ s.normalRuns = true ∧ m.req = c ∧ m.begun = false
    let w := leNat (m.body.take 8)
    let word := fun (c mask : Nat) => served c ∧ m.body.length = 8 ∧ w &&& mask = w
    let f := ({ s with rig := { s.rig with failed := (0, 0, 0, 0) } } : State).rigLoad true addr len
    let id := 16 * nbits w 2 0 + nbits w 11 8
    let rest := s.lany.kept.filter (· ≠ id)
    let K := pa .key 0 rKEY_STAT
    let cmd : Word32 := BitVec.ofNat 32 (2 ^ 31 + op.toNat * 2 ^ 24 + slot.toNat)
    let args := ([(rKEY_ARG, arg), (rKEY_MASK, mask), (rKEY_LABEL, label), (rKEY_GEN_IN, gen), (rKEY_BUF_IN, bIn), (rKEY_BUF_OUT, bOut)] :
      List (Nat × BitVec 32)).foldl (fun (s : State) r => s.lanyWrite (pa .key 0 r.1) r.2) s
    let key := (((args.plain (pa .key 0 rKEY_CONTEXT) ctx).keyCmd .normal cmd).endJob K).irq .key 0 0
    let lv : Word32 := BitVec.ofNat 32 (req.toNat * 2 ^ 31 + chal.toNat * 2 ^ 30 + target.toNat)
    let lc := s.lcsCtrl .safe lv good
    let lr := lc.fld (lcsA rLCS_STAT) 2 0
    let otp := (List.range 12).foldl (fun (s : State) i =>
      s.lanyWrite (lcsA (rLCS_OTP_DATA + 4 * i)) (BitVec.ofNat 32 (leAt (toBe 48 hash.toNat) (4 * i) 4))) s
    let H := wdA rWDG_HOST_CFG
    let win := nbits w 31 16
    let heads' := (if src.isNone then heads.take 1 else heads).zipIdx.map (fun h => (h.2, (h.1.1.toNat, h.1.2.toNat)))
    let dom := nbits w 4 0
    let tgt := nbits w 9 8
    let st := s.resumeSt (kind.val + 1)
    let np := if st = 0 then 0 else s.die.le .fram (resumeAt (kind.val + 1) + 0x10) 2
    let rs := ((runsOf ((List.range np).filter (fun i => !s.resBit (kind.val + 1) 0x080 i))).take 200).map (fun r => r.1 + r.2 * 2 ^ 16)
    let man := s.manifestAt (recvAt 4)
    (served 1 → m.body = [] → exec .mbStatus s = .next ((s.capacity 0).2.reply 0 0
      [laysMask (fun n => (s.capacity 0).2.domOn (3 + n) && (s.capacity 0).2.laySt n = 3) +
          laysMask (fun n => (s.capacity 0).2.domOn (3 + n) && (s.capacity 0).2.laySt n = 4) * 2 ^ 8 +
          laysMask (fun n => !(s.capacity 0).2.domOn (3 + n)) * 2 ^ 16 + (s.capacity 0).2.lcs * 2 ^ 24,
        (s.capacity 0).2.fld (seA rSENS_T_ALARM) 11 0 + (s.capacity 0).2.fld (seA rSENS_V_ALARM) 19 0 * 2 ^ 32, (s.capacity 0).1,
        ((s.capacity 0).2.rd64 (pa .fc 0 rFC_STATUS)).toNat, if (s.capacity 0).2.netOn then (s.capacity 0).2.timeProperties else 0])) ∧
    (served 0x10 → s.hostTurn = false → exec (.mbRiggingLoad addr len) s = .next s) ∧
    (served 0x10 → s.hostTurn = true → (f.rig.failed.1 = 0 → f.rig.waiting = true ∨ f.rig.stopping = true → exec (.mbRiggingLoad addr len) s = .next f.mailBegun) ∧
      (f.rig.failed.1 = 0 → f.rig.waiting = false → f.rig.stopping = false → exec (.mbRiggingLoad addr len) s = .next (f.reply 0 0 [])) ∧
      (f.rig.failed.1 ≠ 0 → exec (.mbRiggingLoad addr len) s = .next (f.reply 3 f.rig.failed.1 []))) ∧
    (word 0x11 0xF07 → s.returnStrand (nbits w 2 0) (nbits w 11 8) true = some u → exec .mbStrandReturn s = .next (u.reply 0 0 [])) ∧
    (word 0x12 0x10F07 → exec .mbStrandKeepOut s = .next
      (({ s with lany := { s.lany with kept := if w.testBit 16 then rest ++ [id] else rest } } : State).reply 0 0 [])) ∧
    (served 0x20 → s.domOn 14 = true → s.hostTurn = true → s.rosterFrom m.body (src.map (·.toNat)) (fun i => s.meterValid i) heads' = (r, u) →
      (r.2.2 = none → exec (.mbRoster src heads) s = .next (u.reply 0 0 [r.1, 0, 0])) ∧
      (∀ i st, r.2.2 = some (i, st) → st ≠ 0 → exec (.mbRoster src heads) s =
        .next (u.reply (if r.1 = 0 then 3 else 0) (st % 2 ^ 64) [r.1, r.2.1, i]))) ∧
    (served 0x30 → op.toNat < 3 ∨ 5 < op.toNat ∨ s.hostTurn = true → s.refusal .normal (pa .key 0 rKEY_CMD) true cmd false (s.bitAt K 31) = none →
      exec (.mbKey op slot arg mask label gen bIn bOut ctx) s = .next (key.reply (if key.fld K 3 0 = 0 then 0 else 3) (key.fld K 3 0) [])) ∧
    (served 0x31 → s.takes .safe (lcsA rLCS_CTRL) lv false → exec (.mbLifeCycle chal req target good) s =
      .next (lc.reply (if (req = false ∧ chal = false) ∨ lr = 0 then 0 else if lr = 1 then 4 else 3) lr [])) ∧
    (served 0x32 → m.body = [] → s.lcs ≠ 4 → s.takes .safe (lcsA rLCS_CTRL) 0x20000000 (s.root.id ≠ 0 || s.tamperBars || !s.drbgOk) →
      exec .mbRootNew s = .next ((s.lcsCtrl .safe 0x20000000 3).reply 0 0 [])) ∧
    (served 0x33 → s.lcs ≤ 1 → s.takes .normal (lcsA rLCS_OTP_CMD) (BitVec.ofNat 32 (2 ^ 31 + target.toNat)) (s.otpHas target.toNat) →
      exec (.mbOtpProgram target hash) s = .next ((otp.otpCmd .normal (BitVec.ofNat 32 (2 ^ 31 + target.toNat))).reply 0 0 [])) ∧
    (served 0x40 → s.takePiece (m.body.drop 8) nf ff = (k, u) →
      (k = 0 → exec (.updatePiece nf ff) s = .next (u.reply 0 0 [])) ∧
      (k ≠ 0 → k ≠ 255 → exec (.updatePiece nf ff) s = .next (u.reply 3 k []))) ∧
    (served 0x40 → exec (.updateStatus kind) s = .next (s.reply 0 0
      ([st, if st = 0 then 0 else s.die.le .fram (resumeAt (kind.val + 1) + 8) 8, np] ++
        (List.range ((rs.length + 1) / 2)).map (fun i => rs.getD (2 * i) 0 + rs.getD (2 * i + 1) 0 * 2 ^ 32)))) ∧
    (served 0x40 → exec .updateActivate s = .next (((s.reply 0 0 []).flushNow).rstCtrl .normal 0x800052A5)) ∧
    (served 0x40 → s.resumeSt 4 = 1 → s.groupsDone 4 = true → (∀ c ∈ s.camps, c.slot ≠ sl.val) → s.rig.running = true → s.domOn 14 = true →
      s.domOn 15 = true → s.storeImage (imagePages (s.bytes .nor (recvAt 4 + 0x10000) (Machine.u man 0x18 4))) [] = some (at_, u) →
      exec (.updateImageStore sl ff) s = .next (
        let x : SlotImage := ⟨(man.drop 0x20).take 32, Machine.u man 8 8, Machine.u man 0x18 4, at_⟩
        (({ u with images := place sl.val x (Machine.drop u.images sl.val) } : State).setResumeSt 4 3 ff).reply 0 0 [])) ∧
    (served 0x41 → exec (.settingsSave true) s = .next ((s.settingsWrite s.settingsNow true).reply 0 0 [])) ∧
    (served 0x41 → exec .settingsDefaults s = .next (s.settingsReset.reply 0 0 [])) ∧
    (word 0x50 0x31F → 0 < dom → dom ≤ 17 → tgt ≠ 3 → s.targetBad dom tgt = 0 → exec .mbDomain s =
      .next (((s.lanyEvent 0x1E [w]).mailBegun).pwrDom .normal dom (BitVec.ofNat 32 tgt))) ∧
    (served 0x70 → m.body = [] → exec .mbHealth s = .next (s.reply 0 0 s.lifetime.words)) ∧
    (word 0x80 0x1FFFFFFFF → 100 ≤ nbits w 15 0 → nbits w 15 0 ≤ 60000 → win < nbits w 15 0 →
      s.lcs ≠ 2 ∨ s.bitAt H 31 = false ∨ (w.testBit 32 = true ∧ nbits w 15 0 ≤ s.fld H 15 0) →
      s.takes .safe (wdA rWDG_HOST_WIN) (BitVec.ofNat 32 win) false →
      exec .mbWdogSet s = .next (((s.plain (wdA rWDG_HOST_WIN) (BitVec.ofNat 64 win)).hostCfg .safe
        (BitVec.ofNat 32 (nbits w 15 0 + (nbits w 32 32) * 2 ^ 31))).reply 0 0 [])) ∧
    (s.normalRuns = true → s.lany.mail = none → s.takeMessage 21 6144 512 = ([], c :: cs, u) → (∀ d ∈ c :: cs, cellTaint d = false) →
      (c :: cs).length ≤ 64 → reqKnown (cellChan c) = true → exec .mailboxRequest s = .next { u with lany := { u.lany with
        mail := some ⟨cellChan c, cellAux c, (c :: cs).flatMap (fun c => cellBytes c (min 56 (cellLen c))), false⟩ } }) ∧
    (s.normalRuns = true → 6208 ≤ n.toNat → n.toNat < 6336 → s.fld (descA n.toNat 1) 12 8 = 0x15 → s.pop n.toNat = (some (c, a), u) →
      exec (.lanyardSplicePop n ok nf ff) s = .next (u.lanyCell n.toNat c ok nf ff)) ∧
    (s.domOn 2 = true → s.bitAt (wdA rLNY_STAT) 0 = false → exec .lockstepMismatch s =
      .next ((s.putBit (wdA rLNY_ERR) 2 true).putBit (wdA rLNY_STAT) 0 true))

/-- R569 to R578, R592, R593: the cleat's and the link's commands; a frame is one that verifies under a counter above the last, on a link that works,
with no armed buffer error. -/
def Obligations.PairRoleCommands : Prop :=
  ∀ (s : State) (q : Requester) (t : Nat) (pref up : Bool) (h : PairHead) (b : HelloBody) (v : State) (rseq epoch : BitVec 32) (lane : Fin 2) (at0 : Nat),
    let y := s.at t
    let L := leA rLEASE_CTRL
    let P := prA rPAIR_STAT
    let C := prA rPAIR_HOST_CMD
    let z := y.pairLoadKey
    let heard := fun (type : Nat) (body : List Byte) => z.pairOn = true ∧ z.inject .pair 0 3 4 = (0, v) ∧ v.pairGood h type body = true ∧
      (h.session.toNat ≠ v.pair.peerSession ∨ v.pair.peerCtr < h.fctr.toNat)
    let e := { v with pair := { v.pair with peerSession := h.session.toNat, peerCtr := h.fctr.toNat } }
    let hw := e.view (pa .chip 0 rCHIP_HWTYPE)
    let fit := e.rd (nandA rNAND_FIT)
    let e1 := (({ e with pair := { e.pair with seen := some e.now, peer := some b, told := false } } : State).wr
      (leA rLEASE_PEER_EPOCH) b.epoch).wr64 (prA rPAIR_PEER_SERIAL) b.serial
    let e2 := e1.putBit P 3 false
    let r := e.wr (leA rLEASE_PEER_EPOCH) epoch
    let g := e.pairCount 1
    let en : Word32 := BitVec.ofNat 32 (1 + 2 * pref.toNat)
    let off : Word32 := BitVec.ofNat 32 (2 * pref.toNat)
    let sent := (z.setTimer P (z.now + 20000000)).pairSend 1 (helloBytes (z.setTimer P (z.now + 20000000)).ownHello) false
    let hello := heard 1 (helloBytes b)
    let renew := heard 2 (toBe 4 rseq.toNat ++ toBe 4 epoch.toNat)
    let settle := fun (s : State) => if s.peerReady then s else s.failOutstanding
    let start := { y with pair := { y.pair with expiry := 0, test := none, salvage := none } }
    let down := !s.linkUp || s.pair.peer.any (fun p => p.role.val = 5)
    (s.pairEn = false → s.takes q L en false → exec (.leaseEnable q pref) s = .next ((s.plain L (en.setWidth 64)).setRole 1)) ∧
    (s.pairEn = true → s.role = 1 ∨ s.role = 5 → s.takes q L off false →
      exec (.leaseDisable q pref) s = .next ((s.plain L (off.setWidth 64)).setRole 0)) ∧
    (z.pairOn = true → z.timer P ≤ z.now → sent.pair.catchup = none → exec (.helloSend t) s = .next sent) ∧
    (hello → hw = b.hwtype → fit = b.fit → e2.linkUp = true → exec (.hello h b t) s = .next ((settle e2).helloActs b)) ∧
    (hello → hw = b.hwtype → fit = b.fit → e2.linkUp = false → exec (.hello h b t) s =
      .next ((settle ((((e2.putBit P 2 true).irq .pair 0 0).newSession).lanyEvent 0x55 [])).helloActs b)) ∧
    (hello → hw ≠ b.hwtype ∨ fit ≠ b.fit → e1.bitAt P 3 = false → ((((e1.cause .pair 0 2).lanyEvent 0x57 []).putBit P 3 true).linkUp = true) →
      exec (.hello h b t) s = .next (settle (((e1.cause .pair 0 2).lanyEvent 0x57 []).putBit P 3 true))) ∧
    (y.domOn 11 = true → (∀ x, y.pair.seen = some x → x + 100000000 ≤ y.now) → y.bitAt P 2 = true → exec (.pairLinkDown t) s =
      .next ((((((y.putBit P 2 false).irq .pair 0 0).lanyEvent 0x54 []).clearLink).failOutstanding).salvageBroken y.pair.salvage.isSome)) ∧
    (s.domOn 11 = true → s.bitAt (prA 0x00C) 0 = true → s.bitAt (prA rPAIR_CTRL) (lane.val + 1) = true →
      exec (.laneDown lane true) s = .next (s.putBit P lane.val true)) ∧
    (s.domOn 11 = true → s.bitAt P lane.val = true → exec (.laneDown lane false) s = .next (
      let d := (s.putBit P lane.val false).cause .pair 0 0
      if d.lanesUp = [] then d.linkDown else d)) ∧
    (y.role = 2 → y.leaseDue = false → (∀ x ∈ y.pair.renews, x.2 + 500000000 ≤ y.now) → exec (.renewSend t) s = .next y.renew) ∧
    (y.role = 2 → y.leaseDue = true → exec (.renewSend t) s = .next (y.fence false) ∧ exec (.leaseExpiry t) s = .next (y.fence false)) ∧
    (renew → r.role = 3 → r.epoch ≤ epoch.toNat → exec (.renew h rseq epoch t) s = .next (r.grant rseq.toNat)) ∧
    (renew → r.role = 1 → r.epoch ≤ epoch.toNat → exec (.renew h rseq epoch t) s = .next (r.enterStandby.grant rseq.toNat)) ∧
    (renew → r.role = 2 ∨ r.role = 4 → r.epoch ≤ epoch.toNat → exec (.renew h rseq epoch t) s = .next (r.fence true)) ∧
    (heard 3 (toBe 4 rseq.toNat) → e.role = 2 → e.leaseDue = false → g.pair.renews.find? (fun e => e.1 = rseq.toNat) = some (rseq.toNat, at0) →
      g.pair.granted < rseq.toNat → exec (.grant h rseq t) s =
        .next { g with pair := { g.pair with
          granted := rseq.toNat, expiry := at0 + 2000000000, grantAt := some g.now, renews := g.pair.renews.filter (fun e => decide (rseq.toNat ≤ e.1)) } }) ∧
    (y.role = 3 → 0 < y.pair.expiry → y.pair.expiry ≤ y.now → exec (.takeoverTime up t) s = .next (
      ([3, 4, 5, 6, 7, 8, 9, 10, 14, 16, 12, 13, 17] : List Nat).foldl (fun (s : State) d => s.turnOn d)
        ((((start.setRole 4).stopAll).newEpoch up).2.lanyEvent 0x52 []))) ∧
    (y.role = 4 → (y.rd (leA rLEASE_PEER_EPOCH)).toNat < y.epoch → y.normalRuns = true → exec (.takeoverComplete t) s = .next y.takeoverEnd) ∧
    (s.role = 1 ∨ s.role = 5 → down = true → s.takes q C 0x80000001 false → exec (.forceActive q false) s = .next (s.newEpoch false).2.becomeActive) ∧
    (s.role = 5 → s.takes q C 0x80000002 false → exec (.stayOut q) s = .next { s with pair := { s.pair with stayOut := true } }) ∧
    (s.takes q C 0x80000003 false → exec (.rejoin q) s = .next { s with pair := { s.pair with stayOut := false } })

/-- R579 to R583, R588 to R591, R610: mirrored and returned pages, limits, settings, health and the standby's test over a link that works (frames as in
PairRoleCommands), and a meter image campaign's steps. -/
def Obligations.MirrorAndCampaignCommands : Prop :=
  ∀ (s : State) (t k : Nat) (h : PairHead) (v u : State) (p : PairPage) (last refused pass : Bool) (ck : Option (BitVec 16)) (piece : List (BitVec 8)) (X : NandRun) (E : Mirrored)
    (lbn : BitVec 18) (page : BitVec 10) (o : PairSent) (l : List (Nat × Nat)) (b : Block) (i : Fin 10) (limit off : BitVec 32) (set : Settings)
    (body : List (BitVec 8)) (n : Nat) (slot cmd ring : Fin 64) (c0 : Cell512) (cs0 : List Cell512) (out : BitVec 13) (meters : List (BitVec 20 × BitVec 13 × Fin 4)) (block : BitVec 11)
    (key : BitVec 8) (rounds : BitVec 5) (gap : BitVec 13) (act : BitVec 48) (img : SlotImage) (ms : List (Nat × CampMeter)) (c : Camp)
    (held : List (BitVec 20 × List (BitVec 16))) (took : List (BitVec 20 × List (BitVec 16 × Fin 4))) (verify : List (BitVec 20 × Fin 4))
    (meter : BitVec 20) (m m' : CampMeter) (ans : Fin 4) (answers : List (BitVec 20 × Bool)) (x : Nat) (xs : List Nat) (w : State),
    let y := s.at t
    let z := s.pairLoadKey
    let heard := fun (type : Nat) (body : List Byte) => z.pairOn = true ∧ z.inject .pair 0 3 4 = (0, v) ∧ v.pairGood h type body = true ∧
      (h.session.toNat ≠ v.pair.peerSession ∨ v.pair.peerCtr < h.fctr.toNat)
    let e := { v with pair := { v.pair with peerSession := h.session.toNat, peerCtr := h.fctr.toNat } }
    let pieces := if off.toNat = 0 then [] else e.pair.pieces
    let g := e.pairCount 4
    let dest := (lbn.toNat, page.toNat)
    let waits := g.pair.out.find? (fun o => o.lbn = lbn.toNat && o.page = page.toNat)
    let got := { g with pair := { g.pair with out := g.pair.out.erase o } }
    let f (o n : Nat) : Nat := leNat ((body.drop o).take n)
    let H := prA rPAIR_HEALTH_DST
    let hs := (y.setTimer H (y.now + 1000000000)).pairSend 9 y.healthBody false
    let dst := hs.rd (prA rPAIR_HEALTH_DST)
    let tn := y.pair.nextTest % 8
    let ts := { y with pair := { y.pair with test := some tn, testAt := y.pair.testAt + 600000000000 } }
    let te := { s with pair := { s.pair with test := none, nextTest := (n + 1) % 8, passed := if pass then s.pair.passed ||| 2 ^ n else clearBitN s.pair.passed n,
                                             failed := if pass then clearBitN s.pair.failed n else s.pair.failed ||| 2 ^ n } }
    let sv := ({ s with pair := { s.pair with salvage := none }, passes := [] } : State).setSolo none
    let joined := meters.foldl (fun (p : List (Nat × CampMeter) × State) m =>
      if !p.2.meterValid m.1.toNat ∨ p.1.any (fun e => e.1 = m.1.toNat) then p
      else match p.2.campJoin slot.val ring.val block.toNat img.len m.1.toNat m.2.1.toNat m.2.2.val with
        | (some e, s) => (p.1 ++ [e], s)
        | (none, s) => (p.1, s)) (([] : List (Nat × CampMeter)), v.hostSpend cmd.val ring.val)
    let c2 : Camp := { c with sent := c.sent ++ [out.toNat * 65536 + x], due := Machine.store (fun _ => 0) c.due out.toNat (y.now + c.gap) }
    let s2 := y.broadcastBlock c2 out.toNat (Config.dlmsBytes [18, 2, c.slot, c.key, x, c.block])
    let ends := fun (s : State) (x : Nat × CampMeter) =>
      let s := s.toMeter x.1 1 x.2.out [18, 4]
      match answers.find? (fun a => a.1.toNat = x.1) with
      | some (_, true) => s.campEnd c.slot c.ring x.1 x.2 6 0
      | some (_, false) => s.campEnd c.slot c.ring x.1 x.2 7 5
      | none => s.campEnd c.slot c.ring x.1 x.2 7 3
    (e.role = 3 →
      (heard 4 (pagePlain p) → (e.pairCount 3).mirror 4 p ck false = some u → exec (.page h p ck) s = .next u) ∧
      (heard 4 (pagePlain p) → (e.pairCount 3).mirror 4 p ck false = none → exec (.page h p ck) s =
        .next ((e.pairCount 3).verified p.lbn.toNat p.page.toNat 1)) ∧
      (heard 6 (toBe 4 lbn.toNat) → e.lbnBlock lbn.toNat = some (k, b) → exec (.pairRelease h lbn) s = .next (e.releaseLive k)) ∧
      (heard 7 (toBe 1 i.val ++ toBe 4 limit.toNat) → exec (.reserve h i limit) s =
        .next ((e.reserve (0x1F2100 + 16 * i.val) limit.toNat).verified (2 ^ 32 - 1) i.val 0)) ∧
      (heard 8 (toBe 4 off.toNat ++ piece) → off.toNat % 1024 = 0 → pieces.length = off.toNat →
        (settingsBody set = pieces ++ piece → exec (.settings h off piece (some set) pass) s =
          .next (((e.setPieces (pieces ++ piece)).setPieces []).settingsWrite set pass)) ∧
        (settingsBody set ≠ pieces ++ piece → exec (.settings h off piece (some set) pass) s = .next (e.setPieces (pieces ++ piece))) ∧
        exec (.settings h off piece none pass) s = .next (e.setPieces (pieces ++ piece))) ∧
      (heard 0x0A (pagePlain p) → e.pair.salvage = none → e.mirror 10 p ck last = some u → exec (.catchup h p last ck) s = .next u)) ∧
    (s.runOf X.target (fun r => r.cls = 1 || r.cls = 3 || r.cls = 9) = some X → X.req = none → X.target < 32 →
      s.nand.mirror.find? (fun e => e.block = some X.block) = some E →
      let d := (s.endRun X).setNand { (s.endRun X).nand with mirror := s.nand.mirror.erase E }
      E.kind = 11 ∨ (d.blk X.block).pages.length = E.page.page.toNat →
      exec (.nandProgramComplete (Fin.ofNat 32 X.target) true true 0) s = .next (d.mirrorDone E X.block)) ∧
    (
      let taken := fun (reserve : Bool) => heard 5 (verifiedBody (if reserve then 2 ^ 32 - 1 else lbn.toNat) page.toNat refused.toNat)
      (taken true → exec (.verified h true lbn page refused) s = .next (g.limitUse page.toNat)) ∧
      (taken false → refused = false → waits = some o → exec (.verified h false lbn page refused) s =
        .next (got.kindOne o.req 0 o.lbn o.page (got.pageSeq o.lbn o.page) (((got.lbnBlock o.lbn).map (·.1)).getD 0 / 8192))) ∧
      (taken false → refused = true → waits = some o → exec (.verified h false lbn page refused) s = .next (got.partnerFail o.req o.lbn o.page)) ∧
      (taken false → waits = none → g.pair.salvage = some l → dest ∈ l →
        (refused = true → exec (.verified h false lbn page refused) s = .next (g.sendStored 0x0B dest)) ∧
        (refused = false → exec (.verified h false lbn page refused) s = .next { g with pair := { g.pair with salvage := some (l.erase dest) } }))) ∧
    (s.domOn 11 = true → s.peerReady = false → exec .partnerFail s = .next s.failOutstanding) ∧
    (heard 9 body → e.role = 2 → f 12 1 = 3 → f 15 1 ≠ 0 ∨ f 24 4 ≠ 0 → exec (.health h body) s =
      .next (e.notify 0x102 ((List.range 8).map (fun i => f (8 * i) 8)))) ∧
    (y.role = 3 → y.timer H ≤ y.now → hs.role = 3 → bit dst 31 = true → bits dst 2 0 < 6 → hs.netOn = true → exec (.healthSend t) s =
      .next (hs.send (bits dst 2 0) hs.healthDst (toBe 2 (hs.fld (prA rPAIR_HEALTH_UDP) 15 0) ++ y.healthBody))) ∧
    (heard 0x0B (pagePlain p) → e.role = 2 →
      (e.mirrorRoom = false → exec (.salvage h p) s = .next (e.verified p.lbn.toNat p.page.toNat 1)) ∧
      (e.mirrorRoom = true → exec (.salvage h p) s = .next (e.setNand { e.nand with mirror := e.nand.mirror ++ [⟨11, p, none, false, none, false⟩] }))) ∧
    (s.pair.salvage = some [] → s.role = 3 → exec .salvageDone s = .next (
      (sv.nand.blocks.filter (fun e => e.2.stream ≤ 2 && e.2.lbn.isSome)).foldl (fun (s : State) e =>
        ((s.eraseBlock e.1).setBlk e.1 { Block.fresh with erases := e.2.erases + 1 }).nandCount 9) sv)) ∧
    (y.role = 3 → y.pair.test = none → y.pair.testAt ≤ y.now → y.normalRuns = true →
      exec (.standbyTestStep t) s = .next (((ts.turnOn (3 + tn)).turnOn 14).turnOn 16)) ∧
    (s.pair.test = some n → s.role = 3 → s.normalRuns = true → exec (.standbyTestEnd pass) s =
      .next ((((if pass then te else te.lanyEvent 0x56 []).turnOff (3 + n)).turnOff 14).turnOff 16)) ∧
    (y.hostMay fieldLay cmd.val ring.val = true → y.popMessage (6144 + cmd.val) 4096 = (c0 :: cs0, v) →
      let a := v.hostSpend cmd.val ring.val
      a.images.find? (fun e => e.1 = slot.val) = some (k, img) → a.campOn = true → meters.length ≤ 4096 → 64 ≤ block.toNat → block.toNat ≤ 1024 →
      1 ≤ rounds.toNat → rounds.toNat ≤ 16 → 50 ≤ gap.toNat → gap.toNat ≤ 5000 → joined = (ms, u) → ms ≠ [] →
      exec (.campaignStart cmd slot meters block key rounds gap act ring t) s = .next (({ u with camps := u.camps ++
        [⟨slot.val, block.toNat, key.toNat, rounds.toNat, gap.toNat * 1000000, act.toNat, 1, [], [], ms, ring.val⟩] } : State).offer
        (6144 + ring.val) (mkCompletion (cellChan c0) (cellAux c0) ((Config.hostWords [1]).map (·.toNat))))) ∧
    (y.camps[k]? = some c → y.campOn = true → c.round ≤ c.rounds → look (fun _ => 0) c.due out.toNat ≤ y.now → c.unsent out.toNat = x :: xs →
      ((∀ m ∈ c2.meters, c2.unsent m.2.out = []) → exec (.imageBlockBroadcast k out held took verify t) s = .next (s2.campRound k c2 held took verify)) ∧
      ((∃ m ∈ c2.meters, c2.unsent m.2.out ≠ []) → exec (.imageBlockBroadcast k out held took verify t) s = .next (s2.setCamp k c2))) ∧
    (y.camps = [c] → c.meters = [(meter.toNat, m)] → y.campOn = true → m.st = 4 → m.poll ≤ y.tsuTime.sec →
      let a := y.toMeter meter.toNat 1 m.out [18, 6]
      let r := if ans.val = 1 ∧ m.since + 600 ≤ a.tsuTime.sec then 2 else ans.val
      (a.campVerdict c.slot c.ring meter.toNat m r = (some (meter.toNat, m'), w) →
        exec (.imageVerifyPoll meter ans t) s = .next (w.setCamp 0 { c with meters := [(meter.toNat, m')] })) ∧
      (a.campVerdict c.slot c.ring meter.toNat m r = (none, w) → exec (.imageVerifyPoll meter ans t) s = .next (w.setCamp 0 { c with meters := [] }))) ∧
    (y.camps[k]? = some c → y.campOn = true → c.act ≤ y.tsuTime.sec → exec (.imageActivate k answers t) s =
      .next (((c.meters.filter (fun m => m.2.st = 5)).foldl ends y).setCamp k { c with meters := c.meters.filter (fun m => decide (m.2.st ≠ 5)) }))

/-- R595, R613, R658 to R667: the DMA rings, the PCIe link and its resets, MSI-X messages, and the QSPI commands. -/
def Obligations.RingAndQspiCommands : Prop :=
  ∀ (s : State) (q : Requester) (t : Nat) (ring : Fin 64) (irq : Bool) (idx : BitVec 16) (l : List (BitVec 512)) (kind : Fin 3) (bells : BitVec 32)
    (up : Bool) (speed : Fin 4) (width : Fin 5) (vec : BitVec 8) (addr : BitVec 64) (d : BitVec 32) (mask : Bool),
    let y := s.at t
    let r := ring.val
    let C := pcA rPCIE_RC_CTRL
    let S := pcA rPCIE_STAT
    let on : Word32 := BitVec.ofNat 32 (1 + 2 * irq.toNat)
    let k := s.fld (pcA rPCIE_RC_SEL) 5 0
    let z := y.hostEntries r (y.ringHost r) l
    let c := z.ringDev r
    let fresh := (idx.toNat + 2 ^ 16 - c) % 2 ^ 16
    let old := (z.ringHost r + 2 ^ 16 - c) % 2 ^ 16
    let p := ((s.putBit S 0 up).putF S 2 1 (if up then speed.val else 0)).putF S 6 4 (if up then width.val else 0)
    let cnt := p.bumpBk (pcA rPCIE_CNT) 3 (2 ^ 32 - 1) d.toNat
    let v := vec.toNat
    let sent := { s with msix := { s.msix with due := s.msix.due.erase v } }
    let rest := s.msix.open_.filter (· ≠ v)
    let m := { s with msix := { s.msix with entries := place v (addr, d) (Machine.drop s.msix.entries v), open_ := if mask then rest else rest ++ [v] } }
    let Q := qsA rQSPI_STAT
    let a := s.fld (qsA rQSPI_ADDR) 25 0
    let n := s.fld (qsA rQSPI_LEN) 8 0
    let runs := fun (op : Nat) => s.refusal q (qsA rQSPI_CMD) true (qspiGo op) (s.goldenBad op a) (s.qspiBad q op a n) = none
    let busy := fun (op : Nat) (s : State) => { s.putBit Q 0 true with results := place Q op (Machine.drop (s.putBit Q 0 true).results Q) }
    let op := look (fun _ => 0) s.results Q
    let ended := { s.putBit Q 0 false with results := Machine.drop (s.putBit Q 0 false).results Q }
    (s.takes q C on (s.ringBad k) → exec (.ringEnable q irq) s = .next ((s.setBk C k (BitVec.ofNat 64 (1 + 2 * irq.toNat))).ringGo k)) ∧
    (y.pcieUp = true → z.pcieUp = true → z.ringDir r = 1 →
      (old ≤ fresh → fresh ≤ z.ringSize r → exec (.ringDoorbellH2d ring idx l t) s = .next ((z.setRingIdx r c idx.toNat).ringGo r)) ∧
      (fresh < old ∨ z.ringSize r < fresh → exec (.ringDoorbellH2d ring idx l t) s = .next ((z.setRingIdx r c idx.toNat).ringHalt r 1))) ∧
    (y.pcieUp = true → y.ringDir r = 2 → exec (.ringDoorbellD2h ring idx t) s = .next ((y.setRingIdx r (y.ringDev r) idx.toNat).ringGo r)) ∧
    (y.pcieUp = true → y.ringDir r = 0 → exec (.ringDoorbellD2h ring idx t) s = .next (y.bumpBk (pcA rPCIE_CNT) 0 (2 ^ 32 - 1) 1)) ∧
    (y.ringLive r = true → 0 < (y.ring r).since → (y.ring r).wbAt ≤ y.now → exec (.ringWriteBack ring t) s = .next ((y.ringBack r).ringGo r)) ∧
    (y.domOn 17 = true → bit (y.bk C r) 1 = true → (y.ring r).irqAt ≠ 0 → (y.ring r).irqAt ≤ y.now → exec (.ringIrqTimer ring t) s =
      .next ((y.setRing r { y.ring r with fresh := 0, irqAt := 0 }).fire (64 + r))) ∧
    (s.ringLive r = true → (kind.val < 2 → exec (.dmaError ring kind) s =
        .next ((s.bumpBk (pcA rPCIE_CNT) (kind.val + 1) (2 ^ 32 - 1) 1).ringHalt r 2)) ∧
      (kind.val = 2 → exec (.dmaError ring kind) s = .next (s.ringHalt r 2))) ∧
    (s.takes q C 0x80000000 false → exec (.ringReset q bells) s =
      .next (((s.setBk C k 0).ringReset k).bumpBk (pcA rPCIE_CNT) 0 (2 ^ 32 - 1) bells.toNat)) ∧
    (s.domOn 17 = true → exec .perstAssert s = .next (
      let w := (List.range 64).foldl (fun (s : State) r => s.ringReset r) s
      (({ (w.pageOff .pcie 0) with rings := [], msix := { Msix.off with sent := w.msix.sent } } : State).wr S 0).putBit S 7 true)) ∧
    (s.domOn 17 = true → exec .perstDeassert s = .next (s.putBit S 7 false)) ∧
    (s.domOn 17 = true → s.bitAt S 7 = false →
      (s.bitAt S 0 = up → exec (.pcieLinkChange up speed width d) s = .next cnt.ringsGo) ∧
      (s.bitAt S 0 = false → up = true → exec (.pcieLinkChange up speed width d) s = .next (cnt.irq .pcie 0 0).ringsGo) ∧
      (s.bitAt S 0 = true → up = false → exec (.pcieLinkChange up speed width d) s = .next ((cnt.irq .pcie 0 0).cause .pcie 0 3))) ∧
    (s.pcieUp = true → s.msix.due.contains v = true →
      (s.msix.open_.contains v = true → exec (.msixMessage vec) s = .next (sent.msiSend v)) ∧
      (s.msix.open_.contains v = false → s.msix.pend.contains v = false → exec (.msixMessage vec) s =
        .next { sent with msix := { sent.msix with pend := s.msix.pend ++ [v] } })) ∧
    (s.pcieUp = true → mask = true ∨ s.msix.pend.contains v = false → exec (.msixUnmask vec addr d mask) s = .next m) ∧
    (s.pcieUp = true → mask = false → s.msix.pend.contains v = true → v = 0 ∨ (64 ≤ v ∧ v < 128) → exec (.msixUnmask vec addr d mask) s =
      .next (({ m with msix := { m.msix with pend := m.msix.pend.filter (· ≠ v) } } : State).msiSend v)) ∧
    (runs 1 → exec (.qspiRead q) s = .next (busy 1 (s.setQspiBuf (s.bytes .nor a n)))) ∧
    (runs 2 → exec (.qspiProgram q) s = .next (busy 2 (s.norProgram a (s.qspiBuf n)))) ∧
    (runs 3 → exec (.qspiErase q) s = .next (busy 3 (s.norErase a))) ∧
    (s.domOn 2 = true → s.bitAt Q 0 = true →
      (exec (.qspiCommandDone false) s = .next ended) ∧
      (op = 2 ∨ op = 3 → exec (.qspiCommandDone true) s = .next (ended.cause .qspi 0 0)))

/-- R242, R668 to R672: the Ethernet ports' frames, advertisements, sending, link, cache and management bus, and acknowledgement cells; a frame is one
received with no armed buffer error. -/
def Obligations.EthernetCommands : Prop :=
  ∀ (s : State) (q : Requester) (t : Nat) (n : Fin 6) (raw : List (BitVec 8)) (v : State) (i : Nat) (k : Fin 5) (spl : BitVec 13) (dst : BitVec 128)
    (l : List (BitVec 8)) (rest : List (BitVec 128 × List (BitVec 8))) (up fast : Bool) (an : BitVec 16) (op : BitVec 2) (phy reg : BitVec 5)
    (data answer : BitVec 16) (port : Fin 21) (c c' : Cell512) (cs gone : List Cell512) (u : State) (sp dp : BitVec 16) (target : BitVec 128),
    let y := s.at t
    let p := n.val
    let f := ethParse raw
    let got := y.ethUp p = true ∧ y.inject (ethPg p).1 (ethPg p).2 0 1 = (0, v)
    let fill := if f.ip && v.onLink p f.src then v.cacheFill p f.src f.srcMac else v
    let x := s.ethPort p
    let a := s.setEthPort p { x with adv := x.adv.erase k.val }
    let E := ethA p rETH_STAT
    let lk := s.putBit E 0 up
    let sp5 := lk.putF E 5 4 (if up then 1 + fast.toNat else 0)
    let lc := if p < 4 then lk.putBit E 2 up else if p = 4 then sp5.wr (ethA p rSG_AN) (an.setWidth 32) else sp5
    let M := ethA 4 rSG_MDIO
    let w : Word32 := BitVec.ofNat 32 (2 ^ 31 + up.toNat * 2 ^ 30 + op.toNat * 2 ^ 28 + phy.toNat * 2 ^ 21 + reg.toNat * 2 ^ 16 + data.toNat)
    let pl := s.plain M (w.setWidth 64)
    let wn := (pl.rd M).toNat
    let md := pl.send 23 0 (toBe 4 (wn % 2 ^ 27 + nbits wn 30 28 * 2 ^ 28))
    let m := port.val
    let known := dp.toNat = fill.fld (ingA rING_UDP_PORTS) 15 0 ∨ dp.toNat = fill.fld (ingA rING_UDP_PORTS) 31 16
    (got → v.ethBad p f = some i → i ≠ 4 → exec (.ethFrameReceived n raw t) s = .next (v.ethCount p i)) ∧
    (got → v.ethBad p f = some 4 → exec (.ethFrameReceived n raw t) s = .next (fill.ethFragment p)) ∧
    (got → v.ethBad p f = none →
      (f.body = .udp sp dp l → known → f.dst ∈ fill.ethOwn p → exec (.ethFrameReceived n raw t) s =
        .next ((fill.ethCount p 0).ethAdmit n f sp dp l)) ∧
      (f.body = .badSum → exec (.ethFrameReceived n raw t) s = .next (fill.ethCount p 2)) ∧
      (f.body = .solicit target → (fill.ethOwn p).contains target = true → exec (.ethFrameReceived n raw t) s =
        .next (((fill.ethCount p 0).ethCount p 10).advertise p target (if f.src = 0 then allNodes else f.src) (decide (f.src ≠ 0)))) ∧
      (f.body = .echo l → fill.bitAt (ethA p rETH_CFG) 17 = true → 4 + l.length ≤ 1280 → f.dst ∈ fill.ethOwn p →
        exec (.ethFrameReceived n raw t) s = .next (((fill.ethCount p 0).ethCount p 11).ethSend p f.dst f.src (0, 0) (icmp6 f.dst f.src 129 0 l))) ∧
      (f.body = .ptp l → exec (.ethFrameReceived n raw t) s = .next ((fill.ethCount p 0).ptpTake p false f.dstMac l)) ∧
      (f.body = .other → exec (.ethFrameReceived n raw t) s = .next (fill.ethCount p 3))) ∧
    (s.ethUp p = true → k.val ∈ x.adv → a.ethUsable p k.val = true → exec (.neighbourAdvertisement n k) s =
      .next (a.advertise p (a.ethAddr p k.val) allNodes false)) ∧
    (y.ethUp p = true → (y.ethPort p).adv = [] → (y.ethPort p).queue = (dst, l) :: rest → exec (.ethTransmit n spl t) s =
      .next ((y.setEthPort p { y.ethPort p with queue := rest }).send p dst l)) ∧
    (s.netOn = true → s.bitAt E 0 = up → exec (.ethLinkChange n up fast an) s = .next lc) ∧
    (s.netOn = true → s.bitAt E 0 = false → up = true → exec (.ethLinkChange n up fast an) s = .next (lc.ethIrq p 0)) ∧
    (s.netOn = true → s.bitAt E 0 = true → up = false → exec (.ethLinkChange n up fast an) s = .next ((lc.ethIrq p 0).ethCause p 2)) ∧
    (s.takes q (ethA p rETH_NC_FLUSH) 0x80000000 false → exec (.ethNcFlush q n) s = .next (s.setEthPort p { x with cache := [] })) ∧
    ((s.ethPort 4).mdio = none → s.takes q M w false → exec (.mdioAccess q up op phy reg data answer) s =
      .next ((md.setEthPort 4 { md.ethPort 4 with mdio := some (md.now, answer) }).putBit M 27 false)) ∧
    (y.domOn (portDomain m) = true → y.fld (descA spl.toNat 1) 12 8 = txEnd m → 1 < portKind m ∨ (y.ethPort m).queue.length < 64 →
      y.begun spl.toNat = [] → y.peekCell spl.toNat 0 = some c → y.ackHere m c = true →
      y.takeMessage (txEnd m) spl.toNat 2 = (gone, c' :: cs, u) → exec (.ackCellConsumed port spl t) s = .next ((u.ackReport (cellAux c')).ackAct m c' cs))

/-- R386, R673 to R685: the RS-485 loops and their stations, the sensor bus, the claims and releases of PINMUX, GPIO levels and timers. -/
def Obligations.UartAndPinCommands : Prop :=
  ∀ (s : State) (q : Requester) (t : Nat) (n : Fin 8) (addr : BitVec 32) (body : HdlcBody) (rx : List Bool) (k : Nat) (x : Station) (r : UMsg)
    (spl : BitVec 13) (c : Cell512) (cs : List Cell512) (v : State) (st : BitVec 5) (raw : BitVec 16) (freed level : Bool) (fn : BitVec 8)
    (res : BitVec 7) (ball : Fin 32),
    let y := s.at t
    let p := n.val
    let on := y.uartOn p = true
    let u := y.uart p
    let line := y.uartHears p rx
    let chars := uartChars (y.uartForm p).1 (y.uartForm p).2 line.length line.length line
    let (frames, cur, last) := hdlcFrames u.cur u.last (y.charTimes p chars.2)
    let a := (y.rxIdle p line).lineErrors p chars.1 chars.2
    let b := a.setUart p { a.uart p with cur := cur, last := last }
    let g := b.uartCount p 0
    let rd := y.readStation p k
    let stn := (rd.uart p).st k
    let out := ((y.setStation p k { x with await := 0, misses := min 3 (x.misses + 1) }).uartCount p 7).stationDown p k
    let rr := { r with tries := r.tries + 1 }
    let S := uaA p rUART_ST_SEL
    let commit : Word32 := BitVec.ofNat 32 (2 ^ 31 + st.toNat)
    let load : Word32 := BitVec.ofNat 32 (2 ^ 30 + st.toNat)
    let j := st.toNat
    let cfg := y.bk (sbA rSB_SLOT_CFG) j
    let bus := (bit cfg 30).toNat
    let slot := y.domOn 12 = true ∧ y.bitAt (sbA 0x00C) 0 = true ∧ y.sbusDue j = true ∧ y.pmxFunc (47 + bus) = 5 ∧
      ∀ i, i < j → y.sbusDue i = true → (bit (y.bk (sbA rSB_SLOT_CFG) i) 30).toNat ≠ bus
    let then_ := y.setTimer (sbusKey j) (y.timer (sbusKey j) + y.sbusPeriod j)
    let free := then_.setStuck bus false
    let C := pmxA rPMX_CLAIM
    let cv : Word32 := BitVec.ofNat 32 (2 ^ 31 + fn.toNat * 256 + res.toNat)
    let rv : Word32 := BitVec.ofNat 32 (2 ^ 30 + res.toNat)
    let R := pmxA rPMX_RESULT
    let w := res.toNat
    let f := fn.toNat
    let mine := (s.pmxHolder w = 0 ∧ q = .normal) ∨ q = .safe ∨ (s.pmxHolder w ≠ 0 ∧ s.pmxHolder w = reqCode q)
    let e := ball.val
    let lv := { s with balls := Machine.store (fun _ => false) s.balls e level }
    let li := lv.putBit (pmxA rPMX_GPIO_IN) e level
    let armed := li.bitAt (pmxA (if level then rPMX_GPIO_RISE else rPMX_GPIO_FALL)) e
    let T := pmxA (rPMX_TMR_CTRL + 8 * p)
    let ex := (y.putBit T 29 true).irq .pinmux 0 (2 + p)
    (on →
      (frames = [] → exec (.hdlcFrameReceived n rx t) s = .next b) ∧
      (frames = [.gap] → exec (.hdlcFrameReceived n rx t) s = .next (b.uartCount p 5)) ∧
      (frames = [.badFcs] → exec (.hdlcFrameReceived n rx t) s = .next (b.uartCount p 1)) ∧
      (frames = [.segmented] → b.domOn 1 = true → exec (.hdlcFrameReceived n rx t) s = .next g.discard.2) ∧
      (frames = [.good addr none] → exec (.hdlcFrameReceived n rx t) s = .next g) ∧
      (frames = [.good addr (some body)] → (g.uart p).byAddr addr = none → exec (.hdlcFrameReceived n rx t) s = .next g) ∧
      (frames = [.good addr (some body)] → (g.uart p).byAddr addr = some (k, x) → exec (.hdlcFrameReceived n rx t) s =
        .next (((g.stationHeard p k).hdlcBody n k body).uartGo p))) ∧
    (on → y.fenced = false → u.waits = false →
      (u.run = some r → exec (.hdlcPoll n t) s = .next (y.uartFire p r)) ∧
      (u.run = none → u.queue = [] → u.stations.find? (fun e => e.2.valid && !e.2.bad && decide (e.2.poll ≤ y.now)) = some (k, x) → stn.bad = false →
        exec (.hdlcPoll n t) s = .next (((rd.setStation p k { stn with rnr := false }).askStation p k (stn.vr % 8 * 32 + 16 + 1) []).uartCount p 6))) ∧
    (on → u.stations.find? (fun e => decide (e.2.await ≠ 0) && decide (e.2.await ≤ y.now)) = some (k, x) →
      ((out.uart p).run = none → exec (.hdlcResponseTimeout n t) s = .next (out.uartGo p)) ∧
      ((out.uart p).run = some r → r.addr ≠ x.addr → exec (.hdlcResponseTimeout n t) s = .next (out.uartGo p)) ∧
      ((out.uart p).run = some r → r.addr = x.addr → 2 ≤ r.tries → exec (.hdlcResponseTimeout n t) s = .next ((out.endUMsg p rr 1).uartGo p)) ∧
      ((out.uart p).run = some r → r.addr = x.addr → r.tries < 2 → exec (.hdlcResponseTimeout n t) s =
        .next ((out.setUart p { out.uart p with run := some rr }).uartGo p))) ∧
    (on → byteGap u.cur u.last y.now = true → exec (.hdlcByteGapAbort n t) s = .next ((y.setUart p { u with cur := none }).uartCount p 5)) ∧
    (on → y.fld (descA spl.toNat 1) 12 8 = 6 → u.queue.length + u.run.isSome.toNat < 16 → u.status.length < 64 → y.begun spl.toNat = [] →
      y.peekCell spl.toNat 0 = some c → cellChan c < 4088 ∨ 4095 < cellChan c → y.takeMessage 6 spl.toNat 64 = ([], c :: cs, v) →
      exec (.uartTransmit n spl t) s = .next (v.uartMessage p spl.toNat c cs)) ∧
    (s.takes q S commit (s.stationBad p j) → exec (.stationCommit q n st) s = .next ((s.plain S (commit.setWidth 64)).commitStation p j)) ∧
    (s.takes q S load false → exec (.stationLoad q n st) s = .next (
      let z := s.plain S (load.setWidth 64)
      let x := (z.uart p).st j
      (z.wr (uaA p rUART_ST_ADDR) x.addr).wr (uaA p rUART_ST_CFG) (BitVec.ofNat 32 (x.valid.toNat * 2 ^ 31 + x.meter)))) ∧
    (slot →
      (exec (.sbusSlotRead st (.value raw) t) s = .next (free.sbusValue j raw.toNat)) ∧
      (exec (.sbusSlotRead st .nack t) s = .next ((free.cause .sbus 0 0).bumpBk (sbA rSB_CNT) 1 (2 ^ 32 - 1) 1)) ∧
      (exec (.sbusSlotRead st .stretched t) s = .next (then_.bumpBk (sbA rSB_CNT) 2 (2 ^ 32 - 1) 1)) ∧
      (exec (.sbusSlotRead st (.sdaLow freed) t) s = .next ((then_.bumpBk (sbA rSB_CNT) 3 (2 ^ 32 - 1) 1).setStuck bus (!freed)))) ∧
    (s.takes q C cv false →
      (pmxPermits w f = false → exec (.pmxClaim q fn res) s = .next (s.wr R 3)) ∧
      (pmxPermits w f = true → s.pmxFunc w ≠ 0 → exec (.pmxClaim q fn res) s = .next (s.pmxConflict w f (reqCode q))) ∧
      (pmxPermits w f = true → s.pmxFunc w = 0 → exec (.pmxClaim q fn res) s = .next ((s.pmxSet w f (reqCode q)).wr R 1))) ∧
    (s.takes q C rv false →
      (s.pmxFunc w ≠ 0 → mine → exec (.pmxRelease q res) s = .next ((s.pmxSet w 0 0).wr R 1)) ∧
      (s.pmxFunc w = 0 ∨ ¬mine → exec (.pmxRelease q res) s = .next (s.wr R 4))) ∧
    (s.ballDriven e = false → s.domOn 2 = true → s.bitAt (pmxA rPMX_GPIO_IN) e ≠ level →
      (armed = false → exec (.gpioEdge ball level) s = .next li) ∧
      (armed = true → exec (.gpioEdge ball level) s = .next ((li.putBit (pmxA rPMX_GPIO_EDGE) e true).irq .pinmux 0 1))) ∧
    (y.domOn 2 = true → y.bitAt T 31 = true → y.timer T ≤ y.now →
      (ex.bitAt T 30 = true → exec (.timerExpiry n t) s = .next (ex.setTimer T (ex.timer T + (ex.rd (pmxA (rPMX_TMR_LOAD + 8 * p))).toNat * 1000))) ∧
      (ex.bitAt T 30 = false → exec (.timerExpiry n t) s = .next ((ex.putBit T 31 false).setTimer T 0)))
end

