-- ==== Sys2Proof/Laws/Ops.lean ====
section
/-! SUPPORT. What the shared write check can do: a register write is either taken whole or refused whole (R52, R53). -/

namespace Sys2Proof.Machine

/-- A write that the page takes has its effect, and nothing else. -/
theorem State.guarded_of_takes {s : State} {q : Requester} {a : Nat} {v : Word32} {bad : Bool} {f : State → State} (h : s.takes q a v bad) :
    s.guarded q a v bad f = f s := by
  unfold State.takes at h; unfold State.guarded; rw [h]

/-- A write refused under a code records its refusal, and nothing else. -/
theorem State.guarded_of_refused {s : State} {q : Requester} {a : Nat} {v : Word32} {bad : Bool} {f : State → State} {c : Nat}
    (h : s.refusal q a true v false bad = some c) : s.guarded q a v bad f = s.refuse q a c := by
  unfold State.guarded; rw [h]

/-- A write does one of the two. -/
theorem State.guarded_cases (s : State) (q : Requester) (a : Nat) (v : Word32) (bad : Bool) (f : State → State) :
    s.guarded q a v bad f = f s ∨ ∃ c, s.guarded q a v bad f = s.refuse q a c := by
  cases h : s.refusal q a true v false bad with
  | none => exact .inl (by unfold State.guarded; rw [h])
  | some c => exact .inr ⟨c, State.guarded_of_refused h⟩

/-- A free value drawn advances the counter of draws and nothing else. -/
theorem State.draw_snd (s : State) : s.draw.2 = { s with freeCtr := s.freeCtr + 1 } := rfl

/-- A cell offered is held behind those its splice keeps waiting, or put. -/
theorem State.offer_cases (s : State) (n : Nat) (c : Cell512) :
    s.offer n c = { s with held := s.held ++ [(n, c)] } ∨ s.offer n c = s.blockPut n c := by
  unfold State.offer; split
  · exact .inl rfl
  · exact .inr rfl

end Sys2Proof.Machine
end

