-- ==== Sys2Proof/Laws/Sparse.lean ====
section
/-! SUPPORT. Laws of sparse tables: a read after a write, and every operation keeps the canonical form. -/

namespace Sys2Proof.Machine

variable {α : Type}

theorem look_drop_same (d : Nat → α) (m : List (Nat × α)) (k : Nat) : look d (drop m k) k = d k := by
  induction m with
  | nil => rfl
  | cons e t ih =>
    obtain ⟨j, v⟩ := e
    by_cases h : j = k
    · simpa [drop, h] using ih
    · simpa [drop, look, h] using ih

theorem look_drop_other (d : Nat → α) (m : List (Nat × α)) {j k : Nat} (h : j ≠ k) :
    look d (drop m k) j = look d m j := by
  induction m with
  | nil => rfl
  | cons e t ih =>
    obtain ⟨i, v⟩ := e
    by_cases hi : i = k
    · subst hi
      have hj : ¬ i = j := fun e => h e.symm
      simpa [drop, look, hj] using ih
    · have hd : drop ((i, v) :: t) k = (i, v) :: drop t k := by simp [drop, hi]
      rw [hd]
      simp only [look, ih]

theorem look_place_same (d : Nat → α) (m : List (Nat × α)) (k : Nat) (v : α) (h : ∀ e ∈ m, e.1 ≠ k) :
    look d (place k v m) k = v := by
  induction m with
  | nil => simp [place, look]
  | cons e t ih =>
    obtain ⟨i, w⟩ := e
    have hi : ¬ i = k := h (i, w) (by simp)
    by_cases hk : k < i
    · simp [place, look, hk]
    · simpa [place, look, hk, hi] using ih (fun e he => h e (by simp [he]))

theorem look_place_other (d : Nat → α) (m : List (Nat × α)) {j k : Nat} (v : α) (h : j ≠ k) :
    look d (place k v m) j = look d m j := by
  have hk : ¬ k = j := fun e => h e.symm
  induction m with
  | nil => simp [place, look, hk]
  | cons e t ih =>
    obtain ⟨i, w⟩ := e
    by_cases hki : k < i
    · simp [place, look, hki, hk]
    · simp only [place, hki, if_false, look, ih]

theorem mem_drop {m : List (Nat × α)} {k : Nat} {e : Nat × α} : e ∈ drop m k ↔ e ∈ m ∧ e.1 ≠ k := by
  simp [drop]

/-- A read after a write to the same key gives the value written. -/
@[simp] theorem look_store_same [DecidableEq α] (d : Nat → α) (m : List (Nat × α)) (k : Nat) (v : α) :
    look d (store d m k v) k = v := by
  unfold store
  split
  · next h => rw [look_drop_same, h]
  · exact look_place_same d _ k v (fun e he => (mem_drop.mp he).2)

/-- A write leaves every other key alone. -/
theorem look_store_other [DecidableEq α] (d : Nat → α) (m : List (Nat × α)) {j k : Nat} (v : α) (h : j ≠ k) :
    look d (store d m k v) j = look d m j := by
  unfold store
  split
  · exact look_drop_other d m h
  · rw [look_place_other d _ v h, look_drop_other d m h]

/-- A read after a write, by key. -/
theorem look_store [DecidableEq α] (d : Nat → α) (m : List (Nat × α)) (j k : Nat) (v : α) :
    look d (store d m k v) j = if j = k then v else look d m j := by
  split
  · next h => subst h; simp
  · next h => exact look_store_other d m v h

/-- A range forgotten reads as unlisted keys; other keys as before. -/
theorem look_dropRange (d : Nat → α) (m : List (Nat × α)) (lo hi k : Nat) :
    look d (dropRange m lo hi) k = if lo ≤ k ∧ k < hi then d k else look d m k := by
  induction m with
  | nil => simp [dropRange, look]
  | cons e t ih =>
    obtain ⟨i, v⟩ := e
    by_cases hi' : lo ≤ i ∧ i < hi
    · have : dropRange ((i, v) :: t) lo hi = dropRange t lo hi := by simp [dropRange, hi'.1, hi'.2]
      rw [this, ih]
      by_cases hik : i = k
      · subst hik; simp [hi']
      · simp [look, hik]
    · have : dropRange ((i, v) :: t) lo hi = (i, v) :: dropRange t lo hi := by
        simp only [dropRange, List.filter_cons]
        rw [if_pos]; simp; omega
      rw [this]
      by_cases hik : i = k
      · subst hik; simp [look, hi']
      · simp [look, hik, ih]

/-! ### The canonical form -/

theorem rising_cons {i : Nat} {v : α} {t : List (Nat × α)} :
    rising ((i, v) :: t) = true ↔ (∀ e ∈ t, i < e.1) ∧ rising t = true := by
  induction t generalizing i v with
  | nil => simp [rising]
  | cons e t ih =>
    obtain ⟨j, w⟩ := e
    simp only [rising, Bool.and_eq_true, decide_eq_true_eq, List.mem_cons, forall_eq_or_imp]
    constructor
    · rintro ⟨h, hr⟩
      exact ⟨⟨h, fun e he => Nat.lt_trans h ((ih.mp hr).1 e he)⟩, hr⟩
    · rintro ⟨⟨h, -⟩, hr⟩
      exact ⟨h, hr⟩

theorem rising_filter {m : List (Nat × α)} (p : Nat × α → Bool) (h : rising m = true) : rising (m.filter p) = true := by
  induction m with
  | nil => simpa using h
  | cons e t ih =>
    obtain ⟨i, v⟩ := e
    obtain ⟨h1, h2⟩ := rising_cons.mp h
    by_cases hp : p (i, v) = true
    · rw [List.filter_cons_of_pos hp]
      exact rising_cons.mpr ⟨fun e he => h1 e (List.mem_filter.mp he).1, ih h2⟩
    · rw [List.filter_cons_of_neg hp]
      exact ih h2

theorem mem_place {m : List (Nat × α)} {k : Nat} {v : α} {e : Nat × α} :
    e ∈ place k v m ↔ e = (k, v) ∨ e ∈ m := by
  induction m with
  | nil => simp [place]
  | cons f t ih =>
    obtain ⟨i, w⟩ := f
    by_cases h : k < i
    · simp [place, h]
    · simp [place, h, ih]; tauto

theorem rising_place {m : List (Nat × α)} {k : Nat} {v : α} (h : rising m = true) (hk : ∀ e ∈ m, e.1 ≠ k) :
    rising (place k v m) = true := by
  induction m with
  | nil => simp [place, rising]
  | cons e t ih =>
    obtain ⟨i, w⟩ := e
    obtain ⟨h1, h2⟩ := rising_cons.mp h
    by_cases hki : k < i
    · have : rising ((i, w) :: t) = true := h
      simp only [place, hki, if_true]
      refine rising_cons.mpr ⟨?_, h⟩
      intro e he
      rcases List.mem_cons.mp he with rfl | he
      · exact hki
      · exact Nat.lt_trans hki (h1 e he)
    · simp only [place, hki, if_false]
      refine rising_cons.mpr ⟨?_, ih h2 (fun e he => hk e (by simp [he]))⟩
      intro e he
      rcases mem_place.mp he with rfl | he
      · have := hk (i, w) (by simp); simp only at this ⊢; omega
      · exact h1 e he

theorem canon_iff [DecidableEq α] {d : Nat → α} {m : List (Nat × α)} :
    canon d m = true ↔ rising m = true ∧ ∀ e ∈ m, e.2 ≠ d e.1 := by
  simp [canon]

/-- The empty table is canonical. -/
@[simp] theorem canon_nil [DecidableEq α] (d : Nat → α) : canon d ([] : List (Nat × α)) = true := by simp [canon, rising]

theorem canon_filter [DecidableEq α] {d : Nat → α} {m : List (Nat × α)} (p : Nat × α → Bool) (h : canon d m = true) :
    canon d (m.filter p) = true := by
  obtain ⟨h1, h2⟩ := canon_iff.mp h
  exact canon_iff.mpr ⟨rising_filter p h1, fun e he => h2 e (List.mem_filter.mp he).1⟩

/-- A key dropped keeps the canonical form. -/
theorem canon_drop [DecidableEq α] {d : Nat → α} {m : List (Nat × α)} (k : Nat) (h : canon d m = true) :
    canon d (drop m k) = true := canon_filter _ h

/-- A range forgotten keeps the canonical form. -/
theorem canon_dropRange [DecidableEq α] {d : Nat → α} {m : List (Nat × α)} (lo hi : Nat) (h : canon d m = true) :
    canon d (dropRange m lo hi) = true := canon_filter _ h

/-- A write keeps the canonical form. -/
theorem canon_store [DecidableEq α] {d : Nat → α} {m : List (Nat × α)} (k : Nat) (v : α) (h : canon d m = true) :
    canon d (store d m k v) = true := by
  unfold store
  split
  · exact canon_drop k h
  · next hv =>
    obtain ⟨h1, h2⟩ := canon_iff.mp (canon_drop (d := d) k h)
    refine canon_iff.mpr ⟨rising_place h1 (fun e he => (mem_drop.mp he).2), ?_⟩
    intro e he
    rcases mem_place.mp he with rfl | he
    · exact hv
    · exact h2 e he

theorem look_of_lt (d : Nat → α) {m : List (Nat × α)} {k : Nat} (h : ∀ e ∈ m, k < e.1) : look d m k = d k := by
  induction m with
  | nil => rfl
  | cons e t ih =>
    obtain ⟨i, v⟩ := e
    have hi := h (i, v) (by simp)
    have : ¬ i = k := by simp only at hi; omega
    simp only [look, this, if_false]
    exact ih (fun e he => h e (by simp [he]))

/-- Equal reads make equal canonical tables: equal memories are equal data. -/
theorem canon_ext [DecidableEq α] {d : Nat → α} {m n : List (Nat × α)} (hm : canon d m = true) (hn : canon d n = true)
    (h : ∀ k, look d m k = look d n k) : m = n := by
  induction m generalizing n with
  | nil =>
    cases n with
    | nil => rfl
    | cons f u =>
      obtain ⟨j, w⟩ := f
      have := h j
      simp only [look, if_true] at this
      exact absurd this.symm ((canon_iff.mp hn).2 (j, w) (by simp))
  | cons e t ih =>
    obtain ⟨i, v⟩ := e
    obtain ⟨hr, hd⟩ := canon_iff.mp hm
    obtain ⟨hlt, hrt⟩ := rising_cons.mp hr
    cases n with
    | nil =>
      have := h i
      simp only [look, if_true] at this
      exact absurd this (hd (i, v) (by simp))
    | cons f u =>
      obtain ⟨j, w⟩ := f
      obtain ⟨hr', hd'⟩ := canon_iff.mp hn
      obtain ⟨hlt', hrt'⟩ := rising_cons.mp hr'
      have hij : i = j := by
        rcases Nat.lt_trichotomy i j with hlt2 | rfl | hlt2
        · have := h i
          rw [look_of_lt d (m := (j, w) :: u) (by
            intro e he
            rcases List.mem_cons.mp he with rfl | he
            · exact hlt2
            · exact Nat.lt_trans hlt2 (hlt' e he))] at this
          simp only [look, if_true] at this
          exact absurd this (hd (i, v) (by simp))
        · rfl
        · have := h j
          rw [look_of_lt d (m := (i, v) :: t) (by
            intro e he
            rcases List.mem_cons.mp he with rfl | he
            · exact hlt2
            · exact Nat.lt_trans hlt2 (hlt e he))] at this
          simp only [look, if_true] at this
          exact absurd this.symm (hd' (j, w) (by simp))
      subst hij
      have hv : v = w := by simpa [look] using h i
      subst hv
      have : t = u := by
        apply ih (canon_iff.mpr ⟨hrt, fun e he => hd e (by simp [he])⟩) (canon_iff.mpr ⟨hrt', fun e he => hd' e (by simp [he])⟩)
        intro k
        by_cases hk : i = k
        · subst hk
          rw [look_of_lt d hlt, look_of_lt d hlt']
        · have := h k
          simpa [look, hk] using this
      rw [this]

end Sys2Proof.Machine
end

