-- ==== Sys2Proof/Laws/State.lean ====
section
/-! SUPPORT. What each update of one table of the state leaves alone, field by field and read by read; all true by rfl. -/

namespace Sys2Proof.Machine

/-! ### State.wr writes `regs` alone -/

@[simp] theorem State.wr_bank (s : State) (a : Nat) (v : Word32) : (s.wr a v).bank = s.bank := rfl
@[simp] theorem State.wr_latch (s : State) (a : Nat) (v : Word32) : (s.wr a v).latch = s.latch := rfl
@[simp] theorem State.wr_shadow (s : State) (a : Nat) (v : Word32) : (s.wr a v).shadow = s.shadow := rfl
@[simp] theorem State.wr_mem (s : State) (a : Nat) (v : Word32) : (s.wr a v).mem = s.mem := rfl
@[simp] theorem State.wr_ecc (s : State) (a : Nat) (v : Word32) : (s.wr a v).ecc = s.ecc := rfl
@[simp] theorem State.wr_strands (s : State) (a : Nat) (v : Word32) : (s.wr a v).strands = s.strands := rfl
@[simp] theorem State.wr_lays (s : State) (a : Nat) (v : Word32) : (s.wr a v).lays = s.lays := rfl
@[simp] theorem State.wr_splices (s : State) (a : Nat) (v : Word32) : (s.wr a v).splices = s.splices := rfl
@[simp] theorem State.wr_poolScrub (s : State) (a : Nat) (v : Word32) : (s.wr a v).poolScrub = s.poolScrub := rfl
@[simp] theorem State.wr_otp (s : State) (a : Nat) (v : Word32) : (s.wr a v).otp = s.otp := rfl
@[simp] theorem State.wr_evr (s : State) (a : Nat) (v : Word32) : (s.wr a v).evr = s.evr := rfl
@[simp] theorem State.wr_fc (s : State) (a : Nat) (v : Word32) : (s.wr a v).fc = s.fc := rfl
@[simp] theorem State.wr_held (s : State) (a : Nat) (v : Word32) : (s.wr a v).held = s.held := rfl
@[simp] theorem State.wr_tsuTime (s : State) (a : Nat) (v : Word32) : (s.wr a v).tsuTime = s.tsuTime := rfl
@[simp] theorem State.wr_rdata (s : State) (a : Nat) (v : Word32) : (s.wr a v).rdata = s.rdata := rfl
@[simp] theorem State.wr_timers (s : State) (a : Nat) (v : Word32) : (s.wr a v).timers = s.timers := rfl
@[simp] theorem State.wr_rig (s : State) (a : Nat) (v : Word32) : (s.wr a v).rig = s.rig := rfl
@[simp] theorem State.wr_fitted (s : State) (a : Nat) (v : Word32) : (s.wr a v).fitted = s.fitted := rfl
@[simp] theorem State.wr_budgets (s : State) (a : Nat) (v : Word32) : (s.wr a v).budgets = s.budgets := rfl
@[simp] theorem State.wr_rems (s : State) (a : Nat) (v : Word32) : (s.wr a v).rems = s.rems := rfl
@[simp] theorem State.wr_ddrScrub (s : State) (a : Nat) (v : Word32) : (s.wr a v).ddrScrub = s.ddrScrub := rfl
@[simp] theorem State.wr_outbox (s : State) (a : Nat) (v : Word32) : (s.wr a v).outbox = s.outbox := rfl
@[simp] theorem State.wr_nand (s : State) (a : Nat) (v : Word32) : (s.wr a v).nand = s.nand := rfl
@[simp] theorem State.wr_ing (s : State) (a : Nat) (v : Word32) : (s.wr a v).ing = s.ing := rfl
@[simp] theorem State.wr_readings (s : State) (a : Nat) (v : Word32) : (s.wr a v).readings = s.readings := rfl
@[simp] theorem State.wr_wire (s : State) (a : Nat) (v : Word32) : (s.wr a v).wire = s.wire := rfl
@[simp] theorem State.wr_keys (s : State) (a : Nat) (v : Word32) : (s.wr a v).keys = s.keys := rfl
@[simp] theorem State.wr_root (s : State) (a : Nat) (v : Word32) : (s.wr a v).root = s.root := rfl
@[simp] theorem State.wr_copies (s : State) (a : Nat) (v : Word32) : (s.wr a v).copies = s.copies := rfl
@[simp] theorem State.wr_tamperRun (s : State) (a : Nat) (v : Word32) : (s.wr a v).tamperRun = s.tamperRun := rfl
@[simp] theorem State.wr_tamperDue (s : State) (a : Nat) (v : Word32) : (s.wr a v).tamperDue = s.tamperDue := rfl
@[simp] theorem State.wr_trng (s : State) (a : Nat) (v : Word32) : (s.wr a v).trng = s.trng := rfl
@[simp] theorem State.wr_wakeHeld (s : State) (a : Nat) (v : Word32) : (s.wr a v).wakeHeld = s.wakeHeld := rfl
@[simp] theorem State.wr_results (s : State) (a : Nat) (v : Word32) : (s.wr a v).results = s.results := rfl
@[simp] theorem State.wr_outputs (s : State) (a : Nat) (v : Word32) : (s.wr a v).outputs = s.outputs := rfl
@[simp] theorem State.wr_catalogue (s : State) (a : Nat) (v : Word32) : (s.wr a v).catalogue = s.catalogue := rfl
@[simp] theorem State.wr_bal (s : State) (a : Nat) (v : Word32) : (s.wr a v).bal = s.bal := rfl
@[simp] theorem State.wr_rtc (s : State) (a : Nat) (v : Word32) : (s.wr a v).rtc = s.rtc := rfl
@[simp] theorem State.wr_ptp (s : State) (a : Nat) (v : Word32) : (s.wr a v).ptp = s.ptp := rfl
@[simp] theorem State.wr_balls (s : State) (a : Nat) (v : Word32) : (s.wr a v).balls = s.balls := rfl
@[simp] theorem State.wr_meas (s : State) (a : Nat) (v : Word32) : (s.wr a v).meas = s.meas := rfl
@[simp] theorem State.wr_totals (s : State) (a : Nat) (v : Word32) : (s.wr a v).totals = s.totals := rfl
@[simp] theorem State.wr_pulses (s : State) (a : Nat) (v : Word32) : (s.wr a v).pulses = s.pulses := rfl
@[simp] theorem State.wr_work (s : State) (a : Nat) (v : Word32) : (s.wr a v).work = s.work := rfl
@[simp] theorem State.wr_passes (s : State) (a : Nat) (v : Word32) : (s.wr a v).passes = s.passes := rfl
@[simp] theorem State.wr_mac (s : State) (a : Nat) (v : Word32) : (s.wr a v).mac = s.mac := rfl
@[simp] theorem State.wr_plc (s : State) (a : Nat) (v : Word32) : (s.wr a v).plc = s.plc := rfl
@[simp] theorem State.wr_spi (s : State) (a : Nat) (v : Word32) : (s.wr a v).spi = s.spi := rfl
@[simp] theorem State.wr_partials (s : State) (a : Nat) (v : Word32) : (s.wr a v).partials = s.partials := rfl
@[simp] theorem State.wr_errPin (s : State) (a : Nat) (v : Word32) : (s.wr a v).errPin = s.errPin := rfl
@[simp] theorem State.wr_lany (s : State) (a : Nat) (v : Word32) : (s.wr a v).lany = s.lany := rfl
@[simp] theorem State.wr_lifetime (s : State) (a : Nat) (v : Word32) : (s.wr a v).lifetime = s.lifetime := rfl
@[simp] theorem State.wr_settings (s : State) (a : Nat) (v : Word32) : (s.wr a v).settings = s.settings := rfl
@[simp] theorem State.wr_images (s : State) (a : Nat) (v : Word32) : (s.wr a v).images = s.images := rfl
@[simp] theorem State.wr_versions (s : State) (a : Nat) (v : Word32) : (s.wr a v).versions = s.versions := rfl
@[simp] theorem State.wr_camps (s : State) (a : Nat) (v : Word32) : (s.wr a v).camps = s.camps := rfl
@[simp] theorem State.wr_pair (s : State) (a : Nat) (v : Word32) : (s.wr a v).pair = s.pair := rfl
@[simp] theorem State.wr_dbg (s : State) (a : Nat) (v : Word32) : (s.wr a v).dbg = s.dbg := rfl
@[simp] theorem State.wr_rings (s : State) (a : Nat) (v : Word32) : (s.wr a v).rings = s.rings := rfl
@[simp] theorem State.wr_msix (s : State) (a : Nat) (v : Word32) : (s.wr a v).msix = s.msix := rfl
@[simp] theorem State.wr_eth (s : State) (a : Nat) (v : Word32) : (s.wr a v).eth = s.eth := rfl
@[simp] theorem State.wr_uarts (s : State) (a : Nat) (v : Word32) : (s.wr a v).uarts = s.uarts := rfl
@[simp] theorem State.wr_sbus (s : State) (a : Nat) (v : Word32) : (s.wr a v).sbus = s.sbus := rfl
@[simp] theorem State.wr_now (s : State) (a : Nat) (v : Word32) : (s.wr a v).now = s.now := rfl
@[simp] theorem State.wr_freeCtr (s : State) (a : Nat) (v : Word32) : (s.wr a v).freeCtr = s.freeCtr := rfl
@[simp] theorem State.wr_pending (s : State) (a : Nat) (v : Word32) : (s.wr a v).pending = s.pending := rfl
@[simp] theorem State.wr_bk_read (s : State) (a : Nat) (v : Word32) (b j : Nat) : (s.wr a v).bk b j = s.bk b j := rfl
@[simp] theorem State.wr_byte_read (s : State) (a : Nat) (v : Word32) (sq : Space) (b : Nat) : (s.wr a v).byte sq b = s.byte sq b := rfl
@[simp] theorem State.wr_eccOf_read (s : State) (a : Nat) (v : Word32) (sq : Space) (b : Nat) : (s.wr a v).eccOf sq b = s.eccOf sq b := rfl
@[simp] theorem State.wr_str_read (s : State) (a : Nat) (v : Word32) (m : Nat) : (s.wr a v).str m = s.str m := rfl
@[simp] theorem State.wr_lay_read (s : State) (a : Nat) (v : Word32) (m : Nat) : (s.wr a v).lay m = s.lay m := rfl
@[simp] theorem State.wr_spl_read (s : State) (a : Nat) (v : Word32) (m : Nat) : (s.wr a v).spl m = s.spl m := rfl
@[simp] theorem State.wr_timer_read (s : State) (a : Nat) (v : Word32) (m : Nat) : (s.wr a v).timer m = s.timer m := rfl

/-! ### State.setBk writes `bank` alone -/

@[simp] theorem State.setBk_regs (s : State) (a i : Nat) (v : Word64) : (s.setBk a i v).regs = s.regs := by unfold State.setBk; rfl
@[simp] theorem State.setBk_latch (s : State) (a i : Nat) (v : Word64) : (s.setBk a i v).latch = s.latch := by unfold State.setBk; rfl
@[simp] theorem State.setBk_shadow (s : State) (a i : Nat) (v : Word64) : (s.setBk a i v).shadow = s.shadow := by unfold State.setBk; rfl
@[simp] theorem State.setBk_mem (s : State) (a i : Nat) (v : Word64) : (s.setBk a i v).mem = s.mem := by unfold State.setBk; rfl
@[simp] theorem State.setBk_ecc (s : State) (a i : Nat) (v : Word64) : (s.setBk a i v).ecc = s.ecc := by unfold State.setBk; rfl
@[simp] theorem State.setBk_strands (s : State) (a i : Nat) (v : Word64) : (s.setBk a i v).strands = s.strands := by unfold State.setBk; rfl
@[simp] theorem State.setBk_lays (s : State) (a i : Nat) (v : Word64) : (s.setBk a i v).lays = s.lays := by unfold State.setBk; rfl
@[simp] theorem State.setBk_splices (s : State) (a i : Nat) (v : Word64) : (s.setBk a i v).splices = s.splices := by unfold State.setBk; rfl
@[simp] theorem State.setBk_poolScrub (s : State) (a i : Nat) (v : Word64) : (s.setBk a i v).poolScrub = s.poolScrub := by unfold State.setBk; rfl
@[simp] theorem State.setBk_otp (s : State) (a i : Nat) (v : Word64) : (s.setBk a i v).otp = s.otp := by unfold State.setBk; rfl
@[simp] theorem State.setBk_evr (s : State) (a i : Nat) (v : Word64) : (s.setBk a i v).evr = s.evr := by unfold State.setBk; rfl
@[simp] theorem State.setBk_fc (s : State) (a i : Nat) (v : Word64) : (s.setBk a i v).fc = s.fc := by unfold State.setBk; rfl
@[simp] theorem State.setBk_held (s : State) (a i : Nat) (v : Word64) : (s.setBk a i v).held = s.held := by unfold State.setBk; rfl
@[simp] theorem State.setBk_tsuTime (s : State) (a i : Nat) (v : Word64) : (s.setBk a i v).tsuTime = s.tsuTime := by unfold State.setBk; rfl
@[simp] theorem State.setBk_rdata (s : State) (a i : Nat) (v : Word64) : (s.setBk a i v).rdata = s.rdata := by unfold State.setBk; rfl
@[simp] theorem State.setBk_timers (s : State) (a i : Nat) (v : Word64) : (s.setBk a i v).timers = s.timers := by unfold State.setBk; rfl
@[simp] theorem State.setBk_rig (s : State) (a i : Nat) (v : Word64) : (s.setBk a i v).rig = s.rig := by unfold State.setBk; rfl
@[simp] theorem State.setBk_fitted (s : State) (a i : Nat) (v : Word64) : (s.setBk a i v).fitted = s.fitted := by unfold State.setBk; rfl
@[simp] theorem State.setBk_budgets (s : State) (a i : Nat) (v : Word64) : (s.setBk a i v).budgets = s.budgets := by unfold State.setBk; rfl
@[simp] theorem State.setBk_rems (s : State) (a i : Nat) (v : Word64) : (s.setBk a i v).rems = s.rems := by unfold State.setBk; rfl
@[simp] theorem State.setBk_ddrScrub (s : State) (a i : Nat) (v : Word64) : (s.setBk a i v).ddrScrub = s.ddrScrub := by unfold State.setBk; rfl
@[simp] theorem State.setBk_outbox (s : State) (a i : Nat) (v : Word64) : (s.setBk a i v).outbox = s.outbox := by unfold State.setBk; rfl
@[simp] theorem State.setBk_nand (s : State) (a i : Nat) (v : Word64) : (s.setBk a i v).nand = s.nand := by unfold State.setBk; rfl
@[simp] theorem State.setBk_ing (s : State) (a i : Nat) (v : Word64) : (s.setBk a i v).ing = s.ing := by unfold State.setBk; rfl
@[simp] theorem State.setBk_readings (s : State) (a i : Nat) (v : Word64) : (s.setBk a i v).readings = s.readings := by unfold State.setBk; rfl
@[simp] theorem State.setBk_wire (s : State) (a i : Nat) (v : Word64) : (s.setBk a i v).wire = s.wire := by unfold State.setBk; rfl
@[simp] theorem State.setBk_keys (s : State) (a i : Nat) (v : Word64) : (s.setBk a i v).keys = s.keys := by unfold State.setBk; rfl
@[simp] theorem State.setBk_root (s : State) (a i : Nat) (v : Word64) : (s.setBk a i v).root = s.root := by unfold State.setBk; rfl
@[simp] theorem State.setBk_copies (s : State) (a i : Nat) (v : Word64) : (s.setBk a i v).copies = s.copies := by unfold State.setBk; rfl
@[simp] theorem State.setBk_tamperRun (s : State) (a i : Nat) (v : Word64) : (s.setBk a i v).tamperRun = s.tamperRun := by unfold State.setBk; rfl
@[simp] theorem State.setBk_tamperDue (s : State) (a i : Nat) (v : Word64) : (s.setBk a i v).tamperDue = s.tamperDue := by unfold State.setBk; rfl
@[simp] theorem State.setBk_trng (s : State) (a i : Nat) (v : Word64) : (s.setBk a i v).trng = s.trng := by unfold State.setBk; rfl
@[simp] theorem State.setBk_wakeHeld (s : State) (a i : Nat) (v : Word64) : (s.setBk a i v).wakeHeld = s.wakeHeld := by unfold State.setBk; rfl
@[simp] theorem State.setBk_results (s : State) (a i : Nat) (v : Word64) : (s.setBk a i v).results = s.results := by unfold State.setBk; rfl
@[simp] theorem State.setBk_outputs (s : State) (a i : Nat) (v : Word64) : (s.setBk a i v).outputs = s.outputs := by unfold State.setBk; rfl
@[simp] theorem State.setBk_catalogue (s : State) (a i : Nat) (v : Word64) : (s.setBk a i v).catalogue = s.catalogue := by unfold State.setBk; rfl
@[simp] theorem State.setBk_bal (s : State) (a i : Nat) (v : Word64) : (s.setBk a i v).bal = s.bal := by unfold State.setBk; rfl
@[simp] theorem State.setBk_rtc (s : State) (a i : Nat) (v : Word64) : (s.setBk a i v).rtc = s.rtc := by unfold State.setBk; rfl
@[simp] theorem State.setBk_ptp (s : State) (a i : Nat) (v : Word64) : (s.setBk a i v).ptp = s.ptp := by unfold State.setBk; rfl
@[simp] theorem State.setBk_balls (s : State) (a i : Nat) (v : Word64) : (s.setBk a i v).balls = s.balls := by unfold State.setBk; rfl
@[simp] theorem State.setBk_meas (s : State) (a i : Nat) (v : Word64) : (s.setBk a i v).meas = s.meas := by unfold State.setBk; rfl
@[simp] theorem State.setBk_totals (s : State) (a i : Nat) (v : Word64) : (s.setBk a i v).totals = s.totals := by unfold State.setBk; rfl
@[simp] theorem State.setBk_pulses (s : State) (a i : Nat) (v : Word64) : (s.setBk a i v).pulses = s.pulses := by unfold State.setBk; rfl
@[simp] theorem State.setBk_work (s : State) (a i : Nat) (v : Word64) : (s.setBk a i v).work = s.work := by unfold State.setBk; rfl
@[simp] theorem State.setBk_passes (s : State) (a i : Nat) (v : Word64) : (s.setBk a i v).passes = s.passes := by unfold State.setBk; rfl
@[simp] theorem State.setBk_mac (s : State) (a i : Nat) (v : Word64) : (s.setBk a i v).mac = s.mac := by unfold State.setBk; rfl
@[simp] theorem State.setBk_plc (s : State) (a i : Nat) (v : Word64) : (s.setBk a i v).plc = s.plc := by unfold State.setBk; rfl
@[simp] theorem State.setBk_spi (s : State) (a i : Nat) (v : Word64) : (s.setBk a i v).spi = s.spi := by unfold State.setBk; rfl
@[simp] theorem State.setBk_partials (s : State) (a i : Nat) (v : Word64) : (s.setBk a i v).partials = s.partials := by unfold State.setBk; rfl
@[simp] theorem State.setBk_errPin (s : State) (a i : Nat) (v : Word64) : (s.setBk a i v).errPin = s.errPin := by unfold State.setBk; rfl
@[simp] theorem State.setBk_lany (s : State) (a i : Nat) (v : Word64) : (s.setBk a i v).lany = s.lany := by unfold State.setBk; rfl
@[simp] theorem State.setBk_lifetime (s : State) (a i : Nat) (v : Word64) : (s.setBk a i v).lifetime = s.lifetime := by unfold State.setBk; rfl
@[simp] theorem State.setBk_settings (s : State) (a i : Nat) (v : Word64) : (s.setBk a i v).settings = s.settings := by unfold State.setBk; rfl
@[simp] theorem State.setBk_images (s : State) (a i : Nat) (v : Word64) : (s.setBk a i v).images = s.images := by unfold State.setBk; rfl
@[simp] theorem State.setBk_versions (s : State) (a i : Nat) (v : Word64) : (s.setBk a i v).versions = s.versions := by unfold State.setBk; rfl
@[simp] theorem State.setBk_camps (s : State) (a i : Nat) (v : Word64) : (s.setBk a i v).camps = s.camps := by unfold State.setBk; rfl
@[simp] theorem State.setBk_pair (s : State) (a i : Nat) (v : Word64) : (s.setBk a i v).pair = s.pair := by unfold State.setBk; rfl
@[simp] theorem State.setBk_dbg (s : State) (a i : Nat) (v : Word64) : (s.setBk a i v).dbg = s.dbg := by unfold State.setBk; rfl
@[simp] theorem State.setBk_rings (s : State) (a i : Nat) (v : Word64) : (s.setBk a i v).rings = s.rings := by unfold State.setBk; rfl
@[simp] theorem State.setBk_msix (s : State) (a i : Nat) (v : Word64) : (s.setBk a i v).msix = s.msix := by unfold State.setBk; rfl
@[simp] theorem State.setBk_eth (s : State) (a i : Nat) (v : Word64) : (s.setBk a i v).eth = s.eth := by unfold State.setBk; rfl
@[simp] theorem State.setBk_uarts (s : State) (a i : Nat) (v : Word64) : (s.setBk a i v).uarts = s.uarts := by unfold State.setBk; rfl
@[simp] theorem State.setBk_sbus (s : State) (a i : Nat) (v : Word64) : (s.setBk a i v).sbus = s.sbus := by unfold State.setBk; rfl
@[simp] theorem State.setBk_now (s : State) (a i : Nat) (v : Word64) : (s.setBk a i v).now = s.now := by unfold State.setBk; rfl
@[simp] theorem State.setBk_freeCtr (s : State) (a i : Nat) (v : Word64) : (s.setBk a i v).freeCtr = s.freeCtr := by unfold State.setBk; rfl
@[simp] theorem State.setBk_pending (s : State) (a i : Nat) (v : Word64) : (s.setBk a i v).pending = s.pending := by unfold State.setBk; rfl
@[simp] theorem State.setBk_rd_read (s : State) (a i : Nat) (v : Word64) (b : Nat) : (s.setBk a i v).rd b = s.rd b := by unfold State.rd State.setBk; rfl
@[simp] theorem State.setBk_byte_read (s : State) (a i : Nat) (v : Word64) (sq : Space) (b : Nat) : (s.setBk a i v).byte sq b = s.byte sq b := by unfold State.byte State.setBk; rfl
@[simp] theorem State.setBk_eccOf_read (s : State) (a i : Nat) (v : Word64) (sq : Space) (b : Nat) : (s.setBk a i v).eccOf sq b = s.eccOf sq b := by unfold State.eccOf State.setBk; rfl
@[simp] theorem State.setBk_str_read (s : State) (a i : Nat) (v : Word64) (m : Nat) : (s.setBk a i v).str m = s.str m := by unfold State.str State.setBk; rfl
@[simp] theorem State.setBk_lay_read (s : State) (a i : Nat) (v : Word64) (m : Nat) : (s.setBk a i v).lay m = s.lay m := by unfold State.lay State.setBk; rfl
@[simp] theorem State.setBk_spl_read (s : State) (a i : Nat) (v : Word64) (m : Nat) : (s.setBk a i v).spl m = s.spl m := by unfold State.spl State.setBk; rfl
@[simp] theorem State.setBk_timer_read (s : State) (a i : Nat) (v : Word64) (m : Nat) : (s.setBk a i v).timer m = s.timer m := by unfold State.timer State.setBk; rfl

/-! ### State.setByte writes `mem` alone -/

@[simp] theorem State.setByte_regs (s : State) (sp : Space) (a : Nat) (v : Byte) : (s.setByte sp a v).regs = s.regs := rfl
@[simp] theorem State.setByte_bank (s : State) (sp : Space) (a : Nat) (v : Byte) : (s.setByte sp a v).bank = s.bank := rfl
@[simp] theorem State.setByte_latch (s : State) (sp : Space) (a : Nat) (v : Byte) : (s.setByte sp a v).latch = s.latch := rfl
@[simp] theorem State.setByte_shadow (s : State) (sp : Space) (a : Nat) (v : Byte) : (s.setByte sp a v).shadow = s.shadow := rfl
@[simp] theorem State.setByte_ecc (s : State) (sp : Space) (a : Nat) (v : Byte) : (s.setByte sp a v).ecc = s.ecc := rfl
@[simp] theorem State.setByte_strands (s : State) (sp : Space) (a : Nat) (v : Byte) : (s.setByte sp a v).strands = s.strands := rfl
@[simp] theorem State.setByte_lays (s : State) (sp : Space) (a : Nat) (v : Byte) : (s.setByte sp a v).lays = s.lays := rfl
@[simp] theorem State.setByte_splices (s : State) (sp : Space) (a : Nat) (v : Byte) : (s.setByte sp a v).splices = s.splices := rfl
@[simp] theorem State.setByte_poolScrub (s : State) (sp : Space) (a : Nat) (v : Byte) : (s.setByte sp a v).poolScrub = s.poolScrub := rfl
@[simp] theorem State.setByte_otp (s : State) (sp : Space) (a : Nat) (v : Byte) : (s.setByte sp a v).otp = s.otp := rfl
@[simp] theorem State.setByte_evr (s : State) (sp : Space) (a : Nat) (v : Byte) : (s.setByte sp a v).evr = s.evr := rfl
@[simp] theorem State.setByte_fc (s : State) (sp : Space) (a : Nat) (v : Byte) : (s.setByte sp a v).fc = s.fc := rfl
@[simp] theorem State.setByte_held (s : State) (sp : Space) (a : Nat) (v : Byte) : (s.setByte sp a v).held = s.held := rfl
@[simp] theorem State.setByte_tsuTime (s : State) (sp : Space) (a : Nat) (v : Byte) : (s.setByte sp a v).tsuTime = s.tsuTime := rfl
@[simp] theorem State.setByte_rdata (s : State) (sp : Space) (a : Nat) (v : Byte) : (s.setByte sp a v).rdata = s.rdata := rfl
@[simp] theorem State.setByte_timers (s : State) (sp : Space) (a : Nat) (v : Byte) : (s.setByte sp a v).timers = s.timers := rfl
@[simp] theorem State.setByte_rig (s : State) (sp : Space) (a : Nat) (v : Byte) : (s.setByte sp a v).rig = s.rig := rfl
@[simp] theorem State.setByte_fitted (s : State) (sp : Space) (a : Nat) (v : Byte) : (s.setByte sp a v).fitted = s.fitted := rfl
@[simp] theorem State.setByte_budgets (s : State) (sp : Space) (a : Nat) (v : Byte) : (s.setByte sp a v).budgets = s.budgets := rfl
@[simp] theorem State.setByte_rems (s : State) (sp : Space) (a : Nat) (v : Byte) : (s.setByte sp a v).rems = s.rems := rfl
@[simp] theorem State.setByte_ddrScrub (s : State) (sp : Space) (a : Nat) (v : Byte) : (s.setByte sp a v).ddrScrub = s.ddrScrub := rfl
@[simp] theorem State.setByte_outbox (s : State) (sp : Space) (a : Nat) (v : Byte) : (s.setByte sp a v).outbox = s.outbox := rfl
@[simp] theorem State.setByte_nand (s : State) (sp : Space) (a : Nat) (v : Byte) : (s.setByte sp a v).nand = s.nand := rfl
@[simp] theorem State.setByte_ing (s : State) (sp : Space) (a : Nat) (v : Byte) : (s.setByte sp a v).ing = s.ing := rfl
@[simp] theorem State.setByte_readings (s : State) (sp : Space) (a : Nat) (v : Byte) : (s.setByte sp a v).readings = s.readings := rfl
@[simp] theorem State.setByte_wire (s : State) (sp : Space) (a : Nat) (v : Byte) : (s.setByte sp a v).wire = s.wire := rfl
@[simp] theorem State.setByte_keys (s : State) (sp : Space) (a : Nat) (v : Byte) : (s.setByte sp a v).keys = s.keys := rfl
@[simp] theorem State.setByte_root (s : State) (sp : Space) (a : Nat) (v : Byte) : (s.setByte sp a v).root = s.root := rfl
@[simp] theorem State.setByte_copies (s : State) (sp : Space) (a : Nat) (v : Byte) : (s.setByte sp a v).copies = s.copies := rfl
@[simp] theorem State.setByte_tamperRun (s : State) (sp : Space) (a : Nat) (v : Byte) : (s.setByte sp a v).tamperRun = s.tamperRun := rfl
@[simp] theorem State.setByte_tamperDue (s : State) (sp : Space) (a : Nat) (v : Byte) : (s.setByte sp a v).tamperDue = s.tamperDue := rfl
@[simp] theorem State.setByte_trng (s : State) (sp : Space) (a : Nat) (v : Byte) : (s.setByte sp a v).trng = s.trng := rfl
@[simp] theorem State.setByte_wakeHeld (s : State) (sp : Space) (a : Nat) (v : Byte) : (s.setByte sp a v).wakeHeld = s.wakeHeld := rfl
@[simp] theorem State.setByte_results (s : State) (sp : Space) (a : Nat) (v : Byte) : (s.setByte sp a v).results = s.results := rfl
@[simp] theorem State.setByte_outputs (s : State) (sp : Space) (a : Nat) (v : Byte) : (s.setByte sp a v).outputs = s.outputs := rfl
@[simp] theorem State.setByte_catalogue (s : State) (sp : Space) (a : Nat) (v : Byte) : (s.setByte sp a v).catalogue = s.catalogue := rfl
@[simp] theorem State.setByte_bal (s : State) (sp : Space) (a : Nat) (v : Byte) : (s.setByte sp a v).bal = s.bal := rfl
@[simp] theorem State.setByte_rtc (s : State) (sp : Space) (a : Nat) (v : Byte) : (s.setByte sp a v).rtc = s.rtc := rfl
@[simp] theorem State.setByte_ptp (s : State) (sp : Space) (a : Nat) (v : Byte) : (s.setByte sp a v).ptp = s.ptp := rfl
@[simp] theorem State.setByte_balls (s : State) (sp : Space) (a : Nat) (v : Byte) : (s.setByte sp a v).balls = s.balls := rfl
@[simp] theorem State.setByte_meas (s : State) (sp : Space) (a : Nat) (v : Byte) : (s.setByte sp a v).meas = s.meas := rfl
@[simp] theorem State.setByte_totals (s : State) (sp : Space) (a : Nat) (v : Byte) : (s.setByte sp a v).totals = s.totals := rfl
@[simp] theorem State.setByte_pulses (s : State) (sp : Space) (a : Nat) (v : Byte) : (s.setByte sp a v).pulses = s.pulses := rfl
@[simp] theorem State.setByte_work (s : State) (sp : Space) (a : Nat) (v : Byte) : (s.setByte sp a v).work = s.work := rfl
@[simp] theorem State.setByte_passes (s : State) (sp : Space) (a : Nat) (v : Byte) : (s.setByte sp a v).passes = s.passes := rfl
@[simp] theorem State.setByte_mac (s : State) (sp : Space) (a : Nat) (v : Byte) : (s.setByte sp a v).mac = s.mac := rfl
@[simp] theorem State.setByte_plc (s : State) (sp : Space) (a : Nat) (v : Byte) : (s.setByte sp a v).plc = s.plc := rfl
@[simp] theorem State.setByte_spi (s : State) (sp : Space) (a : Nat) (v : Byte) : (s.setByte sp a v).spi = s.spi := rfl
@[simp] theorem State.setByte_partials (s : State) (sp : Space) (a : Nat) (v : Byte) : (s.setByte sp a v).partials = s.partials := rfl
@[simp] theorem State.setByte_errPin (s : State) (sp : Space) (a : Nat) (v : Byte) : (s.setByte sp a v).errPin = s.errPin := rfl
@[simp] theorem State.setByte_lany (s : State) (sp : Space) (a : Nat) (v : Byte) : (s.setByte sp a v).lany = s.lany := rfl
@[simp] theorem State.setByte_lifetime (s : State) (sp : Space) (a : Nat) (v : Byte) : (s.setByte sp a v).lifetime = s.lifetime := rfl
@[simp] theorem State.setByte_settings (s : State) (sp : Space) (a : Nat) (v : Byte) : (s.setByte sp a v).settings = s.settings := rfl
@[simp] theorem State.setByte_images (s : State) (sp : Space) (a : Nat) (v : Byte) : (s.setByte sp a v).images = s.images := rfl
@[simp] theorem State.setByte_versions (s : State) (sp : Space) (a : Nat) (v : Byte) : (s.setByte sp a v).versions = s.versions := rfl
@[simp] theorem State.setByte_camps (s : State) (sp : Space) (a : Nat) (v : Byte) : (s.setByte sp a v).camps = s.camps := rfl
@[simp] theorem State.setByte_pair (s : State) (sp : Space) (a : Nat) (v : Byte) : (s.setByte sp a v).pair = s.pair := rfl
@[simp] theorem State.setByte_dbg (s : State) (sp : Space) (a : Nat) (v : Byte) : (s.setByte sp a v).dbg = s.dbg := rfl
@[simp] theorem State.setByte_rings (s : State) (sp : Space) (a : Nat) (v : Byte) : (s.setByte sp a v).rings = s.rings := rfl
@[simp] theorem State.setByte_msix (s : State) (sp : Space) (a : Nat) (v : Byte) : (s.setByte sp a v).msix = s.msix := rfl
@[simp] theorem State.setByte_eth (s : State) (sp : Space) (a : Nat) (v : Byte) : (s.setByte sp a v).eth = s.eth := rfl
@[simp] theorem State.setByte_uarts (s : State) (sp : Space) (a : Nat) (v : Byte) : (s.setByte sp a v).uarts = s.uarts := rfl
@[simp] theorem State.setByte_sbus (s : State) (sp : Space) (a : Nat) (v : Byte) : (s.setByte sp a v).sbus = s.sbus := rfl
@[simp] theorem State.setByte_now (s : State) (sp : Space) (a : Nat) (v : Byte) : (s.setByte sp a v).now = s.now := rfl
@[simp] theorem State.setByte_freeCtr (s : State) (sp : Space) (a : Nat) (v : Byte) : (s.setByte sp a v).freeCtr = s.freeCtr := rfl
@[simp] theorem State.setByte_pending (s : State) (sp : Space) (a : Nat) (v : Byte) : (s.setByte sp a v).pending = s.pending := rfl
@[simp] theorem State.setByte_rd_read (s : State) (sp : Space) (a : Nat) (v : Byte) (b : Nat) : (s.setByte sp a v).rd b = s.rd b := rfl
@[simp] theorem State.setByte_bk_read (s : State) (sp : Space) (a : Nat) (v : Byte) (b j : Nat) : (s.setByte sp a v).bk b j = s.bk b j := rfl
@[simp] theorem State.setByte_eccOf_read (s : State) (sp : Space) (a : Nat) (v : Byte) (sq : Space) (b : Nat) : (s.setByte sp a v).eccOf sq b = s.eccOf sq b := rfl
@[simp] theorem State.setByte_str_read (s : State) (sp : Space) (a : Nat) (v : Byte) (m : Nat) : (s.setByte sp a v).str m = s.str m := rfl
@[simp] theorem State.setByte_lay_read (s : State) (sp : Space) (a : Nat) (v : Byte) (m : Nat) : (s.setByte sp a v).lay m = s.lay m := rfl
@[simp] theorem State.setByte_spl_read (s : State) (sp : Space) (a : Nat) (v : Byte) (m : Nat) : (s.setByte sp a v).spl m = s.spl m := rfl
@[simp] theorem State.setByte_timer_read (s : State) (sp : Space) (a : Nat) (v : Byte) (m : Nat) : (s.setByte sp a v).timer m = s.timer m := rfl

/-! ### State.setEcc writes `ecc` alone -/

@[simp] theorem State.setEcc_regs (s : State) (sp : Space) (a c : Nat) : (s.setEcc sp a c).regs = s.regs := rfl
@[simp] theorem State.setEcc_bank (s : State) (sp : Space) (a c : Nat) : (s.setEcc sp a c).bank = s.bank := rfl
@[simp] theorem State.setEcc_latch (s : State) (sp : Space) (a c : Nat) : (s.setEcc sp a c).latch = s.latch := rfl
@[simp] theorem State.setEcc_shadow (s : State) (sp : Space) (a c : Nat) : (s.setEcc sp a c).shadow = s.shadow := rfl
@[simp] theorem State.setEcc_mem (s : State) (sp : Space) (a c : Nat) : (s.setEcc sp a c).mem = s.mem := rfl
@[simp] theorem State.setEcc_strands (s : State) (sp : Space) (a c : Nat) : (s.setEcc sp a c).strands = s.strands := rfl
@[simp] theorem State.setEcc_lays (s : State) (sp : Space) (a c : Nat) : (s.setEcc sp a c).lays = s.lays := rfl
@[simp] theorem State.setEcc_splices (s : State) (sp : Space) (a c : Nat) : (s.setEcc sp a c).splices = s.splices := rfl
@[simp] theorem State.setEcc_poolScrub (s : State) (sp : Space) (a c : Nat) : (s.setEcc sp a c).poolScrub = s.poolScrub := rfl
@[simp] theorem State.setEcc_otp (s : State) (sp : Space) (a c : Nat) : (s.setEcc sp a c).otp = s.otp := rfl
@[simp] theorem State.setEcc_evr (s : State) (sp : Space) (a c : Nat) : (s.setEcc sp a c).evr = s.evr := rfl
@[simp] theorem State.setEcc_fc (s : State) (sp : Space) (a c : Nat) : (s.setEcc sp a c).fc = s.fc := rfl
@[simp] theorem State.setEcc_held (s : State) (sp : Space) (a c : Nat) : (s.setEcc sp a c).held = s.held := rfl
@[simp] theorem State.setEcc_tsuTime (s : State) (sp : Space) (a c : Nat) : (s.setEcc sp a c).tsuTime = s.tsuTime := rfl
@[simp] theorem State.setEcc_rdata (s : State) (sp : Space) (a c : Nat) : (s.setEcc sp a c).rdata = s.rdata := rfl
@[simp] theorem State.setEcc_timers (s : State) (sp : Space) (a c : Nat) : (s.setEcc sp a c).timers = s.timers := rfl
@[simp] theorem State.setEcc_rig (s : State) (sp : Space) (a c : Nat) : (s.setEcc sp a c).rig = s.rig := rfl
@[simp] theorem State.setEcc_fitted (s : State) (sp : Space) (a c : Nat) : (s.setEcc sp a c).fitted = s.fitted := rfl
@[simp] theorem State.setEcc_budgets (s : State) (sp : Space) (a c : Nat) : (s.setEcc sp a c).budgets = s.budgets := rfl
@[simp] theorem State.setEcc_rems (s : State) (sp : Space) (a c : Nat) : (s.setEcc sp a c).rems = s.rems := rfl
@[simp] theorem State.setEcc_ddrScrub (s : State) (sp : Space) (a c : Nat) : (s.setEcc sp a c).ddrScrub = s.ddrScrub := rfl
@[simp] theorem State.setEcc_outbox (s : State) (sp : Space) (a c : Nat) : (s.setEcc sp a c).outbox = s.outbox := rfl
@[simp] theorem State.setEcc_nand (s : State) (sp : Space) (a c : Nat) : (s.setEcc sp a c).nand = s.nand := rfl
@[simp] theorem State.setEcc_ing (s : State) (sp : Space) (a c : Nat) : (s.setEcc sp a c).ing = s.ing := rfl
@[simp] theorem State.setEcc_readings (s : State) (sp : Space) (a c : Nat) : (s.setEcc sp a c).readings = s.readings := rfl
@[simp] theorem State.setEcc_wire (s : State) (sp : Space) (a c : Nat) : (s.setEcc sp a c).wire = s.wire := rfl
@[simp] theorem State.setEcc_keys (s : State) (sp : Space) (a c : Nat) : (s.setEcc sp a c).keys = s.keys := rfl
@[simp] theorem State.setEcc_root (s : State) (sp : Space) (a c : Nat) : (s.setEcc sp a c).root = s.root := rfl
@[simp] theorem State.setEcc_copies (s : State) (sp : Space) (a c : Nat) : (s.setEcc sp a c).copies = s.copies := rfl
@[simp] theorem State.setEcc_tamperRun (s : State) (sp : Space) (a c : Nat) : (s.setEcc sp a c).tamperRun = s.tamperRun := rfl
@[simp] theorem State.setEcc_tamperDue (s : State) (sp : Space) (a c : Nat) : (s.setEcc sp a c).tamperDue = s.tamperDue := rfl
@[simp] theorem State.setEcc_trng (s : State) (sp : Space) (a c : Nat) : (s.setEcc sp a c).trng = s.trng := rfl
@[simp] theorem State.setEcc_wakeHeld (s : State) (sp : Space) (a c : Nat) : (s.setEcc sp a c).wakeHeld = s.wakeHeld := rfl
@[simp] theorem State.setEcc_results (s : State) (sp : Space) (a c : Nat) : (s.setEcc sp a c).results = s.results := rfl
@[simp] theorem State.setEcc_outputs (s : State) (sp : Space) (a c : Nat) : (s.setEcc sp a c).outputs = s.outputs := rfl
@[simp] theorem State.setEcc_catalogue (s : State) (sp : Space) (a c : Nat) : (s.setEcc sp a c).catalogue = s.catalogue := rfl
@[simp] theorem State.setEcc_bal (s : State) (sp : Space) (a c : Nat) : (s.setEcc sp a c).bal = s.bal := rfl
@[simp] theorem State.setEcc_rtc (s : State) (sp : Space) (a c : Nat) : (s.setEcc sp a c).rtc = s.rtc := rfl
@[simp] theorem State.setEcc_ptp (s : State) (sp : Space) (a c : Nat) : (s.setEcc sp a c).ptp = s.ptp := rfl
@[simp] theorem State.setEcc_balls (s : State) (sp : Space) (a c : Nat) : (s.setEcc sp a c).balls = s.balls := rfl
@[simp] theorem State.setEcc_meas (s : State) (sp : Space) (a c : Nat) : (s.setEcc sp a c).meas = s.meas := rfl
@[simp] theorem State.setEcc_totals (s : State) (sp : Space) (a c : Nat) : (s.setEcc sp a c).totals = s.totals := rfl
@[simp] theorem State.setEcc_pulses (s : State) (sp : Space) (a c : Nat) : (s.setEcc sp a c).pulses = s.pulses := rfl
@[simp] theorem State.setEcc_work (s : State) (sp : Space) (a c : Nat) : (s.setEcc sp a c).work = s.work := rfl
@[simp] theorem State.setEcc_passes (s : State) (sp : Space) (a c : Nat) : (s.setEcc sp a c).passes = s.passes := rfl
@[simp] theorem State.setEcc_mac (s : State) (sp : Space) (a c : Nat) : (s.setEcc sp a c).mac = s.mac := rfl
@[simp] theorem State.setEcc_plc (s : State) (sp : Space) (a c : Nat) : (s.setEcc sp a c).plc = s.plc := rfl
@[simp] theorem State.setEcc_spi (s : State) (sp : Space) (a c : Nat) : (s.setEcc sp a c).spi = s.spi := rfl
@[simp] theorem State.setEcc_partials (s : State) (sp : Space) (a c : Nat) : (s.setEcc sp a c).partials = s.partials := rfl
@[simp] theorem State.setEcc_errPin (s : State) (sp : Space) (a c : Nat) : (s.setEcc sp a c).errPin = s.errPin := rfl
@[simp] theorem State.setEcc_lany (s : State) (sp : Space) (a c : Nat) : (s.setEcc sp a c).lany = s.lany := rfl
@[simp] theorem State.setEcc_lifetime (s : State) (sp : Space) (a c : Nat) : (s.setEcc sp a c).lifetime = s.lifetime := rfl
@[simp] theorem State.setEcc_settings (s : State) (sp : Space) (a c : Nat) : (s.setEcc sp a c).settings = s.settings := rfl
@[simp] theorem State.setEcc_images (s : State) (sp : Space) (a c : Nat) : (s.setEcc sp a c).images = s.images := rfl
@[simp] theorem State.setEcc_versions (s : State) (sp : Space) (a c : Nat) : (s.setEcc sp a c).versions = s.versions := rfl
@[simp] theorem State.setEcc_camps (s : State) (sp : Space) (a c : Nat) : (s.setEcc sp a c).camps = s.camps := rfl
@[simp] theorem State.setEcc_pair (s : State) (sp : Space) (a c : Nat) : (s.setEcc sp a c).pair = s.pair := rfl
@[simp] theorem State.setEcc_dbg (s : State) (sp : Space) (a c : Nat) : (s.setEcc sp a c).dbg = s.dbg := rfl
@[simp] theorem State.setEcc_rings (s : State) (sp : Space) (a c : Nat) : (s.setEcc sp a c).rings = s.rings := rfl
@[simp] theorem State.setEcc_msix (s : State) (sp : Space) (a c : Nat) : (s.setEcc sp a c).msix = s.msix := rfl
@[simp] theorem State.setEcc_eth (s : State) (sp : Space) (a c : Nat) : (s.setEcc sp a c).eth = s.eth := rfl
@[simp] theorem State.setEcc_uarts (s : State) (sp : Space) (a c : Nat) : (s.setEcc sp a c).uarts = s.uarts := rfl
@[simp] theorem State.setEcc_sbus (s : State) (sp : Space) (a c : Nat) : (s.setEcc sp a c).sbus = s.sbus := rfl
@[simp] theorem State.setEcc_now (s : State) (sp : Space) (a c : Nat) : (s.setEcc sp a c).now = s.now := rfl
@[simp] theorem State.setEcc_freeCtr (s : State) (sp : Space) (a c : Nat) : (s.setEcc sp a c).freeCtr = s.freeCtr := rfl
@[simp] theorem State.setEcc_pending (s : State) (sp : Space) (a c : Nat) : (s.setEcc sp a c).pending = s.pending := rfl
@[simp] theorem State.setEcc_rd_read (s : State) (sp : Space) (a c : Nat) (b : Nat) : (s.setEcc sp a c).rd b = s.rd b := rfl
@[simp] theorem State.setEcc_bk_read (s : State) (sp : Space) (a c : Nat) (b j : Nat) : (s.setEcc sp a c).bk b j = s.bk b j := rfl
@[simp] theorem State.setEcc_byte_read (s : State) (sp : Space) (a c : Nat) (sq : Space) (b : Nat) : (s.setEcc sp a c).byte sq b = s.byte sq b := rfl
@[simp] theorem State.setEcc_str_read (s : State) (sp : Space) (a c : Nat) (m : Nat) : (s.setEcc sp a c).str m = s.str m := rfl
@[simp] theorem State.setEcc_lay_read (s : State) (sp : Space) (a c : Nat) (m : Nat) : (s.setEcc sp a c).lay m = s.lay m := rfl
@[simp] theorem State.setEcc_spl_read (s : State) (sp : Space) (a c : Nat) (m : Nat) : (s.setEcc sp a c).spl m = s.spl m := rfl
@[simp] theorem State.setEcc_timer_read (s : State) (sp : Space) (a c : Nat) (m : Nat) : (s.setEcc sp a c).timer m = s.timer m := rfl

/-! ### State.setStr writes `strands` alone -/

@[simp] theorem State.setStr_regs (s : State) (n : Nat) (x : Strand) : (s.setStr n x).regs = s.regs := rfl
@[simp] theorem State.setStr_bank (s : State) (n : Nat) (x : Strand) : (s.setStr n x).bank = s.bank := rfl
@[simp] theorem State.setStr_latch (s : State) (n : Nat) (x : Strand) : (s.setStr n x).latch = s.latch := rfl
@[simp] theorem State.setStr_shadow (s : State) (n : Nat) (x : Strand) : (s.setStr n x).shadow = s.shadow := rfl
@[simp] theorem State.setStr_mem (s : State) (n : Nat) (x : Strand) : (s.setStr n x).mem = s.mem := rfl
@[simp] theorem State.setStr_ecc (s : State) (n : Nat) (x : Strand) : (s.setStr n x).ecc = s.ecc := rfl
@[simp] theorem State.setStr_lays (s : State) (n : Nat) (x : Strand) : (s.setStr n x).lays = s.lays := rfl
@[simp] theorem State.setStr_splices (s : State) (n : Nat) (x : Strand) : (s.setStr n x).splices = s.splices := rfl
@[simp] theorem State.setStr_poolScrub (s : State) (n : Nat) (x : Strand) : (s.setStr n x).poolScrub = s.poolScrub := rfl
@[simp] theorem State.setStr_otp (s : State) (n : Nat) (x : Strand) : (s.setStr n x).otp = s.otp := rfl
@[simp] theorem State.setStr_evr (s : State) (n : Nat) (x : Strand) : (s.setStr n x).evr = s.evr := rfl
@[simp] theorem State.setStr_fc (s : State) (n : Nat) (x : Strand) : (s.setStr n x).fc = s.fc := rfl
@[simp] theorem State.setStr_held (s : State) (n : Nat) (x : Strand) : (s.setStr n x).held = s.held := rfl
@[simp] theorem State.setStr_tsuTime (s : State) (n : Nat) (x : Strand) : (s.setStr n x).tsuTime = s.tsuTime := rfl
@[simp] theorem State.setStr_rdata (s : State) (n : Nat) (x : Strand) : (s.setStr n x).rdata = s.rdata := rfl
@[simp] theorem State.setStr_timers (s : State) (n : Nat) (x : Strand) : (s.setStr n x).timers = s.timers := rfl
@[simp] theorem State.setStr_rig (s : State) (n : Nat) (x : Strand) : (s.setStr n x).rig = s.rig := rfl
@[simp] theorem State.setStr_fitted (s : State) (n : Nat) (x : Strand) : (s.setStr n x).fitted = s.fitted := rfl
@[simp] theorem State.setStr_budgets (s : State) (n : Nat) (x : Strand) : (s.setStr n x).budgets = s.budgets := rfl
@[simp] theorem State.setStr_rems (s : State) (n : Nat) (x : Strand) : (s.setStr n x).rems = s.rems := rfl
@[simp] theorem State.setStr_ddrScrub (s : State) (n : Nat) (x : Strand) : (s.setStr n x).ddrScrub = s.ddrScrub := rfl
@[simp] theorem State.setStr_outbox (s : State) (n : Nat) (x : Strand) : (s.setStr n x).outbox = s.outbox := rfl
@[simp] theorem State.setStr_nand (s : State) (n : Nat) (x : Strand) : (s.setStr n x).nand = s.nand := rfl
@[simp] theorem State.setStr_ing (s : State) (n : Nat) (x : Strand) : (s.setStr n x).ing = s.ing := rfl
@[simp] theorem State.setStr_readings (s : State) (n : Nat) (x : Strand) : (s.setStr n x).readings = s.readings := rfl
@[simp] theorem State.setStr_wire (s : State) (n : Nat) (x : Strand) : (s.setStr n x).wire = s.wire := rfl
@[simp] theorem State.setStr_keys (s : State) (n : Nat) (x : Strand) : (s.setStr n x).keys = s.keys := rfl
@[simp] theorem State.setStr_root (s : State) (n : Nat) (x : Strand) : (s.setStr n x).root = s.root := rfl
@[simp] theorem State.setStr_copies (s : State) (n : Nat) (x : Strand) : (s.setStr n x).copies = s.copies := rfl
@[simp] theorem State.setStr_tamperRun (s : State) (n : Nat) (x : Strand) : (s.setStr n x).tamperRun = s.tamperRun := rfl
@[simp] theorem State.setStr_tamperDue (s : State) (n : Nat) (x : Strand) : (s.setStr n x).tamperDue = s.tamperDue := rfl
@[simp] theorem State.setStr_trng (s : State) (n : Nat) (x : Strand) : (s.setStr n x).trng = s.trng := rfl
@[simp] theorem State.setStr_wakeHeld (s : State) (n : Nat) (x : Strand) : (s.setStr n x).wakeHeld = s.wakeHeld := rfl
@[simp] theorem State.setStr_results (s : State) (n : Nat) (x : Strand) : (s.setStr n x).results = s.results := rfl
@[simp] theorem State.setStr_outputs (s : State) (n : Nat) (x : Strand) : (s.setStr n x).outputs = s.outputs := rfl
@[simp] theorem State.setStr_catalogue (s : State) (n : Nat) (x : Strand) : (s.setStr n x).catalogue = s.catalogue := rfl
@[simp] theorem State.setStr_bal (s : State) (n : Nat) (x : Strand) : (s.setStr n x).bal = s.bal := rfl
@[simp] theorem State.setStr_rtc (s : State) (n : Nat) (x : Strand) : (s.setStr n x).rtc = s.rtc := rfl
@[simp] theorem State.setStr_ptp (s : State) (n : Nat) (x : Strand) : (s.setStr n x).ptp = s.ptp := rfl
@[simp] theorem State.setStr_balls (s : State) (n : Nat) (x : Strand) : (s.setStr n x).balls = s.balls := rfl
@[simp] theorem State.setStr_meas (s : State) (n : Nat) (x : Strand) : (s.setStr n x).meas = s.meas := rfl
@[simp] theorem State.setStr_totals (s : State) (n : Nat) (x : Strand) : (s.setStr n x).totals = s.totals := rfl
@[simp] theorem State.setStr_pulses (s : State) (n : Nat) (x : Strand) : (s.setStr n x).pulses = s.pulses := rfl
@[simp] theorem State.setStr_work (s : State) (n : Nat) (x : Strand) : (s.setStr n x).work = s.work := rfl
@[simp] theorem State.setStr_passes (s : State) (n : Nat) (x : Strand) : (s.setStr n x).passes = s.passes := rfl
@[simp] theorem State.setStr_mac (s : State) (n : Nat) (x : Strand) : (s.setStr n x).mac = s.mac := rfl
@[simp] theorem State.setStr_plc (s : State) (n : Nat) (x : Strand) : (s.setStr n x).plc = s.plc := rfl
@[simp] theorem State.setStr_spi (s : State) (n : Nat) (x : Strand) : (s.setStr n x).spi = s.spi := rfl
@[simp] theorem State.setStr_partials (s : State) (n : Nat) (x : Strand) : (s.setStr n x).partials = s.partials := rfl
@[simp] theorem State.setStr_errPin (s : State) (n : Nat) (x : Strand) : (s.setStr n x).errPin = s.errPin := rfl
@[simp] theorem State.setStr_lany (s : State) (n : Nat) (x : Strand) : (s.setStr n x).lany = s.lany := rfl
@[simp] theorem State.setStr_lifetime (s : State) (n : Nat) (x : Strand) : (s.setStr n x).lifetime = s.lifetime := rfl
@[simp] theorem State.setStr_settings (s : State) (n : Nat) (x : Strand) : (s.setStr n x).settings = s.settings := rfl
@[simp] theorem State.setStr_images (s : State) (n : Nat) (x : Strand) : (s.setStr n x).images = s.images := rfl
@[simp] theorem State.setStr_versions (s : State) (n : Nat) (x : Strand) : (s.setStr n x).versions = s.versions := rfl
@[simp] theorem State.setStr_camps (s : State) (n : Nat) (x : Strand) : (s.setStr n x).camps = s.camps := rfl
@[simp] theorem State.setStr_pair (s : State) (n : Nat) (x : Strand) : (s.setStr n x).pair = s.pair := rfl
@[simp] theorem State.setStr_dbg (s : State) (n : Nat) (x : Strand) : (s.setStr n x).dbg = s.dbg := rfl
@[simp] theorem State.setStr_rings (s : State) (n : Nat) (x : Strand) : (s.setStr n x).rings = s.rings := rfl
@[simp] theorem State.setStr_msix (s : State) (n : Nat) (x : Strand) : (s.setStr n x).msix = s.msix := rfl
@[simp] theorem State.setStr_eth (s : State) (n : Nat) (x : Strand) : (s.setStr n x).eth = s.eth := rfl
@[simp] theorem State.setStr_uarts (s : State) (n : Nat) (x : Strand) : (s.setStr n x).uarts = s.uarts := rfl
@[simp] theorem State.setStr_sbus (s : State) (n : Nat) (x : Strand) : (s.setStr n x).sbus = s.sbus := rfl
@[simp] theorem State.setStr_now (s : State) (n : Nat) (x : Strand) : (s.setStr n x).now = s.now := rfl
@[simp] theorem State.setStr_freeCtr (s : State) (n : Nat) (x : Strand) : (s.setStr n x).freeCtr = s.freeCtr := rfl
@[simp] theorem State.setStr_pending (s : State) (n : Nat) (x : Strand) : (s.setStr n x).pending = s.pending := rfl
@[simp] theorem State.setStr_rd_read (s : State) (n : Nat) (x : Strand) (b : Nat) : (s.setStr n x).rd b = s.rd b := rfl
@[simp] theorem State.setStr_bk_read (s : State) (n : Nat) (x : Strand) (b j : Nat) : (s.setStr n x).bk b j = s.bk b j := rfl
@[simp] theorem State.setStr_byte_read (s : State) (n : Nat) (x : Strand) (sq : Space) (b : Nat) : (s.setStr n x).byte sq b = s.byte sq b := rfl
@[simp] theorem State.setStr_eccOf_read (s : State) (n : Nat) (x : Strand) (sq : Space) (b : Nat) : (s.setStr n x).eccOf sq b = s.eccOf sq b := rfl
@[simp] theorem State.setStr_lay_read (s : State) (n : Nat) (x : Strand) (m : Nat) : (s.setStr n x).lay m = s.lay m := rfl
@[simp] theorem State.setStr_spl_read (s : State) (n : Nat) (x : Strand) (m : Nat) : (s.setStr n x).spl m = s.spl m := rfl
@[simp] theorem State.setStr_timer_read (s : State) (n : Nat) (x : Strand) (m : Nat) : (s.setStr n x).timer m = s.timer m := rfl

/-! ### State.setLay writes `lays` alone -/

@[simp] theorem State.setLay_regs (s : State) (n : Nat) (x : Lay) : (s.setLay n x).regs = s.regs := rfl
@[simp] theorem State.setLay_bank (s : State) (n : Nat) (x : Lay) : (s.setLay n x).bank = s.bank := rfl
@[simp] theorem State.setLay_latch (s : State) (n : Nat) (x : Lay) : (s.setLay n x).latch = s.latch := rfl
@[simp] theorem State.setLay_shadow (s : State) (n : Nat) (x : Lay) : (s.setLay n x).shadow = s.shadow := rfl
@[simp] theorem State.setLay_mem (s : State) (n : Nat) (x : Lay) : (s.setLay n x).mem = s.mem := rfl
@[simp] theorem State.setLay_ecc (s : State) (n : Nat) (x : Lay) : (s.setLay n x).ecc = s.ecc := rfl
@[simp] theorem State.setLay_strands (s : State) (n : Nat) (x : Lay) : (s.setLay n x).strands = s.strands := rfl
@[simp] theorem State.setLay_splices (s : State) (n : Nat) (x : Lay) : (s.setLay n x).splices = s.splices := rfl
@[simp] theorem State.setLay_poolScrub (s : State) (n : Nat) (x : Lay) : (s.setLay n x).poolScrub = s.poolScrub := rfl
@[simp] theorem State.setLay_otp (s : State) (n : Nat) (x : Lay) : (s.setLay n x).otp = s.otp := rfl
@[simp] theorem State.setLay_evr (s : State) (n : Nat) (x : Lay) : (s.setLay n x).evr = s.evr := rfl
@[simp] theorem State.setLay_fc (s : State) (n : Nat) (x : Lay) : (s.setLay n x).fc = s.fc := rfl
@[simp] theorem State.setLay_held (s : State) (n : Nat) (x : Lay) : (s.setLay n x).held = s.held := rfl
@[simp] theorem State.setLay_tsuTime (s : State) (n : Nat) (x : Lay) : (s.setLay n x).tsuTime = s.tsuTime := rfl
@[simp] theorem State.setLay_rdata (s : State) (n : Nat) (x : Lay) : (s.setLay n x).rdata = s.rdata := rfl
@[simp] theorem State.setLay_timers (s : State) (n : Nat) (x : Lay) : (s.setLay n x).timers = s.timers := rfl
@[simp] theorem State.setLay_rig (s : State) (n : Nat) (x : Lay) : (s.setLay n x).rig = s.rig := rfl
@[simp] theorem State.setLay_fitted (s : State) (n : Nat) (x : Lay) : (s.setLay n x).fitted = s.fitted := rfl
@[simp] theorem State.setLay_budgets (s : State) (n : Nat) (x : Lay) : (s.setLay n x).budgets = s.budgets := rfl
@[simp] theorem State.setLay_rems (s : State) (n : Nat) (x : Lay) : (s.setLay n x).rems = s.rems := rfl
@[simp] theorem State.setLay_ddrScrub (s : State) (n : Nat) (x : Lay) : (s.setLay n x).ddrScrub = s.ddrScrub := rfl
@[simp] theorem State.setLay_outbox (s : State) (n : Nat) (x : Lay) : (s.setLay n x).outbox = s.outbox := rfl
@[simp] theorem State.setLay_nand (s : State) (n : Nat) (x : Lay) : (s.setLay n x).nand = s.nand := rfl
@[simp] theorem State.setLay_ing (s : State) (n : Nat) (x : Lay) : (s.setLay n x).ing = s.ing := rfl
@[simp] theorem State.setLay_readings (s : State) (n : Nat) (x : Lay) : (s.setLay n x).readings = s.readings := rfl
@[simp] theorem State.setLay_wire (s : State) (n : Nat) (x : Lay) : (s.setLay n x).wire = s.wire := rfl
@[simp] theorem State.setLay_keys (s : State) (n : Nat) (x : Lay) : (s.setLay n x).keys = s.keys := rfl
@[simp] theorem State.setLay_root (s : State) (n : Nat) (x : Lay) : (s.setLay n x).root = s.root := rfl
@[simp] theorem State.setLay_copies (s : State) (n : Nat) (x : Lay) : (s.setLay n x).copies = s.copies := rfl
@[simp] theorem State.setLay_tamperRun (s : State) (n : Nat) (x : Lay) : (s.setLay n x).tamperRun = s.tamperRun := rfl
@[simp] theorem State.setLay_tamperDue (s : State) (n : Nat) (x : Lay) : (s.setLay n x).tamperDue = s.tamperDue := rfl
@[simp] theorem State.setLay_trng (s : State) (n : Nat) (x : Lay) : (s.setLay n x).trng = s.trng := rfl
@[simp] theorem State.setLay_wakeHeld (s : State) (n : Nat) (x : Lay) : (s.setLay n x).wakeHeld = s.wakeHeld := rfl
@[simp] theorem State.setLay_results (s : State) (n : Nat) (x : Lay) : (s.setLay n x).results = s.results := rfl
@[simp] theorem State.setLay_outputs (s : State) (n : Nat) (x : Lay) : (s.setLay n x).outputs = s.outputs := rfl
@[simp] theorem State.setLay_catalogue (s : State) (n : Nat) (x : Lay) : (s.setLay n x).catalogue = s.catalogue := rfl
@[simp] theorem State.setLay_bal (s : State) (n : Nat) (x : Lay) : (s.setLay n x).bal = s.bal := rfl
@[simp] theorem State.setLay_rtc (s : State) (n : Nat) (x : Lay) : (s.setLay n x).rtc = s.rtc := rfl
@[simp] theorem State.setLay_ptp (s : State) (n : Nat) (x : Lay) : (s.setLay n x).ptp = s.ptp := rfl
@[simp] theorem State.setLay_balls (s : State) (n : Nat) (x : Lay) : (s.setLay n x).balls = s.balls := rfl
@[simp] theorem State.setLay_meas (s : State) (n : Nat) (x : Lay) : (s.setLay n x).meas = s.meas := rfl
@[simp] theorem State.setLay_totals (s : State) (n : Nat) (x : Lay) : (s.setLay n x).totals = s.totals := rfl
@[simp] theorem State.setLay_pulses (s : State) (n : Nat) (x : Lay) : (s.setLay n x).pulses = s.pulses := rfl
@[simp] theorem State.setLay_work (s : State) (n : Nat) (x : Lay) : (s.setLay n x).work = s.work := rfl
@[simp] theorem State.setLay_passes (s : State) (n : Nat) (x : Lay) : (s.setLay n x).passes = s.passes := rfl
@[simp] theorem State.setLay_mac (s : State) (n : Nat) (x : Lay) : (s.setLay n x).mac = s.mac := rfl
@[simp] theorem State.setLay_plc (s : State) (n : Nat) (x : Lay) : (s.setLay n x).plc = s.plc := rfl
@[simp] theorem State.setLay_spi (s : State) (n : Nat) (x : Lay) : (s.setLay n x).spi = s.spi := rfl
@[simp] theorem State.setLay_partials (s : State) (n : Nat) (x : Lay) : (s.setLay n x).partials = s.partials := rfl
@[simp] theorem State.setLay_errPin (s : State) (n : Nat) (x : Lay) : (s.setLay n x).errPin = s.errPin := rfl
@[simp] theorem State.setLay_lany (s : State) (n : Nat) (x : Lay) : (s.setLay n x).lany = s.lany := rfl
@[simp] theorem State.setLay_lifetime (s : State) (n : Nat) (x : Lay) : (s.setLay n x).lifetime = s.lifetime := rfl
@[simp] theorem State.setLay_settings (s : State) (n : Nat) (x : Lay) : (s.setLay n x).settings = s.settings := rfl
@[simp] theorem State.setLay_images (s : State) (n : Nat) (x : Lay) : (s.setLay n x).images = s.images := rfl
@[simp] theorem State.setLay_versions (s : State) (n : Nat) (x : Lay) : (s.setLay n x).versions = s.versions := rfl
@[simp] theorem State.setLay_camps (s : State) (n : Nat) (x : Lay) : (s.setLay n x).camps = s.camps := rfl
@[simp] theorem State.setLay_pair (s : State) (n : Nat) (x : Lay) : (s.setLay n x).pair = s.pair := rfl
@[simp] theorem State.setLay_dbg (s : State) (n : Nat) (x : Lay) : (s.setLay n x).dbg = s.dbg := rfl
@[simp] theorem State.setLay_rings (s : State) (n : Nat) (x : Lay) : (s.setLay n x).rings = s.rings := rfl
@[simp] theorem State.setLay_msix (s : State) (n : Nat) (x : Lay) : (s.setLay n x).msix = s.msix := rfl
@[simp] theorem State.setLay_eth (s : State) (n : Nat) (x : Lay) : (s.setLay n x).eth = s.eth := rfl
@[simp] theorem State.setLay_uarts (s : State) (n : Nat) (x : Lay) : (s.setLay n x).uarts = s.uarts := rfl
@[simp] theorem State.setLay_sbus (s : State) (n : Nat) (x : Lay) : (s.setLay n x).sbus = s.sbus := rfl
@[simp] theorem State.setLay_now (s : State) (n : Nat) (x : Lay) : (s.setLay n x).now = s.now := rfl
@[simp] theorem State.setLay_freeCtr (s : State) (n : Nat) (x : Lay) : (s.setLay n x).freeCtr = s.freeCtr := rfl
@[simp] theorem State.setLay_pending (s : State) (n : Nat) (x : Lay) : (s.setLay n x).pending = s.pending := rfl
@[simp] theorem State.setLay_rd_read (s : State) (n : Nat) (x : Lay) (b : Nat) : (s.setLay n x).rd b = s.rd b := rfl
@[simp] theorem State.setLay_bk_read (s : State) (n : Nat) (x : Lay) (b j : Nat) : (s.setLay n x).bk b j = s.bk b j := rfl
@[simp] theorem State.setLay_byte_read (s : State) (n : Nat) (x : Lay) (sq : Space) (b : Nat) : (s.setLay n x).byte sq b = s.byte sq b := rfl
@[simp] theorem State.setLay_eccOf_read (s : State) (n : Nat) (x : Lay) (sq : Space) (b : Nat) : (s.setLay n x).eccOf sq b = s.eccOf sq b := rfl
@[simp] theorem State.setLay_str_read (s : State) (n : Nat) (x : Lay) (m : Nat) : (s.setLay n x).str m = s.str m := rfl
@[simp] theorem State.setLay_spl_read (s : State) (n : Nat) (x : Lay) (m : Nat) : (s.setLay n x).spl m = s.spl m := rfl
@[simp] theorem State.setLay_timer_read (s : State) (n : Nat) (x : Lay) (m : Nat) : (s.setLay n x).timer m = s.timer m := rfl

/-! ### State.setSpl writes `splices` alone -/

@[simp] theorem State.setSpl_regs (s : State) (n : Nat) (x : Splice) : (s.setSpl n x).regs = s.regs := rfl
@[simp] theorem State.setSpl_bank (s : State) (n : Nat) (x : Splice) : (s.setSpl n x).bank = s.bank := rfl
@[simp] theorem State.setSpl_latch (s : State) (n : Nat) (x : Splice) : (s.setSpl n x).latch = s.latch := rfl
@[simp] theorem State.setSpl_shadow (s : State) (n : Nat) (x : Splice) : (s.setSpl n x).shadow = s.shadow := rfl
@[simp] theorem State.setSpl_mem (s : State) (n : Nat) (x : Splice) : (s.setSpl n x).mem = s.mem := rfl
@[simp] theorem State.setSpl_ecc (s : State) (n : Nat) (x : Splice) : (s.setSpl n x).ecc = s.ecc := rfl
@[simp] theorem State.setSpl_strands (s : State) (n : Nat) (x : Splice) : (s.setSpl n x).strands = s.strands := rfl
@[simp] theorem State.setSpl_lays (s : State) (n : Nat) (x : Splice) : (s.setSpl n x).lays = s.lays := rfl
@[simp] theorem State.setSpl_poolScrub (s : State) (n : Nat) (x : Splice) : (s.setSpl n x).poolScrub = s.poolScrub := rfl
@[simp] theorem State.setSpl_otp (s : State) (n : Nat) (x : Splice) : (s.setSpl n x).otp = s.otp := rfl
@[simp] theorem State.setSpl_evr (s : State) (n : Nat) (x : Splice) : (s.setSpl n x).evr = s.evr := rfl
@[simp] theorem State.setSpl_fc (s : State) (n : Nat) (x : Splice) : (s.setSpl n x).fc = s.fc := rfl
@[simp] theorem State.setSpl_held (s : State) (n : Nat) (x : Splice) : (s.setSpl n x).held = s.held := rfl
@[simp] theorem State.setSpl_tsuTime (s : State) (n : Nat) (x : Splice) : (s.setSpl n x).tsuTime = s.tsuTime := rfl
@[simp] theorem State.setSpl_rdata (s : State) (n : Nat) (x : Splice) : (s.setSpl n x).rdata = s.rdata := rfl
@[simp] theorem State.setSpl_timers (s : State) (n : Nat) (x : Splice) : (s.setSpl n x).timers = s.timers := rfl
@[simp] theorem State.setSpl_rig (s : State) (n : Nat) (x : Splice) : (s.setSpl n x).rig = s.rig := rfl
@[simp] theorem State.setSpl_fitted (s : State) (n : Nat) (x : Splice) : (s.setSpl n x).fitted = s.fitted := rfl
@[simp] theorem State.setSpl_budgets (s : State) (n : Nat) (x : Splice) : (s.setSpl n x).budgets = s.budgets := rfl
@[simp] theorem State.setSpl_rems (s : State) (n : Nat) (x : Splice) : (s.setSpl n x).rems = s.rems := rfl
@[simp] theorem State.setSpl_ddrScrub (s : State) (n : Nat) (x : Splice) : (s.setSpl n x).ddrScrub = s.ddrScrub := rfl
@[simp] theorem State.setSpl_outbox (s : State) (n : Nat) (x : Splice) : (s.setSpl n x).outbox = s.outbox := rfl
@[simp] theorem State.setSpl_nand (s : State) (n : Nat) (x : Splice) : (s.setSpl n x).nand = s.nand := rfl
@[simp] theorem State.setSpl_ing (s : State) (n : Nat) (x : Splice) : (s.setSpl n x).ing = s.ing := rfl
@[simp] theorem State.setSpl_readings (s : State) (n : Nat) (x : Splice) : (s.setSpl n x).readings = s.readings := rfl
@[simp] theorem State.setSpl_wire (s : State) (n : Nat) (x : Splice) : (s.setSpl n x).wire = s.wire := rfl
@[simp] theorem State.setSpl_keys (s : State) (n : Nat) (x : Splice) : (s.setSpl n x).keys = s.keys := rfl
@[simp] theorem State.setSpl_root (s : State) (n : Nat) (x : Splice) : (s.setSpl n x).root = s.root := rfl
@[simp] theorem State.setSpl_copies (s : State) (n : Nat) (x : Splice) : (s.setSpl n x).copies = s.copies := rfl
@[simp] theorem State.setSpl_tamperRun (s : State) (n : Nat) (x : Splice) : (s.setSpl n x).tamperRun = s.tamperRun := rfl
@[simp] theorem State.setSpl_tamperDue (s : State) (n : Nat) (x : Splice) : (s.setSpl n x).tamperDue = s.tamperDue := rfl
@[simp] theorem State.setSpl_trng (s : State) (n : Nat) (x : Splice) : (s.setSpl n x).trng = s.trng := rfl
@[simp] theorem State.setSpl_wakeHeld (s : State) (n : Nat) (x : Splice) : (s.setSpl n x).wakeHeld = s.wakeHeld := rfl
@[simp] theorem State.setSpl_results (s : State) (n : Nat) (x : Splice) : (s.setSpl n x).results = s.results := rfl
@[simp] theorem State.setSpl_outputs (s : State) (n : Nat) (x : Splice) : (s.setSpl n x).outputs = s.outputs := rfl
@[simp] theorem State.setSpl_catalogue (s : State) (n : Nat) (x : Splice) : (s.setSpl n x).catalogue = s.catalogue := rfl
@[simp] theorem State.setSpl_bal (s : State) (n : Nat) (x : Splice) : (s.setSpl n x).bal = s.bal := rfl
@[simp] theorem State.setSpl_rtc (s : State) (n : Nat) (x : Splice) : (s.setSpl n x).rtc = s.rtc := rfl
@[simp] theorem State.setSpl_ptp (s : State) (n : Nat) (x : Splice) : (s.setSpl n x).ptp = s.ptp := rfl
@[simp] theorem State.setSpl_balls (s : State) (n : Nat) (x : Splice) : (s.setSpl n x).balls = s.balls := rfl
@[simp] theorem State.setSpl_meas (s : State) (n : Nat) (x : Splice) : (s.setSpl n x).meas = s.meas := rfl
@[simp] theorem State.setSpl_totals (s : State) (n : Nat) (x : Splice) : (s.setSpl n x).totals = s.totals := rfl
@[simp] theorem State.setSpl_pulses (s : State) (n : Nat) (x : Splice) : (s.setSpl n x).pulses = s.pulses := rfl
@[simp] theorem State.setSpl_work (s : State) (n : Nat) (x : Splice) : (s.setSpl n x).work = s.work := rfl
@[simp] theorem State.setSpl_passes (s : State) (n : Nat) (x : Splice) : (s.setSpl n x).passes = s.passes := rfl
@[simp] theorem State.setSpl_mac (s : State) (n : Nat) (x : Splice) : (s.setSpl n x).mac = s.mac := rfl
@[simp] theorem State.setSpl_plc (s : State) (n : Nat) (x : Splice) : (s.setSpl n x).plc = s.plc := rfl
@[simp] theorem State.setSpl_spi (s : State) (n : Nat) (x : Splice) : (s.setSpl n x).spi = s.spi := rfl
@[simp] theorem State.setSpl_partials (s : State) (n : Nat) (x : Splice) : (s.setSpl n x).partials = s.partials := rfl
@[simp] theorem State.setSpl_errPin (s : State) (n : Nat) (x : Splice) : (s.setSpl n x).errPin = s.errPin := rfl
@[simp] theorem State.setSpl_lany (s : State) (n : Nat) (x : Splice) : (s.setSpl n x).lany = s.lany := rfl
@[simp] theorem State.setSpl_lifetime (s : State) (n : Nat) (x : Splice) : (s.setSpl n x).lifetime = s.lifetime := rfl
@[simp] theorem State.setSpl_settings (s : State) (n : Nat) (x : Splice) : (s.setSpl n x).settings = s.settings := rfl
@[simp] theorem State.setSpl_images (s : State) (n : Nat) (x : Splice) : (s.setSpl n x).images = s.images := rfl
@[simp] theorem State.setSpl_versions (s : State) (n : Nat) (x : Splice) : (s.setSpl n x).versions = s.versions := rfl
@[simp] theorem State.setSpl_camps (s : State) (n : Nat) (x : Splice) : (s.setSpl n x).camps = s.camps := rfl
@[simp] theorem State.setSpl_pair (s : State) (n : Nat) (x : Splice) : (s.setSpl n x).pair = s.pair := rfl
@[simp] theorem State.setSpl_dbg (s : State) (n : Nat) (x : Splice) : (s.setSpl n x).dbg = s.dbg := rfl
@[simp] theorem State.setSpl_rings (s : State) (n : Nat) (x : Splice) : (s.setSpl n x).rings = s.rings := rfl
@[simp] theorem State.setSpl_msix (s : State) (n : Nat) (x : Splice) : (s.setSpl n x).msix = s.msix := rfl
@[simp] theorem State.setSpl_eth (s : State) (n : Nat) (x : Splice) : (s.setSpl n x).eth = s.eth := rfl
@[simp] theorem State.setSpl_uarts (s : State) (n : Nat) (x : Splice) : (s.setSpl n x).uarts = s.uarts := rfl
@[simp] theorem State.setSpl_sbus (s : State) (n : Nat) (x : Splice) : (s.setSpl n x).sbus = s.sbus := rfl
@[simp] theorem State.setSpl_now (s : State) (n : Nat) (x : Splice) : (s.setSpl n x).now = s.now := rfl
@[simp] theorem State.setSpl_freeCtr (s : State) (n : Nat) (x : Splice) : (s.setSpl n x).freeCtr = s.freeCtr := rfl
@[simp] theorem State.setSpl_pending (s : State) (n : Nat) (x : Splice) : (s.setSpl n x).pending = s.pending := rfl
@[simp] theorem State.setSpl_rd_read (s : State) (n : Nat) (x : Splice) (b : Nat) : (s.setSpl n x).rd b = s.rd b := rfl
@[simp] theorem State.setSpl_bk_read (s : State) (n : Nat) (x : Splice) (b j : Nat) : (s.setSpl n x).bk b j = s.bk b j := rfl
@[simp] theorem State.setSpl_byte_read (s : State) (n : Nat) (x : Splice) (sq : Space) (b : Nat) : (s.setSpl n x).byte sq b = s.byte sq b := rfl
@[simp] theorem State.setSpl_eccOf_read (s : State) (n : Nat) (x : Splice) (sq : Space) (b : Nat) : (s.setSpl n x).eccOf sq b = s.eccOf sq b := rfl
@[simp] theorem State.setSpl_str_read (s : State) (n : Nat) (x : Splice) (m : Nat) : (s.setSpl n x).str m = s.str m := rfl
@[simp] theorem State.setSpl_lay_read (s : State) (n : Nat) (x : Splice) (m : Nat) : (s.setSpl n x).lay m = s.lay m := rfl
@[simp] theorem State.setSpl_timer_read (s : State) (n : Nat) (x : Splice) (m : Nat) : (s.setSpl n x).timer m = s.timer m := rfl

/-! ### State.setTimer writes `timers` alone -/

@[simp] theorem State.setTimer_regs (s : State) (k t : Nat) : (s.setTimer k t).regs = s.regs := rfl
@[simp] theorem State.setTimer_bank (s : State) (k t : Nat) : (s.setTimer k t).bank = s.bank := rfl
@[simp] theorem State.setTimer_latch (s : State) (k t : Nat) : (s.setTimer k t).latch = s.latch := rfl
@[simp] theorem State.setTimer_shadow (s : State) (k t : Nat) : (s.setTimer k t).shadow = s.shadow := rfl
@[simp] theorem State.setTimer_mem (s : State) (k t : Nat) : (s.setTimer k t).mem = s.mem := rfl
@[simp] theorem State.setTimer_ecc (s : State) (k t : Nat) : (s.setTimer k t).ecc = s.ecc := rfl
@[simp] theorem State.setTimer_strands (s : State) (k t : Nat) : (s.setTimer k t).strands = s.strands := rfl
@[simp] theorem State.setTimer_lays (s : State) (k t : Nat) : (s.setTimer k t).lays = s.lays := rfl
@[simp] theorem State.setTimer_splices (s : State) (k t : Nat) : (s.setTimer k t).splices = s.splices := rfl
@[simp] theorem State.setTimer_poolScrub (s : State) (k t : Nat) : (s.setTimer k t).poolScrub = s.poolScrub := rfl
@[simp] theorem State.setTimer_otp (s : State) (k t : Nat) : (s.setTimer k t).otp = s.otp := rfl
@[simp] theorem State.setTimer_evr (s : State) (k t : Nat) : (s.setTimer k t).evr = s.evr := rfl
@[simp] theorem State.setTimer_fc (s : State) (k t : Nat) : (s.setTimer k t).fc = s.fc := rfl
@[simp] theorem State.setTimer_held (s : State) (k t : Nat) : (s.setTimer k t).held = s.held := rfl
@[simp] theorem State.setTimer_tsuTime (s : State) (k t : Nat) : (s.setTimer k t).tsuTime = s.tsuTime := rfl
@[simp] theorem State.setTimer_rdata (s : State) (k t : Nat) : (s.setTimer k t).rdata = s.rdata := rfl
@[simp] theorem State.setTimer_rig (s : State) (k t : Nat) : (s.setTimer k t).rig = s.rig := rfl
@[simp] theorem State.setTimer_fitted (s : State) (k t : Nat) : (s.setTimer k t).fitted = s.fitted := rfl
@[simp] theorem State.setTimer_budgets (s : State) (k t : Nat) : (s.setTimer k t).budgets = s.budgets := rfl
@[simp] theorem State.setTimer_rems (s : State) (k t : Nat) : (s.setTimer k t).rems = s.rems := rfl
@[simp] theorem State.setTimer_ddrScrub (s : State) (k t : Nat) : (s.setTimer k t).ddrScrub = s.ddrScrub := rfl
@[simp] theorem State.setTimer_outbox (s : State) (k t : Nat) : (s.setTimer k t).outbox = s.outbox := rfl
@[simp] theorem State.setTimer_nand (s : State) (k t : Nat) : (s.setTimer k t).nand = s.nand := rfl
@[simp] theorem State.setTimer_ing (s : State) (k t : Nat) : (s.setTimer k t).ing = s.ing := rfl
@[simp] theorem State.setTimer_readings (s : State) (k t : Nat) : (s.setTimer k t).readings = s.readings := rfl
@[simp] theorem State.setTimer_wire (s : State) (k t : Nat) : (s.setTimer k t).wire = s.wire := rfl
@[simp] theorem State.setTimer_keys (s : State) (k t : Nat) : (s.setTimer k t).keys = s.keys := rfl
@[simp] theorem State.setTimer_root (s : State) (k t : Nat) : (s.setTimer k t).root = s.root := rfl
@[simp] theorem State.setTimer_copies (s : State) (k t : Nat) : (s.setTimer k t).copies = s.copies := rfl
@[simp] theorem State.setTimer_tamperRun (s : State) (k t : Nat) : (s.setTimer k t).tamperRun = s.tamperRun := rfl
@[simp] theorem State.setTimer_tamperDue (s : State) (k t : Nat) : (s.setTimer k t).tamperDue = s.tamperDue := rfl
@[simp] theorem State.setTimer_trng (s : State) (k t : Nat) : (s.setTimer k t).trng = s.trng := rfl
@[simp] theorem State.setTimer_wakeHeld (s : State) (k t : Nat) : (s.setTimer k t).wakeHeld = s.wakeHeld := rfl
@[simp] theorem State.setTimer_results (s : State) (k t : Nat) : (s.setTimer k t).results = s.results := rfl
@[simp] theorem State.setTimer_outputs (s : State) (k t : Nat) : (s.setTimer k t).outputs = s.outputs := rfl
@[simp] theorem State.setTimer_catalogue (s : State) (k t : Nat) : (s.setTimer k t).catalogue = s.catalogue := rfl
@[simp] theorem State.setTimer_bal (s : State) (k t : Nat) : (s.setTimer k t).bal = s.bal := rfl
@[simp] theorem State.setTimer_rtc (s : State) (k t : Nat) : (s.setTimer k t).rtc = s.rtc := rfl
@[simp] theorem State.setTimer_ptp (s : State) (k t : Nat) : (s.setTimer k t).ptp = s.ptp := rfl
@[simp] theorem State.setTimer_balls (s : State) (k t : Nat) : (s.setTimer k t).balls = s.balls := rfl
@[simp] theorem State.setTimer_meas (s : State) (k t : Nat) : (s.setTimer k t).meas = s.meas := rfl
@[simp] theorem State.setTimer_totals (s : State) (k t : Nat) : (s.setTimer k t).totals = s.totals := rfl
@[simp] theorem State.setTimer_pulses (s : State) (k t : Nat) : (s.setTimer k t).pulses = s.pulses := rfl
@[simp] theorem State.setTimer_work (s : State) (k t : Nat) : (s.setTimer k t).work = s.work := rfl
@[simp] theorem State.setTimer_passes (s : State) (k t : Nat) : (s.setTimer k t).passes = s.passes := rfl
@[simp] theorem State.setTimer_mac (s : State) (k t : Nat) : (s.setTimer k t).mac = s.mac := rfl
@[simp] theorem State.setTimer_plc (s : State) (k t : Nat) : (s.setTimer k t).plc = s.plc := rfl
@[simp] theorem State.setTimer_spi (s : State) (k t : Nat) : (s.setTimer k t).spi = s.spi := rfl
@[simp] theorem State.setTimer_partials (s : State) (k t : Nat) : (s.setTimer k t).partials = s.partials := rfl
@[simp] theorem State.setTimer_errPin (s : State) (k t : Nat) : (s.setTimer k t).errPin = s.errPin := rfl
@[simp] theorem State.setTimer_lany (s : State) (k t : Nat) : (s.setTimer k t).lany = s.lany := rfl
@[simp] theorem State.setTimer_lifetime (s : State) (k t : Nat) : (s.setTimer k t).lifetime = s.lifetime := rfl
@[simp] theorem State.setTimer_settings (s : State) (k t : Nat) : (s.setTimer k t).settings = s.settings := rfl
@[simp] theorem State.setTimer_images (s : State) (k t : Nat) : (s.setTimer k t).images = s.images := rfl
@[simp] theorem State.setTimer_versions (s : State) (k t : Nat) : (s.setTimer k t).versions = s.versions := rfl
@[simp] theorem State.setTimer_camps (s : State) (k t : Nat) : (s.setTimer k t).camps = s.camps := rfl
@[simp] theorem State.setTimer_pair (s : State) (k t : Nat) : (s.setTimer k t).pair = s.pair := rfl
@[simp] theorem State.setTimer_dbg (s : State) (k t : Nat) : (s.setTimer k t).dbg = s.dbg := rfl
@[simp] theorem State.setTimer_rings (s : State) (k t : Nat) : (s.setTimer k t).rings = s.rings := rfl
@[simp] theorem State.setTimer_msix (s : State) (k t : Nat) : (s.setTimer k t).msix = s.msix := rfl
@[simp] theorem State.setTimer_eth (s : State) (k t : Nat) : (s.setTimer k t).eth = s.eth := rfl
@[simp] theorem State.setTimer_uarts (s : State) (k t : Nat) : (s.setTimer k t).uarts = s.uarts := rfl
@[simp] theorem State.setTimer_sbus (s : State) (k t : Nat) : (s.setTimer k t).sbus = s.sbus := rfl
@[simp] theorem State.setTimer_now (s : State) (k t : Nat) : (s.setTimer k t).now = s.now := rfl
@[simp] theorem State.setTimer_freeCtr (s : State) (k t : Nat) : (s.setTimer k t).freeCtr = s.freeCtr := rfl
@[simp] theorem State.setTimer_pending (s : State) (k t : Nat) : (s.setTimer k t).pending = s.pending := rfl
@[simp] theorem State.setTimer_rd_read (s : State) (k t : Nat) (b : Nat) : (s.setTimer k t).rd b = s.rd b := rfl
@[simp] theorem State.setTimer_bk_read (s : State) (k t : Nat) (b j : Nat) : (s.setTimer k t).bk b j = s.bk b j := rfl
@[simp] theorem State.setTimer_byte_read (s : State) (k t : Nat) (sq : Space) (b : Nat) : (s.setTimer k t).byte sq b = s.byte sq b := rfl
@[simp] theorem State.setTimer_eccOf_read (s : State) (k t : Nat) (sq : Space) (b : Nat) : (s.setTimer k t).eccOf sq b = s.eccOf sq b := rfl
@[simp] theorem State.setTimer_str_read (s : State) (k t : Nat) (m : Nat) : (s.setTimer k t).str m = s.str m := rfl
@[simp] theorem State.setTimer_lay_read (s : State) (k t : Nat) (m : Nat) : (s.setTimer k t).lay m = s.lay m := rfl
@[simp] theorem State.setTimer_spl_read (s : State) (k t : Nat) (m : Nat) : (s.setTimer k t).spl m = s.spl m := rfl

/-! ### State.setNand writes `nand` alone -/

@[simp] theorem State.setNand_regs (s : State) (x : Nand) : (s.setNand x).regs = s.regs := rfl
@[simp] theorem State.setNand_bank (s : State) (x : Nand) : (s.setNand x).bank = s.bank := rfl
@[simp] theorem State.setNand_latch (s : State) (x : Nand) : (s.setNand x).latch = s.latch := rfl
@[simp] theorem State.setNand_shadow (s : State) (x : Nand) : (s.setNand x).shadow = s.shadow := rfl
@[simp] theorem State.setNand_mem (s : State) (x : Nand) : (s.setNand x).mem = s.mem := rfl
@[simp] theorem State.setNand_ecc (s : State) (x : Nand) : (s.setNand x).ecc = s.ecc := rfl
@[simp] theorem State.setNand_strands (s : State) (x : Nand) : (s.setNand x).strands = s.strands := rfl
@[simp] theorem State.setNand_lays (s : State) (x : Nand) : (s.setNand x).lays = s.lays := rfl
@[simp] theorem State.setNand_splices (s : State) (x : Nand) : (s.setNand x).splices = s.splices := rfl
@[simp] theorem State.setNand_poolScrub (s : State) (x : Nand) : (s.setNand x).poolScrub = s.poolScrub := rfl
@[simp] theorem State.setNand_otp (s : State) (x : Nand) : (s.setNand x).otp = s.otp := rfl
@[simp] theorem State.setNand_evr (s : State) (x : Nand) : (s.setNand x).evr = s.evr := rfl
@[simp] theorem State.setNand_fc (s : State) (x : Nand) : (s.setNand x).fc = s.fc := rfl
@[simp] theorem State.setNand_held (s : State) (x : Nand) : (s.setNand x).held = s.held := rfl
@[simp] theorem State.setNand_tsuTime (s : State) (x : Nand) : (s.setNand x).tsuTime = s.tsuTime := rfl
@[simp] theorem State.setNand_rdata (s : State) (x : Nand) : (s.setNand x).rdata = s.rdata := rfl
@[simp] theorem State.setNand_timers (s : State) (x : Nand) : (s.setNand x).timers = s.timers := rfl
@[simp] theorem State.setNand_rig (s : State) (x : Nand) : (s.setNand x).rig = s.rig := rfl
@[simp] theorem State.setNand_fitted (s : State) (x : Nand) : (s.setNand x).fitted = s.fitted := rfl
@[simp] theorem State.setNand_budgets (s : State) (x : Nand) : (s.setNand x).budgets = s.budgets := rfl
@[simp] theorem State.setNand_rems (s : State) (x : Nand) : (s.setNand x).rems = s.rems := rfl
@[simp] theorem State.setNand_ddrScrub (s : State) (x : Nand) : (s.setNand x).ddrScrub = s.ddrScrub := rfl
@[simp] theorem State.setNand_outbox (s : State) (x : Nand) : (s.setNand x).outbox = s.outbox := rfl
@[simp] theorem State.setNand_ing (s : State) (x : Nand) : (s.setNand x).ing = s.ing := rfl
@[simp] theorem State.setNand_readings (s : State) (x : Nand) : (s.setNand x).readings = s.readings := rfl
@[simp] theorem State.setNand_wire (s : State) (x : Nand) : (s.setNand x).wire = s.wire := rfl
@[simp] theorem State.setNand_keys (s : State) (x : Nand) : (s.setNand x).keys = s.keys := rfl
@[simp] theorem State.setNand_root (s : State) (x : Nand) : (s.setNand x).root = s.root := rfl
@[simp] theorem State.setNand_copies (s : State) (x : Nand) : (s.setNand x).copies = s.copies := rfl
@[simp] theorem State.setNand_tamperRun (s : State) (x : Nand) : (s.setNand x).tamperRun = s.tamperRun := rfl
@[simp] theorem State.setNand_tamperDue (s : State) (x : Nand) : (s.setNand x).tamperDue = s.tamperDue := rfl
@[simp] theorem State.setNand_trng (s : State) (x : Nand) : (s.setNand x).trng = s.trng := rfl
@[simp] theorem State.setNand_wakeHeld (s : State) (x : Nand) : (s.setNand x).wakeHeld = s.wakeHeld := rfl
@[simp] theorem State.setNand_results (s : State) (x : Nand) : (s.setNand x).results = s.results := rfl
@[simp] theorem State.setNand_outputs (s : State) (x : Nand) : (s.setNand x).outputs = s.outputs := rfl
@[simp] theorem State.setNand_catalogue (s : State) (x : Nand) : (s.setNand x).catalogue = s.catalogue := rfl
@[simp] theorem State.setNand_bal (s : State) (x : Nand) : (s.setNand x).bal = s.bal := rfl
@[simp] theorem State.setNand_rtc (s : State) (x : Nand) : (s.setNand x).rtc = s.rtc := rfl
@[simp] theorem State.setNand_ptp (s : State) (x : Nand) : (s.setNand x).ptp = s.ptp := rfl
@[simp] theorem State.setNand_balls (s : State) (x : Nand) : (s.setNand x).balls = s.balls := rfl
@[simp] theorem State.setNand_meas (s : State) (x : Nand) : (s.setNand x).meas = s.meas := rfl
@[simp] theorem State.setNand_totals (s : State) (x : Nand) : (s.setNand x).totals = s.totals := rfl
@[simp] theorem State.setNand_pulses (s : State) (x : Nand) : (s.setNand x).pulses = s.pulses := rfl
@[simp] theorem State.setNand_work (s : State) (x : Nand) : (s.setNand x).work = s.work := rfl
@[simp] theorem State.setNand_passes (s : State) (x : Nand) : (s.setNand x).passes = s.passes := rfl
@[simp] theorem State.setNand_mac (s : State) (x : Nand) : (s.setNand x).mac = s.mac := rfl
@[simp] theorem State.setNand_plc (s : State) (x : Nand) : (s.setNand x).plc = s.plc := rfl
@[simp] theorem State.setNand_spi (s : State) (x : Nand) : (s.setNand x).spi = s.spi := rfl
@[simp] theorem State.setNand_partials (s : State) (x : Nand) : (s.setNand x).partials = s.partials := rfl
@[simp] theorem State.setNand_errPin (s : State) (x : Nand) : (s.setNand x).errPin = s.errPin := rfl
@[simp] theorem State.setNand_lany (s : State) (x : Nand) : (s.setNand x).lany = s.lany := rfl
@[simp] theorem State.setNand_lifetime (s : State) (x : Nand) : (s.setNand x).lifetime = s.lifetime := rfl
@[simp] theorem State.setNand_settings (s : State) (x : Nand) : (s.setNand x).settings = s.settings := rfl
@[simp] theorem State.setNand_images (s : State) (x : Nand) : (s.setNand x).images = s.images := rfl
@[simp] theorem State.setNand_versions (s : State) (x : Nand) : (s.setNand x).versions = s.versions := rfl
@[simp] theorem State.setNand_camps (s : State) (x : Nand) : (s.setNand x).camps = s.camps := rfl
@[simp] theorem State.setNand_pair (s : State) (x : Nand) : (s.setNand x).pair = s.pair := rfl
@[simp] theorem State.setNand_dbg (s : State) (x : Nand) : (s.setNand x).dbg = s.dbg := rfl
@[simp] theorem State.setNand_rings (s : State) (x : Nand) : (s.setNand x).rings = s.rings := rfl
@[simp] theorem State.setNand_msix (s : State) (x : Nand) : (s.setNand x).msix = s.msix := rfl
@[simp] theorem State.setNand_eth (s : State) (x : Nand) : (s.setNand x).eth = s.eth := rfl
@[simp] theorem State.setNand_uarts (s : State) (x : Nand) : (s.setNand x).uarts = s.uarts := rfl
@[simp] theorem State.setNand_sbus (s : State) (x : Nand) : (s.setNand x).sbus = s.sbus := rfl
@[simp] theorem State.setNand_now (s : State) (x : Nand) : (s.setNand x).now = s.now := rfl
@[simp] theorem State.setNand_freeCtr (s : State) (x : Nand) : (s.setNand x).freeCtr = s.freeCtr := rfl
@[simp] theorem State.setNand_pending (s : State) (x : Nand) : (s.setNand x).pending = s.pending := rfl
@[simp] theorem State.setNand_rd_read (s : State) (x : Nand) (b : Nat) : (s.setNand x).rd b = s.rd b := rfl
@[simp] theorem State.setNand_bk_read (s : State) (x : Nand) (b j : Nat) : (s.setNand x).bk b j = s.bk b j := rfl
@[simp] theorem State.setNand_byte_read (s : State) (x : Nand) (sq : Space) (b : Nat) : (s.setNand x).byte sq b = s.byte sq b := rfl
@[simp] theorem State.setNand_eccOf_read (s : State) (x : Nand) (sq : Space) (b : Nat) : (s.setNand x).eccOf sq b = s.eccOf sq b := rfl
@[simp] theorem State.setNand_str_read (s : State) (x : Nand) (m : Nat) : (s.setNand x).str m = s.str m := rfl
@[simp] theorem State.setNand_lay_read (s : State) (x : Nand) (m : Nat) : (s.setNand x).lay m = s.lay m := rfl
@[simp] theorem State.setNand_spl_read (s : State) (x : Nand) (m : Nat) : (s.setNand x).spl m = s.spl m := rfl
@[simp] theorem State.setNand_timer_read (s : State) (x : Nand) (m : Nat) : (s.setNand x).timer m = s.timer m := rfl

/-! ### State.setLatch writes `latch` alone -/

@[simp] theorem State.setLatch_regs (s : State) (q : Requester) (a : Nat) (v : Word32) : (s.setLatch q a v).regs = s.regs := rfl
@[simp] theorem State.setLatch_bank (s : State) (q : Requester) (a : Nat) (v : Word32) : (s.setLatch q a v).bank = s.bank := rfl
@[simp] theorem State.setLatch_shadow (s : State) (q : Requester) (a : Nat) (v : Word32) : (s.setLatch q a v).shadow = s.shadow := rfl
@[simp] theorem State.setLatch_mem (s : State) (q : Requester) (a : Nat) (v : Word32) : (s.setLatch q a v).mem = s.mem := rfl
@[simp] theorem State.setLatch_ecc (s : State) (q : Requester) (a : Nat) (v : Word32) : (s.setLatch q a v).ecc = s.ecc := rfl
@[simp] theorem State.setLatch_strands (s : State) (q : Requester) (a : Nat) (v : Word32) : (s.setLatch q a v).strands = s.strands := rfl
@[simp] theorem State.setLatch_lays (s : State) (q : Requester) (a : Nat) (v : Word32) : (s.setLatch q a v).lays = s.lays := rfl
@[simp] theorem State.setLatch_splices (s : State) (q : Requester) (a : Nat) (v : Word32) : (s.setLatch q a v).splices = s.splices := rfl
@[simp] theorem State.setLatch_poolScrub (s : State) (q : Requester) (a : Nat) (v : Word32) : (s.setLatch q a v).poolScrub = s.poolScrub := rfl
@[simp] theorem State.setLatch_otp (s : State) (q : Requester) (a : Nat) (v : Word32) : (s.setLatch q a v).otp = s.otp := rfl
@[simp] theorem State.setLatch_evr (s : State) (q : Requester) (a : Nat) (v : Word32) : (s.setLatch q a v).evr = s.evr := rfl
@[simp] theorem State.setLatch_fc (s : State) (q : Requester) (a : Nat) (v : Word32) : (s.setLatch q a v).fc = s.fc := rfl
@[simp] theorem State.setLatch_held (s : State) (q : Requester) (a : Nat) (v : Word32) : (s.setLatch q a v).held = s.held := rfl
@[simp] theorem State.setLatch_tsuTime (s : State) (q : Requester) (a : Nat) (v : Word32) : (s.setLatch q a v).tsuTime = s.tsuTime := rfl
@[simp] theorem State.setLatch_rdata (s : State) (q : Requester) (a : Nat) (v : Word32) : (s.setLatch q a v).rdata = s.rdata := rfl
@[simp] theorem State.setLatch_timers (s : State) (q : Requester) (a : Nat) (v : Word32) : (s.setLatch q a v).timers = s.timers := rfl
@[simp] theorem State.setLatch_rig (s : State) (q : Requester) (a : Nat) (v : Word32) : (s.setLatch q a v).rig = s.rig := rfl
@[simp] theorem State.setLatch_fitted (s : State) (q : Requester) (a : Nat) (v : Word32) : (s.setLatch q a v).fitted = s.fitted := rfl
@[simp] theorem State.setLatch_budgets (s : State) (q : Requester) (a : Nat) (v : Word32) : (s.setLatch q a v).budgets = s.budgets := rfl
@[simp] theorem State.setLatch_rems (s : State) (q : Requester) (a : Nat) (v : Word32) : (s.setLatch q a v).rems = s.rems := rfl
@[simp] theorem State.setLatch_ddrScrub (s : State) (q : Requester) (a : Nat) (v : Word32) : (s.setLatch q a v).ddrScrub = s.ddrScrub := rfl
@[simp] theorem State.setLatch_outbox (s : State) (q : Requester) (a : Nat) (v : Word32) : (s.setLatch q a v).outbox = s.outbox := rfl
@[simp] theorem State.setLatch_nand (s : State) (q : Requester) (a : Nat) (v : Word32) : (s.setLatch q a v).nand = s.nand := rfl
@[simp] theorem State.setLatch_ing (s : State) (q : Requester) (a : Nat) (v : Word32) : (s.setLatch q a v).ing = s.ing := rfl
@[simp] theorem State.setLatch_readings (s : State) (q : Requester) (a : Nat) (v : Word32) : (s.setLatch q a v).readings = s.readings := rfl
@[simp] theorem State.setLatch_wire (s : State) (q : Requester) (a : Nat) (v : Word32) : (s.setLatch q a v).wire = s.wire := rfl
@[simp] theorem State.setLatch_keys (s : State) (q : Requester) (a : Nat) (v : Word32) : (s.setLatch q a v).keys = s.keys := rfl
@[simp] theorem State.setLatch_root (s : State) (q : Requester) (a : Nat) (v : Word32) : (s.setLatch q a v).root = s.root := rfl
@[simp] theorem State.setLatch_copies (s : State) (q : Requester) (a : Nat) (v : Word32) : (s.setLatch q a v).copies = s.copies := rfl
@[simp] theorem State.setLatch_tamperRun (s : State) (q : Requester) (a : Nat) (v : Word32) : (s.setLatch q a v).tamperRun = s.tamperRun := rfl
@[simp] theorem State.setLatch_tamperDue (s : State) (q : Requester) (a : Nat) (v : Word32) : (s.setLatch q a v).tamperDue = s.tamperDue := rfl
@[simp] theorem State.setLatch_trng (s : State) (q : Requester) (a : Nat) (v : Word32) : (s.setLatch q a v).trng = s.trng := rfl
@[simp] theorem State.setLatch_wakeHeld (s : State) (q : Requester) (a : Nat) (v : Word32) : (s.setLatch q a v).wakeHeld = s.wakeHeld := rfl
@[simp] theorem State.setLatch_results (s : State) (q : Requester) (a : Nat) (v : Word32) : (s.setLatch q a v).results = s.results := rfl
@[simp] theorem State.setLatch_outputs (s : State) (q : Requester) (a : Nat) (v : Word32) : (s.setLatch q a v).outputs = s.outputs := rfl
@[simp] theorem State.setLatch_catalogue (s : State) (q : Requester) (a : Nat) (v : Word32) : (s.setLatch q a v).catalogue = s.catalogue := rfl
@[simp] theorem State.setLatch_bal (s : State) (q : Requester) (a : Nat) (v : Word32) : (s.setLatch q a v).bal = s.bal := rfl
@[simp] theorem State.setLatch_rtc (s : State) (q : Requester) (a : Nat) (v : Word32) : (s.setLatch q a v).rtc = s.rtc := rfl
@[simp] theorem State.setLatch_ptp (s : State) (q : Requester) (a : Nat) (v : Word32) : (s.setLatch q a v).ptp = s.ptp := rfl
@[simp] theorem State.setLatch_balls (s : State) (q : Requester) (a : Nat) (v : Word32) : (s.setLatch q a v).balls = s.balls := rfl
@[simp] theorem State.setLatch_meas (s : State) (q : Requester) (a : Nat) (v : Word32) : (s.setLatch q a v).meas = s.meas := rfl
@[simp] theorem State.setLatch_totals (s : State) (q : Requester) (a : Nat) (v : Word32) : (s.setLatch q a v).totals = s.totals := rfl
@[simp] theorem State.setLatch_pulses (s : State) (q : Requester) (a : Nat) (v : Word32) : (s.setLatch q a v).pulses = s.pulses := rfl
@[simp] theorem State.setLatch_work (s : State) (q : Requester) (a : Nat) (v : Word32) : (s.setLatch q a v).work = s.work := rfl
@[simp] theorem State.setLatch_passes (s : State) (q : Requester) (a : Nat) (v : Word32) : (s.setLatch q a v).passes = s.passes := rfl
@[simp] theorem State.setLatch_mac (s : State) (q : Requester) (a : Nat) (v : Word32) : (s.setLatch q a v).mac = s.mac := rfl
@[simp] theorem State.setLatch_plc (s : State) (q : Requester) (a : Nat) (v : Word32) : (s.setLatch q a v).plc = s.plc := rfl
@[simp] theorem State.setLatch_spi (s : State) (q : Requester) (a : Nat) (v : Word32) : (s.setLatch q a v).spi = s.spi := rfl
@[simp] theorem State.setLatch_partials (s : State) (q : Requester) (a : Nat) (v : Word32) : (s.setLatch q a v).partials = s.partials := rfl
@[simp] theorem State.setLatch_errPin (s : State) (q : Requester) (a : Nat) (v : Word32) : (s.setLatch q a v).errPin = s.errPin := rfl
@[simp] theorem State.setLatch_lany (s : State) (q : Requester) (a : Nat) (v : Word32) : (s.setLatch q a v).lany = s.lany := rfl
@[simp] theorem State.setLatch_lifetime (s : State) (q : Requester) (a : Nat) (v : Word32) : (s.setLatch q a v).lifetime = s.lifetime := rfl
@[simp] theorem State.setLatch_settings (s : State) (q : Requester) (a : Nat) (v : Word32) : (s.setLatch q a v).settings = s.settings := rfl
@[simp] theorem State.setLatch_images (s : State) (q : Requester) (a : Nat) (v : Word32) : (s.setLatch q a v).images = s.images := rfl
@[simp] theorem State.setLatch_versions (s : State) (q : Requester) (a : Nat) (v : Word32) : (s.setLatch q a v).versions = s.versions := rfl
@[simp] theorem State.setLatch_camps (s : State) (q : Requester) (a : Nat) (v : Word32) : (s.setLatch q a v).camps = s.camps := rfl
@[simp] theorem State.setLatch_pair (s : State) (q : Requester) (a : Nat) (v : Word32) : (s.setLatch q a v).pair = s.pair := rfl
@[simp] theorem State.setLatch_dbg (s : State) (q : Requester) (a : Nat) (v : Word32) : (s.setLatch q a v).dbg = s.dbg := rfl
@[simp] theorem State.setLatch_rings (s : State) (q : Requester) (a : Nat) (v : Word32) : (s.setLatch q a v).rings = s.rings := rfl
@[simp] theorem State.setLatch_msix (s : State) (q : Requester) (a : Nat) (v : Word32) : (s.setLatch q a v).msix = s.msix := rfl
@[simp] theorem State.setLatch_eth (s : State) (q : Requester) (a : Nat) (v : Word32) : (s.setLatch q a v).eth = s.eth := rfl
@[simp] theorem State.setLatch_uarts (s : State) (q : Requester) (a : Nat) (v : Word32) : (s.setLatch q a v).uarts = s.uarts := rfl
@[simp] theorem State.setLatch_sbus (s : State) (q : Requester) (a : Nat) (v : Word32) : (s.setLatch q a v).sbus = s.sbus := rfl
@[simp] theorem State.setLatch_now (s : State) (q : Requester) (a : Nat) (v : Word32) : (s.setLatch q a v).now = s.now := rfl
@[simp] theorem State.setLatch_freeCtr (s : State) (q : Requester) (a : Nat) (v : Word32) : (s.setLatch q a v).freeCtr = s.freeCtr := rfl
@[simp] theorem State.setLatch_pending (s : State) (q : Requester) (a : Nat) (v : Word32) : (s.setLatch q a v).pending = s.pending := rfl
@[simp] theorem State.setLatch_rd_read (s : State) (q : Requester) (a : Nat) (v : Word32) (b : Nat) : (s.setLatch q a v).rd b = s.rd b := rfl
@[simp] theorem State.setLatch_bk_read (s : State) (q : Requester) (a : Nat) (v : Word32) (b j : Nat) : (s.setLatch q a v).bk b j = s.bk b j := rfl
@[simp] theorem State.setLatch_byte_read (s : State) (q : Requester) (a : Nat) (v : Word32) (sq : Space) (b : Nat) : (s.setLatch q a v).byte sq b = s.byte sq b := rfl
@[simp] theorem State.setLatch_eccOf_read (s : State) (q : Requester) (a : Nat) (v : Word32) (sq : Space) (b : Nat) : (s.setLatch q a v).eccOf sq b = s.eccOf sq b := rfl
@[simp] theorem State.setLatch_str_read (s : State) (q : Requester) (a : Nat) (v : Word32) (m : Nat) : (s.setLatch q a v).str m = s.str m := rfl
@[simp] theorem State.setLatch_lay_read (s : State) (q : Requester) (a : Nat) (v : Word32) (m : Nat) : (s.setLatch q a v).lay m = s.lay m := rfl
@[simp] theorem State.setLatch_spl_read (s : State) (q : Requester) (a : Nat) (v : Word32) (m : Nat) : (s.setLatch q a v).spl m = s.spl m := rfl
@[simp] theorem State.setLatch_timer_read (s : State) (q : Requester) (a : Nat) (v : Word32) (m : Nat) : (s.setLatch q a v).timer m = s.timer m := rfl

/-! ### State.setShadow writes `shadow` alone -/

@[simp] theorem State.setShadow_regs (s : State) (q : Requester) (a : Nat) (v : Word32) : (s.setShadow q a v).regs = s.regs := rfl
@[simp] theorem State.setShadow_bank (s : State) (q : Requester) (a : Nat) (v : Word32) : (s.setShadow q a v).bank = s.bank := rfl
@[simp] theorem State.setShadow_latch (s : State) (q : Requester) (a : Nat) (v : Word32) : (s.setShadow q a v).latch = s.latch := rfl
@[simp] theorem State.setShadow_mem (s : State) (q : Requester) (a : Nat) (v : Word32) : (s.setShadow q a v).mem = s.mem := rfl
@[simp] theorem State.setShadow_ecc (s : State) (q : Requester) (a : Nat) (v : Word32) : (s.setShadow q a v).ecc = s.ecc := rfl
@[simp] theorem State.setShadow_strands (s : State) (q : Requester) (a : Nat) (v : Word32) : (s.setShadow q a v).strands = s.strands := rfl
@[simp] theorem State.setShadow_lays (s : State) (q : Requester) (a : Nat) (v : Word32) : (s.setShadow q a v).lays = s.lays := rfl
@[simp] theorem State.setShadow_splices (s : State) (q : Requester) (a : Nat) (v : Word32) : (s.setShadow q a v).splices = s.splices := rfl
@[simp] theorem State.setShadow_poolScrub (s : State) (q : Requester) (a : Nat) (v : Word32) : (s.setShadow q a v).poolScrub = s.poolScrub := rfl
@[simp] theorem State.setShadow_otp (s : State) (q : Requester) (a : Nat) (v : Word32) : (s.setShadow q a v).otp = s.otp := rfl
@[simp] theorem State.setShadow_evr (s : State) (q : Requester) (a : Nat) (v : Word32) : (s.setShadow q a v).evr = s.evr := rfl
@[simp] theorem State.setShadow_fc (s : State) (q : Requester) (a : Nat) (v : Word32) : (s.setShadow q a v).fc = s.fc := rfl
@[simp] theorem State.setShadow_held (s : State) (q : Requester) (a : Nat) (v : Word32) : (s.setShadow q a v).held = s.held := rfl
@[simp] theorem State.setShadow_tsuTime (s : State) (q : Requester) (a : Nat) (v : Word32) : (s.setShadow q a v).tsuTime = s.tsuTime := rfl
@[simp] theorem State.setShadow_rdata (s : State) (q : Requester) (a : Nat) (v : Word32) : (s.setShadow q a v).rdata = s.rdata := rfl
@[simp] theorem State.setShadow_timers (s : State) (q : Requester) (a : Nat) (v : Word32) : (s.setShadow q a v).timers = s.timers := rfl
@[simp] theorem State.setShadow_rig (s : State) (q : Requester) (a : Nat) (v : Word32) : (s.setShadow q a v).rig = s.rig := rfl
@[simp] theorem State.setShadow_fitted (s : State) (q : Requester) (a : Nat) (v : Word32) : (s.setShadow q a v).fitted = s.fitted := rfl
@[simp] theorem State.setShadow_budgets (s : State) (q : Requester) (a : Nat) (v : Word32) : (s.setShadow q a v).budgets = s.budgets := rfl
@[simp] theorem State.setShadow_rems (s : State) (q : Requester) (a : Nat) (v : Word32) : (s.setShadow q a v).rems = s.rems := rfl
@[simp] theorem State.setShadow_ddrScrub (s : State) (q : Requester) (a : Nat) (v : Word32) : (s.setShadow q a v).ddrScrub = s.ddrScrub := rfl
@[simp] theorem State.setShadow_outbox (s : State) (q : Requester) (a : Nat) (v : Word32) : (s.setShadow q a v).outbox = s.outbox := rfl
@[simp] theorem State.setShadow_nand (s : State) (q : Requester) (a : Nat) (v : Word32) : (s.setShadow q a v).nand = s.nand := rfl
@[simp] theorem State.setShadow_ing (s : State) (q : Requester) (a : Nat) (v : Word32) : (s.setShadow q a v).ing = s.ing := rfl
@[simp] theorem State.setShadow_readings (s : State) (q : Requester) (a : Nat) (v : Word32) : (s.setShadow q a v).readings = s.readings := rfl
@[simp] theorem State.setShadow_wire (s : State) (q : Requester) (a : Nat) (v : Word32) : (s.setShadow q a v).wire = s.wire := rfl
@[simp] theorem State.setShadow_keys (s : State) (q : Requester) (a : Nat) (v : Word32) : (s.setShadow q a v).keys = s.keys := rfl
@[simp] theorem State.setShadow_root (s : State) (q : Requester) (a : Nat) (v : Word32) : (s.setShadow q a v).root = s.root := rfl
@[simp] theorem State.setShadow_copies (s : State) (q : Requester) (a : Nat) (v : Word32) : (s.setShadow q a v).copies = s.copies := rfl
@[simp] theorem State.setShadow_tamperRun (s : State) (q : Requester) (a : Nat) (v : Word32) : (s.setShadow q a v).tamperRun = s.tamperRun := rfl
@[simp] theorem State.setShadow_tamperDue (s : State) (q : Requester) (a : Nat) (v : Word32) : (s.setShadow q a v).tamperDue = s.tamperDue := rfl
@[simp] theorem State.setShadow_trng (s : State) (q : Requester) (a : Nat) (v : Word32) : (s.setShadow q a v).trng = s.trng := rfl
@[simp] theorem State.setShadow_wakeHeld (s : State) (q : Requester) (a : Nat) (v : Word32) : (s.setShadow q a v).wakeHeld = s.wakeHeld := rfl
@[simp] theorem State.setShadow_results (s : State) (q : Requester) (a : Nat) (v : Word32) : (s.setShadow q a v).results = s.results := rfl
@[simp] theorem State.setShadow_outputs (s : State) (q : Requester) (a : Nat) (v : Word32) : (s.setShadow q a v).outputs = s.outputs := rfl
@[simp] theorem State.setShadow_catalogue (s : State) (q : Requester) (a : Nat) (v : Word32) : (s.setShadow q a v).catalogue = s.catalogue := rfl
@[simp] theorem State.setShadow_bal (s : State) (q : Requester) (a : Nat) (v : Word32) : (s.setShadow q a v).bal = s.bal := rfl
@[simp] theorem State.setShadow_rtc (s : State) (q : Requester) (a : Nat) (v : Word32) : (s.setShadow q a v).rtc = s.rtc := rfl
@[simp] theorem State.setShadow_ptp (s : State) (q : Requester) (a : Nat) (v : Word32) : (s.setShadow q a v).ptp = s.ptp := rfl
@[simp] theorem State.setShadow_balls (s : State) (q : Requester) (a : Nat) (v : Word32) : (s.setShadow q a v).balls = s.balls := rfl
@[simp] theorem State.setShadow_meas (s : State) (q : Requester) (a : Nat) (v : Word32) : (s.setShadow q a v).meas = s.meas := rfl
@[simp] theorem State.setShadow_totals (s : State) (q : Requester) (a : Nat) (v : Word32) : (s.setShadow q a v).totals = s.totals := rfl
@[simp] theorem State.setShadow_pulses (s : State) (q : Requester) (a : Nat) (v : Word32) : (s.setShadow q a v).pulses = s.pulses := rfl
@[simp] theorem State.setShadow_work (s : State) (q : Requester) (a : Nat) (v : Word32) : (s.setShadow q a v).work = s.work := rfl
@[simp] theorem State.setShadow_passes (s : State) (q : Requester) (a : Nat) (v : Word32) : (s.setShadow q a v).passes = s.passes := rfl
@[simp] theorem State.setShadow_mac (s : State) (q : Requester) (a : Nat) (v : Word32) : (s.setShadow q a v).mac = s.mac := rfl
@[simp] theorem State.setShadow_plc (s : State) (q : Requester) (a : Nat) (v : Word32) : (s.setShadow q a v).plc = s.plc := rfl
@[simp] theorem State.setShadow_spi (s : State) (q : Requester) (a : Nat) (v : Word32) : (s.setShadow q a v).spi = s.spi := rfl
@[simp] theorem State.setShadow_partials (s : State) (q : Requester) (a : Nat) (v : Word32) : (s.setShadow q a v).partials = s.partials := rfl
@[simp] theorem State.setShadow_errPin (s : State) (q : Requester) (a : Nat) (v : Word32) : (s.setShadow q a v).errPin = s.errPin := rfl
@[simp] theorem State.setShadow_lany (s : State) (q : Requester) (a : Nat) (v : Word32) : (s.setShadow q a v).lany = s.lany := rfl
@[simp] theorem State.setShadow_lifetime (s : State) (q : Requester) (a : Nat) (v : Word32) : (s.setShadow q a v).lifetime = s.lifetime := rfl
@[simp] theorem State.setShadow_settings (s : State) (q : Requester) (a : Nat) (v : Word32) : (s.setShadow q a v).settings = s.settings := rfl
@[simp] theorem State.setShadow_images (s : State) (q : Requester) (a : Nat) (v : Word32) : (s.setShadow q a v).images = s.images := rfl
@[simp] theorem State.setShadow_versions (s : State) (q : Requester) (a : Nat) (v : Word32) : (s.setShadow q a v).versions = s.versions := rfl
@[simp] theorem State.setShadow_camps (s : State) (q : Requester) (a : Nat) (v : Word32) : (s.setShadow q a v).camps = s.camps := rfl
@[simp] theorem State.setShadow_pair (s : State) (q : Requester) (a : Nat) (v : Word32) : (s.setShadow q a v).pair = s.pair := rfl
@[simp] theorem State.setShadow_dbg (s : State) (q : Requester) (a : Nat) (v : Word32) : (s.setShadow q a v).dbg = s.dbg := rfl
@[simp] theorem State.setShadow_rings (s : State) (q : Requester) (a : Nat) (v : Word32) : (s.setShadow q a v).rings = s.rings := rfl
@[simp] theorem State.setShadow_msix (s : State) (q : Requester) (a : Nat) (v : Word32) : (s.setShadow q a v).msix = s.msix := rfl
@[simp] theorem State.setShadow_eth (s : State) (q : Requester) (a : Nat) (v : Word32) : (s.setShadow q a v).eth = s.eth := rfl
@[simp] theorem State.setShadow_uarts (s : State) (q : Requester) (a : Nat) (v : Word32) : (s.setShadow q a v).uarts = s.uarts := rfl
@[simp] theorem State.setShadow_sbus (s : State) (q : Requester) (a : Nat) (v : Word32) : (s.setShadow q a v).sbus = s.sbus := rfl
@[simp] theorem State.setShadow_now (s : State) (q : Requester) (a : Nat) (v : Word32) : (s.setShadow q a v).now = s.now := rfl
@[simp] theorem State.setShadow_freeCtr (s : State) (q : Requester) (a : Nat) (v : Word32) : (s.setShadow q a v).freeCtr = s.freeCtr := rfl
@[simp] theorem State.setShadow_pending (s : State) (q : Requester) (a : Nat) (v : Word32) : (s.setShadow q a v).pending = s.pending := rfl
@[simp] theorem State.setShadow_rd_read (s : State) (q : Requester) (a : Nat) (v : Word32) (b : Nat) : (s.setShadow q a v).rd b = s.rd b := rfl
@[simp] theorem State.setShadow_bk_read (s : State) (q : Requester) (a : Nat) (v : Word32) (b j : Nat) : (s.setShadow q a v).bk b j = s.bk b j := rfl
@[simp] theorem State.setShadow_byte_read (s : State) (q : Requester) (a : Nat) (v : Word32) (sq : Space) (b : Nat) : (s.setShadow q a v).byte sq b = s.byte sq b := rfl
@[simp] theorem State.setShadow_eccOf_read (s : State) (q : Requester) (a : Nat) (v : Word32) (sq : Space) (b : Nat) : (s.setShadow q a v).eccOf sq b = s.eccOf sq b := rfl
@[simp] theorem State.setShadow_str_read (s : State) (q : Requester) (a : Nat) (v : Word32) (m : Nat) : (s.setShadow q a v).str m = s.str m := rfl
@[simp] theorem State.setShadow_lay_read (s : State) (q : Requester) (a : Nat) (v : Word32) (m : Nat) : (s.setShadow q a v).lay m = s.lay m := rfl
@[simp] theorem State.setShadow_spl_read (s : State) (q : Requester) (a : Nat) (v : Word32) (m : Nat) : (s.setShadow q a v).spl m = s.spl m := rfl
@[simp] theorem State.setShadow_timer_read (s : State) (q : Requester) (a : Nat) (v : Word32) (m : Nat) : (s.setShadow q a v).timer m = s.timer m := rfl

/-! ### State.post writes `outbox` alone -/

@[simp] theorem State.post_regs (s : State) (c n : Nat) (l : List Cell512) : (s.post c n l).regs = s.regs := rfl
@[simp] theorem State.post_bank (s : State) (c n : Nat) (l : List Cell512) : (s.post c n l).bank = s.bank := rfl
@[simp] theorem State.post_latch (s : State) (c n : Nat) (l : List Cell512) : (s.post c n l).latch = s.latch := rfl
@[simp] theorem State.post_shadow (s : State) (c n : Nat) (l : List Cell512) : (s.post c n l).shadow = s.shadow := rfl
@[simp] theorem State.post_mem (s : State) (c n : Nat) (l : List Cell512) : (s.post c n l).mem = s.mem := rfl
@[simp] theorem State.post_ecc (s : State) (c n : Nat) (l : List Cell512) : (s.post c n l).ecc = s.ecc := rfl
@[simp] theorem State.post_strands (s : State) (c n : Nat) (l : List Cell512) : (s.post c n l).strands = s.strands := rfl
@[simp] theorem State.post_lays (s : State) (c n : Nat) (l : List Cell512) : (s.post c n l).lays = s.lays := rfl
@[simp] theorem State.post_splices (s : State) (c n : Nat) (l : List Cell512) : (s.post c n l).splices = s.splices := rfl
@[simp] theorem State.post_poolScrub (s : State) (c n : Nat) (l : List Cell512) : (s.post c n l).poolScrub = s.poolScrub := rfl
@[simp] theorem State.post_otp (s : State) (c n : Nat) (l : List Cell512) : (s.post c n l).otp = s.otp := rfl
@[simp] theorem State.post_evr (s : State) (c n : Nat) (l : List Cell512) : (s.post c n l).evr = s.evr := rfl
@[simp] theorem State.post_fc (s : State) (c n : Nat) (l : List Cell512) : (s.post c n l).fc = s.fc := rfl
@[simp] theorem State.post_held (s : State) (c n : Nat) (l : List Cell512) : (s.post c n l).held = s.held := rfl
@[simp] theorem State.post_tsuTime (s : State) (c n : Nat) (l : List Cell512) : (s.post c n l).tsuTime = s.tsuTime := rfl
@[simp] theorem State.post_rdata (s : State) (c n : Nat) (l : List Cell512) : (s.post c n l).rdata = s.rdata := rfl
@[simp] theorem State.post_timers (s : State) (c n : Nat) (l : List Cell512) : (s.post c n l).timers = s.timers := rfl
@[simp] theorem State.post_rig (s : State) (c n : Nat) (l : List Cell512) : (s.post c n l).rig = s.rig := rfl
@[simp] theorem State.post_fitted (s : State) (c n : Nat) (l : List Cell512) : (s.post c n l).fitted = s.fitted := rfl
@[simp] theorem State.post_budgets (s : State) (c n : Nat) (l : List Cell512) : (s.post c n l).budgets = s.budgets := rfl
@[simp] theorem State.post_rems (s : State) (c n : Nat) (l : List Cell512) : (s.post c n l).rems = s.rems := rfl
@[simp] theorem State.post_ddrScrub (s : State) (c n : Nat) (l : List Cell512) : (s.post c n l).ddrScrub = s.ddrScrub := rfl
@[simp] theorem State.post_nand (s : State) (c n : Nat) (l : List Cell512) : (s.post c n l).nand = s.nand := rfl
@[simp] theorem State.post_ing (s : State) (c n : Nat) (l : List Cell512) : (s.post c n l).ing = s.ing := rfl
@[simp] theorem State.post_readings (s : State) (c n : Nat) (l : List Cell512) : (s.post c n l).readings = s.readings := rfl
@[simp] theorem State.post_wire (s : State) (c n : Nat) (l : List Cell512) : (s.post c n l).wire = s.wire := rfl
@[simp] theorem State.post_keys (s : State) (c n : Nat) (l : List Cell512) : (s.post c n l).keys = s.keys := rfl
@[simp] theorem State.post_root (s : State) (c n : Nat) (l : List Cell512) : (s.post c n l).root = s.root := rfl
@[simp] theorem State.post_copies (s : State) (c n : Nat) (l : List Cell512) : (s.post c n l).copies = s.copies := rfl
@[simp] theorem State.post_tamperRun (s : State) (c n : Nat) (l : List Cell512) : (s.post c n l).tamperRun = s.tamperRun := rfl
@[simp] theorem State.post_tamperDue (s : State) (c n : Nat) (l : List Cell512) : (s.post c n l).tamperDue = s.tamperDue := rfl
@[simp] theorem State.post_trng (s : State) (c n : Nat) (l : List Cell512) : (s.post c n l).trng = s.trng := rfl
@[simp] theorem State.post_wakeHeld (s : State) (c n : Nat) (l : List Cell512) : (s.post c n l).wakeHeld = s.wakeHeld := rfl
@[simp] theorem State.post_results (s : State) (c n : Nat) (l : List Cell512) : (s.post c n l).results = s.results := rfl
@[simp] theorem State.post_outputs (s : State) (c n : Nat) (l : List Cell512) : (s.post c n l).outputs = s.outputs := rfl
@[simp] theorem State.post_catalogue (s : State) (c n : Nat) (l : List Cell512) : (s.post c n l).catalogue = s.catalogue := rfl
@[simp] theorem State.post_bal (s : State) (c n : Nat) (l : List Cell512) : (s.post c n l).bal = s.bal := rfl
@[simp] theorem State.post_rtc (s : State) (c n : Nat) (l : List Cell512) : (s.post c n l).rtc = s.rtc := rfl
@[simp] theorem State.post_ptp (s : State) (c n : Nat) (l : List Cell512) : (s.post c n l).ptp = s.ptp := rfl
@[simp] theorem State.post_balls (s : State) (c n : Nat) (l : List Cell512) : (s.post c n l).balls = s.balls := rfl
@[simp] theorem State.post_meas (s : State) (c n : Nat) (l : List Cell512) : (s.post c n l).meas = s.meas := rfl
@[simp] theorem State.post_totals (s : State) (c n : Nat) (l : List Cell512) : (s.post c n l).totals = s.totals := rfl
@[simp] theorem State.post_pulses (s : State) (c n : Nat) (l : List Cell512) : (s.post c n l).pulses = s.pulses := rfl
@[simp] theorem State.post_work (s : State) (c n : Nat) (l : List Cell512) : (s.post c n l).work = s.work := rfl
@[simp] theorem State.post_passes (s : State) (c n : Nat) (l : List Cell512) : (s.post c n l).passes = s.passes := rfl
@[simp] theorem State.post_mac (s : State) (c n : Nat) (l : List Cell512) : (s.post c n l).mac = s.mac := rfl
@[simp] theorem State.post_plc (s : State) (c n : Nat) (l : List Cell512) : (s.post c n l).plc = s.plc := rfl
@[simp] theorem State.post_spi (s : State) (c n : Nat) (l : List Cell512) : (s.post c n l).spi = s.spi := rfl
@[simp] theorem State.post_partials (s : State) (c n : Nat) (l : List Cell512) : (s.post c n l).partials = s.partials := rfl
@[simp] theorem State.post_errPin (s : State) (c n : Nat) (l : List Cell512) : (s.post c n l).errPin = s.errPin := rfl
@[simp] theorem State.post_lany (s : State) (c n : Nat) (l : List Cell512) : (s.post c n l).lany = s.lany := rfl
@[simp] theorem State.post_lifetime (s : State) (c n : Nat) (l : List Cell512) : (s.post c n l).lifetime = s.lifetime := rfl
@[simp] theorem State.post_settings (s : State) (c n : Nat) (l : List Cell512) : (s.post c n l).settings = s.settings := rfl
@[simp] theorem State.post_images (s : State) (c n : Nat) (l : List Cell512) : (s.post c n l).images = s.images := rfl
@[simp] theorem State.post_versions (s : State) (c n : Nat) (l : List Cell512) : (s.post c n l).versions = s.versions := rfl
@[simp] theorem State.post_camps (s : State) (c n : Nat) (l : List Cell512) : (s.post c n l).camps = s.camps := rfl
@[simp] theorem State.post_pair (s : State) (c n : Nat) (l : List Cell512) : (s.post c n l).pair = s.pair := rfl
@[simp] theorem State.post_dbg (s : State) (c n : Nat) (l : List Cell512) : (s.post c n l).dbg = s.dbg := rfl
@[simp] theorem State.post_rings (s : State) (c n : Nat) (l : List Cell512) : (s.post c n l).rings = s.rings := rfl
@[simp] theorem State.post_msix (s : State) (c n : Nat) (l : List Cell512) : (s.post c n l).msix = s.msix := rfl
@[simp] theorem State.post_eth (s : State) (c n : Nat) (l : List Cell512) : (s.post c n l).eth = s.eth := rfl
@[simp] theorem State.post_uarts (s : State) (c n : Nat) (l : List Cell512) : (s.post c n l).uarts = s.uarts := rfl
@[simp] theorem State.post_sbus (s : State) (c n : Nat) (l : List Cell512) : (s.post c n l).sbus = s.sbus := rfl
@[simp] theorem State.post_now (s : State) (c n : Nat) (l : List Cell512) : (s.post c n l).now = s.now := rfl
@[simp] theorem State.post_freeCtr (s : State) (c n : Nat) (l : List Cell512) : (s.post c n l).freeCtr = s.freeCtr := rfl
@[simp] theorem State.post_pending (s : State) (c n : Nat) (l : List Cell512) : (s.post c n l).pending = s.pending := rfl
@[simp] theorem State.post_rd_read (s : State) (c n : Nat) (l : List Cell512) (b : Nat) : (s.post c n l).rd b = s.rd b := rfl
@[simp] theorem State.post_bk_read (s : State) (c n : Nat) (l : List Cell512) (b j : Nat) : (s.post c n l).bk b j = s.bk b j := rfl
@[simp] theorem State.post_byte_read (s : State) (c n : Nat) (l : List Cell512) (sq : Space) (b : Nat) : (s.post c n l).byte sq b = s.byte sq b := rfl
@[simp] theorem State.post_eccOf_read (s : State) (c n : Nat) (l : List Cell512) (sq : Space) (b : Nat) : (s.post c n l).eccOf sq b = s.eccOf sq b := rfl
@[simp] theorem State.post_str_read (s : State) (c n : Nat) (l : List Cell512) (m : Nat) : (s.post c n l).str m = s.str m := rfl
@[simp] theorem State.post_lay_read (s : State) (c n : Nat) (l : List Cell512) (m : Nat) : (s.post c n l).lay m = s.lay m := rfl
@[simp] theorem State.post_spl_read (s : State) (c n : Nat) (l : List Cell512) (m : Nat) : (s.post c n l).spl m = s.spl m := rfl
@[simp] theorem State.post_timer_read (s : State) (c n : Nat) (l : List Cell512) (m : Nat) : (s.post c n l).timer m = s.timer m := rfl

end Sys2Proof.Machine
end

