-- ==== Sys2Proof/Machine/Balls.lean ====
section
/-! DEFINITION. The balls (22_balls_and_electrical.md): the ball map, the levels of the CMOS balls, MXFER, the operating ranges of the supplies. -/

namespace Sys2Proof.Machine

/-- What a ball of the array is (R687, R688). -/
inductive Ball where
  | ground
  | supply (name : String)
  | signal (name : String)
  deriving DecidableEq, Repr

/-- The letters of the rows A to AL, which leave out I, O, Q, R, S, X and Z (R687). -/
def rowLetters : List String :=
  ["A", "B", "C", "D", "E", "F", "G", "H", "J", "K", "L", "M", "N", "P", "T", "U", "V", "W", "Y"] ++
  ["AA", "AB", "AC", "AD", "AE", "AF", "AG", "AH", "AJ", "AK", "AL"]

/-- A number as the signals' names carry it. -/
def digits (n : Nat) : String := String.ofList (Nat.toDigits 10 n)

/-- The signals x_0 to x_(n - 1) (R689). -/
def numbered (x : String) (n : Nat) : List String := (List.range n).map (fun k => x ++ digits k)

/-- The signals of an instance, their names between the block's name and their own (R689). -/
def ofUnit (x : String) (n : Nat) (ys : List String) : List String := ys.map (fun y => x ++ digits n ++ y)

/-- The region Top (R689). -/
def topSignals : List String :=
  numbered "DDR_DQ_" 72 ++ (List.range 9).flatMap (fun k => ["DDR_DQS_T_" ++ digits k, "DDR_DQS_C_" ++ digits k]) ++ numbered "DDR_DM_N_" 9 ++
  numbered "DDR_A_" 18 ++ ["DDR_BA_0", "DDR_BA_1", "DDR_BG_0", "DDR_BG_1", "DDR_ACT_N"] ++
  ["DDR_CK_T_0", "DDR_CK_C_0", "DDR_CK_T_1", "DDR_CK_C_1", "DDR_CKE_0", "DDR_CKE_1", "DDR_CS_N_0", "DDR_CS_N_1", "DDR_ODT_0", "DDR_ODT_1"] ++
  ["DDR_PAR", "DDR_ALERT_N", "DDR_RESET_N"] ++ numbered "DDR_C_" 3 ++ ["DDR_ZQ", "DDR_VREFCA"]

/-- The region Left (R689). -/
def leftSignals : List String :=
  (List.range 4).flatMap (fun n => ofUnit "NAND_" n (numbered "_DQ_" 8 ++ ["_DQS", "_RE_N", "_WE_N", "_CLE", "_ALE", "_WP_N"] ++ numbered "_CE_N_" 8))

/-- The four balls of a serial pair. -/
def serdes (x : String) (n : Nat) : List String := ofUnit x n ["_TXP", "_TXN", "_RXP", "_RXN"]

/-- The region Right (R689). -/
def rightSignals : List String :=
  (List.range 4).flatMap (serdes "ETH_") ++ (List.range 2).flatMap (serdes "PAIR_") ++
  ["SDS_REFCLK_P", "SDS_REFCLK_N", "SDS_REXT_0", "SDS_REXT_1"] ++
  (List.range 4).flatMap (fun k => ["PCIE_TXP_" ++ digits k, "PCIE_TXN_" ++ digits k, "PCIE_RXP_" ++ digits k, "PCIE_RXN_" ++ digits k]) ++
  ["PCIE_REFCLK_P", "PCIE_REFCLK_N", "PCIE_REXT", "PERST_N"] ++ (List.range 2).flatMap (serdes "SGMII_") ++ ["MDC", "MDIO"]

/-- The region Bottom (R689). -/
def bottomSignals : List String :=
  numbered "SDI_" 128 ++ numbered "MCLK_" 8 ++ ["MXFER"] ++
  (List.range 4).flatMap (fun n => ofUnit "RAD_" n ["_SCK", "_MOSI", "_MISO", "_CS_N", "_IRQ_N", "_TSTB", "_RST_N"]) ++
  (List.range 3).flatMap (fun n => ofUnit "PLC_" (n + 1) ["_SCLK", "_FS", "_DOUT", "_DIN", "_TXEN", "_AGC0", "_AGC1"] ++ ["ZC_" ++ digits (n + 1)]) ++
  (List.range 8).flatMap (fun n => ofUnit "UART_" n ["_TX", "_RX", "_DE"]) ++
  (List.range 2).flatMap (fun n => ofUnit "SBUS_" n ["_SCL", "_SDA"]) ++ numbered "GPIO_" 32 ++
  ["QSPI_SCK", "QSPI_CS_N"] ++ numbered "QSPI_IO_" 4 ++ ["QSPI_RST_N", "BDCLK", "BDIO", "BDATT_N", "WAKE_SCL", "WAKE_SDA"] ++
  ["RESET_N", "PFAIL_N", "ERR_OUT_N", "WAKE_N", "REF_P", "REF_N", "XTAL32_IN", "XTAL32_OUT"] ++ numbered "TAMPER_" 4 ++
  ["THERM_A", "THERM_K", "TEST_N", "CORE_SNS_P", "CORE_SNS_N"] ++ numbered "NC_" 13

/-- A region of the array (R688): its first row and column, its rows and columns, its ground balls, supplies and signals. -/
structure Region where
  row : Nat
  col : Nat
  rows : Nat
  cols : Nat
  ground : Nat
  supplies : List (String × Nat)
  signals : List String
  deriving DecidableEq, Repr

/-- The five regions (R688), rows and columns from 1. -/
def regions : List Region :=
  [⟨1, 1, 6, 30, 20, [("VDD_DDR", 20)], topSignals⟩,
   ⟨7, 1, 13, 8, 12, [("VDD_DDR", 4)], leftSignals⟩,
   ⟨7, 9, 13, 15, 109, [("VDD_CORE", 80), ("VDD_LANY", 6)], []⟩,
   ⟨7, 24, 13, 7, 15, [("VDD_SDS09", 12), ("VDD_SDS18", 6)], rightSignals⟩,
   ⟨20, 1, 11, 30, 14, [("VDD_IO_0", 10), ("VDD_IO_1", 3), ("VDD_IO_2", 2), ("VDD_IO_3", 2), ("VDD_IO_4", 1), ("VDD_IO_5", 2), ("VDD_AON", 4),
     ("VBAT", 1)], bottomSignals⟩]

/-- How many of the positions 0 to i - 1 a share of g in n takes, spread evenly (R688): floor(i × g / n). -/
def spread (i g n : Nat) : Nat := i * g / n

/-- The ball at a position of a region (R688). -/
def Region.ball (r : Region) (i : Nat) : Ball :=
  let n := r.rows * r.cols
  let supplies := r.supplies.flatMap (fun e => List.replicate e.2 e.1)
  let s := supplies.length
  if spread i r.ground n < spread (i + 1) r.ground n then .ground
  else
    let j := i - spread i r.ground n
    let m := n - r.ground
    if spread j s m < spread (j + 1) s m then .supply (supplies.getD (spread j s m) "")
    else .signal (r.signals.getD (j - spread j s m) "")

/-- The ball of a row and a column, both from 1 (R687 to R689). -/
def ballAt (row col : Nat) : Option Ball :=
  (regions.find? (fun r => decide (r.row ≤ row ∧ row < r.row + r.rows ∧ r.col ≤ col ∧ col < r.col + r.cols))).map
    (fun r => r.ball ((row - r.row) * r.cols + (col - r.col)))

/-- Is a ball open-drain: it sinks, and never drives high (R696). -/
def openDrain (x : String) : Bool :=
  ["ERR_OUT_N", "BDATT_N", "SBUS_0_SCL", "SBUS_0_SDA", "SBUS_1_SCL", "SBUS_1_SDA", "WAKE_SCL", "WAKE_SDA"].contains x

/-- What a CMOS input reads at a voltage in mV, in a 3.3 V bank or a 1.8 V one: between the thresholds its Schmitt trigger keeps what it read
(R695). -/
def inputLevel (bank33 : Bool) (mv : Nat) (before : Bool) : Bool :=
  if (if bank33 then 2000 else 1170) ≤ mv then true
  else if mv ≤ (if bank33 then 800 else 630) then false
  else before

/-- What a ball supplied from the backup rail reads, both in mV (R697). -/
def backupLevel (rail mv : Nat) (before : Bool) : Bool :=
  if 7 * rail ≤ 10 * mv then true else if 10 * mv ≤ 3 * rail then false else before

/-- The level of MXFER: high for 10 us from each transfer, driven only while MEAS is enabled (22_balls_and_electrical.md). -/
def State.mxfer (s : State) : Option Bool :=
  if s.domOn 13 && s.bitAt (measA 0x00C) 0 then
    let ends := s.timer (measA rMEAS_STAT)
    some (ends ≠ 0 && decide (s.now < ends))
  else none

/-- The outputs of a radio port (R367). -/
inductive RadBall where
  | sck | mosi | csN | rstN
  deriving DecidableEq, Repr

/-- The level a radio port drives an output to; none: it does not drive it (R42, R367, R368). SPI is of mode 0; MOSI is low where the device sends
nothing (DESIGN CHOICE, log entry 23). -/
def State.radBall (s : State) (n : Nat) (b : RadBall) : Option Bool :=
  if !s.domOn 12 || !s.ownsBalls n then none
  else
    let x := s.spi.find? (fun x => x.port = n && decide (x.start ≤ s.now ∧ s.now < x.stop))
    match b with
    | .rstN => some (s.bitAt (pa .radio n 0x00C) 0 && decide ((s.port7 n).rstAt ≤ s.now))
    | .csN => some x.isNone
    | .sck => some (x.any (fun x => decide ((s.now - x.start) / s.spiHalf n % 2 = 1)))
    | .mosi => some (x.any (fun x =>
        let k := (s.now - x.start) / (2 * s.spiHalf n)
        (be (toBe 1 x.code ++ toBe 2 x.len ++ x.data) (k / 8) 1).testBit (7 - k % 8)))

/-- The outputs of a power-line phase (R398). -/
inductive PlcBall where
  | sclk | fs | dout | txen | agc0 | agc1
  deriving DecidableEq, Repr

/-- The level PLC drives an output of phase n to, n from 1; none: it does not drive it (R42, R398, R399). Its clock runs with the model's time (DESIGN
CHOICE, log entry 24), and the samples it sends are free values. -/
def State.plcBall (s : State) (n : Nat) (b : PlcBall) : Option Bool :=
  if !s.domOn 12 || !s.ownsBalls (n + 3) then none
  else
    let half := s.now * 768 / 10000
    match b with
    | .sclk => some (half % 2 = 0)
    | .fs => some (half / 2 % 32 = 0)
    | .dout => some (bit (interfaceFrame (Config.dacSample n (half / 64))) (31 - half / 2 % 32))
    | .txen => some (s.txen n)
    | .agc0 => some ((look (fun _ => 0) s.plc.agc n).testBit 0)
    | .agc1 => some ((look (fun _ => 0) s.plc.agc n).testBit 1)

/-- Is BDATT_N pulled low (R637, R696): a lay is FROZEN or the Lanyard is halted; while MGMT is off it is not driven. -/
def State.bdattLow (s : State) : Bool :=
  s.domOn 2 && (s.lany.halted || (List.range 8).any (fun n => s.domOn (3 + n) && decide (s.fld (pa .lay n rLAY_STAT) 2 0 = 5)))

/-- Is ERR_OUT_N pulled low (R553, R696). -/
def State.errOutLow (s : State) : Bool := s.errPin.low

/-- The operating range of a supply in mV (R690); a bank of VDD_IO runs at 1.8 V or at 3.3 V. -/
def supplyRange (x : String) (bank33 : Bool) : Nat × Nat :=
  if x = "VDD_CORE" ∨ x = "VDD_LANY" then (776, 824)
  else if x = "VDD_AON" ∨ x = "VDD_SDS18" then (1746, 1854)
  else if x = "VBAT" then (2000, 3600)
  else if x = "VDD_DDR" then (1164, 1236)
  else if x = "VDD_SDS09" then (873, 927)
  else if bank33 then (3201, 3399) else (1746, 1854)

end Sys2Proof.Machine
end

