-- ==== Sys2Proof/Tests/Slice0.lean ====
section
/-! SUPPORT. Tests: ill-formed commands refused by WellFormed, and for each statement a state and operands that meet its hypotheses. -/

open Sys2Proof Sys2Proof.Machine

namespace Sys2Proof.Tests

set_option Elab.async false

/-! ### WellFormed: an ill-formed command for each check -/

theorem test_roster_image_of_one_byte : (Instr.rosterWrite [(0, 7, [0])]).wellFormed = false := by decide
theorem test_sample_of_one_channel_twice : (Instr.measSample [(127, 0), (127, 0)] 0).wellFormed = false := by decide
theorem test_boot_kind_four : (Instr.boot [(4, false, 0)] 0 0).wellFormed = false := by decide
theorem test_start_kind_zero : (Instr.startUp [(0, false, 0)] 0 [] 0 0).wellFormed = false := by decide
theorem test_roster_without_source : (Instr.mbRoster none []).wellFormed = false := by decide
theorem test_settings_piece_too_long : ∀ l : List (BitVec 8), l.length = 1025 → decide (l.length ≤ 1024) = false := by
  intro l h; rw [h]; decide
theorem test_ring_entries : (Instr.ringDoorbellH2d 0 0 (List.replicate 65537 0) 0).wellFormed = false := by
  show decide ((List.replicate 65537 (0 : BitVec 512)).length ≤ 65536) = false
  rw [List.length_replicate]; decide
theorem test_page_of_one_byte :
    (Instr.page ⟨0, 0, 0⟩ ⟨0, 0, 0, List.replicate 48 0, [0], 0⟩ none).wellFormed = false := by decide
theorem test_extent_past_the_end : (Instr.riggingLoad true (2 ^ 64) 1).wellFormed = false := by decide
theorem test_field_frame_of_another_length : (Instr.fieldFrameReceived 0 ⟨0, 0, 0, 1, [], none, false, 0, 0, 0, false, 0, none, []⟩ 0).wellFormed
    = false := by decide

/-! ### Slot operations -/

/-- An issue of strand 0 of lay 0 with the guard p0. -/
def issue0 : Issue := ⟨0, 0, false, 0⟩
/-- The same guarded by NOT p0. -/
def issueOff : Issue := ⟨0, 0, true, 0⟩
/-- Strand 0 holds these registers. -/
def withRegs (ws : List (Nat × Word64)) : State := State.reset.setStr 0 (setRegs Strand.clear ws)

theorem witness_guard_true : State.reset.exec? issue0 = true ∧ State.reset.exec? issueOff = false := by decide
theorem witness_dividerFree : State.reset.dividerFree issue0 := by intro c h; simp [State.str, State.reset, look, Strand.clear] at h
theorem witness_StepRunsTheFrontCommand : ({ State.reset with pending := [.ddrBurstComplete] } : State).pending = .ddrBurstComplete :: [] := rfl
theorem witness_EmptyQueueTicks : State.reset.pending = [] := rfl
theorem witness_EveryStepKeepsTablesCanonical : State.reset.canonical = true ∧ ∃ t, step State.reset = .next t := ⟨by decide, _, rfl⟩
theorem witness_SlotWordsDecodeToTheirOperation : encodeSlot (.add issue0 true 1 2 3) = some (.b, 0x00410830) := by decide
theorem witness_FalseGuardsDoNothing : State.reset.exec? (slotIssue 0 0 0x80410830) = false := by decide
theorem witness_ResultsAreWrittenWhenDue :
    ((withRegs []).setStr 0 { Strand.clear with flight := [⟨0, 0, 0, false, .regs [(1, 5)]⟩] }).str 0
      = { Strand.clear with flight := [⟨0, 0, 0, false, .regs [(1, 5)]⟩] } := by decide

/-- R84: ADD is opcode 0x01, D in bits 21:16, A in 15:10, B in 9:4. -/
theorem test_add_word : decodeSlot .a 2 5 0x00410830 = .add ⟨2, 5, false, 0⟩ false 1 2 3 ∧ decodeSlot .a 2 5 0x00410831 = .nop ⟨2, 5, false, 0⟩ .a 0x0410831 := by decide
theorem test_addi_word : decodeSlot .b 0 0 0x040103FF = .addi issue0 true 1 0 0x3FF := by decide
/-- R90: A ÷ 0 unsigned gives all ones; −2^63 ÷ −1 gives −2^63. -/
theorem test_div_corners : divU 7 0 = 0xFFFFFFFFFFFFFFFF ∧ divS 0x8000000000000000 (BitVec.allOnes 64) = 0x8000000000000000 := by decide
/-- R87: the byte swap of 4 bytes. -/
theorem test_bswap4 : swapBytes 4 0x1122334455667788 = 0x88776655 := by decide

theorem witness_DataMemoryAccesses : State.reset.exec? issue0 = true ∧
    ((0x1FFF8 : Nat) : Int) = (((withRegs [(2, 0x20000)]).val issue0 2).toNat + (BitVec.ofInt 10 (-1)).toInt * (8 : Nat)) % 2 ^ 64 := by decide
theorem witness_StoresWriteTheirBytesAlone : (⟨0, 2, 0, false, .dmemStore 8 4 0x01020304⟩ : Flight).late = .dmemStore 8 4 0x01020304 := rfl

/-- Key register 0 of strand 0 in a state of its table. -/
def withKey (st : KeySt) : State := State.reset.setStr 0 (Strand.clear.setKey 0 { KeyReg.clear with st := st })
theorem witness_AesOnAKeyThatIsNotReady : ((withKey .pending).str (issueNo issue0)).key 0 = { KeyReg.clear with st := .pending } ∧
    ((State.reset).str (issueNo issue0)).key 0 = KeyReg.clear ∧ ((withKey .badBlob).str (issueNo issue0)).key 0 = { KeyReg.clear with st := .badBlob } ∧
    (withKey .denied).exec? issue0 = true := by decide
theorem witness_DivisionResultsAndCorners :
    ((withRegs [(1, 0x8000000000000000), (2, 0xFFFFFFFFFFFFFFFF)]).val issue0 1).toInt = -(2 ^ 63) ∧
    ((withRegs [(1, 0x8000000000000000), (2, 0xFFFFFFFFFFFFFFFF)]).val issue0 2).toInt = -1 ∧ State.reset.val issue0 1 = 0 ∧
    (withRegs []).exec? issue0 = true := by decide

/-- Every domain on, the boot ROM's handover made, and these registers written. -/
def lab (l : List (Nat × Word32)) : State :=
  l.foldl (fun (s : State) e => s.wr e.1 e.2)
    (((List.range 17).foldl (fun (s : State) d => s.wr (domReg (d + 1)) 0x10000) State.reset).wr (pa .rst 0 rRST_BOOT) 3)
/-- A valid cell of zeros. -/
def cell1 : Cell512 := BitVec.ofNat 512 (2 ^ 63)

theorem witness_AluTwoRegisterResults : (lab []).exec? issue0 = true := by decide
theorem witness_AluImmediateResults : (lab []).exec? issue0 = true ∧ (lab []).exec? ⟨7, 15, false, 0⟩ = true := by decide
theorem witness_ComparesWriteOnePredicate : (lab []).exec? ⟨0, 15, false, 0⟩ = true := by decide
theorem witness_ProductsDivisionsAndBranches : State.reset.exec? issue0 = true ∧ State.reset.dividerFree issue0 := ⟨by decide, witness_dividerFree⟩
theorem witness_AccessesNotPerformed : State.reset.exec? issue0 = true ∧
    ((0x20000 : Nat) : Int) = (((withRegs [(2, 0x20000)]).val issue0 2).toNat + (BitVec.ofInt 10 0).toInt * 8) % 2 ^ 64 ∧
    ((0x7FFFF8 : Nat) : Int) = (((withRegs [(2, 0x800000)]).val issue0 2).toNat + (BitVec.ofInt 10 (-1)).toInt * 8) % 2 ^ 64 ∧
    (withRegs []).wheelGrant 0 ((withRegs []).lay 0).tcyc 7 ≠ some 5 := by decide
theorem witness_RefusedSpliceOperations : State.reset.exec? issue0 = true ∧ State.reset.granted 0 0 8191 false = false ∧
    State.reset.granted 0 0 0 true = false := by decide
theorem witness_KeyAndStreamUnitOperations : State.reset.exec? issue0 = true ∧ (((withKey .empty).str (issueNo issue0)).key 0).st ≠ .pending ∧
    (((withKey .pending).str (issueNo issue0)).key 0).st = .pending ∧ (((withKey .ready).str (issueNo issue0)).key 0).st = .ready := by decide
theorem witness_LayControlCommands :
    (lab [(pa .lay 7 rLAY_STAT, 1)]).laySt 7 = 1 ∧ (lab [(pa .lay 7 rLAY_STAT, 1)]).refusal .safe (pa .lay 7 rLAY_CTRL) true 1 false false = none ∧
    (lab [(pa .lay 0 rLAY_STAT, 2)]).laySt 0 = 2 ∧ (lab [(pa .lay 0 rLAY_STAT, 3)]).laySt 0 = 3 ∧ (lab [(pa .lay 0 rLAY_STAT, 4)]).laySt 0 = 4 ∧
    (lab [(pa .lay 0 rLAY_STAT, 4), (pa .lay 0 rLAY_OUT, 0x8000)]).refusal .safe (pa .lay 0 rLAY_RETURN) true 0x8000000F false false = none ∧
    (lab [(pa .lay 0 rLAY_STAT, 4), (pa .lay 0 rLAY_OUT, 0x8000)]).outSet 0 = 0x8000 := by decide
theorem witness_TurnBoundaries : (lab [(pa .lay 0 rLAY_STAT, 0x13)]).laySt 0 = 3 ∧ (lab [(pa .lay 0 rLAY_STAT, 0x13)]).bitAt (pa .lay 0 rLAY_STAT) 4 = true ∧
    (lab [(pa .lay 0 rLAY_STAT, 4)]).bitAt (pa .lay 0 rLAY_STAT) 4 = false ∧ (lab [(pa .lay 0 rLAY_STAT, 2)]).laySt 0 < 3 ∧
    (lab [(pa .lay 0 rLAY_STAT, 5)]).laySt 0 = 5 ∧ State.reset.rig.stopping = false := by decide
theorem witness_LayServiceCommands : (lab []).domOn 10 = true ∧ ((lab []).setStr 0 { Strand.clear with dmUsed := true }).domOn 3 = true ∧
    (((lab []).setStr 0 { Strand.clear with dmUsed := true, imUsed := true }).str 0).imUsed = true ∧
    (lab [(pa .lay 0 rLAY_STAT, 5)]).refusal .safe (pa .strand 0 rSTR_DBG_DATA) true 0 false false = none ∧
    (lab [(pa .lay 0 rLAY_STAT, 3)]).wheelGrant 0 ((lab []).lay 0).tcyc 7 = none ∧ (lab []).srstBusy (pa .lay 0 rLAY_LD_DATA) = false ∧
    (lab [(pa .lay 0 rLAY_STAT, 1)]).ldMay 0 = true ∧ (lab []).refusal .safe (pa .lay 0 rLAY_LD_DATA) true 0 false false = none ∧
    (lab [(pa .lay 0 rLAY_STAT, 0x20)]).bitAt (pa .lay 0 rLAY_STAT) 5 = true := by decide
theorem witness_SharedEngineCommands :
    (((lab []).setLay 0 { (lab []).lay 0 with keyq := [⟨0, 0, 0, 0, 0, 0, false⟩] }).lay 0).keyq.length = 1 ∧
    (lab [(pa .ddr 0 0x00C, 1)]).domOn 14 = true ∧ (lab [(pa .ddr 0 0x00C, 1)]).bitAt (pa .ddr 0 0x00C) 0 = true ∧
    ({ (lab []).rig with frames := true, ddr := [3 * 4096] } : Rig).ddr.getD 0 0 / 4096 = 3 ∧
    (({ lab [] with outbox := [(8, 5, [])] } : State).outbox.find? (fun x => x.1 = 8)).isSome = true ∧
    (({ lab [] with outbox := [(12, 5, [])] } : State).outbox.find? (fun x => x.1 = 12)).isSome = true ∧
    (lab []).domOn 16 = true ∧ (lab []).rig.pkeBusy = 0 ∧ (lab []).rig.pke.getD 19 15 = 15 := by decide
theorem witness_SpliceCommands :
    (lab []).refusal .safe 0x400000 true 0 false ((lab []).cfgBad 0 0) = none ∧
    (lab []).refusal .safe (0x400000 + 6335 * 16 + 4) true 0 false ((lab []).endsBad 6335 0) = none ∧
    (({ lab [] with held := [(5, cell1)] } : State).held.find? (fun e => e.1 = 5)).isSome = true ∧
    ((lab [(0x400050, 0xC2000000)]).setSpl 5 { Splice.clear with window := 1 }).splEn 5 = true ∧
    ((lab [(0x400050, 0xC2000000)]).spl 5).window = 0 ∧ (lab []).eccOf .pool 0 = 0 ∧
    (lab []).refusal .safe (pa .splice 0 rSPL_FLUSH) true 0x80000000 false false = none ∧ (lab []).splIdle 0 = true ∧ (State.reset.wr (domReg 1) 0).domOn 1 = false := by decide
theorem witness_RiggingCommands : rigCheck (lab []) ((lab []).imageAt true 0 0).1 0 ≠ none ∧
    ({ (lab []) with rig := { (lab []).rig with waiting := true } } : State).rig.waiting = true ∧
    (lab [(pa .ingest 0 rING_STAT, 0x20000)]).bitAt (pa .ingest 0 rING_STAT) 17 = true := by decide

theorem witness_PageHeaderCommands : pageAt 0 = some (.chip, 0) ∧ (lab []).locked (pa .lay 0 0x00C) = false ∧
    (lab []).refusal .safe (pa .lay 0 0x00C) true ((lab []).rd (pa .lay 0 0x00C) &&& 1 ||| 4) false ((lab []).enBad .lay 0 (bit ((lab []).rd (pa .lay 0 0x00C)) 0)) = none ∧
    (lab [(pa .pinmux 0 0x00C, 4), (pa .pinmux 0 0x02C, 0x80000003)]).locked (pa .pinmux 0 0x00C) = true ∧
    (lab [(pa .pinmux 0 0x00C, 4), (pa .pinmux 0 0x02C, 0x80000003)]).refusal .safe (pa .pinmux 0 0x02C) true 0x40000000 false false = none ∧
    (pageInfo .radio).owner = .h ∧ (lab []).refusal .host (pa .radio 3 0x030) true 0x8000FFFF false false = none ∧
    (lab []).refusal .safe (pa .strand 127 0x028) true 1 false false = none ∧ (pageInfo .pair).inj = true ∧
    (lab []).refusal .safe (pa .pair 0 0x01C) true 1 false false = none := by decide
theorem witness_WindowAccesses : pageAt ((pa .sens 0 0x0FC) / 4096) = some (.sens, 0) ∧ (pa .sens 0 0x040) % 4 = 0 ∧
    isWide (pa .sens 0 rSENS_T) = false ∧ (lab []).refusal .safe (pa .sens 0 rSENS_V_SEL) true 0 false false = none ∧
    (lab []).refusal .host (pa .sens 0 rSENS_V_SEL) false 0 false false ≠ none ∧
    isWide (pa .tsu 0 rTSU_STEP) = true ∧ (pa .tsu 0 rTSU_STEP) % 8 = 0 ∧ isWide (pa .tsu 0 rTSU_STEP + 4) = true ∧
    (lab []).refusal .safe (pa .tsu 0 rTSU_STEP) true 0 false ((lab []).wideBad .tsu 0 rTSU_STEP) = none ∧
    (lab []).refusal .safe (pa .tsu 0 (rTSU_STEP + 4)) true 0 false ((lab []).wideBad .tsu 0 rTSU_STEP) = none := by decide
theorem witness_RefusedWritesChangeNothingElse : (lab []).refusal .host (pa .strand 0 0x028) true 1 false false = some 5 ∧
    (lab []).refusal .host (pa .lay 7 rLAY_CTRL) true 2 false ((lab []).layCtrlBad 7 2) = some 5 ∧
    (lab []).refusal .safe (descA 8191 0) true 0 false ((lab []).cfgBad 8191 0) ≠ none := by decide
theorem witness_FaultCollectorCommands : (lab []).domOn 1 = true ∧ (lab []).bitAt (pa .fc 0 rFC_STAT) 0 = false ∧
    (lab [(pa .fc 0 rFC_STAT, 1)]).bitAt (pa .fc 0 rFC_STAT) 0 = true ∧ (lab [(pa .fc 0 rFC_STAT, 1)]).seqRun = true ∧
    (pageInfo .strand).pulse.testBit 2 = true ∧
    (lab []).refusal .safe (pa .fc 0 rFC_STATUS) true 1 false false = none ∧ (lab []).refusal .safe (pa .fc 0 rFC_FORCE) true 0x8000003F false false = none ∧
    ({ lab [] with errPin := ⟨5, false⟩, now := 5 } : State).errPin.until_ ≤ 5 ∧ (lab []).errPin.until_ = 0 ∧
    (lab []).refusal .safe (pa .fc 0 rFC_PIN) true 0xC00FFFFF false false = none := by decide
theorem witness_EventRecorderCommands : (lab []).refusal .safe (pa .evr 0 rEVR_SUBMIT) true 0x8001FFFF false false = none ∧
    (lab [(descA 6208 1, 0x00001200)]).fld (descA 6208 1) 12 8 = 0x12 ∧ (lab [(descA 6208 1, 0x00001200)]).fld (descA 6208 1) 28 24 = 0 ∧
    ({ lab [] with now := 10000000000 } : State).evr.last + 10000000000 ≤ 10000000000 ∧
    (lab []).refusal .safe (pa .evr 0 rEVR_CTRL) true 1 false false = none ∧ (lab [(pa .evr 0 rEVR_STAT, 1)]).bitAt (pa .evr 0 rEVR_STAT) 0 = true ∧
    (lab []).evr.wrote = false ∧ ({ (lab []).evr with wrote := true } : Evr).bad = [] ∧ (lab []).evr.again = false ∧
    (lab []).rd (pa .evr 0 rEVR_HEAD) = 0 ∧ (lab []).stateCopy 0 = none ∧ (lab []).stateCopy 1 = none ∧
    (lab []).evr.readEnd ≤ (lab []).now ∧ (lab []).refusal .safe (pa .evr 0 rEVR_RD_CMD) true 0x80000000 false false = none := by decide
theorem witness_LanyardWatchdogAndSensorCommands : (lab []).normalRuns = true ∧ (lab []).eccOf .lany 0 = 0 ∧
    (lab [(pa .wdog 0 rLNY_STAT, 2)]).lanyRuns = true ∧ (lab [(pa .wdog 0 rLNY_STAT, 2)]).bitAt (pa .wdog 0 rLNY_STAT) 1 = true ∧ (lab []).lany.nmi = false ∧
    (lab [(pa .wdog 0 rWDG_HOST_CFG, 0x8000FFFF)]).bitAt (pa .wdog 0 rWDG_HOST_CFG) 31 = true ∧
    (lab []).refusal .host (pa .wdog 0 rWDG_HOST_KICK) true 0xC35A false false = none ∧
    (lab []).refusal .safe (pa .wdog 0 rWDG_LANY_KICK) true 0xC35A false false = none ∧
    ((lab []).setTimer (pa .wdog 0 rWDG_LANY_LEFT) 1).timer (pa .wdog 0 rWDG_LANY_LEFT) ≠ 0 ∧
    ((lab []).setTimer (pa .wdog 0 rWDG_HOST_LEFT) 1).timer (pa .wdog 0 rWDG_HOST_LEFT) ≠ 0 ∧
    (lab []).refusal .safe (pa .wdog 0 rLNY_INJ) true 3 false false = none ∧
    ((lab []).plain (pa .wdog 0 rLNY_INJ) 3).bitAt (pa .wdog 0 rLNY_INJ) 2 = false ∧ (lab []).monitorEn 19 = false ∧ (lab []).supplyOn 0 = true ∧
    ((lab []).wr (domReg 15) 0).domOn 15 = false := by decide
theorem witness_KeyStoreCommands : ((lab []).inject .key 0 0 1).1 = 0 ∧
    (lab []).refusal .safe (pa .key 0 rKEY_CMD) true (keyWord 1 0xFFF) false ((lab []).bitAt (pa .key 0 rKEY_STAT) 31) = none ∧
    (lab []).refusal .normal (pa .key 0 rKEY_CMD) true (keyWord 9 0) false ((lab []).bitAt (pa .key 0 rKEY_STAT) 31) = none ∧
    (lab []).lcs ≠ 2 ∧ (lab [(pa .key 0 rKEY_STAT, 0x80000000)]).bitAt (pa .key 0 rKEY_STAT) 31 = true ∧ (lab []).domOn 16 = true := by decide
theorem witness_LifeCycleAndTamperCommands : (lab []).root.id = 0 ∧ (lab []).lcs ≠ 4 ∧ (lab []).tamperBars = false ∧
    (lab [(pa .trng 0 0x00C, 1), (pa .trng 0 rTRNG_STAT, 1)]).drbgOk = true ∧ (lab []).drbgOk = false ∧
    (lab []).refusal .safe (lcsA rLCS_CTRL) true 0x20000000 false false = none ∧ (lab []).refusal .safe (lcsA rLCS_CTRL) true 0x80000004 false false = none ∧
    (lab []).transitionBad 4 = 0 ∧ ((lab []).setTimer (lcsA rLCS_CTRL) 1).timer (lcsA rLCS_CTRL) ≠ 0 ∧
    (lab [(lcsA rLCS_STAT, 0x100)]).bitAt (lcsA rLCS_STAT) 8 = true ∧ (lab []).otpHas 7 = false ∧
    (lab []).refusal .safe (lcsA rLCS_OTP_CMD) true 0x80000007 false false = none ∧
    (lab []).refusal .safe (pa .tamper 0 rTAMPER_STAT) true 0xF false false = none ∧
    (lab [(pa .trng 0 0x00C, 0)]).bitAt (pa .trng 0 0x00C) 0 = false ∧ (lab [(pa .trng 0 0x00C, 1)]).bitAt (pa .trng 0 0x00C) 0 = true ∧ (lab []).srstBusy (pa .trng 0 rTRNG_OUT) = false := by decide
theorem witness_CryptoJobCommands :
    (lab []).refusal .safe (pa .aead 0 rJOB_CMD) true (jobWord 6 0xFFF) false ((lab []).bitAt (pa .aead 0 rJOB_STAT) 31) = none ∧
    (lab [(pa .aead 0 0x00C, 1)]).bitAt (pa .aead 0 0x00C) 0 = true ∧ (lab [(pa .hash 0 0x00C, 1)]).bitAt (pa .hash 0 0x00C) 0 = true ∧
    (lab []).refusal .safe (pa .hash 0 rJOB_CMD) true (jobWord 2 0) false ((lab []).bitAt (pa .hash 0 rJOB_STAT) 31) = none ∧
    (lab []).kat .hash = false ∧ ((lab []).inject .hash 0 0 1).1 = 0 ∧ ((lab []).inject .pke 0 0 1).1 = 0 ∧ (lab []).kat .pke = false ∧
    (lab [(pa .pke 0 0x00C, 1)]).refusal .safe (pa .pke 0 rPKE_CMD) true (jobWord 8 0) false ((lab []).bitAt (pa .pke 0 rPKE_STAT) 31) = none ∧
    (lab [(pa .pke 0 rPKE_STAT, 0x80000000)]).bitAt (pa .pke 0 rPKE_STAT) 31 = true := by decide
theorem witness_DebugRequests : (lab []).domOn 2 = true ∧ (lab []).dbg.deaf = false ∧ (lab []).lcs ≠ 4 ∧ 3 ≤ (lab []).dbgLevel ∧
    spaceBad 0 false 0x40FFFFFC = false ∧ (lab []).dbg.failAt = none ∧
    (lab [(pa .trng 0 0x00C, 1), (pa .trng 0 rTRNG_STAT, 1)]).drbgOk = true ∧
    ({ lab [] with results := [(dbA rDBG_STAT, 1)] } : State).results.find? (fun (e : Nat × Nat) => e.1 = dbA rDBG_STAT) = some (dbA rDBG_STAT, 1) := by decide
theorem witness_DebugControl : (lab [(pa .lay 7 rLAY_STAT, 3)]).domOn 10 = true ∧ (lab [(pa .lay 7 rLAY_STAT, 3)]).laySt 7 = 3 ∧
    (lab [(pa .lay 7 rLAY_STAT, 5)]).laySt 7 = 5 ∧ 3 ≤ (lab [(pa .lay 7 rLAY_STAT, 5)]).dbgLevel ∧
    (((lab []).setLay 7 { (lab []).lay 7 with stepLeft := 1 }).lay 7).stepLeft = 1 ∧ (lab []).lanyRuns = true ∧
    ({ (lab []).dbg with checking := true } : Dbg).fresh = false ∧ ({ (lab []).dbg with checking := true, fresh := true } : Dbg).checking = true := by decide

/-- A message of no payload. -/
def msg0 : TxMsg := ⟨none, 0, 0, 0, 0, 0, false, false, 0, 0, 0, [], false, 0, false⟩
/-- A run of a port in a state. -/
def run0 (st : Nat) : TxRun := ⟨msg0, [], [], 0, 0, 0, 0, 0, 0, st, 0, false, 0, false, 0, 0⟩
/-- A field port owns its balls. -/
def owning (m : Nat) : Nat × Word32 := (pmxA (rPMX_OWN + 4 * (32 + m)), 5)
/-- Field port 0 enabled, sending in a state. -/
def sending (st : Nat) : State := (lab [(pa .radio 0 0x00C, 1), owning 0]).setPort7 0 { (lab []).port7 0 with run := some (run0 st) }

theorem witness_IngestCommands : (lab [(ingA 0x00C, 0)]).bitAt (ingA 0x00C) 0 = false ∧ (lab []).refusal .host (ingA 0x00C) true 1 false false = none ∧
    ((lab [(ingA 0x00C, 1)]).domOn 1 && (lab [(ingA 0x00C, 1)]).bitAt (ingA 0x00C) 0) = true ∧
    (lab []).refusal .safe (ingA rING_CTRL) true 4 false false = none ∧ (lab [(ingA rING_STAT, 0x10000)]).bitAt (ingA rING_STAT) 16 = true ∧
    (lab []).refusal .host (ingA rING_SRC_SEL) true 0x80000FFF false ((lab []).commitBad 4095) = none ∧ (lab []).ing.ring = [] ∧
    ({ lab [] with ing := { (lab []).ing with ring := [(65535, some ⟨65535, 0, true, 0⟩)] } } : State).ing.ring = [(65535, some ⟨65535, 0, true, 0⟩)] := by decide
theorem witness_FrameAdmission : (lab []).domOn 1 = true ∧
    (lab []).classify { port := 0, sec := 0, ns := 0, addr := 0, udp := some (1, 2), sound := true, data := [], word7 := 0 } = none := by decide
/-- R246: a cell without FIRST is no query. -/
theorem test_query_malformed : queryOf 0 = none := by simp [queryOf, cellFirst, bit]
/-- R246: a query of meter 5 from 0 up to 1 with the most records it may ask for, 4096. -/
theorem test_query_formed : (queryOf (mkCell [mkHeader true true 56 0 9, 5, 0, 1, 4096, 0, 0, 0])).map (fun q => (q.meter, q.lo, q.hi, q.most))
    = some (5, 0, 1, 4096) := by decide +kernel
theorem witness_ReadingPathCommands : (lab [(descA 5 1, 0x00001400)]).fld (descA 5 1) 12 8 = 20 ∧ (16 : Fin 17).val = 16 ∧ queryOf 0 = none :=
  ⟨by decide, by decide, test_query_malformed⟩
theorem witness_MeterTableCommands : (lab []).domOn 2 = true ∧ (lab []).domOn 14 = true ∧ (lab [(mdbA 0x00C, 1)]).bitAt (mdbA 0x00C) 0 = true ∧
    (lab []).refusal .safe (mdbA rMDB_RD_CMD) true 0x870FFFFF false ((lab []).mdbBusy 0) = none ∧
    ((lab [(mdbA 0x00C, 1)]).plain (mdbA rMDB_RD_CMD) 0x870FFFFF).bitAt (mdbA 0x00C) 0 = true ∧
    (lab []).refusal .safe (mdbA rMDB_WR_CMD) true 0x870FFFFF false ((lab []).mdbBusy 1 || (lab []).mdbBusy 2) = none ∧
    (lab []).refusal .safe (mdbA rMDB_BULK_CMD) true 0x80000000 false false = none ∧ (lab [(mdbA rMDB_BULK_DONE, 0x80000000)]).mdbBusy 2 = true ∧
    (lab [(mdbA rMDB_RD_STAT, 0x80000000)]).mdbBusy 0 = true ∧ (lab [(mdbA rMDB_WR_STAT, 0x80000000)]).mdbBusy 1 = true ∧
    (lab []).work.pass = none ∧ (lab []).passes = [] ∧ (lab []).domOn 15 = true := by decide
theorem witness_TariffCommands : (lab []).domOn 10 = true ∧ (lab []).domOn 14 = true ∧
    ({ lab [] with work := { (lab []).work with dist := [(5, ⟨1, 60, 0, 0, 0, none⟩)] } } : State).work.dist.find? (fun e => e.1 = 5)
      = some (5, ⟨1, 60, 0, 0, 0, none⟩) ∧
    ({ lab [] with work := { (lab []).work with credits := [(5, (1, 0))] } } : State).work.credits.find? (fun e => e.1 = 5) = some (5, (1, 0)) := by decide
theorem witness_CosemCommands : roleOf 0xFFFF = none ∧ (lab []).domOn 1 = true ∧ (lab []).limitBars 9 = false ∧ (lab []).pairEn = false ∧
    ({ lab [] with work := { (lab []).work with sessions := [(63, ⟨1, 0⟩)] }, tsuTime := { TsuTime.off with sec := 120 } } : State).work.sessions.find?
      (fun e => e.1 = 63) = some (63, ⟨1, 0⟩) := by decide
theorem witness_MeasurementCommands : (lab []).domOn 13 = true ∧ (lab [(measA 0x00C, 1)]).bitAt (measA 0x00C) 0 = true ∧
    (lab []).bitAt (measA rMEAS_STAT) 1 = false ∧ (lab [(measA rMEAS_STAT, 2)]).bitAt (measA rMEAS_STAT) 1 = true ∧
    (lab [(measA rMEAS_CTRL, 0x10000)]).bitAt (measA rMEAS_CTRL) 16 = true ∧ (lab [(tsuA rTSU_STAT, 8)]).bitAt (pa .tsu 0 rTSU_STAT) 3 = true ∧
    (lab []).netOn = true ∧ (lab []).refusal .host (measA 0x00C) true 1 false false = none ∧ (lab []).bitAt (measA 0x00C) 0 = false ∧
    ((lab []).putCh rMEAS_STUCK 127 true).chBit rMEAS_STUCK 127 = true ∧ ((lab []).putCh rMEAS_CH_EN 127 true).chBit rMEAS_CH_EN 127 = true ∧
    ((lab []).putCh rMEAS_CH_EN 127 true).chBit rMEAS_STUCK 127 = false ∧ (lab [(mpA 15 rMP_STAT, 0x40000)]).bitAt (mpA 15 rMP_STAT) 18 = true := by decide
theorem witness_TotalsAndPulseCommands : (lab []).domOn 13 = true ∧
    ({ lab [] with totals := { (lab []).totals with writing := some (1, [], false) } } : State).totals.writing = some (1, [], false) ∧
    (lab []).bitAt (totA rTOT_STAT) 3 = false ∧ (lab []).lcs < 2 ∧ (lab []).refusal .safe (totA rTOT_CLEAR) true 0x8000FFFF false false = none ∧
    (lab []).refusal .host (totA rTOT_SEL) true 0x8000590F false false = none ∧ (lab []).refusal .safe (totA rTOT_SW_DATA) true 0 false false = none ∧
    3600 % (900 : BitVec 16).toNat = 0 ∧ (lab []).refusal .safe (totA rTOT_DM_CFG) true 0x003C0384 false false = none ∧
    (lab [(pulA 0x00C, 1)]).bitAt (pulA 0x00C) 0 = true ∧ (lab []).refusal .host (pulA (rPUL_CFG + 16 * 15)) true 0x80000000 false false = none ∧
    ((lab []).blockClaim 15 2).1 = true ∧ ((lab []).blockClaim 16 2).1 = false ∧ (lab []).refusal .safe (mpA 15 rMP_COMMIT) true 0x80000000 false false = none ∧
    (lab []).domOn 17 = true := by decide
theorem witness_BalanceCommands : (lab []).domOn 1 = true ∧ (lab []).isClosed 7 = false ∧
    ({ lab [] with bal := { (lab []).bal with notices := [(7, 3)] } } : State).bal.notices.find? (fun e => e.1 = 7) = some (7, 3) ∧
    ((lab []).setTimer (balA rBAL_STAT) 1).timer (balA rBAL_STAT) ≠ 0 ∧ (lab []).bal.node 5 = none ∧
    (lab []).refusal .host (balA rBAL_CTRL) true 0x80000006 false ((lab []).bitAt (balA rBAL_STAT) 31) = none := by decide
theorem witness_FieldPortCommands :
    (lab [(pa .radio 0 rRAD_EXT, 1)]).refusal .host (pa .radio 0 0x00C) true 1 false false = none ∧ (lab [(pa .radio 0 rRAD_EXT, 1)]).rd64 (pa .radio 0 rRAD_EXT) ≠ 0 ∧
    (lab []).bitAt (pa .radio 0 0x00C) 0 = false ∧ (lab [(pa .radio 3 0x00C, 1), owning 3]).macOn 3 = true ∧
    (((sending 3).at 5).port7 0).run = some (run0 3) ∧ (((sending 2).at 5).port7 0).run = some (run0 2) ∧ ((sending 2).port7 1).run = none ∧
    ((sending 2).port7 1).acking = none ∧ ((lab []).port7 0).xreg = none ∧ (lab []).refusal .host (pa .radio 0 rRAD_XREG) true 0x80FFFFFF false false = none ∧
    (lab [(pa .radio 0 rRAD_NB_EXT, 1)]).refusal .host (macA 0 rRAD_NB_SEL rPH_NB_SEL) true 0x80000FFF false ((lab [(pa .radio 0 rRAD_NB_EXT, 1)]).nbBad 0 4095) = none ∧
    (lab []).refusal .host (macA 6 rRAD_NB_SEL rPH_NB_SEL) true 0x40000FFF false false = none ∧ (lab []).domOn 12 = true ∧
    (lab [(pa .radio 0 0x00C, 1)]).txres 0 ≤ (lab []).txctr 0 + 1024 ∧ ((lab []).port7 0).halted = false ∧ (lab []).limitBars 4 = false ∧
    (lab []).refusal .safe (sharedA 0 rRAD_TXCTR_RST rPLC_TXCTR_RST) true 0x80000000 false false = none ∧
    (lab []).refusal .host (pa .radio 0 rRAD_XREG) true 0xC0FFFFFF false false = none := by decide
theorem witness_FieldFrameCommands :
    (((sending 1).at 5).port7 0).run = some (run0 1) ∧ ((sending 1).at 5).macOn 0 = true ∧ ((sending 1).at 5).fenced = false ∧ isRadio 3 = true ∧ isRadio 4 = false ∧
    (((sending 2).at 5).port7 0).dueAcks 5 = [] ∧ (((sending 4).at 5).port7 0).run = some (run0 4) ∧ (run0 3).msg.ack = false ∧
    (((lab []).setPort7 0 { (lab []).port7 0 with reasm := [⟨0, 0, 0, [], 0, false⟩] }).port7 0).reasm = [⟨0, 0, 0, [], 0, false⟩] ∧
    ((sending 1).at 5).startingUp 0 = false ∧ ((sending 1).at 5).acking 0 = false ∧ ((sending 1).spiSend 0 0x20 [] 5).mtu 0 < 65535 ∧ (0 : Nat) ≤ ((sending 1).spiSend 0 0x20 [] 5).mtu 0 := by decide
theorem witness_PowerLineCommands : ((lab []).at 5).domOn 12 = true ∧ ((lab []).at 5).netOn = true ∧ look (fun _ => 0) ((lab []).at 5).plc.edge 3 = 0 ∧
    ((lab [(plcA 0x00C, 1)]).at 0).bitAt (plcA 0x00C) 0 = true ∧ (lab []).fenced = false ∧ (lab []).plc.due ≤ 0 ∧
    ({ (lab []).plc with startEnd := some 5 } : Plc).startEnd = some 5 ∧ ((lab [(pa .plc 0 0x00C, 1), (pa .plcPh 0 0x00C, 1), owning 4]).at 5).macOn 4 = true := by decide

/-- A part linked to a peer by a key that the link holds, in a role. -/
def linked (role : Nat) : State :=
  { lab [(prA 0x00C, 1), (prA rPAIR_STAT, 7), (leA rLEASE_CTRL, 1), (leA rLEASE_STAT, BitVec.ofNat 32 role)] with
    copies := [(13 * 16, { KeyReg.clear with st := .ready })], keys := [(0, { KeySlot.empty with type := 1, mask := 0x2000 })] }
/-- A mailbox request in service. -/
def asked (c : Nat) (body : List (BitVec 8)) : State :=
  { lab [(pa .ddr 0 0x00C, 1)] with lany := { (lab []).lany with mail := some ⟨c, 0, body, false⟩ } }

theorem witness_TsuCommands : ((lab []).at 5).netOn = true ∧ ((lab []).at 5).tsuTime.lastEnd = none ∧
    ((lab [(tsuA rTSU_PPS, 0x80000000), (pmxA rPMX_OWN, 3)]).at 5).ppsBall = some 0 ∧
    ((lab [(tsuA rTSU_PTP_CFG, 0x20)]).at 5).bitAt (tsuA rTSU_PTP_CFG) 5 = true ∧ ptpType [0xBB] = 11 ∧ ptpType [0x20] = 0 ∧ ptpType [3] = 3 ∧
    (lab [(tsuA rTSU_PORT_MODE, 0x20)]).softStamp 5 = true ∧ (lab []).softStamp 0 = false ∧ (lab [(tsuA rTSU_CTRL, 0)]).fld (tsuA rTSU_CTRL) 1 0 = 0 ∧
    (lab [(tsuA rTSU_CTRL, 1)]).fld (tsuA rTSU_CTRL) 1 0 ≠ 0 ∧ (lab [(tsuA rTSU_CTRL, 0)]).refusal .host (tsuA rTSU_SLEW) true 0xFFFFFFFF false ((lab [(tsuA rTSU_CTRL, 0)]).servoOwns .host) = none ∧
    (lab []).refusal .host (tsuA rTSU_STEP_CTL) true 0x80000000 false (Requester.host ≠ .host || (lab []).stepBad (lab []).stepValue) = none ∧
    (lab [(tsuA (rTSU_CAPC + 56), 0x1FF)]).fld (tsuA (rTSU_CAPC + 8 * 7)) 7 0 = (0xFF : BitVec 8).toNat ∧
    (lab [(tsuA (rTSU_CAPC + 56), 0x1FF)]).bitAt (tsuA (rTSU_CAPC + 8 * 7)) 8 = true ∧ (lab [(tsuA (rTSU_CAPC + 56), 0x1FF)]).bitAt (tsuA (rTSU_CAPC + 8 * 7)) 27 = false ∧
    (lab []).refusal .host (tsuA rTSU_PPS) true 0x80000000 false false = none ∧ bit ((lab []).rd (tsuA rTSU_PPS)) 31 = false := by decide
theorem witness_RtcCommands : ((lab []).at 0).rtcRuns = true ∧ ((lab []).at 0).rtc.hold = 0 ∧ ((((lab []).rtcSec + 1) % 2 ^ 40 : Nat) : Int) % 86400 ≠ 0 ∧
    (lab []).refusal .host (rtcA rRTC_CTRL) true 1 false false = none ∧
    (lab [(rtcA rRTC_CTRL, 1)]).refusal .host (rtcA rRTC_TIME) true 0 false (!(lab [(rtcA rRTC_CTRL, 1)]).bitAt (rtcA rRTC_CTRL) 0) = none ∧
    (lab [(rtcA rRTC_CTRL, 2), (tsuA rTSU_STAT, 8)]).discActive = true ∧
    (lab [(rtcA rRTC_CTRL, 1)]).refusal .host (rtcA rRTC_CAL_DATE) true 0x07D00101 false (!(lab [(rtcA rRTC_CTRL, 1)]).bitAt (rtcA rRTC_CTRL) 0) = none ∧
    (lab []).calSecond 0x07D00101 0 = some 946684800 ∧ (lab []).bitAt (rtcA rRTC_STAT) 1 = false ∧ (lab [(rtcA rRTC_STAT, 2)]).bitAt (rtcA rRTC_STAT) 1 = true ∧
    1900 ≤ (1900 : BitVec 12).toNat ∧ (2599 : BitVec 12).toNat < 2600 := by decide
theorem witness_PowerCommands : (lab [(domReg 3, 0)]).refusal .safe (domReg 3) true 1 false ((lab [(domReg 3, 0)]).targetBad 3 1 != 0) = none ∧
    ((lab [(domReg 3, 0)]).putF (domReg 3) 1 0 1).domSt 3 = 0 ∧ ((lab [(domReg 3, 0x20000)]).putF (domReg 3) 1 0 1).domSt 3 = 2 ∧
    (lab []).refusal .safe (domReg 17) true 0 false ((lab []).targetBad 17 0 != 0) = none ∧
    (lab []).refusal .safe (domReg 10) true 2 false ((lab []).targetBad 10 2 != 0) = none ∧ (lab [(domReg 17, 0x30000)]).domSt 17 = 3 ∧
    (lab [(domReg 17, 0x3030000)]).fld (domReg 17) 25 24 = 3 ∧ ((lab []).setTimer (domReg 17) 1).timer (domReg 17) ≠ 0 ∧
    (lab [(pa .wake 0 rWAKE_SRC_EN, 8)]).bitAt (pa .wake 0 rWAKE_SRC_EN) 3 = true ∧ (lab [(pa .wake 0 rWAKE_CFG, 0xFF)]).bitAt (pa .wake 0 rWAKE_CFG) 7 = true ∧
    (lab [(pa .wake 0 rWAKE_CFG, 0xFF)]).fld (pa .wake 0 rWAKE_CFG) 6 0 = (0x7F : BitVec 7).toNat ∧ (lab []).timer (pa .wake 0 rWAKE_CFG) = 0 ∧
    (lab []).bitAt (pa .pwr 0 rPWR_STAT) 0 = false ∧ (lab [(pa .pwr 0 rPWR_PF_CFG, 0xC0000000)]).bitAt (pa .pwr 0 rPWR_PF_CFG) 30 = true ∧
    (lab [(pa .pwr 0 rPWR_STAT, 3)]).bitAt (pa .pwr 0 rPWR_STAT) 1 = true ∧ (lab []).refusal .safe (pa .rst 0 rRST_CTRL) true 0x800052A5 false false = none ∧
    (lab [(pa .clk 0 rCLK_REF_MON, 0x80000000)]).bitAt (pa .clk 0 rCLK_REF_MON) 31 = true ∧ (lab [(pa .rst 0 rRST_BOOT, 0)]).bootAt < 3 ∧ (lab []).lcs ≠ 4 ∧
    ((lab []).boot [] 0).lanyRuns = true ∧ ((lab []).boot [] 0).lany.started = false := by decide
theorem witness_NandCommands : (lab []).refusal .safe (nandA 0x00C) true 1 false false = none ∧ (lab []).bitAt (nandA 0x00C) 0 = false ∧
    (lab [(nandA 0x00C, 1)]).domOn 15 = true ∧ (lab [(nandA 0x00C, 1), (nandA rNAND_STAT, 5)]).nandReady = true ∧
    (lab [(nandA rNAND_STAT, 8)]).bitAt (nandA rNAND_STAT) 3 = true ∧ (lab [(nandA rNAND_STAT, 1)]).bitAt (nandA rNAND_STAT) 0 = true ∧
    (lab []).bitAt (pa .pwr 0 rPWR_STAT) 0 = false ∧ ((lab []).mapRead 31).1 = false := by decide
theorem witness_MailboxCommands : (asked 1 []).lany.mail = some ⟨1, 0, [], false⟩ ∧ (asked 1 []).normalRuns = true ∧
    leNat ((List.replicate 8 (0 : BitVec 8)).take 8) &&& 0xF07 = leNat ((List.replicate 8 (0 : BitVec 8)).take 8) ∧
    (asked 0x30 []).refusal .normal (pa .key 0 rKEY_CMD) true 0x81000000 false ((asked 0x30 []).bitAt (pa .key 0 rKEY_STAT) 31) = none ∧
    (asked 0x31 []).refusal .safe (lcsA rLCS_CTRL) true 0 false false = none ∧ (asked 0x33 []).lcs ≤ 1 ∧
    (asked 0x33 []).refusal .normal (lcsA rLCS_OTP_CMD) true 0x80000007 false ((asked 0x33 []).otpHas 7) = none ∧ (asked 0x50 []).targetBad 17 0 = 0 ∧
    (asked 0x80 []).refusal .safe (wdA rWDG_HOST_WIN) true 0xFFFF false false = none ∧ (asked 0x80 []).lcs ≠ 2 ∧
    (lab []).lany.mail = none ∧ (lab [(descA 6335 1, 0x00001500)]).fld (descA 6335 1) 12 8 = 0x15 ∧ (lab []).bitAt (wdA rLNY_STAT) 0 = false := by decide
theorem witness_PairRoleCommands : (lab []).pairEn = false ∧ (lab []).refusal .safe (leA rLEASE_CTRL) true 3 false false = none ∧ (linked 1).pairEn = true ∧
    (linked 5).role = 5 ∧ (linked 1).refusal .safe (leA rLEASE_CTRL) true 2 false false = none ∧ (linked 3).pairLoadKey.pairOn = true ∧
    ((linked 3).pairLoadKey.inject .pair 0 3 4).1 = 0 ∧ (linked 3).pair.peerCtr < 1 ∧ (linked 2).bitAt (prA rPAIR_STAT) 2 = true ∧ (linked 2).pair.seen = none ∧
    (linked 2).bitAt (prA rPAIR_STAT) 1 = true ∧ (linked 2).leaseDue = false ∧
    ({ linked 2 with pair := { (linked 2).pair with expiry := 1 }, now := 1 } : State).leaseDue = true ∧
    ({ linked 3 with pair := { (linked 3).pair with expiry := 1 }, now := 1 } : State).role = 3 ∧ (linked 4).role = 4 ∧ (linked 4).normalRuns = true ∧
    (linked 5).refusal .safe (prA rPAIR_HOST_CMD) true 0x80000002 false false = none ∧ (!(lab []).linkUp) = true := by decide
theorem witness_MirrorAndCampaignCommands : (linked 3).pairLoadKey.pairOn = true ∧ ((linked 3).pairLoadKey.inject .pair 0 3 4).1 = 0 ∧ (linked 3).role = 3 ∧
    (linked 2).role = 2 ∧ (linked 2).peerReady = false ∧ (linked 2).nandReady = false ∧ (linked 3).pair.salvage = none ∧ (linked 3).pair.test = none ∧
    (linked 3).pair.testAt ≤ (linked 3).now ∧ (linked 3).normalRuns = true ∧
    ({ linked 3 with pair := { (linked 3).pair with salvage := some [] } } : State).role = 3 ∧ (lab []).campOn = true := by decide
theorem witness_RingAndQspiCommands : (lab []).refusal .host (pcA rPCIE_RC_CTRL) true 1 false false = none ∧
    (lab [(pcA rPCIE_STAT, 1)]).pcieUp = true ∧ (lab [(pcA rPCIE_STAT, 1)]).ringDir 63 = 0 ∧ (lab []).domOn 17 = true ∧
    (lab []).refusal .host (pcA rPCIE_RC_CTRL) true 0x80000000 false false = none ∧ (lab [(pcA rPCIE_STAT, 0)]).bitAt (pcA rPCIE_STAT) 7 = false ∧
    ({ lab [(pcA rPCIE_STAT, 1)] with msix := { (lab []).msix with due := [255] } } : State).msix.due.contains 255 = true ∧ (lab []).msix.pend.contains 255 = false ∧
    (lab []).refusal .safe (qsA rQSPI_CMD) true (qspiGo 1) ((lab []).goldenBad 1 0) ((lab []).qspiBad .safe 1 0 0) = none ∧
    (lab []).refusal .safe (qsA rQSPI_CMD) true (qspiGo 3) ((lab []).goldenBad 3 0) ((lab []).qspiBad .safe 3 0 0) = none ∧
    (lab [(qsA rQSPI_STAT, 1)]).bitAt (qsA rQSPI_STAT) 0 = true := by decide
theorem witness_EthernetCommands : ((lab [(ethA 5 0x00C, 1), (ethA 5 rETH_STAT, 1)]).at 5).ethUp 5 = true ∧ ((lab []).inject (ethPg 5).1 (ethPg 5).2 0 1).1 = 0 ∧
    (lab []).ethUsable 5 4 = true ∧ (lab []).netOn = true ∧ (lab []).bitAt (ethA 5 rETH_STAT) 0 = false ∧
    (lab []).refusal .host (ethA 5 rETH_NC_FLUSH) true 0x80000000 false false = none ∧ (lab []).refusal .host (ethA 4 rSG_MDIO) true 0xFFFFFFFF false false = none ∧
    (lab []).domOn (portDomain 20) = true ∧ ackFor 20 4095 = true ∧ (lab []).begun 8191 = [] := by decide
theorem witness_UartAndPinCommands : (lab [(uaA 7 0x00C, 1), (pmxA (rPMX_OWN + 4 * 46), 5)]).uartOn 7 = true ∧ ((lab []).uart 7).waits = false ∧ (lab []).fenced = false ∧
    ((lab []).uart 7).run = none ∧ ((lab []).uart 7).byAddr 0 = none ∧ (lab [(descA 8191 1, 0x00000600)]).fld (descA 8191 1) 12 8 = 6 ∧ ((lab []).uart 7).status.length < 64 ∧
    (lab []).refusal .host (uaA 7 rUART_ST_SEL) true 0x8000001F false ((lab []).stationBad 7 31) = none ∧
    (lab []).refusal .host (uaA 0 rUART_ST_SEL) true 0x40000000 false false = none ∧ (lab [(sbA 0x00C, 1)]).bitAt (sbA 0x00C) 0 = true ∧
    (lab [(pmxA (rPMX_OWN + 4 * 48), 5)]).pmxFunc 48 = 5 ∧ bit (((lab []).setBk (sbA rSB_SLOT_CFG) 31 0xC0000000).bk (sbA rSB_SLOT_CFG) 31) 31 = true ∧
    (lab []).refusal .host (pmxA rPMX_CLAIM) true 0x8000061F false false = none ∧ pmxPermits 71 6 = true ∧ pmxPermits 127 255 = false ∧ (lab []).pmxFunc 71 = 0 ∧
    (lab [(pmxA rPMX_OWN, 0x201)]).pmxFunc 0 ≠ 0 ∧ (lab [(pmxA rPMX_OWN, 0x201)]).pmxHolder 0 = reqCode .normal ∧
    (lab []).bitAt (pmxA rPMX_GPIO_IN) 31 ≠ true ∧ (lab [(pmxA (rPMX_TMR_CTRL + 56), 0x80000000)]).bitAt (pmxA (rPMX_TMR_CTRL + 8 * 7)) 31 = true := by decide

/-- A lay 0 whose strand 0 is granted the consumer end of splice 5 and the producer end of splice 8191. -/
def granting : State := (lab [(descA 5 0, 0xC2000000)]).setLay 0 { Lay.clear with
  tabs := [⟨0x11, [0], [5, 0, 0, 0, 0, 0, 0, 0, 0xFF, 0x1F, 0x10, 0, 0, 0, 0, 0]⟩] }
theorem witness_PopsPushesAndFlags : granting.exec? issue0 = true ∧ granting.granted 0 0 5 false = true ∧ granting.granted 0 0 8191 true = true ∧
    (granting.lay 0).used.contains (5, false) = false ∧ (granting.useEnd issue0 5 false).splEmpty 5 = true ∧
    ((granting.setSpl 5 { Splice.clear with wSeen := 1 }).useEnd issue0 5 false).splEmpty 5 = false ∧ (granting.val issue0 0).toNat % 8192 = 0 ∧ granting.splKind 8191 = 0 ∧
    (granting.setLay 0 { granting.lay 0 with used := [(5, false)] }).granted 0 0 5 false = true ∧ granting.granted 0 15 5 false = false := by decide

/-! ### Further clauses of the statements, each with a state that meets its hypotheses -/

/-- A write that is not refused. -/
def mayW (s : State) (q : Requester) (a : Nat) (v : Word32) (bad : Bool) : Bool := s.refusal q a true v false bad == none
/-- Lay 0 in a state. -/
def layS (v : Word32) : State := lab [(pa .lay 0 rLAY_STAT, v), (pa .lay 0 rLAY_OUT, 0x8000)]
/-- A rigging of lay 0 runs, its image empty. -/
def rigged : State := { layS 4 with rig := { (layS 4).rig with running := true, layMask := 1 } }

theorem witness_RefusedSpliceOperations_again :
    (let s := granting.setLay 0 { granting.lay 0 with used := [(5, false), (8191, true)] }
     s.granted 0 0 5 false && (s.lay 0).used.contains (5, false) && s.granted 0 0 8191 true && (s.lay 0).used.contains (8191, true)) = true := by decide
theorem witness_LayControlCommands_each :
    mayW (layS 2) .safe (pa .lay 0 rLAY_CTRL) 0 false && mayW (layS 2) .safe (pa .lay 0 rLAY_CTRL) 8 false &&
    mayW (layS 1) .safe (pa .lay 0 rLAY_CTRL) 9 false && mayW (layS 3) .safe (pa .lay 0 rLAY_CTRL) 2 false &&
    mayW (layS 4) .safe (pa .lay 0 rLAY_CTRL) 4 false = true := by decide
theorem witness_LayControlCommands_normal : (rigged.mayReturn 0 15 false && !rigged.returnRefused 0 15 && !(layS 4).mayReturn 0 15 false) = true := by decide
theorem witness_TurnBoundaries_last :
    (let s : State := { layS 0x13 with rig := { (layS 0x13).rig with stopping := true } }
     s.laySt 0 == 3 && s.bitAt (pa .lay 0 rLAY_STAT) 4 && (s.stopLay 0).activeLays == []) = true := by decide
theorem witness_LayServiceCommands_each :
    (let s := (lab []).setStr 0 { Strand.clear with dmUsed := true }
     s.domOn 3 && (s.str 0).dmUsed && !(s.str 0).imUsed && !((lab [(pa .lay 0 rLAY_STAT, 5)]).outSet 0).testBit 0 &&
     mayW (lab [(pa .lay 0 rLAY_STAT, 1)]) .safe (pa .lay 0 rLAY_LD_DATA) 0 false) = true := by decide
theorem witness_SharedEngineCommands_each :
    (let s := (lab []).setLay 0 { (lab []).lay 0 with keyq := [⟨0, 0, 0, 0, 0, 0, false⟩] }
     let s := s.setStr 0 ((s.str 0).setKey 0 { KeyReg.clear with st := .pending })
     (((s.serveLoad 0 ⟨0, 0, 0, 0, 0, 0, false⟩).2.str 0).key 0).st == .pending) = true := by decide
theorem witness_SharedEngineCommands_slots :
    (let s := (lab [(pa .ddr 0 0x00C, 1), (descA 6144 0, 0xC2000000), (descA 6145 0, 0xC2000000)])
     let o (n : Nat) : State := { s with rig := { s.rig with frames := true, ddr := [n] } }
     (o 0).rig.ddrAt == 0 && (o 0).bitAt (pa .ddr 0 0x00C) 0 && ((((o 4096).setLay 0 { Lay.clear with ports := [(0, 0, 6144, 6145)] }).port 0 0 0).isSome) &&
     ({ s with rig := { s.rig with frames := true, pke := [0, 0, 0], pkeBusy := 2 } } : State).rig.pkeBusy == 2) = true := by decide
theorem witness_SpliceCommands_each :
    (let s := lab [(descA 5 0, 0x82000000)]
     let k := lab [(descA 5 0, 0xE2000000)]
     let z := s.setSpl 5 { Splice.clear with w := ⟨0, 0, false, false⟩ }
     let h : State := { s with held := [(5, cell1)] }
     let w : State := { s.setSpl 5 { Splice.clear with window := 1 } with held := [(5, cell1)] }
     k.splKind 5 != 0 && s.splKind 5 == 0 && !h.splFull 5 && (h.spl 5).window == 0 && !w.splFull 5 && 0 < (w.spl 5).window &&
     (s.spl 5).w.c == ~~~(s.spl 5).w.t && (z.spl 5).w.c != ~~~(z.spl 5).w.t && (z.spl 5).w.restore.isNone && z.splEn 5 && s.domOn 1) = true := by decide
theorem witness_RiggingCommands_each :
    (let s : State := { lab [(pa .ingest 0 rING_STAT, 0x20000)] with rig := { (lab []).rig with waiting := true } }
     let r := s.setStr 0 Strand.clear
     s.rig.waiting && s.bitAt (pa .ingest 0 rING_STAT) 17 && s.activeLays == [] && (layS 3).activeLays != [] && r.rig.waiting &&
     !(lab []).bitAt (pa .ingest 0 rING_STAT) 17) = true := by decide
theorem witness_Pops :
    (let g : State := granting.wr (pa .lay 0 rLAY_STAT) 3
     let t := (g.setSpl 5 { Splice.clear with wSeen := 1 }).useEnd issue0 5 false
     (t.pop 5).1 == some (0, false) && !(t.pop 5).2.bitAt (pa .strand 0 0x01C) 17 && ((g.useEnd issue0 5 false).pop 5).1 == none &&
     !((g.useEnd issue0 5 false).pop 5).2.producerQuiet 5 && !(g.lay 0).used.contains (8191, true)) = true := by decide +kernel
/-- In VOID. -/
def voided : State := { lab [] with otp := { (lab []).otp with fuses := 0xFF } }
theorem witness_PageHeaderCommands_each :
    (let s := lab [(pa .lay 0 0x00C, 5), (pa .lay 0 0x02C, 0x98000000)]
     let b := lab [(pa .lay 0 0x010, 2)]
     s.locked (pa .lay 0 0x00C) && mayW s .safe (pa .lay 0 0x00C) 1 (s.enBad .lay 0 true) &&
     mayW (lab []) .safe (pa .lay 0 0x00C) 2 ((lab []).enBad .lay 0 false || (lab []).srstBad .lay 0) &&
     b.domOn (pageDomain .lay 0) && b.srstBusy (pa .lay 0 0) && mayW (lab []) .host (pa .radio 3 0x030) 0 false) = true := by decide
theorem witness_WindowAccesses_each :
    ((pageInfo .lay).errLine && mayW (lab []) .safe (pa .lay 0 0x018) 0 false && mayW (lab []) .safe (pa .lay 0 0x024) 0 false &&
     voided.lcs == 4 && (lab []).lcs != 4) = true := by decide
theorem witness_FaultCollectorCommands_seq :
    ((lab [(pa .fc 0 rFC_STAT, 1)]).seqProgress.bitAt (pa .fc 0 rFC_STAT) 0 && ({ lab [] with errPin := ⟨5, false⟩, now := 5 } : State).errPin.until_ != 0) = true := by
  decide
/-- An empty die holds no byte but 0, so no slot of it holds a record. -/
theorem emptyDieByte (s : State) (h : s.die.mem = []) (a : Nat) (ha : a < 2 ^ 40) : s.die.byte .fram a = 0 := by
  have e : (266 * 2 ^ 48 + a) / 2 ^ 48 = 266 := by omega
  simp only [State.byte, h, look, memDefault, Space.base, e]; decide
theorem noRecordIn (s : State) (h : s.die.mem = []) : ∀ i, i < 20480 → s.slotRecord i = none := by
  intro i hi
  have z : ∀ a, a < 2 ^ 39 → s.die.le .fram a 4 = 0 := fun a ha => by
    have b := fun k (hk : k < 2 ^ 39) => emptyDieByte s h (a + k) (by omega)
    have b0 := b 0 (by decide); have b1 := b 1 (by decide); have b2 := b 2 (by decide); have b3 := b 3 (by decide)
    simp only [Nat.add_zero] at b0
    simp [State.le, State.bytes, leNat, List.range_succ, b0, b1, b2, b3]
  have hz := z (if i < 4096 then 0x10000 + 64 * i else 0x50000 + 64 * (i - 4096)) (by split <;> omega)
  simp only [State.slotRecord, hz]; rfl
theorem noRecords (s : State) (h : s.die.mem = []) : s.scanRecords = none := by
  have H := noRecordIn s h
  have G : ∀ l : List Nat, (∀ i ∈ l, i < 20480) → l.foldl (fun (m : Option (Nat × Nat × Nat)) i =>
      match s.slotRecord i with
      | none => m
      | some r => if m.all (fun x => decide (x.1 < r.1)) then some r else m) none = none := by
    intro l
    induction l with
    | nil => intro _; rfl
    | cons i l ih =>
      intro hl; rw [List.foldl_cons, H i (hl i List.mem_cons_self)]
      exact ih (fun j hj => hl j (List.mem_cons_of_mem _ hj))
  exact G _ (fun i hi => List.mem_range.mp hi)
theorem witness_EventRecorderCommands_empty : (lab []).scanRecords = none := noRecords _ (by decide)
theorem witness_EventRecorderCommands_each :
    (let s := ((lab [(descA 6208 0, 0xC2000000), (descA 6208 1, 0x00001200)]).setLe .pool 0 64 (2 ^ 63 + 0xC1 * 2 ^ 64)).setSpl 6208
       { Splice.clear with wSeen := 1 }
     let c := (lab []).setBytes .fram 0xF000 (stateBlock 1 2 3)
     let o := ((lab []).setTimer (pa .evr 0 rEVR_OPSEC) 5).at 5
     (s.pop 6208).1 == some (BitVec.ofNat 512 (2 ^ 63 + 0xC1 * 2 ^ 64), false) && c.stateCopy 0 == some (1, 2, 3) && c.stateCopy 1 == none &&
     o.timer (pa .evr 0 rEVR_OPSEC) == 5 && o.now == 5) = true := by decide +kernel
theorem witness_LanyardWatchdogAndSensorCommands_each :
    (let s := ((lab []).setTimer (pa .wdog 0 rWDG_LANY_LEFT) 5).at 5
     let h := ((lab [(pa .wdog 0 rWDG_HOST_CFG, 0x8000FFFF)]).setTimer (pa .wdog 0 rWDG_HOST_LEFT) 5).at 5
     let n : State := { lab [] with lany := { (lab []).lany with notices := [(3, (0, [1]))] } }
     let d := ((lab []).wr (domReg 15) 0).at 5
     !(lab []).bitAt (pa .wdog 0 rLNY_INJ) 0 && !(lab []).bitAt (pa .wdog 0 rLNY_INJ) 1 && s.stageDue && !s.lany.stage2 &&
     ({ s with lany := { s.lany with stage2 := true } } : State).stageDue && h.timer (pa .wdog 0 rWDG_HOST_LEFT) ≤ h.now &&
     h.lany.kickAt + h.fld (pa .wdog 0 rWDG_HOST_WIN) 15 0 * 1000000 ≤ h.now && (lab []).capacityCheck.lany.notices == [] &&
     n.capacityCheck.lany.notices == [(3, (0, [1]))] && d.normalRuns && d.timer lifetimeKey ≤ d.now) = true := by decide +kernel
theorem witness_KeyStoreCommands_each :
    (let s := lab [(pa .key 0 rKEY_STAT, 0)]
     let k : State := { s with keys := [(4095, { KeySlot.empty with type := 1 })] }
     let c : State := { s with root := ⟨0, 7, 0⟩, catalogue := ⟨[(1, (KeySlot.empty, 7))], [], 7⟩ }
     (List.range 8).all (fun o => mayW s .normal (pa .key 0 rKEY_CMD) (keyWord (o + 1) 0) (s.bitAt (pa .key 0 rKEY_STAT) 31)) &&
     mayW s .normal (pa .key 0 rKEY_CMD) (keyWord 8 0) false && (k.slot 4095).type == 1 && k.lcs != 2 &&
     c.catalogue.images != [] && c.root.id != 0 && c.catalogue.rootId == c.root.id) = true := by decide
/-- The life-cycle state's fuses. -/
def inState (k : Nat) : State := { lab [] with otp := { (lab []).otp with fuses := BitVec.ofNat 8 (2 ^ (2 * k) - 1) } }
theorem witness_LifeCycleAndTamperCommands_each :
    (let g := pa .trng 0 rTRNG_STAT
     let s := lab [(pa .trng 0 0x00C, 1), (g, 1)]
     let d := (s.setTimer (pa .trng 0 rTRNG_RESEEDS) 5).at 5
     let a := ((lab [(lcsA rLCS_STAT, 0x100)]).setTimer (lcsA rLCS_AUTH_LEFT) 5).at 5
     let T := pa .tamper 0 rTAMPER_STAT
     let m := lab [(T, 0x101)]
     [mayW (lab []) .safe (lcsA rLCS_CTRL) 0x40000004 false, a.authOver, (lab []).lcs ≤ 1,
      mayW m .safe T 1 false, m.fld T 3 0 != 0, m.bitAt T 8, (lab []).fld T 3 0 == 0, !s.bitAt g 1, d.reseedDue, s.bitAt (pa .trng 0 0x00C) 0,
      (((((lab [(pa .trng 0 0x00C, 1)]).selfTest .kdf true).selfTest .aead true).selfTest .hash true).selfTest .pke true).bitAt (pa .trng 0 0x00C) 0,
      !(((((lab [(pa .trng 0 0x00C, 0)]).selfTest .kdf true).selfTest .aead true).selfTest .hash true).selfTest .pke true).bitAt (pa .trng 0 0x00C) 0]).all id = true := by decide
theorem witness_TrngHealth :
    (let s := (lab [(pa .trng 0 0x00C, 1)])
     let T := pa .trng 0 rTRNG_CUTOFF
     let at_ (r c : Nat) : State := { s with trng := { s.trng with run := r, count := c, last := true, ref := true, pos := 5 } }
     [decide (s.fld T 7 0 ≤ ((at_ 255 2).trng.bit true).run), decide (((at_ 1 2047).trng.bit true).run < s.fld T 7 0),
      decide (s.fld T 26 16 ≤ ((at_ 1 2047).trng.bit true).count), decide (((at_ 1 2).trng.bit true).run < s.fld T 7 0),
      decide (((at_ 1 2).trng.bit true).count < s.fld T 26 16)]).all id = true := by decide
theorem witness_CryptoJobCommands_each :
    (let s := lab [(pa .aead 0 0x00C, 1), (pa .hash 0 0x00C, 1), (pa .pke 0 0x00C, 1)]
     let ok (p : Pg) (o : Nat) : Bool := mayW s .safe (pa p 0 rJOB_CMD) (jobWord o 0) (s.bitAt (pa p 0 rJOB_STAT) 31)
     [[1, 2, 3, 4, 5, 6, 7].all (ok .aead), ok .hash 1, ok .hash 7, (s.rd (pa .hash 0 rJOB_LEN)).toNat ≤ 2 ^ 24, (s.inject .hash 0 0 1).1 == 0,
      !((s.inject .hash 0 0 1).2.ddrGet 0 0).2.1, [1, 2, 3, 4, 5, 6, 7, 8].all (fun o => mayW s .safe (pa .pke 0 rPKE_CMD) (jobWord o 0) (s.bitAt (pa .pke 0 rPKE_STAT) 31)),
      !s.kat .pke, s.bitAt (pa .pke 0 0x00C) 0, !((s.inject .pke 0 0 1).2.ddrGet 0 240).2.1, (s.lcsVerify ((s.inject .pke 0 0 1).2.ddrGet 0 240).1) != 0]).all id = true := by decide +kernel
theorem witness_CryptoJobCommands_slot :
    (let s : State := { lab [] with keys := [(5, { KeySlot.empty with type := 3, use := 1, mask := 0x100, parent := 0x1000, pgen := 1 })], root := ⟨0, 1, 0⟩ }
     [s.useSlot 5 8 1 true == none]).all id = true := by decide
/-- A signature by the maker over a challenge of 02, every byte else 0, for state 1: its point has the digest as x, so both multipliers are 1. -/
def signed : State :=
  { lab [(pa .pke 0 0x00C, 1), (lcsA rLCS_STAT, 0x10), (lcsA rLCS_CHAL, 0x2)] with otp := { (lab []).otp with
      hashes := [(5, 0xd2d3988a00be649a5ed23ee5f220ea57b0e1b5233a7f019e169f5e901e76d29b383b9873998490fffe2553e76ca834f8)] } }
theorem witness_CryptoJobCommands_signature :
    (let e := 0xc930e0451296ebfc7825231f1e27a366bf5638153378a6e560f070e07b3cca64a743aaed4771092af0a02099759f4223
     let l := List.replicate 48 0 ++ toBe 48 0xdb96699485147f59ab0d9ba5b7f14a798ea718293d8437f4ebaae132854ffb7340d62c97cab6db70351cde2ca8f62c09 ++
       toBe 48 0x15763d8777e1d830b9dae50d1626e656fc677fa79cf60484379ddb8e7553856f0e95faecf0f4d2ebc37f45c87c9e79bc ++ toBe 48 e ++ toBe 48 e
     [signed.lcsVerify l == 0, ((signed.setBytes .ddr 0 l).ddrGet 0 240).1 == l]).all id = true := by decide +kernel
theorem witness_DebugControl_signature :
    (let e := 0x4e9f865ab3ee9638c1e964ed76ab8b66293f77d57025b5dcf3992a3042a4deb0bec77ff178a193eb4db416ea167d21a5
     let l := (4 : BitVec 8) :: toBe 48 0x75de30550fac793dc7e5fb3a10ce23ff183c2bf4a566b53a98909157ec821b2b266f13e2e9de64d57dfe658e8e24f6e0 ++
       toBe 48 0x69c96c6585cd5151b3775117bebe29380188b191ee5052a167f0a120bbbd77e9e31d445e44485ec1e229372f09ae140c ++ List.replicate 3 0 ++ toBe 48 e ++ toBe 48 e
     let b := inState 3
     let s : State := { b with
       otp := { b.otp with hashes := [(5, 0xa88dca837ef114815c952e50580e7bf57fca40cb6f00498d1d25d70144f2fdbfadc32652a1c234f0ebb03385148576ef)] }
       dbg := { b.dbg with chal := 6 :: List.replicate 31 0, sought := 3, checking := true, fresh := true, resp := (List.range 49).map (fun i => (i, BitVec.ofNat 32 (leAt l (4 * i) 4))) } }
     [s.signatureGood, s.lcs == 3, s.domOn 2, s.dbg.sought == 3]).all id = true := by decide +kernel
theorem witness_DebugControl_each :
    (let h := lab ((List.range 8).map (fun n => (pa .lay n rLAY_STAT, (3 : Word32))))
     let z := lab ((List.range 8).map (fun n => (pa .lay n rLAY_STAT, (5 : Word32))))
     let b := lab [(pa .lay 0 rLAY_STAT, 3), (pa .strand 15 rSTR_BP0, 0x80000000)]
     let b := b.setLay 0 { Lay.clear with tabs := [⟨0x12, [0], [0, 0, 0, 0, 0, 0, 0xFF, 0xFF]⟩] }
     let y := lab [(dbA rDBG_LBP, 0xA0000000)]
     [(lays 255).all (fun m => h.domOn (3 + m) && h.laySt m == 3), (lays 255).all (fun m => z.domOn (3 + m) && z.laySt m == 5), b.breakHits 0 == [(15, 0)], y.lanyRuns, y.lanyBreaks 0]).all id = true := by decide
theorem witness_DebugRequests_each :
    (let a : BitVec 32 := 0x40000000
     [decide (readLevel 0 a.toNat ≤ (lab []).dbgLevel), spaceBad 0 false a.toNat == false, decide ((lab []).writeLevel 0 ≤ (lab []).dbgLevel), spaceBad 2 true 0 == false,
      decide (readLevel 2 0 ≤ (lab []).dbgLevel), dbgParity 0 0 false 0 0 != !dbgParity 0 0 false 0 0]).all id = true := by decide +kernel
/-- Lay 0 runs and is dealt readings on splice 7000, which the ingest end produces; ingest is open for every class. -/
def dealing : State :=
  let s := lab [(pa .lay 0 rLAY_STAT, 0x23), (descA 7000 0, 0xC2000000), (descA 7000 1, 0x01000000), (ingA 0x00C, 1), (ingA rING_STAT, 0x7E)]
  { s with budgets := [(0, 5), (2, 5)], ing := { s.ing with sources := [(4092, ⟨true, 1, 1, 1, 0xFF, 0, 0, 5000, false⟩)] } }
/-- An HDLC information field of the accepted form. -/
def frame1 : Frame := { port := 17, sec := 0, ns := 0, addr := 0, udp := none, sound := true, data := [0xE6, 0xE7, 0x00], word7 := 0 }
theorem witness_FrameAdmission_each :
    (let i : Item := ⟨2, frame1.data, 0, 0, 0, false⟩
     let u := dealing.readSource (dealing.sourceOf frame1)
     let z : State := { dealing with ing := { dealing.ing with sources := [(4092, ⟨true, 1, 1, 1, 0xFF, 0, 0, 0, false⟩)] } }
     let n : Source := ⟨false, 1, 1, 1, 0xFF, 0, 0, 0, false⟩
     [dealing.sourceOf frame1 == 4092, dealing.classify frame1 == some ([i], none), (u.source 4092).valid, (u.source 4092).mask.testBit 2,
      u.verdict 4092 (u.heldBack frame1) i (fun _ => 0) == .inr (0, 7000), (z.readSource 4092).verdict 4092 (u.heldBack frame1) i (fun _ => 0) == .inl .credit, !n.ue, !(n.valid && n.mask.testBit 2)]).all id = true := by decide +kernel
theorem witness_IngestCommands_each :
    (let r : State := (lab []).at 5
     let k : State := { r with ing := { r.ing with ring := [(7, some ⟨7, 0, false, 0⟩)] } }
     let b : State := { k with ing := { k.ing with ringBad := [7] } }
     let z : State := ({ lab [(ingA rING_LATE_LIMIT, 0)] with ing := k.ing } : State).at 5
     [mayW r .safe (ingA rING_CTRL) 2 false, mayW r .safe (ingA rING_CTRL) 1 false, b.ing.ringBad.contains 7, !k.ing.ringBad.contains 7,
      decide (k.now - 0 ≤ k.lateLimit), decide (z.lateLimit < z.now - 0), z.ing.ring == [(7, some ⟨7, 0, false, 0⟩)], mayW r .host (ingA rING_SRC_SEL) 0x40000FFF false,
      r.domOn 1]).all id = true := by decide
theorem witness_ReadingPathCommands_each :
    (let c := mkCell [mkHeader true true 56 0 9, 5, 0, 3 * 2 ^ 0]
     let s := ((dealing.setLe .pool 0 64 c.toNat).setSpl 7000 { Splice.clear with wSeen := 1 })
     [s.toLay 1 0 == some 7000, (s.pop 7000).1 == some (c, false), cellFirst c, (s.pop 7000).2.popMany 7000 (max 1 ((bits (cellWord c 3) 15 0 + 55) / 56)) |>.1 |>.isEmpty]).all id = true := by decide +kernel
theorem witness_ReadingPathCommands_ack :
    (let p : Pend := ⟨5, 20, 4091, 1, 0, 0, 0, 0, BitVec.ofNat 512 (2 ^ 512 - 1), 0, 0, false⟩
     let s : State := { lab [(descA 5 1, 0x00000600)] with readings := [p], nand := { (lab []).nand with blocks := [(0, { Block.fresh with lbn := some 9, pages := [⟨0, 0, 0, false, 0, 0, 0, 0⟩] })] } }
     [s.readings.find? (fun x => x.seq = 5 && !x.acked) == some p, s.isDurable p 9 0 255, s.fld (descA 5 1) 12 8 == txEnd 20]).all id = true := by decide +kernel
theorem witness_ReadingPathCommands_query :
    (let c := mkCell [mkHeader true true 56 0 9, 5, 0, 1, 4096, 0, 0, 0]
     let a := mkCell [mkHeader true true 56 0 9, 0xFFFFFF, 0, 1, 4096, 0, 0, 0]
     let f (c : Cell512) : State := ((lab [(descA 6147 0, 0xC2000000), (descA 6147 1, 0x03000005), (descA 6148 1, 0x00050300)]).setLe .pool 0 64 c.toNat).setSpl 6147
       { Splice.clear with wSeen := 1 }
     let q (s : State) (c : Cell512) : Option Bool := (queryOf c).map (fun y => (s.queryMeter y).1)
     let full : State := { f c with work := { (f c).work with queries := List.replicate 16 (⟨0, 0, [], 0, 0⟩ : QueryRun) } }
     [(f c).ringOwner 3 4 == some 5, storeLay 5, ((f c).pop 6147).1 == some (c, false), ((f 0).pop 6147).1 == some (0, false), (queryOf 0).isNone, q (f c) c == some false, q (f c) a == some true,
      decide (16 ≤ full.work.queries.length), decide ((f c).work.queries.length < 16)]).all id = true := by decide +kernel
theorem witness_MeterTableCommands_each :
    (let s := lab [(mdbA 0x00C, 1)]
     let img : List (BitVec 8) := List.replicate 0x84 0 ++ [1] ++ List.replicate (0xCC - 0x85) 0 ++ [0xFF] ++ List.replicate (511 - 0xCC) 0
     [(asked 0x20 []).rosterTurn, !(lab []).rosterTurn, img.length == 512, s.imageOk 1048575 img, s.bitAt (mdbA 0x00C) 0, (asked 0 []).hostTurn, (asked 0 []).storeTurn, (lab []).work.bulk.take (lab []).work.bulkTo == [],
      mayW s .safe (mdbA rMDB_BULK_CMD) 0x40000000 false, (lab []).passDue, ((lab []).takePages 8191 64 ⟨0, []⟩).1.pages == []]).all id = true := by decide +kernel
theorem witness_MeterTableCommands_whole (l : List (Nat × (Nat × Nat))) (h : l.length = passPages) (s : State) (e : (s.pop 8191).1 = none) :
    (s.takePages 8191 64 ⟨0, l⟩).1.pages.length = passPages := by
  show (match s.pop 8191 with | (none, s) => ((⟨0, l⟩ : Pass), s) | (some (c, _), s) => s.takePages 8191 63 ((⟨0, l⟩ : Pass).take c)).1.pages.length = passPages
  cases hp : s.pop 8191 with
  | mk a b => rw [hp] at e; simp only at e; subst e; exact h
theorem witness_MeterTableCommands_emptySplice : (State.reset.pop 8191).1 = none ∧ (List.replicate passPages (0, (0, 0))).length = passPages :=
  ⟨by decide +kernel, List.length_replicate⟩
/-- The host splices 6147 and 6148 of a lay, with a cell waiting on the first and budget of class 8. -/
def hostedBy (lay : Nat) (c : Cell512) : State :=
  let s := ((lab [(descA 6147 0, 0xC2000000), (descA 6147 1, BitVec.ofNat 32 (0x03000000 + lay)), (descA 6148 0, 0xC2000000), (descA 6148 1, BitVec.ofNat 32 (0x300 + lay * 2 ^ 16))]).setLe
    .pool 0 64 c.toNat).setSpl 6147 { Splice.clear with wSeen := 1 }
  { s with work := { s.work with quota := (List.range 8).map (fun l => (2 * l + 1, 4)) } }
/-- Those of lay 7. -/
def hosted (c : Cell512) : State := hostedBy 7 c
/-- A tariff programme of one season and one profile, number 5, version 1. -/
def prog5 : List Byte :=
  [5, 1, 0, 1, 1, 0] ++ List.replicate 26 0 ++ [1, 1] ++ List.replicate 0x13E 0 ++ [0, 0x80] ++ List.replicate 670 0
/-- Meter 5 VALID in the table, with a title and a credit key of slot 3, which is ready in the store. -/
def metered : State :=
  { (((lab []).setLe .ddr (512 * 5 + 0x084) 4 0x80000000).setLe .ddr (512 * 5 + 0x088) 8 77).setLe .ddr (512 * 5 + 0x0C0) 4 0x80000003 with
    keys := [(3, { KeySlot.empty with type := 1, use := 2, mask := 0x80, parent := 0x1000, pgen := 1 })], root := ⟨0, 1, 0⟩
    work := { (lab []).work with progs := [5], dist := [(5, ⟨5, 60, 0, 0, 0, none⟩)], tokens := [(5, (1, true))] } }
theorem witness_TariffCommands_host :
    (let h := hosted cell1
     [h.hostMay fieldLay 3 4, h.hostMay (orderLay .other) 3 4, !(h.popMessage 6147 4096).1.isEmpty, (lab []).progNewer prog5, !(lab []).progNewer [], metered.progLoaded 5, metered.distMeters 5 (some [5]) == [5]]).all id = true := by decide +kernel
theorem witness_TariffCommands_due :
    (let r := metered.at 5
     let x : State := { r with work := { r.work with tokens := [] } }
     let q : State := { r with work := { r.work with dist := [(5, ⟨5, 60, 0, 0, 1, some 0⟩)] }, tsuTime := { r.tsuTime with sec := 60 } }
     let c : State := { r with work := { r.work with credits := [(5, (1, 0))] }, tsuTime := { r.tsuTime with sec := 60 } }
     [decide ((⟨5, 60, 0, 0, 0, none⟩ : Dist).due ≤ r.tsuTime.sec), r.nextToken 5 == some (5, (1, true)), x.meterValid 5, !x.meterValid 6, (x.redeem 5 none).2.1 == none,
      decide (0 + 60 ≤ q.tsuTime.sec), decide (0 + 60 ≤ c.tsuTime.sec)]).all id = true := by decide +kernel
theorem witness_TariffCommands_credit :
    (let v := 2 ^ 38 * 1 + 2 ^ 24 * 7 + tokenMac (keyBytes (metered.creditKey 5).1) (toLe 8 77) (2 ^ 38 * 1 + 2 ^ 24 * 7)
     [(metered.redeem 5 (some v)).2.1 == some 7]).all id = true := by decide +kernel
theorem witness_CosemCommands_each :
    (let h := hosted cell1
     let p : State := { lab [(prA 0x00C, 1), (leA rLEASE_CTRL, 1)] with work := { (lab []).work with roles := [(1, ⟨0, 9, false, true⟩)] } }
     let s : State := { lab [] with work := { (lab []).work with roles := [(1, ⟨0, 9, false, true⟩)] } }
     [h.ringOwner 3 4 == some 7, fieldLay 7, !(h.popMessage 6147 256).1.isEmpty, roleOf 0x10 == some 0, roleOf 0x20 == some 1,
      h.work.sessions.find? (fun e => e.1 = 0 && e.2.role = 0) == none, p.limitBars 6, (s.roleAsked 1 || (s.roleCtr 1).asked), !s.limitBars 6,
      !(s.reserve (roleAt 1) 4096).pairEn]).all id = true := by decide +kernel
/-- MEAS enabled, settled and locked, point 0 in force with channel 1 enabled. -/
def measuring : State :=
  let s := (lab [(measA 0x00C, 1), (measA rMEAS_STAT, 2), (pa .clk 0 rCLK_STAT, 0x20)]).putCh rMEAS_CH_EN 1 true
  { s with meas := { s.meas with act := [(mpA 0 rMP_CFG, 0x80000000)], chans := [(1, { Chan.off with still := 1024, moved := 1024 })] } }
theorem witness_MeasurementCommands_each :
    (let s := measuring
     let y := (s.markStuck 1)
     let k := (s.putCh rMEAS_STUCK 1 true).putCh rMEAS_STUCK 2 true
     let o := s.putCh rMEAS_STUCK 1 true
     let e := (s.putBit (measA rMEAS_STAT) 1 false).at 40000000
     [s.sticks 1, !y.bitAt (mpA 0 rMP_STAT) 18, ((lab [(mpA 0 rMP_STAT, 0x40000)]).markStuck 1).bitAt (mpA 0 rMP_STAT) 18, s.pointEn 0, decide (s.act 0 rMP_VNOM = 0),
      k.chBit rMEAS_STUCK 1, decide (1024 ≤ (k.chan 1).moved), (k.putCh rMEAS_STUCK 1 false).chBit rMEAS_STUCK 2,
      (List.range 8).all (fun i => !(o.putCh rMEAS_STUCK 1 false).chBit rMEAS_STUCK i), e.mpllLock, !e.bitAt (measA rMEAS_STAT) 1,
      decide (e.meas.started + 40000000 ≤ e.now)]).all id = true := by decide
theorem witness_TotalsAndPulseCommands_each :
    (let s := measuring
     let i : State := { lab [(descA 7001 0, 0xC2000000), (descA 7001 1, 0x0D000000)] with
       totals := { s.totals with copyOk := true }, meas := { s.meas with ready := [cell1] } }
     let p : State := ({ lab [(pulA 0x00C, 1)] with pulses := [(3, ⟨0, 0, 2, 5, false, 0, 0⟩)] } : State).at 5
     let d := ((lab []).setTimer (pulA (rPUL_COUNT + 48)) 5).at 5
     [s.domOn 13, s.domOn 1, s.mpllLock, s.bitAt (measA rMEAS_STAT) 1, i.meas.ready == [cell1],
      ({ i with meas := { i.meas with ready := [] } } : State).producedBy 0x0D == [7001], !({ i with meas := { i.meas with ready := [] } } : State).splFull 7001,
      decide ((look (fun _ => PulseCh.off) p.pulses 3).done < 2), decide ((look (fun _ => PulseCh.off) p.pulses 3).startOf 0 ≤ p.now), p.domOn 2,
      decide (d.timer (pulA (rPUL_COUNT + 48)) = 5 ∧ d.now = 5), mayW (lab []) .host (pulA (rPUL_CFG + 48)) 0 false, (lab []).domOn 13]).all id = true := by decide +kernel
/-- A command cell of the balance: operation and words. -/
def balCell (op : Nat) (ws : List Nat) : Cell512 := mkCell (mkHeader true true 56 op 9 :: ws)
theorem witness_BalanceCommands_each :
    (let h (c : Cell512) : State := hostedBy 6 c
     let k : BalNode := declNode (fun _ => 2 ^ 32)
     let n (c : Cell512) : State := { h c with bal := { (h c).bal with nodes := [(5, k)] } }
     let decl := balCell 1 [5 + 2 ^ 32, 0, 0, 0, 0, 0, 0]
     let orphan := balCell 1 [5 + 2 ^ 16 * 7, 0, 0, 0, 0, 0, 0]
     let front (c : Cell512) : Bool := (h c).peekCell 6147 0 == some c && balFormed c && (h c).hostMay balLay 3 4
     let b := (n (balCell 2 [5])).bal
     [front decl, cellChan decl == 1, decide ((h decl).balStart.bal.planned.declBad 5 (declNode (fun i => (cellWord decl i).toNat)) = 0), front orphan,
      decide ((h orphan).balStart.bal.planned.declBad 5 (declNode (fun i => (cellWord orphan i).toNat)) ≠ 0),
      front (balCell 2 [5]), (h (balCell 2 [5])).balStart.bal.planned.node 5 == none, (n (balCell 2 [5])).balStart.bal.planned.node 5 == some k,
      decide (∀ e ∈ b.nodes, e.1 ≠ 5 → e.2.isRoot = false → e.2.up ≠ 5), front (balCell 3 [5]), front (balCell 3 [5 + 2 ^ 32]), front (balCell 4 [5]),
      ((h cell1).pop 6147).1 == some (cell1, false)]).all id = true := by decide +kernel
theorem witness_BalanceCommands_closing :
    (let s := lab []
     let t : State := { s with tsuTime := { s.tsuTime with sec := 100000 } }
     let o : State := { s with bal := { s.bal with closed := some 3, first := some 0 } }
     let x : BalStatus := ⟨0, 0, 0, 0, 0, 0, 0, 0, false, false, 0⟩
     let w : State := { s with bal := { s.bal with status := [x], out := [cell1] } }
     [s.domOn 1, decide (t.ivlEnd 0 + t.fld (balA rBAL_SETTLE) 11 0 ≤ t.tsuTime.sec), !t.balStart.isClosed (t.ivlEnd 200), o.balStart.isClosed 3, !o.balStart.isClosed 5000,
      !o.balStart.isClosed (o.ivlStart 5000), o.balStart.isClosed (o.ivlStart 5), o.balStart.bal.open_.filter (fun e => e.1 < 5) == [], w.bal.out != [], w.bal.status == [x],
      (((s.setTimer (balA rBAL_STAT) 5).at 5).timer (balA rBAL_STAT) == 5)]).all id = true := by decide
/-- A die whose copy 0 holds zeros and ends in a word. -/
def copied (c : Nat) : State := { lab [] with mem := [(266 * 2 ^ 48 + 0x4444, BitVec.ofNat 8 c), (266 * 2 ^ 48 + 0x4445, BitVec.ofNat 8 (c / 256)),
  (266 * 2 ^ 48 + 0x4446, BitVec.ofNat 8 (c / 65536)), (266 * 2 ^ 48 + 0x4447, BitVec.ofNat 8 (c / 16777216))] }
theorem crcStepSmall (x : Nat) (h : x < 2 ^ 32) : (if x.testBit 0 then (x / 2) ^^^ 0xEDB88320 else x / 2) < 2 ^ 32 := by
  split
  · exact Nat.xor_lt_two_pow (by omega) (by decide)
  · omega
theorem crcFoldSmall {α : Type} (f : Nat → α → Nat) (h : ∀ x a, x < 2 ^ 32 → f x a < 2 ^ 32) : ∀ (l : List α) (x : Nat), x < 2 ^ 32 → l.foldl f x < 2 ^ 32
  | [], _, hx => hx
  | a :: l, x, hx => crcFoldSmall f h l (f x a) (h x a hx)
theorem crcSmall (l : List Byte) : crc32 l < 2 ^ 32 := by
  have b : ∀ (x : Nat) (y : Byte), x < 2 ^ 32 → crcByte 0xEDB88320 x y.toNat < 2 ^ 32 := fun x y hx =>
    crcFoldSmall _ (fun z _ hz => crcStepSmall z hz) _ _ (Nat.xor_lt_two_pow hx (by have := y.isLt; omega))
  exact Nat.xor_lt_two_pow (crcFoldSmall _ b l _ (by decide)) (by decide)
theorem copiedByte (c a : Nat) (h : a < 0x4444) : (copied c).byte .fram (copyAt 0 + a) = 0 := by
  have d : (266 * 2 ^ 48 + (copyAt 0 + a)) / 2 ^ 48 = 266 := by simp only [copyAt]; omega
  have n : ∀ k, 0x4444 ≤ k → ¬ 266 * 2 ^ 48 + k = 266 * 2 ^ 48 + (copyAt 0 + a) := by intro k hk; simp only [copyAt]; omega
  simp only [State.byte, copied, Space.base, look, if_neg (n 0x4444 (by decide)), if_neg (n 0x4445 (by decide)), if_neg (n 0x4446 (by decide)),
    if_neg (n 0x4447 (by decide)), memDefault, d]
  decide
theorem copiedComplete (c : Nat) (hc : c = crc32 (List.replicate 0x4440 0)) : (copied c).copyComplete 0 = true := by
  have small : c < 2 ^ 32 := hc ▸ crcSmall _
  have e : (copied c).bytes .fram (copyAt 0) 0x4440 = List.replicate 0x4440 0 := by
    refine List.eq_replicate_iff.mpr ⟨by rw [State.bytes, List.length_map, List.length_range], fun b hb => ?_⟩
    obtain ⟨a, ha, rfl⟩ := List.mem_map.mp hb
    exact copiedByte c a (Nat.lt_trans (List.mem_range.mp ha) (by decide))
  have z : ∀ a, a + 3 < 0x4444 → (copied c).le .fram (copyAt 0 + a) 4 = 0 := fun a ha => by
    have b := fun k (hk : k < 4) => copiedByte c (a + k) (by omega)
    have b0 := b 0 (by decide); have b1 := b 1 (by decide); have b2 := b 2 (by decide); have b3 := b 3 (by decide)
    simp only [Nat.add_zero, ← Nat.add_assoc] at b0 b1 b2 b3
    simp [State.le, State.bytes, leNat, List.range_succ, b0, b1, b2, b3]
  have w : (copied c).le .fram (copyAt 0 + 0x4444) 4 = c := by
    simp [State.le, State.bytes, State.byte, leNat, List.range_succ, copied, look, Space.base, copyAt]; omega
  have z0 := z 0 (by decide); have z1 := z 0x4440 (by decide)
  rw [Nat.add_zero] at z0
  simp only [State.copyComplete, e, w, z0, z1, ← hc]; decide
theorem newerOf (s : State) (h : s.copyComplete 0 = true) : s.newerCopy.isSome = true := by
  unfold State.newerCopy; simp only [h]; cases s.copyComplete 1 <;> rfl
theorem witness_TotalsAndPulseCommands_copy : (copied (crc32 (List.replicate 0x4440 0))).newerCopy.isSome = true ∧
    ((lab [(descA 7001 0, 0xC2000000), (descA 7001 1, 0x13000000)]).producedBy 0x13) = [7001] := ⟨newerOf _ (copiedComplete _ rfl), by decide⟩
/-- Radio 0 and the power line on phase 0 enabled, at time 5. -/
def airing : State := (lab [(pa .radio 0 0x00C, 1), (plcA 0x00C, 1), (pa .plcPh 0 0x00C, 1), owning 0, owning 4]).at 5
theorem witness_FieldPortCommands_each :
    (let s := airing
     let n : State := s.setPort7 0 { s.port7 0 with nbs := [(9, { Neigh.off with dirty := true })], held := [{ msg0 with since := 0 }], status := [(7002, cell1)] }
     let z : State := { (lab [(descA 7002 1, 0), (descA 7003 0, 0xC2000000), (descA 7003 1, 0x02000000)]) with mac := n.mac }
     [s.macOn 0, decide (0 ≤ s.now), (n.port7 0).nbs == [(9, { Neigh.off with dirty := true })], decide (s.fld (pa .radio 0 rRAD_TIME2) 7 0 * 1000000000 ≤ 255 * 1000000000),
      z.statusOf 0 == [(7002, cell1)], z.toLay 2 (z.fld (descA 7002 1) 18 16) == some 7003, decide (0 < z.space 7003), n.domOn 12, n.domOn 1,
      !(s.reserve (resAt 0) 4096).pairEn, (List.range 4).all (fun k => !s.bitAt (keySlotA 0 k) 31)]).all id = true := by decide +kernel
theorem witness_FieldFrameCommands_each :
    (let s := airing
     let a (k : Nat) : State := s.setPort7 k { s.port7 k with owed := [⟨0, 0, 0, 0, false, none, false, 0⟩] }
     let ack : List (BitVec 8) := [2, 0x10, 7]
     let good (m : Nat) (l : List (BitVec 8)) : FieldFrame := let p := l ++ toLe (s.macFcs m []).1 (s.macFcs m l).2
       ⟨0, 0, 0, BitVec.ofNat 16 p.length, p, none, true, 8, 0, 0, false, 0, none, []⟩
     [s.macOn 0, s.macOn 4, (((a 0).port7 0).dueAcks 5).length == 1, ((a 0).port7 0).run == none, decide ((good 0 ack).length.toNat ≤ s.mtu 0), s.frameGood 0 (good 0 ack), ((s.frameParts 0 (good 0 ack)).map (fun g => g.mac.kind)) == some 1,
      !s.frameGood 0 { good 0 ack with status := 1 }, (s.frameParts 0 (good 0 [])).isNone, s.frameGood 0 (good 0 []), s.frameGood 4 { good 4 [] with ack := some 7, psdu := [], length := 0 },
      s.txen 1 == false, s.bitAt (macA 4 0 rPH_CFG) 3]).all id = true := by decide +kernel
theorem witness_PowerLineCommands_each :
    (let s := airing
     let e (g : Nat) (t : Nat) : State := { s with plc := { s.plc with edge := [(1, 1)], good := [(1, g)] }, tsuTime := { s.tsuTime with sec := 0, ns := t } }
     let now (s : State) := s.tsuTime.sec * 1000000000 + s.tsuTime.ns
     let p : State := { s with plc := { s.plc with due := 0 } }
     let l : State := { p with now := 10 ^ 12 }
     [decide (now (e 3 1000) - 1 < 15150000), decide (15150000 ≤ now (e 3 20000001) - 1 ∧ now (e 3 20000001) - 1 ≤ 22222000), min 16 (look (fun _ => 0) (e 3 5).plc.good 1 + 1) == 4,
      min 16 (look (fun _ => 0) (e 15 5).plc.good 1 + 1) == 16, decide (1 + 3 * (e 1 1).mainsPeriod ≤ now (e 3 999999999)), decide (p.now ≤ p.plc.due + p.bcnPeriod / 2),
      decide (l.plc.due + l.bcnPeriod / 2 < l.now), !p.fenced, p.bitAt (plcA 0x00C) 0,
      (s.slotMap { Neigh.off with valid := true, tmrDue := true, snr := [(0, [[60, 60, 60, 60, 60, 60, 60, 60]])] }).any (fun x => x % 8 != 7)]).all id = true := by decide +kernel
theorem witness_TsuCommands_each :
    (let s := (lab [(tsuA rTSU_PTP_CFG, 0x20)]).at 5
     let m : List (BitVec 8) := [0, 2, 0, 34, 0] ++ List.replicate 29 0
     let p := ((lab [(tsuA rTSU_PPS, 0x80000000), (pmxA rPMX_OWN, 3)]).setTimer (tsuA rTSU_PPS) 5).at 5
     let b : State := { s with tsuTime := { s.tsuTime with lastEnd := some 0, sec := 7200, ns := 0 } }
     let c := (lab [(tsuA (rTSU_CAPC + 56), 0x1FF)]).at 5
     [m.length == 34, be m 1 1 % 16 == 2, [0, 2, 3, 8, 10, 11].contains (ptpType m), decide (be m 4 1 = s.fld (tsuA rTSU_PTP_CFG) 22 16), b.netOn,
      decide (0 < b.tsuTime.sec / (60 * b.tsuTime.minutes) * (60 * b.tsuTime.minutes)), p.atSecond, p.timer (tsuA rTSU_PPS) == 5, (p.setTimer (tsuA rTSU_PPS) 0).ppsBall == some 0,
      p.now == 5, s.slewLeft == 0, (List.range 7).all (fun j => c.fld (tsuA (rTSU_CAPC + 8 * j)) 7 0 != 255), !s.bitAt (tsuA rTSU_STAT) 5,
      (s.putBit (tsuA rTSU_STAT) 5 true).bitAt (tsuA rTSU_STAT) 5, !s.stepBad 5, !(s.stepBad 1000000000)]).all id = true := by decide +kernel
theorem witness_RtcCommands_each :
    (let d : State := lab [(rtcA rRTC_CTRL, 2), (tsuA rTSU_STAT, 8)]
     let at_ (sec frac : Nat) : Int := ((d.setRtc sec frac).rtcSec * 32768 + (d.setRtc sec frac).rtcFrac : Nat) - ((d.setRtc sec frac).tsuTime.sec % 2 ^ 40 * 32768 : Nat)
     let b : State := { d with tsuTime := { d.tsuTime with sec := 9 } }
     let y := ((lab []).wr64 (rtcA rRTC_ALARM) (2 ^ 63 + 1)).at 0
     let e := ((lab []).setRtc 86399 0).at 0
     [at_ 0 0 == 0, decide (0 < at_ 0 9 ∧ at_ 0 9 ≤ 32768), decide (32768 < at_ 5 0), decide (((b.setRtc 0 0).rtcSec * 32768 : Int) - (b.tsuTime.sec * 32768 : Nat) < 0),
      bit (y.rd64 (rtcA rRTC_ALARM)) 63, decide (bits (y.rd64 (rtcA rRTC_ALARM)) 39 0 = (y.rtcSec + 1) % 2 ^ 40),
      decide ((((e.rtcSec + 1) % 2 ^ 40 : Nat) : Int) % 86400 = 0), (lab [(rtcA rRTC_CTRL, 1)]).bitAt (rtcA rRTC_CTRL) 0,
      mayW (lab [(rtcA rRTC_CTRL, 1)]) .host (rtcA rRTC_CTRL) 0 false, mayW (lab [(rtcA rRTC_CTRL, 1)]) .host (rtcA rRTC_CAL_TIME) 0 false]).all id = true := by decide +kernel
theorem witness_PowerCommands_each :
    (let s := (lab [(domReg 3, 0x80000000), (pa .pwr 0 rPWR_STAT, 1)]).at 5
     let w := (lab [(pa .wake 0 rWAKE_CFG, 0xFF)]).wr (domReg 2) 0
     let r := ((lab []).setTimer resetKey 6).at 5
     let f : State := { lab [] with fc := { (lab []).fc with request := some (0, 0) } }
     let sl := (List.range 15).foldl (fun (s : State) d => s.wr (domReg (d + 3)) 0) (lab [])
     let h := w.setTimer (pa .wake 0 rWAKE_CFG) 5
     [!(List.range 18).any (fun e => 3 ≤ e && sl.domSt e ≠ 0 && sl.domSt e ≠ 2), mayW sl .safe (pa .pwr 0 rPWR_SLEEP) 0x80000001 false, !w.domOn 2,
      w.timer (pa .wake 0 rWAKE_CFG) == 0, h.timer (pa .wake 0 rWAKE_CFG) == 5, s.bitAt (pa .pwr 0 rPWR_STAT) 0, !s.bitAt (pa .pwr 0 rPWR_STAT) 1,
      decide (r.timer resetKey = r.now + 1), decide ((lab []).timer resetKey ≠ (lab []).now + 1), f.resetReady, !(lab []).bitAt (pa .pwr 0 rPWR_FAIL_DOM) 31]).all id = true := by decide +kernel
/-- STORE ready, a NAND frame of one entry of a class, one request on splice 7004 waiting, block 0 of target 0 open for stream 1 and block 1 released. -/
def storing (cls : Nat) (r : List NandReq) (rel : List Reloc) : State :=
  let s := lab [(nandA 0x00C, 1), (nandA rNAND_STAT, 5), (nandA rNAND_FIT, 0x88F), (pa .lay 0 rLAY_STAT, 3)]
  let s := s.setLay 0 { Lay.clear with ports := [(1, 0, 7004, 7005)] }
  { s with
    rig := { s.rig with frames := true, nand := [⟨0, 0, 0, cls, 0, 0⟩] }
    now := 10 ^ 9
    nand := { s.nand with queue := r, reloc := rel, blocks :=
      [(0, { Block.fresh with st := .opened, lbn := some 9, stream := 1, pages := [⟨9, 0, 1, false, 0, 0, 0, 0⟩, ⟨9, 1, 1, false, 1, 0, 0, 0⟩] }),
       (1, { Block.fresh with st := .released, pages := [⟨8, 0, 1, false, 0, 0, 0, 0⟩] }), (2, { Block.fresh with st := .opened, lbn := some 7, stream := 2, pages := [] })] } }
/-- A request of an operation on splice 7004. -/
def request (op : Nat) : NandReq := ⟨7004, 0, op, 1, false, 0, 0, 0, 9, 0, 0, false, 0, 2 ^ 128 - 1, []⟩
theorem witness_NandCommands_slots :
    (let k (cls : Nat) (r : List NandReq) : State := (storing cls r [⟨0, some 2, 0⟩]).nandPast 0
     let q (cls op : Nat) : Bool := ((k cls [request op]).nand.queue.find? (fun r => r.splice = 7004 && classOf r.op = cls && r.popped + 100000 ≤ (k cls []).now)) == some (request op)
     let j : State := let s := k 4 []; { s with nand := { s.nand with journal := [0], blocks := s.nand.blocks ++ [(3, { Block.fresh with st := .opened, lbn := some 5, stream := 7 })] } }
     let m : State := let s := k 4 []; { s with nand := { s.nand with reloc := [], mirror := [⟨11, ⟨0, 0, 2, [], [], 0⟩, none, false, none, false⟩] } }
     let t : State := let s := k 1 []; { s with nand := { s.nand with taken := [0] } }
     [(storing 1 [] []).nandDue 0, (storing 1 [] []).nandReady, !((k 1 []).mapRead 0).1, (k 1 []).nandTargets.contains 0, (k 1 []).port 0 1 0 == some (7004, 7005), q 1 1, q 2 3, q 3 2,
      ((k 1 [request 1]).takeProgram 0 (request 1)).isSome, (t.startErase 0).isSome, t.nand.taken.contains (t.positions.idxOf 0), (j.openLog 0 7).isSome, (m.startSalvage 0).isSome,
      ((k 4 []).startSalvage 0).isNone, ((k 4 []).startCopy 0).isSome]).all id = true := by decide +kernel
theorem witness_NandCommands_ends :
    (let go (cls : Nat) (op : Nat) : State := let s := storing cls [] [⟨0, some 2, 0⟩]; { s with nand := { s.nand with runs := [⟨0, cls, some (request op), 0⟩] } }
     let own (cls : Nat) : State := let s := storing cls [] [⟨0, some 2, 0⟩]; { s with nand := { s.nand with runs := [⟨0, cls, none, 0⟩] } }
     let b := (storing 2 [] []).blk 1
     let x : State := let s := go 2 4; { s with nand := { s.nand with blocks := [(1, { b with lbn := some 9, st := .live })] } }
     let v := (own 8).endRun ⟨0, 8, none, 0⟩
     [((go 1 1).runOf 0 (fun r => r.cls = 1 || r.cls = 3 || r.cls = 9)).isSome, ((go 2 3).runOf 0 (fun x => x.req.any (fun r => r.op = 3))).isSome,
      ((x.runOf 0 (fun x => x.req.any (fun r => r.op = 4))).isSome), ((x.endRun ⟨0, 2, some (request 4), 0⟩).lbnBlock 9).any (fun e => e.2.st != .opened),
      ((own 5).runOf 0 (fun x => x.cls = 5)).isSome, ((own 8).runOf 0 (fun x => x.cls = 8)).isSome, v.nand.reloc.find? (fun r => r.src = 0) == some ⟨0, some 2, 0⟩,
      decide (0 + 1 < (v.blk 0).pages.length), ((own 7).runOf 0 (fun x => x.cls = 7)).isSome, ((own 6).runOf 0 (fun x => x.cls = 6)).isSome,
      (((own 6).endRun ⟨0, 6, none, 0⟩).writtenPages 0).head?.isSome]).all id = true := by decide +kernel
theorem witness_NandCommands_pops :
    (let c := mkCell [mkHeader true true 56 0 9, 3, 0, 9, 0, 0, 0, 0]
     let s := storing 2 [] []
     let p : State := (((s.wr (descA 7004 0) 0xC2000000).wr (descA 7004 1) 0x00000400).setLe .pool 0 64 c.toNat).setSpl 7004 { Splice.clear with wSeen := 1 }
     let i := mkCell [mkHeader true true 56 0 9, 1 + 256, 0, 0, 0, 0, 0, 0]
     [s.nandPort 7004 == some (0, 0, 7005), (p.pop 7004).1 == some (c, false), !(nandReqOf false 7004 0 c).bad, (nandReqOf false 7004 0 c).op == 3, (nandReqOf false 7004 0 0).bad,
      !(nandReqOf false 7004 0 i).bad, (nandReqOf false 7004 0 i).op == 1, p.rig.nand.any (fun e => e.cls = classOf 3 && e.lay = 0 && e.port = 0),
      (storing 3 [request 2] []).nand.queue.find? (fun r => r.splice = 7004 && r.op = 2 && !r.bad) == some (request 2)]).all id = true := by decide +kernel
theorem witness_MailboxCommands_each :
    (let a (c : Nat) (w : Nat) : State := { lab [] with lany := { (lab []).lany with mail := some ⟨c, 0, toLe 8 w, false⟩ } }
     let s := a 0x50 0x111
     [decide (0 < nbits 0x111 4 0), nbits 0x111 9 8 != 3, s.targetBad (nbits 0x111 4 0) (nbits 0x111 9 8) == 0, 0x111 &&& 0x31F == 0x111, decide (100 ≤ nbits 0x13C0064 15 0),
      decide (nbits 0x0032EA60 31 16 < nbits 0x0032EA60 15 0), decide (nbits 0x0032EA60 15 0 ≤ 60000), mayW (a 0x80 0x0032EA60) .safe (wdA rWDG_HOST_WIN) 0x32 false,
      mayW (lab [(pa .trng 0 0x00C, 1), (pa .trng 0 rTRNG_STAT, 1)]) .safe (lcsA rLCS_CTRL) 0x20000000 ((lab []).root.id ≠ 0 || (lab []).tamperBars || false),
      (a 0x11 0).lany.mail == some ⟨0x11, 0, toLe 8 0, false⟩]).all id = true := by decide
theorem witness_MailboxCommands_return :
    (let s := rigged
     [((s.returnStrand 0 15 true)).isSome, s.normalRuns]).all id = true := by decide
theorem witness_MailboxCommands_cells :
    (let c := mkCell [mkHeader true true 0 1 9]
     let s : State := ((lab [(descA 6144 0, 0xC2000000), (descA 6144 1, 0x00001500)]).setLe .pool 0 64 c.toNat).setSpl 6144 { Splice.clear with wSeen := 1 }
     let n : State := ((lab [(descA 6335 0, 0xC2000000), (descA 6335 1, 0x00001500)]).setLe .pool 0 64 c.toNat).setSpl 6335 { Splice.clear with wSeen := 1 }
     [(s.takeMessage 21 6144 512).1 == [], (s.takeMessage 21 6144 512).2.1 == [c], !cellTaint c, reqKnown (cellChan c), (n.pop 6335).1 == some (c, false)]).all id = true := by decide +kernel
/-- A frame the peer has sealed with session 5 and counter 7. -/
def sealedBy (s : State) (type : Nat) (body : List (BitVec 8)) : PairHead :=
  ⟨5, 7, BitVec.ofNat 128 (beNat (pairFrameBytes (s.pairKey.getD []) 5 7 type body).2)⟩
/-- Is such a frame heard. -/
def hears (s : State) (type : Nat) (body : List (BitVec 8)) : Bool :=
  let z := s.pairLoadKey
  z.pairOn && decide ((z.inject .pair 0 3 4).1 = 0) && (z.inject .pair 0 3 4).2.pairGood (sealedBy s type body) type body &&
  decide (5 ≠ (z.inject .pair 0 3 4).2.pair.peerSession)
/-- A HELLO of a role by a part like this one. -/
def helloOf (s : State) (role : Fin 6) : HelloBody := ⟨9, s.view (pa .chip 0 rCHIP_HWTYPE), s.rd (nandA rNAND_FIT), role, 4, false, true⟩
theorem witness_PairRoleCommands_frames :
    (let h := helloOf (linked 3) 2
     let g : State := { linked 2 with pair := { (linked 2).pair with renews := [(6, 0)], granted := 5 } }
     let o : State := (linked 3).putBit (prA rPAIR_STAT) 2 false
     [hears (linked 3) 1 (helloBytes h), (linked 3).view (pa .chip 0 rCHIP_HWTYPE) == h.hwtype, (linked 3).rd (nandA rNAND_FIT) == h.fit, (linked 3).linkUp, !o.linkUp,
      hears o 1 (helloBytes (helloOf o 2)), hears (linked 3) 1 (helloBytes { h with fit := h.fit + 1 }), !(linked 3).bitAt (prA rPAIR_STAT) 3, hears (linked 3) 2 (toBe 4 6 ++ toBe 4 4),
      hears (linked 1) 2 (toBe 4 6 ++ toBe 4 4), hears (linked 4) 2 (toBe 4 6 ++ toBe 4 4), hears g 3 (toBe 4 6), !g.leaseDue, decide ((linked 3).epoch ≤ 4),
      (g.pairCount 1).pair.renews.find? (fun e => e.1 = 6) == some (6, 0), decide ((g.pairCount 1).pair.granted < 6)]).all id = true := by decide +kernel
theorem witness_PairRoleCommands_each :
    (let y := (linked 2).at 5
     let d : State := { linked 5 with pair := { (linked 5).pair with peer := some (helloOf (linked 5) 5) } }
     let k : State := { linked 4 with settings := (linked 4).settings }
     let e : State := (k.wr (leA rLEASE_PEER_EPOCH) 0).newEpoch false |>.2
     [decide ((linked 3).timer (prA rPAIR_STAT) ≤ (linked 3).now), (linked 3).pair.catchup == none, y.pair.renews == [], d.pair.peer.any (fun p => p.role.val = 5),
      mayW d .safe (prA rPAIR_HOST_CMD) 0x80000001 false, mayW d .safe (prA rPAIR_HOST_CMD) 0x80000003 false, (lab [(prA 0x00C, 1), (prA rPAIR_CTRL, 3)]).bitAt (prA rPAIR_CTRL) 1,
      decide ((e.rd (leA rLEASE_PEER_EPOCH)).toNat < e.epoch), e.role == 4]).all id = true := by decide +kernel
/-- A part in a role whose STORE is ready. -/
def mirroring (role : Nat) : State :=
  let s := lab [(prA 0x00C, 1), (prA rPAIR_STAT, 7), (leA rLEASE_CTRL, 1), (leA rLEASE_STAT, BitVec.ofNat 32 role), (nandA 0x00C, 1), (nandA rNAND_STAT, 5), (nandA rNAND_FIT, 0x88F)]
  { s with copies := [(13 * 16, { KeyReg.clear with st := .ready })], keys := [(0, { KeySlot.empty with type := 1, mask := 0x2000 })] }
theorem witness_MirrorAndCampaignCommands_frames :
    (let p : PairPage := ⟨9, 0, 1, [], [], 0⟩
     let m : State := let s := mirroring 3; { s with nand := { s.nand with blocks := [(0, { Block.fresh with st := .opened, lbn := some 9, stream := 1 })] } }
     let v (l n k : Nat) := verifiedBody l n k
     let o : State := { linked 2 with pair := { (linked 2).pair with out := [⟨9, 0, ⟨7004, 0, 1, 1, true, 0, 0, 0, 9, 0, 0, false, 0, 0, []⟩⟩] } }
     let c : State := { linked 2 with pair := { (linked 2).pair with salvage := some [(9, 0)] } }
     let b : State := { m with nand := { m.nand with blocks := [(0, { Block.fresh with st := .live, lbn := some 9 })] } }
     [hears m 4 (pagePlain p), (m.mirror 4 p none false).isSome, hears (linked 3) 4 (pagePlain p), ((linked 3).mirror 4 p none false).isNone, hears b 6 (toBe 4 9),
      (b.lbnBlock 9).isSome, hears m 7 (toBe 1 3 ++ toBe 4 4096), hears m 8 (toBe 4 1024 ++ [1]), hears m 10 (pagePlain p), m.pair.salvage == none,
      hears o 5 (v (2 ^ 32 - 1) 3 0), hears o 5 (v 9 0 0), hears o 5 (v 9 0 1), (o.pair.out.find? (fun o => o.lbn = 9 && o.page = 0)).isSome, hears c 5 (v 9 0 0),
      (c.pair.out.find? (fun o => o.lbn = 9 && o.page = 0)).isNone, hears (mirroring 2) 11 (pagePlain p), (mirroring 2).mirrorRoom, !(linked 2).mirrorRoom, hears (linked 2) 11 (pagePlain p),
      hears (linked 2) 9 (List.replicate 12 0 ++ [3, 0, 0, 1] ++ List.replicate 48 0)]).all id = true := by decide +kernel
theorem witness_MirrorAndCampaignCommands_each :
    (let p : PairPage := ⟨9, 0, 1, [], [], 0⟩
     let d : State := let s := mirroring 3; { s with nand := { s.nand with runs := [⟨0, 9, none, 5⟩], mirror := [⟨4, p, none, false, some 5, false⟩] } }
     let e : State := d.endRun ⟨0, 9, none, 5⟩
     let h := ((linked 3).wr (prA rPAIR_HEALTH_DST) 0x80000001).at 5
     let hs := (h.setTimer (prA rPAIR_HEALTH_DST) (h.now + 1000000000)).pairSend 9 h.healthBody false
     [(d.runOf 0 (fun r => r.cls = 1 || r.cls = 3 || r.cls = 9)) == some ⟨0, 9, none, 5⟩, (d.nand.mirror.find? (fun e => e.block = some 5)).isSome,
      decide ((e.blk 5).pages.length = 0), decide (h.timer (prA rPAIR_HEALTH_DST) ≤ h.now), hs.role == 3, bit (hs.rd (prA rPAIR_HEALTH_DST)) 31,
      decide (bits (hs.rd (prA rPAIR_HEALTH_DST)) 2 0 < 6), hs.netOn,
      ({ linked 3 with pair := { (linked 3).pair with test := some 2 } } : State).pair.test == some 2]).all id = true := by decide +kernel
theorem witness_MirrorAndCampaignCommands_campaigns :
    (let w (st : Nat) : CampMeter := ⟨7001, [3], st, 0, 0, 0⟩
     let c (st : Nat) : Camp := ⟨5, 64, 1, 2, 50000000, 0, 1, [], [], [(5, w st)], 4⟩
     let s (st : Nat) : State := ({ metered with camps := [c st] } : State).at 5
     let i : SlotImage := ⟨List.replicate 32 0, 1, 64, [(9, 0)]⟩
     let g : State := { metered with images := [(5, i)] }
     let c2 : Camp := { c 1 with sent := [7001 * 65536 + 3] }
     let two : Camp := { c 1 with meters := [(5, w 1), (6, { w 1 with out := 7002 })] }
     [((g.campJoin 5 4 64 64 5 7001 0).1).isSome, (c 1).unsent 7001 == [3], decide ((c 1).round ≤ (c 1).rounds), c2.unsent 7001 == [], { two with sent := [7001 * 65536 + 3] }.unsent 7002 != [],
      (s 4).campOn, decide ((w 4).poll ≤ (s 4).tsuTime.sec), ((s 4).campVerdict 5 4 5 (w 4) 1).1.isSome, ((s 4).campVerdict 5 4 5 (w 4) 2).1.isNone, decide ((c 5).act ≤ (s 5).tsuTime.sec)]).all id = true := by decide +kernel
theorem witness_RingAndQspiCommands_each :
    (let s := lab [(pcA rPCIE_STAT, 1)]
     let r := (s.setBk (pcA rPCIE_RC_CTRL) 0 3).setRing 0 { s.ring 0 with since := 1, irqAt := 1 }
     let y := r.at 5
     let m : State := { s with msix := { s.msix with due := [64], open_ := [64], pend := [65] } }
     [s.ringDir 0 == 1, s.ringDir 1 == 2, decide (0 ≤ s.ringSize 0), y.ringLive 0, decide (0 < (y.ring 0).since), bit (y.bk (pcA rPCIE_RC_CTRL) 0) 1, (y.ring 0).irqAt == 1,
      m.msix.open_.contains 64, m.msix.pend.contains 65, mayW (lab []) .safe (qsA rQSPI_CMD) (qspiGo 2) ((lab []).goldenBad 2 0 || (lab []).qspiBad .safe 2 0 0),
      look (fun _ => 0) ({ s with results := [(qsA rQSPI_STAT, 2)] } : State).results (qsA rQSPI_STAT) == 2]).all id = true := by decide +kernel
/-- The 16 samples of each bit of a character of 8 bits without parity. -/
def waveOf (b : BitVec 8) : List Bool :=
  ((false :: (List.range 8).map (fun i => b.getLsbD i)) ++ [true]).flatMap (fun x => List.replicate 16 x)
/-- An HDLC frame of type 3 with a sound check sequence, between its flags. -/
def hdlcOf (l : List (BitVec 8)) : List (BitVec 8) :=
  let b := [0xA0, BitVec.ofNat 8 (l.length + 4)] ++ l
  0x7E :: b ++ toLe 2 (crcOver 0x8408 0xFFFF b ^^^ 0xFFFF) ++ [0x7E]
/-- UART 7 enabled, its ball claimed. -/
def looping : State := (lab [(uaA 7 0x00C, 1), (pmxA (rPMX_OWN + 4 * 46), 5)]).at 1000000000
/-- What the loop hears of some characters. -/
def heardOf (s : State) (l : List (BitVec 8)) : List HdlcLine :=
  let line := s.uartHears 7 (l.flatMap waveOf)
  let chars := uartChars (s.uartForm 7).1 (s.uartForm 7).2 line.length line.length line
  (hdlcFrames (s.uart 7).cur (s.uart 7).last (s.charTimes 7 chars.2)).1
theorem witness_UartAndPinCommands_frames :
    (let x : Station := { Station.off with addr := 3, valid := true }
     let s : State := looping.setUart 7 { looping.uart 7 with stations := [(0, x)] }
     let g : State := looping.setUart 7 { looping.uart 7 with cur := some [1], last := 0 }
     let g : State := { g with now := 1060000000 }
     let rr := heardOf looping (hdlcOf [0x21, 0x03, 0x11])
     [looping.uartOn 7, heardOf looping [] == [], (match rr with | [.good a (some _)] => decide (a = 3) | _ => false), (s.uart 7).byAddr 3 == some (0, x), (looping.uart 7).byAddr 3 == none,
      heardOf looping [0x7E, 0xA0, 0x07, 0x21, 0x03, 0x11, 0, 0, 0x7E] == [.badFcs], heardOf g [] == [], heardOf g [0x7E] == [.gap], byteGap (g.uart 7).cur (g.uart 7).last g.now,
      (match heardOf looping (hdlcOf [0x21, 0x03, 0x13]) with | [.good _ none] => true | _ => false),
      heardOf looping (let b : List (BitVec 8) := [0xA8, 7, 0x21, 0x03, 0x11]; 0x7E :: b ++ toLe 2 (crcOver 0x8408 0xFFFF b ^^^ 0xFFFF) ++ [0x7E]) == [.segmented]]).all id = true := by decide +kernel
theorem witness_UartAndPinCommands_each :
    (let x : Station := { Station.off with addr := 3, valid := true, await := 1 }
     let r (a : BitVec 32) (n : Nat) : UMsg := ⟨8191, 0, 0, a, 0, [], n⟩
     let s : State := looping.setUart 7 { looping.uart 7 with stations := [(0, x)] }
     let out (s : State) : State := ((s.setStation 7 0 { x with await := 0, misses := min 3 (x.misses + 1) }).uartCount 7 7).stationDown 7 0
     let q (a : BitVec 32) (n : Nat) : State := s.setUart 7 { s.uart 7 with run := some (r a n) }
     let b : State := ((lab [(sbA 0x00C, 1), (pmxA (rPMX_OWN + 4 * 47), 5)]).setBk (sbA rSB_SLOT_CFG) 31 0x80000000).setTimer (sbusKey 31) 5 |>.at 5
     let g (d : Word32) : State := lab [(pmxA rPMX_GPIO_RISE, d)]
     let t (c : Word32) : State := ((lab [(pmxA (rPMX_TMR_CTRL + 56), c)]).setTimer (pmxA (rPMX_TMR_CTRL + 56)) 5).at 5
     [(s.uart 7).stations.find? (fun e => e.2.valid && !e.2.bad && decide (e.2.poll ≤ s.now)) == some (0, x), !(((s.readStation 7 0).uart 7).st 0).bad,
      (s.uart 7).stations.find? (fun e => decide (e.2.await ≠ 0) && decide (e.2.await ≤ s.now)) == some (0, x), ((out s).uart 7).run == none,
      ((out (q 4 0)).uart 7).run == some (r 4 0), ((out (q 3 2)).uart 7).run == some (r 3 2), ((out (q 3 1)).uart 7).run == some (r 3 1), b.sbusDue 31, b.pmxFunc 47 == 5,
      (List.range 31).all (fun i => !b.sbusDue i), !(g 0).ballDriven 31, (g 0x80000000).bitAt (pmxA rPMX_GPIO_RISE) 31, !(g 0).bitAt (pmxA rPMX_GPIO_RISE) 31,
      (t 0xC0000000).bitAt (pmxA (rPMX_TMR_CTRL + 56)) 30, !(t 0x80000000).bitAt (pmxA (rPMX_TMR_CTRL + 56)) 30, (t 0x80000000).timer (pmxA (rPMX_TMR_CTRL + 56)) == 5,
      (lab []).pmxFunc 0 == 0, mayW (lab []) .host (pmxA rPMX_CLAIM) 0x40000000 false]).all id = true := by decide +kernel
theorem witness_UartAndPinCommands_messages :
    (let c := mkCell [mkHeader true true 0 5 9]
     let s := ((((looping.wr (descA 8191 0) 0xC2000000).wr (descA 8191 1) 0x00000600).setLe .pool 0 64 c.toNat).setSpl 8191 { Splice.clear with wSeen := 1 })
     [s.peekCell 8191 0 == some c, decide (cellChan c < 4088), (s.takeMessage 6 8191 64).1 == [], (s.takeMessage 6 8191 64).2.1 == [c], s.begun 8191 == []]).all id = true := by decide +kernel
/-- Ethernet port 5 enabled and up, with two acknowledgements it may send. -/
def cabled : State :=
  let s := (lab [(ethA 5 0x00C, 1), (ethA 5 rETH_STAT, 1), (descA 8191 0, 0xC2000000), (descA 8191 1, 0x00000300)]).at 5
  s.setEthPort 5 { s.ethPort 5 with adv := [4], cache := [], queue := [(0, [1])] }
/-- A frame with its check sequence: its destination's last 48 bits, its type and payload. -/
def framed (dst type : Nat) (l : List (BitVec 8)) : List (BitVec 8) :=
  let b := toBe 6 dst ++ toBe 6 7 ++ toBe 2 type ++ l ++ List.replicate (46 - l.length) 0
  b ++ toLe 4 (crc32 b)
/-- An IPv6 packet from fe80::7 to the port's link-local address. -/
def packet (next : Nat) (f : BitVec 128 → BitVec 128 → List (BitVec 8)) : List (BitVec 8) :=
  let src : BitVec 128 := BitVec.ofNat 128 (leNat ([0xFE, 0x80] ++ List.replicate 13 0 ++ [7]))
  let dst := cabled.ethAddr 5 4
  [0x60, 0, 0, 0] ++ toBe 2 (f src dst).length ++ toBe 1 next ++ [255] ++ toLe 16 src.toNat ++ toLe 16 dst.toNat ++ f src dst
/-- A UDP datagram of four bytes to a port with the complement of a wrong or of its right sum. -/
def datagram (port : Nat) (wrong : Nat) (src dst : BitVec 128) : List (BitVec 8) :=
  let l (c : Nat) := toBe 2 9 ++ toBe 2 port ++ toBe 2 12 ++ toBe 2 c ++ [1, 2, 3, 4]
  let t := sum16 (toLe 16 src.toNat ++ toLe 16 dst.toNat ++ toBe 4 12 ++ toBe 4 17 ++ l 0)
  let f := t % 65536 + t / 65536
  l (65535 - (f % 65536 + f / 65536) + wrong)
/-- Does port 5 take a frame. -/
def takesFrame (f : EthFrame) : Bool := cabled.ethBad 5 f == none
theorem witness_EthernetCommands_udp :
    (let u := ethParse (framed 0 0x86DD (packet 17 (datagram 4059 0)))
     [cabled.ethUp 5, decide ((cabled.inject (ethPg 5).1 (ethPg 5).2 0 1).1 = 0), takesFrame u, u.body == .udp 9 4059 [1, 2, 3, 4], (cabled.ethOwn 5).contains u.dst,
      decide ((4059 : BitVec 16).toNat = cabled.fld (ingA rING_UDP_PORTS) 15 0)]).all id = true := by decide +kernel
theorem witness_EthernetCommands_badSum :
    (let u := ethParse (framed 0 0x86DD (packet 17 (datagram 4059 1)))
     [takesFrame u, u.body == .badSum]).all id = true := by decide +kernel
theorem witness_EthernetCommands_echo :
    (let u := ethParse (framed 0 0x86DD (packet 58 (fun a b => icmp6 a b 128 0 [0, 1, 0, 2, 9])))
     [takesFrame u, u.body == .echo [0, 1, 0, 2, 9], cabled.bitAt (ethA 5 rETH_CFG) 17, (cabled.ethOwn 5).contains u.dst]).all id = true := by decide +kernel
theorem witness_EthernetCommands_solicit :
    (let u := ethParse (framed 0 0x86DD (packet 58 (fun a b => icmp6 a b 135 0 (List.replicate 4 0 ++ toLe 16 (cabled.ethAddr 5 4).toNat))))
     [takesFrame u, u.body == .solicit (cabled.ethAddr 5 4)]).all id = true := by decide +kernel
theorem witness_EthernetCommands_others :
    (let ptp := ethParse (framed 0x011B19000000 0x88F7 [0, 2, 0, 4])
     let frag := ethParse (framed 0 0x86DD (packet 44 (fun _ _ => [0, 0])))
     [takesFrame ptp, ptp.body == .ptp [0, 2, 0, 4], cabled.ethBad 5 frag == some 4, cabled.ethBad 5 (ethParse []) == some 1, takesFrame (ethParse (framed 0 0x1234 [])),
      (ethParse (framed 0 0x1234 [])).body == .other]).all id = true := by decide +kernel
theorem witness_EthernetCommands_each :
    (let c := mkCell [mkHeader true true 56 4000 9, 0, 5, 0, 0, 0]
     let s := (cabled.setLe .pool 0 64 c.toNat).setSpl 8191 { Splice.clear with wSeen := 1 }
     [(cabled.ethPort 5).adv.contains 4, (cabled.setEthPort 5 { cabled.ethPort 5 with adv := [] }).ethUsable 5 4, (cabled.ethPort 5).queue == [(0, [1])], s.domOn (portDomain 5),
      s.fld (descA 8191 1) 12 8 == txEnd 5, decide ((s.ethPort 5).queue.length < 64), s.begun 8191 == [], s.peekCell 8191 0 == some c, s.ackHere 5 c,
      !(s.takeMessage (txEnd 5) 8191 2).2.1.isEmpty]).all id = true := by decide +kernel

/-! ### Clauses of access, waiting and order -/

theorem witness_NoAccess :
    (let d := lab [(pa .lay 0 rLAY_STAT, 5)]
     let v := voided.at 5
     [voided.noAccess .debug, !voided.noAccess .host, !(lab []).noAccess .debug, v.noAccess .debug, d.strandSt 0 0 == 5, mayW d .safe (pa .strand 0 rSTR_DBG_DATA) 0 false,
      (lab [(rtcA 0x010, 2)]).srstBusy (rtcA rRTC_CAL_DATE), !(lab []).srstBusy (rtcA rRTC_CAL_DATE), !(lab []).drbgOk, !((lab []).wr (domReg 1) 0).domOn 1]).all id = true := by decide
theorem witness_SharedEngineCommands_pke :
    (let o (l : List Nat) : State := { lab [] with rig := { (lab []).rig with frames := true, pke := l } }
     [(o [0, 0, 0]).rig.pkeAt == 0, (o [0, 0, 0]).pkeOwner 0 == 0, (o [0, 0, 0]).rig.pkeBusy == 0, decide ((o [7]).pkeOwner 0 < 8), (o [8]).pkeOwner 0 == 8, (o []).domOn 16]).all id = true := by decide
theorem readSlotGood (s : State) (h : s.domOn 16 = true) (e : (s.inject .key 0 0 1).1 = 0) (k : Nat) :
    s.readSlot k = (false, (s.inject .key 0 0 1).2) := by
  unfold State.readSlot; rw [if_pos h]
  rcases hx : s.inject .key 0 0 1 with ⟨c, u⟩
  rw [hx] at e; simp only at e; subst e; rfl
theorem witness_KeyStoreCommands_reads : (∀ op : Nat, ((lab []).readSlot ((lab []).keyFirst op 5)).1 = false) ∧
    (∀ op : Nat, (((lab []).readSlot ((lab []).keyFirst op 5)).2).kat .kdf = false) ∧ (lab []).settings = [] := by
  have r := readSlotGood (lab []) (by decide) (by decide)
  exact ⟨fun op => by rw [r], fun op => by rw [r]; decide, by decide⟩
theorem witness_RiggingCommands_turn : (let w : State := { lab [] with lany := { (lab []).lany with mail := some ⟨0x10, 0, [], false⟩ } }
    [(asked 0x10 []).hostTurn, !w.hostTurn, w.lany.mail.isSome, !(lab []).rig.waiting]).all id = true := by decide
theorem witness_MeterTableCommands_refused : ((asked 0x20 []).rosterTurn && !(asked 0x20 []).imageOk 5 []) = true := by decide +kernel
theorem witness_MailboxCommands_roster :
    (let s := asked 0x20 []
     let none_ := (s.rosterFrom [] (some 0) (fun i => s.meterValid i) []).1
     let some_ := (s.rosterFrom [] (some 0) (fun i => s.meterValid i) [(0, (5, 7))]).1
     let img : List (BitVec 8) := List.replicate 0x84 0 ++ [1] ++ List.replicate (0xCC - 0x85) 0 ++ [0xFF] ++ List.replicate (511 - 0xCC) 0
     let off := ((s.setBytes .ddr 0 img).rosterFrom [] (some 0) (fun i => s.meterValid i) [(0, (5, 7))]).1
     [s.domOn 14, s.hostTurn, none_.2.2 == none, some_.2.2.isSome, off.2.2 == some (5, 5)]).all id = true := by decide +kernel
theorem witness_MailboxCommands_image :
    (let s := (((asked 0x40 []).setResumeSt 4 1 false).setLe .nor (recvAt 4 + 0x12) 2 0).setLe .nor (recvAt 4 + 0x18) 4 0
     let r : State := { s with rig := { s.rig with running := true } }
     [r.resumeSt 4 == 1, r.groupsDone 4, r.camps == [], r.domOn 14, r.domOn 15, (r.storeImage (imagePages (r.bytes .nor (recvAt 4 + 0x10000) (u (r.manifestAt (recvAt 4)) 0x18 4))) []).isSome,
      r.lany.mail == some ⟨0x40, 0, [], false⟩]).all id = true := by decide +kernel
theorem leNatSmall : ∀ l : List Byte, leNat l < 256 ^ l.length
  | [] => by decide
  | b :: t => by have := leNatSmall t; have := b.isLt; simp only [leNat, List.length_cons, Nat.pow_succ]; omega
theorem toLeOfLeNat : ∀ l : List Byte, toLe l.length (leNat l) = l
  | [] => rfl
  | b :: t => by
    have d : (b.toNat + 256 * leNat t) / 256 = leNat t := by have := b.isLt; omega
    simp only [List.length_cons, toLe, leNat, d, toLeOfLeNat t, List.cons.injEq, and_true]
    apply BitVec.eq_of_toNat_eq; rw [BitVec.toNat_ofNat]; have := b.isLt; omega
theorem toBeOfBeNat (l : List Byte) (h : l.length = 16) : toBe 16 (BitVec.ofNat 128 (beNat l)).toNat = l := by
  have s := leNatSmall l.reverse
  rw [List.length_reverse, h] at s
  have e : (BitVec.ofNat 128 (beNat l)).toNat = leNat l.reverse := by
    rw [BitVec.toNat_ofNat, beNat]; exact Nat.mod_eq_of_lt (Nat.lt_of_lt_of_eq s (by decide))
  rw [toBe, e]
  have := toLeOfLeNat l.reverse
  rw [List.length_reverse, h] at this
  rw [this, List.reverse_reverse]
/-- A frame sealed by the peer is a good frame, whatever its body. -/
theorem sealedGood (s : State) (k : List Byte) (h : s.pairKey = some k) (a : (aes k (gcmStart k (toBe 4 5 ++ toBe 8 7))).length = 16) (type : Nat)
    (body : List Byte) : s.pairGood (sealedBy s type body) type body = true := by
  have e : (pairFrameBytes k 5 7 type body).2.length = 16 := by
    unfold pairFrameBytes gcmTag xorB
    rw [List.length_zipWith, a]; rfl
  have g : (pairFrameBytes k (5 : BitVec 32).toNat (7 : BitVec 64).toNat type body).2 = (pairFrameBytes k 5 7 type body).2 := rfl
  simp only [State.pairGood, sealedBy, h, Option.any_some, Option.getD_some, g, toBeOfBeNat _ e, beq_self_eq_true]
/-- What the standby has after the reads of a frame. -/
def listener : State := ((linked 3).pairLoadKey.inject .pair 0 3 4).2
theorem witness_MirrorAndCampaignCommands_settings (x : Settings) :
    listener.pairGood (sealedBy listener 8 (toBe 4 0 ++ settingsBody x)) 8 (toBe 4 0 ++ settingsBody x) = true ∧
    settingsBody x = (if (0 : BitVec 32).toNat = 0 then [] else listener.pair.pieces) ++ settingsBody x ∧
    listener.pairGood (sealedBy listener 8 (toBe 4 0 ++ (7 :: settingsBody x))) 8 (toBe 4 0 ++ (7 :: settingsBody x)) = true ∧
    settingsBody x ≠ [] ++ 7 :: settingsBody x ∧ 5 ≠ listener.pair.peerSession ∧ listener.role = 3 := by
  have k : ∃ k, listener.pairKey = some k ∧ (aes k (gcmStart k (toBe 4 5 ++ toBe 8 7))).length = 16 :=
    ⟨listener.pairKey.getD [], by decide +kernel, by decide +kernel⟩
  obtain ⟨k, h, a⟩ := k
  refine ⟨sealedGood _ k h a _ _, rfl, sealedGood _ k h a _ _, fun e => ?_, by decide, by decide⟩
  have := congrArg List.length e
  simp only [List.nil_append, List.length_cons] at this; omega
theorem witness_TsuCommands_ptp :
    (let s := (lab [(tsuA rTSU_PTP_CFG, 0x20), (tsuA rTSU_PORT_MODE, 0x20)]).at 5
     let o := (lab [(tsuA rTSU_PTP_CFG, 1)]).at 5
     let m (t : BitVec 8) : List (BitVec 8) := [t, 2, 0, 64, 0] ++ List.replicate 59 0
     [s.netOn, s.ptpSends 5 (m 2), s.ptpSends 5 (m 0), s.ptpSends 5 (m 3), s.ptpSends 5 (m 11), !s.ptpSends 0 (m 2), s.softStamp 5, !o.softStamp 0, o.ptpSends 0 (m 3),
      o.ptpSends 0 (m 0), ptpMulticast (m 2) != ptpMulticast (m 0)]).all id = true := by decide +kernel
/-- The power line on phase 0 enabled, a run of its port under way in a state. -/
def carrying (st : Nat) : State :=
  let s := lab [(plcA 0x00C, 1), (pa .plcPh 0 0x00C, 1), owning 4]
  let s : State := { s with plc := { s.plc with due := 10 ^ 12 } }
  (s.setPort7 4 { s.port7 4 with run := some (run0 st) }).at 5
theorem witness_FieldPortCommands_strobe :
    (let a : State := let s := airing; s.setPort7 0 { s.port7 0 with acking := some 9 }
     [airing.macOn 0, airing.netOn, ((airing.port7 0).acking).isNone, (airing.port7 0).run == none, a.acking 0, ((sending 3).at 5).macOn 0, ((sending 3).at 5).netOn]).all id = true := by decide
theorem witness_FieldFrameCommands_turns :
    (let q (s : State) (m : Nat) : Bool := s.macOn m && !s.fenced && !s.startingUp m && !s.acking m
     let w : State := let s := carrying 1; { s with plc := { s.plc with windows := [(0, 1000)], sfd := 0 } }
     let o : State := let s := carrying 2; s.setPort7 4 { s.port7 4 with owed := [⟨0, 0, 0, 0, false, none, false, 0⟩] }
     let lbt := (run0 1).listen * 1000
     [q (carrying 1) 4, q (carrying 2) 4, q ((sending 1).at 5) 0, (carrying 1).airFits lbt, !w.airFits lbt, q w 4, ((o.port7 4).dueAcks 5).length == 1,
      ((carrying 2).port7 4).dueAcks 5 == [], decide (Sys2Proof.signed 8 0x81 < Sys2Proof.signed 8 (nbits (run0 2).csma 23 16)), decide (Sys2Proof.signed 8 (nbits (run0 2).csma 23 16) ≤ Sys2Proof.signed 8 0x7F),
      !((carrying 3).port7 4).chanDue]).all id = true := by decide +kernel
theorem witness_FieldFrameCommands_filters :
    (let good (l : List (BitVec 8)) : FieldFrame := let p := l ++ toLe (airing.macFcs 0 []).1 (airing.macFcs 0 l).2
       ⟨0, 0, 0, BitVec.ofNat 16 p.length, p, none, true, 8, 0, 0, false, 0, none, []⟩
     let sent (fc dst : BitVec 8) := airing.frameParts 0 (good [fc, 0x98, 7, 0xFF, 0xFF, dst, 0xFF, 9, 0])
     let f (fc dst : BitVec 8) : Option (Option Bool) := (sent fc dst).map (fun g => (airing.relabelled 0 g).filters 0 g)
     [(sent 0x41 0xFF).map (fun g => g.mac.kind != 1) == some true, f 0x61 0xFF == some none, f 0x41 0xFF == some (some true), f 0x41 0x12 == some (some false)]).all id = true := by decide +kernel
theorem witness_PowerLineCommands_turns :
    (let b := airing
     let w : State := { b with plc := { b.plc with windows := [(0, 1000)], sfd := 0 } }
     let x : State := let s := b; s.setPort7 4 { s.port7 4 with run := some { run0 3 with mask := 1 } }
     let n : State := b.setPort7 4 { b.port7 4 with nbs := [(3, { Neigh.off with valid := true, tmrDue := true, snr := [(0, [[60, 60, 60, 60, 60, 60, 60, 60]])] })] }
     let h := n.slotRead 4 3
     let nb := (h.port7 4).nb 3
     [!b.frontBusy 0 7, b.windowMet 0 == none, x.frontBusy 0 7, (w.windowMet 0).isSome, n.macOn 4, nb.valid, nb.tmrDue, nb.tx == [], (h.slotMap nb).any (fun x => x % 8 != 7)]).all id = true := by decide +kernel
theorem witness_PowerCommands_crypto : (lab [(domReg 16, 0x30000)]).domSt 16 = 3 := by decide
theorem witness_MeasurementCommands_wires : (!measuring.threeWire 0 && ({ measuring with meas := { measuring.meas with act := [(mpA 0 rMP_CFG, 0x80000010)] } } : State).pointEn 0) = true := by decide
theorem witness_CosemCommands_asked :
    (let s : State := { lab [] with work := { (lab []).work with roles := [(1, ⟨0, 9, false, true⟩)] } }
     [s.roleAsked 1, !(s.askTaken.reserve (roleAt 1) (9 + 4096)).pairEn, s.limitBars 6 == false]).all id = true := by decide +kernel
theorem witness_BalanceCommands_end :
    (let o : State := let s := lab []; { s with bal := { s.bal with closed := some 3, first := some 0 } }
     let t : State := { o with tsuTime := { o.tsuTime with sec := 100000 }, bal := { o.bal with closed := some 10000000 } }
     [t.balStart.isClosed (t.balStart.ivlEnd 5), decide (t.ivlEnd 5 + t.fld (balA rBAL_SETTLE) 11 0 ≤ t.tsuTime.sec)]).all id = true := by decide
theorem witness_NandCommands_turn :
    (let s := storing 2 [] [⟨0, some 2, 0⟩]
     let s := s.wr (pa .ddr 0 0x00C) 1
     let g : State := { s with rig := { s.rig with slotUse := 5 }, nand := { s.nand with runs := [⟨0, 2, some (request 3), 0⟩] } }
     [g.storeTurn, g.runOf 0 (fun x => x.req.any (fun r => r.op = 3)) == some ⟨0, 2, some (request 3), 0⟩, !g.rescanWaits (request 1), !g.rescanWaits (request 3)]).all id = true := by decide +kernel
theorem witness_EthernetCommands_mdio : (((lab []).ethPort 4).mdio.isNone && mayW (lab []) .host (ethA 4 rSG_MDIO) 0xFFFFFFFF false) = true := by decide

/-- The worked example of R688: A9 is VSS, A8 is VDD_DDR, A1 is DDR_DQ_0. -/
theorem test_ball_map : ballAt 1 9 = some .ground ∧ ballAt 1 8 = some (.supply "VDD_DDR") ∧ ballAt 1 1 = some (.signal "DDR_DQ_0") := by decide +kernel

end Sys2Proof.Tests
end

section
/-! SUPPORT. Laws of the byte-addressed memories: what a byte reads after a write of one byte, of a list of bytes, of a little-endian number,
and what those writes leave alone. -/

namespace Sys2Proof.Machine

/-! ### Bytes read back -/

theorem State.byte_setByte (s : State) (sp sq : Space) (a b : Nat) (v : Byte) :
    (s.setByte sp a v).byte sq b = if sq.base + b = sp.base + a then v else s.byte sq b :=
  look_store memDefault s.mem (sq.base + b) (sp.base + a) v

/-- A list of bytes written changes no byte outside its range. -/
theorem State.byte_setBytes_outside {sp sq : Space} {a b : Nat} {l : List Byte} (s : State)
    (h : sq.base + b < sp.base + a ∨ sp.base + a + l.length ≤ sq.base + b) : (s.setBytes sp a l).byte sq b = s.byte sq b := by
  induction l generalizing s a with
  | nil => rfl
  | cons x l ih =>
    rw [List.length_cons] at h
    rw [State.setBytes, ih _ (by omega), State.byte_setByte, if_neg (by omega)]

/-- A list of bytes written reads back, byte by byte. -/
theorem State.byte_setBytes_inside (s : State) (sp : Space) (a : Nat) (l : List Byte) (i : Nat) (h : i < l.length) :
    (s.setBytes sp a l).byte sp (a + i) = l[i] := by
  induction l generalizing s a i with
  | nil => simp at h
  | cons x l ih =>
    rw [State.setBytes]
    cases i with
    | zero => rw [State.byte_setBytes_outside _ (by omega), State.byte_setByte, if_pos (by omega), List.getElem_cons_zero]
    | succ i => rw [show a + (i + 1) = a + 1 + i by omega, ih, List.getElem_cons_succ]

@[simp] theorem length_toLe (n v : Nat) : (toLe n v).length = n := by
  induction n generalizing v with
  | zero => rfl
  | succ n ih => rw [toLe, List.length_cons, ih]

/-- Byte i of a little-endian number is its digit i to the base 256 (R9). -/
theorem getElem_toLe (n v i : Nat) (h : i < (toLe n v).length) : (toLe n v)[i] = BitVec.ofNat 8 (v / 256 ^ i) := by
  induction n generalizing v i with
  | zero => simp at h
  | succ n ih =>
    simp only [toLe]
    cases i with
    | zero => simp
    | succ i => rw [List.getElem_cons_succ, ih, Nat.div_div_eq_div_mul, Nat.pow_succ']

/-! ### What a write of bytes leaves alone -/

theorem State.setBytes_regs (s : State) (sp : Space) (a : Nat) (l : List Byte) : (s.setBytes sp a l).regs = s.regs := by
  induction l generalizing s a with
  | nil => rfl
  | cons x l ih => rw [State.setBytes, ih, State.setByte_regs]

theorem State.setBytes_strands (s : State) (sp : Space) (a : Nat) (l : List Byte) : (s.setBytes sp a l).strands = s.strands := by
  induction l generalizing s a with
  | nil => rfl
  | cons x l ih => rw [State.setBytes, ih, State.setByte_strands]

/-! ### A store -/

/-- A store differs from the write of its bytes in the check bits alone. -/
theorem State.storeBytes_eq (s : State) (sp : Space) (a size v : Nat) :
    s.storeBytes sp a size v = { s.setLe sp a size v with ecc := (s.storeBytes sp a size v).ecc } := by
  unfold State.storeBytes
  split <;> split <;> rfl

theorem State.storeBytes_regs (s : State) (sp : Space) (a size v : Nat) : (s.storeBytes sp a size v).regs = s.regs := by
  rw [State.storeBytes_eq]; exact State.setBytes_regs ..

theorem State.storeBytes_strands (s : State) (sp : Space) (a size v : Nat) : (s.storeBytes sp a size v).strands = s.strands := by
  rw [State.storeBytes_eq]; exact State.setBytes_strands ..

/-- A byte reads after a store as after the write of the store's bytes. -/
theorem State.byte_storeBytes (s : State) (sp sq : Space) (a b size v : Nat) :
    (s.storeBytes sp a size v).byte sq b = (s.setBytes sp a (toLe size v)).byte sq b := by
  rw [State.storeBytes_eq]; rfl

/-- A store's bytes are the digits of its value to the base 256, the least first (R9, R93). -/
theorem State.byte_storeBytes_inside (s : State) (sp : Space) (a size v i : Nat) (h : i < size) :
    ((s.storeBytes sp a size v).byte sp (a + i)).toNat = v / 256 ^ i % 256 := by
  rw [State.byte_storeBytes, State.byte_setBytes_inside _ _ _ _ _ (by rwa [length_toLe]), getElem_toLe, BitVec.toNat_ofNat]

/-- A store changes no byte but its own (R93). -/
theorem State.memOutside_storeBytes (s : State) (sp : Space) (a size v : Nat) : s.memOutside (s.storeBytes sp a size v) sp a size := by
  intro sq b h
  rw [State.byte_storeBytes, State.byte_setBytes_outside s (by rwa [length_toLe])]

/-- A store in flight acts as a store to its strand's data memory (R76, R93). -/
theorem State.complete_dmemStore (s : State) (n : Nat) {f : Flight} {a size v : Nat} (h : f.late = .dmemStore a size v) :
    s.complete n f = s.storeBytes (.dmem (n / 16) (n % 16)) a size v := by
  simp only [State.complete, h]

end Sys2Proof.Machine
end

section
/-! SUPPORT. Laws of the page index (R67): pages do not overlap, so an address names its page and offset, and a page its addresses. -/

namespace Sys2Proof.Machine

theorem mem_allPg (p : Pg) : p ∈ allPg := by
  cases p <;> decide

/-- Pages of different blocks do not overlap. -/
theorem allPg_disjoint : ∀ p ∈ allPg, ∀ q ∈ allPg, p ≠ q →
    (pageInfo p).code + (pageInfo p).count ≤ (pageInfo q).code ∨ (pageInfo q).code + (pageInfo q).count ≤ (pageInfo p).code := by
  decide

/-- A block's pages end below the splice descriptors (R46). -/
theorem page_end (p : Pg) : (pageInfo p).code + (pageInfo p).count ≤ 0x400 := by
  cases p <;> decide

/-- A page index that names page i of a block is the block's first index plus i. -/
theorem eq_of_pageAt {k i : Nat} {p : Pg} (h : pageAt k = some (p, i)) : k = (pageInfo p).code + i ∧ i < (pageInfo p).count := by
  obtain ⟨p', hp, he⟩ := Option.map_eq_some_iff.mp h
  obtain ⟨rfl, rfl⟩ := Prod.mk.inj he
  have := List.find?_some hp
  simp only [Bool.and_eq_true, decide_eq_true_eq] at this
  omega

/-- A page index within a block's range names no other block. -/
theorem page_unique {k i : Nat} {p p' : Pg} (h : pageAt k = some (p, i)) (hlo : (pageInfo p').code ≤ k)
    (hhi : k < (pageInfo p').code + (pageInfo p').count) : p = p' := by
  obtain ⟨hk, hi⟩ := eq_of_pageAt h
  by_contra hne
  have := allPg_disjoint p (mem_allPg p) p' (mem_allPg p') hne
  omega

/-- The window address of a page and an offset is the address they were taken from. -/
theorem pa_of_pageAt {a i : Nat} {p : Pg} (h : pageAt (a / 4096) = some (p, i)) : pa p i (a % 4096) = a := by
  obtain ⟨hk, -⟩ := eq_of_pageAt h
  unfold pa
  omega

theorem pa_add (p : Pg) (i o k : Nat) : pa p i (o + k) = pa p i o + k := by
  unfold pa
  exact (Nat.add_assoc ..).symm

theorem lt_of_pageAt {a i : Nat} {p : Pg} (h : pageAt (a / 4096) = some (p, i)) : a < 0x400000 := by
  obtain ⟨hk, hi⟩ := eq_of_pageAt h
  have := page_end p
  omega

/-- An address of one block's page is no register of another block's. -/
theorem ne_pa_of_pageAt {a i j o : Nat} {p p' : Pg} (h : pageAt (a / 4096) = some (p, i)) (hp : p ≠ p')
    (hj : j < (pageInfo p').count) (ho : o < 4096) : a ≠ pa p' j o := by
  intro ha
  unfold pa at ha
  exact hp (page_unique h (by omega) (by omega))

theorem isDesc_of_pageAt {a i : Nat} {p : Pg} (h : pageAt (a / 4096) = some (p, i)) : isDesc a = false := by
  have := lt_of_pageAt h
  simp [isDesc]
  omega

theorem mapped_of_pageAt {a i : Nat} {p : Pg} (h : pageAt (a / 4096) = some (p, i)) : mapped a = true := by
  simp [mapped, isDesc_of_pageAt h, h, lt_of_pageAt h]

end Sys2Proof.Machine
end

section
/-! SUPPORT. Laws of the register window: the write or the read that an access by address reaches, and what it does when it is taken (R47 to R63). -/

namespace Sys2Proof.Machine

/-! ### Writes by address (R48, R52) -/

/-- Below offset 0x040 a word is the page header's (R58). -/
theorem State.write32_header {a i : Nat} {p : Pg} (s : State) (q : Requester) (v : Word32) (h : Machine.pageAt (a / 4096) = some (p, i))
    (ho : a % 4096 < 0x040) : s.write32 q a v = s.headerWrite q p i (a % 4096) v := by
  simp [State.write32, isDesc_of_pageAt h, mapped_of_pageAt h, h, ho]

/-- From offset 0x040 on a 32-bit register is its block's. -/
theorem State.write32_block {a i : Nat} {p : Pg} (s : State) (q : Requester) (v : Word32) (h : Machine.pageAt (a / 4096) = some (p, i))
    (ho : 0x040 ≤ a % 4096) (hw : isWide a = false) : s.write32 q a v = s.blockWrite q p i (a % 4096) v := by
  simp [State.write32, isDesc_of_pageAt h, mapped_of_pageAt h, h, hw, Nat.not_lt.mpr ho]

/-- The low half of a 64-bit register (R57). -/
theorem State.write32_lowHalf {a i : Nat} {p : Pg} (s : State) (q : Requester) (v : Word32) (h : Machine.pageAt (a / 4096) = some (p, i))
    (ho : 0x040 ≤ a % 4096) (hw : isWide a = true) (h8 : a % 8 = 0) : s.write32 q a v = s.lowHalfWrite q p i (a % 4096) v := by
  simp [State.write32, isDesc_of_pageAt h, mapped_of_pageAt h, h, hw, h8, Nat.not_lt.mpr ho]

/-- The high half of a 64-bit register (R57). -/
theorem State.write32_highHalf {a i : Nat} {p : Pg} (s : State) (q : Requester) (v : Word32) (h : Machine.pageAt (a / 4096) = some (p, i))
    (ho : 0x040 ≤ a % 4096) (hw : isWide a = true) (h8 : a % 8 ≠ 0) : s.write32 q a v = s.highHalfWrite q p i (a % 4096) v := by
  simp [State.write32, isDesc_of_pageAt h, mapped_of_pageAt h, h, hw, h8, Nat.not_lt.mpr ho]

/-- A 32-bit write at a word's offset with all byte enables. -/
theorem State.windowWrite_word {a : Nat} (s : State) (q : Requester) (v : Word64) (h4 : a % 4 = 0) :
    s.windowWrite q a false 1 v = s.write32 q a (v.extractLsb' 0 32) := by
  simp [State.windowWrite, State.writeWord, Nat.div_mul_cancel (Nat.dvd_of_mod_eq_zero h4)]

/-- A 32-bit write with fewer byte enables is a refusal where there is a cause, and nothing otherwise (R48). -/
theorem State.windowWrite_partial {a c : Nat} (s : State) (q : Requester) (v : Word64) (h4 : a % 4 = 0)
    (hc : s.refusal q a false (v.extractLsb' 0 32) false false = some c) : s.windowWrite q a false 0 v = s.refuse q a c := by
  simp [State.windowWrite, State.writeWord, Nat.div_mul_cancel (Nat.dvd_of_mod_eq_zero h4), hc]

/-- The blocks whose every 32-bit register is written by its fields alone. -/
def Pg.plain (p : Pg) : Prop :=
  p = .sens ∨ p = .strand ∨ p = .kdf ∨ p = .trng ∨ p = .wake ∨ p = .ddr ∨ p = .upd ∨ p = .dbg

/-- A write of such a block's register is a write by the register's fields. -/
theorem State.blockWrite_plain {i o : Nat} {p : Pg} (s : State) (q : Requester) (v : Word32) (hp : p.plain) (hi : i < (pageInfo p).count) :
    s.blockWrite q p i o v = s.plainWrite q (pa p i o) v false := by
  rcases hp with rfl | hp
  · obtain rfl : i = 0 := Nat.lt_one_iff.mp hi
    rfl
  · rcases hp with rfl | rfl | rfl | rfl | rfl | rfl | rfl <;> rfl

/-! ### Reads by address (R47 to R50) -/

theorem State.readBy_denied {s : State} {q : Requester} (f : State → State) (hq : q = .debug) (hl : s.lcs = 4) :
    s.readBy q f = { s with rdata := 0 } := by
  simp [State.readBy, State.noAccess, hq, hl]

theorem State.readBy_allowed {s : State} {q : Requester} (f : State → State) (h : q ≠ .debug ∨ s.lcs ≠ 4) : s.readBy q f = f s := by
  have : s.noAccess q = false := by simpa [State.noAccess, or_iff_not_imp_left] using h
  simp [State.readBy, this]

/-- A 32-bit read at a word's offset: the word's read, with the bytes that are not enabled at 0. -/
theorem State.windowRead_word {a : Nat} (s : State) (q : Requester) (be : BitVec 8) (h4 : a % 4 = 0) :
    s.windowRead q a false be =
      let u := s.readBy q (fun s => s.readWord q a)
      { u with rdata := enabledBytes be u.rdata } := by
  simp [State.windowRead, Nat.div_mul_cancel (Nat.dvd_of_mod_eq_zero h4)]

/-- The blocks whose registers are read with no effect of their own beyond the latch, clear on read and INGEST's healing. -/
def Pg.readsPlainly (p : Pg) : Prop := p ≠ .splice ∧ p ≠ .trng ∧ p ≠ .rtc ∧ p ≠ .lay ∧ p ≠ .sens ∧ p ≠ .meterdb

theorem ingest_page_iff {a i : Nat} {p : Pg} (h : pageAt (a / 4096) = some (p, i)) : a / 4096 = ingA 0 / 4096 ↔ p = .ingest := by
  constructor
  · intro ha
    rw [ha] at h
    exact page_unique h (by decide) (by decide)
  · rintro rfl
    obtain ⟨hk, hi⟩ := eq_of_pageAt h
    simp only [pageInfo] at hk hi
    rw [hk, Nat.lt_one_iff.mp hi]
    rfl

/-- Only a lay's page holds a load port (R122). -/
theorem arrIdx_loadPort {a i : Nat} {p : Pg} (h : pageAt (a / 4096) = some (p, i)) (hp : p ≠ .lay) :
    arrIdx a (pa .lay 0 rLAY_LD_DATA) 4096 8 = none := by
  unfold arrIdx
  rw [if_neg]
  rintro ⟨hlo, hhi, hport⟩
  simp only [pa, pageInfo, rLAY_LD_DATA] at hlo hhi hport
  refine hp (page_unique h ?_ ?_) <;> simp only [pageInfo] <;> omega

/-- Only METERDB's page holds the read and write buffers. -/
theorem inBuf_other {a i : Nat} {p : Pg} (h : pageAt (a / 4096) = some (p, i)) (hp : p ≠ .meterdb) : inBuf a = false := by
  rw [Bool.eq_false_iff]
  intro hb
  simp only [inBuf, Bool.and_eq_true, decide_eq_true_eq] at hb
  simp only [mdbA, pa, pageInfo, rMDB_RD_BUF, rMDB_WR_BUF] at hb
  refine hp (page_unique h ?_ ?_) <;> simp only [pageInfo] <;> omega

theorem State.readWord_plainly {a i : Nat} {p : Pg} (s : State) (q : Requester) (h : Machine.pageAt (a / 4096) = some (p, i))
    (hp : p.readsPlainly) : s.readWord q a = (if p = .ingest then s.ingRead a else s).read32 q a := by
  obtain ⟨hspl, htrng, hrtc, hlay, hsens, hmdb⟩ := hp
  have reg {p' : Pg} {o : Nat} (hne : p ≠ p') (h0 : 0 < (pageInfo p').count) (ho : o < 4096) : ¬ a = pa p' 0 o :=
    ne_pa_of_pageAt h hne h0 ho
  simp only [State.readWord, ingest_page_iff h, arrIdx_loadPort h hlay, inBuf_other h hmdb,
    reg hspl (by decide) (by decide : rSPL_PEEK_DATA < 4096), reg htrng (by decide) (by decide : rTRNG_OUT < 4096),
    reg hrtc (by decide) (by decide : rRTC_CAL_DATE < 4096), reg hrtc (by decide) (by decide : rRTC_CAL_TIME < 4096),
    reg hsens (by decide) (by decide : rSENS_T_MAX < 4096), false_and, if_false, Bool.false_eq_true]

/-! ### The access commands -/

theorem exec_windowWrite (q : Requester) (a : BitVec 24) (wide : Bool) (be : BitVec 2) (v : BitVec 64) (t : Nat) (s : State) :
    exec (.windowWrite q a wide be v t) s = .next ((s.at t).windowWrite q a.toNat wide be v) := rfl

theorem exec_rcRead (q : Requester) (a : BitVec 24) (wide : Bool) (be : BitVec 8) (t : Nat) (s : State) :
    exec (.rcRead q a wide be t) s = .next ((s.at t).windowRead q a.toNat wide be) := rfl

theorem exec_wideLowHalfRead (q : Requester) (a : BitVec 24) (t : Nat) (s : State) :
    exec (.wideLowHalfRead q a t) s = .next ((s.at t).windowRead q (a.toNat / 8 * 8) false 0xFF) := rfl

theorem exec_wideLowHalfWrite (q : Requester) (a : BitVec 24) (v : BitVec 32) (s : State) :
    exec (.wideLowHalfWrite q a v) s = .next (s.write32 q (a.toNat / 8 * 8) v) := rfl

theorem exec_wideHighHalfWrite (q : Requester) (a : BitVec 24) (v : BitVec 32) (t : Nat) (s : State) :
    exec (.wideHighHalfWrite q a v t) s = .next ((s.at t).write32 q (a.toNat / 8 * 8 + 4) v) := rfl

/-! ### What each access does when it is taken -/

section
variable {a i : Nat} {p : Pg} (s : State) (q : Requester)

/-- The error-line enables take the bits of the page's causes (R61). -/
theorem State.write32_errEnable {v : Word32} (h : Machine.pageAt (a / 4096) = some (p, i)) (ho : a % 4096 = 0x018)
    (hl : (pageInfo p).errLine = true) (ht : s.takes q a v false) :
    s.write32 q a v = s.wr a (v &&& BitVec.ofNat 32 (pageInfo p).err) := by
  have ha : pa p i 0x018 = a := ho ▸ pa_of_pageAt h
  rw [State.write32_header s q v h (by omega), ho]
  simp [State.headerWrite, ha, State.guarded_of_takes ht, hl]

/-- The interrupt enables take the bits of the page's events, and a request that stands is raised again (R63, R666). -/
theorem State.write32_irqEnable {v : Word32} (h : Machine.pageAt (a / 4096) = some (p, i)) (ho : a % 4096 = 0x024)
    (ht : s.takes q a v false) :
    s.write32 q a v = (s.wr a (v &&& BitVec.ofNat 32 (pageInfo p).irq)).reraise p i := by
  have ha : pa p i 0x024 = a := ho ▸ pa_of_pageAt h
  rw [State.write32_header s q v h (by omega), ho]
  simp [State.headerWrite, ha, State.guarded_of_takes ht]

/-- A register of a plain block is written by its fields (R10, R11, R15). -/
theorem State.write32_plain {v : Word32} (h : Machine.pageAt (a / 4096) = some (p, i)) (ho : 0x040 ≤ a % 4096) (hw : isWide a = false)
    (hp : p.plain) (ht : s.takes q a v false) : s.write32 q a v = s.plain a (v.setWidth 64) := by
  rw [State.write32_block s q v h ho hw, State.blockWrite_plain s q v hp (eq_of_pageAt h).2, pa_of_pageAt h, State.plainWrite,
    State.guarded_of_takes ht]

/-- A low half waits in its writer's shadow (R57). -/
theorem State.write32_shadow {v : Word32} (h : Machine.pageAt (a / 4096) = some (p, i)) (ho : 0x040 ≤ a % 4096) (hw : isWide a = true)
    (h8 : a % 8 = 0) (ht : s.takes q a v (s.wideBad p i (a % 4096))) : s.write32 q a v = s.setShadow q a v := by
  rw [State.write32_lowHalf s q v h ho hw h8, State.lowHalfWrite, pa_of_pageAt h, State.guarded_of_takes ht]

/-- A high half commits the whole register, with the shadow of its low half (R57). -/
theorem State.write32_commit {v : Word32} (h : Machine.pageAt (a / 4096) = some (p, i)) (ho : 0x040 ≤ a % 4096) (hw : isWide (a + 4) = true)
    (h8 : a % 8 = 0) (ht : s.takes q (a + 4) v (s.wideBad p i (a % 4096))) :
    s.write32 q (a + 4) v = (s.dropShadow q (a + 4)).commit q p i (a % 4096) (s.commitValue q (a + 4) v) := by
  have h' : Machine.pageAt ((a + 4) / 4096) = some (p, i) := by rwa [show (a + 4) / 4096 = a / 4096 by omega]
  rw [State.write32_highHalf s q v h' (by omega) hw (by omega), State.highHalfWrite, pa_of_pageAt h',
    show (a + 4) % 4096 - 4 = a % 4096 by omega]
  exact State.guarded_of_takes ht

/-- In VOID the debug port reads 0, and nothing else happens (R50). -/
theorem State.windowRead_denied (be : BitVec 8) (h4 : a % 4 = 0) (hq : q = .debug) (hl : s.lcs = 4) :
    s.windowRead q a false be = { s with rdata := enabledBytes be 0 } := by
  simp only [State.windowRead_word s q be h4, State.readBy_denied _ hq hl]

/-- A word of a block read plainly: the read of R47 to R49, R56, with the bytes that are not enabled at 0. -/
theorem State.windowRead_plainly (be : BitVec 8) (h : Machine.pageAt (a / 4096) = some (p, i)) (h4 : a % 4 = 0)
    (hq : q ≠ .debug ∨ s.lcs ≠ 4) (hp : p.readsPlainly) :
    s.windowRead q a false be =
      let u := (if p = .ingest then s.ingRead a else s).read32 q a
      { u with rdata := enabledBytes be u.rdata } := by
  simp only [State.windowRead_word s q be h4, State.readBy_allowed _ hq, State.readWord_plainly s q h hp]

theorem State.read32_lowHalf (hw : isWide a = true) (h8 : a % 8 = 0) :
    s.read32 q a = ({ s.setLatch q a ((s.viewWide a).extractLsb' 32 32) with
      rdata := ((s.viewWide a).extractLsb' 0 32).setWidth 64 } : State).clearRc a := by
  simp [State.read32, hw, h8]

theorem State.read32_narrow (hw : isWide a = false) : s.read32 q a = ({ s with rdata := (s.view a).setWidth 64 } : State).clearRc a := by
  simp [State.read32, hw]

end

end Sys2Proof.Machine
end

section
/-! PROOFS. The statements about the reset state, the stores and the accesses by address. -/

namespace Sys2Proof.Machine

/-- Settles O4: every table of the state after reset is empty, so each key reads as an unlisted one, and no fuse is burnt. -/
theorem resetLeavesEverythingAtReset : Obligations.ResetLeavesEverythingAtReset := by
  unfold Obligations.ResetLeavesEverythingAtReset
  exact ⟨fun _ => rfl, fun _ _ => rfl, fun _ _ => rfl, fun _ => rfl, fun _ => rfl, fun _ => rfl, rfl, rfl⟩

/-- Settles O15: a store in flight is a store to its strand's data memory, which writes the digits of its value to the base 256 and leaves
every other byte, the registers and the strands alone. -/
theorem storesWriteTheirBytesAlone : Obligations.StoresWriteTheirBytesAlone := by
  unfold Obligations.StoresWriteTheirBytesAlone
  intro s n f a size v hf _ _
  rw [State.complete_dmemStore s n hf]
  exact ⟨fun i hi => State.byte_storeBytes_inside _ _ _ _ _ i hi, State.memOutside_storeBytes _ _ _ _ _, State.storeBytes_regs ..,
    State.storeBytes_strands ..⟩

/-- Settles O29: each access by address reaches its register's own write or read, which acts as the register's rule says when the access
is taken. -/
theorem windowAccesses : Obligations.WindowAccesses := by
  unfold Obligations.WindowAccesses
  intro s q a p i v t h h4 _
  have h8 (h : a.toNat % 8 = 0) : a.toNat / 8 * 8 = a.toNat := Nat.div_mul_cancel (Nat.dvd_of_mod_eq_zero h)
  dsimp only
  rw [pa_add, pa_of_pageAt h]
  simp only [exec_windowWrite, exec_rcRead, exec_wideLowHalfRead, exec_wideLowHalfWrite, exec_wideHighHalfWrite,
    State.windowWrite_word _ q v h4]
  refine ⟨fun ho hl ht => ?_, fun ho ht => ?_, fun ho hw hp ht => ?_, fun c hc => ?_, fun ho ha hw ht => ?_, fun ho ha hw ht => ?_,
    fun hq hl => ⟨?_, ?_⟩, fun hq hspl htrng hrtc hlay hsens hmdb ha hw => ?_, fun hq hspl htrng hrtc hlay hsens hmdb hw => ?_⟩
  · rw [State.write32_errEnable _ q h ho hl ht]
  · rw [State.write32_irqEnable _ q h ho ht]
  · rw [State.write32_plain _ q h ho hw hp ht]
  · rw [State.windowWrite_partial _ q v h4 hc]
  · rw [h8 ha, State.write32_shadow _ q h ho hw ha ht]
  · rw [h8 ha, State.write32_commit _ q h ho hw ha ht]
  · rw [State.windowRead_denied _ q _ (by omega) hq hl]
  · rw [State.windowRead_denied _ q _ h4 hq hl]
  · rw [h8 ha, State.windowRead_plainly _ q _ h h4 hq ⟨hspl, htrng, hrtc, hlay, hsens, hmdb⟩, State.read32_lowHalf _ q hw ha]
  · rw [State.windowRead_plainly _ q _ h h4 hq ⟨hspl, htrng, hrtc, hlay, hsens, hmdb⟩, State.read32_narrow _ q hw]

end Sys2Proof.Machine
end

section
/-! SUPPORT. Laws of the host's commands and of the tariff work of the field-service lay: what a command that is popped does and answers, and
what each stage of a distribution, a token's turn and a credit action does once its premises stand (R37, R282 to R291). -/

namespace Sys2Proof.Machine

/-! ### Host commands (R37, R282, R285) -/

/-- The owning lay applies a command it pops with its budget charged, and offers the completion with the command's CHAN and AUX. -/
theorem State.hostServe_of_popped {s u : State} {own : Nat → Bool} {ring reply : Nat} {c : Cell512} {gone : List Cell512}
    (act : State → List Nat × State) (h : s.hostMay own ring reply = true ∧ s.popMessage (6144 + ring) 4096 = (c :: gone, u)) :
    s.hostServe own ring reply act =
      (act (u.hostSpend ring reply)).2.offer (6144 + reply)
        (mkCompletion (cellChan c) (cellAux c) ((Config.hostWords (act (u.hostSpend ring reply)).1).map (·.toNat))) := by
  obtain ⟨hmay, hpop⟩ := h
  simp [State.hostServe, hmay, hpop]

theorem exec_hostCommand (ring reply : Fin 64) (order : HostOrder) (s : State) :
    exec (.hostCommand ring reply order) s = .next (s.hostServe (orderLay order) ring.val reply.val (fun s => s.hostOrder order)) := rfl

/-- What TARIFF_LOAD orders, done (R282): words of its completion and the state after. -/
def State.tariffOrder (s : State) (img : List Byte) : List Nat × State :=
  if s.progNewer img then ([1], { s.putProg img with rdata := 1 }) else ([0], { s with rdata := 0 })

theorem exec_tariffLoad (ring reply : Fin 64) (img : List (BitVec 8)) (s : State) :
    exec (.tariffLoad ring reply img) s = .next (s.hostServe fieldLay ring.val reply.val (fun s => s.tariffOrder img)) := rfl

/-- A meter made PENDING in a distribution (R285). -/
def State.joinDist (s : State) (i : Nat) (d : Dist) : State := (s.setField i (tarState (s.field i) d.prog 1 0)).setDist i (some d)

/-- Number m of n meters of a distribution: the first sends are spread over the window (R285). -/
def distAt (prog start len act n m : Nat) : Dist := ⟨prog, len, act, start + m * len / n, 0, none⟩

/-- What TARIFF_DISTRIBUTION orders, done (R285): words of its completion and the state after. -/
def State.distOrder (s : State) (prog : Nat) (meters : Option (List (BitVec 20))) (start len act : Nat) : List Nat × State :=
  if !s.domOn 10 || !s.domOn 14 || !s.progLoaded prog || decide (4096 < (meters.getD []).length) || decide (len < 60) || decide (604800 < len)
  then ([0], s)
  else
    let l := s.distMeters prog meters
    ([1], l.zipIdx.foldl (fun s m => s.joinDist m.1 (distAt prog start len act l.length m.2)) s)

theorem exec_tariffDistribution (ring reply prog : Fin 64) (meters : Option (List (BitVec 20))) (start : BitVec 48) (len : BitVec 20)
    (act : BitVec 48) (s : State) :
    exec (.tariffDistribution ring reply prog meters start len act) s =
      .next (s.hostServe fieldLay ring.val reply.val (fun s => s.distOrder prog.val meters start.toNat len.toNat act.toNat)) := rfl

/-- A distribution that names one VALID meter, in a window of 60 s to 7 days, sends to it at the window's start. -/
theorem State.distOrder_one {s : State} {prog i start len act : Nat} {meter : BitVec 20} (h10 : s.domOn 10 = true) (h14 : s.domOn 14 = true)
    (hp : s.progLoaded prog = true) (hlo : 60 ≤ len) (hhi : len ≤ 604800) (hm : s.distMeters prog (some [meter]) = [i]) :
    s.distOrder prog (some [meter]) start len act = ([1], s.joinDist i (distAt prog start len act 1 0)) := by
  simp [State.distOrder, h10, h14, hp, hm, Nat.not_lt.mpr hlo, Nat.not_lt.mpr hhi]

/-! ### Sends of a distribution (R285) -/

/-- Meter i's part d of a distribution is due to be sent. -/
def State.sendDue (s : State) (i : Nat) (d : Dist) : Prop :=
  s.work.dist.find? (fun e => e.1 = i) = some (i, d) ∧ d.sent = none ∧ d.due ≤ s.tsuTime.sec ∧ s.domOn 10 = true ∧ s.domOn 14 = true

/-- A part with one more try, sent at a time. -/
def Dist.triedAt (d : Dist) (sec : Nat) : Dist := { d with tries := d.tries + 1, sent := some sec }

/-- Meter i's calendar sent, and its part d, of the try now made, waiting for the answer. -/
def State.calendarSent (s : State) (i out : Nat) (d : Dist) : State :=
  ((s.setField i (patch (tarState (s.field i) d.prog 2 d.tries) 0x28 (toLe 8 s.tsuTime.sec))).toMeterAll i out
    (calendarRequests ((s.prog d.prog).getD []) d.act)).setDist i (some d)

/-- Meter i's part d confirmed: TAR_STATE names the programme with its VERSION, and the host is told. -/
def State.distConfirmed (s : State) (i : Nat) (d : Dist) (version ring : Nat) : State :=
  ((s.setField i (patch (s.field i) 0x20 (toLe 8 (d.prog + d.prog * 2 ^ 8 + 3 * 2 ^ 16 + d.tries * 2 ^ 20 + version * 2 ^ 32)))).setDist i
    none).tellHost ring (distOutcome i d.prog 3 0)

/-- Meter i's part d failed for a PDU size that holds no table, and the host told. -/
def State.distUnfit (s : State) (i : Nat) (d : Dist) (ring : Nat) : State :=
  ((s.setField i (tarState (s.field i) d.prog 4 d.tries)).setDist i none).tellHost ring (distOutcome i d.prog 4 1)

/-- What the meter's answer to the calendar makes of its part d: none waits for it, a failure ends the try, success confirms. -/
def State.calendarAnswered (s : State) (i out : Nat) (d : Dist) (ring : Nat) : Option Bool → State
  | none => s.calendarSent i out d
  | some false => (s.calendarSent i out d).tryFailed i d ring
  | some true => (s.calendarSent i out d).distConfirmed i d (leAt ((s.prog d.prog).getD []) 4 2) ring

/-- A part that is due fails where the meter's PDU size holds no table; else its calendar is sent, one try more. -/
theorem exec_tariffSend_of_due {s : State} {t : Nat} {meter : BitVec 20} {d : Dist} (h : (s.at t).sendDue meter.toNat d) (fits : Bool)
    (answer : Option Bool) (ring : Fin 64) (out : BitVec 13) :
    exec (.tariffSend meter fits answer ring out t) s =
      .next (if fits then (s.at t).calendarAnswered meter.toNat out.toNat (d.triedAt (s.at t).tsuTime.sec) ring.val answer
        else (s.at t).distUnfit meter.toNat d ring.val) := by
  obtain ⟨hfind, hsent, hdue, h10, h14⟩ := h
  change execTariffSend meter fits answer ring out t s = _
  simp only [execTariffSend, hfind, hsent, Nat.not_lt.mpr hdue, h10, h14, Option.isSome_none, decide_false, Bool.not_true,
    Bool.or_false, Bool.false_eq_true, if_false]
  cases fits with
  | false => simp only [Bool.not_false, if_true, State.distUnfit, Bool.false_eq_true, if_false]
  | true =>
    cases answer with
    | none => simp only [Bool.not_true, Bool.false_eq_true, if_false, if_true, State.calendarAnswered, State.calendarSent, Dist.triedAt]
    | some ok => cases ok <;> simp only [Bool.not_true, Bool.false_eq_true, if_false, if_true, State.calendarAnswered, State.calendarSent,
        State.distConfirmed, Dist.triedAt]

/-- A silence of 60 s ends the try. -/
theorem exec_tariffResponseTimeout_of_silence {s : State} {t t0 : Nat} {meter : BitVec 20} {d : Dist}
    (hfind : (s.at t).work.dist.find? (fun e => e.1 = meter.toNat) = some (meter.toNat, d)) (hsent : d.sent = some t0)
    (hlate : t0 + 60 ≤ (s.at t).tsuTime.sec) (h10 : (s.at t).domOn 10 = true) (h14 : (s.at t).domOn 14 = true) (ring : Fin 64) :
    exec (.tariffResponseTimeout meter ring t) s = .next ((s.at t).tryFailed meter.toNat d ring.val) := by
  change execTariffResponseTimeout meter ring t s = _
  simp [execTariffResponseTimeout, hfind, hsent, h10, h14, Nat.not_lt.mpr hlate]

/-! ### Switch lists (R284) -/

/-- An entry of a switch list: VALID, the rate less one and the time; 0 beyond the switches. -/
def switchWord : Option (Nat × Nat) → Word64
  | some x => BitVec.ofNat 64 (2 ^ 63 + (x.2 - 1) * 2 ^ 48 + x.1)
  | none => 0

/-- The switch list of point p filled with switches. -/
def State.putSwitches (s : State) (p : Nat) (l : List (Nat × Nat)) : State :=
  ((List.range 64).foldl (fun s e => s.setBk (totA rTOT_SW_DATA) (swKey p e) (switchWord l[e]?)) s).wr (totA rTOT_SW_SEL) (BitVec.ofNat 32 p)

theorem exec_switchListRefill_of_on {s : State} {t : Nat} (h1 : (s.at t).domOn 1 = true) (h2 : (s.at t).domOn 2 = true) (p : Fin 16) :
    exec (.switchListRefill p t) s = .next ((s.at t).putSwitches p.val ((s.at t).switches p.val (s.at t).tsuTime.sec)) := by
  change execSwitchListRefill p t s = _
  simp only [execSwitchListRefill, h1, h2, Bool.and_self, Bool.not_true, Bool.false_eq_true, if_false]
  rfl

/-! ### Tokens (R286 to R291) -/

/-- tok is the reading whose turn it is at meter i, in a state where the lay works. -/
def State.tokenDue (s : State) (i : Nat) (tok : Nat × (Nat × Bool)) : Prop :=
  s.nextToken i = some tok ∧ s.domOn 10 = true ∧ s.domOn 14 = true

/-- The readings of unknown meters told, and a reading taken from those that wait. -/
def State.takeToken (s : State) (ring : Nat) (tok : Nat × (Nat × Bool)) : State :=
  { s.reportUnknown ring with work := { (s.reportUnknown ring).work with tokens := (s.reportUnknown ring).work.tokens.erase tok } }

/-- A token of meter i redeemed, and its result told to the host. -/
def State.redeemTold (s : State) (i : Nat) (tok : Option Nat) (ring : Nat) : State :=
  (s.redeem i tok).2.2.tellHost ring [2, i, (s.redeem i tok).1]

/-- The credit action of an amount sent to meter i, and its result waited for (R290). -/
def State.creditSent (s : State) (i out pay : Nat) : State :=
  let v := s.toMeter i 1 out (pay :: (s.bytes .ddr (s.entryAddr i + 0x0E0) 9).map (·.toNat))
  { v with work := { v.work with credits := v.work.credits ++ [(i, (pay, v.tsuTime.sec))] } }

section
variable {s : State} {t : Nat} {meter : BitVec 20} {tok : Nat × (Nat × Bool)} {ring : Fin 64}
  (h : ((s.at t).reportUnknown ring.val).tokenDue meter.toNat tok) (strings : List (List (BitVec 8))) (out : BitVec 13)
include h

/-- A reading that failed one of the checks 1 to 3, or whose meter is not VALID, is told with code 9 (R288). -/
theorem exec_tokenRedeem_of_rejected
    (hbad : tok.2.2 = false ∨ ((s.at t).takeToken ring.val tok).meterValid meter.toNat = false) :
    exec (.tokenRedeem meter strings ring out t) s =
      .next (((s.at t).takeToken ring.val tok).tellHost ring.val [2, meter.toNat, 9]) := by
  obtain ⟨hnext, h10, h14⟩ := h
  change execTokenRedeem meter strings ring out t s = _
  unfold State.takeToken at hbad ⊢
  rcases hbad with hbad | hbad <;> simp [execTokenRedeem, hnext, h10, h14, hbad]

/-- A reading that passed is redeemed; where credit is due to the meter, the action is sent after the ledger is written and the outcome told. -/
theorem exec_tokenRedeem_of_passed (hok : tok.2.2 = true)
    (hvalid : ((s.at t).takeToken ring.val tok).meterValid meter.toNat = true) :
    exec (.tokenRedeem meter strings ring out t) s =
      .next ((((s.at t).takeToken ring.val tok).redeem meter.toNat (tokenOf strings)).2.1.elim
        (((s.at t).takeToken ring.val tok).redeemTold meter.toNat (tokenOf strings) ring.val)
        ((((s.at t).takeToken ring.val tok).redeemTold meter.toNat (tokenOf strings) ring.val).creditSent meter.toNat out.toNat)) := by
  obtain ⟨hnext, h10, h14⟩ := h
  change execTokenRedeem meter strings ring out t s = _
  unfold State.takeToken at hvalid ⊢
  simp only [execTokenRedeem, hnext, h10, h14, hok, hvalid, Bool.not_true, Bool.or_self, Bool.false_eq_true, if_false]
  split
  case h_1 hpay => rw [hpay]; rfl
  case h_2 pay hpay => rw [hpay]; rfl

end

/-- The oldest credit action of a meter ends with its result or after a silence of 60 s, and the host is told (R290). -/
theorem exec_creditActionTimeout_of_ended {s : State} {t t0 pay : Nat} {meter : BitVec 20}
    (hfind : (s.at t).work.credits.find? (fun e => e.1 = meter.toNat) = some (meter.toNat, (pay, t0))) {result : Option (BitVec 8)}
    (hend : result.isSome = true ∨ t0 + 60 ≤ (s.at t).tsuTime.sec) (ring : Fin 64) :
    exec (.creditActionTimeout meter result ring t) s =
      .next (({ s.at t with work := { (s.at t).work with credits := (s.at t).work.credits.erase (meter.toNat, (pay, t0)) } } : State).tellHost
        ring.val (3 :: meter.toNat :: pay :: result.toList.map BitVec.toNat)) := by
  have hgo : ¬ (result.isNone = true ∧ (s.at t).tsuTime.sec < t0 + 60) := by
    rintro ⟨hnone, hearly⟩
    rcases hend with hsome | hlate
    · simp [Option.isNone_iff_eq_none.mp hnone] at hsome
    · omega
  change execCreditActionTimeout meter result ring t s = _
  simp only [execCreditActionTimeout, hfind, if_neg hgo]

end Sys2Proof.Machine
end

section
/-! PROOFS. The statement about tariff programmes, distributions, tokens and the host's commands. -/

namespace Sys2Proof.Machine

/-- Settles O43: a command of the host that the owning lay pops takes effect with its completion, and each stage of the tariff work has the
outcome of its rule. That field service is lay 7's, and how a completion's words tell an outcome, are the model's choices (log entries 19
and 34). -/
theorem tariffCommands : Obligations.TariffCommands := by
  unfold Obligations.TariffCommands
  intro s u t img p n meter act start len ring reply out d t0 strings res pay c gone tok order
  dsimp only
  refine ⟨fun hp => ⟨fun hnew => ?_, fun hold => ?_, fun h10 h14 hprog hlo hhi hmeter => ?_⟩, fun hp => ?_,
    fun h1 h2 => exec_switchListRefill_of_on h1 h2 p, fun hd => ?_, fun hd => ?_, fun hd => ?_, fun hd => ?_,
    fun hfind hsent hlate h10 h14 => exec_tariffResponseTimeout_of_silence hfind hsent hlate h10 h14 ring,
    fun hd hbad => exec_tokenRedeem_of_rejected hd strings out hbad, fun hd hok hvalid hpay => ?_, fun hd hok hvalid hpay => ?_,
    fun hfind => ⟨exec_creditActionTimeout_of_ended hfind (.inl rfl) ring,
      fun hlate => exec_creditActionTimeout_of_ended hfind (.inr hlate) ring⟩⟩
  · rw [exec_tariffLoad, State.hostServe_of_popped _ hp, State.tariffOrder, if_pos hnew]
  · rw [exec_tariffLoad, State.hostServe_of_popped _ hp, State.tariffOrder, if_neg (by simp [hold])]
  · rw [exec_tariffDistribution, State.hostServe_of_popped _ hp, State.distOrder_one h10 h14 hprog hlo hhi hmeter]
    rfl
  · rw [exec_hostCommand, State.hostServe_of_popped _ hp]
  · rw [exec_tariffSend_of_due hd, if_pos rfl, State.calendarAnswered, State.calendarSent, Dist.triedAt]
  · rw [exec_tariffSend_of_due hd, if_pos rfl, State.calendarAnswered, State.calendarSent, Dist.triedAt]
  · rw [exec_tariffSend_of_due hd, if_pos rfl, State.calendarAnswered, State.distConfirmed, State.calendarSent, Dist.triedAt]
  · rw [exec_tariffSend_of_due hd, if_neg Bool.false_ne_true, State.distUnfit]
  · refine (exec_tokenRedeem_of_passed hd strings out hok hvalid).trans ?_
    rw [State.takeToken, hpay]
    rfl
  · refine (exec_tokenRedeem_of_passed hd strings out hok hvalid).trans ?_
    rw [State.takeToken, hpay]
    rfl

end Sys2Proof.Machine
end

section
/-! SUPPORT. Laws of a refusal's record (R52, R63, R71): the registers it writes, and what it leaves alone. -/

namespace Sys2Proof.Machine

/-- A window word read after a write of one. -/
theorem State.rd_wr (s : State) (a b : Nat) (v : Word32) : (s.wr a v).rd b = if b = a then v else s.rd b :=
  look_store regReset s.regs b a v

theorem State.rd_putBit_other (s : State) {a b : Nat} (i : Nat) (x : Bool) (h : b ≠ a) : (s.putBit a i x).rd b = s.rd b := by
  rw [State.putBit, State.putF, State.rd_wr, if_neg h]

/-- A bit set reads 1. -/
theorem State.bit_rd_putBit_true (s : State) (a : Nat) {i : Nat} (h : i < 32) : bit ((s.putBit a i true).rd a) i = true := by
  rw [State.putBit, State.putF, State.rd_wr, if_pos rfl, bit, putBits, BitVec.getLsbD_or, BitVec.getLsbD_ofNat, Nat.add_sub_cancel_left]
  simp [h, Nat.testBit_two_pow_self]

/-! ### What an interrupt event writes (R63) -/

theorem State.fire_eq (s : State) (v : Nat) : s.fire v = { s with msix := (s.fire v).msix } := by
  unfold State.fire
  split <;> rfl

/-- An event sets its bit; beside that only a message can come due. -/
theorem State.irq_eq (s : State) (p : Pg) (inst i : Nat) :
    s.irq p inst i = { s.putBit (pa p inst 0x020) i true with msix := (s.irq p inst i).msix } := by
  unfold State.irq
  dsimp only
  split
  · rfl
  · split
    · rfl
    · split
      · rfl
      · exact State.fire_eq _ _

theorem State.irq_rd (s : State) (p : Pg) (inst i b : Nat) :
    (s.irq p inst i).rd b = (s.putBit (pa p inst 0x020) i true).rd b := by
  rw [State.irq_eq]
  rfl

/-- t differs from s in window registers and messages due at most. -/
def State.sameButRegs (s t : State) : Prop := t = { s with regs := t.regs, msix := t.msix }

theorem State.sameButRegs.refl (s : State) : s.sameButRegs s := rfl

section
variable {s t : State} (h : s.sameButRegs t)
include h

theorem State.sameButRegs.wr (a : Nat) (v : Word32) : s.sameButRegs (t.wr a v) := by
  unfold State.sameButRegs at h ⊢
  exact congrArg (fun u : State => { u with regs := Machine.store regReset t.regs a v }) h

theorem State.sameButRegs.setMsix (m : Msix) : s.sameButRegs { t with msix := m } := by
  unfold State.sameButRegs at h ⊢
  exact congrArg (fun u : State => { u with msix := m }) h

theorem State.sameButRegs.irq (p : Pg) (inst i : Nat) : s.sameButRegs (t.irq p inst i) := by
  rw [State.irq_eq]
  exact (h.wr _ _).setMsix _

/-- The memories, the selected registers, the strands, the lays, the splices and the shadows are then the same. -/
theorem State.sameButRegs.frame : t.mem = s.mem ∧ t.bank = s.bank ∧ t.strands = s.strands ∧ t.lays = s.lays ∧
    t.splices = s.splices ∧ t.shadow = s.shadow := by
  unfold State.sameButRegs at h
  rw [h]
  exact ⟨rfl, rfl, rfl, rfl, rfl, rfl⟩

end

/-! ### What a refusal writes (R52, R71) -/

/-- A refusal writes registers, and a message may come due with it. -/
theorem State.sameButRegs_refuse (s : State) (q : Requester) (a cause : Nat) : s.sameButRegs (s.refuse q a cause) :=
  (((State.sameButRegs.refl s).wr _ _).wr _ _).irq _ _ _

/-- A refusal changes no register but its own three. -/
theorem State.refuse_rd_other (s : State) (q : Requester) (a cause : Nat) {b : Nat} (hacc : b ≠ pa .chip 0 rCHIP_ACC)
    (hcount : b ≠ pa .chip 0 rCHIP_ACC_COUNT) (hirq : b ≠ pa .chip 0 0x020) : (s.refuse q a cause).rd b = s.rd b := by
  rw [State.refuse, State.irq_rd, State.rd_putBit_other _ _ _ hirq, State.bump, State.rd_wr, if_neg hcount, State.rd_wr,
    if_neg hacc]

/-- A refusal is counted, up to 0xFFFF_FFFF (R71). -/
theorem State.refuse_rd_count (s : State) (q : Requester) (a cause : Nat) :
    (s.refuse q a cause).rd (pa .chip 0 rCHIP_ACC_COUNT) =
      BitVec.ofNat 32 (min (2 ^ 32 - 1) ((s.rd (pa .chip 0 rCHIP_ACC_COUNT)).toNat + 1)) := by
  rw [State.refuse, State.irq_rd, State.rd_putBit_other _ _ _ (by decide), State.bump, State.rd_wr, if_pos rfl, State.rd_wr,
    if_neg (by decide), satAdd]

/-- A refusal is the REFUSED event (R71). -/
theorem State.refuse_rd_irq (s : State) (q : Requester) (a cause : Nat) :
    bit ((s.refuse q a cause).rd (pa .chip 0 0x020)) 0 = true := by
  rw [State.refuse, State.irq_rd]
  exact State.bit_rd_putBit_true _ _ (by decide)

end Sys2Proof.Machine
end

section
/-! SUPPORT. Laws of the page-header commands (R62 to R66): the header write each of them is, and what a write of BLK_CTRL, BLK_ERR_INJ,
BLK_IRQ_SET, BLK_LOCK or BLK_OWNER does when it is taken. -/

namespace Sys2Proof.Machine

/-! ### The header write that a command is -/

section
variable {page : BitVec 12} {p : Pg} {i : Nat} (h : Machine.pageAt page.toNat = some (p, i)) (s : State) (q : Requester)
include h

/-- The address of a page's register by its index. -/
theorem pageAddr_eq_pa (o : Nat) : page.toNat * 4096 + o = pa p i o := by
  rw [(eq_of_pageAt h).1, pa]

theorem State.write32_pageHeader {o : Nat} (v : Word32) (ho : o < 0x040) :
    s.write32 q (page.toNat * 4096 + o) v = s.headerWrite q p i o v := by
  have hdiv : (page.toNat * 4096 + o) / 4096 = page.toNat := by omega
  have hmod : (page.toNat * 4096 + o) % 4096 = o := by omega
  rw [State.write32_header s q v (by rwa [hdiv]) (by rwa [hmod]), hmod]

theorem State.ctrlKept_eq : s.ctrlKept page = s.rd (pa p i 0x00C) := by
  rw [State.ctrlKept, pageAddr_eq_pa h]

theorem exec_lockRequest : exec (.lockRequest q page) s = .next (s.blkCtrl q p i (s.rd (pa p i 0x00C) &&& 1 ||| 4)) := by
  rw [← State.ctrlKept_eq h]
  exact congrArg _ (State.write32_pageHeader h s q _ (by decide))

theorem exec_lockRelease : exec (.lockRelease q page) s = .next (s.blkCtrl q p i (s.rd (pa p i 0x00C) &&& 1)) := by
  rw [← State.ctrlKept_eq h]
  exact congrArg _ (State.write32_pageHeader h s q _ (by decide))

theorem exec_softReset : exec (.softReset q page) s = .next (s.blkCtrl q p i (s.rd (pa p i 0x00C) &&& 5 ||| 2)) := by
  rw [← State.ctrlKept_eq h]
  exact congrArg _ (State.write32_pageHeader h s q _ (by decide))

theorem exec_lockStickySet : exec (.lockStickySet q page) s = .next (s.stickyWrite q p i 0x40000000) :=
  congrArg _ (State.write32_pageHeader h s q _ (by decide))

theorem exec_pageClaim (tag : BitVec 16) :
    exec (.pageClaim q page tag) s = .next (s.ownerWrite q p i (BitVec.ofNat 32 (2 ^ 31 + tag.toNat))) :=
  congrArg _ (State.write32_pageHeader h s q _ (by decide))

theorem exec_pageClaimRelease : exec (.pageClaimRelease q page) s = .next (s.ownerWrite q p i 0) :=
  congrArg _ (State.write32_pageHeader h s q _ (by decide))

theorem exec_irqSet (v : BitVec 32) : exec (.irqSet q page v) s = .next (s.irqSet q p i v) :=
  congrArg _ (State.write32_pageHeader h s q _ (by decide))

theorem exec_errorInjectArm (v : BitVec 32) : exec (.errorInjectArm q page v) s = .next (s.injArm q p i v) :=
  congrArg _ (State.write32_pageHeader h s q _ (by decide))

/-- A soft reset ends in a domain that is on (R64). -/
theorem exec_softResetDone (ok : Bool) (hd : s.domOn (pageDomain p i) = true) :
    exec (.softResetDone page ok) s = .next (s.srstDone p i ok) := by
  change execSoftResetDone page ok s = _
  simp only [execSoftResetDone, h, hd, if_true]

end

/-! ### What each header write does when it is taken -/

section
variable {s : State} {q : Requester} {p : Pg} {i : Nat} {v : Word32}

/-- Of a locked page's BLK_CTRL only LOCK_REQ takes effect: a write that is taken releases the lock (R65). -/
theorem State.blkCtrl_of_locked (hl : s.locked (pa p i 0x00C) = true)
    (ht : s.takes q (pa p i 0x00C) v (s.enBad p i (bit v 0) || (bit v 1 && s.srstBad p i))) :
    s.blkCtrl q p i v = s.freeLock (pa p i 0x00C) := by
  rw [State.blkCtrl, State.guarded_of_takes ht, if_pos hl]

/-- A write of an unlocked page's BLK_CTRL: EN, then LOCK_REQ, then SRST (R58, R64, R65); TRNG's EN draws the outcome of its tests. -/
theorem State.blkCtrl_of_unlocked (hp : p ≠ .trng) (hl : s.locked (pa p i 0x00C) = false)
    (ht : s.takes q (pa p i 0x00C) v (s.enBad p i (bit v 0) || (bit v 1 && s.srstBad p i))) :
    s.blkCtrl q p i v =
      let u := s.enEffect q p i v false
      let u := if bit v 2 then u.takeLock q (pa p i 0x00C) else u
      if bit v 1 then u.srstStart p i else u := by
  rw [State.blkCtrl, State.guarded_of_takes ht, if_neg (by simp [hl]), if_neg hp]
  rfl

/-- A soft reset in progress ends with BLK_STAT.SRST_BUSY cleared (R64). -/
theorem State.srstDone_of_busy (ok : Bool) (hp : p ≠ .trng) (hb : s.srstBusy (pa p i 0) = true) :
    s.srstDone p i ok = s.putBit (pa p i 0x010) 1 false := by
  simp only [State.srstDone, hb, Bool.not_true, Bool.false_eq_true, if_false, if_neg hp]

theorem State.stickyWrite_of_takes (hv : bit v 30 = true) (ht : s.takes q (pa p i 0x02C) v false) :
    s.stickyWrite q p i v = s.putBit (pa p i 0x02C) 30 true := by
  rw [State.stickyWrite, State.guarded_of_takes ht, if_pos hv]

/-- A write of BLK_OWNER of a host's page claims it or gives it back (R66). -/
theorem State.ownerWrite_of_takes (ho : (pageInfo p).owner = .h) (ht : s.takes q (pa p i 0x030) v false) :
    s.ownerWrite q p i v = if bit v 31 then s.claim q (pa p i 0x030) (bits v 15 0) else s.wr (pa p i 0x030) 0 := by
  rw [State.ownerWrite, State.guarded_of_takes ht, if_neg (by simp [ho])]

theorem State.irqSet_of_takes (ht : s.takes q (pa p i 0x028) v false) :
    s.irqSet q p i v =
      (s.wr (pa p i 0x020) (s.rd (pa p i 0x020) ||| (v &&& BitVec.ofNat 32 (pageInfo p).irq))).reraise p i := by
  rw [State.irqSet, State.guarded_of_takes ht]

theorem State.injArm_of_takes (hi : (pageInfo p).inj = true) (ht : s.takes q (pa p i 0x01C) v false) :
    s.injArm q p i v = s.wr (pa p i 0x01C) (v &&& BitVec.ofNat 32 ((pageInfo p).injMask ||| 2 ^ 31)) := by
  rw [State.injArm, State.guarded_of_takes ht, if_pos hi]

end

/-! ### The words the commands write -/

/-- The word of LOCK_REQUEST repeats EN, without SRST. -/
theorem bit_lockRequest (c : Word32) :
    bit (c &&& 1 ||| 4) 0 = bit c 0 ∧ bit (c &&& 1 ||| 4) 1 = false ∧ bit (c &&& 1 ||| 4) 2 = true := by
  simp [bit]

theorem bit_lockRelease (c : Word32) : bit (c &&& 1) 0 = bit c 0 ∧ bit (c &&& 1) 1 = false := by
  simp [bit]

/-- The word of SOFT_RESET repeats EN and LOCK_REQ. -/
theorem bit_softReset (c : Word32) :
    bit (c &&& 5 ||| 2) 0 = bit c 0 ∧ bit (c &&& 5 ||| 2) 1 = true ∧ bit (c &&& 5 ||| 2) 2 = bit c 2 := by
  simp [bit]

/-- The word of PAGE_CLAIM is a claim with its tag. -/
theorem pageClaim_word (tag : BitVec 16) :
    bit (BitVec.ofNat 32 (2 ^ 31 + tag.toNat)) 31 = true ∧ bits (BitVec.ofNat 32 (2 ^ 31 + tag.toNat)) 15 0 = tag.toNat := by
  have htag := tag.isLt
  constructor
  · rw [bit, BitVec.getLsbD_ofNat, Nat.testBit_two_pow_add_eq, Nat.testBit_lt_two_pow (by omega)]
    rfl
  · simp only [bits, nbits, BitVec.toNat_ofNat]
    omega

end Sys2Proof.Machine
end

section
/-! PROOFS. The statements about the page-header commands and about refused writes. -/

namespace Sys2Proof.Machine

/-- Settles O30: a command whose write is refused is the refusal's record, which is CHIP_ACC, CHIP_ACC_COUNT and the REFUSED event. -/
theorem refusedWritesChangeNothingElse : Obligations.RefusedWritesChangeNothingElse := by
  unfold Obligations.RefusedWritesChangeNothingElse
  intro s q page p i v c lay n
  refine ⟨fun h hc => ?_, fun hc => congrArg _ (State.guarded_of_refused hc), fun hc => congrArg _ (State.guarded_of_refused hc), ?_⟩
  · rw [exec_irqSet h, State.irqSet, State.guarded_of_refused hc]
  · obtain ⟨hmem, hbank, hstrands, hlays, hsplices, hshadow⟩ := (s.sameButRegs_refuse q (pa p i 0x028) c).frame
    exact ⟨hmem, hbank, hstrands, hlays, hsplices, hshadow, fun b hacc hcount hirq => s.refuse_rd_other q _ c hacc hcount hirq,
      s.refuse_rd_count q _ c, s.refuse_rd_irq q _ c⟩

/-- Settles O28: each page-header command is its header write, which does what its rule says when it is taken. That the words of the lock
and soft-reset commands repeat BLK_CTRL's other bits is the model's reading (log entry 31). -/
theorem pageHeaderCommands : Obligations.PageHeaderCommands := by
  unfold Obligations.PageHeaderCommands
  intro s q page p i tag v h
  dsimp only
  refine ⟨fun hp hl ht => ?_, fun hl ht => ?_, fun ht => ?_, fun hp hl h2 ht => ?_, fun hp hd hb => ?_, fun ho ht => ?_, fun ho ht => ?_,
    fun ht => ?_, fun hi ht => ?_⟩
  · obtain ⟨hen, hsrst, hlock⟩ := bit_lockRequest (s.rd (pa p i 0x00C))
    rw [exec_lockRequest h, State.blkCtrl_of_unlocked hp hl (by rw [hen, hsrst]; simpa using ht)]
    simp only [hsrst, hlock, if_true, Bool.false_eq_true, if_false]
  · obtain ⟨hen, hsrst⟩ := bit_lockRelease (s.rd (pa p i 0x00C))
    rw [exec_lockRelease h, State.blkCtrl_of_locked hl (by rw [hen, hsrst]; simpa using ht), State.freeLock]
  · rw [exec_lockStickySet h, State.stickyWrite_of_takes (by decide) ht]
  · obtain ⟨hen, hsrst, hlock⟩ := bit_softReset (s.rd (pa p i 0x00C))
    rw [exec_softReset h, State.blkCtrl_of_unlocked hp hl (by rw [hen, hsrst]; simpa using ht)]
    simp only [hsrst, hlock, h2, if_true, Bool.false_eq_true, if_false]
  · rw [exec_softResetDone h s true hd, State.srstDone_of_busy true hp hb]
  · obtain ⟨hclaim, htag⟩ := pageClaim_word tag
    rw [exec_pageClaim h, State.ownerWrite_of_takes ho ht, if_pos hclaim, State.claim, htag, Nat.mod_eq_of_lt tag.isLt]
  · rw [exec_pageClaimRelease h, State.ownerWrite_of_takes ho ht, if_neg (by decide)]
  · rw [exec_irqSet h, State.irqSet_of_takes ht]
  · rw [exec_errorInjectArm h, State.injArm_of_takes hi ht]

end Sys2Proof.Machine
end

section
/-! SUPPORT. Laws of the slot words (R83, R84): a word is its guard, its opcode and its 22 operand bits, and each format's operand bits are
its fields. -/

namespace Sys2Proof.Machine

/-! ### Fields of a word -/

/-- A range of bits is two fields side by side if each field is its part of the range. -/
theorem extractLsb'_eq_append_iff {l s n m : Nat} {w : BitVec l} {a : BitVec n} {b : BitVec m} :
    w.extractLsb' s (n + m) = a ++ b ↔ w.extractLsb' (s + m) n = a ∧ w.extractLsb' s m = b := by
  constructor
  · intro h
    constructor
    · rw [← BitVec.extractLsb'_append_eq_left (a := a) (b := b), ← h]
      ext i hi
      simp [Nat.add_assoc]
      omega
    · rw [← BitVec.extractLsb'_append_eq_right (a := a) (b := b), ← h]
      ext i hi
      simp
      omega
  · rintro ⟨rfl, rfl⟩
    rw [BitVec.extractLsb'_append_extractLsb'_eq_extractLsb' rfl]

theorem extractLsb'_eq_ofBool_iff {l i : Nat} {w : BitVec l} {b : Bool} :
    w.extractLsb' i 1 = BitVec.ofBool b ↔ w.getLsbD i = b := by
  constructor
  · intro h
    simpa using congrArg (BitVec.getLsbD · 0) h
  · rintro rfl
    ext j hj
    obtain rfl : j = 0 := by omega
    simp

section
variable {w : BitVec 32} {x : Issue}

/-- The guard fields of a word are those of the issue it names (R83). -/
theorem guard_iff : w.getLsbD 31 = x.neg ∧ w.extractLsb' 28 3 = BitVec.ofFin x.gp ↔ slotIssue x.lay x.strand w = x := by
  obtain ⟨lay, strand, neg, gp⟩ := x
  simp only [slotIssue, Issue.mk.injEq, true_and, ← BitVec.toFin_inj]

theorem slotWord_eq_iff {op : Nat} {f : BitVec 22} : slotWord x op f = w ↔
    slotIssue x.lay x.strand w = x ∧ (w.extractLsb' 22 6).toNat = op % 64 ∧ w.extractLsb' 0 22 = f := by
  have h : slotWord x op f = w ↔ w.extractLsb' 0 (1 + 3 + 6 + 22) =
      BitVec.ofBool x.neg ++ (BitVec.ofFin x.gp : BitVec 3) ++ BitVec.ofNat 6 op ++ f := by
    rw [show w.extractLsb' 0 (1 + 3 + 6 + 22) = w from BitVec.extractLsb'_eq_self, eq_comm]
    rfl
  rw [h, ← guard_iff, show (w.extractLsb' 22 6).toNat = op % 64 ↔ w.extractLsb' 22 6 = BitVec.ofNat 6 op by
    rw [← BitVec.toNat_inj, BitVec.toNat_ofNat]]
  simp only [extractLsb'_eq_append_iff, extractLsb'_eq_ofBool_iff, and_assoc, Nat.zero_add]

/-- The word of a NOP (R83). -/
theorem nopWord_eq_iff {v : BitVec 28} : BitVec.ofBool x.neg ++ (BitVec.ofFin x.gp : BitVec 3) ++ v = w ↔
    slotIssue x.lay x.strand w = x ∧ w.extractLsb' 0 28 = v := by
  have h : BitVec.ofBool x.neg ++ (BitVec.ofFin x.gp : BitVec 3) ++ v = w ↔
      w.extractLsb' 0 (1 + 3 + 28) = BitVec.ofBool x.neg ++ (BitVec.ofFin x.gp : BitVec 3) ++ v := by
    rw [show w.extractLsb' 0 (1 + 3 + 28) = w from BitVec.extractLsb'_eq_self, eq_comm]
  rw [h, ← guard_iff]
  simp only [extractLsb'_eq_append_iff, extractLsb'_eq_ofBool_iff, and_assoc, Nat.zero_add]

/-! ### The operand formats (R84) -/

@[simp] theorem eq_regF_iff {d a b : BitVec 6} {z : BitVec 4} : w.extractLsb' 0 22 = regF d a b z ↔
    w.extractLsb' 16 6 = d ∧ w.extractLsb' 10 6 = a ∧ w.extractLsb' 4 6 = b ∧ w.extractLsb' 0 4 = z := by
  change w.extractLsb' 0 (6 + 6 + 6 + 4) = d ++ a ++ b ++ z ↔ _
  simp only [extractLsb'_eq_append_iff, and_assoc]

@[simp] theorem eq_immF_iff {d a : BitVec 6} {imm : BitVec 10} : w.extractLsb' 0 22 = immF d a imm ↔
    w.extractLsb' 16 6 = d ∧ w.extractLsb' 10 6 = a ∧ w.extractLsb' 0 10 = imm := by
  change w.extractLsb' 0 (6 + 6 + 10) = d ++ a ++ imm ↔ _
  simp only [extractLsb'_eq_append_iff, and_assoc]

@[simp] theorem eq_k16F_iff {d : BitVec 6} {imm : BitVec 16} : w.extractLsb' 0 22 = k16F d imm ↔
    w.extractLsb' 16 6 = d ∧ w.extractLsb' 0 16 = imm :=
  extractLsb'_eq_append_iff (n := 6) (m := 16)

@[simp] theorem eq_plogF_iff {pd p1 p2 : BitVec 3} : w.extractLsb' 0 22 = plogF pd p1 p2 ↔
    w.extractLsb' 19 3 = 0 ∧ w.extractLsb' 16 3 = pd ∧ w.extractLsb' 13 3 = 0 ∧ w.extractLsb' 10 3 = p1 ∧
      w.extractLsb' 7 3 = 0 ∧ w.extractLsb' 4 3 = p2 ∧ w.extractLsb' 0 4 = 0 := by
  change w.extractLsb' 0 (3 + 3 + 3 + 3 + 3 + 3 + 4) =
    (0 : BitVec 3) ++ pd ++ (0 : BitVec 3) ++ p1 ++ (0 : BitVec 3) ++ p2 ++ (0 : BitVec 4) ↔ _
  simp only [extractLsb'_eq_append_iff, and_assoc]

@[simp] theorem eq_splF_iff {oct pd : BitVec 3} {n : BitVec 13} : w.extractLsb' 0 22 = splF oct pd n ↔
    w.extractLsb' 19 3 = oct ∧ w.extractLsb' 16 3 = pd ∧ w.extractLsb' 13 3 = 0 ∧ w.extractLsb' 0 13 = n := by
  change w.extractLsb' 0 (3 + 3 + 3 + 13) = oct ++ pd ++ (0 : BitVec 3) ++ n ↔ _
  simp only [extractLsb'_eq_append_iff, and_assoc]

@[simp] theorem eq_keyF_iff {d a b : BitVec 6} {k : BitVec 2} : w.extractLsb' 0 22 = keyF d a b k ↔
    w.extractLsb' 16 6 = d ∧ w.extractLsb' 10 6 = a ∧ w.extractLsb' 4 6 = b ∧ w.extractLsb' 2 2 = 0 ∧
      w.extractLsb' 0 2 = k := by
  change w.extractLsb' 0 (6 + 6 + 6 + 2 + 2) = d ++ a ++ b ++ (0 : BitVec 2) ++ k ↔ _
  simp only [extractLsb'_eq_append_iff, and_assoc]

/-- The operand bits of BR. -/
@[simp] theorem eq_target_iff {t : BitVec 13} : w.extractLsb' 0 22 = 0#9 ++ t ↔
    w.extractLsb' 13 9 = 0 ∧ w.extractLsb' 0 13 = t :=
  extractLsb'_eq_append_iff (n := 9) (m := 13)

/-- The operand bits of BRL. -/
@[simp] theorem eq_linkTarget_iff {d : BitVec 6} {t : BitVec 13} : w.extractLsb' 0 22 = d ++ 0#3 ++ t ↔
    w.extractLsb' 16 6 = d ∧ w.extractLsb' 13 3 = 0#3 ∧ w.extractLsb' 0 13 = t := by
  change w.extractLsb' 0 (6 + 3 + 13) = d ++ 0#3 ++ t ↔ _
  simp only [extractLsb'_eq_append_iff, and_assoc]

/-! ### The fields that are narrower than their place (R84) -/

@[simp] theorem eq_pdF_iff {pd : BitVec 3} : w.extractLsb' 16 6 = pdF pd ↔
    w.extractLsb' 19 3 = 0 ∧ w.extractLsb' 16 3 = pd :=
  extractLsb'_eq_append_iff (n := 3) (m := 3)

@[simp] theorem eq_octF_iff {oct : BitVec 3} : w.extractLsb' 16 6 = octF oct ↔
    w.extractLsb' 19 3 = oct ∧ w.extractLsb' 16 3 = 0 :=
  extractLsb'_eq_append_iff (n := 3) (m := 3)

@[simp] theorem eq_shF_iff {n : BitVec 6} : w.extractLsb' 0 10 = shF n ↔
    w.extractLsb' 6 4 = 0 ∧ w.extractLsb' 0 6 = n :=
  extractLsb'_eq_append_iff (n := 4) (m := 6)

@[simp] theorem eq_cntF_iff {n : BitVec 3} : w.extractLsb' 0 4 = cntF n ↔ w.getLsbD 3 = false ∧ w.extractLsb' 0 3 = n :=
  (extractLsb'_eq_append_iff (n := 1) (m := 3)).trans (and_congr_left' (extractLsb'_eq_ofBool_iff (b := false)))

/-! ### From an operation to its word and back -/

/-- BSWAP's sub-field X. -/
theorem eq_ofNat_iff {m : Fin 3} : w.extractLsb' 0 4 = BitVec.ofNat 4 m.val ↔ (w.extractLsb' 0 4).toNat = m.val := by
  rw [← BitVec.toNat_inj, BitVec.toNat_ofNat, Nat.mod_eq_of_lt (by omega)]

section
variable {i : Instr} (hx : slotIssue x.lay x.strand w = x)
include hx

theorem exists_decodeSlot_alu {b : Bool} (h : decodeAlu b x w = some i) :
    ∃ lay strand, decodeSlot (aluSlot b) lay strand w = i := by
  refine ⟨x.lay, x.strand, ?_⟩
  cases b <;> simp [decodeSlot, aluSlot, hx, h]

theorem exists_decodeSlot_a (hboth : decodeAlu false x w = none) (h : decodeA x w = some i) :
    ∃ lay strand, decodeSlot .a lay strand w = i := by
  refine ⟨x.lay, x.strand, ?_⟩
  simp [decodeSlot, hx, hboth, h]

theorem exists_decodeSlot_b (hboth : decodeAlu true x w = none) (h : decodeB x w = some i) :
    ∃ lay strand, decodeSlot .b lay strand w = i := by
  refine ⟨x.lay, x.strand, ?_⟩
  simp [decodeSlot, hx, hboth, h]

theorem exists_decodeSlot_mem (h : decodeMem x w = some i) : ∃ lay strand, decodeSlot .mem lay strand w = i := by
  refine ⟨x.lay, x.strand, ?_⟩
  simp [decodeSlot, hx, h]

theorem exists_decodeSlot_xu (h : decodeXu x w = some i) : ∃ lay strand, decodeSlot .xu lay strand w = i := by
  refine ⟨x.lay, x.strand, ?_⟩
  simp [decodeSlot, hx, h]

/-- The word of zeros after its guard is the NOP of every slot (R83). -/
theorem exists_decodeSlot_nop {u : Slot} (hw : w.extractLsb' 0 28 = 0) :
    ∃ lay strand, decodeSlot u lay strand w = .nop x u 0 := by
  have hop : (w.extractLsb' 22 6).toNat = 0 := by
    rw [((extractLsb'_eq_append_iff (n := 6) (m := 22) (a := 0) (b := 0)).mp hw).1]
    rfl
  refine ⟨x.lay, x.strand, ?_⟩
  cases u <;> simp [decodeSlot, decodeAlu, decodeA, decodeB, decodeMem, decodeXu, hx, hop, reserved, hw]

end

/-- Whatever a decoder answers, its slot and word are these. -/
def Encodes (u : Slot) (w : BitVec 32) (o : Option Instr) : Prop := ∀ i, o = some i → encodeSlot i = some (u, w)

section
variable {u : Slot}

@[simp] theorem encodes_none : Encodes u w none := by
  simp [Encodes]

@[simp] theorem encodes_some {i : Instr} : Encodes u w (some i) ↔ encodeSlot i = some (u, w) := by
  simp [Encodes]

@[simp] theorem encodes_ite {c : Prop} [Decidable c] {o o' : Option Instr} :
    Encodes u w (if c then o else o') ↔ (c → Encodes u w o) ∧ (¬ c → Encodes u w o') := by
  split <;> simp_all

theorem Encodes.orElse {o o' : Option Instr} (h : Encodes u w o) (h' : Encodes u w o') :
    Encodes u w (o.orElse fun _ => o') := by
  cases o
  · exact h'
  · exact h

/-- What is no operation is the reserved NOP, which keeps its word (R83). -/
theorem Encodes.getD {o : Option Instr} {lay : Fin 8} {strand : Fin 16} (h : Encodes u w o) :
    encodeSlot (o.getD (reserved u (slotIssue lay strand w) w)) = some (u, w) := by
  cases o with
  | none => exact congrArg (fun w => some (u, w)) (nopWord_eq_iff.mpr ⟨rfl, rfl⟩)
  | some i => exact h i rfl

variable (lay : Fin 8) (strand : Fin 16)

theorem slotWord_slotIssue {op : Nat} {f : BitVec 22} : slotWord (slotIssue lay strand w) op f = w ↔
    (w.extractLsb' 22 6).toNat = op % 64 ∧ w.extractLsb' 0 22 = f :=
  slotWord_eq_iff.trans (and_iff_right rfl)

theorem encodes_decodeAlu (b : Bool) : Encodes (aluSlot b) w (decodeAlu b (slotIssue lay strand w) w) := by
  simp only [decodeAlu]
  split
  case h_29 hop => -- BSWAP
    rw [encodes_ite]
    refine ⟨fun hb => ?_, fun _ => encodes_none⟩
    have hword (m : Fin 3) (hm : (w.extractLsb' 0 4).toNat = m.val) :
        Encodes (aluSlot b) w (some (.bswap (slotIssue lay strand w) b (w.extractLsb' 16 6) (w.extractLsb' 10 6) m)) :=
      encodes_some.mpr (congrArg (fun v => some (aluSlot b, v))
        ((slotWord_slotIssue lay strand).mpr ⟨hop, eq_regF_iff.mpr ⟨rfl, rfl, hb, eq_ofNat_iff.mpr hm⟩⟩))
    split
    next hm => exact hword 0 hm
    next hm => exact hword 1 hm
    next hm => exact hword 2 hm
    next => exact encodes_none
  all_goals next hop => simp +contextual [encodeSlot, slotWord_slotIssue, hop]

theorem encodes_decodeA : Encodes .a w (decodeA (slotIssue lay strand w) w) := by
  simp only [decodeA]
  split
  all_goals next hop => simp +contextual [encodeSlot, slotWord_slotIssue, hop]

theorem encodes_decodeB : Encodes .b w (decodeB (slotIssue lay strand w) w) := by
  simp only [decodeB]
  split
  all_goals next hop => simp +contextual [encodeSlot, slotWord_slotIssue, hop]

theorem encodes_decodeMem : Encodes .mem w (decodeMem (slotIssue lay strand w) w) := by
  simp only [decodeMem]
  split
  all_goals next hop => simp +contextual [encodeSlot, slotWord_slotIssue, hop]

theorem encodes_decodeXu : Encodes .xu w (decodeXu (slotIssue lay strand w) w) := by
  simp only [decodeXu]
  split
  all_goals next hop => simp +contextual [encodeSlot, slotWord_slotIssue, hop]

end
end

/-! ### From a word to its operation -/

theorem aluSlot_ne_mem {b : Bool} : aluSlot b ≠ .mem := by cases b <;> decide
theorem aluSlot_ne_xu {b : Bool} : aluSlot b ≠ .xu := by cases b <;> decide
theorem aluSlot_inj {b c : Bool} : aluSlot b = aluSlot c ↔ b = c := by cases b <;> cases c <;> decide

/-- The opcodes of one ALU alone are none of both (R87 to R89). -/
theorem decodeAlu_of_ge {w : BitVec 32} {x : Issue} {b : Bool} (h : 0x30 ≤ (w.extractLsb' 22 6).toNat) :
    decodeAlu b x w = none := by
  simp only [decodeAlu]
  split
  case h_46 => rfl
  all_goals omega

/-- The compares and the predicate logic, opcodes 0x20 to 0x2F of both ALUs. -/
theorem exists_decodeSlot_of_predicateOp {i : Instr} {w : BitVec 32} {b : Bool} (h : encodeSlot i = some (aluSlot b, w))
    (hnop : ∀ x u v, i ≠ .nop x u v) (hlo : 0x20 ≤ (w.extractLsb' 22 6).toNat) (hhi : (w.extractLsb' 22 6).toNat < 0x30) :
    ∃ lay strand, decodeSlot (aluSlot b) lay strand w = i := by
  cases i <;> simp only [encodeSlot, Option.some.injEq, Prod.mk.injEq, reduceCtorEq, aluSlot_inj, aluSlot_ne_mem.symm,
    aluSlot_ne_xu.symm, false_and, slotWord_eq_iff, Nat.reduceMod] at h
  case nop x u v => exact absurd rfl (hnop x u v)
  case cmpeq | cmpne | cmpltu | cmplts | cmpleu | cmples | cmpeqi | cmpnei | cmpltui | cmpltsi | tbit | pand | por | pxor =>
    obtain ⟨rfl, hx, hop, h⟩ := h
    exact exists_decodeSlot_alu hx (by simp_all [decodeAlu])
  all_goals omega

end Sys2Proof.Machine
end

section
/-! PROOFS. The statements about the encoding of slot operations. -/

namespace Sys2Proof.Machine

/-- Settles O6: the word's guard, opcode and operand fields are the operation's own, by which its slot's decoder names it again. -/
theorem slotWordsDecodeToTheirOperation : Obligations.SlotWordsDecodeToTheirOperation := by
  unfold Obligations.SlotWordsDecodeToTheirOperation
  intro i u w hw hnop
  have h := hw
  cases i <;> simp only [encodeSlot, Option.some.injEq, Prod.mk.injEq, reduceCtorEq, nopWord_eq_iff, slotWord_eq_iff,
    Nat.reduceMod] at h
  case nop x u' v =>
    obtain rfl : v = 0 := hnop x u' v rfl
    obtain ⟨rfl, hx, hw⟩ := h
    exact exists_decodeSlot_nop hx hw
  all_goals obtain ⟨rfl, hx, hop, h⟩ := h
  case cmpeq | cmpne | cmpltu | cmplts | cmpleu | cmples | cmpeqi | cmpnei | cmpltui | cmpltsi | tbit | pand | por | pxor =>
    exact exists_decodeSlot_of_predicateOp hw (by simp) (by omega) (by omega)
  all_goals clear hw hnop
  case mul | mulhu | mulhs | sid =>
    exact exists_decodeSlot_a hx (decodeAlu_of_ge (by omega)) (by simp_all [decodeA])
  case divu | divs | remu | rems | br | brl | brr | chk | tend =>
    exact exists_decodeSlot_b hx (decodeAlu_of_ge (by omega)) (by simp_all [decodeB])
  case ld8u | ld16u | ld32u | ld32s | ld64 | ld128 | st8 | st16 | st32 | st64 | st128 =>
    exact exists_decodeSlot_mem hx (by simp_all [decodeMem])
  case pope | popo | poper | popor | push | pushr | semp | sfull | klds | kldd | kldw | kst | kclr | aesb | gmul | crc16 |
      crc32 | macu | macs | macz | macrl | macrh =>
    exact exists_decodeSlot_xu hx (by simp_all [decodeXu])
  case bswap m =>
    match m with
    | 0 | 1 | 2 => exact exists_decodeSlot_alu hx (by simp_all [decodeAlu])
  all_goals exact exists_decodeSlot_alu hx (by simp_all [decodeAlu])

/-- Settles O7: every arm of a slot's decoder answers an operation whose fields are the word's, and all other words are the reserved NOP,
which carries its word. -/
theorem slotDecodingDropsNoBit : Obligations.SlotDecodingDropsNoBit := by
  unfold Obligations.SlotDecodingDropsNoBit
  intro u lay strand w
  unfold decodeSlot
  refine Encodes.getD ?_
  cases u with
  | a => exact (encodes_decodeAlu lay strand false).orElse (encodes_decodeA lay strand)
  | b => exact (encodes_decodeAlu lay strand true).orElse (encodes_decodeB lay strand)
  | mem => exact encodes_decodeMem lay strand
  | xu => exact encodes_decodeXu lay strand

end Sys2Proof.Machine
end

section
/-! SUPPORT. Laws of the strands' operations: a strand or a lay read after one is set, the guard, and a result put in flight (R72, R76, R83). -/

namespace Sys2Proof.Machine

/-! ### A table entry set twice -/

theorem drop_place {α : Type} (m : List (Nat × α)) (k : Nat) (v : α) : drop (place k v m) k = drop m k := by
  induction m with
  | nil => simp [place, drop]
  | cons e t ih =>
    obtain ⟨j, w⟩ := e
    unfold drop at ih
    simp only [place]
    split <;> simp [drop, List.filter_cons, ih]

theorem drop_drop {α : Type} (m : List (Nat × α)) (k : Nat) : drop (drop m k) k = drop m k := by
  simp [drop]

/-- Of two values set under one key the second stands. -/
@[simp] theorem store_store {α : Type} [DecidableEq α] (d : Nat → α) (m : List (Nat × α)) (k : Nat) (v w : α) :
    store d (store d m k v) k w = store d m k w := by
  have h : drop (store d m k v) k = drop m k := by
    unfold store
    split
    · exact drop_drop m k
    · rw [drop_place, drop_drop]
  simp only [store] at h ⊢
  rw [h]

@[simp] theorem State.str_setStr_same (s : State) (n : Nat) (t : Strand) : (s.setStr n t).str n = t :=
  look_store_same ..

theorem State.str_setStr_other (s : State) {n m : Nat} (t : Strand) (h : m ≠ n) : (s.setStr n t).str m = s.str m :=
  look_store_other _ _ _ h

@[simp] theorem State.setStr_setStr (s : State) (n : Nat) (t u : Strand) : (s.setStr n t).setStr n u = s.setStr n u := by
  simp [State.setStr]

/-! ### The guard and a result in flight -/

/-- A result in flight leaves the guard as it is. -/
theorem State.exec?_inFlight (s : State) (x : Issue) (rank latency : Nat) (l : Late) : (s.inFlight x rank latency l).exec? x = s.exec? x := by
  rw [State.exec?, State.ofIssue, State.inFlight, State.str_setStr_same]
  rfl

/-- Predicate 0 reads 1 (R72). -/
theorem Strand.pred_toNat (t : Strand) (i : BitVec 3) : t.pred i.toNat = (decide (i = 0) || t.p.getLsbD i.toNat) := by
  simp [Strand.pred, ← BitVec.toNat_inj]

/-- A guarded operation with a true guard acts (R78). -/
theorem State.when_of_exec {s : State} {x : Issue} (hx : s.exec? x = true) (f : State → State) : s.when x f = f s := if_pos hx

end Sys2Proof.Machine
end

section
/-! SUPPORT. Laws of the ALU operations (R87 to R92): with a true guard an operation is its result in flight, and its result as a number. -/

namespace Sys2Proof.Machine

section
variable {s : State} {x : Issue} (hx : s.exec? x = true)
include hx

theorem next_alu2 {u : Bool} {d a b : BitVec 6} {f : Word64 → Word64 → Word64} {v : Word64} (hv : f (s.val x a) (s.val x b) = v) :
    (.next (s.alu2 x u d a b f) : Res) = .next (s.inFlight x u.toNat 1 (.regs [(d.toNat, v)])) := by
  rw [State.alu2, State.when_of_exec hx, ← hv]
  rfl

theorem next_alu1 {u : Bool} {d a : BitVec 6} {f : Word64 → Word64} {v : Word64} (hv : f (s.val x a) = v) :
    (.next (s.alu1 x u d a f) : Res) = .next (s.inFlight x u.toNat 1 (.regs [(d.toNat, v)])) := by
  rw [State.alu1, State.when_of_exec hx, ← hv]
  rfl

theorem next_cmp2 {u : Bool} {pd : BitVec 3} {a b : BitVec 6} {f : Word64 → Word64 → Bool} {v : Bool}
    (hv : f (s.val x a) (s.val x b) = v) :
    (.next (s.cmp2 x u pd a b f) : Res) = .next (s.inFlight x u.toNat 1 (.preds [(pd.toNat, v)])) := by
  rw [State.cmp2, State.when_of_exec hx, ← hv]
  rfl

theorem next_cmp1 {u : Bool} {pd : BitVec 3} {a : BitVec 6} {f : Word64 → Bool} {v : Bool} (hv : f (s.val x a) = v) :
    (.next (s.cmp1 x u pd a f) : Res) = .next (s.inFlight x u.toNat 1 (.preds [(pd.toNat, v)])) := by
  rw [State.cmp1, State.when_of_exec hx, ← hv]
  rfl

theorem next_plogic {u : Bool} {pd p1 p2 : BitVec 3} {f : Bool → Bool → Bool} :
    (.next (s.plogic x u pd p1 p2 f) : Res) = .next (s.inFlight x u.toNat 1 (.preds [(pd.toNat,
      f (decide (p1 = 0) || (s.str (issueNo x)).p.getLsbD p1.toNat) (decide (p2 = 0) || (s.str (issueNo x)).p.getLsbD p2.toNat))])) := by
  rw [State.plogic, State.when_of_exec hx, ← Strand.pred_toNat, ← Strand.pred_toNat]
  rfl

theorem next_mulOp {d a b : BitVec 6} {f : Word64 → Word64 → Word64} {v : Word64} (hv : f (s.val x a) (s.val x b) = v) :
    (.next (s.mulOp x d a b f) : Res) = .next (s.inFlight x 0 3 (.regs [(d.toNat, v)])) := by
  rw [State.mulOp, State.when_of_exec hx, ← hv]
  rfl

/-- A branch taken (R79). -/
theorem State.branch_of_exec (target : Nat) : s.branch x target = s.branching x (some (target % 8192)) := by
  rw [State.branch, if_pos hx]
  rfl

/-- A division writes its result 34 cycles on, in whatever state its divider is then (R90, R91). -/
theorem next_division {d a b : BitVec 6} {f : Word64 → Word64 → Word64} {v : Word64} (hv : f (s.val x a) (s.val x b) = v) :
    let r := s.occupyDivider x
    (.next (s.division x d a b f) : Res) = .next (r.setStr (issueNo x) { r.str (issueNo x) with
      flight := (r.str (issueNo x)).flight ++ [⟨(r.lay x.lay.val).cyc + 33, 1, (r.lay x.lay.val).cyc, true, .regs [(d.toNat, v)]⟩] }) := by
  dsimp only
  rw [State.division, if_pos hx, ← hv]
  rfl

end

/-- A division that finds its divider free takes it (R91). -/
theorem State.occupyDivider_of_free {s : State} {x : Issue} (hfree : s.dividerFree x) :
    s.occupyDivider x = s.setStr (issueNo x) { s.str (issueNo x) with divAt := some (s.lay x.lay.val).cyc } := by
  simp only [State.occupyDivider, State.cyc]
  split
  next c0 hdiv =>
    simp only [Nat.not_lt.mpr (hfree c0 hdiv), if_false]
  next => rfl

theorem next_division_of_free {s : State} {x : Issue} (hx : s.exec? x = true) {d a b : BitVec 6} {f : Word64 → Word64 → Word64}
    {v : Word64} (hfree : s.dividerFree x) (hv : f (s.val x a) (s.val x b) = v) :
    (.next (s.division x d a b f) : Res) = .next (s.dividing x d v) := by
  rw [next_division hx hv, State.occupyDivider_of_free hfree, State.setStr_setStr, State.str_setStr_same]
  rfl

/-! ### Results as numbers -/

section
variable (a b : Word64)

theorem sub_eq_ofInt : a - b = BitVec.ofInt 64 ((a.toNat : Int) - b.toNat) := by
  simp only [Int.sub_eq_add_neg, BitVec.ofInt_add, BitVec.ofInt_neg, BitVec.ofInt_natCast, BitVec.ofNat_toNat, BitVec.setWidth_eq,
    BitVec.sub_eq_add_neg]

theorem shiftLeft_eq_ofNat (n : Nat) : a <<< n = BitVec.ofNat 64 (a.toNat * 2 ^ n) := by
  apply BitVec.eq_of_toNat_eq
  rw [BitVec.toNat_shiftLeft, BitVec.toNat_ofNat, Nat.shiftLeft_eq]

theorem ushiftRight_eq_ofNat (n : Nat) : a >>> n = BitVec.ofNat 64 (a.toNat / 2 ^ n) := by
  rw [← Nat.shiftRight_eq_div_pow, ← BitVec.toNat_ushiftRight, BitVec.ofNat_toNat, BitVec.setWidth_eq]

theorem sshiftRight_eq_ofInt (n : Nat) : a.sshiftRight n = BitVec.ofInt 64 (a.toInt / 2 ^ n) := by
  rw [BitVec.sshiftRight, Int.shiftRight_eq_div_pow]
  norm_cast

theorem rotateRight_eq_or {n : Nat} (h : n < 64) :
    a.rotateRight n = BitVec.ofNat 64 (a.toNat / 2 ^ n) ||| BitVec.ofNat 64 (a.toNat * 2 ^ (64 - n)) := by
  rw [BitVec.rotateRight_eq_rotateRightAux_of_lt h, BitVec.rotateRightAux, ushiftRight_eq_ofNat, shiftLeft_eq_ofNat]

theorem mulHiU_eq_ofNat : mulHiU a b = BitVec.ofNat 64 (a.toNat * b.toNat / 2 ^ 64) := by
  have hlt : a.toNat * b.toNat < 2 ^ 128 := (Nat.mul_lt_mul'' a.isLt b.isLt).trans_eq (by norm_num)
  apply BitVec.eq_of_toNat_eq
  rw [mulHiU, BitVec.extractLsb'_toNat, BitVec.toNat_mul, BitVec.toNat_setWidth_of_le (by decide), BitVec.toNat_setWidth_of_le (by decide),
    Nat.mod_eq_of_lt hlt, Nat.shiftRight_eq_div_pow, BitVec.toNat_ofNat]

theorem mulHiS_eq_ofInt : mulHiS a b = BitVec.ofInt 64 (a.toInt * b.toInt / 2 ^ 64) := by
  have h : a.signExtend 128 * b.signExtend 128 = BitVec.ofInt 128 (a.toInt * b.toInt) := (BitVec.ofInt_mul ..).symm
  apply BitVec.eq_of_toNat_eq
  rw [mulHiS, h, BitVec.extractLsb'_toNat, Nat.shiftRight_eq_div_pow, BitVec.toNat_ofInt, BitVec.toNat_ofInt]
  omega

theorem divU_eq : divU a b = if b = 0 then 0xFFFFFFFFFFFFFFFF else BitVec.ofNat 64 (a.toNat / b.toNat) := by
  rw [divU, BitVec.udiv_def]
  rfl

theorem remU_eq : remU a b = if b = 0 then a else BitVec.ofNat 64 (a.toNat % b.toNat) := by
  rw [remU, BitVec.umod_def]

theorem divS_eq : divS a b = if b = 0 then (if 0 ≤ a.toInt then BitVec.ofInt 64 (-1) else 1) else BitVec.ofInt 64 (a.toInt.tdiv b.toInt) := by
  have hneg : a.msb = true ↔ ¬ 0 ≤ a.toInt := by rw [BitVec.msb_eq_toInt]; simp
  have hdiv : a.sdiv b = BitVec.ofInt 64 (a.toInt.tdiv b.toInt) := by
    apply BitVec.eq_of_toInt_eq
    rw [BitVec.toInt_sdiv, BitVec.toInt_ofInt]
  rw [divS, hdiv]
  split
  · by_cases h : a.msb = true
    · rw [if_pos h, if_neg (hneg.mp h)]
    · rw [if_neg h, if_pos (not_not.mp (mt hneg.mpr h))]
      rfl
  · rfl

theorem remS_eq : remS a b = if b = 0 then a else BitVec.ofInt 64 (a.toInt.tmod b.toInt) := by
  rw [remS, ← BitVec.toInt_srem, BitVec.ofInt_toInt]

theorem ne_zero_of_toInt {b : Word64} (h : b.toInt = -1) : b ≠ 0 := by
  rintro rfl
  exact absurd h (by decide)

/-- Of two equal values either is the lesser and the greater. -/
theorem ite_lt_eq_ite_le {α β : Type} [LinearOrder β] {f : α → β} (hf : Function.Injective f) {a b c d : α} (hcd : a = b → c = d) :
    (if f a < f b then c else d) = if f a ≤ f b then c else d := by
  rcases lt_trichotomy (f a) (f b) with h | h | h
  · rw [if_pos h, if_pos h.le]
  · rw [if_neg h.not_lt, if_pos h.le, hcd (hf h)]
  · rw [if_neg h.not_gt, if_neg h.not_ge]

theorem toNat_injective : Function.Injective (BitVec.toNat : Word64 → Nat) := fun _ _ => BitVec.eq_of_toNat_eq
theorem toInt_injective : Function.Injective (BitVec.toInt : Word64 → Int) := fun _ _ => BitVec.eq_of_toInt_eq

end

/-! ### Results as bits -/

theorem getLsbD_putBits {n : Nat} (a : BitVec n) {hi lo : Nat} (v i : Nat) (hi' : i < n) :
    (putBits a hi lo v).getLsbD i = if lo ≤ i ∧ i < hi + 1 then v.testBit (i - lo) else a.getLsbD i := by
  have hmask : (2 ^ (hi + 1 - lo) - 1).testBit (i - lo) = decide (i - lo < hi + 1 - lo) := Nat.testBit_two_pow_sub_one ..
  simp only [putBits, maskOf, BitVec.getLsbD_or, BitVec.getLsbD_and, BitVec.getLsbD_not, BitVec.getLsbD_ofNat,
    Nat.testBit_mul_two_pow, hmask, Nat.testBit_mod_two_pow]
  by_cases hle : lo ≤ i
  · have hwidth : i - lo < hi + 1 - lo ↔ i < hi + 1 := by omega
    by_cases hlt : i < hi + 1 <;> simp [hle, hlt, hi', hwidth]
  · simp [hle, hi']

theorem getLsbD_movk (a : Word64) (k : BitVec 16) {h i : Nat} (hi : i < 64) : (movk h a k).getLsbD i =
    if 16 * h ≤ i ∧ i < 16 * h + 16 then k.getLsbD (i - 16 * h) else a.getLsbD i := by
  rw [movk, getLsbD_putBits a _ _ hi]
  rfl

/-- Bit i of a little-endian number is bit i % 8 of its byte i / 8 (R9). -/
theorem testBit_leNat (l : List Byte) (i : Nat) : (leNat l).testBit i = (l.getD (i / 8) 0).getLsbD (i % 8) := by
  induction l generalizing i with
  | nil => simp [leNat]
  | cons b t ih =>
    rw [leNat, Nat.add_comm, show 256 = 2 ^ 8 by rfl, Nat.testBit_two_pow_mul_add _ b.isLt]
    split
    next h =>
      rw [Nat.div_eq_of_lt h, Nat.mod_eq_of_lt h]
      rfl
    next h =>
      rw [ih, show i / 8 = (i - 8) / 8 + 1 by omega, show i % 8 = (i - 8) % 8 by omega]
      rfl

theorem getLsbD_swapBytes (a : Word64) {n i : Nat} (hi : i < 64) :
    (swapBytes n a).getLsbD i = (decide (i < 8 * n) && a.getLsbD (8 * (n - 1 - i / 8) + i % 8)) := by
  rw [swapBytes, BitVec.getLsbD_ofNat, beNat, testBit_leNat]
  by_cases h : i < 8 * n
  · have hk : i / 8 < (toLe n a.toNat).reverse.length := by simp; omega
    rw [List.getD_eq_getElem _ _ hk, List.getElem_reverse, getElem_toLe, length_toLe, BitVec.getLsbD_ofNat,
      show 256 = 2 ^ 8 by rfl, ← Nat.pow_mul, Nat.testBit_div_two_pow, Nat.add_comm (i % 8)]
    simp [h, hi, Nat.mod_lt, BitVec.getLsbD]
  · have hk : (toLe n a.toNat).reverse.length ≤ i / 8 := by simp; omega
    rw [List.getD_eq_default _ _ hk]
    simp [h]

theorem clz64_le (a : Word64) : clz64 a ≤ 64 := by
  unfold clz64
  split <;> omega

theorem lt_of_clz64 (a : Word64) : a.toNat < 2 ^ (64 - clz64 a) := by
  unfold clz64
  split
  next h => simp [h]
  next h =>
    have hlog := (Nat.log2_lt h).mpr a.isLt
    rw [show 64 - (63 - a.toNat.log2) = a.toNat.log2 + 1 by omega]
    exact Nat.lt_log2_self

theorem le_of_clz64 {a : Word64} (hlt : clz64 a < 64) : 2 ^ (63 - clz64 a) ≤ a.toNat := by
  unfold clz64 at hlt ⊢
  split
  next h => rw [if_pos h] at hlt; omega
  next h =>
    have hlog := (Nat.log2_lt h).mpr a.isLt
    rw [show 63 - (63 - a.toNat.log2) = a.toNat.log2 by omega]
    exact Nat.log2_self_le h

theorem popc64_le (a : Word64) : popc64 a ≤ 64 := List.countP_le_length.trans_eq List.length_range

theorem popc64_eq (a : Word64) : popc64 a = ((List.range 64).filter (fun i => a.getLsbD i)).length := List.countP_eq_length_filter

end Sys2Proof.Machine
end

section
/-! PROOFS. The statements about the operations of the two ALUs. -/

namespace Sys2Proof.Machine

/-- Settles O10: each of the operations is its ALU's latency-1 operation, whose result is the number of its table row. -/
theorem aluTwoRegisterResults : Obligations.AluTwoRegisterResults := by
  unfold Obligations.AluTwoRegisterResults
  intro s x u d a b p hx
  dsimp only
  refine ⟨?_, ?_, ?_, ?_, ?_, ?_, ?_, ?_, ?_, ?_, ?_, ?_, ?_, ?_, ?_⟩
  · exact next_alu2 hx (BitVec.add_def ..)
  · exact next_alu2 hx (sub_eq_ofInt ..)
  · exact next_alu2 hx rfl
  · exact next_alu2 hx rfl
  · exact next_alu2 hx rfl
  · exact next_alu2 hx rfl
  · exact next_alu2 hx (shiftLeft_eq_ofNat ..)
  · exact next_alu2 hx (ushiftRight_eq_ofNat ..)
  · exact next_alu2 hx (sshiftRight_eq_ofInt ..)
  · exact next_alu2 hx (rotateRight_eq_or _ (Nat.mod_lt _ (by decide)))
  · exact next_alu2 hx (by simp [State.ofIssue, Strand.pred_toNat])
  · exact next_alu2 hx (by simpa [BitVec.ult] using ite_lt_eq_ite_le toNat_injective (·))
  · exact next_alu2 hx (by simpa [BitVec.ult] using ite_lt_eq_ite_le toNat_injective (·.symm))
  · exact next_alu2 hx (by simpa [BitVec.slt] using ite_lt_eq_ite_le toInt_injective (·))
  · exact next_alu2 hx (by simpa [BitVec.slt] using ite_lt_eq_ite_le toInt_injective (·.symm))

/-- Settles O11: the immediates are sign-extended or zero-extended as their rows say, and the results of MOVK, BSWAP, CLZ and POPC are the
bits and counts of theirs. -/
theorem aluImmediateResults : Obligations.AluImmediateResults := by
  unfold Obligations.AluImmediateResults
  intro s x u d a n imm k hx
  dsimp only
  refine ⟨?_, ?_, ?_, ?_, ?_, ?_, ?_, ?_, ?_, ?_, fun h => ?_, fun m => ?_, ?_, ?_⟩
  · exact next_alu1 hx (by rw [BitVec.ofInt_add, BitVec.ofInt_toInt]; rfl)
  · exact next_alu1 hx rfl
  · exact next_alu1 hx rfl
  · exact next_alu1 hx rfl
  · exact next_alu1 hx (shiftLeft_eq_ofNat ..)
  · exact next_alu1 hx (ushiftRight_eq_ofNat ..)
  · exact next_alu1 hx (sshiftRight_eq_ofInt ..)
  · exact next_alu1 hx (rotateRight_eq_or _ n.isLt)
  · exact next_alu1 hx (BitVec.ofNat_toNat ..).symm
  · exact next_alu1 hx (u := false) (by rw [issueNo, strandNo, Nat.mul_comm 256])
  · refine ⟨movk h.val (s.val x d) k, ?_, fun i => getLsbD_movk _ _ i.isLt⟩
    match h with
    | 0 | 1 | 2 | 3 => exact next_alu1 hx rfl
  · refine ⟨swapBytes (8 / 2 ^ m.val) (s.val x a), next_alu1 hx ?_, fun i => ?_⟩
    · match m with
      | 0 | 1 | 2 => rfl
    · rw [getLsbD_swapBytes _ i.isLt]
      match m with
      | 0 | 1 | 2 => rfl
  · refine ⟨_, next_alu1 hx rfl, ?_⟩
    rw [BitVec.toNat_ofNat, Nat.mod_eq_of_lt (by have := clz64_le (s.val x a); omega)]
    exact ⟨clz64_le _, lt_of_clz64 _, le_of_clz64⟩
  · refine ⟨_, next_alu1 hx rfl, ?_⟩
    rw [BitVec.toNat_ofNat, Nat.mod_eq_of_lt (by have := popc64_le (s.val x a); omega), popc64_eq]

/-- Settles O12: each compare and each operation of the predicate logic is its ALU's latency-1 operation on one predicate. -/
theorem comparesWriteOnePredicate : Obligations.ComparesWriteOnePredicate := by
  unfold Obligations.ComparesWriteOnePredicate
  intro s x u pd p1 p2 a b n imm hx
  dsimp only
  refine ⟨?_, ?_, ?_, ?_, ?_, ?_, ?_, ?_, ?_, ?_, ?_, ?_, ?_, ?_⟩
  · exact next_cmp2 hx rfl
  · exact next_cmp2 hx (by simp [bne, beq_eq_decide])
  · exact next_cmp2 hx rfl
  · exact next_cmp2 hx rfl
  · exact next_cmp2 hx rfl
  · exact next_cmp2 hx rfl
  · exact next_cmp1 hx rfl
  · exact next_cmp1 hx (by simp [bne, beq_eq_decide, imm64])
  · exact next_cmp1 hx rfl
  · exact next_cmp1 hx (by simp [BitVec.slt, imm64, BitVec.toInt_signExtend_of_le])
  · exact next_cmp1 hx Nat.testBit_eq_decide_div_mod_eq
  · exact next_plogic hx
  · exact next_plogic hx
  · exact next_plogic hx

/-- Settles O13: the products and the divisions in a free divider are the numbers of their rules, and the other operations are their guarded
effect. -/
theorem productsDivisionsAndBranches : Obligations.ProductsDivisionsAndBranches := by
  unfold Obligations.ProductsDivisionsAndBranches
  intro s x d a b t k u w hx
  dsimp only
  refine ⟨?_, ?_, ?_, fun hfree => ⟨?_, ?_, ?_, ?_⟩, ?_, ?_, ?_, ?_, ?_, ?_⟩
  · exact next_mulOp hx (BitVec.mul_def ..)
  · exact next_mulOp hx (mulHiU_eq_ofNat ..)
  · exact next_mulOp hx (mulHiS_eq_ofInt ..)
  · exact next_division_of_free hx hfree (divU_eq ..)
  · exact next_division_of_free hx hfree (divS_eq ..)
  · exact next_division_of_free hx hfree (remU_eq ..)
  · exact next_division_of_free hx hfree (remS_eq ..)
  · refine congrArg _ ((State.branch_of_exec hx _).trans ?_)
    rw [Nat.mod_eq_of_lt t.isLt]
  · have hlink : (s.inFlight x 1 1 (.regs [(d.toNat, BitVec.ofNat 64 (((s.str (issueNo x)).pc + 1) % 8192))])).exec? x = true :=
      (State.exec?_inFlight ..).trans hx
    refine congrArg _ ((congrArg (State.branch x t.toNat) (State.when_of_exec hx _)).trans ((State.branch_of_exec hlink _).trans ?_))
    rw [Nat.mod_eq_of_lt t.isLt]
  · exact congrArg _ (State.branch_of_exec hx _)
  · exact congrArg _ (State.when_of_exec hx _)
  · exact congrArg _ (State.when_of_exec hx _)
  · exact congrArg _ (State.when_of_exec hx _)

/-- Settles O20: a division writes its quotient or remainder in whatever state its divider is; the corner cases are values of these. -/
theorem divisionResultsAndCorners : Obligations.DivisionResultsAndCorners := by
  unfold Obligations.DivisionResultsAndCorners
  intro s x d a b hx
  dsimp only
  refine ⟨fun hb => ⟨?_, ?_, ?_, ?_⟩, fun ha hb => ⟨?_, ?_⟩, fun hb => ⟨?_, ?_, ?_, ?_⟩⟩
  · exact next_division hx ((divU_eq ..).trans (if_pos hb))
  · exact next_division hx ((divS_eq ..).trans (if_pos hb))
  · exact next_division hx ((remU_eq ..).trans (if_pos hb))
  · exact next_division hx ((remS_eq ..).trans (if_pos hb))
  · exact next_division hx ((divS_eq ..).trans (by rw [if_neg (ne_zero_of_toInt hb), ha, hb]; decide))
  · exact next_division hx ((remS_eq ..).trans (by rw [if_neg (ne_zero_of_toInt hb), ha, hb]; decide))
  · exact next_division hx ((divU_eq ..).trans (if_neg hb))
  · exact next_division hx ((divS_eq ..).trans (if_neg hb))
  · exact next_division hx ((remU_eq ..).trans (if_neg hb))
  · exact next_division hx ((remS_eq ..).trans (if_neg hb))

end Sys2Proof.Machine
end

section
/-! SUPPORT. Laws of the MEM slot (R85, R93 to R98): the effective address, and what a load and a store do where it leads. -/

namespace Sys2Proof.Machine

/-! ### Little-endian numbers and pairs (R9, R85) -/

theorem leNat_lt (l : List Byte) : leNat l < 256 ^ l.length := by
  induction l with
  | nil => simp [leNat]
  | cons b t ih =>
    have := b.isLt
    rw [leNat, List.length_cons, Nat.pow_succ]
    omega

theorem leNat_append (l t : List Byte) : leNat (l ++ t) = leNat l + 256 ^ l.length * leNat t := by
  induction l with
  | nil => simp [leNat]
  | cons b l ih => rw [List.cons_append, leNat, ih, leNat, List.length_cons, Nat.pow_succ']; ring

theorem State.le_lt (s : State) (sp : Space) (a n : Nat) : s.le sp a n < 256 ^ n := by
  simpa [State.le, State.bytes] using leNat_lt (s.bytes sp a n)

theorem State.le_add (s : State) (sp : Space) (a m n : Nat) : s.le sp a (m + n) = s.le sp a m + 256 ^ m * s.le sp (a + m) n := by
  have h : s.bytes sp a (m + n) = s.bytes sp a m ++ s.bytes sp (a + m) n := by
    simp [State.bytes, List.range_add, Function.comp_def, Nat.add_assoc]
  rw [State.le, h, leNat_append]
  simp [State.bytes, State.le]

/-- The low register of a pair holds its bits 63:0 (R85). -/
theorem Strand.pair_toNat (t : Strand) (r : Nat) : (t.pair r).toNat = (t.reg (r / 2 * 2)).toNat + 2 ^ 64 * (t.reg (r / 2 * 2 + 1)).toNat := by
  rw [Strand.pair, BitVec.append_eq, BitVec.toNat_append, ← Nat.shiftLeft_add_eq_or_of_lt (BitVec.isLt _), Nat.shiftLeft_eq]
  ring

theorem pairWrites_ofNat (r : Nat) (v : Nat) : pairWrites r (BitVec.ofNat 128 v) =
    [(r / 2 * 2, BitVec.ofNat 64 v), (r / 2 * 2 + 1, BitVec.ofNat 64 (v / 2 ^ 64))] := by
  have hlo : (BitVec.ofNat 128 v).extractLsb' 0 64 = BitVec.ofNat 64 v := by
    apply BitVec.eq_of_toNat_eq
    simp
  have hhi : (BitVec.ofNat 128 v).extractLsb' 64 64 = BitVec.ofNat 64 (v / 2 ^ 64) := by
    apply BitVec.eq_of_toNat_eq
    simp [Nat.shiftRight_eq_div_pow]
    omega
  rw [pairWrites, hlo, hhi]

/-! ### The address (R93, R95) -/

theorem effAddr_eq {a : Word64} {imm : BitVec 10} {size ea : Nat} (h : (ea : Int) = (a.toNat + imm.toInt * size) % 2 ^ 64) :
    effAddr a imm size = ea := by
  have hv : a + imm64 imm * BitVec.ofNat 64 size = BitVec.ofInt 64 (a.toNat + imm.toInt * size) := by
    rw [BitVec.ofInt_add, BitVec.ofInt_mul, BitVec.ofInt_natCast, BitVec.ofInt_natCast, BitVec.ofNat_toNat, BitVec.setWidth_eq]
    rfl
  rw [effAddr, hv, BitVec.toNat_ofInt, Nat.cast_pow, Nat.cast_ofNat, ← h, Int.toNat_natCast]

/-! ### Loads and stores -/

theorem memTarget_data {ea : Nat} (h : ea < 0x20000) : memTarget ea = .data ea := if_pos h

theorem memTarget_shared {ea : Nat} (h : 0x400000 ≤ ea ∧ ea < 0x800000) : memTarget ea = .shared (ea - 0x400000) := by
  rw [memTarget, if_neg (by omega), if_pos h]

theorem memTarget_nowhere {ea : Nat} (h : 0x20000 ≤ ea) (h' : ¬ (0x400000 ≤ ea ∧ ea < 0x800000)) : memTarget ea = .nowhere := by
  rw [memTarget, if_neg (by omega), if_neg h']

section
variable {s : State} {x : Issue} {d a : BitVec 6} {imm : BitVec 10} {size ea : Nat}
  (hea : (ea : Int) = ((s.val x a).toNat + imm.toInt * size) % 2 ^ 64) (halign : ea % size = 0)
include hea halign

/-- An aligned access raises no ALIGN and goes where its address leads (R95, R97). -/
theorem State.aligned_access : s.align (issueNo x) (effAddr ((s.str (issueNo x)).reg a.toNat) imm size) size = s ∧
    memTarget (effAddr ((s.str (issueNo x)).reg a.toNat) imm size / size * size) = memTarget ea := by
  have heff : effAddr ((s.str (issueNo x)).reg a.toNat) imm size = ea := effAddr_eq hea
  rw [heff, Nat.div_mul_cancel (Nat.dvd_of_mod_eq_zero halign)]
  exact ⟨if_pos halign, rfl⟩

variable (hx : s.exec? x = true)
include hx

theorem State.load_data (h : ea < 0x20000) (sext : Bool) : s.load x size sext d a imm =
    (s.readDmem (issueNo x) ea size).inFlight x 2 2
      (.regs (loadWrites size sext d.toNat (s.le (.dmem x.lay.val x.strand.val) ea size))) := by
  obtain ⟨hstate, htarget⟩ := State.aligned_access hea halign
  rw [State.load, State.when_of_exec hx]
  simp only [hstate, htarget, memTarget_data h]
  rfl

theorem State.load_nowhere (h : 0x20000 ≤ ea) (h' : ¬ (0x400000 ≤ ea ∧ ea < 0x800000)) (sext : Bool) : s.load x size sext d a imm =
    (s.strandCause (issueNo x) 4).inFlight x 2 2 (.regs (loadWrites size false d.toNat 0)) := by
  obtain ⟨hstate, htarget⟩ := State.aligned_access hea halign
  rw [State.load, State.when_of_exec hx]
  simp only [hstate, htarget, memTarget_nowhere h h']
  rfl

theorem State.load_shared (h : 0x400000 ≤ ea ∧ ea < 0x800000) (sext : Bool) : s.load x size sext d a imm =
    if s.wheelGrant x.lay.val (s.lay x.lay.val).tcyc ((ea - 0x400000) / 2 ^ 19) = some x.strand.val then
      s.inFlight x 2 4 (.lmemLoad (ea - 0x400000) size sext d.toNat)
    else (s.strandCause (issueNo x) 13).inFlight x 2 6 (.regs (loadWrites size false d.toNat 0)) := by
  obtain ⟨hstate, htarget⟩ := State.aligned_access hea halign
  have hbank : (ea - 0x400000) / 2 ^ 19 % 8 = (ea - 0x400000) / 2 ^ 19 := by omega
  rw [State.load, State.when_of_exec hx]
  simp only [hstate, htarget, memTarget_shared h, hbank]
  rfl

theorem State.storeOp_data (h : ea < 0x20000) : s.storeOp x size d a imm =
    (s.setStr (issueNo x) { s.str (issueNo x) with dmUsed := true }).inFlight x 2 1
      (.dmemStore ea size (storeValue (s.str (issueNo x)) d.toNat size)) := by
  obtain ⟨hstate, htarget⟩ := State.aligned_access hea halign
  rw [State.storeOp, State.when_of_exec hx]
  simp only [hstate, htarget, memTarget_data h]
  rfl

theorem State.storeOp_nowhere (h : 0x20000 ≤ ea) (h' : ¬ (0x400000 ≤ ea ∧ ea < 0x800000)) :
    s.storeOp x size d a imm = s.strandCause (issueNo x) 4 := by
  obtain ⟨hstate, htarget⟩ := State.aligned_access hea halign
  rw [State.storeOp, State.when_of_exec hx]
  simp only [hstate, htarget, memTarget_nowhere h h']

theorem State.storeOp_shared (h : 0x400000 ≤ ea ∧ ea < 0x800000) : s.storeOp x size d a imm =
    if s.wheelGrant x.lay.val (s.lay x.lay.val).tcyc ((ea - 0x400000) / 2 ^ 19) = some x.strand.val then
      s.inFlight x 2 4 (.lmemStore (ea - 0x400000) size (storeValue (s.str (issueNo x)) d.toNat size))
    else s.strandCause (issueNo x) 13 := by
  obtain ⟨hstate, htarget⟩ := State.aligned_access hea halign
  have hbank : (ea - 0x400000) / 2 ^ 19 % 8 = (ea - 0x400000) / 2 ^ 19 := by omega
  rw [State.storeOp, State.when_of_exec hx]
  simp only [hstate, htarget, memTarget_shared h, hbank]
  rfl

end

/-! ### What they write and store (R93) -/

/-- A 16-byte load writes a pair (R85). -/
theorem loadWrites_pair (s : State) (sp : Space) (d ea : Nat) : loadWrites 16 false d (s.le sp ea 16) =
    [(d / 2 * 2, BitVec.ofNat 64 (s.le sp ea 8)), (d / 2 * 2 + 1, BitVec.ofNat 64 (s.le sp (ea + 8) 8))] := by
  have hlo : s.le sp ea 8 < 2 ^ 64 := (s.le_lt sp ea 8).trans_eq (by norm_num)
  have hsum : s.le sp ea 16 = s.le sp ea 8 + 2 ^ 64 * s.le sp (ea + 8) 8 := s.le_add sp ea 8 8
  have hword : BitVec.ofNat 64 (s.le sp ea 8 + 2 ^ 64 * s.le sp (ea + 8) 8) = BitVec.ofNat 64 (s.le sp ea 8) := by
    simp [← BitVec.toNat_inj]
  rw [loadWrites, if_pos rfl, pairWrites_ofNat, hsum, hword, Nat.add_mul_div_left _ _ (by decide), Nat.div_eq_of_lt hlo, Nat.zero_add]

theorem storeValue_pair (t : Strand) (d : Nat) :
    storeValue t d 16 = (t.reg (d / 2 * 2)).toNat + 2 ^ 64 * (t.reg (d / 2 * 2 + 1)).toNat :=
  t.pair_toNat d

theorem storeValue_word (t : Strand) (d : Nat) : storeValue t d 8 = (t.reg d).toNat :=
  Nat.mod_eq_of_lt (t.reg d).isLt

end Sys2Proof.Machine
end

section
/-! PROOFS. The statements about the accesses of the MEM slot. -/

namespace Sys2Proof.Machine

/-- Settles O14: an aligned address below 0x20000 leads to the strand's data memory, where each size has its bytes' value and a pair its two
words. -/
theorem dataMemoryAccesses : Obligations.DataMemoryAccesses := by
  unfold Obligations.DataMemoryAccesses
  intro s x d a imm size ea hx hea hlt halign
  dsimp only
  refine ⟨?_, ?_, ?_, ?_, ?_, ?_, ?_, ?_, ?_, ?_, ?_⟩ <;> rintro rfl
  · exact congrArg _ (State.load_data hea halign hx hlt false)
  · exact congrArg _ (State.load_data hea halign hx hlt false)
  · exact congrArg _ (State.load_data hea halign hx hlt false)
  · exact congrArg _ (State.load_data hea halign hx hlt true)
  · exact congrArg _ (State.load_data hea halign hx hlt false)
  · rw [← loadWrites_pair]
    exact congrArg _ (State.load_data hea halign hx hlt false)
  · exact congrArg _ (State.storeOp_data hea halign hx hlt)
  · exact congrArg _ (State.storeOp_data hea halign hx hlt)
  · exact congrArg _ (State.storeOp_data hea halign hx hlt)
  · rw [State.val, ← storeValue_word]
    exact congrArg _ (State.storeOp_data hea halign hx hlt)
  · rw [← storeValue_pair]
    exact congrArg _ (State.storeOp_data hea halign hx hlt)

/-- Settles O16: an aligned address above the data memory leads nowhere or to the lay memory, where the wheel's grant decides. -/
theorem accessesNotPerformed : Obligations.AccessesNotPerformed := by
  unfold Obligations.AccessesNotPerformed
  intro s x d a imm ea hx hea halign
  rw [State.val, ← storeValue_word]
  refine ⟨fun h h' => ⟨?_, ?_⟩, fun h hmiss => ⟨?_, ?_⟩, fun h hgrant => ⟨?_, ?_⟩⟩
  · exact congrArg _ (State.load_nowhere hea halign hx h h' false)
  · exact congrArg _ (State.storeOp_nowhere hea halign hx h h')
  · exact congrArg _ ((State.load_shared hea halign hx h false).trans (if_neg hmiss))
  · exact congrArg _ ((State.storeOp_shared hea halign hx h).trans (if_neg hmiss))
  · exact congrArg _ ((State.load_shared hea halign hx h false).trans (if_pos hgrant))
  · exact congrArg _ ((State.storeOp_shared hea halign hx h).trans (if_pos hgrant))

end Sys2Proof.Machine
end

section
/-! SUPPORT. Laws of the XU's pops and pushes (R84, R94, R100 to R104, R177). -/

namespace Sys2Proof.Machine

/-! ### The splice a register names (R84) -/

theorem exec_poper (x : Issue) (oct : BitVec 3) (a : BitVec 6) (s : State) :
    exec (.poper x oct a) s = .next (s.popOp x oct ((s.val x a).toNat % 8192) true) := rfl

theorem exec_popor (x : Issue) (oct : BitVec 3) (a : BitVec 6) (s : State) :
    exec (.popor x oct a) s = .next (s.popOp x oct ((s.val x a).toNat % 8192) false) := rfl

theorem exec_pushr (x : Issue) (oct : BitVec 3) (a : BitVec 6) (s : State) :
    exec (.pushr x oct a) s = .next (s.pushOp x oct ((s.val x a).toNat % 8192)) := rfl

/-! ### Pops (R100, R101, R104, R177) -/

section
variable {s : State} {x : Issue} {n : Nat} (hx : s.exec? x = true) (oct : BitVec 3)
include hx

theorem State.popOp_not_granted (must : Bool) (hg : s.granted x.lay.val x.strand.val n false = false) :
    s.popOp x oct n must = (s.strandCause (issueNo x) 11).deliver x oct 0 := by
  rw [State.popOp, State.when_of_exec hx]
  simp only [hg, Bool.not_false, if_true]

theorem State.popOp_clash (must : Bool) (hg : s.granted x.lay.val x.strand.val n false = true)
    (hu : (s.lay x.lay.val).used.contains (n, false) = true) :
    s.popOp x oct n must = (s.strandCause (issueNo x) 12).deliver x oct 0 := by
  rw [State.popOp, State.when_of_exec hx]
  simp only [hg, hu, Bool.not_true, Bool.false_eq_true, if_false, if_true]

theorem State.pushOp_not_granted (hg : s.granted x.lay.val x.strand.val n true = false) :
    s.pushOp x oct n = s.strandCause (issueNo x) 11 := by
  rw [State.pushOp, State.when_of_exec hx]
  simp only [hg, Bool.not_false, if_true]

theorem State.pushOp_clash (hg : s.granted x.lay.val x.strand.val n true = true)
    (hu : (s.lay x.lay.val).used.contains (n, true) = true) : s.pushOp x oct n = s.strandCause (issueNo x) 12 := by
  rw [State.pushOp, State.when_of_exec hx]
  simp only [hg, hu, Bool.not_true, Bool.false_eq_true, if_false, if_true]

/-- The octet commits at the end of cycle c + 2 with VALID set (R102). -/
theorem State.pushOp_granted (hg : s.granted x.lay.val x.strand.val n true = true)
    (hu : (s.lay x.lay.val).used.contains (n, true) = false) : s.pushOp x oct n =
      (s.useEnd x n true).inFlight x 3 3
        (.commit n (BitVec.ofNat 512 (((s.str (issueNo x)).octet oct.toNat).toNat ||| 2 ^ 63))) := by
  rw [State.pushOp, State.when_of_exec hx]
  simp only [hg, hu, Bool.not_true, Bool.false_eq_true, if_false]
  rfl

section
variable {r : State} (hg : s.granted x.lay.val x.strand.val n false = true)
  (hu : (s.lay x.lay.val).used.contains (n, false) = false)
include hg hu

/-- A cell popped that is sound, with no CELL_UE injected, is delivered as it is (R101). -/
theorem State.popOp_cell {c : Cell512} (must : Bool) (hpop : (s.useEnd x n false).pop n = (some (c, false), r))
    (hinj : r.bitAt (pa .strand (issueNo x) 0x01C) 17 = false) : s.popOp x oct n must = r.deliver x oct c := by
  rw [State.popOp, State.when_of_exec hx]
  simp only [hg, hu, hpop, State.injectCell, hinj, Bool.not_true, Bool.or_self, Bool.false_and, Bool.false_eq_true, if_false]

/-- POPO and POPOR take a not-valid cell as it is. -/
theorem State.popOp_empty (hpop : (s.useEnd x n false).pop n = (none, r)) : s.popOp x oct n false = r.deliver x oct 0 := by
  rw [State.popOp, State.when_of_exec hx]
  simp only [hg, hu, hpop, Bool.not_true, Bool.false_and, Bool.false_eq_true, if_false]

/-- POPE and POPER raise POP_EMPTY with it, where its producer is not quiet (R177). -/
theorem State.popOp_must_empty (hpop : (s.useEnd x n false).pop n = (none, r)) (hq : r.producerQuiet n = false) :
    s.popOp x oct n true = (r.strandCause (issueNo x) 15).deliver x oct 0 := by
  rw [State.popOp, State.when_of_exec hx]
  simp only [hg, hu, hpop, hq, Bool.not_true, Bool.not_false, Bool.and_self, Bool.false_eq_true, if_false, if_true]

end

end

/-- An octet written with the not-valid cell is written with zeros (R86). -/
theorem octetWrites_zero (n : Nat) : octetWrites n 0 = (List.range 8).map (fun m => (8 * n + m, (0 : Word64))) := by
  simp [octetWrites, cellWord]

/-- Within a lay no push under way counts as committed (R199). -/
theorem State.sfull_of_within {s : State} {n : Nat} (x : Issue) (hk : s.splKind n = 0) : s.sfull x n = s.splFull n := by
  simp [State.sfull, hk]

end Sys2Proof.Machine
end

section
/-! PROOFS. The statements about pops and pushes. -/

namespace Sys2Proof.Machine

/-- Settles O18: a pop or push that the grant table or the cycle's use of the end refuses raises its cause, and does no more than deliver zeros. -/
theorem refusedSpliceOperations : Obligations.RefusedSpliceOperations := by
  unfold Obligations.RefusedSpliceOperations
  intro s x oct n hx
  rw [← octetWrites_zero]
  refine ⟨fun hg => ?_, fun hg hu => ?_, fun hg => ?_, fun hg hu => ?_⟩
  · exact congrArg _ (State.popOp_not_granted hx oct true hg)
  · exact congrArg _ (State.popOp_clash hx oct true hg hu)
  · exact congrArg _ (State.pushOp_not_granted hx oct hg)
  · exact congrArg _ (State.pushOp_clash hx oct hg hu)

/-- Settles O17: the issued pop or push of a granted end that is free in the cycle takes the cell, or the octet, as its rule says. -/
theorem popsPushesAndFlags : Obligations.PopsPushesAndFlags := by
  unfold Obligations.PopsPushesAndFlags
  intro s x oct pd n a c r hx hn
  rw [exec_poper, exec_popor, exec_pushr, hn]
  refine ⟨fun hg hu => ⟨fun hpop hinj => ⟨?_, ?_, ?_, ?_⟩, fun hpop => ⟨?_, ?_, fun hq => ⟨?_, ?_⟩⟩⟩, fun hg hu => ⟨?_, ?_⟩, ?_, fun hk => ?_⟩
  · exact congrArg _ (State.popOp_cell hx oct hg hu true hpop hinj)
  · exact congrArg _ (State.popOp_cell hx oct hg hu false hpop hinj)
  · exact congrArg _ (State.popOp_cell hx oct hg hu true hpop hinj)
  · exact congrArg _ (State.popOp_cell hx oct hg hu false hpop hinj)
  · exact congrArg _ (State.popOp_empty hx oct hg hu hpop)
  · exact congrArg _ (State.popOp_empty hx oct hg hu hpop)
  · exact congrArg _ (State.popOp_must_empty hx oct hg hu hpop hq)
  · exact congrArg _ (State.popOp_must_empty hx oct hg hu hpop hq)
  · exact congrArg _ (State.pushOp_granted hx oct hg hu)
  · exact congrArg _ (State.pushOp_granted hx oct hg hu)
  · exact congrArg _ (State.when_of_exec hx _)
  · exact congrArg _ ((State.when_of_exec hx _).trans
      (congrArg (fun full => s.inFlight x 3 1 (.preds [(pd.toNat, full)])) (State.sfull_of_within x hk)))

end Sys2Proof.Machine
end

section
/-! SUPPORT. Laws of the XU's key registers and stream unit (R107 to R116, R707). -/

namespace Sys2Proof.Machine

/-- A pair written with zero. -/
theorem pairWrites_zero (r : Nat) : pairWrites r 0 = [(r / 2 * 2, 0), (r / 2 * 2 + 1, 0)] := by
  simp [pairWrites]

/-! ### Key registers (R107 to R110) -/

section
variable {s : State} {x : Issue} (hx : s.exec? x = true)
include hx

/-- A load of a register that is not PENDING erases its key and joins the lay's key port (R107). -/
theorem State.keyLoad_of_free {k : BitVec 2} (hk : ((s.str (issueNo x)).key k.toNat).st ≠ .pending) (op : Nat) (a b : Word64)
    (blob : Cell512) : s.keyLoad x k op a b blob =
      (s.setStr (issueNo x) ((s.str (issueNo x)).setKey k.toNat ⟨.pending, false, 0, ⟨[], 0⟩⟩)).setLay x.lay.val { s.lay x.lay.val with
        keyq := (s.lay x.lay.val).keyq ++ [⟨x.strand.val, k.toNat, op, a, b, blob, false⟩] } := by
  rw [State.keyLoad, State.when_of_exec hx]
  simp only [hk, if_false]
  rfl

/-- A load of a PENDING register is refused with KEY_BUSY (R109). -/
theorem State.keyLoad_of_pending {k : BitVec 2} (hk : ((s.str (issueNo x)).key k.toNat).st = .pending) (op : Nat) (a b : Word64)
    (blob : Cell512) : s.keyLoad x k op a b blob = s.strandCause (issueNo x) 8 := by
  rw [State.keyLoad, State.when_of_exec hx]
  simp only [hk, if_true]

/-! ### AES (R111, R112) -/

theorem exec_aesb_of_ready {k : BitVec 2} {d a : BitVec 6} (hk : ((s.str (issueNo x)).key k.toNat).st = .ready) :
    exec (.aesb x k d a) s = .next (s.inFlight x 3 16 (.regs (pairWrites d.toNat
      (bytesPair (aes (keyBytes ((s.str (issueNo x)).key k.toNat)) (pairBytes ((s.str (issueNo x)).pair a.toNat))))))) := by
  change execAesb x k d a s = _
  rw [execAesb, State.when_of_exec hx]
  simp only [State.ofIssue, hk, reduceCtorEq, if_true, if_false]
  rfl

/-- Whatever the state of a key that is not READY, the pair is written with zero. -/
theorem exec_aesb_of_not_ready {k : BitVec 2} {d a : BitVec 6} (hk : ((s.str (issueNo x)).key k.toNat).st ≠ .ready) {t : State}
    (ht : (if ((s.str (issueNo x)).key k.toNat).st = .pending then s.strandCause (issueNo x) 9
      else if ((s.str (issueNo x)).key k.toNat).st = .empty then s.strandCause (issueNo x) 10 else s) = t) :
    exec (.aesb x k d a) s = .next (t.inFlight x 3 16 (.regs [(d.toNat / 2 * 2, 0), (d.toNat / 2 * 2 + 1, 0)])) := by
  change execAesb x k d a s = _
  rw [execAesb, State.when_of_exec hx, ← ht, ← pairWrites_zero]
  simp only [State.ofIssue, hk, if_false]
  rfl

end

/-- What KST writes (R110). -/
theorem keyStatus_eq (r : KeyReg) : (r.len256 && r.st = .ready : Bool).toNat * 256 + keyStCode r.st =
    keyStCode r.st + if r.len256 ∧ r.st = .ready then 256 else 0 := by
  cases r.len256 <;> by_cases h : r.st = .ready <;> simp [h, Nat.add_comm]

/-! ### The accumulator (R116) -/

theorem setWidth_mul_setWidth (a b : Word64) : a.setWidth 128 * b.setWidth 128 = BitVec.ofNat 128 (a.toNat * b.toNat) := by
  rw [BitVec.ofNat_mul, BitVec.ofNat_toNat, BitVec.ofNat_toNat]

theorem extractLsb'_low (v : BitVec 128) : v.extractLsb' 0 64 = BitVec.ofNat 64 v.toNat := by
  simp [← BitVec.toNat_inj]

theorem extractLsb'_high (v : BitVec 128) : v.extractLsb' 64 64 = BitVec.ofNat 64 (v.toNat / 2 ^ 64) := by
  simp [← BitVec.toNat_inj, Nat.shiftRight_eq_div_pow]

end Sys2Proof.Machine
end

section
/-! PROOFS. The statements about the key registers and the stream unit. -/

namespace Sys2Proof.Machine

/-- Settles O21: the pair is written with zero whatever the state is, and the cause is the one its state names. -/
theorem aesOnAKeyThatIsNotReady : Obligations.AesOnAKeyThatIsNotReady := by
  unfold Obligations.AesOnAKeyThatIsNotReady
  intro s x k d a hx
  refine ⟨fun hk => ?_, fun hk => ?_, fun hk => ?_⟩
  · exact exec_aesb_of_not_ready hx (by simp [hk]) (by simp [hk])
  · exact exec_aesb_of_not_ready hx (by simp [hk]) (by simp [hk])
  · rcases hk with hk | hk | hk | hk
    all_goals exact exec_aesb_of_not_ready hx (by simp [hk]) (by simp [hk])

/-- Settles O19: each operation is its guarded effect, with pairs and wide results as the numbers of their words. -/
theorem keyAndStreamUnitOperations : Obligations.KeyAndStreamUnitOperations := by
  unfold Obligations.KeyAndStreamUnitOperations
  intro s x k d a b oct m hx
  dsimp only
  refine ⟨fun hk => ⟨?_, ?_, ?_⟩, fun hk => ?_, ?_, ?_, fun hk => ?_, fun hk => ?_, ?_, ?_, ?_, ?_, ?_, ?_, ?_, ?_⟩
  · exact congrArg _ (State.keyLoad_of_free hx hk ..)
  · exact congrArg _ (State.keyLoad_of_free hx hk ..)
  · exact congrArg _ (State.keyLoad_of_free hx hk ..)
  · exact congrArg _ (State.keyLoad_of_pending hx hk ..)
  · rw [← keyStatus_eq]
    exact congrArg _ (State.when_of_exec hx _)
  · exact congrArg _ (State.when_of_exec hx _)
  · rw [exec_aesb_of_ready hx hk, bytesPair, pairWrites_ofNat, pairBytes, Strand.pair_toNat]
    rfl
  · exact exec_aesb_of_not_ready hx (by simp [hk]) (by simp [hk])
  · rw [← Strand.pair_toNat, ← Strand.pair_toNat, List.nil_append, ← pairWrites_ofNat]
    exact congrArg _ (State.when_of_exec hx _)
  · exact congrArg _ (State.when_of_exec hx _)
  · exact congrArg _ (State.when_of_exec hx _)
  · rw [← setWidth_mul_setWidth]
    exact congrArg _ (State.when_of_exec hx _)
  · rw [BitVec.ofInt_mul]
    exact congrArg _ (State.when_of_exec hx _)
  · exact congrArg _ (State.when_of_exec hx _)
  · rw [← extractLsb'_low]
    exact congrArg _ (State.when_of_exec hx _)
  · rw [← extractLsb'_high]
    exact congrArg _ (State.when_of_exec hx _)

end Sys2Proof.Machine
end

section
/-! SUPPORT. Laws of the end of a lay cycle (R76, R77): what an operation alone in flight does when it is due, and before. -/

namespace Sys2Proof.Machine

theorem Strand.reg_setReg (t : Strand) (r k : Nat) (v : Word64) : (t.setReg r v).reg k = if k = r then v else t.reg k :=
  look_store (fun _ => 0) t.g k r v

section
variable {s : State} {n c : Nat} {f : Flight} (hf : (s.str n).flight = [f])
include hf

/-- An operation alone in flight, not a commit, acts at the end of the cycle it is due with. -/
theorem State.retireStrand_of_due (hnone : f.target = none) (hrank : f.rank < 4) (hdue : f.due ≤ c) :
    s.retireStrand n c = (s.setStr n { s.str n with flight := [] }).complete n f := by
  have hranks (t : State) : (List.range 4).foldl (fun t r => ([f].filter (fun f => f.rank = r)).foldl (fun t f => t.complete n f) t) t =
      t.complete n f := by
    have : f.rank = 0 ∨ f.rank = 1 ∨ f.rank = 2 ∨ f.rank = 3 := by omega
    rcases this with h | h | h | h <;> simp [List.range_succ, h]
  have hdone : [f].filter (fun f => decide (f.due ≤ c) && f.target.isNone) = [f] := by simp [hnone, hdue]
  have hrest : [f].filter (fun f => decide (c < f.due) || f.target.isSome) = [] := by simp [hnone, hdue]
  simp only [State.retireStrand, hf, hdone, hrest]
  exact hranks _

/-- Before that it stays in flight and nothing changes. -/
theorem State.retireStrand_of_early (hdue : c < f.due) : s.retireStrand n c = s.setStr n { s.str n with flight := [f] } := by
  have hdone : [f].filter (fun f => decide (f.due ≤ c) && f.target.isNone) = [] := by simp [hdue]
  have hrest : [f].filter (fun f => decide (c < f.due) || f.target.isSome) = [f] := by simp [hdue]
  simp only [State.retireStrand, hf, hdone, hrest]
  rfl

end

end Sys2Proof.Machine
end

section
/-! PROOFS. The statement about results in flight. -/

namespace Sys2Proof.Machine

/-- Settles O9: an operation alone in flight acts as one write of its register when it is due, and is kept as it is before. -/
theorem resultsAreWrittenWhenDue : Obligations.ResultsAreWrittenWhenDue := by
  unfold Obligations.ResultsAreWrittenWhenDue
  intro s n c r f v hf hrank hlate
  have hnone : f.target = none := by rw [Flight.target, hlate]
  refine ⟨fun hdue => ?_, fun hdue => ?_⟩
  · have hact : s.retireStrand n c = s.setStr n ({ s.str n with flight := [] }.setReg r v) := by
      rw [State.retireStrand_of_due hf hnone hrank hdue]
      simp only [State.complete, hlate, State.str_setStr_same, State.setStr_setStr]
      rfl
    rw [hact]
    refine ⟨?_, fun k hk => ?_, ?_, fun m hm => State.str_setStr_other _ _ hm, rfl, rfl⟩
    · rw [State.str_setStr_same, Strand.reg_setReg, if_pos rfl]
    · rw [State.str_setStr_same, Strand.reg_setReg, if_neg hk]
      rfl
    · rw [State.str_setStr_same]
      rfl
  · rw [State.retireStrand_of_early hf hdue]
    refine ⟨fun k => ?_, ?_, rfl, rfl⟩
    · rw [State.str_setStr_same]
      rfl
    · rw [State.str_setStr_same]

end Sys2Proof.Machine
end

section
/-! PROOFS. The statement about the service commands of a lay. -/

namespace Sys2Proof.Machine

/-- Settles O24: each command is its block's own operation, its conditions met. That the lay-memory scrubber visits the words in ascending
order is the model's choice (log entry 10). -/
theorem layServiceCommands : Obligations.LayServiceCommands := by
  unfold Obligations.LayServiceCommands
  intro s q lay k bank v count
  dsimp only
  refine ⟨fun hd hdm him => ?_, fun hd hdm him => ?_, fun hst ht => ?_, fun hst hw => ?_, fun hd hlo hhi hok => ?_,
    fun hq hd hb => ?_, fun hm ht => ?_⟩
  · change execStrandScrub lay k s = _
    rw [execStrandScrub, if_pos hd, State.strandScrub]
    simp only [strandNo, hdm, him, if_true]
  · change execStrandScrub lay k s = _
    rw [execStrandScrub, if_pos hd, State.strandScrub]
    simp only [strandNo, hdm, him, if_true, Bool.false_eq_true, if_false]
  · change execDebugDataWrite q lay k v s = _
    have hn : (lay.val * 16 + k.val) / 16 = lay.val ∧ (lay.val * 16 + k.val) % 16 = k.val := by omega
    rw [execDebugDataWrite, State.dbgDataWrite, strandNo, hn.1, hn.2, State.guarded_of_takes (by simpa [hst] using ht)]
    rfl
  · change execLayMemScrub lay bank s = _
    rw [execLayMemScrub, State.lmemScrub, if_pos ⟨hst, hw⟩]
  · change execClockMonitorWindow lay count s = _
    rw [execClockMonitorWindow, State.clockWindow]
    simp only [hd, hok, Nat.not_lt.mpr hlo, Nat.not_lt.mpr hhi, hlo, hhi, Bool.not_true, Bool.false_eq_true,
      if_false, and_self, if_true, Bool.true_or]
    rfl
  · change execLoadPortRead q lay s = _
    rw [execLoadPortRead, State.readBy, hq]
    simp only [State.loadPortRead, hd, hb]
    rfl
  · change execLoadPortWrite q lay v s = _
    rw [execLoadPortWrite, State.ldCommit, State.guarded_of_takes (by simpa [hm] using ht)]

end Sys2Proof.Machine
end

section
/-! SUPPORT. Laws of the writes of LAY_CTRL and LAY_RETURN (R164, R165, R173, R174, R179): what each word does when it is taken. -/

namespace Sys2Proof.Machine

theorem State.armLay_of_loaded {s : State} {n : Nat} (h : s.laySt n = 1) :
    s.armLay n = (s.putF (pa .lay n rLAY_STAT) 2 0 2).putBit (pa .lay n rLAY_CTRL) 0 true := if_pos h

theorem State.disarmLay_of_armed {s : State} {n : Nat} (h : s.laySt n = 2) :
    s.disarmLay n = (s.putF (pa .lay n rLAY_STAT) 2 0 1).putBit (pa .lay n rLAY_CTRL) 0 false := if_pos h

theorem State.disarmLay_of_not_armed {s : State} {n : Nat} (h : s.laySt n ≠ 2) : s.disarmLay n = s := if_neg h

section
variable {s : State} {q : Requester} {n : Nat}

/-- What a write of LAY_CTRL does when it is taken: ARM first, then STOP and RESUME, and GO last. -/
theorem State.layCtrl_of_takes {v : Word32} (hbad : s.layCtrlBad n v = false) (h : s.takes q (pa .lay n rLAY_CTRL) v false) :
    s.layCtrl q n v =
      let t := if bit v 0 then s.armLay n else if bit v 3 then s else s.disarmLay n
      let t := if bit v 1 then t.putBit (pa .lay n rLAY_STAT) 4 true else t
      let t := if bit v 2 then t.setLay n { t.lay n with resume := true } else t
      if bit v 3 then t.strobe else t := by
  rw [State.layCtrl, State.guarded_of_takes (by rwa [hbad])]

/-- ARM = 1 in a LOADED lay (R179). -/
theorem State.layCtrl_arm (hst : s.laySt n = 1) (h : s.takes q (pa .lay n rLAY_CTRL) 1 false) : s.layCtrl q n 1 = s.armLay n := by
  rw [State.layCtrl_of_takes (by simp [State.layCtrlBad, bit, hst]) h]
  simp [bit]

/-- A word of zeros (R179). -/
theorem State.layCtrl_zero (h : s.takes q (pa .lay n rLAY_CTRL) 0 false) : s.layCtrl q n 0 = s.disarmLay n := by
  rw [State.layCtrl_of_takes (by simp [State.layCtrlBad, bit]) h]
  simp [bit]

/-- GO alone (R164). -/
theorem State.layCtrl_go (h : s.takes q (pa .lay n rLAY_CTRL) 8 false) : s.layCtrl q n 8 = s.strobe := by
  rw [State.layCtrl_of_takes (by simp [State.layCtrlBad, bit]) h]
  simp [bit]

/-- GO with ARM = 1 in a LOADED lay: the lay is armed first and starts with the others (R164, R179). -/
theorem State.layCtrl_arm_go (hst : s.laySt n = 1) (h : s.takes q (pa .lay n rLAY_CTRL) 9 false) :
    s.layCtrl q n 9 = (s.armLay n).strobe := by
  rw [State.layCtrl_of_takes (by simp [State.layCtrlBad, bit, hst]) h]
  simp [bit]

/-- STOP of a lay past ARMED (R165). -/
theorem State.layCtrl_stop (hst : 3 ≤ s.laySt n) (h : s.takes q (pa .lay n rLAY_CTRL) 2 false) :
    s.layCtrl q n 2 = s.putBit (pa .lay n rLAY_STAT) 4 true := by
  have harm : s.laySt n ≠ 2 := by omega
  rw [State.layCtrl_of_takes (by simp [State.layCtrlBad, bit]; omega) h]
  simp [bit, State.disarmLay_of_not_armed harm]

/-- RESUME of a HELD lay (R174). -/
theorem State.layCtrl_resume (hst : s.laySt n = 4) (h : s.takes q (pa .lay n rLAY_CTRL) 4 false) :
    s.layCtrl q n 4 = s.setLay n { s.lay n with resume := true } := by
  have harm : s.laySt n ≠ 2 := by omega
  rw [State.layCtrl_of_takes (by simp [State.layCtrlBad, bit, hst]) h]
  simp [bit, State.disarmLay_of_not_armed harm]

end

/-- The word of LAY_RETURN that names a strand: REQ, and the strand in bits 3:0 (R173). -/
theorem layReturnWord (k : Fin 16) :
    bit (BitVec.ofNat 32 (2 ^ 31 + k.val)) 31 = true ∧ bits (BitVec.ofNat 32 (2 ^ 31 + k.val)) 3 0 = k.val := by
  decide +revert

/-- LAY_RETURN of a strand in the out-set of a lay in RUN or HELD: the strand waits for its return at the turn boundary (R173). -/
theorem State.layReturn_of_out {s : State} {q : Requester} {n : Nat} {k : Fin 16} (hst : s.laySt n = 3 ∨ s.laySt n = 4)
    (hk : (s.outSet n).testBit k.val = true) (h : s.takes q (pa .lay n rLAY_RETURN) (BitVec.ofNat 32 (2 ^ 31 + k.val)) false) :
    s.layReturn q n (BitVec.ofNat 32 (2 ^ 31 + k.val)) =
      (s.setLay n { s.lay n with ret := (s.lay n).ret.filter (· ≠ k.val) ++ [k.val] }).putBit (pa .lay n rLAY_STAT) 3 true := by
  obtain ⟨hreq, hstrand⟩ := layReturnWord k
  have hstate : (decide (s.laySt n ≠ 3) && decide (s.laySt n ≠ 4)) = false := by
    rcases hst with hst | hst <;> simp [hst]
  rw [State.layReturn, hreq, hstrand, hk, hstate]
  exact State.guarded_of_takes h

section
variable {s : State} {lay : Fin 8} {k : Fin 16}

/-- LAY_RETURN of a requester other than the Lanyard is the write of its register. -/
theorem exec_layReturn_other {q : Requester} (hq : q ≠ .normal) :
    exec (.layReturn q lay k) s = .next (s.layReturn q lay.val (BitVec.ofNat 32 (2 ^ 31 + k.val))) :=
  congrArg _ (if_pos hq)

/-- The Lanyard returns no strand that R175 keeps out. -/
theorem exec_layReturn_kept (hmay : s.mayReturn lay.val k.val false = false) : exec (.layReturn .normal lay k) s = .next s := by
  change execLayReturn .normal lay k s = _
  simp [execLayReturn, hmay]

/-- The Lanyard returns a strand that R175 lets it and R173 does not refuse. -/
theorem exec_layReturn_normal (hmay : s.mayReturn lay.val k.val false = true) (href : s.returnRefused lay.val k.val = false) :
    exec (.layReturn .normal lay k) s = .next (s.doReturn lay.val k.val) := by
  change execLayReturn .normal lay k s = _
  simp [execLayReturn, hmay, href]

end

end Sys2Proof.Machine
end

section
/-! PROOFS. The statement about the control of a lay. -/

namespace Sys2Proof.Machine

/-- Settles O22: each command is the write of its word, which the lay's state does not refuse. A return by the Lanyard rests on R175, its 24
hours counted in operating seconds by the model's reading (log entry 34). -/
theorem layControlCommands : Obligations.LayControlCommands := by
  unfold Obligations.LayControlCommands
  intro s q lay k
  dsimp only
  refine ⟨fun hst h => ?_, fun hst h => ?_, fun h => ?_, fun hst h => ?_, fun hst h => ?_, fun hst h => ?_, fun hst hk h hq => ?_,
    fun hmay href => ?_, fun hmay => ?_⟩
  · exact congrArg _ ((State.layCtrl_arm hst h).trans (State.armLay_of_loaded hst))
  · exact congrArg _ ((State.layCtrl_zero h).trans (State.disarmLay_of_armed hst))
  · exact congrArg _ (State.layCtrl_go h)
  · exact congrArg _ ((State.layCtrl_arm_go hst h).trans (congrArg State.strobe (State.armLay_of_loaded hst)))
  · exact congrArg _ (State.layCtrl_stop hst h)
  · exact congrArg _ (State.layCtrl_resume hst h)
  · exact (exec_layReturn_other hq).trans (congrArg _ (State.layReturn_of_out hst hk h))
  · exact exec_layReturn_normal hmay href
  · exact exec_layReturn_kept hmay

end Sys2Proof.Machine
end

section
/-! SUPPORT. Laws of the shared engines (R107 to R109, R137 to R144, R478): the key port, the completions, and the slots of the DDR and PKE
frames. -/

namespace Sys2Proof.Machine

/-! ### The key port (R107 to R109, R489) -/

@[simp] theorem Strand.key_setKey_same (t : Strand) (k : Nat) (v : KeyReg) : (t.setKey k v).key k = v :=
  look_store_same ..

theorem State.str_bumpBk (s : State) (a i limit n m : Nat) : (s.bumpBk a i limit n).str m = s.str m :=
  State.setBk_str_read ..

/-- The KDF page's counters are no part of a strand. -/
theorem State.str_countLoad (s : State) (lay pending : Nat) (st : KeySt) (m : Nat) : (s.countLoad lay pending st).str m = s.str m := by
  unfold State.countLoad
  split
  · rfl
  · dsimp only
    rw [State.setBk_str_read]
    split_ifs <;> simp only [State.str_bumpBk]

/-- The oldest load of a lay, not cancelled and its register PENDING still: the register becomes the load's outcome (R107 to R109). -/
theorem exec_keyLoadDone_pending {s : State} {lay : Fin 8} {r : KeyReq} {rest : List KeyReq} (hq : (s.lay lay.val).keyq = r :: rest)
    (hc : r.cancelled = false)
    (hp : (((s.serveLoad lay.val r).2.str (strandNo lay.val r.strand)).key r.k).st = .pending) :
    ∃ t, exec (.keyLoadDone lay) s = .next t ∧ (t.str (strandNo lay.val r.strand)).key r.k = (s.serveLoad lay.val r).1 := by
  change ∃ t, execKeyLoadDone lay s = .next t ∧ _
  simp only [execKeyLoadDone, hq, State.str_countLoad, State.setLay_str_read, hc, hp, ne_eq, not_true, or_false, Bool.false_eq_true,
    if_false]
  exact ⟨_, rfl, by rw [State.str_setStr_same, Strand.key_setKey_same]⟩

/-! ### Completions (R137, R196) -/

theorem State.deliverOldest_of_find {s : State} {code : Nat} {e : Nat × Nat × List Cell512}
    (h : s.outbox.find? (fun x => x.1 = code) = some e) :
    s.deliverOldest code = ({ s with outbox := s.outbox.erase e } : State).offerAll e.2.1 e.2.2 := by
  simp only [State.deliverOldest, h]

/-- A verification's end is counted where one waits to be delivered (R478). -/
theorem exec_pkeVerifyComplete_of_find {s : State} {e : Nat × Nat × List Cell512} (h : s.outbox.find? (fun x => x.1 = 12) = some e) :
    exec .pkeVerifyComplete s = .next ((s.deliverOldest 12).bumpMod (pa .pke 0 rPKE_DONE_CNT) 1) := by
  have hany : s.outbox.any (fun x => x.1 = 12) = true := List.any_eq_true.mpr ⟨e, List.mem_of_find?_eq_some h, by simpa using List.find?_some h⟩
  exact congrArg _ (if_pos hany)

/-! ### The DDR frame (R139, R164) -/

/-- A slot of the DDR frame opened: the next one follows it, and its kind is the one in use. -/
def State.ddrOpened (s : State) (slot : Nat) : State :=
  { s with rig := { s.rig with ddrAt := (slot + 1) % 4096, slotUse := s.rig.ddr.getD slot 0 / 4096 } }

/-- A lay's ports are no part of the frames. -/
theorem State.port_rig (s : State) (g : Rig) (lay kind port : Nat) :
    ({ s with rig := g } : State).port lay kind port = s.port lay kind port := rfl

section
variable {s : State} {slot : BitVec 12} (hd : s.domOn 14 = true) (he : s.bitAt (pa .ddr 0 0x00C) 0 = true) (hf : s.rig.frames = true)
  (hat : s.rig.ddrAt = slot.toNat)
include hd he hf hat

/-- The frame runs and the slot is in turn. -/
theorem State.ddrSlot_in_turn :
    ¬ (!(s.domOn 14 && s.bitAt (pa .ddr 0 0x00C) 0 && s.rig.frames) || decide (s.rig.ddrAt ≠ slot.toNat)) = true := by
  simp [hd, he, hf, hat]

/-- The scrubber's slot in turn. -/
theorem exec_ddrSlot_scrub (ho : s.rig.ddr.getD slot.toNat 0 / 4096 = 3) :
    exec (.ddrSlot slot) s = .next (s.ddrOpened slot.toNat).ddrScrubSlot := by
  change execDdrSlot slot s = _
  rw [execDdrSlot, if_neg (State.ddrSlot_in_turn hd he hf hat)]
  dsimp only
  rw [if_neg (by omega), if_pos ho]
  rfl

/-- A lay port's slot in turn, the rigging having the port (R139). -/
theorem exec_ddrSlot_port {req comp : Nat} (ho : s.rig.ddr.getD slot.toNat 0 / 4096 = 1)
    (hport : s.port (nbits (s.rig.ddr.getD slot.toNat 0) 11 9) 0 (nbits (s.rig.ddr.getD slot.toNat 0) 8 6) = some (req, comp)) :
    exec (.ddrSlot slot) s = .next ((s.ddrOpened slot.toNat).ddrRequest req comp) := by
  change execDdrSlot slot s = _
  rw [execDdrSlot, if_neg (State.ddrSlot_in_turn hd he hf hat)]
  dsimp only
  rw [if_pos ho, State.port_rig, hport]
  rfl

/-- A slot in turn of any other kind is left to its owner (R33, R35, log entry 34). -/
theorem exec_ddrSlot_other (hport : s.rig.ddr.getD slot.toNat 0 / 4096 ≠ 1) (hscrub : s.rig.ddr.getD slot.toNat 0 / 4096 ≠ 3) :
    exec (.ddrSlot slot) s = .next (s.ddrOpened slot.toNat) := by
  change execDdrSlot slot s = _
  rw [execDdrSlot, if_neg (State.ddrSlot_in_turn hd he hf hat)]
  dsimp only
  rw [if_neg hport, if_neg hscrub]
  rfl

end

/-! ### The PKE frame (R144, R477) -/

/-- The slot in turn of the PKE frame passed: the next one follows it, and the Lanyard's slots in a row are counted (R477, log entry 34). -/
def State.pkePassed (s : State) : State :=
  { s with rig := { s.rig with
      pkeAt := (s.rig.pkeAt + 1) % 20, pkeRun := if s.pkeOwner s.rig.pkeAt = 8 then s.rig.pkeRun + 1 else 0 } }

section
variable {s : State}

/-- A slot inside a P-384 operation (R144). -/
theorem State.pkeStep_busy (h : 0 < s.rig.pkeBusy) :
    s.pkeStep = { s.pkePassed with rig := { s.pkePassed.rig with pkeBusy := s.rig.pkeBusy - 1 } } := if_pos h

/-- A lay's slot with the engine free: the lay's oldest request is taken, one of three slots where the lay owns the next two as well. -/
theorem State.pkeStep_lay {lay : Nat} (h : s.rig.pkeBusy = 0) (ho : s.pkeOwner s.rig.pkeAt = lay) (hlay : lay < 8) :
    s.pkeStep = s.pkePassed.pkeTake lay
      (s.pkeOwner (s.rig.pkeAt + 1) = s.pkeOwner s.rig.pkeAt && s.pkeOwner (s.rig.pkeAt + 2) = s.pkeOwner s.rig.pkeAt) := by
  subst ho
  exact (if_neg (Nat.not_lt.mpr h.le)).trans (if_pos hlay)

/-- A slot of no lay with the engine free. -/
theorem State.pkeStep_no_lay (h : s.rig.pkeBusy = 0) (ho : 8 ≤ s.pkeOwner s.rig.pkeAt) : s.pkeStep = s.pkePassed :=
  (if_neg (Nat.not_lt.mpr h.le)).trans (if_neg (Nat.not_lt.mpr ho))

/-- The slot in turn passes while the frames run. -/
theorem exec_pkeSlot_in_turn {p : Fin 20} (hd : s.domOn 16 = true) (hf : s.rig.frames = true) (hat : s.rig.pkeAt = p.val) :
    exec (.pkeSlot p) s = .next s.pkeStep := by
  change execPkeSlot p s = _
  simp [execPkeSlot, hd, hf, hat]

/-- A lay's request waits for a slot of the lay. -/
theorem exec_pkeVerifyRequest_in_turn {lay : Fin 8} (hd : s.domOn 16 = true) (hf : s.rig.frames = true)
    (ho : s.pkeOwner s.rig.pkeAt = lay.val) : exec (.pkeVerifyRequest lay) s = .next s.pkeStep := by
  change execPkeVerifyRequest lay s = _
  simp [execPkeVerifyRequest, hd, hf, ho]

end

end Sys2Proof.Machine
end

section
/-! PROOFS. The statement about the key port and the shared engines. -/

namespace Sys2Proof.Machine

/-- Settles O25: each command is the answer or the slot of its engine. That a slot opened is the one in use (R33, R35) and that slots
coded 0x8 are counted for the Lanyard's job (R477) is the model's reading (log entry 34). -/
theorem sharedEngineCommands : Obligations.SharedEngineCommands := by
  unfold Obligations.SharedEngineCommands
  intro s lay slot p r rest e req comp
  refine ⟨fun hq hc hp => exec_keyLoadDone_pending hq hc hp, fun hd he hf hat => ?_, fun h => ?_, fun hd hf hat => ?_, fun h => ?_⟩
  · exact ⟨exec_ddrSlot_scrub hd he hf hat, exec_ddrSlot_port hd he hf hat, exec_ddrSlot_other hd he hf hat⟩
  · exact congrArg _ (State.deliverOldest_of_find h)
  · have hslot := exec_pkeSlot_in_turn hd hf hat
    rw [← hat] at *
    refine ⟨fun hb => ?_, fun hb ho => ?_, fun hb ho => ?_, fun hb ho => ?_⟩
    · exact hslot.trans (congrArg _ (State.pkeStep_busy hb))
    · exact hslot.trans (congrArg _ (State.pkeStep_lay hb rfl ho))
    · exact hslot.trans (congrArg _ (State.pkeStep_no_lay hb ho))
    · exact (exec_pkeVerifyRequest_in_turn hd hf ho).trans (congrArg _ (State.pkeStep_lay hb ho lay.isLt))
  · rw [← State.deliverOldest_of_find h]
    exact exec_pkeVerifyComplete_of_find h

end Sys2Proof.Machine
end

section
/-! SUPPORT. Laws of a load order and of a replacement (R161, R162, R166): the outcome of each, by the check and by what runs. -/

namespace Sys2Proof.Machine

/-! ### A load order -/

section
variable {s : State} {b : List Byte} {supplied : Nat} {close : State → State}

/-- An image that fails a check changes nothing but the report, which is sent as an event (R161, R162). -/
theorem State.rigOrder_of_failed {f : Nat × Nat × Nat × Nat} (h : rigCheck s b supplied = some f) :
    s.rigOrder b supplied close =
      ({ s with rig := { s.rig with failed := f } } : State).lanyEvent 0x20 [f.1, f.2.1, f.2.2.1, f.2.2.2] := by
  simp only [State.rigOrder, h]

/-- A sound image where no lay runs is loaded and started (R161). -/
theorem State.rigOrder_of_none_active (h : rigCheck s b supplied = none) (ha : s.activeLays = []) :
    s.rigOrder b supplied close = ({ s with rig := { s.rig with buffer := b } } : State).loadRigging.armAndGo := by
  simp only [State.rigOrder, h]
  exact if_neg (not_not.mpr ha)

/-- A sound image where a lay runs closes admission and waits for DRAINED (R166 steps 1 and 2). -/
theorem State.rigOrder_of_active (h : rigCheck s b supplied = none) (ha : s.activeLays ≠ []) :
    let z : State := { s with rig := { s.rig with buffer := b } }
    s.rigOrder b supplied close = { close z with rig := { (close z).rig with waiting := true, reopen := z.anyOpen } } := by
  simp only [State.rigOrder, h]
  exact if_pos ha

end

/-- An order from DDR waits for a slot of the host in the DDR frame (R35, R139, log entry 34). -/
theorem exec_riggingLoad_waits {s : State} (addr len : Nat) (h : s.hostTurn = false) : exec (.riggingLoad true addr len) s = .next s := by
  change execRiggingLoad true addr len s = _
  simp only [execRiggingLoad, h, Bool.not_false, Bool.and_self, if_true]

/-- An order from NOR, or from DDR in a slot of the host, is carried out on the image as it reads. -/
theorem exec_riggingLoad_served {s : State} {fromDdr : Bool} (addr len : Nat) (h : fromDdr = false ∨ s.hostTurn = true) :
    exec (.riggingLoad fromDdr addr len) s = .next
      ((s.imageAt fromDdr addr (min len (2 ^ 24))).2.rigOrder (s.imageAt fromDdr addr (min len (2 ^ 24))).1 len State.closeAll) := by
  have hserved : ¬ (fromDdr && !s.hostTurn) = true := by
    rcases h with h | h <;> simp [h]
  exact congrArg _ (if_neg hserved)

/-! ### A replacement -/

section
variable {s : State}

/-- DRAINED has come to a replacement that waits for it (R166 step 4). -/
theorem exec_riggingReplaceDrained_waiting (hw : s.rig.waiting = true) (hd : s.bitAt (pa .ingest 0 rING_STAT) 17 = true) :
    exec .riggingReplaceDrained s = .next (if s.activeLays = [] then s.stopAll.replaceGo else s.stopAll) := by
  change execRiggingReplaceDrained s = _
  simp only [execRiggingReplaceDrained, hw, hd, Bool.and_self, if_true]

theorem exec_riggingReplaceDrained_idle (h : s.rig.waiting = false ∨ s.bitAt (pa .ingest 0 rING_STAT) 17 = false) :
    exec .riggingReplaceDrained s = .next s := by
  have hidle : ¬ (s.rig.waiting && s.bitAt (pa .ingest 0 rING_STAT) 17) = true := by
    rcases h with h | h <;> simp [h]
  exact congrArg _ (if_neg hidle)

/-- The time-out of a replacement that waits for DRAINED still: NOT_DRAINED (R166 step 3). -/
theorem exec_riggingReplaceTimeout_waiting (hw : s.rig.waiting = true) (hd : s.bitAt (pa .ingest 0 rING_STAT) 17 = false) :
    exec .riggingReplaceTimeout s =
      .next (({ s with rig := { s.rig with waiting := false, failed := (0x80, 0xFF, 0xFF, 0) } } : State).reopen.replyLater 0x10 3 0x80 []) := by
  have hwaits : (s.rig.waiting && !s.bitAt (pa .ingest 0 rING_STAT) 17) = true := by simp [hw, hd]
  exact congrArg _ (if_pos hwaits)

theorem exec_riggingReplaceTimeout_idle (h : s.rig.waiting = false ∨ s.bitAt (pa .ingest 0 rING_STAT) 17 = true) :
    exec .riggingReplaceTimeout s = .next s := by
  have hidle : ¬ (s.rig.waiting && !s.bitAt (pa .ingest 0 rING_STAT) 17) = true := by
    rcases h with h | h <;> simp [h]
  exact congrArg _ (if_neg hidle)

end

end Sys2Proof.Machine
end

section
/-! PROOFS. The statement about loads and replacements of a rigging. -/

namespace Sys2Proof.Machine

/-- Settles O27: an order served is decided by its first failed check and then by whether a lay runs, a replacement by DRAINED. That an order
from DDR waits for a slot of the host rests on R35 and R139 by the model's reading (log entry 34). -/
theorem riggingCommands : Obligations.RiggingCommands := by
  unfold Obligations.RiggingCommands
  intro s fromDdr addr len f b r z
  refine ⟨fun hddr ht => ?_, fun hserved => ?_, fun hw hd => ?_, exec_riggingReplaceTimeout_waiting, exec_riggingReplaceDrained_idle,
    exec_riggingReplaceTimeout_idle⟩
  · subst hddr
    exact exec_riggingLoad_waits addr len ht
  · have horder : exec (.riggingLoad fromDdr addr len) s = .next (r.rigOrder b len State.closeAll) :=
      exec_riggingLoad_served addr len hserved
    refine ⟨fun hc ha => ?_, fun hc ha => ?_, fun hc => ?_, ?_⟩
    · exact horder.trans (congrArg _ (State.rigOrder_of_none_active hc ha))
    · exact horder.trans (congrArg _ (State.rigOrder_of_active hc ha))
    · exact horder.trans (congrArg _ (State.rigOrder_of_failed hc))
    · refine horder.trans (congrArg _ ?_)
      rcases hc : rigCheck r b len with _ | g
      · by_cases ha : r.activeLays = []
        · exact (State.rigOrder_of_none_active hc ha).trans (if_pos ha).symm
        · exact (State.rigOrder_of_active hc ha).trans (if_neg ha).symm
      · exact State.rigOrder_of_failed hc
  · rw [exec_riggingReplaceDrained_waiting hw hd]
    exact ⟨fun ha => congrArg _ (if_pos ha), fun ha => congrArg _ (if_neg ha)⟩

end Sys2Proof.Machine
end

section
/-! SUPPORT. Laws of the splice commands (R191 to R210): what each does when its condition holds. -/

namespace Sys2Proof.Machine

/-! ### Writes of a descriptor and of SPL_FLUSH (R191, R192, R207) -/

section
variable {s : State} {q : Requester} {n : Nat} {v : Word32}

/-- SPD_CFG taken: its fields are stored and the splice is emptied (R192). -/
theorem State.splCfg_of_takes (h : s.takes q (descA n 0) v (s.cfgBad n v)) :
    s.splCfg q n v = (s.wr (descA n 0) (cfgAfter (s.rd (descA n 0)) v)).splEmptied n := State.guarded_of_takes h

/-- SPD_ENDS taken: its fields are stored, and the splice keeps its cells (R191). -/
theorem State.splEnds_of_takes (h : s.takes q (descA n 1) v (s.endsBad n v)) :
    s.splEnds q n v = s.wr (descA n 1) (endsAfter (s.rd (descA n 1)) v) := State.guarded_of_takes h

/-- SPL_FLUSH with GO taken for an idle splice (R207). -/
theorem State.splFlush_of_takes (hgo : bit v 31 = true) (hn : bits v 12 0 = n) (hidle : s.splIdle n = true)
    (h : s.takes q (pa .splice 0 rSPL_FLUSH) v false) : s.splFlush q v = s.splEmptied n := by
  rw [State.splFlush, hgo, hn, hidle]
  exact State.guarded_of_takes h

end

/-- The word of SPLICE_FLUSH is GO with the splice's number (R207). -/
theorem spliceFlush_word (m : BitVec 13) :
    bit (BitVec.ofNat 32 (2 ^ 31 + m.toNat)) 31 = true ∧ bits (BitVec.ofNat 32 (2 ^ 31 + m.toNat)) 12 0 = m.toNat := by
  have hm := m.isLt
  constructor
  · rw [bit, BitVec.getLsbD_ofNat, Nat.testBit_two_pow_add_eq, Nat.testBit_lt_two_pow (by omega)]
    rfl
  · simp only [bits, nbits, BitVec.toNat_ofNat]
    omega

theorem exec_spliceFlush (q : Requester) (m : BitVec 13) (s : State) :
    exec (.spliceFlush q m) s = .next (s.splFlush q (BitVec.ofNat 32 (2 ^ 31 + m.toNat))) := rfl

/-! ### Pointer copies of the other end (R199, R711) -/

section
variable {s : State} {m : BitVec 13}

/-- A splice of KIND 0 has one clock: nothing crosses. -/
theorem exec_crossDomainVisibility_within (freed : Bool) (h : s.splKind m.toNat = 0) : exec (.crossDomainVisibility m freed) s = .next s :=
  congrArg _ (if_pos h)

/-- On any other splice the named end's copy of the other end's pointer is brought up to date. -/
theorem exec_crossDomainVisibility_crossing (freed : Bool) (h : s.splKind m.toNat ≠ 0) :
    exec (.crossDomainVisibility m freed) s = .next (s.setSpl m.toNat
      (if freed then { s.spl m.toNat with rSeen := (s.spl m.toNat).r.t.toNat }
        else { s.spl m.toNat with wSeen := (s.spl m.toNat).w.t.toNat })) :=
  congrArg _ (if_neg h)

end

/-! ### A held cell's commit (R196, R202) -/

/-- A commit in a reset's window is discarded and counted (R202). -/
theorem State.blockPut_window {s : State} {n : Nat} (c : Cell512) (h : 0 < (s.spl n).window) :
    s.blockPut n c = s.bump (pa .splice 0 rSPL_RST_DROP) 1 := if_pos h

theorem State.blockPut_open {s : State} {n : Nat} (c : Cell512) (h : (s.spl n).window = 0) : s.blockPut n c = s.commitAt n c :=
  if_neg (by omega)

/-- The oldest cell held for a splice leaves the held cells and is put, once the producer's view shows space (R196). -/
theorem exec_blockCommit_space {s : State} {m : BitVec 13} {h : Nat × Cell512} (hfind : s.held.find? (fun e => e.1 = m.toNat) = some h)
    (hfull : s.splFull m.toNat = false) :
    exec (.blockCommit m) s = .next (({ s with held := s.held.erase h } : State).blockPut m.toNat h.2) := by
  change execBlockCommit m s = _
  simp only [execBlockCommit, hfind, hfull, Bool.false_eq_true, if_false]

/-! ### The check of a pointer (R201, R202) -/

section
variable {s : State} {m : BitVec 13} {n : Nat} {producer : Bool}

/-- Copies that agree change nothing. -/
theorem State.pointerCheck_of_agree :
    let p := if producer then (s.spl n).w else (s.spl n).r
    p.c = ~~~p.t → s.pointerCheck n producer = s :=
  fun h => if_pos (decide_eq_true h)

/-- Copies that disagree, none to restore the other from, reset the splice (R201). -/
theorem State.pointerCheck_of_lost :
    let p := if producer then (s.spl n).w else (s.spl n).r
    p.c ≠ ~~~p.t → p.restore = none → s.pointerCheck n producer = s.ptrReset n := by
  intro p h hlost
  have hagree : ¬ p.agree = true := by simpa [Ptr.agree] using h
  rw [State.pointerCheck, if_neg hagree, hlost]

/-- A reset's window runs down by one, and the pointers are not compared (R202). -/
theorem exec_pointerCheck_window (hen : s.splEn m.toNat = true) (hw : 0 < (s.spl m.toNat).window) :
    exec (.pointerCheck m producer) s = .next (s.setSpl m.toNat { s.spl m.toNat with window := (s.spl m.toNat).window - 1 }) := by
  change execPointerCheck m producer s = _
  rw [execPointerCheck, hen, if_neg (by simp), if_pos hw]

/-- Outside a window the pointer of the named end is compared (R201). -/
theorem exec_pointerCheck_open (hen : s.splEn m.toNat = true) (hw : (s.spl m.toNat).window = 0) :
    exec (.pointerCheck m producer) s = .next (s.pointerCheck m.toNat producer) := by
  change execPointerCheck m producer s = _
  rw [execPointerCheck, hen, if_neg (by simp), if_neg (by omega)]

end

/-! ### The pool's words (R203, R204, R210) -/

/-- A clean word is reported nowhere (R203). -/
theorem State.poolFound_clean (s : State) (cell w : Nat) (scrub : Bool) : s.poolFound cell w 0 scrub = s := rfl

/-- The scrubber passes a clean word whose bank is not in use, and steps to the next (R204). -/
theorem exec_poolScrub_clean {s : State} {busy : Option (Fin 16)} (hd : s.domOn 1 = true)
    (hbusy : ∀ b, busy = some b → b.val ≠ s.poolScrub / 65536) (hclean : s.eccOf .pool (8 * s.poolScrub) = 0) :
    exec (.poolScrub busy) s = .next { s with poolScrub := (s.poolScrub + 1) % 1048576 } := by
  have hturn : ¬ (!s.domOn 1 || busy.any (fun b => b.val = s.poolScrub / 65536)) = true := by
    simpa [hd, Option.any_eq_false] using hbusy
  change execPoolScrub busy s = _
  simp only [execPoolScrub, if_neg hturn, hclean, State.poolFound_clean, zero_ne_one, if_false]

/-- A read clears nothing where the register has no field of kind RC (R12). -/
theorem State.clearRc_of_no_rc {s : State} {a i : Nat} {p : Pg} (h : Machine.pageAt (a / 4096) = some (p, i))
    (hrc : (rowAt p (a % 4096)).all (fun r => !r.fields.any (fun f => f.acc = .rc)) = true) : s.clearRc a = s := by
  simp only [State.clearRc, h]
  rcases hrow : rowAt p (a % 4096) with _ | r
  · rfl
  · have hfields : r.fields.any (fun f => f.acc = .rc) = false := by simpa [hrow] using hrc
    simp only [hfields, Bool.false_and, Bool.false_eq_true, if_false]

/-- A read of SPL_PEEK_DATA returns its value and loads the reader's latch, and does nothing else (R56, R210). -/
theorem State.read64_peek (s : State) (q : Requester) :
    s.read64 q (pa .splice 0 rSPL_PEEK_DATA) =
      { s.setLatch q (pa .splice 0 rSPL_PEEK_DATA) ((s.viewWide (pa .splice 0 rSPL_PEEK_DATA)).extractLsb' 32 32) with
        rdata := s.viewWide (pa .splice 0 rSPL_PEEK_DATA) } :=
  State.clearRc_of_no_rc (a := pa .splice 0 rSPL_PEEK_DATA) (p := .splice) (i := 0) (by decide) (by decide)

theorem State.domOn_read64_peek (s : State) (q : Requester) (d : Nat) :
    (s.read64 q (pa .splice 0 rSPL_PEEK_DATA)).domOn d = s.domOn d := by
  rw [State.read64_peek]
  rfl

section
variable {s : State} {q : Requester}

theorem exec_poolPeek_denied (h : s.noAccess q = true) : exec (.poolPeek q) s = .next { s with rdata := 0 } := congrArg _ (if_pos h)

theorem exec_poolPeek_allowed (h : s.noAccess q = false) : exec (.poolPeek q) s = .next (s.poolPeek q) :=
  congrArg _ (if_neg (by simp [h]))

/-- With SYS off the read checks no word. -/
theorem State.poolPeek_off (h : s.domOn 1 = false) : s.poolPeek q = s.read64 q (pa .splice 0 rSPL_PEEK_DATA) :=
  if_neg (by simp [State.domOn_read64_peek, h])

/-- With SYS on the word read is checked as a consumer's is (R203, R210). -/
theorem State.poolPeek_on (h : s.domOn 1 = true) :
    s.poolPeek q =
      let k := s.rd (pa .splice 0 rSPL_PEEK_ADDR)
      let t := s.read64 q (pa .splice 0 rSPL_PEEK_DATA)
      t.poolFound (bits k 19 3) (bits k 2 0) (t.eccOf .pool (bits k 19 3 * 64 + bits k 2 0 * 8)) false :=
  if_pos (by rw [State.domOn_read64_peek, h])

end

end Sys2Proof.Machine
end

section
/-! PROOFS. The statement about the splice commands. -/

namespace Sys2Proof.Machine

/-- Settles O26: each command is its write, its commit, its check or its read, by the condition it meets. That a pointer reset clears OVERRUN
too is the model's choice (log entry 34). -/
theorem spliceCommands : Obligations.SpliceCommands := by
  unfold Obligations.SpliceCommands
  intro s q m v producer busy h n D0 x p w
  refine ⟨fun ht => congrArg _ (State.splCfg_of_takes ht), fun ht => congrArg _ (State.splEnds_of_takes ht),
    exec_crossDomainVisibility_crossing true, exec_crossDomainVisibility_crossing false, exec_crossDomainVisibility_within producer,
    fun hfind hfull hw => ?_, fun hfind hfull hw => ?_, exec_pointerCheck_window, fun hen hw hp => ?_, fun hen hw hp hlost => ?_,
    exec_poolScrub_clean, fun hidle ht => ?_, fun ha hd => ?_, exec_poolPeek_denied, fun ha hd => ?_⟩
  · exact (exec_blockCommit_space hfind hfull).trans (congrArg _ (State.blockPut_window h.2 hw))
  · exact (exec_blockCommit_space hfind hfull).trans (congrArg _ (State.blockPut_open h.2 hw))
  · exact (exec_pointerCheck_open hen hw).trans (congrArg _ (State.pointerCheck_of_agree hp))
  · exact (exec_pointerCheck_open hen hw).trans (congrArg _ (State.pointerCheck_of_lost hp hlost))
  · obtain ⟨hgo, hn⟩ := spliceFlush_word m
    exact (exec_spliceFlush q m s).trans (congrArg _ (State.splFlush_of_takes hgo hn hidle ht))
  · exact (exec_poolPeek_allowed ha).trans (congrArg _ (State.poolPeek_off hd))
  · exact (exec_poolPeek_allowed ha).trans (congrArg _ (State.poolPeek_on hd))

end Sys2Proof.Machine
end

section
/-! SUPPORT. Laws of INGEST (R212 to R232, R245, R251, R252): what each write of its registers does when it is taken, what its time brings, and
how a frame of one reading is decided. -/

namespace Sys2Proof.Machine

/-! ### Words of a command with a number in their low bits -/

/-- Bit 31 of a word that is 2^31 and a smaller number. -/
theorem bit_goWord {n : Nat} (h : n < 2 ^ 31) : bit (BitVec.ofNat 32 (2 ^ 31 + n)) 31 = true := by
  rw [bit, BitVec.getLsbD_ofNat, Nat.testBit_two_pow_add_eq, Nat.testBit_lt_two_pow h]
  rfl

/-- The word of SOURCE_COMMIT: COMMIT, class 0 and the source (R252). -/
theorem sourceCommit_word (i : BitVec 12) :
    bit (BitVec.ofNat 32 (2 ^ 31 + i.toNat)) 31 = true ∧ bits (BitVec.ofNat 32 (2 ^ 31 + i.toNat)) 18 16 = 0 ∧
      bits (BitVec.ofNat 32 (2 ^ 31 + i.toNat)) 11 0 = i.toNat := by
  have hi := i.isLt
  refine ⟨bit_goWord (by omega), ?_, ?_⟩ <;>
  · simp only [bits, nbits, BitVec.toNat_ofNat]
    omega

/-- The word of SOURCE_LOAD: LOAD without COMMIT, class 0 and the source (R251). -/
theorem sourceLoad_word (i : BitVec 12) :
    bit (BitVec.ofNat 32 (2 ^ 30 + i.toNat)) 31 = false ∧ bit (BitVec.ofNat 32 (2 ^ 30 + i.toNat)) 30 = true ∧
      bits (BitVec.ofNat 32 (2 ^ 30 + i.toNat)) 18 16 = 0 ∧ bits (BitVec.ofNat 32 (2 ^ 30 + i.toNat)) 11 0 = i.toNat := by
  have hi := i.isLt
  refine ⟨?_, ?_, ?_, ?_⟩
  · rw [bit, BitVec.getLsbD_ofNat, Nat.testBit_lt_two_pow (by omega), Bool.and_false]
  · rw [bit, BitVec.getLsbD_ofNat, Nat.testBit_two_pow_add_eq, Nat.testBit_lt_two_pow (by omega)]
    rfl
  · simp only [bits, nbits, BitVec.toNat_ofNat]
    omega
  · simp only [bits, nbits, BitVec.toNat_ofNat]
    omega

/-! ### Writes of INGEST's registers (R225, R231, R251, R252) -/

section
variable {s : State} {q : Requester}

/-- EN set where it was 0: no opening has been, the next refill is a period away, and the retry generator is seeded (R225, R230, R231). -/
theorem State.ingEnable_of_takes (hoff : s.bitAt (ingA 0x00C) 0 = false) (h : s.takes q (ingA 0x00C) 1 false) :
    s.ingEnable q 1 =
      let y := s.putBit (ingA 0x00C) 0 true
      (({ y with ing := { y.ing with opened := false } } : State).setTimer (ingA 0x00C) (y.now + 1000000)).reseed := by
  rw [State.ingEnable, State.guarded_of_takes h]
  simp only [hoff, Bool.not_false, and_true]
  exact if_pos rfl

/-- What a write of ING_CTRL does when it is taken: OPEN_ALL before OPEN_SEQ before CLOSE_ALL. -/
theorem State.ingCtrl_of_takes {v : Word32} (h : s.takes q (ingA rING_CTRL) v false) :
    s.ingCtrl q v =
      if bit v 2 then s.openAll else if bit v 1 then s.openSequence else if bit v 0 then s.closeAll
      else (s.putBit (ingA rING_CTRL) 0 false).drainCheck :=
  State.guarded_of_takes h

theorem State.ingCtrl_closeAll (h : s.takes q (ingA rING_CTRL) 1 false) : s.ingCtrl q 1 = s.closeAll := by
  rw [State.ingCtrl_of_takes h]
  simp [bit]

theorem State.ingCtrl_openSeq (h : s.takes q (ingA rING_CTRL) 2 false) : s.ingCtrl q 2 = s.openSequence := by
  rw [State.ingCtrl_of_takes h]
  simp [bit]

theorem State.ingCtrl_openAll (h : s.takes q (ingA rING_CTRL) 4 false) : s.ingCtrl q 4 = s.openAll := by
  rw [State.ingCtrl_of_takes h]
  simp [bit]

/-- A write of ING_SRC_SEL with COMMIT, when it is taken (R252). -/
theorem State.srcSel_commit {i : BitVec 12} (h : s.takes q (ingA rING_SRC_SEL) (BitVec.ofNat 32 (2 ^ 31 + i.toNat)) (s.commitBad i.toNat)) :
    s.srcSel q (BitVec.ofNat 32 (2 ^ 31 + i.toNat)) =
      (((s.putF (ingA rING_SRC_SEL) 18 16 0).putF (ingA rING_SRC_SEL) 11 0 i.toNat).readSource i.toNat).commitSource i.toNat := by
  obtain ⟨hcommit, hclass, hsource⟩ := sourceCommit_word i
  rw [State.srcSel, hcommit, hclass, hsource]
  exact State.guarded_of_takes h

/-- A write of ING_SRC_SEL with LOAD alone, when it is taken (R251). -/
theorem State.srcSel_load {i : BitVec 12} (h : s.takes q (ingA rING_SRC_SEL) (BitVec.ofNat 32 (2 ^ 30 + i.toNat)) false) :
    s.srcSel q (BitVec.ofNat 32 (2 ^ 30 + i.toNat)) =
      (((s.putF (ingA rING_SRC_SEL) 18 16 0).putF (ingA rING_SRC_SEL) 11 0 i.toNat).readSource i.toNat).loadSource i.toNat := by
  obtain ⟨hcommit, hload, hclass, hsource⟩ := sourceLoad_word i
  rw [State.srcSel, hcommit, hload, hclass, hsource]
  exact State.guarded_of_takes h

end

/-! ### The latency ring (R242, R245, R253) -/

section
variable {s : State} {seq : Nat}

/-- Of an admission whose word of the ring is uncorrectable nothing is measured (R253). -/
theorem State.ackReport_of_bad (h : s.ing.ringBad.contains (seq % 65536) = true) :
    s.ackReport seq = ({ s with ing := { s.ing with
      ring := drop s.ing.ring (seq % 65536), ringBad := s.ing.ringBad.filter (· ≠ seq % 65536) } } : State).settle :=
  if_pos h

/-- An acknowledgement within the limit, or of an entry counted late before, is measured and settled (R245). -/
theorem State.ackReport_of_entry {e : RingE} (hgood : s.ing.ringBad.contains (seq % 65536) = false)
    (hring : look (fun _ => none) s.ing.ring (seq % 65536) = some e) (hseq : e.seq = seq)
    (hin : s.now - e.time ≤ s.lateLimit ∨ e.counted = true) :
    s.ackReport seq =
      let y := { s with ing := { s.ing with ring := drop s.ing.ring (seq % 65536) } }
      (y.wr (ingA rING_LAT_MAX) (BitVec.ofNat 32 (max (y.rd (ingA rING_LAT_MAX)).toNat
        (min (2 ^ 32 - 1) ((s.now - e.time) / 1000))))).settle := by
  have hlimit : ∀ (y : State) (v : Word32), (y.wr (ingA rING_LAT_MAX) v).lateLimit = y.lateLimit := fun y v => by
    rw [State.lateLimit, State.fld, State.rd_wr, if_neg (by decide)]
    rfl
  have hnot : ¬ (s.lateLimit < s.now - e.time ∧ (!e.counted) = true) := by
    rintro ⟨hlate, hfresh⟩
    rcases hin with hin | hin
    · omega
    · simp [hin] at hfresh
  rw [State.ackReport, if_neg (by rw [hgood]; exact Bool.false_ne_true)]
  simp only [hring, hseq, if_true, hlimit]
  exact congrArg State.settle (if_neg hnot)

/-- An entry alone in the ring, sound and older than the limit, is counted late once (R245). -/
theorem exec_lateScan_one {t k : Nat} {e : RingE} (hring : (s.at t).ing.ring = [(k, some e)])
    (hgood : (s.at t).ing.ringBad.contains k = false) (hfresh : e.counted = false) (hlate : (s.at t).lateLimit < (s.at t).now - e.time) :
    exec (.lateScan t) s = .next (
      let y := (s.at t).countLate
      { y with ing := { y.ing with ring := Machine.store (fun _ => none) y.ing.ring k (some { e with counted := true }) } }) := by
  change execLateScan t s = _
  simp only [execLateScan, hring, List.foldl_cons, List.foldl_nil, hgood, hfresh, hlate, Bool.not_false, and_self, if_true]

end

/-! ### What time brings (R225, R230, R231) -/

section
variable {s : State}

/-- A source's bucket filled for one period, up to its burst (R225). -/
def State.refill (s : State) (i : Nat) : State :=
  (s.readSource i).setSource i { (s.readSource i).source i with
    credit := min (((s.readSource i).source i).credit + ((s.readSource i).source i).rate) (((s.readSource i).source i).burst * 1000) }

theorem exec_creditRefill_on (h : (s.domOn 1 && s.bitAt (ingA 0x00C) 0) = true) :
    exec .creditRefill s = .next (s.refilled.foldl State.refill s) :=
  congrArg _ (if_neg (by simp [h]))

theorem exec_ingestReseed_on (h : (s.domOn 1 && s.bitAt (ingA 0x00C) 0) = true) : exec .ingestReseed s = .next s.reseed :=
  congrArg _ (if_pos h)

theorem exec_classOpenStep_running (hd : s.domOn 1 = true) (hrun : s.bitAt (ingA rING_STAT) 16 = true) :
    exec .classOpenStep s = .next (s.openStep s.ing.nibble) :=
  congrArg _ (if_pos (by simp [hd, hrun]))

end

/-! ### A frame of one reading (R215, R228) -/

section
variable {s : State} {f : Frame}

theorem State.takeUnit_of_unclassified (hd : s.domOn 1 = true) (h : s.classify f = none) : s.takeUnit f = s.discard := by
  simp only [State.takeUnit, hd, h, Bool.not_true, Bool.false_eq_true, if_false]

/-- A source that is VALID and admits the class of a reading does not have it discarded (R215). -/
theorem Source.not_barred {x : Source} {i : Item} (hvalid : x.valid = true) (hmask : x.mask.testBit i.cls = true) :
    ¬ (!x.ue && (!x.valid || [i].any (fun i => !x.mask.testBit i.cls))) = true := by
  simp [hvalid, hmask]

/-- The one reading of a frame is decided with no cell promised before it. -/
theorem State.decideAll_one (s : State) (src port : Nat) (hold : Bool) (i : Item) :
    s.decideAll src port hold [i] [] =
      ([(i, (s.decideOne src port hold i (fun _ => 0)).1)], (s.decideOne src port hold i (fun _ => 0)).2) := rfl

section
variable {i : Item} {u : State} (hd : s.domOn 1 = true) (hf : s.classify f = some ([i], none)) (hu : s.readSource (s.sourceOf f) = u)
include hd hf hu

/-- A frame of a source that is not VALID or bars the class is discarded (R215). -/
theorem State.takeUnit_of_barred (hue : (u.source (s.sourceOf f)).ue = false)
    (hbar : (u.source (s.sourceOf f)).valid = false ∨ (u.source (s.sourceOf f)).mask.testBit i.cls = false) :
    s.takeUnit f = u.discard := by
  have hout : (!(u.source (s.sourceOf f)).ue && (!(u.source (s.sourceOf f)).valid ||
      [i].any (fun i => !(u.source (s.sourceOf f)).mask.testBit i.cls))) = true := by
    rcases hbar with h | h <;> simp [hue, h]
  simp only [State.takeUnit, hd, hf, hu, hout, Bool.not_true, Bool.false_eq_true, if_false, if_true]

section
variable (hvalid : (u.source (s.sourceOf f)).valid = true) (hmask : (u.source (s.sourceOf f)).mask.testBit i.cls = true)
include hvalid hmask

/-- A reading of number 0 that is admitted is dealt to its splice; the frame's bitmap of admitted readings is 1 (R218). -/
theorem State.takeUnit_of_admitted {seq n : Nat} {d : State} (hno : i.no = 0)
    (h : u.decideOne (s.sourceOf f) f.port.val (u.heldBack f) i (fun _ => 0) = (.admitted seq n, d)) :
    (s.takeUnit f).2 = d.offerAll n (frameCells f (s.sourceOf f) (u.source (s.sourceOf f)).reply i seq 1 1 none) := by
  have hbitmap : bitmapOf [(i, .admitted seq n)] Fate.isAdmitted = 1 := by simp [bitmapOf, hno, Fate.isAdmitted]
  have hcount : [(i, Fate.admitted seq n)].countP (fun e => e.2.isAdmitted) = 1 := rfl
  have hnone : ¬ [(i, Fate.admitted seq n)].any (fun e => e.2.isRefused) = true := Bool.false_ne_true
  simp only [State.takeUnit, hd, hf, hu, Source.not_barred hvalid hmask, State.decideAll_one, h, hbitmap, hcount, hnone,
    List.foldl_cons, List.foldl_nil, Bool.not_true, Bool.false_eq_true, if_false, Nat.one_ne_zero]

/-- A reading that is refused is answered (R229). -/
theorem State.takeUnit_of_refused {w : Why} {d : State}
    (h : u.decideOne (s.sourceOf f) f.port.val (u.heldBack f) i (fun _ => 0) = (.refused w, d)) :
    (s.takeUnit f).2 = (d.refusalReply f (s.sourceOf f) [(i, .refused w)] none).2 := by
  have hsome : [(i, Fate.refused w)].any (fun e => e.2.isRefused) = true := rfl
  simp only [State.takeUnit, hd, hf, hu, Source.not_barred hvalid hmask, State.decideAll_one, h, hsome,
    List.foldl_cons, List.foldl_nil, Bool.not_true, Bool.false_eq_true, if_false, if_true]

end

end

/-- The fate of a reading of no more than 512 bytes follows the verdict (R228). -/
theorem State.decideOne_fst {src port : Nat} {hold : Bool} {i : Item} {taken : Nat → Nat} (hsize : i.tooBig = false) :
    (s.decideOne src port hold i taken).1 =
      (s.verdict src hold i taken).elim Fate.refused (fun p => .admitted (s.rd (ingA rING_SEQ)).toNat p.2) := by
  rw [State.decideOne, if_neg (by simp [hsize])]
  cases s.verdict src hold i taken <;> rfl

end

end Sys2Proof.Machine
end

section
/-! PROOFS. The statements about INGEST's registers and about the admission of a frame. -/

namespace Sys2Proof.Machine

/-- Settles O39: each command is the write of its word or the work of its time, its condition met. That the latency is cut to whole microseconds
in ING_LAT_MAX is the model's choice (log entry 12, R245). -/
theorem ingestCommands : Obligations.IngestCommands := by
  unfold Obligations.IngestCommands
  intro s q t i seq e r n on bad sel
  refine ⟨fun hoff h => ?_, exec_creditRefill_on, exec_ingestReseed_on, fun h => ?_, exec_classOpenStep_running, fun h => ?_, fun h => ?_,
    fun h => ?_, fun hgood hring hseq hin => ?_, fun hring => ?_, exec_lateScan_one, fun h => ?_, fun h => ?_⟩
  · exact congrArg Host.Outcome.next (State.ingEnable_of_takes hoff h)
  · exact congrArg Host.Outcome.next (State.ingCtrl_openSeq h)
  · exact congrArg Host.Outcome.next (State.ingCtrl_closeAll h)
  · exact congrArg Host.Outcome.next (State.ingCtrl_openAll h)
  · exact congrArg Host.Outcome.next (State.ackReport_of_bad h)
  · exact congrArg Host.Outcome.next (State.ackReport_of_entry hgood hring hseq hin)
  · change execLateScan t s = _
    rw [execLateScan, hring, List.foldl_nil]
  · exact congrArg Host.Outcome.next (State.srcSel_commit (i := i) h)
  · exact congrArg Host.Outcome.next (State.srcSel_load (i := i) h)

/-- Settles O40: the frame's one reading is decided as the classifier, its source and the verdict say. -/
theorem frameAdmission : Obligations.FrameAdmission := by
  unfold Obligations.FrameAdmission
  intro s f t i w l n r src u x hold d hd
  refine ⟨fun hf => ?_, fun hf hue hbar => ?_, fun hf hvalid hmask hsize hno => ⟨fun hv => ?_, fun hv => ?_⟩⟩
  · exact congrArg (fun p : Answer × State => Host.Outcome.next p.2) (State.takeUnit_of_unclassified hd hf)
  · exact congrArg (fun p : Answer × State => Host.Outcome.next p.2) (State.takeUnit_of_barred hd hf rfl hue hbar)
  · have hfate := (State.decideOne_fst (s := u) (port := f.port.val) hsize).trans (congrArg _ hv)
    exact congrArg Host.Outcome.next (State.takeUnit_of_admitted hd hf rfl hvalid hmask hno (Prod.ext hfate rfl))
  · have hfate := (State.decideOne_fst (s := u) (port := f.port.val) hsize).trans (congrArg _ hv)
    exact congrArg Host.Outcome.next (State.takeUnit_of_refused hd hf rfl hvalid hmask (Prod.ext hfate rfl))

end Sys2Proof.Machine
end

section
/-! SUPPORT. Laws of the reading path (R235 to R242, R246 to R250): validation, the durable acknowledgement, and what becomes of a query. -/

namespace Sys2Proof.Machine

/-! ### Validation (R235) -/

/-- The reading at the front of the lay's interface splice is popped whole and validated; a taint of any of its cells, or of the strand that
writes, goes with it. -/
theorem exec_readingValidate_of_reading {s u v : State} {t n : Nat} {lay : Fin 8} {c : Cell512} {ue : Bool} {cs : List Cell512}
    (hlay : (s.at t).toLay 1 lay.val = some n) (hpop : (s.at t).pop n = (some (c, ue), u)) (hfirst : cellFirst c = true)
    (hcells : u.popMany n (max 1 ((bits (cellWord c 3) 15 0 + 55) / 56)) = (cs, v))
    (strand : Fin 16) (rd : Reading) (overlaps : Bool) (spot : BitVec 34) (bal : BitVec 13) :
    exec (.readingValidate lay strand rd overlaps spot bal t) s = .next (
      v.validate lay.val (strandNo lay.val strand.val) spot.toNat bal.toNat overlaps (descOf c)
        ((cs.flatMap (fun x => cellBytes x 56)).take (bits (cellWord c 3) 15 0))
        (ue || cellTaint c || cs.any cellTaint || (v.str (strandNo lay.val strand.val)).tainted) rd) := by
  change execReadingValidate lay strand rd overlaps spot bal t s = _
  simp only [execReadingValidate, hlay, hpop, hfirst, hcells, Bool.not_true, Bool.false_eq_true, if_false]

/-! ### The stored epoch (R577): it goes by the memories and the die's waiting writes alone -/

section
variable {s t : State}

theorem State.setBytes_mem_eq (h : s.mem = t.mem) (sp : Space) (a : Nat) (l : List Byte) :
    (s.setBytes sp a l).mem = (t.setBytes sp a l).mem := by
  induction l generalizing s t a with
  | nil => exact h
  | cons b l ih => exact ih (congrArg (fun m => Machine.store memDefault m (sp.base + a) b) h) (a + 1)

/-- Writes done one after another go by the memories they find. -/
theorem State.foldl_setBytes_mem_eq (h : s.mem = t.mem) (w : List (Nat × (Nat × List Byte))) :
    (w.foldl (fun s e => s.setBytes .fram e.2.1 e.2.2) s).mem = (w.foldl (fun s e => s.setBytes .fram e.2.1 e.2.2) t).mem := by
  induction w generalizing s t with
  | nil => exact h
  | cons e w ih => exact ih (State.setBytes_mem_eq h .fram e.2.1 e.2.2)

theorem State.die_mem_eq (hm : s.mem = t.mem) (ht : s.totals = t.totals) : s.die.mem = t.die.mem := by
  unfold State.die
  rw [ht]
  split
  · exact hm
  · simp only [State.dieServe, ht]
    refine State.foldl_setBytes_mem_eq ?_ _
    exact hm

theorem State.epoch_eq (hm : s.mem = t.mem) (ht : s.totals = t.totals) : s.epoch = t.epoch := by
  have hword : ∀ a n, s.die.le .fram a n = t.die.le .fram a n := fun a n => by
    simp only [State.le, State.bytes, State.byte, State.die_mem_eq hm ht]
  simp only [State.epoch, State.pairCopy, hword]

end

/-! ### The durable acknowledgement (R240, R241) -/

/-- The acknowledgement of a reading of no batch whose record is durable is offered to a transmit splice of its port. -/
theorem exec_ackCommit_of_durable {s : State} {t : Nat} {seq : BitVec 32} {p : Pend} {lbn : BitVec 18} {page : BitVec 10} {i : BitVec 8}
    {m : BitVec 13} (hfind : (s.at t).readings.find? (fun x => x.seq = seq.toNat && !x.acked) = some p) (hreply : p.reply ≠ 0)
    (hdurable : (s.at t).isDurable p lbn.toNat page.toNat i.toNat = true)
    (hend : (s.at t).fld (descA m.toNat 1) 12 8 = txEnd p.port) (lay : Fin 8) :
    exec (.ackCommit lay seq lbn page i m t) s = .next (
      ({ s.at t with readings := (s.at t).readings.map (fun x => if x = p then { p with acked := true } else x) } : State).offer m.toNat
        (ackCell p (s.at t).epoch false)) := by
  have hepoch : ∀ l, ({ s.at t with readings := l } : State).epoch = (s.at t).epoch := fun _ => State.epoch_eq rfl rfl
  change execAckCommit lay seq lbn page i m t s = _
  simp only [execAckCommit, hfind, hdurable, hend, hreply, hepoch, ne_eq, not_true, or_false, Bool.not_true,
    Bool.false_eq_true, if_false]

/-! ### Queries (R246 to R250) -/

section
variable {s : State} {c : Cell512} (out : Nat)

/-- A lay that holds 16 queries answers with status 3. -/
theorem State.takeQuery_of_full (h : 16 ≤ s.work.queries.length) : s.takeQuery out c = s.offer out (endCell (cellAux c) 0 3) :=
  if_pos h

section
variable (hroom : s.work.queries.length < 16)
include hroom

/-- A query that is not well formed is answered with status 4. -/
theorem State.takeQuery_of_malformed (h : queryOf c = none) : s.takeQuery out c = s.offer out (endCell (cellAux c) 0 4) := by
  simp only [State.takeQuery, if_neg (Nat.not_le.mpr hroom), h]

section
variable {q : Query} {v : State} (hq : queryOf c = some q)
include hq

/-- A query of a meter that the table does not hold is answered with status 2. -/
theorem State.takeQuery_of_unknown (h : s.queryMeter q = (false, v)) : s.takeQuery out c = v.offer out (endCell (cellAux c) 0 2) := by
  simp only [State.takeQuery, if_neg (Nat.not_le.mpr hroom), hq, h, Bool.not_false, if_true]

/-- A query of a meter of the table is held with the records it selects, status 1 where they are more than it asks for. -/
theorem State.takeQuery_of_known (h : s.queryMeter q = (true, v)) :
    s.takeQuery out c =
      { v with work := { v.work with queries := v.work.queries ++
        [⟨out, cellAux c, (q.fill (v.records.filter q.selects)).take q.most, 0,
          if q.most < (q.fill (v.records.filter q.selects)).length then 1 else 0⟩] } } := by
  simp only [State.takeQuery, if_neg (Nat.not_le.mpr hroom), hq, h, Bool.not_true, Bool.false_eq_true, if_false]

end

end

end

/-- The storing lay takes the query it pops, and serves the queries it then holds. -/
theorem exec_query_of_popped {s u : State} {ring reply : Fin 64} {owner : Nat} {c : Cell512} {ue : Bool}
    (howner : s.ringOwner ring.val reply.val = some owner) (hstore : storeLay owner = true)
    (hpop : s.pop (6144 + ring.val) = (some (c, ue), u)) :
    exec (.query ring reply) s = .next (
      (u.takeQuery (6144 + reply.val) c).serveQueries owner (u.takeQuery (6144 + reply.val) c).work.queries) := by
  change execQuery ring reply s = _
  simp only [execQuery, howner, Option.filter_some, hstore, if_true, hpop]

end Sys2Proof.Machine
end

section
/-! PROOFS. The statement about the reading path. -/

namespace Sys2Proof.Machine

/-- Settles O41: a reading popped is validated, a durable one acknowledged, and a query popped taken and served. That the transmit splice is an
operand with the port's block as its end is the model's choice (log entry 18), and which lay owns paired rings and the stored records its
reading of R25 and R37 (log entry 34). -/
theorem readingPathCommands : Obligations.ReadingPathCommands := by
  unfold Obligations.ReadingPathCommands
  intro s u v t lay strand rd overlaps spot bal n owner c ue cs p seq lbn page i m ring reply qy known r out len me asked go all
  have hquery : ∀ {z : State}, asked → u.takeQuery out c = z → exec (.query ring reply) s = .next (go z) := by
    rintro z ⟨howner, hstore, hpop⟩ rfl
    exact exec_query_of_popped howner hstore hpop
  refine ⟨fun hlay hpop hfirst hcells => ?_, fun hfind hreply hdurable hend => ?_, fun ha hfull => ?_, fun ha hroom hq => ?_,
    fun ha hroom hq hm => ⟨fun hk => ?_, fun hk => ?_⟩⟩
  · exact exec_readingValidate_of_reading hlay hpop hfirst hcells strand rd overlaps spot bal
  · exact exec_ackCommit_of_durable hfind hreply hdurable hend lay
  · exact hquery ha (State.takeQuery_of_full out hfull)
  · exact hquery ha (State.takeQuery_of_malformed out hroom hq)
  · exact hquery ha (State.takeQuery_of_unknown out hroom hq (hk ▸ hm))
  · exact hquery ha (State.takeQuery_of_known out hroom hq (hk ▸ hm))

end Sys2Proof.Machine
end

section
/-! SUPPORT. Laws of the Ethernet ports (R668 to R672): what becomes of a received frame by its contents, what a port sends, its link, its cache
and its management bus, and the acknowledgement cells that every port consumes (R242). -/

namespace Sys2Proof.Machine

/-! ### Reception (R668 to R670) -/

/-- A neighbour learned from a frame: the cache filled with an on-link source's MAC address (R670). -/
def State.learn (s : State) (n : Nat) (f : EthFrame) : State :=
  if f.ip && s.onLink n f.src then s.cacheFill n f.src f.srcMac else s

/-- What a frame received with no error injected becomes, by the counter its discard counts in: a fragment's sender is learned all the same. -/
def State.ethOutcome (s : State) (n : Fin 6) (f : EthFrame) : Option Nat → State
  | some i => if i = 4 then (s.learn n.val f).ethFragment n.val else s.ethCount n.val i
  | none => (s.learn n.val f).ethBody n f

theorem exec_ethFrameReceived_of_got {s v : State} {t : Nat} {n : Fin 6} (raw : List (BitVec 8))
    (hgot : (s.at t).ethUp n.val = true ∧ (s.at t).inject (ethPg n.val).1 (ethPg n.val).2 0 1 = (0, v)) :
    exec (.ethFrameReceived n raw t) s = .next (v.ethOutcome n (ethParse raw) (v.ethBad n.val (ethParse raw))) := by
  obtain ⟨hup, hin⟩ := hgot
  change execEthFrameReceived n raw t s = _
  simp only [execEthFrameReceived, hup, hin, Bool.not_true, Bool.false_eq_true, if_false, if_true, OfNat.zero_ne_ofNat]
  cases v.ethBad n.val (ethParse raw) <;> rfl

/-! ### What the contents of a frame do (R669) -/

section
variable {s : State} {n : Fin 6} {f : EthFrame}

/-- A datagram for one of INGEST's two ports at an address of the port is handed to INGEST. -/
theorem State.ethBody_udp {sp dp : BitVec 16} {l : List Byte} (hb : f.body = .udp sp dp l)
    (hknown : dp.toNat = s.fld (ingA rING_UDP_PORTS) 15 0 ∨ dp.toNat = s.fld (ingA rING_UDP_PORTS) 31 16)
    (hdst : f.dst ∈ s.ethOwn n.val) : s.ethBody n f = (s.ethCount n.val 0).ethAdmit n f sp dp l := by
  simp only [State.ethBody, hb]
  exact if_pos ⟨hknown, hdst⟩

theorem State.ethBody_badSum (hb : f.body = .badSum) : s.ethBody n f = s.ethCount n.val 2 := by
  simp only [State.ethBody, hb]

/-- A solicitation of an address of the port is answered, to all nodes where its sender has no address. -/
theorem State.ethBody_solicit {target : BitVec 128} (hb : f.body = .solicit target) (hown : (s.ethOwn n.val).contains target = true) :
    s.ethBody n f = ((s.ethCount n.val 0).ethCount n.val 10).advertise n.val target (if f.src = 0 then allNodes else f.src)
      (decide (f.src ≠ 0)) := by
  simp only [State.ethBody, hb]
  exact if_pos hown

/-- An echo request of at most 1,280 bytes to an address of the port is answered where ETH_CFG has it so. -/
theorem State.ethBody_echo {l : List Byte} (hb : f.body = .echo l) (hcfg : s.bitAt (ethA n.val rETH_CFG) 17 = true)
    (hsize : 4 + l.length ≤ 1280) (hdst : f.dst ∈ s.ethOwn n.val) :
    s.ethBody n f = ((s.ethCount n.val 0).ethCount n.val 11).ethSend n.val f.dst f.src (0, 0) (icmp6 f.dst f.src 129 0 l) := by
  simp only [State.ethBody, hb]
  exact if_pos ⟨hcfg, hsize, hdst⟩

theorem State.ethBody_ptp {l : List Byte} (hb : f.body = .ptp l) :
    s.ethBody n f = (s.ethCount n.val 0).ptpTake n.val false f.dstMac l := by
  simp only [State.ethBody, hb]

theorem State.ethBody_other (hb : f.body = .other) : s.ethBody n f = s.ethCount n.val 3 := by
  simp only [State.ethBody, hb]

end

/-! ### Advertisements and sending (R669 to R671) -/

/-- An advertisement that is owed is sent of an address still in force. -/
theorem exec_neighbourAdvertisement_owed {s : State} {n : Fin 6} {k : Fin 5} (hup : s.ethUp n.val = true)
    (howed : k.val ∈ (s.ethPort n.val).adv) :
    let a := s.setEthPort n.val { s.ethPort n.val with adv := (s.ethPort n.val).adv.erase k.val }
    a.ethUsable n.val k.val = true →
      exec (.neighbourAdvertisement n k) s = .next (a.advertise n.val (a.ethAddr n.val k.val) allNodes false) := by
  intro a husable
  have hgo : ¬ (!s.ethUp n.val || !(s.ethPort n.val).adv.contains k.val) = true := by simp [hup, howed]
  exact congrArg Host.Outcome.next ((if_neg hgo).trans (if_pos husable))

/-- The oldest frame of a port's queue is sent where no advertisement is owed. -/
theorem exec_ethTransmit_queued {s : State} {t : Nat} {n : Fin 6} {dst : BitVec 128} {l : List Byte} {rest : List (BitVec 128 × List Byte)}
    (hup : (s.at t).ethUp n.val = true) (hadv : ((s.at t).ethPort n.val).adv = [])
    (hqueue : ((s.at t).ethPort n.val).queue = (dst, l) :: rest) (spl : BitVec 13) :
    exec (.ethTransmit n spl t) s =
      .next (((s.at t).setEthPort n.val { (s.at t).ethPort n.val with queue := rest }).send n.val dst l) := by
  change execEthTransmit n spl t s = _
  simp only [execEthTransmit, hqueue, List.cons_ne_nil, if_false, hup, hadv, decide_true, Bool.and_self, if_true]

/-! ### The link (R671, R672) -/

/-- A port's status with the link up or down: on an SGMII port with its speed, on SGMII_0 with the partner's word. -/
def State.linkSet (s : State) (p : Nat) (up fast : Bool) (an : BitVec 16) : State :=
  let lk := s.putBit (ethA p rETH_STAT) 0 up
  let sp := lk.putF (ethA p rETH_STAT) 5 4 (if up then 1 + fast.toNat else 0)
  if p < 4 then lk.putBit (ethA p rETH_STAT) 2 up else if p = 4 then sp.wr (ethA p rSG_AN) (an.setWidth 32) else sp

/-- A change of the link is an interrupt, its loss a cause as well. -/
theorem exec_ethLinkChange_on {s : State} {n : Fin 6} {was : Bool} (hon : s.netOn = true) (hwas : s.bitAt (ethA n.val rETH_STAT) 0 = was)
    (up fast : Bool) (an : BitVec 16) :
    exec (.ethLinkChange n up fast an) s = .next (
      let y := s.linkSet n.val up fast an
      let z := if was ≠ up then y.ethIrq n.val 0 else y
      if was && !up then z.ethCause n.val 2 else z) := by
  change execEthLinkChange n up fast an s = _
  rw [execEthLinkChange, hon, hwas]
  rfl

/-! ### The neighbour cache and the management bus (R672) -/

section
variable {s : State} {q : Requester}

theorem State.ethFlush_of_takes {n : Nat} (h : s.takes q (ethA n rETH_NC_FLUSH) 0x80000000 false) :
    s.ethFlush q n 0x80000000 = s.setEthPort n { s.ethPort n with cache := [] } := by
  rw [State.ethFlush, State.guarded_of_takes h]
  exact if_pos rfl

/-- An access with no earlier one under way goes out on the bus, and its answer waits (R672). -/
theorem State.mdio_of_takes {w : Word32} (hgo : bit w 31 = true) (hidle : (s.ethPort 4).mdio = none)
    (h : s.takes q (ethA 4 rSG_MDIO) w false) (answer : BitVec 16) :
    s.mdio q w answer =
      let pl := s.plain (ethA 4 rSG_MDIO) (w.setWidth 64)
      let wn := (pl.rd (ethA 4 rSG_MDIO)).toNat
      let md := pl.send 23 0 (toBe 4 (wn % 2 ^ 27 + nbits wn 30 28 * 2 ^ 28))
      (md.setEthPort 4 { md.ethPort 4 with mdio := some (md.now, answer) }).putBit (ethA 4 rSG_MDIO) 27 false := by
  have hsettle : s.mdioSettle = s := by simp only [State.mdioSettle, hidle]
  rw [State.mdio, hgo, hsettle, hidle]
  refine (State.guarded_of_takes h).trans ?_
  rw [hsettle]
  rfl

end

/-- The word of MDIO_ACCESS: GO above the access's fields (R672). -/
theorem bit_mdioWord (c45 : Bool) (op : BitVec 2) (phy reg : BitVec 5) (data : BitVec 16) :
    bit (BitVec.ofNat 32 (2 ^ 31 + c45.toNat * 2 ^ 30 + op.toNat * 2 ^ 28 + phy.toNat * 2 ^ 21 + reg.toNat * 2 ^ 16 + data.toNat)) 31 = true := by
  have hfields : c45.toNat * 2 ^ 30 + op.toNat * 2 ^ 28 + phy.toNat * 2 ^ 21 + reg.toNat * 2 ^ 16 + data.toNat < 2 ^ 31 := by
    have hc := c45.toNat_le
    have hop := op.isLt
    have hphy := phy.isLt
    have hreg := reg.isLt
    have hdata := data.isLt
    omega
  have hword := bit_goWord hfields
  simp only [← Nat.add_assoc] at hword
  exact hword

/-! ### Acknowledgement cells (R242) -/

/-- A port that takes the acknowledgement at the front of a splice of its block end, and holds no part of it yet, reports it and acts on it. -/
theorem State.ackConsume_of_front {s u : State} {port n : Nat} {c c' : Cell512} {cs gone : List Cell512}
    (hd : s.domOn (portDomain port) = true) (hend : s.fld (descA n 1) 12 8 = txEnd port)
    (hroom : 1 < portKind port ∨ (s.ethPort port).queue.length < 64) (hfresh : s.begun n = []) (hfront : s.peekCell n 0 = some c)
    (hhere : s.ackHere port c = true) (htake : s.takeMessage (txEnd port) n 2 = (gone, c' :: cs, u)) :
    s.ackConsume port n = (u.ackReport (cellAux c')).ackAct port c' cs := by
  have hfull : (decide (portKind port ≤ 1) && decide (64 ≤ (s.ethPort port).queue.length)) = false := by
    rcases hroom with h | h <;> simp [Nat.not_le.mpr h]
  simp only [State.ackConsume, hd, hend, hfull, hfresh, hfront, hhere, htake, Option.any_some, ne_eq, not_true, decide_false, Bool.not_true,
    Bool.or_false, Bool.false_eq_true, if_false, if_true]

end Sys2Proof.Machine
end

section
/-! PROOFS. The statement about the Ethernet ports. -/

namespace Sys2Proof.Machine

/-- Settles O59: a frame acts by its contents, and each other command is its port's own operation, its conditions met. That the echo limit counts
the ICMPv6 message, the octets of the answers of neighbour discovery and ICMPv6, and the time of an access of the management bus are the
model's choices (log entry 31). -/
theorem ethernetCommands : Obligations.EthernetCommands := by
  unfold Obligations.EthernetCommands
  intro s q t n raw v i k spl dst l rest up fast an op phy reg data answer port c c' cs gone u sp dp target y p f got fill x a E lk sp5 lc
    M w pl wn md m known
  have hlink : ∀ {was : Bool}, s.netOn = true → s.bitAt E 0 = was → exec (.ethLinkChange n up fast an) s =
      .next (if was && !up then (if was ≠ up then lc.ethIrq p 0 else lc).ethCause p 2 else if was ≠ up then lc.ethIrq p 0 else lc) :=
    fun hon hwas => exec_ethLinkChange_on hon hwas up fast an
  have hgets : ∀ {b : Option Nat} {z : State}, got → v.ethBad p f = b → v.ethOutcome n f b = z →
      exec (.ethFrameReceived n raw t) s = .next z := by
    rintro b z hgot rfl rfl
    exact exec_ethFrameReceived_of_got raw hgot
  refine ⟨fun hgot hbad hi => hgets hgot hbad (if_neg hi), fun hgot hbad => hgets hgot hbad rfl, fun hgot hbad => ?_,
    fun hup howed husable => exec_neighbourAdvertisement_owed hup howed husable,
    fun hup hadv hqueue => exec_ethTransmit_queued hup hadv hqueue spl, fun hon hwas => ?_, fun hon hwas hup => ?_, fun hon hwas hup => ?_,
    fun h => ?_, fun hidle h => ?_, fun hd hend hroom hfresh hfront hhere htake => ?_⟩
  · have htaken : ∀ {z : State}, fill.ethBody n f = z → exec (.ethFrameReceived n raw t) s = .next z := hgets hgot hbad
    exact ⟨fun hb hknown hdst => htaken (State.ethBody_udp hb hknown hdst), fun hb => htaken (State.ethBody_badSum hb),
      fun hb hown => htaken (State.ethBody_solicit hb hown), fun hb hcfg hsize hdst => htaken (State.ethBody_echo hb hcfg hsize hdst),
      fun hb => htaken (State.ethBody_ptp hb), fun hb => htaken (State.ethBody_other hb)⟩
  · rw [hlink hon hwas]
    simp
  · subst hup
    exact hlink hon hwas
  · subst hup
    exact hlink hon hwas
  · exact congrArg Host.Outcome.next (State.ethFlush_of_takes h)
  · exact congrArg Host.Outcome.next (State.mdio_of_takes (bit_mdioWord up op phy reg data) hidle h answer)
  · exact congrArg Host.Outcome.next (State.ackConsume_of_front hd hend hroom hfresh hfront hhere htake)

end Sys2Proof.Machine
end

section
/-! SUPPORT. Laws of the meter table's commands (R267 to R273, R292, R293): the roster write of one image, what each write of a METERDB command
does when it is taken, the ends of those commands in a host slot, a run of the checkpoint pass, and the reload. -/

namespace Sys2Proof.Machine

/-! ### Roster writes (R36, R268 to R271) -/

/-- An image that a check of the Lanyard refuses is not written (R268). -/
theorem State.rosterWrite_of_refused {s : State} {i : Nat} {img : List Byte} (h : s.imageOk i img = false) (mask : Nat) (before : Bool) :
    s.rosterWrite i mask before img = (0, s) := by
  simp only [State.rosterWrite, h, Bool.not_false, if_true]

/-- An image that passes the checks is METERDB's to write, while its page is enabled. -/
theorem State.rosterWrite_of_passed {s : State} {i : Nat} {img : List Byte} (h : s.imageOk i img = true)
    (hen : s.bitAt (mdbA 0x00C) 0 = true) (mask : Nat) (before : Bool) :
    s.rosterWrite i mask before img = s.rosterImage i mask before img := by
  simp only [State.rosterWrite, h, hen, Bool.not_true, Bool.false_eq_true, if_false]

/-- The state after a write of an image, with the write's status as the answer. -/
def State.statusRead (w : Nat × State) : State := { w.2 with rdata := BitVec.ofNat 64 w.1 }

/-- A request of one image is that image's write: its status decides the request's counts alone. -/
theorem State.rosterAll_one (s : State) (i mask : Nat) (img : List Byte) :
    (s.rosterAll [(i, mask, img)]).2 = State.statusRead (s.rosterWrite i mask (s.meterValid i) img) :=
  (apply_ite Prod.snd _ _ _).trans (ite_self _)

/-- Outside a host slot in which a ROSTER request is in service the Lanyard writes no image (R36). -/
theorem exec_rosterWrite_waits {s : State} (h : s.rosterTurn = false) (images : List (BitVec 20 × BitVec 3 × List (BitVec 8))) :
    exec (.rosterWrite images) s = .next s := by
  change execRosterWrite images s = _
  simp only [execRosterWrite, h, Bool.not_false, if_true]

theorem exec_rosterWrite_in_turn {s : State} (h : s.rosterTurn = true) (i : BitVec 20) (mask : BitVec 3) (img : List (BitVec 8)) :
    exec (.rosterWrite [(i, mask, img)]) s =
      .next (State.statusRead (s.rosterWrite i.toNat mask.toNat (s.meterValid i.toNat) img)) := by
  change execRosterWrite [(i, mask, img)] s = _
  simp only [execRosterWrite, h, Bool.not_true, Bool.false_eq_true, if_false, List.map_cons, List.map_nil, State.rosterAll_one]

/-! ### Writes of METERDB's commands (R267, R271, R293) -/

/-- The word of a read or a single write: GO above the region mask and the entry (R292). -/
theorem bit_mdbWord (mask : BitVec 3) (i : BitVec 20) : bit (BitVec.ofNat 32 (2 ^ 31 + mask.toNat * 2 ^ 24 + i.toNat)) 31 = true := by
  have hmask := mask.isLt
  have hi := i.isLt
  rw [Nat.add_assoc]
  exact bit_goWord (by omega)

section
variable {s : State} {q : Requester} {v : Word32}

/-- A read taken on an enabled page clears the read buffer and is BUSY. -/
theorem State.mdbRead_of_takes (hgo : bit v 31 = true) (h : s.takes q (mdbA rMDB_RD_CMD) v (s.mdbBusy 0))
    (hen : (s.plain (mdbA rMDB_RD_CMD) (v.setWidth 64)).bitAt (mdbA 0x00C) 0 = true) :
    s.mdbRead q v = (s.plain (mdbA rMDB_RD_CMD) (v.setWidth 64)).clearRdBuf.wr (mdbA rMDB_RD_STAT) 0x80000000 := by
  rw [State.mdbRead, hgo, Bool.true_and, State.guarded_of_takes h]
  simp only [hen, Bool.not_true, Bool.false_eq_true, if_false]

/-- A single write taken on an enabled page is BUSY. -/
theorem State.mdbWrite_of_takes (hgo : bit v 31 = true) (h : s.takes q (mdbA rMDB_WR_CMD) v (s.mdbBusy 1 || s.mdbBusy 2))
    (hen : (s.plain (mdbA rMDB_WR_CMD) (v.setWidth 64)).bitAt (mdbA 0x00C) 0 = true) :
    s.mdbWrite q v = (s.plain (mdbA rMDB_WR_CMD) (v.setWidth 64)).wr (mdbA rMDB_WR_STAT) 0x80000000 := by
  rw [State.mdbWrite, hgo, Bool.true_and, State.guarded_of_takes h]
  simp only [hen, Bool.not_true, Bool.false_eq_true, if_false]

/-- A bulk load taken on an enabled page holds the heads of BULK_CNT images, and is BUSY. -/
theorem State.mdbBulk_go (heads : List (Nat × Nat)) (done : Nat) (hen : s.bitAt (mdbA 0x00C) 0 = true)
    (h : s.takes q (mdbA rMDB_BULK_CMD) 0x80000000 (s.mdbBusy 1 || s.mdbBusy 2)) :
    s.mdbBulk q 0x80000000 heads done =
      ({ s with work := { s.work with
        bulk := heads.take (s.fld (mdbA rMDB_BULK_CNT) 20 0), bulkTo := s.fld (mdbA rMDB_BULK_CNT) 20 0 } } : State).wr
        (mdbA rMDB_BULK_DONE) 0x80000000 := by
  have hgo : bit (0x80000000 : Word32) 31 = true := by decide
  have habort : bit (0x80000000 : Word32) 30 = false := by decide
  rw [State.mdbBulk, hgo, Bool.true_and, State.guarded_of_takes h]
  simp only [habort, hen, Bool.not_true, Bool.false_eq_true, false_and, or_self, if_false]

/-- An abort of a load in progress ends it after the images processed. -/
theorem State.mdbBulk_abort (heads : List (Nat × Nat)) (done : Nat) (hbusy : s.mdbBusy 2 = true)
    (h : s.takes q (mdbA rMDB_BULK_CMD) 0x40000000 false) :
    s.mdbBulk q 0x40000000 heads done = { s with work := { s.work with bulkTo := min s.work.bulkTo done } } := by
  have hgo : bit (0x40000000 : Word32) 31 = false := by decide
  have habort : bit (0x40000000 : Word32) 30 = true := by decide
  rw [State.mdbBulk, hgo, Bool.false_and, State.guarded_of_takes h]
  simp only [habort, hbusy, and_self, if_true, Bool.not_false, true_or]

end

/-! ### Ends of METERDB's commands (R35, R267, R271, R293) -/

/-- The end of a single write: the buffer's image written under the entry and regions of MDB_WR_CMD, its status with an interrupt. -/
def State.writeDoneMdb (s : State) : State :=
  let b := s.bufCheck
  let i := b.fld (mdbA rMDB_WR_CMD) 19 0
  let w := b.rosterImage i (b.fld (mdbA rMDB_WR_CMD) 26 24) (b.meterValid i) b.wrImage
  (w.2.wr (mdbA rMDB_WR_STAT) (BitVec.ofNat 32 (256 + w.1))).irq .meterdb 0 1

section
variable {s : State} (hd : s.domOn 14 = true) (ht : s.hostTurn = true) (tries : BitVec 24)
include hd ht

theorem exec_mdbCommandDone_read (hbusy : s.mdbBusy 0 = true) : exec (.mdbCommandDone 0 tries) s = .next (s.readDoneMdb tries.toNat) := by
  change execMdbCommandDone 0 tries s = _
  simp only [execMdbCommandDone, hd, ht, Fin.val_zero, hbusy, Bool.not_true, Bool.or_self, Bool.false_eq_true, if_false, if_true]

theorem exec_mdbCommandDone_write (hbusy : s.mdbBusy 1 = true) : exec (.mdbCommandDone 1 tries) s = .next s.writeDoneMdb := by
  change execMdbCommandDone 1 tries s = _
  simp only [execMdbCommandDone, hd, ht, Fin.val_one, hbusy, Bool.not_true, Bool.or_self, Bool.false_eq_true, if_false, if_true,
    Nat.one_ne_zero]
  rfl

/-- A load ended before its first image reports none, with an interrupt. -/
theorem exec_mdbCommandDone_bulk_empty (hbusy : s.mdbBusy 2 = true) (hnone : s.work.bulk.take s.work.bulkTo = []) :
    exec (.mdbCommandDone 2 tries) s =
      .next ((({ s with work := { s.work with bulk := [], bulkTo := 0 } } : State).wr (mdbA rMDB_BULK_DONE) 0).irq .meterdb 0 2) := by
  change execMdbCommandDone 2 tries s = _
  simp only [execMdbCommandDone, hd, ht, Fin.val_two, hbusy, hnone, Bool.not_true, Bool.or_self, Bool.false_eq_true, if_false,
    OfNat.ofNat_ne_zero, OfNat.ofNat_ne_one]
  rfl

end

/-! ### Pops leave the lays' work alone (R101, R203) -/

@[simp] theorem State.pulse_work (s : State) (src : Nat) : (s.pulse src).work = s.work := by
  simp only [State.pulse, State.bump]
  split_ifs <;> rfl

/-- A cause goes to its page and its error line. -/
@[simp] theorem State.cause_work (s : State) (p : Pg) (inst i : Nat) : (s.cause p inst i).work = s.work := by
  simp only [State.cause]
  split
  · split_ifs
    · exact State.pulse_work ..
    · rfl
  · rfl

@[simp] theorem State.poolFound_work (s : State) (cell w c : Nat) (scrub : Bool) : (s.poolFound cell w c scrub).work = s.work := by
  simp only [State.poolFound, State.bump]
  split_ifs <;> simp

@[simp] theorem State.readCell_work (s : State) (cell : Nat) : (s.readCell cell).2.work = s.work := by
  unfold State.readCell
  refine List.foldlRecOn (motive := fun p : Bool × State => p.2.work = s.work) _ _ rfl (fun p hp w _ => ?_)
  exact (State.poolFound_work ..).trans hp

@[simp] theorem State.newPtr_work (s : State) (v : Nat) : (s.newPtr v).2.work = s.work := by
  simp only [State.newPtr]
  split_ifs <;> rfl

@[simp] theorem State.pop_work (s : State) (n : Nat) : (s.pop n).2.work = s.work := by
  unfold State.pop
  split
  · rfl
  · exact (State.setSpl_work ..).trans ((State.newPtr_work ..).trans (State.readCell_work ..))

@[simp] theorem State.takePages_work (s : State) (comp n : Nat) (p : Pass) : (s.takePages comp n p).2.work = s.work := by
  induction n generalizing s p with
  | zero => rfl
  | succ n ih =>
    have hpop := s.pop_work comp
    rw [State.takePages]
    split
    case h_1 u hu => rwa [hu] at hpop
    case h_2 c ue u hu =>
      rw [hu] at hpop
      exact (ih u (p.take c)).trans hpop

/-! ### The checkpoint pass (R272) -/

/-- Requests offered for the pages of a pass from number n on, as many as the request splice has space for and the pass still has. -/
def State.askPages (s : State) (req n : Nat) : State :=
  s.offerAll req ((List.range (min (s.space req) (passPages - n))).map (fun j => s.checkpointCell (n + j)))

/-- A run of pass p, its completions taken: with all pages stored the pass is the newest of the two kept, else it goes on with the pages asked
for from number n on. -/
def State.runPass (s : State) (req n : Nat) (p : Pass) : State :=
  let y := s.askPages req n
  if p.pages.length = passPages then
    { y with passes := (p :: y.passes).take 2, work := { y.work with pass := none, nextPage := 0 } }
  else { y with work := { y.work with pass := some p, nextPage := n + min (s.space req) (passPages - n) } }

/-- A pass that is due begins with its first page and the NAND's sequence number. -/
theorem exec_checkpointPass_due {s u : State} {p : Pass} {comp : BitVec 13} (hnone : s.work.pass = none) (hdue : s.passDue = true)
    (htake : ({ s with work := { s.work with passAt := some s.now } } : State).takePages comp.toNat 64 ⟨s.nand.seq, []⟩ = (p, u))
    (req : BitVec 13) : exec (.checkpointPass req comp) s = .next (u.runPass req.toNat 0 p) := by
  have hfresh : s.work.pass.isNone = true := Option.isNone_iff_eq_none.mpr hnone
  have hempty : s.work.pass.getD ⟨s.nand.seq, []⟩ = ⟨s.nand.seq, []⟩ := congrArg (Option.getD · _) hnone
  change execCheckpointPass req comp s = _
  simp only [execCheckpointPass, hfresh, hempty, hdue, htake, Bool.not_true, Bool.and_false, Bool.false_eq_true, if_false, if_true,
    State.runPass, State.askPages]

/-- A pass in progress goes on, whether one is due or not. -/
theorem exec_checkpointPass_running {s u : State} {g p : Pass} {comp : BitVec 13} (hrun : s.work.pass = some g)
    (htake : s.takePages comp.toNat 64 g = (p, u)) (req : BitVec 13) :
    exec (.checkpointPass req comp) s = .next (u.runPass req.toNat s.work.nextPage p) := by
  have hwork : s.work = u.work := by rw [← s.takePages_work comp.toNat 64 g, htake]
  rw [hwork]
  change execCheckpointPass req comp s = _
  simp only [execCheckpointPass, hrun, htake, Option.isNone_some, Option.getD_some, Bool.false_and, Bool.false_eq_true, if_false,
    State.runPass, State.askPages]

/-! ### The reload (R273) -/

theorem exec_tableReload_in_turn {s : State} (ht : s.storeTurn = true) (hd : s.domOn 15 = true) :
    exec .tableReload s = .next (s.tableReload (if s.pairEn then [0, 2] else [0])) := by
  change execTableReload s = _
  simp only [execTableReload, ht, hd, Bool.and_self, if_true]

/-- With no pass stored there is nothing to reload. -/
theorem State.tableReload_of_no_pass {s : State} (h : s.passes = []) (streams : List Nat) : s.tableReload streams = s := by
  simp only [State.tableReload, h]

end Sys2Proof.Machine
end

section
/-! PROOFS. The statement about the meter table's commands. -/

namespace Sys2Proof.Machine

/-- Settles O42: each write that is taken starts its command, whose end in a host slot is the command's effect; a due or running pass takes its
completions and asks on, and a reload is STORE's in its slots. That METERDB's reads and writes are taken at MDB_COMMAND_DONE in a host slot is
the model's choice (log entry 19). -/
theorem meterTableCommands : Obligations.MeterTableCommands := by
  unfold Obligations.MeterTableCommands
  intro s q i mask img heads n tries req comp p g u
  dsimp only
  have hgo := bit_mdbWord mask i
  refine ⟨fun hturn hok hen => ?_, fun hturn hbad => ?_, fun hturn => exec_rosterWrite_waits hturn _,
    fun h hen => congrArg Host.Outcome.next (State.mdbRead_of_takes hgo h hen),
    fun h hen => congrArg Host.Outcome.next (State.mdbWrite_of_takes hgo h hen),
    fun h hen => congrArg Host.Outcome.next (State.mdbBulk_go _ 0 hen h),
    fun h hbusy => congrArg Host.Outcome.next (State.mdbBulk_abort [] n.toNat hbusy h),
    fun hd hbusy ht => exec_mdbCommandDone_read hd ht tries hbusy, fun hd hbusy ht => exec_mdbCommandDone_write hd ht tries hbusy,
    fun hd hbusy ht hnone => exec_mdbCommandDone_bulk_empty hd ht tries hbusy hnone, fun hnone hdue htake hopen => ?_,
    fun hrun htake hall => ?_, fun ht hd => exec_tableReload_in_turn ht hd, fun ht hd hnone => ?_⟩
  · rw [exec_rosterWrite_in_turn hturn, State.rosterWrite_of_passed hok hen]
    rfl
  · rw [exec_rosterWrite_in_turn hturn, State.rosterWrite_of_refused hbad]
    rfl
  · rw [exec_checkpointPass_due hnone hdue htake]
    exact congrArg Host.Outcome.next (if_neg hopen)
  · rw [exec_checkpointPass_running hrun htake]
    exact congrArg Host.Outcome.next (if_pos hall)
  · rw [exec_tableReload_in_turn ht hd, State.tableReload_of_no_pass hnone]

end Sys2Proof.Machine
end

section
/-! SUPPORT. Laws of the device's own COSEM server (R274 to R278): what becomes of a client's frame that the serving lay pops, the end of an
association, and the reservations of the roles' counters. -/

namespace Sys2Proof.Machine

/-! ### Requests (R274, R275, R277) -/

/-- An answer without ciphering offered to a client's frame: it carries back the session and the tag of the frame's first cell. -/
def State.answerPlain (s : State) (out : Nat) (c : Cell512) (content : List Nat) : State :=
  s.offerAll out (messageCells (cellChan c) (cellAux c) (Config.dlmsBytes (0 :: 0 :: content)))

/-- The field-service lay joins the two rings and pops a client's frame of the cells c and l, which leaves u. -/
def State.popsRequest (s : State) (ring reply lay : Nat) (c : Cell512) (l : List Cell512) (u : State) : Prop :=
  s.ringOwner ring reply = some lay ∧ fieldLay lay = true ∧ s.popMessage (6144 + ring) 256 = (c :: l, u)

section
variable {s u w : State} {t lay role : Nat} {ring reply : Fin 64} {rq : CosemRequest} {c : Cell512} {l : List Cell512}
  (hp : (s.at t).popsRequest ring.val reply.val lay c l u)
include hp

/-- A client SAP of no role is answered by an exception. -/
theorem exec_cosemRequest_of_no_role (hrole : roleOf rq.sap.toNat = none) :
    exec (.cosemRequest ring reply rq t) s = .next (u.answerPlain (6144 + reply.val) c [1, 1]) := by
  obtain ⟨howner, hlay, hpop⟩ := hp
  change execCosemRequest ring reply rq t s = _
  simp only [execCosemRequest, howner, Option.filter_some, hlay, if_true, hpop, hrole]
  rfl

variable (hrole : roleOf rq.sap.toNat = some role)
include hrole

/-- A request for an association begins one, or ends the session's, as its authentication goes. -/
theorem exec_cosemRequest_associate {challenge : List (BitVec 8)} {sc : BitVec 8} {ic : BitVec 32} {tag : BitVec 96} {good : Bool}
    (hservice : rq.service = .associate challenge sc ic tag)
    (hmay : u.mayAssociate lay role rq.title challenge sc.toNat ic.toNat tag.toNat = (good, w)) :
    exec (.cosemRequest ring reply rq t) s =
      .next ((w.setSession (cellChan c % 64) (if good then some ⟨role, w.tsuTime.sec⟩ else none)).answerPlain (6144 + reply.val) c
        [4, good.toNat]) := by
  obtain ⟨howner, hlay, hpop⟩ := hp
  change execCosemRequest ring reply rq t s = _
  simp only [execCosemRequest, howner, Option.filter_some, hlay, if_true, hpop, hrole, hservice, hmay]
  rfl

/-- Any other request is its association's, where the session has one of its role, and else is answered by an exception. -/
theorem exec_cosemRequest_of_service (hservice : ∀ b1 b2 b3 b4, rq.service ≠ .associate b1 b2 b3 b4) :
    exec (.cosemRequest ring reply rq t) s =
      .next (((u.work.sessions.find? (fun e => e.1 = cellChan c % 64 && e.2.role = role)).map (·.2)).elim
        (u.answerPlain (6144 + reply.val) c [1, 1])
        (fun x => u.cosemAnswer lay (6144 + reply.val) c x (cosemHdr ((c :: l).flatMap (fun c => cellBytes c (min 56 (cellLen c))))) rq)) := by
  obtain ⟨howner, hlay, hpop⟩ := hp
  change execCosemRequest ring reply rq t s = _
  cases hq : rq.service
  case associate => exact absurd hq (hservice _ _ _ _)
  all_goals
    simp only [execCosemRequest, howner, Option.filter_some, hlay, if_true, hpop, hrole, hq]
    cases (u.work.sessions.find? _).map _ <;> rfl

end

section
variable {s w : State} {lay out : Nat} {c : Cell512} {x : Sess} {h : Option SecHdr} {rq : CosemRequest}

/-- A request without its role's protection is answered by an exception. -/
theorem State.cosemAnswer_of_unprotected (hbad : s.protectionOk lay x.role h rq.title = (false, w)) :
    s.cosemAnswer lay out c x h rq = w.answerPlain out c [1, 1] := by
  simp only [State.cosemAnswer, hbad]
  rfl

/-- A protected request is served, and answered under its role's counter, PUBLIC's without ciphering. -/
theorem State.cosemAnswer_of_protected (hgood : s.protectionOk lay x.role h rq.title = (true, w)) :
    s.cosemAnswer lay out c x h rq =
      let n := cellChan c % 64
      let served := (w.setSession n (some { x with last := w.tsuTime.sec })).cosemServe n x rq.service
      if x.role = 0 then served.2.answerPlain out c served.1
      else served.2.cipherAnswer ⟨x.role, cellChan c, cellAux c, out, served.1, served.2.now⟩ := by
  simp only [State.cosemAnswer, hgood]
  rfl

end

/-! ### The end of an association (R274) -/

/-- 120 s without a request end an association, with the answers it waited for. -/
theorem exec_associationTimeout_of_silence {s : State} {t e : Nat} {session : Fin 64} {x : Sess}
    (hfind : (s.at t).work.sessions.find? (fun e => e.1 = session.val) = some (e, x)) (hlate : x.last + 120 ≤ (s.at t).tsuTime.sec) :
    exec (.associationTimeout session t) s = .next (
      let z := (s.at t).setSession session.val none
      { z with work := { z.work with waiting := z.work.waiting.filter (fun w => w.session % 64 ≠ session.val) } }) := by
  change execAssociationTimeout session t s = _
  simp only [execAssociationTimeout, hfind, if_neg (Nat.not_lt.mpr hlate)]

/-! ### The roles' counters (R276, R581) -/

/-- The stored limit of a role, 0 where none is valid. -/
def State.roleLimit (s : State) (k : Nat) : Nat := (s.reserved (roleAt k)).getD 0

section
variable {s : State} {k : Fin 5} {fails : Fin 3} (h1 : s.domOn 1 = true) (h2 : s.domOn 2 = true)
include h1 h2

/-- Where the standby bars a new limit, a role starts at its stored limit with no counter to use. -/
theorem exec_roleReservation_start_barred (hbars : s.limitBars (5 + k.val) = true) (fails : Fin 3) :
    exec (.roleReservation k true fails) s = .next (s.roleStart k.val (s.roleLimit k.val) (s.roleLimit k.val)) := by
  change execRoleReservation k true fails s = _
  simp only [execRoleReservation, h1, h2, hbars, Bool.not_true, Bool.or_self, Bool.false_and, Bool.and_self, Bool.false_eq_true, if_false,
    if_true]
  rfl

variable (hbars : s.limitBars (5 + k.val) = false)
include hbars

/-- At a rigging start two failed read-backs refuse the role. -/
theorem exec_roleReservation_start_refused (hfails : fails.val = 2) :
    exec (.roleReservation k true fails) s = .next (s.roleRefuse k.val) := by
  change execRoleReservation k true fails s = _
  simp only [execRoleReservation, h1, h2, hbars, hfails, Bool.not_true, Bool.or_self, Bool.false_and, Bool.and_false, Bool.false_eq_true,
    if_false, if_true]

/-- At a rigging start without a pair a role has the 4,096 counters from its stored limit. -/
theorem exec_roleReservation_start_stored (hfails : fails.val < 2)
    (hsolo : (s.reserve (roleAt k.val) (s.roleLimit k.val + 4096)).pairEn = false) :
    exec (.roleReservation k true fails) s =
      .next ((s.reserve (roleAt k.val) (s.roleLimit k.val + 4096)).roleStart k.val (s.roleLimit k.val) (s.roleLimit k.val + 4096)) := by
  unfold State.roleLimit at hsolo ⊢
  change execRoleReservation k true fails s = _
  simp only [execRoleReservation, h1, h2, hbars, hfails.ne, hsolo, Bool.not_true, Bool.or_self, Bool.false_and, Bool.and_false,
    Bool.false_eq_true, if_false, if_true]

variable (hk : k.val ≠ 0) (hasked : s.roleAsked k.val = true)
include hk hasked

/-- A block asked for, with two failed read-backs, is refused. -/
theorem exec_roleReservation_asked_refused (hfails : fails.val = 2) :
    exec (.roleReservation k false fails) s = .next (s.askTaken.roleRefuse k.val) := by
  change execRoleReservation k false fails s = _
  simp only [execRoleReservation, h1, h2, hbars, hk, hasked, hfails, decide_false, Bool.not_true, Bool.not_false, Bool.or_self,
    Bool.and_false, Bool.false_eq_true, if_false, if_true]

/-- A block asked for and stored without a pair is answered with its limit, 4,096 above the last. -/
theorem exec_roleReservation_asked_stored (hfails : fails.val < 2)
    (hsolo : (s.askTaken.reserve (roleAt k.val) ((s.roleCtr k.val).limit + 4096)).pairEn = false) :
    exec (.roleReservation k false fails) s =
      .next ((s.askTaken.reserve (roleAt k.val) ((s.roleCtr k.val).limit + 4096)).roleAnswer k.val ((s.roleCtr k.val).limit + 4096)) := by
  change execRoleReservation k false fails s = _
  simp only [execRoleReservation, h1, h2, hbars, hk, hasked, hfails.ne, hsolo, decide_false, Bool.not_true, Bool.not_false, Bool.or_self,
    Bool.and_false, Bool.false_eq_true, if_false]

end

end Sys2Proof.Machine
end

section
/-! PROOFS. The statement about the COSEM server. -/

namespace Sys2Proof.Machine

/-- Settles O44: a frame popped is answered as its client SAP, its association and its protection say, an association ends with its silence, and a
role's counters move as its reservation does. That a frame of no role, of no association or without its protection is answered by an
exception, and that lay 7 serves, are the model's reading (log entry 19, DEDUCED), the octets of the answers its presumption (log entry 13). -/
theorem cosemCommands : Obligations.CosemCommands := by
  unfold Obligations.CosemCommands
  intro s u w t ring reply session rq c l role lay x e k good fails challenge sc ic tag r out n h plain popped served v res bars
  refine ⟨fun hp hrole => exec_cosemRequest_of_no_role hp hrole,
    fun hp hrole hservice hmay => exec_cosemRequest_associate hp hrole hservice hmay, fun hp hrole hservice => ?_,
    fun hfind hlate => exec_associationTimeout_of_silence hfind hlate,
    fun h1 h2 hbars => exec_roleReservation_start_barred h1 h2 hbars fails,
    fun h1 h2 hbars => ⟨exec_roleReservation_start_refused h1 h2 hbars, exec_roleReservation_start_stored h1 h2 hbars,
      exec_roleReservation_asked_refused h1 h2 hbars, exec_roleReservation_asked_stored h1 h2 hbars⟩⟩
  have hreq := exec_cosemRequest_of_service hp hrole hservice
  refine ⟨fun hnone => ?_, fun hfind hprot => ?_⟩
  · rw [hreq, hnone]
    rfl
  · have hanswer : ∀ {z : State}, u.cosemAnswer lay out c x h rq = z → exec (.cosemRequest ring reply rq t) s = .next z := by
      rintro z rfl
      rw [hreq, hfind]
      rfl
    exact ⟨fun hbad => hanswer (State.cosemAnswer_of_unprotected (hbad ▸ hprot)),
      fun hgood hpublic => hanswer ((State.cosemAnswer_of_protected (hgood ▸ hprot)).trans (if_pos hpublic)),
      fun hgood hother => hanswer ((State.cosemAnswer_of_protected (hgood ▸ hprot)).trans (if_neg hother))⟩

end Sys2Proof.Machine
end

section
/-! SUPPORT. Laws of the measurement block (R297 to R301, R305, R317, R318, R332, R333): a sample period, a channel that becomes stuck and runs
again, the trim of the sample clock, the start, and the end of a line cycle. -/

namespace Sys2Proof.Machine

/-! ### A sample period (R299 to R310) -/

/-- Every channel that is enabled or has run takes its sample of the bits listed; a ball not listed is low. -/
def State.sampleChannels (s : State) (xs : List (Fin 128 × BitVec 780)) : State :=
  ((List.range 128).filter (fun c => s.chBit rMEAS_CH_EN c || s.chan c ≠ Chan.off)).foldl
    (fun s c => s.chanSample c (((xs.find? (fun e => e.1.val = c)).map (·.2)).getD 0)) s

/-- Every point in force adds the products of its phases. -/
def State.sampleProducts (s : State) : State :=
  (List.range 16).foldl (fun s p =>
    if s.pointEn p then
      let s := (s.phases p).foldl (fun s φ => s.phaseSample p φ) s
      s.setMpt p { s.mpt p with n := (s.mpt p).n + 1 }
    else s) s

section
variable {s : State} {t : Nat} (hd : (s.at t).domOn 13 = true) (hen : (s.at t).bitAt (measA 0x00C) 0 = true)
include hd hen

/-- A running block samples its channels; the products are added once SETTLED is 1 (R317). -/
theorem exec_measSample_enabled (xs : List (Fin 128 × BitVec 780)) :
    exec (.measSample xs t) s = .next (
      if ((s.at t).sampleChannels xs).bitAt (measA rMEAS_STAT) 1 then ((s.at t).sampleChannels xs).sampleProducts
      else (s.at t).sampleChannels xs) := by
  have hrun : ¬ (!((s.at t).domOn 13 && (s.at t).bitAt (measA 0x00C) 0)) = true := by simp [hd, hen]
  refine congrArg Host.Outcome.next ((if_neg hrun).trans ?_)
  change (if (!((s.at t).sampleChannels xs).bitAt (measA rMEAS_STAT) 1) = true then _ else ((s.at t).sampleChannels xs).sampleProducts) = _
  cases ((s.at t).sampleChannels xs).bitAt (measA rMEAS_STAT) 1 <;> rfl

end

/-! ### Stuck channels (R301) -/

section
variable {s : State} {c : Fin 128}

/-- A channel that sticks is marked; its point's event is set with the first of the point's channels. -/
theorem exec_channelStuck_sticks (h : s.sticks c.val = true) :
    exec (.channelStuck c) s = .next (
      if (s.markStuck c.val).bitAt (mpA (c.val / 8) rMP_STAT) 18 then s.markStuck c.val
      else (s.markStuck c.val).draw.2.measEvent (c.val / 8) 6 0 true (bits (s.markStuck c.val).draw.1 31 0)) := by
  change execChannelStuck c s = _
  simp only [execChannelStuck, h, Bool.not_true, Bool.false_eq_true, if_false]

/-- A channel whose transitions have resumed for 1,024 cycles runs again; its point's event is cleared with the last of the point's channels. -/
theorem exec_channelStuckEnd_moved (hd : s.domOn 13 = true) (hstuck : s.chBit rMEAS_STUCK c.val = true)
    (hmoved : 1024 ≤ (s.chan c.val).moved) :
    exec (.channelStuckEnd c) s = .next (
      let z := s.putCh rMEAS_STUCK c.val false
      if (List.range 8).any (fun k => z.chBit rMEAS_STUCK (8 * (c.val / 8) + k)) then z
      else z.draw.2.measEvent (c.val / 8) 6 0 false (bits z.draw.1 31 0)) := by
  change execChannelStuckEnd c s = _
  simp only [execChannelStuckEnd, hd, hstuck, Nat.not_lt.mpr hmoved, decide_false, Bool.not_true, Bool.or_self, Bool.false_eq_true,
    if_false]

end

/-! ### The trim of the sample clock (R297) -/

/-- With the trim on and TSU time locked, MEAS_SYNT follows the TSU's rate within its range, and a rate beyond it is a cause. -/
theorem exec_syntTrim_follows {s : State} (hd : s.domOn 13 = true) (htrim : s.bitAt (measA rMEAS_CTRL) 16 = true) (hnet : s.netOn = true)
    (hlock : s.bitAt (pa .tsu 0 rTSU_STAT) 3 = true) :
    exec .syntTrim s = .next (
      let f := s.roundFree s.tsuFreq 256
      let held := clampI (-200000) 200000 f.1
      let z := f.2.wr (measA rMEAS_SYNT) (BitVec.ofInt 32 held)
      if held ≠ f.1 then z.cause .meas 0 5 else z) := by
  change execSyntTrim s = _
  simp only [execSyntTrim, hd, htrim, hnet, hlock, Bool.and_self, Bool.not_true, Bool.false_eq_true, if_false]

/-! ### The start (R317, R318) -/

/-- EN set where it was 0 starts the block from nothing: channels, sums, stamp and runs empty, and SETTLED 0. -/
theorem State.measEnable_of_takes {s : State} {q : Requester} (hoff : s.bitAt (measA 0x00C) 0 = false)
    (h : s.takes q (measA 0x00C) 1 false) :
    s.measEnable q 1 = (
      let a := (s.putBit (measA 0x00C) 0 true).putBit (measA rMEAS_STAT) 1 false
      { a with meas := { a.meas with
          chans := [], acc := [], pts := (List.range 16).map (fun p => (p, { a.mpt p with n := 0, first := true })), started := a.now,
          stamp := none, run := [] } }) := by
  have hset : bit (1 : Word32) 0 = true := rfl
  rw [State.measEnable, State.guarded_of_takes h]
  simp only [hset, hoff, Bool.not_false, and_self, if_true]

section
variable {s : State} {t : Nat} {p : Fin 16} (hd : (s.at t).domOn 13 = true) (hen : (s.at t).bitAt (measA 0x00C) 0 = true)
include hd hen

/-- 40 ms after the start, with the PLL locked, the block has settled and sums from zero. -/
theorem exec_measSettled_due (hnot : (s.at t).bitAt (measA rMEAS_STAT) 1 = false) (hlock : (s.at t).mpllLock = true)
    (hlong : (s.at t).meas.started + 40000000 ≤ (s.at t).now) :
    exec (.measSettled t) s = .next (
      let a := ((s.at t).putBit (measA rMEAS_STAT) 1 true).irq .meas 0 0
      { a with meas := { a.meas with acc := [], chans := a.meas.chans.map (fun e => (e.1, { e.2 with sum := 0, count := 0 })) } }) := by
  change execMeasSettled t s = _
  simp only [execMeasSettled, hd, hen, hnot, hlock, hlong, decide_true, Bool.not_false, Bool.and_self, if_true]

/-! ### A line cycle (R332, R333) -/

/-- At the end of a line cycle of a point without a nominal voltage its frequency is shown and looked at; the events on voltage, which have no
reference, begin their runs again. -/
theorem exec_lineCycle_of_no_vnom (hpt : (s.at t).pointEn p.val = true) (hvnom : (s.at t).act p.val rMP_VNOM = 0) :
    exec (.lineCycle p t) s = .next (
      let r := s.at t
      let far := !lineGood (r.linePeriod p.val)
      let m := r.putF (mpA p.val rMP_FREQ) 16 0
        (rdiv (32000 * 65536 * 1000) (if far then r.nominalPeriod p.val else r.linePeriod p.val)).toNat
      let d := m.draw.2.criterion p.val 5 0 far (!far) 5 (bits m.draw.1 31 0)
      (if r.threeWire p.val then (d.dropRun p.val 2 0).dropRun p.val 3 2 else d).dropRuns p.val [1, 2, 3]) := by
  have hrun : ¬ (!((s.at t).domOn 13 && (s.at t).bitAt (measA 0x00C) 0 && (s.at t).pointEn p.val)) = true := by simp [hd, hen, hpt]
  have hzero : ((s.at t).act p.val rMP_VNOM : Int) = 0 := congrArg Int.ofNat hvnom
  exact congrArg Host.Outcome.next ((if_neg hrun).trans (if_pos hzero))

end

end Sys2Proof.Machine
end

section
/-! PROOFS. The statement about the measurement block's samples, channels, start, trim and line cycles. -/

namespace Sys2Proof.Machine

/-- Settles O45: each command does its work once its condition is met. What a sample is, the trim's rounding and an event's free value are the
model's readings (log entry 22, DEDUCED); the time of MEAS_SETTLED is its sender's (log entry 3, DESIGN CHOICE). -/
theorem measurementCommands : Obligations.MeasurementCommands := by
  unfold Obligations.MeasurementCommands
  intro s q t xs c p r n input u y z f held far m
  refine ⟨fun hd hen hnot => ?_, fun hd hen hset => ?_, fun h hset => ?_, fun h hnot => ?_, fun hd hstuck hmoved hany => ?_,
    fun hd hstuck hmoved hnone => ?_, exec_syntTrim_follows, fun hoff h => ?_, exec_measSettled_due, exec_lineCycle_of_no_vnom⟩
  · exact (exec_measSample_enabled hd hen xs).trans (congrArg _ (if_neg (Bool.eq_false_iff.mp hnot)))
  · exact (exec_measSample_enabled hd hen xs).trans (congrArg _ (if_pos hset))
  · exact (exec_channelStuck_sticks h).trans (congrArg _ (if_pos hset))
  · exact (exec_channelStuck_sticks h).trans (congrArg _ (if_neg (Bool.eq_false_iff.mp hnot)))
  · have hsome : (List.range 8).any (fun k => z.chBit rMEAS_STUCK (8 * (c.val / 8) + k)) = true := by simpa using hany
    exact (exec_channelStuckEnd_moved hd hstuck hmoved).trans (congrArg _ (if_pos hsome))
  · have hall : ¬ (List.range 8).any (fun k => z.chBit rMEAS_STUCK (8 * (c.val / 8) + k)) = true := by simpa using hnone
    exact (exec_channelStuckEnd_moved hd hstuck hmoved).trans (congrArg _ (if_neg hall))
  · exact congrArg Host.Outcome.next (State.measEnable_of_takes hoff h)

end Sys2Proof.Machine
end

section
/-! SUPPORT. Laws of the totals, the pulse outputs and the PLL locks (R305, R313 to R331, R336, R340, R635): a transfer and its copy, the cells
and messages of a copy, the writes of the TOTALS, PULSE and MP pages, a pulse, and a lock lost or found. -/

namespace Sys2Proof.Machine

/-! ### A transfer and its copy (R315 to R321) -/

/-- A transfer of a block that has settled, its PLL locked, is stamped with its second and ends the mark of a step (R316, R318). -/
theorem State.transfer_meas {s : State} (hmeas : s.domOn 13 = true) (hsys : s.domOn 1 = true) (hen : s.bitAt (measA 0x00C) 0 = true)
    (hset : s.bitAt (measA rMEAS_STAT) 1 = true) (hlock : s.mpllLock = true) (part : Bool) :
    (s.transfer part).meas.stamp = some s.measTime.1 ∧ (s.transfer part).meas.stepped = false := by
  have hrun : ¬ (!(s.domOn 13 && s.domOn 1 && s.bitAt (measA 0x00C) 0 && s.bitAt (measA rMEAS_STAT) 1 && s.mpllLock)) = true := by
    simp [hmeas, hsys, hen, hset, hlock]
  rw [State.transfer, if_neg hrun]
  exact ⟨rfl, rfl⟩

/-- A copy's write that read back right leaves the copy on the die, complete (R320, R321). -/
theorem exec_totalsCopyWritten_good {s : State} {c : Nat} {image : List Byte} {part : Bool} (h : s.totals.writing = some (c, image, part)) :
    exec (.totalsCopyWritten 0) s = .next (
      let w := s.setBytes .fram (copyAt c) image
      let z : State := { w with totals := { w.totals with writing := none, copyOk := true, snapDue := !part } }
      ((z.putBit (totA rTOT_STAT) 3 false).bumpMod (totA rTOT_WR_CNT) 1).showCopies.dieServe) := by
  refine congrArg (fun z : State => Host.Outcome.next z.dieServe) ?_
  simp only [State.copyEnd, h]
  rfl

/-! ### Cells and messages of a copy (R327, R328) -/

/-- The one interval value that is ready goes to the first splice claimed for it, once the copy is complete and there is space. -/
theorem exec_intervalValuePush_one {s : State} {n : Nat} {l : List Nat} {cell : Cell512} (hcopy : s.bitAt (totA rTOT_STAT) 3 = false)
    (hok : s.totals.copyOk = true) (hready : s.meas.ready = [cell])
    (hn : ({ s with meas := { s.meas with ready := [] } } : State).producedBy 0x0D = n :: l)
    (hspace : ({ s with meas := { s.meas with ready := [] } } : State).splFull n = false) :
    exec .intervalValuePush s = .next (({ s with meas := { s.meas with ready := [] } } : State).offer n cell) := by
  change execIntervalValuePush s = _
  simp only [execIntervalValuePush, hcopy, hok, hready, hn, hspace, List.cons_ne_nil, List.foldl_cons, List.foldl_nil, decide_false,
    Bool.not_true, Bool.or_self, Bool.false_eq_true, and_false, if_false]

/-- The messages of a copy's points: one each, or a skip that is counted where 21 cells have no room. -/
def State.sendSnapshots (s : State) (c n : Nat) : State :=
  (List.range 16).foldl (fun (u : State) p =>
    if !(s.le .fram (copyAt c + 6) 2).testBit p then u
    else if u.space n < 21 then (u.bump (totA rTOT_SNAP_SKIP) 1).cause .totals 0 4
    else u.offerAll n (u.snapshotCells c p)) s

theorem exec_snapshotMessage_due {s : State} {c n : Nat} {l : List Nat} (hcopy : s.newerCopy = some c) (hn : s.producedBy 0x13 = n :: l)
    (hdue : s.totals.snapDue = true) :
    exec .snapshotMessage s = .next { s.sendSnapshots c n with totals := { (s.sendSnapshots c n).totals with snapDue := false } } := by
  change execSnapshotMessage s = _
  simp only [execSnapshotMessage, hcopy, hn, hdue, Bool.not_true, Bool.false_eq_true, if_false]
  rfl

/-! ### Writes of the TOTALS page (R326, R340) -/

/-- The word of TOT_CLEAR: GO and the points (R326). -/
theorem totClear_word (mask : BitVec 16) :
    bit (BitVec.ofNat 32 (2 ^ 31 + mask.toNat)) 31 = true ∧ bits (BitVec.ofNat 32 (2 ^ 31 + mask.toNat)) 15 0 = mask.toNat := by
  have hmask := mask.isLt
  refine ⟨bit_goWord (by omega), ?_⟩
  simp only [bits, nbits, BitVec.toNat_ofNat]
  omega

/-- The word of TOT_DM_CONFIG: the length of a sub-period and their number (R340). -/
theorem totDmConfig_word (sub : BitVec 16) (k : BitVec 8) :
    bits (BitVec.ofNat 32 (k.toNat * 65536 + sub.toNat)) 15 0 = sub.toNat ∧
      bits (BitVec.ofNat 32 (k.toNat * 65536 + sub.toNat)) 23 16 = k.toNat := by
  have hsub := sub.isLt
  have hk := k.isLt
  constructor <;>
  · simp only [bits, nbits, BitVec.toNat_ofNat]
    omega

section
variable {s : State} {q : Requester}

/-- Before life-cycle state 2 a write of TOT_CLEAR that is taken selects its points for the next transfer. -/
theorem State.totClear_of_takes {mask : BitVec 16} (hlcs : s.lcs < 2)
    (h : s.takes q (totA rTOT_CLEAR) (BitVec.ofNat 32 (2 ^ 31 + mask.toNat)) false) :
    s.totClear q (BitVec.ofNat 32 (2 ^ 31 + mask.toNat)) = { s with totals := { s.totals with clear := s.totals.clear ||| mask.toNat } } := by
  obtain ⟨hgo, hpoints⟩ := totClear_word mask
  have hmay : (true && decide (2 ≤ s.lcs)) = false := decide_eq_false (Nat.not_le.mpr hlcs)
  rw [State.totClear, hgo, hpoints, hmay, State.guarded_of_takes h]
  rfl

/-- TOT_SEL with SNAP, taken, loads the selected total or maximum from the newer copy. -/
theorem State.totSel_of_takes {v : Word32} {c : Nat} (hsnap : bit v 31 = true) (h : s.takes q (totA rTOT_SEL) v false)
    (hcopy : (s.plain (totA rTOT_SEL) (v.setWidth 64)).newerCopy = some c) :
    s.totSel q v = (
      let y := s.plain (totA rTOT_SEL) (v.setWidth 64)
      let i := y.fld (totA rTOT_SEL) 14 8
      let x := if i < 72 then y.copyTotal c (y.fld (totA rTOT_SEL) 3 0) i else y.copyMax c (y.fld (totA rTOT_SEL) 3 0) (i - 72)
      ((y.wr64 (totA rTOT_COUNT) (BitVec.ofNat 64 x.1)).wr64 (totA rTOT_AUX) (BitVec.ofNat 64 x.2)).wr (totA rTOT_SNAP_SEQ)
        (BitVec.ofNat 32 (y.le .fram (copyAt c) 4))) := by
  rw [State.totSel, State.guarded_of_takes h]
  simp only [hsnap, hcopy]

/-- A demand configuration within its ranges that is taken restarts the demand. -/
theorem State.totDmCfg_of_takes {sub : BitVec 16} {k : BitVec 8} (hsub : sub ≠ 0) (hdiv : 3600 % sub.toNat = 0) (hlow : 1 ≤ k.toNat)
    (hhigh : k.toNat ≤ 60) (h : s.takes q (totA rTOT_DM_CFG) (BitVec.ofNat 32 (k.toNat * 65536 + sub.toNat)) false) :
    s.totDmCfg q (BitVec.ofNat 32 (k.toNat * 65536 + sub.toNat)) = (
      let d := s.plain (totA rTOT_DM_CFG) ((BitVec.ofNat 32 (k.toNat * 65536 + sub.toNat)).setWidth 64)
      { d with totals := { d.totals with dmRestart := true } }) := by
  obtain ⟨hlength, hnumber⟩ := totDmConfig_word sub k
  have hpos : sub.toNat ≠ 0 := fun h0 => hsub (BitVec.eq_of_toNat_eq h0)
  have hgood : (decide (sub.toNat = 0) || decide (3600 % sub.toNat ≠ 0) || decide (k.toNat = 0) || decide (60 < k.toNat)) = false := by
    simp only [hpos, hdiv, Nat.one_le_iff_ne_zero.mp hlow, Nat.not_lt.mpr hhigh, ne_eq, not_true, decide_false, Bool.or_self]
  simp only [State.totDmCfg, hlength, hnumber]
  rw [hgood]
  exact State.guarded_of_takes h

/-! ### Writes of the PULSE and MP pages (R305, R331) -/

/-- PUL_CFG taken claims the output's ball under EN, and releases it without; an output that finds its ball taken has none. -/
theorem State.pulseCfg_of_takes {p : Nat} {v : Word32} (h : s.takes q (pulA (rPUL_CFG + 16 * p)) v false) :
    s.pulseCfg q p v = (
      let a := s.plain (pulA (rPUL_CFG + 16 * p)) (v.setWidth 64)
      if bit v 31 then (if (a.blockClaim p 2).1 then (a.blockClaim p 2).2 else (a.blockClaim p 2).2.cause .pulse 0 1)
      else a.blockRelease p 2) := State.guarded_of_takes h

/-- MP_COMMIT taken leaves the point's staged coefficients pending. -/
theorem State.mpWrite_commit {p : Nat} (h : s.takes q (mpA p rMP_COMMIT) 0x80000000 false) :
    s.mpWrite q p rMP_COMMIT 0x80000000 = s.putBit (mpA p rMP_STAT) 31 true := State.guarded_of_takes h

end

/-! ### Pulses (R330, R331) -/

section
variable {s : State} {t : Nat} {p : Fin 16} {c : PulseCh} (hc : look (fun _ => PulseCh.off) (s.at t).pulses p.val = c)
include hc

/-- The next pulse of a transfer starts once its moment has come: it is counted, its end timed, its ball driven. -/
theorem exec_pulseStart_due (hd : (s.at t).domOn 2 = true) (hen : (s.at t).bitAt (pulA 0x00C) 0 = true) (hmore : c.done < c.k)
    (hnow : c.startOf c.done ≤ (s.at t).now) :
    exec (.pulseStart p t) s = .next (
      let r := s.at t
      let y := ({ r with pulses := Machine.store (fun _ => PulseCh.off) r.pulses p.val { c with done := c.done + 1 } } : State).bumpMod
        (pulA (rPUL_COUNT + 16 * p.val)) 1
      (y.setTimer (pulA (rPUL_COUNT + 16 * p.val)) (c.startOf c.done + c.width * 1000)).pulseDrive p.val (!c.invert)) := by
  change execPulseStart p t s = _
  simp only [execPulseStart, hc, hd, hen, Nat.not_le.mpr hmore, Nat.not_lt.mpr hnow, decide_false, Bool.and_self, Bool.not_true,
    Bool.or_self, Bool.false_eq_true, if_false]

/-- A pulse ends when its width has passed. -/
theorem exec_pulseEnd_due (hon : (s.at t).timer (pulA (rPUL_COUNT + 16 * p.val)) ≠ 0)
    (hnow : (s.at t).timer (pulA (rPUL_COUNT + 16 * p.val)) ≤ (s.at t).now) :
    exec (.pulseEnd p t) s = .next (((s.at t).setTimer (pulA (rPUL_COUNT + 16 * p.val)) 0).pulseIdle p.val c.invert) := by
  subst hc
  exact congrArg Host.Outcome.next (if_neg (not_or.mpr ⟨hon, Nat.not_lt.mpr hnow⟩))

end

/-! ### Locks of the PLLs (R336, R635) -/

section
variable {s : State} {d : Fin 17}

/-- The lays' domains have no PLL that this command names. -/
theorem exec_pllUnlock_lay (locked : Bool) (hlay : 3 ≤ d.val + 1 ∧ d.val + 1 ≤ 10) : exec (.pllUnlock d locked) s = .next s :=
  congrArg Host.Outcome.next (if_pos hlay)

variable (hother : ¬ (3 ≤ d.val + 1 ∧ d.val + 1 ≤ 10))
include hother

/-- A lock found shows while its domain is on. -/
theorem exec_pllUnlock_locked (hd : s.domOn (d.val + 1) = true) :
    exec (.pllUnlock d true) s = .next (s.putBit (pa .clk 0 rCLK_STAT) (lockBit (d.val + 1)) true) :=
  congrArg Host.Outcome.next ((if_neg hother).trans ((if_pos rfl).trans (if_pos hd)))

/-- A lock lost is a cause of CLK; the measurement PLL's, with its domain on, is one of MEAS too, and marks the coming transfer (R336). -/
theorem exec_pllUnlock_lost :
    exec (.pllUnlock d false) s = .next (
      let off := s.putBit (pa .clk 0 rCLK_STAT) (lockBit (d.val + 1)) false
      if d.val + 1 = 13 ∧ off.domOn 13 then
        let z := (off.clkCause 2).cause .meas 0 2
        { z with meas := { z.meas with stepped := true } }
      else off.clkCause 2) :=
  congrArg Host.Outcome.next ((if_neg hother).trans (if_neg Bool.false_ne_true))

end

end Sys2Proof.Machine
end

section
/-! PROOFS. The statement about the totals, the pulse outputs and the PLL locks. -/

namespace Sys2Proof.Machine

/-- Settles O46: each command does its work once its condition is met. The times of a transfer, of a copy's end and of a pulse are their
senders' (log entry 3, DESIGN CHOICE). -/
theorem totalsAndPulseCommands : Obligations.TotalsAndPulseCommands := by
  unfold Obligations.TotalsAndPulseCommands
  constructor
  · intro s q t c n image part l cell mask p index v sub k r w gone e V y i pt x D d b
    have hsnap : bit V 31 = true := by
      have hindex := index.isLt
      have hp := p.isLt
      change bit (BitVec.ofNat 32 (2 ^ 31 + index.val * 256 + p.val)) 31 = true
      rw [Nat.add_assoc]
      exact bit_goWord (by omega)
    exact ⟨fun hmeas hsys hen hset hlock => ⟨_, rfl, State.transfer_meas hmeas hsys hen hset hlock false⟩, exec_totalsCopyWritten_good,
      exec_intervalValuePush_one, exec_snapshotMessage_due,
      fun hlcs h => congrArg Host.Outcome.next (State.totClear_of_takes hlcs h),
      fun h hcopy => congrArg Host.Outcome.next (State.totSel_of_takes hsnap h hcopy),
      fun h => congrArg Host.Outcome.next (State.guarded_of_takes h),
      fun hsub hdiv hlow hhigh h => congrArg Host.Outcome.next (State.totDmCfg_of_takes hsub hdiv hlow hhigh h)⟩
  · intro s q t p v d u r c C y a n off
    have hwrite (h : s.takes q (pulA (rPUL_CFG + 16 * p.val)) v false) : exec (.pulseConfigWrite q p v) s = _ :=
      congrArg Host.Outcome.next (State.pulseCfg_of_takes h)
    refine ⟨exec_pulseStart_due rfl, exec_pulseEnd_due rfl, fun h hen hclaim => ?_, fun h hen hclaim => ?_, fun h hdis => ?_,
      fun h => congrArg Host.Outcome.next (State.mpWrite_commit h), fun hlay => ⟨exec_pllUnlock_lay true hlay, exec_pllUnlock_lay false hlay⟩,
      fun hother hd => exec_pllUnlock_locked (by omega) hd, fun hother h13 => ?_, fun h13 hd => ?_⟩
    · rw [hwrite h]
      simp only [bit, hen, a, hclaim, if_true]
    · rw [hwrite h]
      simp only [bit, hen, a, hclaim, if_true, Bool.false_eq_true, if_false]
    · rw [hwrite h]
      simp only [bit, hdis, a, Bool.false_eq_true, if_false]
    · exact (exec_pllUnlock_lost (by omega)).trans (congrArg _ (if_neg fun h => h13 h.1))
    · exact (exec_pllUnlock_lost (by omega)).trans (congrArg _ (if_pos ⟨h13, hd⟩))

end Sys2Proof.Machine
end

section
/-! SUPPORT. Laws of the balance's commands (R345 to R348, R350 to R352, R363, R366): what a command served from a ring does by its opcode and
its status, and what an order, a mark, a notice, a report and a status cell do where they come. -/

namespace Sys2Proof.Machine

/-! ### The status and the effect of a command, by its opcode (R346, R347) -/

/-- The node that a command's word 1 names. -/
def balTarget (c : Cell512) : Nat := nbits (cellWord c 1).toNat 15 0

/-- A well-formed command's CHAN is its opcode. -/
theorem cellChan_of_formed {c : Cell512} (h : balFormed c = true) : cellChan c % 256 = cellChan c := by
  simp only [balFormed, Bool.and_eq_true, decide_eq_true_eq] at h
  obtain ⟨⟨-, hlt⟩, -⟩ := h
  exact Nat.mod_eq_of_lt hlt

section
variable {b : Bal} {c : Cell512} {x : BalNode} (hform : balFormed c = true)

section
include hform

theorem Bal.check_decl (hop : cellChan c = 1) : b.check c = b.declBad (balTarget c) (declNode fun i => (cellWord c i).toNat) := by
  simp only [Bal.check, hform, hop, Bool.not_true, Bool.false_eq_true, if_false]
  rfl

theorem Bal.check_remove_none (hop : cellChan c = 2) (hnode : b.node (balTarget c) = none) : b.check c = 1 := by
  unfold balTarget at hnode
  simp only [Bal.check, hform, hop, hnode, Bool.not_true, Bool.false_eq_true, if_false, if_true]

/-- A declared node under which no other node hangs may be removed. -/
theorem Bal.check_remove_leaf (hop : cellChan c = 2) (hnode : b.node (balTarget c) = some x)
    (hleaf : ∀ e ∈ b.nodes, e.1 ≠ balTarget c → e.2.isRoot = false → e.2.up ≠ balTarget c) : b.check c = 0 := by
  have hany : ¬ (b.nodes.any fun e => decide (e.1 ≠ balTarget c) && !e.2.isRoot && decide (e.2.up = balTarget c)) = true := by
    simpa [and_assoc] using hleaf
  unfold balTarget at hnode hany
  simp only [Bal.check, hform, hop, hnode, hany, reduceCtorEq, Bool.not_true, Bool.false_eq_true, if_false]

theorem Bal.check_reset_one (hop : cellChan c = 3) (hnode : b.node (balTarget c) = some x) : b.check c = 0 := by
  unfold balTarget at hnode
  simp only [Bal.check, hform, hop, hnode, reduceCtorEq, Bool.not_true, Bool.false_eq_true, and_false, if_false]

theorem Bal.check_reset_all (hop : cellChan c = 3) (hall : (cellWord c 1).toNat.testBit 32 = true) : b.check c = 0 := by
  simp only [Bal.check, hform, hop, hall, Bool.not_true, Bool.false_eq_true, false_and, if_false]

theorem Bal.check_read (hop : cellChan c = 4) (hnode : b.node (balTarget c) = some x) : b.check c = 0 := by
  unfold balTarget at hnode
  simp only [Bal.check, hform, hop, hnode, reduceCtorEq, Bool.not_true, Bool.false_eq_true, if_false]

end

theorem Bal.effect_decl (hop : cellChan c = 1) :
    b.effect c = b.declare (balTarget c) (declNode fun i => (cellWord c i).toNat) := by
  simp only [Bal.effect, hop]
  rfl

theorem Bal.effect_remove (hop : cellChan c = 2) :
    b.effect c = { b.markTopo (balTarget c) with nodes := drop (b.markTopo (balTarget c)).nodes (balTarget c) } := by
  simp only [Bal.effect, hop]
  rfl

theorem Bal.effect_reset_one (hop : cellChan c = 3) (hone : (cellWord c 1).toNat.testBit 32 = false)
    (hnode : b.node (balTarget c) = some x) : b.effect c = b.setNode (balTarget c) x.clearEst := by
  unfold balTarget at hnode ⊢
  simp only [Bal.effect, hop, hone, hnode, Bool.false_eq_true, if_false]

theorem Bal.effect_reset_all (hop : cellChan c = 3) (hall : (cellWord c 1).toNat.testBit 32 = true) :
    b.effect c = b.nodes.foldl (fun (b : Bal) e => b.setNode e.1 e.2.clearEst) b := by
  simp only [Bal.effect, hop, hall, if_true]

end

/-! ### Commands served from a ring (R345 to R348) -/

/-- Command c stands well formed at the front of a ring, and the balance lay may serve it (R37). -/
def State.balFront (s : State) (c : Cell512) (ring reply : Nat) : Prop :=
  s.peekCell (6144 + ring) 0 = some c ∧ balFormed c = true ∧ s.hostMay balLay ring reply = true

theorem State.formed_of_front {s : State} {c : Cell512} {ring reply : Nat} (h : s.balFront c ring reply) : balFormed c = true := by
  obtain ⟨-, hform, -⟩ := h
  exact hform

/-- The state a popped command is checked in: its budget charged, the record of its node read. -/
def State.balTaken (s : State) (c : Cell512) (ring reply : Nat) : State :=
  ((s.pop (6144 + ring)).2.hostSpend ring reply).balStart.nodeRead (balTarget c)

/-- A command accepted: it waits for a close, and its completion goes with it (R347). -/
def State.balAccept (s : State) (out : Nat) (c : Cell512) : State :=
  ({ s with bal := { s.bal with waiting := s.bal.waiting ++ [(out, c)] } } : State).offerAll out (balAnswer c 0 [])

section
variable {s : State} {c : Cell512} {ring reply : Nat} (hfront : s.balFront c ring reply)
include hfront

/-- The command at the front of a ring runs in the state left by its pop. -/
theorem State.balCommand_of_front :
    s.balCommand (cellChan c) ring reply =
      (((s.pop (6144 + ring)).2.hostSpend ring reply).balRun (6144 + reply) c).2.offerAll (6144 + reply)
        (((s.pop (6144 + ring)).2.hostSpend ring reply).balRun (6144 + reply) c).1 := by
  obtain ⟨hpeek, hform, hmay⟩ := hfront
  simp only [State.balCommand, hpeek, cellChan_of_formed hform, hmay, true_or, and_self, if_true]

/-- A change that its check refuses is answered with the status alone. -/
theorem State.balCommand_refused (hchange : cellChan c ≠ 4) {st : Nat}
    (hst : (s.balTaken c ring reply).bal.planned.check c = st) (hbad : st ≠ 0) :
    s.balCommand (cellChan c) ring reply = (s.balTaken c ring reply).offerAll (6144 + reply) (balAnswer c st []) := by
  have hop := cellChan_of_formed (State.formed_of_front hfront)
  rw [State.balCommand_of_front hfront]
  unfold State.balTaken balTarget at hst ⊢
  simp only [State.balRun, bits, hop, hchange, hst, hbad, if_false, ne_eq, not_false_eq_true, if_true]

/-- A change that passes its check is accepted. -/
theorem State.balCommand_accepted (hchange : cellChan c ≠ 4) (hst : (s.balTaken c ring reply).bal.planned.check c = 0) :
    s.balCommand (cellChan c) ring reply = (s.balTaken c ring reply).balAccept (6144 + reply) c := by
  have hop := cellChan_of_formed (State.formed_of_front hfront)
  rw [State.balCommand_of_front hfront]
  unfold State.balTaken balTarget at hst ⊢
  simp only [State.balRun, State.balAccept, bits, hop, hchange, hst, if_false, ne_eq, not_true]

/-- A read of a declared node is answered with its record as it is (R348). -/
theorem State.balCommand_read (hop : cellChan c = 4) {x : BalNode}
    (hnode : (s.balTaken c ring reply).bal.node (balTarget c) = some x) :
    s.balCommand 4 ring reply = (
      let y := s.balTaken c ring reply
      y.offerAll (6144 + reply) (balAnswer c 0
        (({ x with seq := y.le .ddr (y.nodeAddr (balTarget c)) 4 / 256 } : BalNode).bytes y.bal (balTarget c)))) := by
  have hst := Bal.check_read (State.formed_of_front hfront) hop hnode
  rw [← hop, State.balCommand_of_front hfront]
  unfold State.balTaken balTarget at *
  simp only [State.balRun, Bal.record, bits, hop, hst, hnode, if_false, ne_eq, not_true, if_true]

end

/-! ### Contributions, close orders and marks (R350, R352) -/

theorem exec_contributionCell_popped {s u : State} {n : BitVec 13} {c : Cell512} {ue : Bool}
    (hpop : s.pop n.toNat = (some (c, ue), u)) : exec (.contributionCell n) s = .next (u.contribute c) := by
  change execContributionCell n s = _
  simp only [execContributionCell, hpop]

/-- A close order in the balance lay's hands, the wait for its status cell begun (R366). -/
def State.balOrdered (s : State) : State :=
  if s.balStart.timer (balA rBAL_STAT) = 0 then s.balStart.setTimer (balA rBAL_STAT) (s.balStart.now + 10000000000) else s.balStart

/-- A close order past its settling delay closes its interval, unless that is closed already. -/
theorem exec_closeOrder_due {s : State} {k : BitVec 32} (hsys : s.domOn 1 = true)
    (hdue : s.ivlEnd k.toNat + s.fld (balA rBAL_SETTLE) 11 0 ≤ s.tsuTime.sec) (lost : List (BitVec 16 × Bool)) (us : BitVec 32) :
    exec (.closeOrder k lost us) s = .next (
      let z := s.balOrdered
      if z.isClosed (z.ivlEnd k.toNat) then z.balIgnore
      else z.balClose (z.ivlEnd k.toNat) false (lost.map (fun e => (e.1.toNat, e.2))) us.toNat) := by
  have hgo : ¬ ((!s.domOn 1) = true ∨ s.tsuTime.sec < s.ivlEnd k.toNat + s.fld (balA rBAL_SETTLE) 11 0) := by
    simpa [hsys] using hdue
  exact congrArg Host.Outcome.next (if_neg hgo)

section
variable {s u : State} {n : BitVec 13} {c : Cell512} {ue : Bool} (hpop : s.pop n.toNat = (some (c, ue), u)) (us : BitVec 32)
include hpop

/-- A mark of a closed interval is counted alone. -/
theorem exec_forcedClose_closed (hclosed : u.balStart.isClosed (bits (cellWord c 1) 47 0) = true) :
    exec (.forcedClose n us) s = .next u.balStart.balIgnore := by
  change execForcedClose n us s = _
  simp only [execForcedClose, hpop, hclosed, if_true]

/-- A mark of an open interval, with nothing older open, closes the interval before its own, unless that is closed already. -/
theorem exec_forcedClose_open (hopen : u.balStart.isClosed (bits (cellWord c 1) 47 0) = false)
    (hold : u.balStart.bal.open_.filter (fun e => e.1 < u.balStart.ivlStart (bits (cellWord c 1) 47 0)) = []) :
    exec (.forcedClose n us) s = .next (
      let o := u.balStart
      let prev := o.ivlStart (bits (cellWord c 1) 47 0)
      if o.isClosed prev then o else o.balClose prev true [] us.toNat) := by
  have hnone : (u.balStart.bal.open_.map (·.1)).filter (fun j => j < u.balStart.ivlStart (bits (cellWord c 1) 47 0)) = [] := by
    rw [List.filter_map]
    exact congrArg (List.map (·.1)) hold
  change execForcedClose n us s = _
  simp only [execForcedClose, hpop, hopen, hnone, Bool.false_eq_true, if_false, List.nil_append]
  split
  · rfl
  · rfl

end

/-! ### Notices, reports and status cells (R351, R363, R366) -/

theorem exec_closureNotice_waiting {s : State} {lay : Fin 8} {e : Nat × Nat}
    (h : s.bal.notices.find? (fun e => e.1 = lay.val) = some e) :
    exec (.closureNotice lay) s = .next { s with bal := { s.bal with
      notices := s.bal.notices.erase e, noticed := place e.1 e.2 (drop s.bal.noticed e.1) } } := by
  change execClosureNotice lay s = _
  simp only [execClosureNotice, h]

/-- A report under way goes on with up to 8 cells, as many as its splice has space for. -/
theorem exec_reportPush_begun {s : State} (h : s.bal.out ≠ []) (n : BitVec 13) :
    exec (.reportPush n) s = .next (
      let m := min 8 (min s.bal.out.length (s.space n.toNat))
      ({ s with bal := { s.bal with out := s.bal.out.drop m } } : State).offerAll n.toNat (s.bal.out.take m)) := by
  obtain ⟨c, l, hout⟩ := List.exists_cons_of_ne_nil h
  change execReportPush n s = _
  simp only [execReportPush, hout]

/-- The page shows a status cell's close, and the wait for the cell ends. -/
def State.balShow (s : State) (x : BalStatus) : State :=
  let b := ((((s.wr (balA rBAL_LAST_CLOSED) (BitVec.ofNat 32 x.closed)).wr (balA rBAL_NODES) (BitVec.ofNat 32 x.nodes)).wr
    (balA rBAL_ALARMS) (BitVec.ofNat 32 x.alarms)).wr (balA rBAL_UNIDENT) (BitVec.ofNat 32 x.unident)).wr (balA rBAL_CLOSE_US) (BitVec.ofNat 32 x.us)
  let d := (((b.bump (balA rBAL_LATE_CNT) x.late).bump (balA rBAL_FORCED_CNT) x.forced).bump (balA rBAL_RPT_DROP) x.drop).bump
    (balA rBAL_IGNORED_CNT) x.ignored
  (d.putBit (balA rBAL_STAT) 0 true).setTimer (balA rBAL_STAT) 0

/-- A status cell with nothing dropped, forced, unreadable or alarmed raises the event of a close alone. -/
theorem exec_balanceStatus_plain {s : State} {x : BalStatus} {l : List BalStatus} (hcell : s.bal.status = x :: l) (hsys : s.domOn 1 = true)
    (hdrop : x.drop = 0) (hforced : x.forced = 0) (hread : x.nodeUe = false) (halarm : x.alarm = false) :
    exec .balanceStatus s =
      .next ((({ s with bal := { s.bal with status := l } } : State).balShow x).irq .bal 0 0) := by
  have hstill : ({ s with bal := { s.bal with status := l } } : State).domOn 1 = true := hsys
  change execBalanceStatus s = _
  simp only [execBalanceStatus, State.balShow, hcell, hstill, hdrop, hforced, hread, halarm, Nat.lt_irrefl, Bool.not_true,
    Bool.false_eq_true, if_false]

/-- No status cell came in the time a close order gives it. -/
theorem exec_balNoStatus_due {s : State} {t : Nat} (hon : (s.at t).timer (balA rBAL_STAT) ≠ 0)
    (hnow : (s.at t).timer (balA rBAL_STAT) ≤ (s.at t).now) :
    exec (.balNoStatus t) s = .next (((s.at t).setTimer (balA rBAL_STAT) 0).cause .bal 0 2) :=
  congrArg Host.Outcome.next (if_neg (not_or.mpr ⟨hon, Nat.not_lt.mpr hnow⟩))

/-- The word of BAL_COMMIT has COMMIT (R366). -/
theorem balCommit_word (all hold : Bool) : bit (BitVec.ofNat 32 (2 ^ 31 + hold.toNat * 4 + all.toNat * 2)) 31 = true := by
  have hall := all.toNat_lt
  have hhold := hold.toNat_lt
  rw [Nat.add_assoc]
  exact bit_goWord (by omega)

/-- BAL_CTRL with COMMIT, taken, leaves the parameters pending. -/
theorem State.balReg_commit {s : State} {q : Requester} {v : Word32} (hcommit : bit v 31 = true)
    (h : s.takes q (balA rBAL_CTRL) v (s.bitAt (balA rBAL_STAT) 31)) :
    s.balReg q rBAL_CTRL v = (s.plain (balA rBAL_CTRL) (v.setWidth 64)).putBit (balA rBAL_STAT) 31 true :=
  (State.guarded_of_takes h).trans (if_pos ⟨rfl, hcommit⟩)

end Sys2Proof.Machine
end

section
/-! PROOFS. The statement about the balance's commands. -/

namespace Sys2Proof.Machine

/-- Settles O47: a well-formed command is answered with its status and, accepted, has the effect of its opcode at the next close; orders, marks,
notices, reports and status cells do what their rules say. That the balance is lay 6's, that an accepted command waits for a close, and the
order of the status codes are the model's choices (log entries 16 and 34). -/
theorem balanceCommands : Obligations.BalanceCommands := by
  unfold Obligations.BalanceCommands
  constructor
  · intro s u n c ue ring reply x w k front y b out d ok
    have haccept (hf : front) {op : Nat} (hop : cellChan c = op) (hchange : op ≠ 4) (hst : b.check c = 0) :
        s.balCommand op ring.val reply.val = ok := by
      subst hop
      exact State.balCommand_accepted hf hchange hst
    have hrefuse (hf : front) {op st : Nat} (hop : cellChan c = op) (hchange : op ≠ 4) (hst : b.check c = st) (hbad : st ≠ 0) :
        s.balCommand op ring.val reply.val = y.offerAll out (balAnswer c st []) := by
      subst hop
      exact State.balCommand_refused hf hchange hst hbad
    refine ⟨exec_contributionCell_popped, fun hf hop hbad => ?_, fun hf hop hgood => ⟨?_, Bal.effect_decl hop⟩, fun hf hop hnone => ?_,
      fun hf hop hnode hleaf => ⟨?_, Bal.effect_remove hop⟩, fun hf hop hone hnode => ⟨?_, Bal.effect_reset_one hop hone hnode⟩,
      fun hf hop hall => ⟨?_, Bal.effect_reset_all hop hall⟩, fun hf hop hnode => ?_⟩
    · exact congrArg Host.Outcome.next (hrefuse hf hop (by decide) (Bal.check_decl (State.formed_of_front hf) hop) hbad)
    · exact congrArg Host.Outcome.next (haccept hf hop (by decide) ((Bal.check_decl (State.formed_of_front hf) hop).trans hgood))
    · exact congrArg Host.Outcome.next (hrefuse hf hop (by decide) (Bal.check_remove_none (State.formed_of_front hf) hop hnone) (by decide))
    · exact congrArg Host.Outcome.next (haccept hf hop (by decide) (Bal.check_remove_leaf (State.formed_of_front hf) hop hnode hleaf))
    · exact congrArg Host.Outcome.next (haccept hf hop (by decide) (Bal.check_reset_one (State.formed_of_front hf) hop hnode))
    · exact congrArg Host.Outcome.next (haccept hf hop (by decide) (Bal.check_reset_all (State.formed_of_front hf) hop hall))
    · exact congrArg Host.Outcome.next (State.balCommand_read hf hop hnode)
  · intro s u q k us lost n c ue lay t e x l all hold y z fin o prev v W
    refine ⟨fun hsys hdue => ⟨fun hopen => ?_, fun hclosed => ?_⟩,
      fun hpop => ⟨exec_forcedClose_closed hpop us, fun hopen hnone => ⟨fun hp => ?_, fun hp => ?_⟩⟩,
      exec_closureNotice_waiting, fun hout => exec_reportPush_begun hout n, fun hcell hsys hlate hforced hdrop hign hread halarm => ?_,
      exec_balNoStatus_due, fun h => congrArg Host.Outcome.next (State.balReg_commit (balCommit_word all hold) h)⟩
    · exact (exec_closeOrder_due hsys hdue lost us).trans (congrArg Host.Outcome.next (if_neg (Bool.eq_false_iff.mp hopen)))
    · exact (exec_closeOrder_due hsys hdue lost us).trans (congrArg Host.Outcome.next (if_pos hclosed))
    · exact (exec_forcedClose_open hpop us hopen hnone).trans (congrArg Host.Outcome.next (if_neg (Bool.eq_false_iff.mp hp)))
    · exact (exec_forcedClose_open hpop us hopen hnone).trans (congrArg Host.Outcome.next (if_pos hp))
    · rw [exec_balanceStatus_plain hcell hsys hdrop hforced hread halarm, State.balShow, hlate, hforced, hdrop, hign]

end Sys2Proof.Machine
end

section
/-! SUPPORT. Laws of the field ports' registers, counters, neighbours and transceivers (R368 to R371, R375, R380 to R382, R389, R391, R393, R396):
what each write does when it is taken, and what each event does once its condition is met. -/

namespace Sys2Proof.Machine

/-! ### Words of a command with fields below a go bit -/

/-- A field below a power of two does not see it. -/
theorem nbits_two_pow_add {k hi : Nat} (h : hi < k) (n lo : Nat) : nbits (2 ^ k + n) hi lo = nbits n hi lo := by
  rcases Nat.lt_or_ge hi lo with hlo | hlo
  · simp only [nbits, show hi + 1 - lo = 0 by omega, pow_zero, Nat.mod_one]
  · have hk : 2 ^ k = 2 ^ lo * (2 ^ (hi + 1 - lo) * 2 ^ (k - (hi + 1))) := by
      rw [← pow_add, ← pow_add]
      congr 1
      omega
    rw [nbits, nbits, hk, Nat.mul_add_div (by positivity), Nat.mul_add_mod]

/-- A field of a 32-bit word that is 2^31 and a smaller number. -/
theorem bits_goWord {n hi : Nat} (h : n < 2 ^ 31) (hhi : hi < 31) (lo : Nat) : bits (BitVec.ofNat 32 (2 ^ 31 + n)) hi lo = nbits n hi lo := by
  rw [bits, BitVec.toNat_ofNat, Nat.mod_eq_of_lt (by omega), nbits_two_pow_add hhi]

/-- Bits 31 and 30 of a word that is 2^30 and a smaller number. -/
theorem bit_loadWord {n : Nat} (h : n < 2 ^ 30) :
    bit (BitVec.ofNat 32 (2 ^ 30 + n)) 31 = false ∧ bit (BitVec.ofNat 32 (2 ^ 30 + n)) 30 = true := by
  constructor
  · rw [bit, BitVec.getLsbD_ofNat, Nat.testBit_lt_two_pow (by omega), Bool.and_false]
  · rw [bit, BitVec.getLsbD_ofNat, Nat.testBit_two_pow_add_eq, Nat.testBit_lt_two_pow h]
    rfl

/-- A field of a 32-bit word that is 2^30 and a smaller number. -/
theorem bits_loadWord {n hi : Nat} (h : n < 2 ^ 30) (hhi : hi < 30) (lo : Nat) : bits (BitVec.ofNat 32 (2 ^ 30 + n)) hi lo = nbits n hi lo := by
  rw [bits, BitVec.toNat_ofNat, Nat.mod_eq_of_lt (by omega), nbits_two_pow_add hhi]

/-- The lowest bits of a number that needs no more of them. -/
theorem nbits_low {n hi : Nat} (h : n < 2 ^ (hi + 1)) : nbits n hi 0 = n := by
  rw [nbits, pow_zero, Nat.div_one, Nat.sub_zero, Nat.mod_eq_of_lt h]

/-! ### Enable and transceivers (R368, R370, R371) -/

section
variable {s : State} {q : Requester} {n : Fin 4} {t : Nat}

/-- EN set where it was 0, with an extended address: RST_N is released, the counter starts, the transceiver is set up. -/
theorem State.radioEnable_of_takes {k : Nat} (h : s.takes q (pa .radio k 0x00C) 1 false) (hext : s.rd64 (pa .radio k rRAD_EXT) ≠ 0)
    (hoff : s.bitAt (pa .radio k 0x00C) 0 = false) :
    s.radioEnable q k 1 =
      let z := s.putBit (pa .radio k 0x00C) 0 true
      (((z.setPort7 k { z.port7 k with rstAt := z.now }).txctrStart k).radioSetup k).reseed := by
  have hset : bit (1 : Word32) 0 = true := rfl
  simp only [State.radioEnable, hset, hext, decide_false, Bool.and_false, hoff, Bool.false_eq_true, if_false, if_true, State.guarded_of_takes h]

/-- A port that is enabled asks its transceiver for the cause: an ERROR, or none with IRQ_N low, resets it. -/
theorem exec_transceiverIrq_on (hon : s.macOn n.val = true) (cause : BitVec 8) (low : Bool) :
    exec (.transceiverIrq n cause low) s = .next (
      let up := (s.spiSend n.val 0x30 [] 1).xcvrUp n.val true
      if cause.getLsbD 7 || (cause = 0 && low) then up.xcvrReset n.val else up) := by
  change execTransceiverIrq n cause low s = _
  rw [execTransceiverIrq, hon]
  rfl

variable {r : TxRun} (hrun : ((s.at t).port7 n.val).run = some r) (hdue : r.due ≤ (s.at t).now)
include hrun hdue

/-- No TX_DONE by its time resets the transceiver. -/
theorem exec_txDoneTimeout_due (hst : r.st = 3) : exec (.txDoneTimeout n t) s = .next ((s.at t).xcvrReset n.val) := by
  change execTxDoneTimeout n t s = _
  simp only [execTxDoneTimeout, hrun, hst, hdue, Option.any_some, decide_true, Bool.and_self, Bool.or_true, if_true]

/-- No CCA_DONE by its time resets the transceiver. -/
theorem exec_ccaTimeout_due (hst : r.st = 2) : exec (.ccaTimeout n t) s = .next ((s.at t).xcvrReset n.val) := by
  change execCcaTimeout n t s = _
  simp only [execCcaTimeout, hrun, hst, hdue, Option.any_some, decide_true, Bool.and_self, if_true]

end

/-- The time of a strobe, as the TSU captures it: 32 bits of ns. -/
def State.strobeTime (s : State) : Nat := (s.tsuTime.sec * 1000000000 + s.tsuTime.ns) % 2 ^ 32

section
variable {s : State} {n : Fin 4} {t : Nat} (hon : (s.at t).macOn n.val = true) (hnet : (s.at t).netOn = true)
include hon hnet

/-- A strobe of a port that sends nothing is kept for the next frame fetched, with the count of steps. -/
theorem exec_timeStrobe_idle (hack : ((s.at t).port7 n.val).acking = none) (hrun : ((s.at t).port7 n.val).run = none) :
    exec (.timeStrobe n t) s = .next ((s.at t).setPort7 n.val { (s.at t).port7 n.val with
      strobe := some ((s.at t).strobeTime, (s.at t).fld (pa .tsu 0 rTSU_STEP_CNT) 3 0) }) := by
  have hidle : (s.at t).acking n.val = false := by rw [State.acking, hack]; rfl
  change execTimeStrobe n t s = _
  simp only [execTimeStrobe, hon, hnet, hidle, hrun, Option.any_none, Bool.not_true, Bool.or_self, Bool.false_eq_true, if_false]
  rfl

/-- A strobe of a port that sends is of the frame or the acknowledgement being sent. -/
theorem exec_timeStrobe_sending {r : TxRun} (hbusy : (s.at t).acking n.val = true ∨ ((s.at t).port7 n.val).run = some r ∧ r.st = 3) :
    exec (.timeStrobe n t) s = .next ((s.at t).setPort7 n.val { (s.at t).port7 n.val with strobeTx := (s.at t).strobeTime }) := by
  have hsends : ((s.at t).acking n.val || ((s.at t).port7 n.val).run.any (fun r => r.st = 3)) = true := by
    rcases hbusy with hack | ⟨hrun, hst⟩
    · simp [hack]
    · simp [hrun, hst]
  change execTimeStrobe n t s = _
  simp only [execTimeStrobe, hon, hnet, hsends, Bool.not_true, Bool.or_self, Bool.false_eq_true, if_false, if_true]
  rfl

end

/-! ### Neighbours (R375, R396) -/

section
variable {s : State} {q : Requester} {m : Nat} (i : BitVec 12)

/-- The entry a write of RAD_NB_SEL or PH_NB_SEL selects: a radio port has 4,096 neighbours, a phase 2,048. -/
def nbIndex (m i : Nat) : Nat := if isRadio m then i else i % 2048

theorem nbIndex_of_bits {v : Word32} (hv : ∀ hi < 30, bits v hi 0 = nbits i.toNat hi 0) :
    (if isRadio m then bits v 11 0 else bits v 10 0) = nbIndex m i.toNat := by
  rw [hv 11 (by decide), hv 10 (by decide), nbits_low i.isLt, nbits, pow_zero, Nat.div_one]
  rfl

theorem State.nbSel_commit (h : s.takes q (macA m rRAD_NB_SEL rPH_NB_SEL) (BitVec.ofNat 32 (2 ^ 31 + i.toNat)) (s.nbBad m (nbIndex m i.toNat))) :
    s.nbSel q m (BitVec.ofNat 32 (2 ^ 31 + i.toNat)) =
      (s.plain (macA m rRAD_NB_SEL rPH_NB_SEL) ((BitVec.ofNat 32 (2 ^ 31 + i.toNat)).setWidth 64)).nbCommit m (nbIndex m i.toNat) := by
  have hi : i.toNat < 2 ^ 31 := by have := i.isLt; omega
  rw [State.nbSel, nbIndex_of_bits i (fun hi' h' => bits_goWord hi (by omega) 0), bit_goWord hi, Bool.true_and]
  exact State.guarded_of_takes h

theorem State.nbSel_load (h : s.takes q (macA m rRAD_NB_SEL rPH_NB_SEL) (BitVec.ofNat 32 (2 ^ 30 + i.toNat)) false) :
    s.nbSel q m (BitVec.ofNat 32 (2 ^ 30 + i.toNat)) =
      (s.plain (macA m rRAD_NB_SEL rPH_NB_SEL) ((BitVec.ofNat 32 (2 ^ 30 + i.toNat)).setWidth 64)).nbLoad m (nbIndex m i.toNat) := by
  have hi : i.toNat < 2 ^ 30 := by have := i.isLt; omega
  obtain ⟨hcommit, hload⟩ := bit_loadWord hi
  rw [State.nbSel, nbIndex_of_bits i (fun hi' h' => bits_loadWord hi h' 0), hcommit, hload, Bool.false_and]
  exact State.guarded_of_takes h

end

/-! ### Counters (R380 to R382) -/

/-- A cause leaves the field ports' own state alone. -/
@[simp] theorem State.cause_mac (s : State) (p : Pg) (inst i : Nat) : (s.cause p inst i).mac = s.mac := by
  simp only [State.cause, State.pulse, State.bump]
  split
  · split_ifs <;> rfl
  · rfl

@[simp] theorem State.framFail_port7 (s : State) (m k : Nat) : (s.framFail m).port7 k = s.port7 k := by
  simp [State.port7, State.framFail]

/-- The one entry whose counter has changed is written, its read-back good. -/
theorem exec_counterImageFlush_one {s : State} {m : Fin 7} {k : Nat} {e : Neigh} (hfield : s.domOn 12 = true) (hsys : s.domOn 1 = true)
    (hnbs : (s.port7 m.val).nbs = [(k, e)]) (hdirty : e.dirty = true) :
    exec (.counterImageFlush m true) s = .next ((s.framPut 3 (ctrImageAt m.val k) (toLe 4 e.next ++ toLe 4 e.ext)).setPort7 m.val
      { s.port7 m.val with nbs := [(k, { e with dirty := false })] }) := by
  change execCounterImageFlush m true s = _
  simp only [execCounterImageFlush, hfield, hsys, hnbs, List.filter_cons, hdirty, List.filter_nil, List.isEmpty_cons, Bool.not_true,
    Bool.or_self, Bool.false_eq_true, if_false, if_true, List.foldl_cons, List.foldl_nil, List.map_cons, List.map_nil]

/-- A port's counter is near its limit, and may be given a new one. -/
def State.reserves (s : State) (m : Nat) : Prop :=
  s.macOn m = true ∧ s.domOn 1 = true ∧ s.txres m ≤ s.txctr m + 1024 ∧ (s.port7 (ctrPort m)).halted = false ∧ s.limitBars (min m 4) = false

/-- A reservation, by its read-backs that failed. -/
theorem exec_txctrReserve_near {s : State} {m : Fin 7} (h : s.reserves m.val) (fails : Fin 3) :
    exec (.txctrReserve m fails) s = .next (
      let lim := min (2 ^ 32 - 1) (s.txres m.val + 4096)
      let z := s.reserve (resAt m.val) lim
      if fails.val = 2 then (s.framFail m.val).setPort7 (ctrPort m.val) { (s.framFail m.val).port7 (ctrPort m.val) with halted := true }
      else if z.pairEn then z.limitSend (min m.val 4) lim else z.txresUse m.val lim) := by
  obtain ⟨hon, hsys, hnear, hgoes, hbars⟩ := h
  change execTxctrReserve m fails s = _
  simp only [execTxctrReserve, hon, hsys, Nat.not_lt.mpr hnear, hgoes, hbars, decide_false, Bool.not_true, Bool.or_self, Bool.false_eq_true,
    if_false, State.framFail_port7]

/-- The counter is reset where every valid key slot has been written since: both copies of the reservation start again, and the limit is used. -/
theorem State.txctrRst_of_takes {s : State} {q : Requester} {m : Nat} (h : s.takes q (sharedA m rRAD_TXCTR_RST rPLC_TXCTR_RST) 0x80000000 false)
    (hfresh : ∀ k, k < 4 → s.bitAt (keySlotA m k) 31 = true → (s.port7 (ctrPort m)).written.testBit k = true) :
    s.txctrRst q m 0x80000000 = (
      let u := ((s.wr (sharedA m rRAD_TXCTR rPLC_TXCTR) 0).framPut 3 (resAt m) (toLe 4 4096 ++ toLe 4 (2 ^ 32 - 1 - 4096))).framPut 3
        (resAt m + 8) (toLe 4 4096 ++ toLe 4 (2 ^ 32 - 1 - 4096))
      (u.setPort7 (ctrPort m) { u.port7 (ctrPort m) with written := 0 }).txresUse m 4096) := by
  have hset : bit (0x80000000 : Word32) 31 = true := rfl
  have hstale : (List.range 4).any (fun k => s.bitAt (keySlotA m k) 31 && !(s.port7 (ctrPort m)).written.testBit k) = false := by
    simpa [List.any_eq_false] using hfresh
  simp only [State.txctrRst, hset, hstale, Bool.and_false, Bool.not_true, Bool.false_eq_true, if_false, State.guarded_of_takes h]

/-- The generator of a port that is enabled is reseeded. -/
theorem exec_macReseed_on {s : State} {m : Fin 7} (hon : s.macOn m.val = true) : exec (.macReseed m) s = .next s.reseed :=
  congrArg _ (if_pos hon)

/-! ### Status cells, held messages and transceiver registers (R391, R393, R396) -/

/-- The oldest status cell of a port goes to the lay of its splice, which has room. -/
theorem exec_txStatusCell_room {s : State} {p : Fin 15} {k d : Nat} {c : Cell512} {rest : List (Nat × Cell512)}
    (hcell : s.statusOf p.val = (k, c) :: rest) (hlay : s.toLay 2 (s.fld (descA k 1) 18 16) = some d) (hroom : 0 < s.space d) :
    exec (.txStatusCell p) s = .next ((s.setStatus p.val rest).offer d c) := by
  change execTxStatusCell p s = _
  simp only [execTxStatusCell, hcell, hlay, hroom.ne', if_false]

/-- The one message held whose time is over ends EXPIRED. -/
theorem exec_indirectExpiry_one {s : State} {n : Fin 4} {t : Nat} {x : TxMsg} (hfield : (s.at t).domOn 12 = true)
    (hheld : ((s.at t).port7 n.val).held = [x])
    (hold : x.since + (s.at t).fld (pa .radio n.val rRAD_TIME2) 7 0 * 1000000000 ≤ (s.at t).now) :
    exec (.indirectExpiry n t) s =
      .next (((s.at t).setPort7 n.val { (s.at t).port7 n.val with held := [] }).endMsg n.val x 3 0 0) := by
  change execIndirectExpiry n t s = _
  simp only [execIndirectExpiry, hfield, hheld, hold, List.filter_cons, List.filter_nil, decide_true, Bool.not_true, Bool.false_eq_true,
    if_false, if_true, List.foldl_cons, List.foldl_nil]

/-- An access of a transceiver register under way: the byte it returns, and VALID 0 (R396). -/
def State.xregBegun (s : State) (n : Nat) (data : BitVec 8) : State :=
  (s.setPort7 n { s.port7 n with xreg := some (s.now, data) }).putBit (pa .radio n rRAD_XREG) 29 false

/-- With no access under way, a GO sends the access's transaction: WRITE_REG or READ_REG. -/
theorem State.xreg_of_takes {s : State} {q : Requester} {n : Nat} {v : Word32} (hgo : bit v 31 = true) (hidle : (s.port7 n).xreg = none)
    (h : s.takes q (pa .radio n rRAD_XREG) v false) (data : BitVec 8) :
    s.xreg q n v data =
      let z := s.plain (pa .radio n rRAD_XREG) (v.setWidth 64)
      let addr := toBe 2 (z.fld (pa .radio n rRAD_XREG) 23 8)
      (if bit v 30 then z.spiSend n 0x01 (addr ++ toBe 1 (z.fld (pa .radio n rRAD_XREG) 7 0)) 0 else z.spiSend n 0x02 addr 1).xregBegun n data := by
  have hsettle : s.xregSettle n = s := by simp only [State.xregSettle, hidle]
  simp only [State.xreg, hgo, hsettle, hidle, Option.isSome_none, Bool.and_false, Bool.not_true, Bool.false_eq_true, if_false,
    State.guarded_of_takes h]
  rfl

/-- The word of a write by XREG_ACCESS: GO and WRITE above the address and the byte. -/
theorem xregWord_write (addr : BitVec 16) (data : BitVec 8) :
    bit (BitVec.ofNat 32 (2 ^ 31 + 2 ^ 30 + addr.toNat * 2 ^ 8 + data.toNat)) 31 = true ∧
      bit (BitVec.ofNat 32 (2 ^ 31 + 2 ^ 30 + addr.toNat * 2 ^ 8 + data.toNat)) 30 = true := by
  have haddr := addr.isLt
  have hdata := data.isLt
  rw [Nat.add_assoc, Nat.add_assoc]
  refine ⟨bit_goWord (by omega), ?_⟩
  rw [bit, BitVec.getLsbD_ofNat, Nat.testBit_two_pow_add_gt (by decide), Nat.testBit_two_pow_add_eq, Nat.testBit_lt_two_pow (by omega)]
  rfl

/-- The word of a read by XREG_ACCESS: GO without WRITE. -/
theorem xregWord_read (addr : BitVec 16) (data : BitVec 8) :
    bit (BitVec.ofNat 32 (2 ^ 31 + addr.toNat * 2 ^ 8 + data.toNat)) 31 = true ∧
      bit (BitVec.ofNat 32 (2 ^ 31 + addr.toNat * 2 ^ 8 + data.toNat)) 30 = false := by
  have haddr := addr.isLt
  have hdata := data.isLt
  rw [Nat.add_assoc]
  refine ⟨bit_goWord (by omega), ?_⟩
  rw [bit, BitVec.getLsbD_ofNat, Nat.testBit_two_pow_add_gt (by decide), Nat.testBit_lt_two_pow (by omega), Bool.and_false]

end Sys2Proof.Machine
end

section
/-! PROOFS. The statement about the field ports' registers, counters, neighbours and transceivers. -/

namespace Sys2Proof.Machine

/-- Settles O48: each write taken has its register's effect, and each event of a port acts once its condition is met. The byte a transceiver
register returns is an operand of XREG_ACCESS (log entry 23). -/
theorem fieldPortCommands : Obligations.FieldPortCommands := by
  unfold Obligations.FieldPortCommands
  intro s q t n m i addr data low r fails e k d c rest p7 x y E up sel W L j now G X R a b begun lim
  refine ⟨fun h hext hoff => ?_, fun hon hno hlow => ?_, fun hon herr => ?_, fun hrun hst hdue => exec_txDoneTimeout_due hrun hdue hst,
    fun hrun hst hdue => exec_ccaTimeout_due hrun hdue hst, exec_timeStrobe_idle,
    fun hon hnet hbusy => exec_timeStrobe_sending hon hnet hbusy,
    fun h => congrArg Host.Outcome.next (State.nbSel_commit i h), fun h => congrArg Host.Outcome.next (State.nbSel_load i h),
    exec_counterImageFlush_one,
    fun hon hsys hnear hgoes hbars => ⟨fun hfails => ?_, fun hfails hsolo => ?_⟩, fun h hfresh => ?_,
    exec_txStatusCell_room, exec_indirectExpiry_one, fun hidle h => ?_, fun hidle h => ?_, exec_macReseed_on⟩
  · exact congrArg Host.Outcome.next (State.radioEnable_of_takes h hext hoff)
  · exact (exec_transceiverIrq_on hon data low).trans (congrArg _ (if_neg (by rw [hno]; simpa [or_iff_not_imp_left] using hlow)))
  · exact (exec_transceiverIrq_on hon data low).trans (congrArg _ (if_pos (by simpa using herr)))
  · exact (exec_txctrReserve_near ⟨hon, hsys, hnear, hgoes, hbars⟩ fails).trans (congrArg _ (if_pos hfails))
  · refine (exec_txctrReserve_near ⟨hon, hsys, hnear, hgoes, hbars⟩ fails).trans (congrArg _ ((if_neg hfails.ne).trans (if_neg ?_)))
    exact Bool.eq_false_iff.mp hsolo
  · exact congrArg Host.Outcome.next (State.txctrRst_of_takes h hfresh)
  · obtain ⟨hgo, hwrite⟩ := xregWord_write addr data
    exact congrArg Host.Outcome.next ((State.xreg_of_takes hgo hidle h data).trans (by rw [hwrite]; rfl))
  · obtain ⟨hgo, hread⟩ := xregWord_read addr data
    exact congrArg Host.Outcome.next ((State.xreg_of_takes hgo hidle h data).trans (by rw [hread]; rfl))

end Sys2Proof.Machine
end

section
/-! SUPPORT. Laws of the frames of the field ports (R383 to R394, R402, R406, R416, R418): what each event of a sending port does in the state it
waits in, and what becomes of a frame received by what it is. -/

namespace Sys2Proof.Machine

/-! ### Channel access (R388, R389, R402, R406, R416) -/

/-- A frame is under way at a port, in a state of its sending. -/
def State.runsIn (s : State) (m : Nat) (r : TxRun) (k : Nat) : Prop := (s.port7 m).run = some r ∧ r.st = k

/-- A port may contend for its channel: it works, the device is not fenced, and the power line does not start up (R392, R407). -/
def State.mayContend (s : State) (m : Nat) : Prop := s.macOn m = true ∧ s.fenced = false ∧ s.startingUp m = false

/-- The channel test of a frame begins now. -/
def State.assess (s : State) (m : Nat) (r : TxRun) : State :=
  s.setPort7 m { s.port7 m with run := some { r with st := 2, due := s.now + r.listen * 1000 + 1000000 } }

section
variable {s : State} {t : Nat} {m : Fin 7} {r : TxRun}

/-- A backoff that is over begins the channel test; a phase waits where the test does not fit before a beacon or a quiet window. -/
theorem exec_backoffExpiry_over (hruns : (s.at t).runsIn m.val r 1) (hdue : r.due ≤ (s.at t).now) (hmay : (s.at t).mayContend m.val)
    (hack : (s.at t).acking m.val = false) :
    exec (.backoffExpiry m t) s = .next (
      if !isRadio m.val && !(s.at t).airFits (r.listen * 1000) then (s.at t).waitFree m.val r (r.listen * 1000)
      else (if isRadio m.val then (s.at t).spiSend m.val 0x12 (toBe 2 r.listen) 1 else s.at t).assess m.val r) := by
  obtain ⟨hrun, hst⟩ := hruns
  obtain ⟨hon, hfence, hstart⟩ := hmay
  change execBackoffExpiry m t s = _
  simp only [execBackoffExpiry, hrun, hst, Nat.not_lt.mpr hdue, hon, hfence, hack, hstart, ne_eq, not_true, decide_false, Bool.not_true,
    Bool.or_self, Bool.false_eq_true, if_false]
  rfl

section
variable (hruns : (s.at t).runsIn m.val r 2) (hmay : (s.at t).mayContend m.val) (energy : BitVec 8) (busy : Bool)
include hruns hmay

/-- An acknowledgement that fell due during the channel test is sent first, and the test is made again. -/
theorem exec_ccaResult_owing {a : Owed} {l : List Owed} (hdue : ((s.at t).port7 m.val).dueAcks (s.at t).now = a :: l) :
    exec (.ccaResult m energy busy t) s = .next (
      let z := (s.at t).sendAck m.val a
      z.setPort7 m.val { z.port7 m.val with run := some { r with st := 1, due := z.now } }) := by
  obtain ⟨hrun, hst⟩ := hruns
  obtain ⟨hon, hfence, hstart⟩ := hmay
  change execCcaResult m energy busy t s = _
  simp only [execCcaResult, hrun, hst, hon, hfence, hstart, hdue, ne_eq, not_true, decide_false, Bool.not_true, Bool.or_self,
    Bool.false_eq_true, if_false]

/-- With no acknowledgement due, the answer of a transceiver decides for a radio port, and the power line's own test for a phase. -/
theorem exec_ccaResult_free (hnone : ((s.at t).port7 m.val).dueAcks (s.at t).now = []) :
    exec (.ccaResult m energy busy t) s = .next (
      if isRadio m.val then
        if energy ≠ 0x80 ∧ signed 8 energy.toNat < signed 8 (nbits r.csma 23 16) then (s.at t).transmit m.val r
        else (s.at t).busyTest m.val r
      else (s.at t).plcTest m.val r busy) := by
  obtain ⟨hrun, hst⟩ := hruns
  obtain ⟨hon, hfence, hstart⟩ := hmay
  change execCcaResult m energy busy t s = _
  simp only [execCcaResult, hrun, hst, hon, hfence, hstart, hnone, ne_eq, not_true, decide_false, Bool.not_true, Bool.or_self,
    Bool.false_eq_true, if_false]

end

/-! ### The end of a frame (R390, R395) -/

/-- A frame sent by a port whose channel stays: the wait for its acknowledgement begins, or its part is done. -/
theorem exec_txDone_frame (hruns : (s.at t).runsIn m.val r 3) (hack : (s.at t).acking m.val = false)
    (hchan : ((s.at t).port7 m.val).chanDue = false) :
    exec (.txDone m t) s = .next (
      let y := s.at t
      if r.msg.ack ∧ !r.msg.broadcast then
        y.setPort7 m.val { y.port7 m.val with run := some { r with
          st := 4, due := y.now + y.macFld m.val rRAD_TIME1 31 16 rPLC_TIME1 31 16 * 1000 } }
      else y.partDone m.val r 0) := by
  obtain ⟨hrun, hst⟩ := hruns
  have hset : (s.at t).chanSet m.val = s.at t := by
    rw [State.chanSet, hchan]
    rfl
  change execTxDone m t s = _
  simp only [execTxDone, hrun, hst, hack, hset, Bool.and_false, ne_eq, not_true, Bool.false_eq_true, if_false]

/-- A wait for an acknowledgement that is over: the frame goes out again while its repetitions last. -/
theorem exec_ackWaitTimeout_over (hruns : (s.at t).runsIn m.val r 4) (hdue : r.due ≤ (s.at t).now) :
    exec (.ackWaitTimeout m t) s = .next (
      if r.again < r.csmaFld m.val 15 12 19 16 then (s.at t).access m.val { r with again := r.again + 1 }
      else (s.at t).endTx m.val r 1 0) := by
  obtain ⟨hrun, hst⟩ := hruns
  change execAckWaitTimeout m t s = _
  simp only [execAckWaitTimeout, hrun, hst, Nat.not_lt.mpr hdue, ne_eq, not_true, or_self, if_false]

/-- A port with nothing under way sends the oldest acknowledgement that has fallen due. -/
theorem exec_macAckSend_idle {a : Owed} {l : List Owed} (hon : (s.at t).macOn m.val = true) (hack : (s.at t).acking m.val = false)
    (hidle : ((s.at t).port7 m.val).run = none) (hdue : ((s.at t).port7 m.val).dueAcks (s.at t).now = a :: l) :
    exec (.macAckSend m t) s = .next ((s.at t).sendAck m.val a) := by
  change execMacAckSend m t s = _
  simp only [execMacAckSend, hon, hack, hidle, hdue, Option.any_none, Bool.not_true, Bool.or_self, Bool.false_eq_true, if_false]

/-! ### Reception (R371 to R374, R383 to R385, R390, R399, R418) -/

/-- The one datagram whose reassembly is older than REASM_S is freed and counted. -/
theorem exec_reassemblyTimeout_one {x : Reasm} (hfield : (s.at t).domOn 12 = true) (hbuf : ((s.at t).port7 m.val).reasm = [x])
    (hold : x.since + (s.at t).macFld m.val rRAD_TIME2 15 8 rPLC_TIME2 15 8 * 1000000000 ≤ (s.at t).now) :
    exec (.reassemblyTimeout m t) s =
      .next (((s.at t).setPort7 m.val { (s.at t).port7 m.val with reasm := [] }).macCount m.val 9) := by
  change execReassemblyTimeout m t s = _
  simp only [execReassemblyTimeout, hfield, hbuf, hold, List.filter_cons, List.filter_nil, decide_true, Bool.not_true, Bool.false_eq_true,
    if_false, if_true, List.foldl_cons, List.foldl_nil]

/-- What a port takes of a frame that comes in: a radio port fetches it from its transceiver, a phase settles its gain. -/
def State.fetched (s : State) (m : Nat) (f : FieldFrame) : State :=
  if isRadio m then s.spiSend m 0x20 [] (5 + f.length.toNat) else s.agcStep m

section
variable {f : FieldFrame} (hon : (s.at t).macOn m.val = true)
include hon

/-- A frame longer than a radio port takes resets the transceiver. -/
theorem exec_fieldFrameReceived_long (hradio : isRadio m.val = true)
    (hlong : ((s.at t).fetched m.val f).mtu m.val < f.length.toNat) :
    exec (.fieldFrameReceived m f t) s = .next (((s.at t).fetched m.val f).xcvrReset m.val) := by
  simp only [State.fetched, hradio, if_true] at hlong ⊢
  change execFieldFrameReceived m f t s = _
  simp only [execFieldFrameReceived, hon, hradio, hlong, decide_true, Bool.not_true, Bool.false_and, Bool.or_self, Bool.and_self,
    Bool.false_eq_true, if_false, if_true]

/-- Any other frame that a port hears is taken with its stamp where its FCS is good, and counted where not. -/
theorem exec_fieldFrameReceived_heard {u : State} {stamp : Int}
    (hfits : isRadio m.val = true → f.length.toNat ≤ ((s.at t).fetched m.val f).mtu m.val)
    (hears : isRadio m.val = false → (s.at t).bitAt (macA m.val 0 rPH_CFG) 3 = true ∧ (s.at t).txen (m.val - 3) = false)
    (hstamp : ((s.at t).fetched m.val f).frameStamp m.val = (stamp, u)) :
    exec (.fieldFrameReceived m f t) s =
      .next (if u.frameGood m.val f then u.frameTake m.val f stamp else u.macCount m.val 1) := by
  have hopen : (!(s.at t).macOn m.val ||
      (!isRadio m.val && (!(s.at t).bitAt (macA m.val 0 rPH_CFG) 3 || (s.at t).txen (m.val - 3)))) = false := by
    cases hr : isRadio m.val
    · obtain ⟨hrx, htx⟩ := hears hr
      simp only [hon, hrx, htx, Bool.not_true, Bool.or_self, Bool.and_false]
    · simp only [hon, Bool.not_true, Bool.false_and, Bool.or_self]
  have hshort : (isRadio m.val && decide (((s.at t).fetched m.val f).mtu m.val < f.length.toNat)) = false := by
    cases hr : isRadio m.val
    · rfl
    · simpa using hfits hr
  unfold State.fetched at hstamp hshort
  change execFieldFrameReceived m f t s = _
  simp only [execFieldFrameReceived, hopen, hshort, hstamp, Bool.false_eq_true, if_false]

end

end

section
variable {u : State} {m : Nat} {f : FieldFrame} {g : RxFrame}

/-- A frame for the port, by what the filter says of its address: none, where a broadcast frame asks for an acknowledgement (R373, R383). -/
def State.addressed (s : State) (m : Nat) (g : RxFrame) (stamp : Int) : Option Bool → State
  | none => s
  | some false => s.macCount m 2
  | some true => s.routed m g stamp

/-- An acknowledgement on the power line carries the FCS of the frame it acknowledges. -/
theorem State.frameTake_fch {k : BitVec 16} (hack : f.ack = some k) (hline : isRadio m = false) (stamp : Int) :
    u.frameTake m f stamp = u.ackRead m k.toNat f.lqi.toNat := by
  simp only [State.frameTake, hack, hline, Bool.false_eq_true, if_false]

variable (hack : f.ack = none)
include hack

theorem State.frameTake_outside (hparts : u.frameParts m f = none) (stamp : Int) : u.frameTake m f stamp = u.macCount m 2 := by
  simp only [State.frameTake, hack, hparts]

variable (hparts : u.frameParts m f = some g)
include hparts

theorem State.frameTake_imm (hkind : g.mac.kind = 1) (stamp : Int) : u.frameTake m f stamp = u.ackRead m g.mac.seq g.lqi := by
  simp only [State.frameTake, hack, hparts, hkind, if_true]

/-- Any other frame in the subset brings its sender's label up to date, and then the filter decides. -/
theorem State.frameTake_other (hkind : g.mac.kind ≠ 1) (stamp : Int) :
    u.frameTake m f stamp = (u.relabelled m g).addressed m g stamp ((u.relabelled m g).filters m g) := by
  simp only [State.frameTake, hack, hparts, hkind, if_false]
  rfl

end

/-! ### Transmit messages (R386) -/

/-- A channel of a radio port names no acknowledgement. -/
theorem radioChan_of_txPort {chan i : Nat} (h : txPort true chan = some i) : 0xF000 ≤ chan ∧ chan ≤ 0xF003 := by
  by_contra hno
  simp [txPort, hno] at h

/-- A radio port that works and has room takes the whole message at the front of a splice of its block end, nothing of it taken before. -/
theorem exec_transmitMessage_radio {s u : State} {n : BitVec 13} {t : Nat} {i : Nat} {c : Cell512} {cs : List Cell512}
    (hcode : (s.at t).fld (descA n.toNat 1) 12 8 = 4) (hfield : (s.at t).domOn 12 = true) (hfresh : (s.at t).begun n.toNat = [])
    (hfront : (s.at t).peekCell n.toNat 0 = some c) (hport : txPort true (cellChan c) = some i) (hon : (s.at t).macOn i = true)
    (hroom : ((s.at t).port7 i).held16 < 16) (hcells : ((s.at t).port7 i).status.length < 64)
    (htake : (s.at t).takeMessage 4 n.toNat 64 = ([], c :: cs, u)) :
    exec (.transmitMessage n t) s = .next (u.txTake i n.toNat (c :: cs)) := by
  have hchan : (s.at t).headChan n.toNat = some (cellChan c) := by
    rw [State.headChan, hfresh, hfront]
    rfl
  have hdata : ¬ (4080 ≤ cellChan c ∧ cellChan c ≤ 4083) := by
    have := radioChan_of_txPort hport
    omega
  change execTransmitMessage n t s = _
  simp only [execTransmitMessage, hcode, hfield, hchan, hport, hdata, hon, Nat.not_le.mpr hroom, Nat.not_le.mpr hcells, htake,
    Option.getD_some, Option.isSome_some, Option.isNone_some, decide_true, decide_false, true_or, Bool.not_true, or_self,
    Bool.or_self, Bool.and_false, Bool.false_and, Bool.false_eq_true, if_true, if_false]

end Sys2Proof.Machine
end

section
/-! PROOFS. The statement about frames sent and received by the field ports. -/

namespace Sys2Proof.Machine

/-- Settles O49: a frame under way goes on by the event that its state waits for, and a frame received by what it is. What the power line's clauses
say of the air, the front ends and the labels rests on R402, R406, R416 and R418; that another phase's test in the same cycle ranks before
this one is the model's reading (log entry 24, DEDUCED). -/
theorem fieldFrameCommands : Obligations.FieldFrameCommands := by
  unfold Obligations.FieldFrameCommands
  intro s t m r a l f k g stamp u energy n cs c x busy y i runs lbt w quiet code limit
  refine ⟨fun hruns hdue hquiet hack hradio => ?_, fun hruns hdue hquiet hack hline => ⟨fun hmeets => ?_, fun hfits => ?_⟩,
    fun hruns hquiet hdue => exec_ccaResult_owing hruns hquiet energy busy hdue,
    fun hruns hquiet hnone hradio => ⟨fun hanswer hlow => ?_, fun hhigh => ?_⟩, fun hruns hquiet hnone hline => ?_,
    fun hruns hack hchan hasks haddr => ?_, fun hruns hack hchan hno => ?_, fun hruns hdue hmore => ?_, fun hruns hdue hlast => ?_,
    exec_macAckSend_idle, exec_reassemblyTimeout_one, exec_fieldFrameReceived_long, fun hon hfits hears hstamp => ?_, exec_transmitMessage_radio⟩
  · rw [exec_backoffExpiry_over hruns hdue hquiet hack, hradio]
    rfl
  · rw [exec_backoffExpiry_over hruns hdue hquiet hack, hline, hmeets]
    rfl
  · rw [exec_backoffExpiry_over hruns hdue hquiet hack, hline, hfits]
    rfl
  · exact (exec_ccaResult_free hruns hquiet energy busy hnone).trans (congrArg _ ((if_pos hradio).trans (if_pos ⟨hanswer, hlow⟩)))
  · exact (exec_ccaResult_free hruns hquiet energy busy hnone).trans (congrArg _ ((if_pos hradio).trans (if_neg fun h => not_lt.mpr hhigh h.2)))
  · exact (exec_ccaResult_free hruns hquiet energy busy hnone).trans (congrArg _ (if_neg (Bool.eq_false_iff.mp hline)))
  · exact (exec_txDone_frame hruns hack hchan).trans (congrArg _ (if_pos (by simp [hasks, haddr])))
  · exact (exec_txDone_frame hruns hack hchan).trans (congrArg _ (if_neg (by rcases hno with h | h <;> simp [h])))
  · exact (exec_ackWaitTimeout_over hruns hdue).trans (congrArg _ (if_pos hmore))
  · exact (exec_ackWaitTimeout_over hruns hdue).trans (congrArg _ (if_neg (Nat.not_lt.mpr hlast)))
  · have hheard := exec_fieldFrameReceived_heard hon hfits hears hstamp
    refine ⟨fun hbad => hheard.trans (congrArg _ (if_neg (Bool.eq_false_iff.mp hbad))), fun hgood => ?_⟩
    have htaken : ∀ {z : State}, u.frameTake i f stamp = z → exec (.fieldFrameReceived m f t) s = .next z :=
      fun h => hheard.trans (congrArg _ ((if_pos hgood).trans h))
    refine ⟨fun hack hline => htaken (State.frameTake_fch hack hline stamp),
      fun hack hparts => htaken (State.frameTake_outside hack hparts stamp),
      fun hack hparts => ⟨fun hkind => htaken (State.frameTake_imm hack hparts hkind stamp), fun hkind hfilter => ?_,
        fun hkind hfilter => ?_, fun hkind hfilter => ?_⟩⟩
    all_goals exact htaken ((State.frameTake_other hack hparts hkind stamp).trans (by rw [hfilter]; rfl))

end Sys2Proof.Machine
end

section
/-! SUPPORT. Laws of the RS-485 loops and their stations, the sensor bus, the claims of PINMUX, its GPIO balls and its timers (R386, R673 to R685):
what samples of a loop bring, what each event does once its condition is met, and what each write does when it is taken. -/

namespace Sys2Proof.Machine

/-! ### Reception on a loop (R673 to R677) -/

/-- The samples that a UART hears, with their frames and what is left of the last: the errors are counted, and each frame acts in turn. -/
theorem exec_hdlcFrameReceived_on {s : State} {n : Fin 8} {t : Nat} (hon : (s.at t).uartOn n.val = true) (rx : List Bool) :
    exec (.hdlcFrameReceived n rx t) s = .next (
      let y := s.at t
      let line := y.uartHears n.val rx
      let chars := uartChars (y.uartForm n.val).1 (y.uartForm n.val).2 line.length line.length line
      let r := hdlcFrames (y.uart n.val).cur (y.uart n.val).last (y.charTimes n.val chars.2)
      let a := (y.rxIdle n.val line).lineErrors n.val chars.1 chars.2
      r.1.foldl (fun s x => s.hdlcTake n x) (a.setUart n.val { a.uart n.val with cur := r.2.1, last := r.2.2 })) := by
  change execHdlcFrameReceived n rx t s = _
  rw [execHdlcFrameReceived, hon]
  rfl

section
variable {s : State} {n : Fin 8} {addr : BitVec 32} {body : HdlcBody}

/-- A good frame that is segmented is handed to INGEST, which discards it. -/
theorem State.hdlcTake_segmented (hsys : s.domOn 1 = true) : s.hdlcTake n .segmented = (s.uartCount n.val 0).discard.2 := if_pos hsys

/-- A good frame of no kind the loop knows is counted alone. -/
theorem State.hdlcTake_no_body : s.hdlcTake n (.good addr none) = s.uartCount n.val 0 := by
  cases h : ((s.uartCount n.val 0).uart n.val).byAddr addr <;> simp only [State.hdlcTake, h]

/-- A good frame of an address that no station has is counted alone. -/
theorem State.hdlcTake_no_station (h : ((s.uartCount n.val 0).uart n.val).byAddr addr = none) :
    s.hdlcTake n (.good addr (some body)) = s.uartCount n.val 0 := by
  simp only [State.hdlcTake, h]

/-- A station's good frame acts by its kind, and the loop goes on with its messages. -/
theorem State.hdlcTake_station {k : Nat} {x : Station} (h : ((s.uartCount n.val 0).uart n.val).byAddr addr = some (k, x)) :
    s.hdlcTake n (.good addr (some body)) = (((s.uartCount n.val 0).stationHeard n.val k).hdlcBody n k body).uartGo n.val := by
  simp only [State.hdlcTake, h]

end

/-- 50 ms after the last byte of a frame that is not complete the frame is given up and counted. -/
theorem exec_hdlcByteGapAbort_late {s : State} {n : Fin 8} {t : Nat} (hon : (s.at t).uartOn n.val = true)
    (hgap : byteGap ((s.at t).uart n.val).cur ((s.at t).uart n.val).last (s.at t).now = true) :
    exec (.hdlcByteGapAbort n t) s = .next (((s.at t).setUart n.val { (s.at t).uart n.val with cur := none }).uartCount n.val 5) := by
  change execHdlcByteGapAbort n t s = _
  simp only [execHdlcByteGapAbort, hon, hgap, Bool.and_self, if_true]

/-! ### Polls and time-outs (R677) -/

/-- A station polled: RR with the number expected next, which ends what it was told by RNR (R229). -/
def State.pollStation (s : State) (p k : Nat) : State :=
  let x := (s.uart p).st k
  ((s.setStation p k { x with rnr := false }).askStation p k (x.vr % 8 * 32 + 16 + 1) []).uartCount p 6

/-- A message under way on a loop where nothing is awaited and the device is not fenced goes out. -/
theorem State.uartGo_run {s : State} {p : Nat} {r : UMsg} (hfence : s.fenced = false) (hquiet : (s.uart p).waits = false)
    (hrun : (s.uart p).run = some r) : s.uartGo p = s.uartFire p r := by
  simp only [State.uartGo, hquiet, hrun, hfence, Bool.false_eq_true, if_false]

section
variable {s : State} {n : Fin 8} {t : Nat} (hon : (s.at t).uartOn n.val = true)

section
variable (hfence : (s.at t).fenced = false) (hquiet : ((s.at t).uart n.val).waits = false)
include hon hfence hquiet

/-- On a loop where nothing is awaited the message under way goes out. -/
theorem exec_hdlcPoll_run {r : UMsg} (hrun : ((s.at t).uart n.val).run = some r) :
    exec (.hdlcPoll n t) s = .next ((s.at t).uartFire n.val r) := by
  change execHdlcPoll n t s = _
  simp only [execHdlcPoll, hon, hfence, hquiet, hrun, Option.isSome_some, Bool.not_true, Bool.or_self, Bool.true_or, Bool.false_eq_true,
    if_false, if_true, State.uartGo_run hfence hquiet hrun]

/-- On a loop with nothing to send the first station whose poll is due is asked, where its entry reads well. -/
theorem exec_hdlcPoll_due {k : Nat} {x : Station} (hidle : ((s.at t).uart n.val).run = none) (hempty : ((s.at t).uart n.val).queue = [])
    (hfind : ((s.at t).uart n.val).stations.find? (fun e => e.2.valid && !e.2.bad && decide (e.2.poll ≤ (s.at t).now)) = some (k, x))
    (hgood : ((((s.at t).readStation n.val k).uart n.val).st k).bad = false) :
    exec (.hdlcPoll n t) s = .next (((s.at t).readStation n.val k).pollStation n.val k) := by
  change execHdlcPoll n t s = _
  simp only [execHdlcPoll, hon, hfence, hquiet, hidle, hempty, hfind, Option.isSome_none, ne_eq, not_true, decide_false, Bool.not_true,
    Bool.or_self, Bool.false_eq_true, if_false]
  exact congrArg Host.Outcome.next (if_neg (Bool.eq_false_iff.mp hgood))

end

/-- A station has been silent for RESP_MS: it owes no answer any more, and a third silence running takes it down. -/
def State.stationSilent (s : State) (p k : Nat) (x : Station) : State :=
  ((s.setStation p k { x with await := 0, misses := min 3 (x.misses + 1) }).uartCount p 7).stationDown p k

/-- What a station's silence does to the message being sent: sent to that station, it ends NO_ACK at its third try. -/
def State.messageMissed (s : State) (p : Nat) (addr : BitVec 32) : State :=
  match (s.uart p).run with
  | some r =>
    if r.addr ≠ addr then s
    else if 3 ≤ r.tries + 1 then s.endUMsg p { r with tries := r.tries + 1 } 1
    else s.setUart p { s.uart p with run := some { r with tries := r.tries + 1 } }
  | none => s

include hon in
/-- The first station whose answer is overdue is silent, and the loop goes on with its messages. -/
theorem exec_hdlcResponseTimeout_due {k : Nat} {x : Station}
    (hfind : ((s.at t).uart n.val).stations.find? (fun e => decide (e.2.await ≠ 0) && decide (e.2.await ≤ (s.at t).now)) = some (k, x)) :
    exec (.hdlcResponseTimeout n t) s =
      .next ((((s.at t).stationSilent n.val k x).messageMissed n.val x.addr).uartGo n.val) := by
  change execHdlcResponseTimeout n t s = _
  simp only [execHdlcResponseTimeout, hon, hfind, Bool.not_true, Bool.false_eq_true, if_false]
  rfl

end

section
variable {s : State} {p : Nat} {addr : BitVec 32} {r : UMsg}

theorem State.messageMissed_idle (hrun : (s.uart p).run = none) : s.messageMissed p addr = s := by
  simp only [State.messageMissed, hrun]

variable (hrun : (s.uart p).run = some r)
include hrun

theorem State.messageMissed_other (hother : r.addr ≠ addr) : s.messageMissed p addr = s := by
  simp only [State.messageMissed, hrun, ne_eq, hother, not_false_iff, if_true]

theorem State.messageMissed_last (hmine : r.addr = addr) (hlast : 2 ≤ r.tries) :
    s.messageMissed p addr = s.endUMsg p { r with tries := r.tries + 1 } 1 := by
  simp only [State.messageMissed, hrun, ne_eq, hmine, not_true, if_false, show 3 ≤ r.tries + 1 by omega, if_true]

theorem State.messageMissed_again (hmine : r.addr = addr) (hmore : r.tries < 2) :
    s.messageMissed p addr = s.setUart p { s.uart p with run := some { r with tries := r.tries + 1 } } := by
  simp only [State.messageMissed, hrun, ne_eq, hmine, not_true, if_false, show ¬ 3 ≤ r.tries + 1 by omega]

end

/-! ### Messages to stations (R386) -/

/-- A UART that works and has room takes the whole message at the front of a splice of its block end, nothing of it taken before. -/
theorem exec_uartTransmit_whole {s v : State} {n : Fin 8} {spl : BitVec 13} {t : Nat} {c : Cell512} {cs : List Cell512}
    (hon : (s.at t).uartOn n.val = true) (hcode : (s.at t).fld (descA spl.toNat 1) 12 8 = 6)
    (hroom : ((s.at t).uart n.val).queue.length + ((s.at t).uart n.val).run.isSome.toNat < 16)
    (hcells : ((s.at t).uart n.val).status.length < 64) (hfresh : (s.at t).begun spl.toNat = [])
    (hfront : (s.at t).peekCell spl.toNat 0 = some c) (hdata : cellChan c < 4088 ∨ 4095 < cellChan c)
    (htake : (s.at t).takeMessage 6 spl.toNat 64 = ([], c :: cs, v)) :
    exec (.uartTransmit n spl t) s = .next (v.uartMessage n.val spl.toNat c cs) := by
  have hno : ¬ (4088 ≤ cellChan c ∧ cellChan c ≤ 4095) := by omega
  change execUartTransmit n spl t s = _
  simp only [execUartTransmit, hon, hcode, Nat.not_le.mpr hroom, Nat.not_le.mpr hcells, hfresh, hfront, hno, htake, ne_eq, not_true,
    decide_false, Bool.not_true, Bool.or_self, Bool.false_eq_true, if_false]

/-! ### Station entries (R678) -/

section
variable {s : State} {q : Requester} {p : Nat} (k : BitVec 5)

/-- COMMIT with an entry's number: the shadow is applied to the entry. -/
theorem State.stSel_commit (h : s.takes q (uaA p rUART_ST_SEL) (BitVec.ofNat 32 (2 ^ 31 + k.toNat)) (s.stationBad p k.toNat)) :
    s.stSel q p (BitVec.ofNat 32 (2 ^ 31 + k.toNat)) =
      (s.plain (uaA p rUART_ST_SEL) ((BitVec.ofNat 32 (2 ^ 31 + k.toNat)).setWidth 64)).commitStation p k.toNat := by
  have hk : k.toNat < 2 ^ 31 := by have := k.isLt; omega
  rw [State.stSel, bit_goWord hk, bits_goWord hk (by decide), nbits_low k.isLt, Bool.true_and]
  exact State.guarded_of_takes h

/-- LOAD with an entry's number: the entry fills the shadow. -/
theorem State.stSel_load (h : s.takes q (uaA p rUART_ST_SEL) (BitVec.ofNat 32 (2 ^ 30 + k.toNat)) false) :
    s.stSel q p (BitVec.ofNat 32 (2 ^ 30 + k.toNat)) =
      (s.plain (uaA p rUART_ST_SEL) ((BitVec.ofNat 32 (2 ^ 30 + k.toNat)).setWidth 64)).loadStation p k.toNat := by
  have hk : k.toNat < 2 ^ 30 := by have := k.isLt; omega
  obtain ⟨hcommit, hload⟩ := bit_loadWord hk
  rw [State.stSel, hcommit, hload, bits_loadWord hk (by decide), nbits_low k.isLt, Bool.false_and]
  exact State.guarded_of_takes h

end

/-! ### The sensor bus (R679) -/

/-- The bus of a slot. -/
def State.sbusBus (s : State) (j : Nat) : Nat := (bit (s.bk (sbA rSB_SLOT_CFG) j) 30).toNat

/-- A slot's turn on its bus: the block works and owns the bus, the slot's reading is due, and no lower slot's on the same bus. -/
def State.sbusTurn (s : State) (j : Nat) : Prop :=
  s.domOn 12 = true ∧ s.bitAt (sbA 0x00C) 0 = true ∧ s.sbusDue j = true ∧ s.pmxFunc (47 + s.sbusBus j) = 5 ∧
    ∀ i, i < j → s.sbusDue i = true → s.sbusBus i ≠ s.sbusBus j

/-- A slot's next reading is due PERIOD_S after the last. -/
def State.sbusNext (s : State) (j : Nat) : State := s.setTimer (sbusKey j) (s.timer (sbusKey j) + s.sbusPeriod j)

/-- What a transfer does by how it ended. -/
def State.sbusEnd (s : State) (b j : Nat) : SbusRead → State
  | .value raw => (s.setStuck b false).sbusValue j raw.toNat
  | .nack => ((s.setStuck b false).cause .sbus 0 0).bumpBk (sbA rSB_CNT) 1 (2 ^ 32 - 1) 1
  | .stretched => s.bumpBk (sbA rSB_CNT) 2 (2 ^ 32 - 1) 1
  | .sdaLow freed => (s.bumpBk (sbA rSB_CNT) 3 (2 ^ 32 - 1) 1).setStuck b (!freed)

/-- A slot in its turn is read, and the transfer does what its end says. -/
theorem exec_sbusSlotRead_turn {s : State} {slot : BitVec 5} {t : Nat} (h : (s.at t).sbusTurn slot.toNat) (x : SbusRead) :
    exec (.sbusSlotRead slot x t) s =
      .next (((s.at t).sbusNext slot.toNat).sbusEnd ((s.at t).sbusBus slot.toNat) slot.toNat x) := by
  obtain ⟨hfield, hen, hdue, howns, hlower⟩ := h
  have hfirst : (List.range slot.toNat).any (fun j => (s.at t).sbusDue j &&
      decide (bit ((s.at t).bk (sbA rSB_SLOT_CFG) j) 30 = bit ((s.at t).bk (sbA rSB_SLOT_CFG) slot.toNat) 30)) = false := by
    simp only [List.any_eq_false, List.mem_range, Bool.and_eq_true, decide_eq_true_eq, not_and]
    exact fun j hj hd hsame => hlower j hj hd (congrArg Bool.toNat hsame)
  unfold State.sbusBus at howns
  change execSbusSlotRead slot x t s = _
  simp only [execSbusSlotRead, hfield, hen, hdue, howns, hfirst, ne_eq, not_true, decide_false, Bool.not_true, Bool.not_false, Bool.or_self,
    Bool.false_eq_true, if_false]
  cases x <;> rfl

/-! ### Claims and releases (R681 to R683) -/

section
variable {s : State} {q : Requester}

/-- A claim, by what its resource permits and who holds it. -/
theorem State.pmxClaim_claim {v : Word32} (hclaim : bit v 31 = true ∧ bit v 30 = false) (h : s.takes q (pmxA rPMX_CLAIM) v false) :
    s.pmxClaim q v =
      let r := bits v 6 0
      let f := bits v 15 8
      if !pmxPermits r f then s.wr (pmxA rPMX_RESULT) 3
      else if s.pmxFunc r ≠ 0 then s.pmxConflict r f (reqCode q)
      else (s.pmxSet r f (reqCode q)).wr (pmxA rPMX_RESULT) 1 := by
  obtain ⟨hset, hno⟩ := hclaim
  rw [State.pmxClaim, State.guarded_of_takes h, hset, hno]
  rfl

/-- May a requester release what a resource's holder holds: the holder itself, or the safety firmware; a block's, software of both kinds. -/
def State.pmxMayRelease (s : State) (q : Requester) (w : Nat) : Prop :=
  (s.pmxHolder w = 0 ∧ q = .normal) ∨ q = .safe ∨ (s.pmxHolder w ≠ 0 ∧ s.pmxHolder w = reqCode q)

/-- The test a release makes: the resource is held, and its requester may release it. -/
def State.pmxMine (s : State) (q : Requester) (w : Nat) : Bool :=
  s.pmxFunc w ≠ 0 && ((if s.pmxHolder w = 0 then q = .normal || q = .safe else s.pmxHolder w = reqCode q || q = .safe))

theorem State.pmxMine_iff (w : Nat) : s.pmxMine q w = true ↔ s.pmxFunc w ≠ 0 ∧ s.pmxMayRelease q w := by
  by_cases h : s.pmxHolder w = 0
  · simp [State.pmxMine, State.pmxMayRelease, h]
  · simp [State.pmxMine, State.pmxMayRelease, h, or_comm]

/-- A release frees a resource that its requester may release, and else answers that it was not held. -/
theorem State.pmxClaim_release {v : Word32} (hrelease : bit v 30 = true) (h : s.takes q (pmxA rPMX_CLAIM) v false) :
    s.pmxClaim q v =
      if s.pmxMine q (bits v 6 0) then (s.pmxSet (bits v 6 0) 0 0).wr (pmxA rPMX_RESULT) 1 else s.wr (pmxA rPMX_RESULT) 4 := by
  rw [State.pmxClaim, State.guarded_of_takes h, hrelease]
  rfl

end

/-- The word of PMX_CLAIM: CLAIM, the function and the resource. -/
theorem pmxClaim_word (fn : BitVec 8) (res : BitVec 7) :
    let v := BitVec.ofNat 32 (2 ^ 31 + fn.toNat * 256 + res.toNat)
    (bit v 31 = true ∧ bit v 30 = false) ∧ bits v 6 0 = res.toNat ∧ bits v 15 8 = fn.toNat := by
  have hfn := fn.isLt
  have hres := res.isLt
  rw [Nat.add_assoc]
  refine ⟨⟨bit_goWord (by omega), ?_⟩, ?_, ?_⟩
  · rw [bit, BitVec.getLsbD_ofNat, Nat.testBit_two_pow_add_gt (by decide), Nat.testBit_lt_two_pow (by omega), Bool.and_false]
  all_goals
    rw [bits_goWord (by omega) (by decide), nbits]
    omega

/-- The word of PMX_RELEASE: RELEASE and the resource. -/
theorem pmxRelease_word (res : BitVec 7) :
    bit (BitVec.ofNat 32 (2 ^ 30 + res.toNat)) 30 = true ∧ bits (BitVec.ofNat 32 (2 ^ 30 + res.toNat)) 6 0 = res.toNat := by
  have hres : res.toNat < 2 ^ 30 := by have := res.isLt; omega
  exact ⟨(bit_loadWord hres).2, (bits_loadWord hres (by decide) 0).trans (nbits_low res.isLt)⟩

/-! ### GPIO balls and timers (R684, R685) -/

/-- A level that changes an input of a GPIO ball is read, and recorded where its edge is enabled. -/
theorem exec_gpioEdge_change {s : State} {ball : Fin 32} {level : Bool} (hfree : s.ballDriven ball.val = false) (hd : s.domOn 2 = true)
    (hchange : s.bitAt (pmxA rPMX_GPIO_IN) ball.val ≠ level) :
    exec (.gpioEdge ball level) s = .next (
      let lv := { s with balls := Machine.store (fun _ => false) s.balls ball.val level }
      let li := lv.putBit (pmxA rPMX_GPIO_IN) ball.val level
      if li.bitAt (pmxA (if level then rPMX_GPIO_RISE else rPMX_GPIO_FALL)) ball.val then
        (li.putBit (pmxA rPMX_GPIO_EDGE) ball.val true).irq .pinmux 0 1
      else li) := by
  have hgo : ¬ ((!s.domOn 2) = true ∨ s.bitAt (pmxA rPMX_GPIO_IN) ball.val = level) := by simp [hd, hchange]
  change execGpioEdge ball level s = _
  rw [execGpioEdge, hfree]
  exact congrArg Host.Outcome.next (if_neg hgo)

/-- A timer that runs out is an event: it starts again from its load where it is periodic, and stops where not. -/
theorem exec_timerExpiry_due {s : State} {k : Fin 8} {t : Nat} (hd : (s.at t).domOn 2 = true)
    (hen : (s.at t).bitAt (pmxA (rPMX_TMR_CTRL + 8 * k.val)) 31 = true)
    (hdue : (s.at t).timer (pmxA (rPMX_TMR_CTRL + 8 * k.val)) ≤ (s.at t).now) :
    exec (.timerExpiry k t) s = .next (
      let a := pmxA (rPMX_TMR_CTRL + 8 * k.val)
      let z := ((s.at t).putBit a 29 true).irq .pinmux 0 (2 + k.val)
      if z.bitAt a 30 then z.setTimer a (z.timer a + (z.rd (pmxA (rPMX_TMR_LOAD + 8 * k.val))).toNat * 1000)
      else (z.putBit a 31 false).setTimer a 0) := by
  change execTimerExpiry k t s = _
  simp only [execTimerExpiry, hd, hen, Nat.not_lt.mpr hdue, Bool.not_true, Bool.false_eq_true, or_self, if_false]

end Sys2Proof.Machine
end

section
/-! PROOFS. The statement about the RS-485 stations, the sensor bus, PINMUX, its GPIO balls and its timers. -/

namespace Sys2Proof.Machine

/-- Settles O60: the samples of a loop act by the frames they hold (R674 to R676), each event acts once its condition is met, and each write taken
has its register's effect. That a claim's function is tested before its conflict (log entry 21, DEDUCED), and that the levels of a loop come as a
list whose effects stand at the command (log entry 31, DESIGN CHOICE), are the model's readings. -/
theorem uartAndPinCommands : Obligations.UartAndPinCommands := by
  unfold Obligations.UartAndPinCommands
  intro s q t n addr body rx k x r spl c cs v st raw freed level fn res ball y p on u line chars
  rcases hframes : hdlcFrames u.cur u.last (y.charTimes p chars.2) with ⟨frames, cur, last⟩
  dsimp -zeta only
  intro a b g rd stn out rr S commit load j cfg bus slot then_ free C cv rv R w f mine e lv li armed T ex
  refine ⟨fun hon => ?_, fun hon hfence hquiet => ⟨exec_hdlcPoll_run hon hfence hquiet, exec_hdlcPoll_due hon hfence hquiet⟩,
    fun hon hfind => ?_, exec_hdlcByteGapAbort_late, exec_uartTransmit_whole,
    fun h => congrArg Host.Outcome.next (State.stSel_commit st h), fun h => congrArg Host.Outcome.next (State.stSel_load st h),
    fun hslot => ?_, fun h => ?_, fun h => ?_, fun hfree hd hchange => ⟨fun hno => ?_, fun hedge => ?_⟩,
    fun hd hen hdue => ⟨fun hper => ?_, fun honce => ?_⟩⟩
  · have hline : exec (.hdlcFrameReceived n rx t) s = .next (frames.foldl (fun s x => s.hdlcTake n x) b) := by
      have hon' := exec_hdlcFrameReceived_on hon rx
      dsimp only at hon'
      rwa [hframes] at hon'
    have hone : ∀ {d : HdlcLine} {z : State}, frames = [d] → b.hdlcTake n d = z → exec (.hdlcFrameReceived n rx t) s = .next z := by
      rintro d z rfl rfl
      exact hline
    exact ⟨fun hf => by rw [hline, hf]; rfl, fun hf => hone hf rfl, fun hf => hone hf rfl,
      fun hf hsys => hone hf (State.hdlcTake_segmented hsys), fun hf => hone hf State.hdlcTake_no_body,
      fun hf hno => hone hf (State.hdlcTake_no_station hno), fun hf hst => hone hf (State.hdlcTake_station hst)⟩
  · have hdue : ∀ {z : State}, out.messageMissed p x.addr = z → exec (.hdlcResponseTimeout n t) s = .next (z.uartGo p) := by
      rintro z rfl
      exact exec_hdlcResponseTimeout_due hon hfind
    exact ⟨fun hrun => hdue (State.messageMissed_idle hrun), fun hrun hother => hdue (State.messageMissed_other hrun hother),
      fun hrun hmine hlast => hdue (State.messageMissed_last hrun hmine hlast),
      fun hrun hmine hmore => hdue (State.messageMissed_again hrun hmine hmore)⟩
  · exact ⟨exec_sbusSlotRead_turn hslot _, exec_sbusSlotRead_turn hslot _, exec_sbusSlotRead_turn hslot _, exec_sbusSlotRead_turn hslot _⟩
  · obtain ⟨hclaim, hres, hfn⟩ := pmxClaim_word fn res
    have hdone := State.pmxClaim_claim hclaim h
    rw [hres, hfn] at hdone
    refine ⟨fun hbad => congrArg Host.Outcome.next (hdone.trans (if_pos (by simpa using hbad))), fun hok hheld => ?_, fun hok hnone => ?_⟩
    all_goals refine congrArg Host.Outcome.next (hdone.trans ((if_neg (by simpa using hok)).trans ?_))
    · exact if_pos hheld
    · exact if_neg (not_not.mpr hnone)
  · obtain ⟨hrelease, hres⟩ := pmxRelease_word res
    have hdone := State.pmxClaim_release hrelease h
    rw [hres] at hdone
    refine ⟨fun hheld hmay => congrArg Host.Outcome.next (hdone.trans (if_pos ((State.pmxMine_iff w).mpr ⟨hheld, hmay⟩))),
      fun hno => congrArg Host.Outcome.next (hdone.trans (if_neg fun hyes => ?_))⟩
    obtain ⟨hheld, hmay⟩ := (State.pmxMine_iff w).mp hyes
    exact hno.elim hheld fun hnot => hnot hmay
  · exact (exec_gpioEdge_change hfree hd hchange).trans (congrArg _ (if_neg (Bool.eq_false_iff.mp hno)))
  · exact (exec_gpioEdge_change hfree hd hchange).trans (congrArg _ (if_pos hedge))
  · exact (exec_timerExpiry_due hd hen hdue).trans (congrArg _ (if_pos hper))
  · exact (exec_timerExpiry_due hd hen hdue).trans (congrArg _ (if_neg (Bool.eq_false_iff.mp honce)))

end Sys2Proof.Machine
end

section
/-! PROOFS. The statements about one step: the queue, the completion of every command, and the tables at reset. -/

namespace Sys2Proof.Machine

theorem step_idle {s : State} (h : s.pending = []) : step s = .next s.tick := by
  unfold step
  rw [h]

theorem step_front {s : State} {c : Instr} {rest : List Instr} (h : s.pending = c :: rest) :
    step s = exec c { s with pending := rest } := by
  unfold step
  rw [h]

/-- Every command has a next state: each arm of the dispatcher is a meaning that answers one. -/
theorem exec_completes (i : Instr) (s : State) : ∃ t, exec i s = .next t := by
  cases i <;> exact ⟨_, rfl⟩

/-- Settles O1. -/
theorem stepRunsTheFrontCommand : Obligations.StepRunsTheFrontCommand := by
  unfold Obligations.StepRunsTheFrontCommand
  intro c rest s h
  exact step_front h

/-- Settles O2: an empty queue ticks, and a command at the front of the queue completes. That the block's clocks run between the commands (log entry 2)
and that every meaning answers a next state (log entry 7) are the model's readings. -/
theorem emptyQueueTicks : Obligations.EmptyQueueTicks := by
  unfold Obligations.EmptyQueueTicks
  refine ⟨fun s h => step_idle h, exec_completes, fun s => ?_⟩
  cases hq : s.pending with
  | nil => exact ⟨s.tick, step_idle hq⟩
  | cons c rest =>
    rw [step_front hq]
    exact exec_completes c _

/-- Settles O3: every table is empty after reset. -/
theorem resetTablesAreCanonical : Obligations.ResetTablesAreCanonical := by
  unfold Obligations.ResetTablesAreCanonical
  simp [State.canonical, State.reset]

end Sys2Proof.Machine
end

section
/-! SUPPORT. Laws of the fault collector and the error pin (R545 to R554): what a sample, a pulse and a register write do. -/

namespace Sys2Proof.Machine

section
variable {s : State} {q : Requester} {t : Nat}

/-- The collector first brings its sequence up to the present; it samples only when none runs then. -/
theorem exec_faultLatch_on (hd : (s.at t).domOn 1 = true) :
    exec (.faultLatch t) s = .next (
      if (s.at t).seqProgress.bitAt (fcA rFC_STAT) 0 then (s.at t).seqProgress else (s.at t).seqProgress.sampleLines) := by
  change execFaultLatch t s = _
  simp only [execFaultLatch, hd, Bool.not_true, Bool.false_eq_true, if_false]

theorem State.seqProgress_idle (h : s.bitAt (fcA rFC_STAT) 0 = false) : s.seqProgress = s := by
  rw [State.seqProgress, h]
  rfl

/-- A pulse-type cause during a sequence is its page's cause. -/
theorem exec_pulseNotLatched_run {page : BitVec 10} {k : Fin 31} {p : Pg} {i : Nat} (hpage : pageAt page.toNat = some (p, i))
    (hrun : s.seqRun = true) (hd : s.domOn (pageDomain p i) = true) (hpulse : (pageInfo p).pulse.testBit k.val = true) :
    exec (.pulseNotLatched page k) s = .next (s.cause p i k.val) := by
  change execPulseNotLatched page k s = _
  simp only [execPulseNotLatched, hpage, hrun, hd, hpulse, Bool.and_self, if_true]

/-- FORCE = 1 drives the source named until the next sample. -/
theorem State.fcForce_of_takes (src : BitVec 6) (h : s.takes q (fcA rFC_FORCE) (BitVec.ofNat 32 (2 ^ 31 + src.toNat)) false) :
    s.fcForce q (BitVec.ofNat 32 (2 ^ 31 + src.toNat)) = { s with fc := { s.fc with forced := s.fc.forced ++ [src.toNat] } } := by
  have hsrc := src.isLt
  rw [State.fcForce, State.guarded_of_takes h, bit_goWord (by omega), if_pos rfl, bits_goWord (by omega) (by decide), nbits_low (by omega)]

theorem exec_errPinPulseEnd_over (hrun : (s.at t).errPin.until_ ≠ 0) (hover : (s.at t).errPin.until_ ≤ (s.at t).now) :
    exec (.errPinPulseEnd t) s = .next { s.at t with errPin := ⟨0, (s.at t).domOn 1 && (s.at t).bitAt (fcA rFC_PIN) 31⟩ } := by
  change execErrPinPulseEnd t s = _
  simp only [execErrPinPulseEnd, hrun, Nat.not_lt.mpr hover, or_self, if_false]

/-- A write of FC_PIN with RELEASE = 1 while no pulse runs writes its fields and releases the pin. -/
theorem State.fcPin_release {v : Word32} (hrelease : bit v 30 = true) (hidle : s.errPin.until_ = 0) (h : s.takes q (fcA rFC_PIN) v false) :
    s.fcPin q v = { s.plain (fcA rFC_PIN) (v.setWidth 64) with errPin := { (s.plain (fcA rFC_PIN) (v.setWidth 64)).errPin with held := false } } := by
  have hbad : (bit v 30 && decide (s.errPin.until_ ≠ 0)) = false := by simp [hidle]
  rw [State.fcPin, hbad, State.guarded_of_takes h, hrelease]
  rfl

end

/-- RELEASE is set in the word of ERR_PIN_RELEASE. -/
theorem errPinRelease_word (hold : Bool) (w : BitVec 20) : bit (BitVec.ofNat 32 (hold.toNat * 2 ^ 31 + 2 ^ 30 + w.toNat)) 30 = true := by
  have hw := w.isLt
  have hlow : bit (BitVec.ofNat 32 (2 ^ 30 + w.toNat)) 30 = true := (bit_loadWord (by omega)).2
  cases hold
  · simpa using hlow
  · rw [bit, BitVec.getLsbD_ofNat] at hlow ⊢
    rw [Bool.toNat_true, Nat.one_mul, Nat.add_assoc, Nat.testBit_two_pow_add_gt (by decide)]
    exact hlow

end Sys2Proof.Machine
end

section
/-! PROOFS. The statement about the fault collector and the error pin. -/

namespace Sys2Proof.Machine

/-- Settles O31: the collector's commands act once their condition is met, and each write taken has its register's effect. -/
theorem faultCollectorCommands : Obligations.FaultCollectorCommands := by
  unfold Obligations.FaultCollectorCommands
  intro s q t page k p i v src hold w r F pin
  refine ⟨fun hd hidle => ?_, fun hd _ hrun => ?_, exec_pulseNotLatched_run,
    fun h => congrArg Host.Outcome.next (State.guarded_of_takes h), fun h => congrArg Host.Outcome.next (State.fcForce_of_takes src h),
    exec_errPinPulseEnd_over, fun hidle h => ?_⟩
  · rw [exec_faultLatch_on hd, State.seqProgress_idle hidle]
    exact congrArg _ (if_neg (Bool.eq_false_iff.mp hidle))
  · exact (exec_faultLatch_on hd).trans (congrArg _ (if_pos hrun))
  · change Host.Outcome.next (s.fcPin q pin) = _
    rw [State.fcPin_release (errPinRelease_word hold w) hidle h]

end Sys2Proof.Machine
end

section
/-! SUPPORT. Laws of the event recorder (R555 to R565): submissions, flushes, the restore, reads and the operating seconds. -/

namespace Sys2Proof.Machine

/-- The word of EVR_SUBMIT: GO, ARGS, the source and the code. -/
theorem evrSubmit_word (args : Bool) (src code : BitVec 8) :
    let v := BitVec.ofNat 32 (2 ^ 31 + args.toNat * 2 ^ 16 + src.toNat * 2 ^ 8 + code.toNat)
    bit v 31 = true ∧ bits v 7 0 = code.toNat ∧ bits v 15 8 = src.toNat ∧ bit v 16 = args := by
  have hsrc := src.isLt
  have hcode := code.isLt
  have hargs := args.toNat_le
  dsimp only
  rw [Nat.add_assoc, Nat.add_assoc]
  refine ⟨bit_goWord (by omega), ?_, ?_, ?_⟩
  · rw [bits_goWord (by omega) (by decide), nbits]
    omega
  · rw [bits_goWord (by omega) (by decide), nbits]
    omega
  · rw [bit, BitVec.getLsbD_ofNat, Nat.testBit_two_pow_add_gt (by decide)]
    cases args
    · rw [Bool.toNat_false, Nat.zero_mul, Nat.zero_add, Nat.testBit_lt_two_pow (by omega), Bool.and_false]
    · rw [Bool.toNat_true, Nat.one_mul, Nat.testBit_two_pow_add_eq, Nat.testBit_lt_two_pow (by omega)]
      rfl

section
variable {s : State} {q : Requester} {t : Nat}

/-- A submission is an event of the code and source its word names, with the arguments where ARGS is set. -/
theorem State.evrSubmit_of_takes {v : Word32} (hgo : bit v 31 = true) (h : s.takes q (evA rEVR_SUBMIT) v false) :
    s.evrSubmit q v = s.event (bits v 7 0) (bits v 15 8)
      (if bit v 16 then (List.range 4).map (fun i => (s.rd (evA (rEVR_ARG + 4 * i))).toNat) else []) := by
  rw [State.evrSubmit, State.guarded_of_takes h, hgo]
  rfl

/-- An event cell of a lay whose code is a lay's is the event it names, from the lay. -/
theorem exec_evrCellPop_event {n : BitVec 13} {c : Cell512} {ue : Bool} {u : State} (hd : s.domOn 1 = true)
    (hcode : s.fld (descA n.toNat 1) 12 8 = 0x12) (hfrom : s.fld (descA n.toNat 1) 28 24 = 0) (hpop : s.pop n.toNat = (some (c, ue), u))
    (hevent : 0xC0 ≤ bits (cellWord c 1) 7 0) :
    exec (.evrCellPop n) s = .next
      (u.event (bits (cellWord c 1) 7 0) (0x80 + u.fld (descA n.toNat 1) 18 16)
        (if bit (cellWord c 1) 8 then (List.range 4).map (fun i => bits (cellWord c (2 + i)) 31 0) else [])) := by
  change execEvrCellPop n s = _
  simp only [execEvrCellPop, hd, hcode, hfrom, hpop, Nat.not_lt.mpr hevent, decide_true, Bool.and_self, Bool.not_true, Bool.false_eq_true,
    if_false]

theorem exec_evrFlushTimer_due (hdue : (s.at t).evr.last + 10000000000 ≤ (s.at t).now) :
    exec (.evrFlushTimer t) s = .next ((s.at t).flushStart true) := by
  change execEvrFlushTimer t s = _
  simp only [execEvrFlushTimer, Nat.not_lt.mpr hdue, if_false]

theorem State.evrCtrl_flush (h : s.takes q (evA rEVR_CTRL) 1 false) : s.evrCtrl q 1 = s.flushStart false := by
  rw [State.evrCtrl, State.guarded_of_takes h]
  rfl

/-- The records of a flush are written one by one, of which those listed fail their read-back. -/
def State.recordsWritten (s : State) (l : List Nat) : State :=
  (s.evr.buf.take s.evr.run).foldl (fun y c => y.writeRecord c (l.contains (recSeq c))) { s with evr := { s.evr with wrote := true, bad := l } }

section
variable (hd : s.domOn 1 = true) (hrun : s.bitAt (evA rEVR_STAT) 0 = true)
include hd hrun

/-- A flush writes its records and then a copy of the state block, spoiled where its own write fails. -/
theorem State.evrWrite_run (hfresh : s.evr.wrote = false) (l : List Nat) :
    s.evrWrite l =
      let w := s.recordsWritten l
      let a := 0xF000 + 0x40 * w.evr.nextCopy
      if l.contains 0 then w.spoiled.2.framPut 2 a w.spoiled.1
      else w.framPut 2 a (stateBlock w.durableAfter (w.rd (evA rEVR_OPSEC)).toNat (w.fld (evA rEVR_PCYC) 15 0)) := by
  simp only [State.evrWrite, hd, hrun, hfresh, Bool.not_true, Bool.false_eq_true, or_self, if_false]
  rfl

/-- A flush that wrote everything well frees its records, takes the other copy next, and clears FLUSHING. -/
theorem State.evrDone_well (hwrote : s.evr.wrote = true) (hbad : s.evr.bad = []) (hagain : s.evr.again = false) :
    s.evrDone = (({ s.wr (evA rEVR_DURABLE) (BitVec.ofNat 32 s.durableAfter) with
      evr := { s.evr with buf := s.evr.buf.drop s.evr.run, run := 0, wrote := false, bad := [], nextCopy := 1 - s.evr.nextCopy } } : State).putBit
        (evA rEVR_STAT) 0 false).irq .evr 0 0 := by
  have hkept : (s.evr.buf.take s.evr.run).filter (fun _ => false) = [] := List.filter_false _
  simp only [State.evrDone, hd, hrun, hwrote, hbad, hagain, hkept, Bool.not_true, Bool.false_eq_true, or_self, if_false, List.any_nil,
    List.contains_nil, List.nil_append, Bool.false_and]

end

section
variable (hd : s.domOn 1 = true) (hfresh : s.rd (evA rEVR_HEAD) = 0)
include hd hfresh

/-- The restore from the first copy of the state block, the second bad. -/
theorem State.evrRestore_first {x : Nat × Nat × Nat} (h0 : s.stateCopy 0 = some x) (h1 : s.stateCopy 1 = none) :
    s.evrRestore = (s.evrFrom x.1 x.2.1 x.2.2 1).event 0x00 0x41 [0] := by
  simp only [State.evrRestore, hd, hfresh, h0, h1, Bool.not_true, Bool.false_eq_true, ne_eq, not_true, or_self, if_false]

/-- With neither a state block nor a record the recorder starts anew. -/
theorem State.evrRestore_blank (h0 : s.stateCopy 0 = none) (h1 : s.stateCopy 1 = none) (hscan : s.scanRecords = none) :
    s.evrRestore = (s.evrFrom 0 0 0 0).event 0x00 0x41 [2] := by
  simp only [State.evrRestore, hd, hfresh, h0, h1, hscan, Bool.not_true, Bool.false_eq_true, ne_eq, not_true, or_self, if_false]

end

/-- A read of a record that is taken finds it, and stays busy for 20 us. -/
theorem State.evrRead_of_takes (hidle : s.evr.readEnd ≤ s.now) (h : s.takes q (evA rEVR_RD_CMD) 0x80000000 false) :
    s.evrRead q 0x80000000 = (
      let f := s.evrFind (s.rd (evA rEVR_RD_SEQ)).toNat
      { f with evr := { f.evr with readEnd := f.now + 20000 } }) := by
  have hbad : (bit (0x80000000 : Word32) 31 && decide (s.now < s.evr.readEnd)) = false := by simp [hidle]
  rw [State.evrRead, hbad, State.guarded_of_takes h]
  rfl

theorem exec_opsecTick_due (hd : (s.at t).domOn 1 = true) (hrun : (s.at t).timer (evA rEVR_OPSEC) ≠ 0)
    (hdue : (s.at t).timer (evA rEVR_OPSEC) ≤ (s.at t).now) :
    exec (.opsecTick t) s = .next (((s.at t).bumpMod (evA rEVR_OPSEC) 1).setTimer (evA rEVR_OPSEC)
      ((s.at t).timer (evA rEVR_OPSEC) + 1000000000)) := by
  change execOpsecTick t s = _
  simp only [execOpsecTick, hd, hrun, Nat.not_lt.mpr hdue, Bool.not_true, Bool.false_eq_true, or_self, if_false]

end

end Sys2Proof.Machine
end

section
/-! PROOFS. The statement about the event recorder. -/

namespace Sys2Proof.Machine

/-- Settles O32: each command acts once its condition is met. That a submission is accepted with its write, and that a read keeps BUSY for 20 us
(log entry 26, DESIGN CHOICE), are the model's readings. -/
theorem eventRecorderCommands : Obligations.EventRecorderCommands := by
  unfold Obligations.EventRecorderCommands
  intro s q t args src code n bad c ue u x r E W e
  refine ⟨fun h => ?_, exec_evrCellPop_event, exec_evrFlushTimer_due, fun h => congrArg Host.Outcome.next (State.evrCtrl_flush h),
    fun hd hrun hfresh => ⟨fun hgood => ?_, fun hbad => ?_⟩,
    fun hd hrun hwrote hbad hagain => congrArg Host.Outcome.next (State.evrDone_well hd hrun hwrote hbad hagain),
    fun hd hfresh h0 h1 => congrArg Host.Outcome.next (State.evrRestore_first hd hfresh h0 h1),
    fun hd hfresh h0 h1 hscan => congrArg Host.Outcome.next (State.evrRestore_blank hd hfresh h0 h1 hscan),
    fun hidle h => congrArg Host.Outcome.next (State.evrRead_of_takes hidle h), exec_opsecTick_due⟩
  · obtain ⟨hgo, hcode, hsrc, hargs⟩ := evrSubmit_word args src code
    refine congrArg Host.Outcome.next ((State.evrSubmit_of_takes hgo h).trans ?_)
    rw [hcode, hsrc, hargs]
  · exact congrArg Host.Outcome.next ((State.evrWrite_run hd hrun hfresh _).trans (if_neg (by simpa using hgood)))
  · exact congrArg Host.Outcome.next ((State.evrWrite_run hd hrun hfresh _).trans (if_pos (by simpa using hbad)))

end Sys2Proof.Machine
end

section
/-! SUPPORT. Laws of the Lanyard's own commands (R525, R527, R533, R536 to R541, R544): its scrubber and contexts, notices, watchdogs, sensors and
the lifetime record. -/

namespace Sys2Proof.Machine

section
variable {s : State} {q : Requester} {t : Nat}

/-! ### Memory, contexts and notices (R525, R527, R533, R544) -/

/-- With nothing armed a read of the Lanyard's memory meets no injected condition. -/
theorem State.lanyInject_none (h0 : s.bitAt (wdA rLNY_INJ) 0 = false) (h1 : s.bitAt (wdA rLNY_INJ) 1 = false) : s.lanyInject = (0, s) := by
  simp only [State.lanyInject, h0, h1, Bool.false_eq_true, if_false]

/-- The scrubber passes a sound word of a bank that no core uses. -/
theorem exec_lanyardScrub_sound {busy : Option (Fin 8)} (hd : s.domOn 2 = true) (hfree : ∀ b, busy = some b → b.val ≠ s.lany.scrub / 8192)
    (hinj : s.lanyInject = (0, s)) (hecc : s.eccOf .lany (8 * s.lany.scrub) = 0) :
    exec (.lanyardScrub busy) s = .next { s with lany := { s.lany with scrub := (s.lany.scrub + 1) % 65536 } } := by
  have hbank : busy.any (fun b => decide (b.val = s.lany.scrub / 8192)) = false := by simpa [Option.any_eq_false] using hfree
  change execLanyardScrub busy s = _
  simp only [execLanyardScrub, hd, hbank, hinj, hecc, Bool.not_true, Bool.false_eq_true, or_self, if_false]
  rfl

theorem exec_safetyGateCall_runs (h : s.normalRuns = true) : exec .safetyGateCall s = .next (s.putBit (wdA rLNY_STAT) 1 true) := by
  change execSafetyGateCall s = _
  rw [execSafetyGateCall, h]
  rfl

theorem exec_safetyReturn_plain (hruns : s.lanyRuns = true) (hsafe : s.bitAt (wdA rLNY_STAT) 1 = true) (hnmi : s.lany.nmi = false) :
    exec .safetyReturn s = .next (s.putBit (wdA rLNY_STAT) 1 false) := by
  change execSafetyReturn s = _
  simp only [execSafetyReturn, hruns, hsafe, hnmi, Bool.and_self, Bool.not_true, Bool.false_eq_true, if_false]

/-- The oldest notice goes as cells once the splice has room for all of them; with none, the capacity check is all. -/
theorem exec_noticePush_none (hruns : s.normalRuns = true) (h : s.capacityCheck.lany.notices = []) :
    exec .noticePush s = .next s.capacityCheck := by
  change execNoticePush s = _
  simp only [execNoticePush, hruns, h, Bool.not_true, Bool.false_eq_true, if_false]

theorem exec_noticePush_oldest {code n : Nat} {body : List Nat} {rest : List (Nat × Nat × List Nat)} (hruns : s.normalRuns = true)
    (h : s.capacityCheck.lany.notices = (code, (n, body)) :: rest)
    (hroom : (wordCells (0x8000 + (Config.noticeKind code).toNat) n ((s.capacityCheck.lany.dropped % 2 ^ 16 * 2 ^ 16) :: body)).length ≤
      s.capacityCheck.space 6146) :
    exec .noticePush s = .next (
      let u := s.capacityCheck
      ({ u with lany := { u.lany with notices := rest, dropped := 0 } } : State).offerAll 6146
        (wordCells (0x8000 + (Config.noticeKind code).toNat) n ((u.lany.dropped % 2 ^ 16 * 2 ^ 16) :: body))) := by
  change execNoticePush s = _
  simp only [execNoticePush, hruns, h, Nat.not_lt.mpr hroom, Bool.not_true, Bool.false_eq_true, if_false]

/-- A write of LNY_INJ that arms no mismatch is a write of its fields. -/
theorem State.lanyInj_of_takes {v : Word32} (h : s.takes q (wdA rLNY_INJ) v false)
    (hno : (s.plain (wdA rLNY_INJ) (v.setWidth 64)).bitAt (wdA rLNY_INJ) 2 = false) :
    s.lanyInj q v = s.plain (wdA rLNY_INJ) (v.setWidth 64) := by
  rw [State.lanyInj, State.guarded_of_takes h]
  simp only [hno, Bool.false_eq_true, if_false]

/-! ### Watchdogs (R539 to R541) -/

/-- The right kick of the host watchdog, not before its window opens, starts its time again. -/
theorem State.hostKick_right (hon : s.bitAt (wdA rWDG_HOST_CFG) 31 = true)
    (hwin : s.lany.kickAt + s.fld (wdA rWDG_HOST_WIN) 15 0 * 1000000 ≤ s.now) (h : s.takes q (wdA rWDG_HOST_KICK) 0xC35A false) :
    s.hostKick q 0xC35A = ({ s with lany := { s.lany with kickAt := s.now } } : State).setTimer (wdA rWDG_HOST_LEFT)
      (s.now + s.fld (wdA rWDG_HOST_CFG) 15 0 * 1000000) := by
  rw [State.hostKick, State.guarded_of_takes h]
  simp only [hon, hwin, Bool.not_true, Bool.false_eq_true, if_false, and_self, if_true]

theorem exec_hostWatchdogExpiry_due (hd : (s.at t).domOn 2 = true) (hon : (s.at t).bitAt (wdA rWDG_HOST_CFG) 31 = true)
    (hrun : (s.at t).timer (wdA rWDG_HOST_LEFT) ≠ 0) (hdue : (s.at t).timer (wdA rWDG_HOST_LEFT) ≤ (s.at t).now) :
    exec (.hostWatchdogExpiry t) s = .next ((s.at t).hostExpiry ((s.at t).timer (wdA rWDG_HOST_LEFT))) := by
  change execHostWatchdogExpiry t s = _
  simp only [execHostWatchdogExpiry, hd, hon, hrun, Nat.not_lt.mpr hdue, Bool.and_self, Bool.not_true, Bool.false_eq_true, or_self, if_false]

/-- The right kick of the Lanyard's watchdog takes both times from its configuration and begins the first stage. -/
theorem State.lanyKick_right (hrun : s.timer (wdA rWDG_LANY_LEFT) ≠ 0) (h : s.takes q (wdA rWDG_LANY_KICK) 0xC35A false) :
    s.lanyKick q 0xC35A =
      ({ s with lany := { s.lany with t1 := s.fld (wdA rWDG_LANY_CFG) 15 0, t2 := s.fld (wdA rWDG_LANY_CFG) 31 16 } } : State).lanyStage false := by
  rw [State.lanyKick, State.guarded_of_takes h]
  simp only [hrun, if_false, if_true]

theorem exec_lanyWarn_due (hdue : (s.at t).stageDue = true) (hfirst : (s.at t).lany.stage2 = false) :
    exec (.lanyWarn t) s = .next (s.at t).lanyWarn := by
  change execLanyWarn t s = _
  simp only [execLanyWarn, hdue, hfirst, Bool.not_false, Bool.and_self, if_true]

theorem exec_lanyardWatchdogReset_due (hdue : (s.at t).stageDue = true) (hsecond : (s.at t).lany.stage2 = true) :
    exec (.lanyardWatchdogReset t) s = .next ((s.at t).chipReset 2) := by
  change execLanyardWatchdogReset t s = _
  simp only [execLanyardWatchdogReset, hdue, hsecond, Bool.and_self, if_true]

/-! ### Sensors and the lifetime record (R536 to R538) -/

theorem signed_toNat (x : BitVec 16) : signed 16 x.toNat = x.toInt := by
  rw [signed, BitVec.toInt_eq_toNat_cond]
  split <;> split <;> omega

theorem exec_sensorSample_temp (hd : (s.at t).domOn 2 = true) (k : Fin 12) (x : BitVec 16) :
    exec (.sensorSample (.temp k x true) t) s = .next ((s.at t).tempSample k.val x.toInt) := by
  change execSensorSample (.temp k x true) t s = _
  simp only [execSensorSample, hd, signed_toNat, Bool.not_true, Bool.false_eq_true, if_false, if_true]

/-- A temperature that cannot be read is not valid. -/
theorem exec_sensorSample_lost (hd : (s.at t).domOn 2 = true) (k : Fin 12) (x : BitVec 16) :
    exec (.sensorSample (.temp k x false) t) s = .next (((s.at t).putBit (seA (rSENS_T + 4 * k.val)) 31 false).cause .sens 0 4) := by
  change execSensorSample (.temp k x false) t s = _
  simp only [execSensorSample, hd, Bool.not_true, Bool.false_eq_true, if_false]

/-- A voltage whose monitor is not enabled is shown, and compared with nothing (log entry 25). -/
theorem exec_sensorSample_uncompared {m : Fin 20} (mv : BitVec 12) (hd : (s.at t).domOn 2 = true) (hon : (s.at t).supplyOn m.val = true)
    (hoff : (s.at t).monitorEn m.val = false) :
    exec (.sensorSample (.volt m mv true) t) s =
      .next ((s.at t).wr (seA (rSENS_V + 4 * m.val)) (BitVec.ofNat 32 (2 ^ 31 + mv.toNat))) := by
  have hstill : ((s.at t).wr (seA (rSENS_V + 4 * m.val)) (BitVec.ofNat 32 (2 ^ 31 + mv.toNat))).monitorEn m.val = false := hoff
  change execSensorSample (.volt m mv true) t s = _
  simp only [execSensorSample, State.voltSample, hd, hon, hstill, Bool.not_true, Bool.not_false, Bool.false_eq_true, if_false, if_true]

/-- The lifetime record takes the hour's minutes and highest values, and the next hour begins with none; its update is due again at the time given. -/
def State.hourTaken (s : State) (due : Nat) : State :=
  let s := s.setTimer lifetimeKey due
  let bins := s.lany.hour.foldl (fun l e => addMinutes l e.1 e.2) s.lifetime.bins
  let peak := s.lany.peak.foldl (fun (l : List (Nat × (Int × Nat))) e =>
    if (l.find? (fun f => f.1 = e.1)).all (fun f => decide (f.2.1 < e.2.1)) then place e.1 e.2 (drop l e.1) else l) s.lifetime.peak
  { s with lifetime := { s.lifetime with bins := bins, peak := peak }, lany := { s.lany with hour := [], peak := [] } }

theorem State.hourTaken_domOn (s : State) (due d : Nat) : (s.hourTaken due).domOn d = s.domOn d := rfl

theorem State.hourTaken_bins (s : State) (due : Nat) :
    (s.hourTaken due).lifetime.bins = s.lany.hour.foldl (fun l e => addMinutes l e.1 e.2) s.lifetime.bins := rfl

/-- The update that is due takes the hour, and with the NAND off that is all. -/
theorem exec_lifetimeRecordUpdate_due (hruns : (s.at t).normalRuns = true) (hnand : (s.at t).domOn 15 = false)
    (hdue : (s.at t).timer lifetimeKey ≤ (s.at t).now) :
    exec (.lifetimeRecordUpdate t) s = .next ((s.at t).hourTaken ((s.at t).timer lifetimeKey + 3600000000000)) := by
  have hgo : ¬(!(s.at t).normalRuns || decide ((s.at t).now < (s.at t).timer lifetimeKey)) = true := by simp [hruns, hdue]
  generalize hnext : (s.at t).timer lifetimeKey + 3600000000000 = due
  have hoff : ¬((s.at t).hourTaken due).domOn 15 = true := by
    rw [State.hourTaken_domOn, hnand]
    decide
  change execLifetimeRecordUpdate t s = _
  rw [execLifetimeRecordUpdate, if_neg hgo, hnext]
  exact congrArg Host.Outcome.next (if_neg hoff)

end

end Sys2Proof.Machine
end

section
/-! PROOFS. The statement about the Lanyard's scrubber, contexts, notices, watchdogs, sensors and lifetime record. -/

namespace Sys2Proof.Machine

/-- Settles O33: each command acts once its condition is met, and each write taken has its register's effect. That a monitor which is not enabled is
not compared (R537; log entry 25, DEDUCED) is the model's reading. -/
theorem lanyardWatchdogAndSensorCommands : Obligations.LanyardWatchdogAndSensorCommands := by
  unfold Obligations.LanyardWatchdogAndSensorCommands
  intro s q t v busy k m x mv r W w
  exact ⟨fun hd hfree h0 h1 hecc => exec_lanyardScrub_sound hd hfree (State.lanyInject_none h0 h1) hecc, exec_safetyGateCall_runs,
    exec_safetyReturn_plain, exec_noticePush_none, fun _ _ _ _ hruns h => exec_noticePush_oldest hruns h,
    fun hon hwin h => congrArg Host.Outcome.next (State.hostKick_right hon hwin h), exec_hostWatchdogExpiry_due,
    fun hrun h => congrArg Host.Outcome.next (State.lanyKick_right hrun h), exec_lanyWarn_due, exec_lanyardWatchdogReset_due,
    fun _ _ h hno => congrArg Host.Outcome.next (State.lanyInj_of_takes h hno), fun hd => exec_sensorSample_temp hd k x,
    exec_sensorSample_uncompared mv, fun hd => exec_sensorSample_lost hd k x, 
    fun hruns hnand hdue => ⟨_, exec_lifetimeRecordUpdate_due hruns hnand hdue, rfl, rfl, State.hourTaken_bins _ _⟩⟩

end Sys2Proof.Machine
end

section
/-! SUPPORT. Laws of the KEY commands (R464, R473, R488): the word of a command, its operation once the slot it reads first has been read, and its end. -/

namespace Sys2Proof.Machine

/-- The word of a KEY command: GO, the operation and the slot. -/
theorem keyWord_fields {op : Nat} (hop : op < 16) (i : BitVec 12) :
    bit (keyWord op i) 31 = true ∧ bits (keyWord op i) 27 24 = op ∧ bits (keyWord op i) 11 0 = i.toNat := by
  have hi := i.isLt
  rw [keyWord, Nat.add_assoc]
  refine ⟨bit_goWord (by omega), ?_, ?_⟩
  all_goals
    rw [bits_goWord (by omega) (by decide), nbits]
    omega

section
variable {s : State} {q : Requester} {op : Nat}

/-- A KEY command that is taken runs its operation, whose result waits for the command's end (log entry 15). -/
theorem State.keyCmd_of_takes (hop : op < 16) {i : BitVec 12} (h : s.takes q (pa .key 0 rKEY_CMD) (keyWord op i) (s.bitAt (pa .key 0 rKEY_STAT) 31)) :
    s.keyCmd q (keyWord op i) = (s.keyOp op i.toNat).2.startJob (pa .key 0 rKEY_STAT) (s.keyOp op i.toNat).1 := by
  obtain ⟨hgo, hcode, hslot⟩ := keyWord_fields hop i
  rw [State.keyCmd, hgo, Bool.true_and, State.guarded_of_takes h, if_pos rfl, hcode, hslot]

/-- What an operation does once the slot word it reads first has been read. -/
def State.keyRun (s : State) (i : Nat) : Nat → Nat × State
  | 1 => s.keyGenerate i
  | 2 => s.keyDerive i
  | 3 => s.keyImport i
  | 4 => s.keyExport i
  | 5 => s.keyRewrap i
  | 6 => (0, s.eraseSlot i)
  | 7 => s.keySetMask i
  | 8 => (0, s.sweep 4096)
  | _ => (0, s.wipeKeys)

/-- An operation acts after that read: SWEEP and WIPE always, the others where the word is good, and of those DERIVE to REWRAP where the KDF's own
test has not failed. -/
theorem State.keyOp_reads (hlo : 1 ≤ op) (hhi : op ≤ 9) {i : Nat} (hread : op < 8 → (s.readSlot (s.keyFirst op i)).1 = false)
    (hkat : 2 ≤ op → op ≤ 5 → (s.readSlot (s.keyFirst op i)).2.kat .kdf = false) :
    s.keyOp op i = (s.readSlot (s.keyFirst op i)).2.keyRun i op := by
  have hcode : ¬(op = 0 ∨ 9 < op) := by omega
  have hue : ((s.readSlot (s.keyFirst op i)).1 && decide (op < 8)) = false := by
    by_cases h8 : op < 8
    · rw [hread h8, Bool.false_and]
    · rw [decide_eq_false h8, Bool.and_false]
  have hkdf : (decide (2 ≤ op) && decide (op ≤ 5) && (s.readSlot (s.keyFirst op i)).2.kat .kdf) = false := by
    by_cases h25 : 2 ≤ op ∧ op ≤ 5
    · rw [hkat h25.1 h25.2, Bool.and_false]
    · simp only [← Bool.decide_and, decide_eq_false h25, Bool.false_and]
  simp only [State.keyOp, hcode, hue, hkdf, Bool.false_eq_true, if_false]
  rfl

/-- SET_MASK on a slot that is stored, in FIELD only to a mask that adds nothing. -/
theorem State.keySetMask_ok {i : Nat} (hstored : (s.slot i).type ≠ 0)
    (hmask : s.lcs ≠ 2 ∨ (s.keyArg rKEY_MASK).toNat % 2 ^ 15 &&& (s.slot i).mask = (s.keyArg rKEY_MASK).toNat % 2 ^ 15) :
    s.keySetMask i = (0, s.placeKey i { s.slot i with mask := (s.keyArg rKEY_MASK).toNat % 2 ^ 15 }) := by
  have hno : ¬(s.lcs = 2 ∧ (s.keyArg rKEY_MASK).toNat % 2 ^ 15 &&& (s.slot i).mask ≠ (s.keyArg rKEY_MASK).toNat % 2 ^ 15) := by
    rintro ⟨hfield, hadds⟩
    exact hmask.elim (fun h => h hfield) hadds
  rw [State.keySetMask, if_neg hstored, if_neg hno]

theorem exec_keyCommandDone_due (hbusy : s.bitAt keyStat 31 = true) (hturn : s.jobTurn keyStat = true) :
    exec .keyCommandDone s = .next ((s.endJob keyStat).irq .key 0 0) := by
  change execKeyCommandDone s = _
  simp only [execKeyCommandDone, hbusy, hturn, Bool.and_self, if_true]

/-- A catalogue of the present root, whole and with nothing else written, is restored image by image. -/
theorem State.catalogueRestore_good (hd : s.domOn 16 = true) (hsome : s.catalogue.images ≠ []) (hroot : s.root.id ≠ 0)
    (hsame : s.catalogue.rootId = s.root.id) (hall : ∀ e ∈ s.catalogue.images, e.2.2 = s.root.id) (hset : s.settings = []) :
    s.catalogueRestore = s.catalogue.images.foldl (fun s e => s.restoreOne e) s := by
  have hgood : s.catalogueGood = true := by
    have himages : s.catalogue.images.all (fun e => decide (e.2.2 = s.root.id)) = true := by simpa using hall
    rw [State.catalogueGood, himages, hset, decide_eq_true hroot, decide_eq_true hsame]
    rfl
  have hgo : ¬((!s.domOn 16) = true ∨ (s.catalogue.images = [] ∧ s.catalogue.floors = [])) := by simp [hd, hsome]
  rw [State.catalogueRestore, if_neg hgo, if_pos hgood]

end

end Sys2Proof.Machine
end

section
/-! PROOFS. The statement about the KEY commands. -/

namespace Sys2Proof.Machine

/-- Settles O34: a command taken runs its operation after the slot word it reads first. That the slot's effect stands at the command, that RESULT and
BUSY change with the job's end, and which word is read first (log entry 15, DESIGN CHOICE, DEDUCED) are the model's readings. -/
theorem keyStoreCommands : Obligations.KeyStoreCommands := by
  unfold Obligations.KeyStoreCommands
  intro s q i K S busy n u run x m
  have hcmd {op : Nat} {j : BitVec 12} {z : Nat × State} (hz : s.keyOp op j.toNat = z) (hop : op < 16) (h : s.takes q K (keyWord op j) busy) :
      s.keyCmd q (keyWord op j) = run z := by
    rw [State.keyCmd_of_takes hop h, hz]
  have hplain {op : Nat} {j : BitVec 12} {y : State} (hz : s.keyOp op j.toNat = (0, y)) (hop : op < 16) (h : s.takes q K (keyWord op j) busy) :
      s.keyCmd q (keyWord op j) = y.startJob S 0 := by
    rw [State.keyCmd_of_takes hop h, hz]
  refine ⟨fun hread => ⟨fun h => ?_, fun hkat => ⟨fun h => ?_, fun h => ?_, fun h => ?_, fun h => ?_⟩, fun h => ?_, fun h hstored hmask => ?_⟩,
    fun h => ?_, fun h => ?_, exec_keyCommandDone_due,
    fun hd hsome hroot hsame hall hset => congrArg Host.Outcome.next (State.catalogueRestore_good hd hsome hroot hsame hall hset)⟩
  · have hop : s.keyOp 1 n = (u 1).keyGenerate n := State.keyOp_reads (by decide) (by decide) (fun _ => hread 1) (by omega)
    exact congrArg Host.Outcome.next (hcmd hop (by decide) h)
  · have hop : s.keyOp 2 n = (u 2).keyDerive n := State.keyOp_reads (by decide) (by decide) (fun _ => hread 2) fun _ _ => hkat 2
    exact congrArg Host.Outcome.next (hcmd hop (by decide) h)
  · have hop : s.keyOp 3 n = (u 3).keyImport n := State.keyOp_reads (by decide) (by decide) (fun _ => hread 3) fun _ _ => hkat 3
    exact congrArg Host.Outcome.next (hcmd hop (by decide) h)
  · have hop : s.keyOp 4 n = (u 4).keyExport n := State.keyOp_reads (by decide) (by decide) (fun _ => hread 4) fun _ _ => hkat 4
    exact congrArg Host.Outcome.next (hcmd hop (by decide) h)
  · have hop : s.keyOp 5 n = (u 5).keyRewrap n := State.keyOp_reads (by decide) (by decide) (fun _ => hread 5) fun _ _ => hkat 5
    exact congrArg Host.Outcome.next (hcmd hop (by decide) h)
  · have hop : s.keyOp 6 n = (0, (u 6).eraseSlot n) := State.keyOp_reads (by decide) (by decide) (fun _ => hread 6) (by omega)
    exact congrArg Host.Outcome.next (hplain hop (by decide) h)
  · have hop : s.keyOp 7 n = (u 7).keySetMask n := State.keyOp_reads (by decide) (by decide) (fun _ => hread 7) (by omega)
    exact congrArg Host.Outcome.next (hplain (hop.trans (State.keySetMask_ok hstored hmask)) (by decide) h)
  · have hop : s.keyOp 8 0 = (0, (s.readSlot (s.keyFirst 8 0)).2.sweep 4096) :=
      State.keyOp_reads (by decide) (by decide) (by omega) (by omega)
    exact congrArg Host.Outcome.next (hplain hop (by decide) h)
  · have hop : s.keyOp 9 0 = (0, (s.readSlot 0).2.wipeKeys) := State.keyOp_reads (by decide) (by decide) (by omega) (by omega)
    exact congrArg Host.Outcome.next (hplain hop (by decide) h)

end Sys2Proof.Machine
end

section
/-! SUPPORT. Laws of the life cycle, the root and the OTP, the tamper inputs, the engines' tests and the random number generator (R474 to R476, R479 to
R486, R493). -/

namespace Sys2Proof.Machine

/-! ### The words of LCS_CTRL and LCS_OTP_CMD (R474, R484 to R486) -/

/-- The word of a request: REQ and the target. -/
theorem lcsRequest_word (target : BitVec 3) :
    let v := BitVec.ofNat 32 (2 ^ 31 + target.toNat)
    bit v 31 = true ∧ bit v 30 = false ∧ bit v 29 = false ∧ bits v 2 0 = target.toNat := by
  have htarget := target.isLt
  refine ⟨bit_goWord (by omega), ?_, ?_, ?_⟩
  · rw [bit, BitVec.getLsbD_ofNat, Nat.testBit_two_pow_add_gt (by decide), Nat.testBit_lt_two_pow (by omega), Bool.and_false]
  · rw [bit, BitVec.getLsbD_ofNat, Nat.testBit_two_pow_add_gt (by decide), Nat.testBit_lt_two_pow (by omega), Bool.and_false]
  · rw [bits_goWord (by omega) (by decide), nbits_low (by omega)]

/-- The word of a new challenge: NEW_CHAL and the target. -/
theorem lcsChallenge_word (target : BitVec 3) :
    let v := BitVec.ofNat 32 (2 ^ 30 + target.toNat)
    bit v 31 = false ∧ bit v 30 = true ∧ bit v 29 = false ∧ bits v 2 0 = target.toNat := by
  have htarget := target.isLt
  obtain ⟨hreq, hnew⟩ := bit_loadWord (n := target.toNat) (by omega)
  refine ⟨hreq, hnew, ?_, ?_⟩
  · rw [bit, BitVec.getLsbD_ofNat, Nat.testBit_two_pow_add_gt (by decide), Nat.testBit_lt_two_pow (by omega), Bool.and_false]
  · rw [bits_loadWord (by omega) (by decide), nbits_low (by omega)]

section
variable {s : State} {q : Requester} {t : Nat}

/-! ### Life cycle, root and OTP (R474, R482 to R486) -/

/-- ROOT_NEW alone, with nothing that bars it. -/
theorem State.lcsCtrl_rootNew (good : BitVec 2) (hnone : s.root.id = 0) (hlcs : s.lcs ≠ 4) (hbars : s.tamperBars = false) (hok : s.drbgOk = true)
    (h : s.takes q (lcsA rLCS_CTRL) (BitVec.ofNat 32 (2 ^ 29)) false) : s.lcsCtrl q (BitVec.ofNat 32 (2 ^ 29)) good = s.newRoot := by
  have hbad : (bit (BitVec.ofNat 32 (2 ^ 29)) 29 && (decide (s.root.id ≠ 0) || decide (s.lcs = 4) || s.tamperBars || !s.drbgOk)) = false := by
    simp [hnone, hlcs, hbars, hok]
  rw [State.lcsCtrl, hbad, State.guarded_of_takes h]
  rfl

/-- REQ alone is the transition, NEW_CHAL alone the challenge. -/
theorem State.lcsCtrl_request {v : Word32} (hreq : bit v 31 = true) (hchal : bit v 30 = false) (hroot : bit v 29 = false)
    (h : s.takes q (lcsA rLCS_CTRL) v false) (good : BitVec 2) : s.lcsCtrl q v good = s.transition (bits v 2 0) good := by
  rw [State.lcsCtrl, hroot, Bool.false_and, State.guarded_of_takes h]
  simp only [hreq, hchal, Bool.false_eq_true, if_false, if_true]

theorem State.lcsCtrl_challenge {v : Word32} (hreq : bit v 31 = false) (hchal : bit v 30 = true) (hroot : bit v 29 = false)
    (h : s.takes q (lcsA rLCS_CTRL) v false) (good : BitVec 2) : s.lcsCtrl q v good = s.newChallenge (bits v 2 0) := by
  rw [State.lcsCtrl, hroot, Bool.false_and, State.guarded_of_takes h]
  simp only [hreq, hchal, Bool.false_eq_true, if_false, if_true]

/-- A transition that nothing bars: wipes, burn, result and, once the fuses read another state, the reset 1 ms later. -/
theorem State.transition_made {n : Nat} (h : s.transitionBad n = 0) (good : BitVec 2) :
    s.transition n good = (
      let u := if n = 3 ∨ n = 4 then s.dropAuth.zeroRoot.wipeKeys else s.dropAuth
      let b := u.burn n good
      let w := (if good = 3 then b.lcsResult 0 else (b.cause .lcs 0 2).lcsResult 4).irq .lcs 0 1
      if w.lcs = u.lcs then w
      else ((w.lanyEvent 0x31 [n]).putBit (lcsA rLCS_STAT) 31 true).setTimer (lcsA rLCS_CTRL) (w.now + 1000000)) := by
  simp only [State.transition, h, ne_eq, not_true, if_false]

theorem exec_lcsTransitionReset_due (hrun : (s.at t).timer (lcsA rLCS_CTRL) ≠ 0) (hdue : (s.at t).timer (lcsA rLCS_CTRL) ≤ (s.at t).now) :
    exec (.lcsTransitionReset t) s = .next ((s.at t).chipReset 4) := by
  change execLcsTransitionReset t s = _
  simp only [execLcsTransitionReset, hrun, Nat.not_lt.mpr hdue, or_self, if_false]

theorem exec_lcsAuthExpiry_over (hover : (s.at t).authOver = true) : exec (.lcsAuthExpiry t) s = .next (s.at t).dropAuth := by
  change execLcsAuthExpiry t s = _
  simp only [execLcsAuthExpiry, hover, if_true]

/-- A hash slot not yet programmed takes the hash in LCS_OTP_DATA, in MAKER and OWNER. -/
theorem State.otpCmd_program {v : Word32} (hgo : bit v 31 = true) (hfree : s.otpHas (bits v 2 0) = false) (hlcs : s.lcs ≤ 1)
    (h : s.takes q (lcsA rLCS_OTP_CMD) v false) :
    s.otpCmd q v =
      (({ s with otp := { s.otp with hashes := s.otp.hashes ++ [(bits v 2 0, s.otpData)] } } : State).lcsResult 0).irq .lcs 0 1 := by
  have hbad : (bit v 31 && (s.otpHas (bits v 2 0) || decide (1 < s.lcs))) = false := by simp [hfree, hlcs]
  rw [State.otpCmd, hbad, State.guarded_of_takes h, if_pos hgo]

/-! ### Tamper inputs (R475, R476) -/

theorem exec_tamperSample (l : BitVec 4) :
    exec (.tamperSample l) s =
      .next ((((s.tamperInput 0 (bit l 0)).tamperInput 1 (bit l 1)).tamperInput 2 (bit l 2)).tamperInput 3 (bit l 3)).recordDue := by
  have hrange : List.range 4 = [0, 1, 2, 3] := rfl
  change execTamperSample l s = _
  simp only [execTamperSample, hrange, List.foldl_cons, List.foldl_nil]

/-- The latches that a write clears: those written with 1 whose input is not active. -/
def State.latchesCleared (s : State) (v : Word32) : State :=
  (List.range 4).foldl (fun s k =>
    if bit v k && !s.bitAt (pa .tamper 0 rTAMPER_STAT) (8 + k) then s.putBit (pa .tamper 0 rTAMPER_STAT) k false else s) s

/-- With the last latch FIRST and TIME clear too. -/
theorem State.tamperStat_of_takes {v : Word32} (h : s.takes q (pa .tamper 0 rTAMPER_STAT) v false) :
    s.tamperStat q v =
      if (s.latchesCleared v).fld (pa .tamper 0 rTAMPER_STAT) 3 0 = 0 then
        (((s.latchesCleared v).putBit (pa .tamper 0 rTAMPER_STAT) 16 false).putF (pa .tamper 0 rTAMPER_STAT) 21 20 0).wr64
          (pa .tamper 0 rTAMPER_TIME) 0
      else s.latchesCleared v := by
  rw [State.tamperStat, State.guarded_of_takes h]
  rfl

/-! ### Self-tests (R479, R480) -/

/-- The tests of the engines, and the start of the DRBG where TRNG is enabled. -/
theorem exec_cryptoSelfTest_on (hd : s.domOn 16 = true) (kdf aead hash pke trng : Bool) :
    exec (.cryptoSelfTest kdf aead hash pke trng) s = .next (
      let e := (((s.selfTest .kdf kdf).selfTest .aead aead).selfTest .hash hash).selfTest .pke pke
      if e.bitAt (pa .trng 0 0x00C) 0 then e.trngStart trng else e) := by
  change execCryptoSelfTest kdf aead hash pke trng s = _
  simp only [execCryptoSelfTest, hd, Bool.not_true, Bool.false_eq_true, if_false]

theorem State.trngStart_failed (h : s.bitAt (pa .trng 0 rTRNG_STAT) 1 = true) (ok : Bool) : s.trngStart ok = s := by
  rw [State.trngStart, if_pos h]

theorem State.selfTest_now (p : Pg) : (s.selfTest p true).now = s.now := rfl

theorem State.trngStart_ready (h : s.bitAt (pa .trng 0 rTRNG_STAT) 1 = false) :
    s.trngStart true = (((({ s.selfTest .trng true with trng := Trng.fresh } : State).wr (pa .trng 0 rTRNG_STAT) 1).irq .trng 0 0).setTimer
      (pa .trng 0 rTRNG_RESEEDS) (s.now + 1000000000)) := by
  rw [State.trngStart, if_neg (Bool.eq_false_iff.mp h), ← State.selfTest_now (s := s) .trng]
  exact if_pos rfl

/-! ### Random numbers (R480, R481, R493) -/

section
variable {b : Bool}

theorem exec_trngHealthFail_tests (hd : s.domOn 16 = true) (hon : s.bitAt (pa .trng 0 0x00C) 0 = true)
    (hwell : s.bitAt (pa .trng 0 rTRNG_STAT) 1 = false) (raw : List Bool) : exec (.trngHealthFail raw) s = .next (s.rawBits raw) := by
  have hruns : s.trngTests = true := by rw [State.trngTests, hd, hon, hwell]; rfl
  change execTrngHealthFail raw s = _
  rw [execTrngHealthFail, if_pos hruns]

/-- The repetition-count test fails first where both do. -/
theorem State.rawBits_repeats (hrun : s.fld (pa .trng 0 rTRNG_CUTOFF) 7 0 ≤ (s.trng.bit b).run) (raw : List Bool) :
    s.rawBits (b :: raw) = (({ s with trng := s.trng.bit b } : State).cause .trng 0 0).wr (pa .trng 0 rTRNG_STAT) 2 := by
  have hcut : ({ s with trng := s.trng.bit b } : State).fld (pa .trng 0 rTRNG_CUTOFF) 7 0 ≤ (s.trng.bit b).run := hrun
  simp only [State.rawBits, hcut, true_or, if_true]

/-- The adaptive-proportion test fails alone. -/
theorem State.rawBits_biased (hrun : (s.trng.bit b).run < s.fld (pa .trng 0 rTRNG_CUTOFF) 7 0)
    (hcount : s.fld (pa .trng 0 rTRNG_CUTOFF) 26 16 ≤ (s.trng.bit b).count) (raw : List Bool) :
    s.rawBits (b :: raw) = (({ s with trng := s.trng.bit b } : State).cause .trng 0 1).wr (pa .trng 0 rTRNG_STAT) 2 := by
  have hcut : ¬({ s with trng := s.trng.bit b } : State).fld (pa .trng 0 rTRNG_CUTOFF) 7 0 ≤ (s.trng.bit b).run := Nat.not_le.mpr hrun
  simp only [State.rawBits, hcut, hcount, or_true, if_true, if_false]

/-- A bit that fails neither test is counted where its window came near the cutoff. -/
theorem State.rawBits_passes (hrun : (s.trng.bit b).run < s.fld (pa .trng 0 rTRNG_CUTOFF) 7 0)
    (hcount : (s.trng.bit b).count < s.fld (pa .trng 0 rTRNG_CUTOFF) 26 16) :
    s.rawBits [b] =
      let z : State := { s with trng := s.trng.bit b }
      if (s.trng.bit b).near (s.fld (pa .trng 0 rTRNG_CUTOFF) 26 16) then z.bump (pa .trng 0 rTRNG_NEAR) 1 else z := by
  have hcut : ¬({ s with trng := s.trng.bit b } : State).fld (pa .trng 0 rTRNG_CUTOFF) 7 0 ≤ (s.trng.bit b).run := Nat.not_le.mpr hrun
  simp only [State.rawBits, hcut, Nat.not_le.mpr hcount, or_self, if_false]

end

theorem exec_drbgReseed_due (hdue : (s.at t).reseedDue = true) :
    exec (.drbgReseed t) s = .next ((({ s.at t with trng := { (s.at t).trng with used := 0 } } : State).bumpMod
      (pa .trng 0 rTRNG_RESEEDS) 1).setTimer (pa .trng 0 rTRNG_RESEEDS) ((s.at t).now + 1000000000)) := by
  change execDrbgReseed t s = _
  rw [execDrbgReseed, if_pos hdue]

/-- A read of TRNG_OUT draws where the DRBG runs, and reads 0 where not. -/
theorem State.trngRead_draws (hok : s.drbgOk = true) (hfree : s.srstBusy (pa .trng 0 rTRNG_OUT) = false) :
    s.trngRead q false = { s.generated.draw.2.setLatch q (pa .trng 0 rTRNG_OUT) (s.generated.draw.1.extractLsb' 32 32) with
      rdata := (s.generated.draw.1.extractLsb' 0 32).setWidth 64 } := by
  simp only [State.trngRead, hok, hfree, Bool.not_false, Bool.and_self, if_true, Bool.false_eq_true, if_false]

theorem State.trngRead_zero (hno : s.drbgOk = false) : s.trngRead q false = { s.setLatch q (pa .trng 0 rTRNG_OUT) 0 with rdata := 0 } := by
  rw [State.trngRead, hno]
  rfl

theorem exec_trngRead_allowed (h : s.noAccess q = false) : exec (.trngRead q) s = .next (s.trngRead q false) := by
  change execTrngRead q s = _
  rw [execTrngRead, State.readBy, if_neg (Bool.eq_false_iff.mp h)]

end

end Sys2Proof.Machine
end

section
/-! PROOFS. The statement about the life cycle, the tamper inputs, the self-tests and the random number generator. -/

namespace Sys2Proof.Machine

/-- Settles O35: each write taken has its register's effect, and each event acts once its condition is met. When a transition's and a root's effects
stand (log entry 15) is the model's reading. -/
theorem lifeCycleAndTamperCommands : Obligations.LifeCycleAndTamperCommands := by
  unfold Obligations.LifeCycleAndTamperCommands
  constructor
  · intro s q target good t C n
    obtain ⟨hreq, hnochal, hnoroot, htarget⟩ := lcsRequest_word target
    obtain ⟨hnoreq, hchal, hnoroot', htarget'⟩ := lcsChallenge_word target
    refine ⟨fun hnone hlcs hbars hok h => congrArg Host.Outcome.next (State.lcsCtrl_rootNew 3 hnone hlcs hbars hok h), fun hgood h => ?_,
      exec_lcsTransitionReset_due, fun h => ?_, exec_lcsAuthExpiry_over, fun hfree hlcs h => ?_⟩
    · have hctrl := State.lcsCtrl_request hreq hnochal hnoroot h good
      rw [htarget] at hctrl
      exact congrArg Host.Outcome.next (hctrl.trans (State.transition_made hgood good))
    · have hctrl := State.lcsCtrl_challenge hnoreq hchal hnoroot' h 3
      rw [htarget'] at hctrl
      exact congrArg Host.Outcome.next hctrl
    · have hprog := State.otpCmd_program hreq (htarget.symm ▸ hfree) hlcs h
      rw [htarget] at hprog
      exact congrArg Host.Outcome.next hprog
  · intro s q l kdf aead hash pke trng b raw t T G x z cut apt on c e O
    refine ⟨exec_tamperSample l, fun h hleft => ?_, fun h hlast => ?_, fun hd hoff => ?_, fun hd hen hfail => ?_, fun hd hen hwell hok => ?_,
      fun hd hen hwell => ⟨fun hrun => ?_, fun hrun hcount => ?_, fun hrun hcount => ?_⟩, exec_drbgReseed_due, fun ha hok hfree => ?_,
      fun ha hno => ?_⟩
    · exact congrArg Host.Outcome.next ((State.tamperStat_of_takes h).trans (if_neg hleft))
    · exact congrArg Host.Outcome.next ((State.tamperStat_of_takes h).trans (if_pos hlast))
    · exact (exec_cryptoSelfTest_on hd ..).trans (congrArg _ (if_neg (Bool.eq_false_iff.mp hoff)))
    · exact (exec_cryptoSelfTest_on hd ..).trans (congrArg _ ((if_pos hen).trans (State.trngStart_failed hfail trng)))
    · subst hok
      exact (exec_cryptoSelfTest_on hd ..).trans (congrArg _ ((if_pos hen).trans (State.trngStart_ready hwell)))
    · exact (exec_trngHealthFail_tests hd hen hwell _).trans (congrArg _ (State.rawBits_repeats hrun raw))
    · exact (exec_trngHealthFail_tests hd hen hwell _).trans (congrArg _ (State.rawBits_biased hrun hcount raw))
    · exact (exec_trngHealthFail_tests hd hen hwell _).trans (congrArg _ (State.rawBits_passes hrun hcount))
    · exact (exec_trngRead_allowed ha).trans (congrArg _ (State.trngRead_draws hok hfree))
    · exact (exec_trngRead_allowed ha).trans (congrArg _ (State.trngRead_zero hno))

end Sys2Proof.Machine
end

section
/-! SUPPORT. Laws of the job pages (R479, R485, R490 to R492): the word of a job, the job that a taken write runs, and its end. -/

namespace Sys2Proof.Machine

/-- The word of a job: GO, the slot and the operation. -/
theorem jobWord_fields {op : Nat} (hop : op < 16) (slot : BitVec 12) :
    bit (jobWord op slot) 31 = true ∧ bits (jobWord op slot) 3 0 = op ∧ bits (jobWord op slot) 27 16 = slot.toNat := by
  have hslot := slot.isLt
  rw [jobWord, Nat.add_assoc]
  refine ⟨bit_goWord (by omega), ?_, ?_⟩
  all_goals
    rw [bits_goWord (by omega) (by decide), nbits]
    omega

section
variable {s : State} {q : Requester} {p : Pg} {op : Nat} {slot : BitVec 12}

/-- A job that is taken on an engine that is enabled runs: BUSY at once, RESULT at its end (log entry 15). -/
theorem State.job_of_takes {cmd : Nat} {v : Word32} (run : State → Nat × State) (hgo : bit v 31 = true)
    (h : s.takes q (pa p 0 cmd) v (s.bitAt (pa p 0 (cmd + 4)) 31)) (hon : s.bitAt (pa p 0 0x00C) 0 = true) :
    s.job p cmd q v run = (run s).2.startJob (pa p 0 (cmd + 4)) (run s).1 := by
  rw [State.job, hgo, Bool.true_and, State.guarded_of_takes h, if_pos ⟨rfl, hon⟩]

/-- An engine whose own memory shows nothing reads its word well. -/
theorem State.engineWord_good {u : State} (h : s.inject p 0 0 1 = (0, u)) : s.engineWord p = (false, u) := by
  rw [State.engineWord, h]
  rfl

/-! ### AEAD (R490, R491) -/

section
variable (h : s.takes q (pa .aead 0 rJOB_CMD) (jobWord op slot) (s.bitAt (pa .aead 0 rJOB_STAT) 31)) (hon : s.bitAt (pa .aead 0 0x00C) 0 = true)
include h hon

theorem State.aeadCmd_job (hlo : 1 ≤ op) (hhi : op ≤ 6) (ok : Bool) :
    s.aeadCmd q (jobWord op slot) ok = (s.aeadJob op slot.toNat).2.startJob (pa .aead 0 rJOB_STAT) (s.aeadJob op slot.toNat).1 := by
  obtain ⟨hgo, hop, hslot⟩ := jobWord_fields (op := op) (by omega) slot
  have hno : ¬(op = 0 ∨ 7 < op) := by omega
  rw [State.aeadCmd, State.job_of_takes _ hgo h hon]
  simp only [hop, hslot, if_neg (show op ≠ 7 by omega), if_neg hno]

theorem State.aeadCmd_test (hop7 : op = 7) (ok : Bool) :
    s.aeadCmd q (jobWord op slot) ok = (s.selfTest .aead ok).startJob (pa .aead 0 rJOB_STAT) (if ok then 0 else 4) := by
  obtain ⟨hgo, hop, -⟩ := jobWord_fields (op := op) (by omega) slot
  rw [State.aeadCmd, State.job_of_takes _ hgo h hon]
  simp only [hop, if_pos hop7, State.testJob]

end

/-! ### HASH (R490) -/

section
variable (h : s.takes q (pa .hash 0 rJOB_CMD) (jobWord op slot) (s.bitAt (pa .hash 0 rJOB_STAT) 31)) (hon : s.bitAt (pa .hash 0 0x00C) 0 = true)
include h hon

theorem State.hashCmd_job (hlo : 1 ≤ op) (hhi : op ≤ 2) (ok : Bool) :
    s.hashCmd q (jobWord op slot) ok = (s.hashJob op).2.startJob (pa .hash 0 rJOB_STAT) (s.hashJob op).1 := by
  obtain ⟨hgo, hop, -⟩ := jobWord_fields (op := op) (by omega) slot
  rw [State.hashCmd, State.job_of_takes _ hgo h hon]
  simp only [hop, if_neg (show op ≠ 7 by omega), if_pos (show op = 1 ∨ op = 2 by omega)]

theorem State.hashCmd_test (hop7 : op = 7) (ok : Bool) :
    s.hashCmd q (jobWord op slot) ok = (s.selfTest .hash ok).startJob (pa .hash 0 rJOB_STAT) (if ok then 0 else 4) := by
  obtain ⟨hgo, hop, -⟩ := jobWord_fields (op := op) (by omega) slot
  rw [State.hashCmd, State.job_of_takes _ hgo h hon]
  simp only [hop, if_pos hop7, State.testJob]

end

/-- A HASH job whose source reads well writes the digest at its destination with its end. -/
theorem State.hashJob_good {u z : State} {src : List Byte} (hkat : s.kat .hash = false) (hlen : (s.rd (pa .hash 0 rJOB_LEN)).toNat ≤ 2 ^ 24)
    (hinj : s.inject .hash 0 0 1 = (0, u))
    (hread : (u.defer hashStat 0 []).ddrGet (((u.defer hashStat 0 []).rd (pa .hash 0 rJOB_SRC)).toNat * 64)
      (s.rd (pa .hash 0 rJOB_LEN)).toNat = (src, false, z)) :
    s.hashJob op = (0, z.defer hashStat ((z.rd (pa .hash 0 rJOB_DST)).toNat * 64) (if op = 1 then sha256 src else sha384 src)) := by
  simp only [State.hashJob, hkat, Nat.not_lt.mpr hlen, State.engineWord_good hinj, hread, Bool.false_eq_true, or_self, if_false]

/-! ### PKE (R485, R492) -/

/-- A PKE command begins: its slots of the frame come from now on (R477, log entry 34). -/
def State.pkeBegun (s : State) (op slot : Nat) : State := { s with rig := { s.rig with pkeRun := 0, pkeNeed := s.pkeSlots op slot } }

section
variable (h : s.takes q (pa .pke 0 rPKE_CMD) (jobWord op slot) (s.bitAt (pa .pke 0 rPKE_STAT) 31)) (hon : s.bitAt (pa .pke 0 0x00C) 0 = true)
include h hon

theorem State.pkeCmd_job (hop7 : op ≤ 7) (ok : Bool) :
    s.pkeCmd q (jobWord op slot) ok = (((s.pkeBegun op slot.toNat).pkeJob op slot.toNat).2.startJob (pa .pke 0 rPKE_STAT)
      ((s.pkeBegun op slot.toNat).pkeJob op slot.toNat).1) := by
  obtain ⟨hgo, hop, hslot⟩ := jobWord_fields (op := op) (by omega) slot
  rw [State.pkeCmd, State.job_of_takes _ hgo h hon]
  simp only [hop, hslot, if_neg (show op ≠ 8 by omega)]
  rfl

theorem State.pkeCmd_test (hop8 : op = 8) (ok : Bool) :
    s.pkeCmd q (jobWord op slot) ok =
      ((s.pkeBegun op slot.toNat).selfTest .pke ok).startJob (pa .pke 0 rPKE_STAT) (if ok then 0 else 5) := by
  obtain ⟨hgo, hop, hslot⟩ := jobWord_fields (op := op) (by omega) slot
  rw [State.pkeCmd, State.job_of_takes _ hgo h hon]
  simp only [hop, hslot, if_pos hop8]
  rfl

end

/-- What a PKE job does once its buffer, and the slot of one that works on a slot, have been read. -/
def State.pkeRun (s : State) (buf slot : Nat) (l : List Byte) : Nat → Nat × State
  | 1 => (verifyStatus 1 l, s)
  | 2 => (verifyStatus 2 l, s)
  | 3 => s.pkeSign buf slot l
  | 4 => s.pkeKeygen buf slot
  | 5 => s.pkePubkey buf slot
  | 6 => s.pkeEcdh slot l
  | 7 => s.pkeLcs l
  | _ => (2, s)

theorem State.pkeJob_good {u v : State} {l : List Byte} {n : Nat} (hkat : s.kat .pke = false) (hinj : s.inject .pke 0 0 1 = (0, u))
    (hread : (u.defer pkeStat 0 []).ddrGet ((s.rd (pa .pke 0 rPKE_BUF)).toNat * 64) 240 = (l, false, v)) :
    s.pkeJob op n =
      (if 3 ≤ op ∧ op ≤ 6 then (v.readSlot n).2 else v).pkeRun ((s.rd (pa .pke 0 rPKE_BUF)).toNat * 64) n l op := by
  simp only [State.pkeJob, hkat, State.engineWord_good hinj, hread, Bool.false_eq_true, or_self, if_false]
  rfl

theorem State.pkePubkey_ok {buf n : Nat} (h : s.useSlot n 8 1 true = none) :
    s.pkePubkey buf n = (0, s.bufPut buf 1 ((s.slot n).curve.pub (s.slot n).scalar)) := by
  rw [State.pkePubkey, h]

/-- VERIFY_LCS sets AUTH for 10 s where every check passes. -/
theorem State.pkeLcs_passes {l : List Byte} (h : s.lcsVerify l = 0) :
    s.pkeLcs l = (0, ((s.putBit (lcsA rLCS_STAT) 8 true).setTimer (lcsA rLCS_AUTH_LEFT) (s.now + 10000000000)).irq .lcs 0 0) := by
  rw [State.pkeLcs, h, if_pos rfl]

theorem State.pkeLcs_fails {l : List Byte} (h : s.lcsVerify l ≠ 0) : s.pkeLcs l = (s.lcsVerify l, s) := by
  rw [State.pkeLcs, if_neg h]

theorem exec_pkeJobDone_due (hbusy : s.bitAt pkeStat 31 = true) (hslots : s.pkeTurn = true) (hturn : s.jobTurn pkeStat = true) :
    exec .pkeJobDone s = .next ((s.endJob pkeStat).bumpMod (pa .pke 0 rPKE_DONE_CNT) 1) := by
  change execPkeJobDone s = _
  simp only [execPkeJobDone, hbusy, hslots, hturn, Bool.and_self, if_true]

end

end Sys2Proof.Machine
end

section
/-! PROOFS. The statement about the jobs of the AEAD, HASH and PKE pages. -/

namespace Sys2Proof.Machine

/-- Settles O36: a job taken on an engine that is enabled runs its operation. That memory is read with the command and written with the end (log entry
15), that a PKE job waits for its slots of the frame (log entry 34) and what is MALFORMED (log entry 11, DESIGN CHOICE) are the model's readings. -/
theorem cryptoJobCommands : Obligations.CryptoJobCommands := by
  unfold Obligations.CryptoJobCommands
  constructor
  · intro s q slot ok u A H aR hR aOk hOk S len z src dst g
    have haead {op : Nat} (hlo : 1 ≤ op) (hhi : op ≤ 6) (hok : aOk op slot) : s.aeadCmd q (jobWord op slot) true = aR (s.aeadJob op slot.toNat) :=
      State.aeadCmd_job hok.1 hok.2 hlo hhi true
    refine ⟨fun hok => congrArg Host.Outcome.next (haead (by decide) (by decide) hok),
      fun hok => congrArg Host.Outcome.next (haead (by decide) (by decide) hok),
      fun hok => congrArg Host.Outcome.next (haead (by decide) (by decide) hok),
      fun hok => congrArg Host.Outcome.next (haead (by decide) (by decide) hok),
      fun hok => congrArg Host.Outcome.next (haead (by decide) (by decide) hok),
      fun hok => congrArg Host.Outcome.next (haead (by decide) (by decide) hok),
      fun hok => congrArg Host.Outcome.next (State.aeadCmd_test hok.1 hok.2 rfl ok), fun hkat hlen hinj hue => ?_,
      fun hok => congrArg Host.Outcome.next (State.hashCmd_test hok.1 hok.2 rfl ok), rfl, rfl⟩
    have hread : z.ddrGet src len = (g.1, false, g.2.2) := by rw [← hue]
    have hhash {op : Nat} (hlo : 1 ≤ op) (hhi : op ≤ 2) (hok : hOk op) :
        s.hashCmd q (jobWord op 0) true = hR (0, g.2.2.defer S (dst g.2.2) (if op = 1 then sha256 g.1 else sha384 g.1)) := by
      rw [State.hashCmd_job hok.1 hok.2 hlo hhi, State.hashJob_good hkat hlen hinj hread]
      rfl
    exact ⟨fun hok => congrArg Host.Outcome.next (hhash (by decide) (by decide) hok),
      fun hok => congrArg Host.Outcome.next (hhash (by decide) (by decide) hok)⟩
  · intro s u v q slot ok l C S buf n run may begun reads w
    refine ⟨fun hon hkat => ?_, fun hon hmay => congrArg Host.Outcome.next (State.pkeCmd_test hmay hon rfl ok), exec_pkeJobDone_due⟩
    have hjob {op : Nat} {sl : BitVec 12} {r : Nat × State} (hop : op ≤ 7) (hmay : may op sl) (hreads : reads op sl)
        (hrun : (if 3 ≤ op ∧ op ≤ 6 then (v.readSlot sl.toNat).2 else v).pkeRun buf sl.toNat l op = r) :
        s.pkeCmd q (jobWord op sl) true = run r := by
      obtain ⟨hinj, hread⟩ := hreads
      have hgood : (s.pkeBegun op sl.toNat).pkeJob op sl.toNat = r := (State.pkeJob_good (s := s.pkeBegun op sl.toNat) hkat hinj hread).trans hrun
      rw [State.pkeCmd_job hmay hon hop, hgood]
    have hends {op : Nat} {sl : BitVec 12} {r : Nat} {y : State} (hop : op ≤ 7) (hmay : may op sl) (hreads : reads op sl)
        (hrun : (if 3 ≤ op ∧ op ≤ 6 then (v.readSlot sl.toNat).2 else v).pkeRun buf sl.toNat l op = (r, y)) :
        s.pkeCmd q (jobWord op sl) true = y.startJob S r := hjob hop hmay hreads hrun
    refine ⟨fun hmay hreads => ?_, fun hmay hreads => ?_, fun hmay hreads => ?_, fun hmay hreads => ?_, fun hmay hreads huse => ?_,
      fun hmay hreads => ?_, fun hmay hreads hpass => ?_, fun hmay hreads hfail => ?_⟩
    · exact congrArg Host.Outcome.next (hends (by decide) hmay hreads rfl)
    · exact congrArg Host.Outcome.next (hends (by decide) hmay hreads rfl)
    · exact congrArg Host.Outcome.next (hjob (by decide) hmay hreads rfl)
    · exact congrArg Host.Outcome.next (hjob (by decide) hmay hreads rfl)
    · exact congrArg Host.Outcome.next (hends (by decide) hmay hreads (State.pkePubkey_ok huse))
    · exact congrArg Host.Outcome.next (hjob (by decide) hmay hreads rfl)
    · exact congrArg Host.Outcome.next (hends (by decide) hmay hreads (State.pkeLcs_passes hpass))
    · exact congrArg Host.Outcome.next (hends (by decide) hmay hreads (State.pkeLcs_fails hfail))

end Sys2Proof.Machine
end

section
/-! SUPPORT. Laws of the debug port (R637 to R656): a request that is answered OK, an authentication's end, and what freezes a lay. -/

namespace Sys2Proof.Machine

/-- The line is on, does not wait for a line reset, and the unit is not VOID (R638, R646). -/
def State.dbgHears (s : State) : Prop := s.domOn 2 = true ∧ s.dbg.deaf = false ∧ s.lcs ≠ 4

section
variable {s : State} {t : Nat} {p : Bool} {level : Nat}

/-! ### Requests (R639, R640, R646) -/

/-- A request of the right parity at a level that suffices has its effect, answered OK. -/
theorem State.dbgRequest_ok (h : s.dbgHears) (hlevel : level ≤ s.dbgLevel) (eff : State → State) :
    s.dbgRequest p p level eff = eff (s.ack 1) := by
  obtain ⟨hd, hdeaf, hlcs⟩ := h
  simp only [State.dbgRequest, hd, hdeaf, hlcs, Nat.not_lt.mpr hlevel, decide_false, Bool.not_true, Bool.or_self, Bool.false_eq_true, ne_eq,
    not_true, if_false]

theorem State.dbgRequest_free (h : s.dbgHears) (eff : State → State) : s.dbgRequest p p 0 eff = eff (s.ack 1) :=
  State.dbgRequest_ok h (Nat.zero_le _) eff

/-- A parity error is a cause and a FAULT, and nothing is done. -/
theorem State.dbgRequest_parity {want : Bool} (h : s.dbgHears) (hp : p ≠ want) (eff : State → State) :
    s.dbgRequest p want level eff = (s.cause .dbg 0 0).dbgFault 1 := by
  obtain ⟨hd, hdeaf, hlcs⟩ := h
  simp only [State.dbgRequest, hd, hdeaf, hlcs, hp, decide_false, Bool.not_true, Bool.or_self, Bool.false_eq_true, ne_eq, not_false_eq_true,
    if_false, if_true]

theorem exec_dbgLineReset_on (hd : s.domOn 2 = true) :
    exec .dbgLineReset s = .next (
      let y := s.setLevel 0
      { y with dbg := { y.dbg with deaf := false } }) := by
  change execDbgLineReset s = _
  simp only [execDbgLineReset, hd, Bool.not_true, Bool.false_eq_true, if_false]

/-! ### Reads and writes (R641 to R645) -/

theorem eq_of_space (sp : BitVec 2) : sp = 0 ∨ sp = 1 ∨ sp = 2 ∨ sp = 3 := by
  revert sp
  decide

/-- A read served at the level it needs, of an address in its space, reads as its space does and answers what it read. -/
theorem exec_dbgRead_served {sp : BitVec 2} {w64 : Bool} {a : BitVec 32} {served : Bool} (h : (s.at t).dbgHears)
    (hlevel : readLevel sp a.toNat ≤ (s.at t).dbgLevel) (hspace : spaceBad sp w64 a.toNat = false)
    (hready : served = true ∨ (sp.toNat ≠ 0 ∧ ¬(sp.toNat = 3 ∧ (s.at t).laySt (a.toNat / 2 ^ 29) ≠ 5))) :
    exec (.dbgRead (dbgParity 3 sp.toNat w64 a.toNat 0) sp w64 a served t) s = .next (
      let u := (s.at t).ack 1
      let y := if sp = 0 then u.windowRead .debug (a.toNat % 2 ^ 24) w64 0xFF else if sp = 1 then u.quietRead (a.toNat % 2 ^ 24) w64
        else if sp = 2 then u.dbgLany a.toNat (accBytes w64) else u.dbgLay a.toNat (accBytes w64)
      y.answer y.rdata) := by
  have hgo : (!served && decide (sp.toNat = 0 ∨ (sp.toNat = 3 ∧ ((s.at t).ack 1).laySt (a.toNat / 2 ^ 29) ≠ 5))) = false := by
    rcases hready with hserved | ⟨hwindow, hlay⟩
    · rw [hserved]
      rfl
    · exact (congrArg (!served && ·) (decide_eq_false (not_or.mpr ⟨hwindow, hlay⟩))).trans (Bool.and_false _)
  refine congrArg Host.Outcome.next ((State.dbgRequest_ok h hlevel _).trans ?_)
  simp only [hspace, hgo, Bool.false_eq_true, if_false]
  obtain rfl | rfl | rfl | rfl := eq_of_space sp <;> rfl

/-- A write served at the level it needs, to an address in its space, is its space's write. -/
theorem exec_dbgWrite_served {sp : BitVec 2} {w64 : Bool} {a : BitVec 32} {v : BitVec 64} (h : (s.at t).dbgHears)
    (hlevel : s.writeLevel sp ≤ (s.at t).dbgLevel) (hspace : spaceBad sp w64 a.toNat = false) :
    exec (.dbgWrite (dbgParity 4 sp.toNat w64 a.toNat (v.toNat % 2 ^ (8 * accBytes w64))) sp w64 a v true t) s = .next (
      let u := (s.at t).ack 1
      if sp = 0 then u.dbgWindow (a.toNat % 2 ^ 24) w64 v
      else if sp = 2 then (if (s.at t).lany.halted then u.storeBytes .lany a.toNat (accBytes w64) v.toNat else u.dbgFault 5)
      else u.dbgLayWrite a.toNat (accBytes w64) v.toNat) := by
  refine congrArg Host.Outcome.next ((State.dbgRequest_ok h hlevel _).trans ?_)
  simp only [hspace, Bool.not_true, Bool.false_and, Bool.false_eq_true, if_false]
  obtain rfl | rfl | rfl | rfl := eq_of_space sp <;> rfl

/-! ### Authentication (R646 to R648) -/

/-- A new challenge of the DRBG ends the level and what was answered to the last; not within 1 s of a failure. -/
theorem exec_dbgNewchal_drawn {sought : BitVec 2} (h : (s.at t).dbgHears)
    (hwait : ∀ f, (s.at t).dbg.failAt = some f → f + 1000000000 ≤ (s.at t).now) (hok : (s.at t).drbgOk = true) :
    exec (.dbgNewchal (dbgParity 8 0 false sought.toNat 0) sought t) s = .next (
      let c := (((s.at t).ack 1).setLevel 0).random 32
      { c.2 with dbg := { c.2.dbg with chal := c.1, sought := sought.toNat, fresh := true, resp := [], checking := false }
                 results := drop c.2.results (dbA rDBG_STAT) }) := by
  have hover : ((s.at t).ack 1).dbg.failAt.any (fun f => decide (((s.at t).ack 1).now < f + 1000000000)) = false := by
    rw [Option.any_eq_false]
    intro f hf
    exact decide_eq_false (Nat.not_lt.mpr (hwait f hf))
  have hrandom : ((s.at t).ack 1).drbgOk = true := hok
  refine congrArg Host.Outcome.next ((State.dbgRequest_free h _).trans ?_)
  simp only [hover, hrandom, Bool.not_true, Bool.false_eq_true, if_false]

/-- A response word of those that a response has is kept. -/
theorem exec_dbgResp_word {word : BitVec 6} {x : BitVec 32} (h : s.dbgHears) (hword : word.toNat ≤ 48) :
    exec (.dbgResp (dbgParity 10 0 false word.toNat x.toNat) word x) s =
      .next { s.ack 1 with dbg := { (s.ack 1).dbg with resp := place word.toNat x (drop s.dbg.resp word.toNat) } } := by
  refine congrArg Host.Outcome.next ((State.dbgRequest_free h _).trans ?_)
  rw [if_neg (Nat.not_lt.mpr hword)]
  rfl

/-- AUTH after a check that has passed is OK once. -/
theorem exec_dbgAuth_passed {e : Nat × Nat} (h : (s.at t).dbgHears)
    (hdone : (s.at t).results.find? (fun (e : Nat × Nat) => e.1 = dbA rDBG_STAT) = some e) (hpass : e.2 = 1) :
    exec (.dbgAuth (dbgParity 11 0 false 0 0) t) s = .next { (s.at t).ack 1 with results := drop (s.at t).results (dbA rDBG_STAT) } := by
  have hfind : ((s.at t).ack 1).results.find? (fun (e : Nat × Nat) => e.1 = dbA rDBG_STAT) = some e := hdone
  refine congrArg Host.Outcome.next ((State.dbgRequest_free h _).trans ?_)
  simp only [hfind, hpass, if_true]
  rfl

/-- The end of a check: the challenge is used, and the result waits for AUTH. -/
def State.authEnds (s : State) (ok : Bool) : State :=
  ({ s with dbg := { s.dbg with checking := false, fresh := false }
            results := place (dbA rDBG_STAT) ok.toNat (drop s.results (dbA rDBG_STAT)) } : State).lanyEvent 0x34 [s.dbg.sought, ok.toNat]

/-- A good signature for FULL authenticates at level 3, where the unit is in RETURNED. -/
theorem exec_dbgAuthComplete_full (hd : (s.at t).domOn 2 = true) (hcheck : (s.at t).dbg.checking = true) (hfresh : (s.at t).dbg.fresh = true)
    (hlcs : (s.at t).lcs = 3) (hsought : (s.at t).dbg.sought = 3) (hgood : (s.at t).signatureGood = true) :
    exec (.dbgAuthComplete t) s = .next (((s.at t).authEnds true).setLevel 3) := by
  change execDbgAuthComplete t s = _
  simp only [execDbgAuthComplete, State.authEnds, hd, hcheck, hfresh, hlcs, hsought, hgood, Bool.not_true, Bool.or_self, Bool.false_eq_true, if_false,
    decide_true, Bool.and_self, if_true, show (decide ((3 : Nat) = 2)) = false from rfl, Bool.false_and]

/-- A challenge that has been used fails, which is counted and bars the next for 1 s. -/
theorem exec_dbgAuthComplete_used (hd : (s.at t).domOn 2 = true) (hcheck : (s.at t).dbg.checking = true) (hfresh : (s.at t).dbg.fresh = false) :
    exec (.dbgAuthComplete t) s = .next (
      let y := (((s.at t).authEnds false).bump (dbA rDBG_AUTH_FAIL) 1).cause .dbg 0 1
      { y with dbg := { y.dbg with failAt := some y.now } }) := by
  change execDbgAuthComplete t s = _
  simp only [execDbgAuthComplete, State.authEnds, hd, hcheck, hfresh, Bool.not_true, Bool.not_false, Bool.or_self, Bool.false_eq_true, if_false, if_true]

/-! ### Freezing, running and stepping (R649 to R655) -/

/-- Lays that are all on and in RUN or HELD are halted one by one, and then the Lanyard where it is named. -/
theorem exec_dbgHalt_running {mask : BitVec 8} {lany : Bool} (h : (s.at t).dbgHears) (hlevel : 3 ≤ (s.at t).dbgLevel)
    (hall : ∀ m ∈ lays mask.toNat, (s.at t).domOn (3 + m) = true ∧ ((s.at t).laySt m = 3 ∨ (s.at t).laySt m = 4)) :
    exec (.dbgHalt (dbgParity 5 0 false (mask.toNat + 256 * lany.toNat) 0) mask lany t) s = .next (
      let y := (lays mask.toNat).foldl (fun (s : State) n => s.haltLay n) ((s.at t).ack 1)
      if lany then y.haltLany else y) := by
  have hok : (lays mask.toNat).any (fun n => !((s.at t).ack 1).domOn (3 + n) ||
      (((s.at t).ack 1).laySt n ≠ 3 && ((s.at t).ack 1).laySt n ≠ 4)) = false := by
    rw [List.any_eq_false]
    intro m hm
    obtain ⟨hd, hst⟩ := hall m hm
    change ¬(!(s.at t).domOn (3 + m) || ((s.at t).laySt m ≠ 3 && (s.at t).laySt m ≠ 4)) = true
    rcases hst with hst | hst <;> simp [hd, hst]
  refine congrArg Host.Outcome.next ((State.dbgRequest_ok h hlevel _).trans ?_)
  simp only [hok, Bool.false_eq_true, if_false]

/-- Lays that are all on and FROZEN go on one by one, and then the Lanyard where it is named. -/
theorem exec_dbgRun_frozen {mask : BitVec 8} {lany : Bool} (h : (s.at t).dbgHears) (hlevel : 3 ≤ (s.at t).dbgLevel)
    (hall : ∀ m ∈ lays mask.toNat, (s.at t).domOn (3 + m) = true ∧ (s.at t).laySt m = 5) :
    exec (.dbgRun (dbgParity 6 0 false (mask.toNat + 256 * lany.toNat) 0) mask lany t) s = .next (
      let y := (lays mask.toNat).foldl (fun (s : State) n => s.thawLay n 0) ((s.at t).ack 1)
      if lany then y.runLany else y) := by
  have hok : (lays mask.toNat).any (fun n => !((s.at t).ack 1).domOn (3 + n) || ((s.at t).ack 1).laySt n ≠ 5) = false := by
    rw [List.any_eq_false]
    intro m hm
    obtain ⟨hd, hst⟩ := hall m hm
    change ¬(!(s.at t).domOn (3 + m) || (s.at t).laySt m ≠ 5) = true
    simp [hd, hst]
  refine congrArg Host.Outcome.next ((State.dbgRequest_ok h hlevel _).trans ?_)
  simp only [hok, Bool.false_eq_true, if_false]

section
variable {lay : Fin 8} {count : BitVec 16}

theorem exec_dbgStep_lay (h : (s.at t).dbgHears) (hlevel : 3 ≤ (s.at t).dbgLevel) (hd : (s.at t).domOn (3 + lay.val) = true)
    (hst : (s.at t).laySt lay.val = 5) (hcount : count ≠ 0) :
    exec (.dbgStep (dbgParity 7 0 false (lay.val + 65536 * count.toNat) 0) lay false count t) s =
      .next (((s.at t).ack 1).thawLay lay.val (count.toNat + 1)) := by
  have hd' : ((s.at t).ack 1).domOn (3 + lay.val) = true := hd
  have hst' : ((s.at t).ack 1).laySt lay.val = 5 := hst
  refine congrArg Host.Outcome.next ((State.dbgRequest_ok h hlevel _).trans ?_)
  simp only [hd', hst', hcount, Bool.not_true, ne_eq, not_true, decide_false, Bool.or_self, Bool.false_eq_true, if_false]

/-- A step of the Lanyard lets it run its instruction and holds it again. -/
theorem exec_dbgStep_lany (h : (s.at t).dbgHears) (hlevel : 3 ≤ (s.at t).dbgLevel) :
    exec (.dbgStep (dbgParity 7 0 false (lay.val + 8 + 65536 * count.toNat) 0) lay true count t) s =
      .next ((s.at t).ack 1).runLany.haltLany :=
  congrArg Host.Outcome.next (State.dbgRequest_ok h hlevel _)

theorem exec_dbgStepEnd_last (hd : s.domOn (3 + lay.val) = true) (hst : s.laySt lay.val = 3 ∨ s.laySt lay.val = 4)
    (hlast : (s.lay lay.val).stepLeft = 1) : exec (.dbgStepEnd lay) s = .next (s.freezeLay lay.val 3 0 false) := by
  have hgo : (s.domOn (3 + lay.val) && (s.laySt lay.val = 3 || s.laySt lay.val = 4) && (s.lay lay.val).stepLeft = 1) = true := by
    simpa [hd, hlast] using hst
  exact congrArg Host.Outcome.next (if_pos hgo)

theorem exec_layBreakpointFreeze_hit {k j : Nat} {rest : List (Nat × Nat)} (hd : s.domOn (3 + lay.val) = true)
    (hhits : s.breakHits lay.val = (k, j) :: rest) :
    exec (.layBreakpointFreeze lay) s = .next (s.freezeLay lay.val (1 + j) k (decide (rest ≠ []))) := by
  change execLayBreakpointFreeze lay s = _
  simp only [execLayBreakpointFreeze, hd, hhits, Bool.not_true, Bool.false_eq_true, if_false]

end

theorem exec_lanyardBreakpoint_hit {a : BitVec 19} (hruns : (s.at t).lanyRuns = true) (hhit : (s.at t).lanyBreaks a.toNat = true) :
    exec (.lanyardBreakpoint a t) s = .next (s.at t).haltLany := by
  change execLanyardBreakpoint a t s = _
  simp only [execLanyardBreakpoint, hruns, hhit, Bool.and_self, if_true]

end

end Sys2Proof.Machine
end

section
/-! PROOFS. The statements about the debug port's requests, and about freezing, stepping and authentication. -/

namespace Sys2Proof.Machine

/-- Settles O37: a request that the port hears, of the right parity and at the level it needs, has its effect; one of the wrong parity is a FAULT. That
a write to the memory of a Lanyard which is not halted is answered FAULT with cause STATE (log entry 32, DEDUCED) is the model's reading. -/
theorem debugRequests : Obligations.DebugRequests := by
  unfold Obligations.DebugRequests
  intro s t sp w64 a v served word rw x sought e p P r hears n d ready
  refine ⟨exec_dbgLineReset_on, fun h => congrArg Host.Outcome.next (State.dbgRequest_free h _),
    fun h => congrArg Host.Outcome.next (State.dbgRequest_free h _), fun h => congrArg Host.Outcome.next (State.dbgRequest_free h _),
    exec_dbgRead_served, fun h hlevel hspace hserved => ?_, exec_dbgNewchal_drawn,
    fun h => congrArg Host.Outcome.next (State.dbgRequest_free h _), exec_dbgResp_word, exec_dbgAuth_passed,
    fun h hlevel => congrArg Host.Outcome.next (State.dbgRequest_ok h hlevel _),
    fun h hp => congrArg Host.Outcome.next (State.dbgRequest_parity h hp _)⟩
  rw [hserved]
  exact exec_dbgWrite_served h hlevel hspace

/-- Settles O38: lays in the right state are halted, run and stepped, a breakpoint or the end of a step freezes, and a check ends as it came out. -/
theorem debugControl : Obligations.DebugControl := by
  unfold Obligations.DebugControl
  intro s t mask lany lay count a k j rest r n P hears
  have hport (h : hears) : (s.at t).dbgHears ∧ 3 ≤ (s.at t).dbgLevel := by
    obtain ⟨hd, hdeaf, hlcs, hlevel⟩ := h
    exact ⟨⟨hd, hdeaf, hlcs⟩, hlevel⟩
  refine ⟨fun h => exec_dbgHalt_running (hport h).1 (hport h).2, fun h => exec_dbgRun_frozen (hport h).1 (hport h).2,
    fun h => exec_dbgStep_lay (hport h).1 (hport h).2, fun h => exec_dbgStep_lany (hport h).1 (hport h).2, exec_dbgStepEnd_last,
    exec_layBreakpointFreeze_hit, exec_lanyardBreakpoint_hit, fun hd hcheck hfresh hlcs hsought hgood => ?_, exec_dbgAuthComplete_used⟩
  rw [exec_dbgAuthComplete_full hd hcheck hfresh hlcs hsought hgood, State.authEnds, hsought]
  rfl

end Sys2Proof.Machine
end

section
/-! SUPPORT. Laws of the power line's zero crossings, beacons, start-up and slot maps (R400, R403 to R408, R413, R414). -/

namespace Sys2Proof.Machine

section
variable {s : State} {t : Nat} {phase : Fin 3}

/-! ### Zero crossings (R400, R408) -/

/-- An edge by the time since the last: the first, one outside the range of the mains, or a good one, of which the 16th makes the phase good. -/
theorem exec_zeroCrossingEdge_on (hd : (s.at t).domOn 12 = true) (hnet : (s.at t).netOn = true) :
    exec (.zeroCrossingEdge phase t) s = .next (
      let y := s.at t
      let n := phase.val + 1
      let now := y.tsuTime.sec * 1000000000 + y.tsuTime.ns
      let last := look (fun _ => 0) y.plc.edge n
      let d := now - last
      let z := { y with plc := { y.plc with edge := Machine.store (fun _ => 0) y.plc.edge n now } }
      if last = 0 then z
      else if d < 15150000 ∨ 22222000 < d then z.zcLost n
      else
        let g := min 16 (look (fun _ => 0) z.plc.good n + 1)
        let l := (d :: look (fun _ => []) z.plc.ivls n).take 16
        let w := { z with plc := { z.plc with
          good := Machine.store (fun _ => 0) z.plc.good n g, ivls := Machine.store (fun _ => []) z.plc.ivls n l } }
        (if g = 16 then (w.setZc n true).setLost n false else w).mainsUpdate) := by
  have hgo : ¬(!(s.at t).domOn 12 || !(s.at t).netOn) = true := by
    rw [hd, hnet]
    decide
  exact congrArg Host.Outcome.next (if_neg hgo)

theorem exec_zeroCrossingLoss_due (hd : (s.at t).domOn 12 = true)
    (hdue : look (fun _ => 0) (s.at t).plc.edge (phase.val + 1) +
      3 * (if (s.at t).mainsPeriod = 0 then 22222000 else (s.at t).mainsPeriod) ≤ (s.at t).tsuTime.sec * 1000000000 + (s.at t).tsuTime.ns) :
    exec (.zeroCrossingLoss phase t) s = .next ((s.at t).zcLost (phase.val + 1)) := by
  change execZeroCrossingLoss phase t s = _
  simp only [execZeroCrossingLoss, hd, hdue, decide_true, Bool.and_self, if_true]

/-! ### Beacons and start-up (R403 to R405, R407) -/

/-- The beacon after the one that is due. -/
def State.nextBeacon (s : State) : State := { s with plc := { s.plc with due := s.plc.due + s.bcnPeriod } }

/-- A beacon that is due is skipped when it is late by more than half the period, waits while the channel is not free, and else is sent. -/
theorem exec_beaconSend_due {receiving : Bool} (hd : (s.at t).domOn 12 = true) (hen : (s.at t).bitAt (plcA 0x00C) 0 = true)
    (hfence : (s.at t).fenced = false) (hdue : (s.at t).plc.due ≤ (s.at t).now) :
    exec (.beaconSend receiving t) s = .next (
      let y := s.at t
      if y.plc.due + y.bcnPeriod / 2 < y.now then (y.nextBeacon.bumpF (plcA rPLC_BSEQ) 31 16 1).beaconOver y.now
      else if receiving || y.frontBusy 0 7 || (y.windowMet 0).isSome then y
      else y.nextBeacon.beacon) := by
  change execBeaconSend receiving t s = _
  simp only [execBeaconSend, hd, hen, hfence, Nat.not_lt.mpr hdue, decide_false, Bool.not_true, Bool.or_self, Bool.false_eq_true, if_false]
  rfl

theorem exec_plcStartupEnd_due {e : Nat} (hend : (s.at t).plc.startEnd = some e) (hdue : e ≤ (s.at t).now) (hd : (s.at t).domOn 12 = true) :
    exec (.plcStartupEnd t) s = .next (
      let a := (({ s.at t with plc := { (s.at t).plc with startEnd := none } } : State).putBit (plcA rPLC_STAT) 4 false).irq .plc 0 2
      ((a.nextRun 4).nextRun 5).nextRun 6) := by
  change execPlcStartupEnd t s = _
  simp only [execPlcStartupEnd, hend, Nat.not_lt.mpr hdue, hd, Bool.not_true, Bool.false_eq_true, or_self, if_false, List.foldl_cons, List.foldl_nil]

/-! ### Slot maps (R413, R414) -/

/-- A cause writes BLK_ERR of its page, and at most the count of pulses lost. -/
theorem State.rd_cause_other {p : Pg} {inst i a : Nat} (herr : a ≠ pa p inst 0x014) (hlost : a ≠ pa .fc 0 rFC_LOST_CNT) :
    (s.cause p inst i).rd a = s.rd a := by
  have hset : (s.putBit (pa p inst 0x014) i true).rd a = s.rd a := State.rd_putBit_other s i true herr
  have hpulse (u : State) (src : Nat) : (u.pulse src).rd a = u.rd a := by
    unfold State.pulse
    split
    · rfl
    · split
      · exact (State.rd_wr u _ a _).trans (if_neg hlost)
      · split <;> rfl
  unfold State.cause
  dsimp only
  split
  · split
    · rw [hpulse, hset]
    · exact hset
  · exact hset

/-- The registers that say whether a phase's port works are none that a cause of the power line writes. -/
theorem macOn_registers : ∀ phase : Fin 3, ∀ a ∈ [domReg 12, pa (macPg (phase.val + 4)) (macInst (phase.val + 4)) 0x00C, plcA 0x00C,
    pmxA (rPMX_OWN + 4 * (32 + (phase.val + 4)))], a ≠ pa .plc 0 0x014 ∧ a ≠ pa .fc 0 rFC_LOST_CNT := by
  decide

/-- Reading a slot's word leaves the port as it works. -/
theorem State.macOn_slotRead (i : Nat) : (s.slotRead (phase.val + 4) i).macOn (phase.val + 4) = s.macOn (phase.val + 4) := by
  unfold State.slotRead
  dsimp only
  split
  · have hreg := macOn_registers phase
    have hrd {a : Nat} (ha : a ∈ _) := State.rd_cause_other (s := s.setNb (phase.val + 4) i { (s.port7 (phase.val + 4)).nb i with
      mapBad := false, extSeen := false, snr := [] }) (p := .plc) (inst := 0) (i := 1) (hreg a ha).1 (hreg a ha).2
    simp only [State.macOn, State.domOn, State.ownsBalls, State.pmxFunc, State.fld, State.bitAt, hrd (a := domReg 12) (by simp),
      hrd (a := pa (macPg (phase.val + 4)) (macInst (phase.val + 4)) 0x00C) (by simp), hrd (a := plcA 0x00C) (by simp),
      hrd (a := pmxA (rPMX_OWN + 4 * (32 + (phase.val + 4)))) (by simp)]
    rfl
  · rfl

/-- A map that a peer asked for, none sent before, is sent secured where some slot of it is not SKIP. -/
theorem exec_slotTmrSend_first {i : BitVec 11} (hon : (s.at t).macOn (phase.val + 4) = true)
    (hvalid : ((((s.at t).slotRead (phase.val + 4) i.toNat).port7 (phase.val + 4)).nb i.toNat).valid = true)
    (hdue : ((((s.at t).slotRead (phase.val + 4) i.toNat).port7 (phase.val + 4)).nb i.toNat).tmrDue = true)
    (hfirst : ((((s.at t).slotRead (phase.val + 4) i.toNat).port7 (phase.val + 4)).nb i.toNat).tx = [])
    (hsome : ∃ x ∈ ((s.at t).slotRead (phase.val + 4) i.toNat).slotMap
      ((((s.at t).slotRead (phase.val + 4) i.toNat).port7 (phase.val + 4)).nb i.toNat), x % 8 ≠ 7) :
    exec (.slotTmrSend phase i t) s = .next (
      let m := phase.val + 4
      let h := (s.at t).slotRead m i.toNat
      let n := (h.port7 m).nb i.toNat
      let b := (h.bitAt (plcA rPLC_CFG) 1).toNat * 16 + (decide (n.rx = [])).toNat * 32
      ((h.setNb m i.toNat { n with tx := h.slotMap n, txId := 0, tmrAt := some h.now, tmrDue := false }).ownCommand m n
        (toBe 1 0xE1 ++ toBe 1 (0 + b) ++ (h.slotMap n).flatMap (fun e => toBe 4 e))).nextRun m) := by
  have hon' := (State.macOn_slotRead (s := s.at t) (phase := phase) i.toNat).trans hon
  have hmap : (((s.at t).slotRead (phase.val + 4) i.toNat).slotMap
      ((((s.at t).slotRead (phase.val + 4) i.toNat).port7 (phase.val + 4)).nb i.toNat)).all (fun e => decide (e % 8 = 7)) = false := by
    simpa using hsome
  change execSlotTmrSend phase i t s = _
  simp only [execSlotTmrSend, hon, if_true, hon', hvalid, hdue, hfirst, hmap, Bool.not_true, Bool.or_self, Bool.true_or, Bool.false_eq_true,
    if_false, ne_eq, not_true, and_false, Nat.add_assoc]

end

end Sys2Proof.Machine
end

section
/-! PROOFS. The statement about the power line's zero crossings, beacons, start-up and slot maps. -/

namespace Sys2Proof.Machine

/-- Settles O50: an edge is decided by the time since the last, and the other events act once their condition is met. That a phase is lost after three
of the longest period before P is measured (R400; log entry 24, DESIGN CHOICE) is the model's reading. -/
theorem powerLineCommands : Obligations.PowerLineCommands := by
  unfold Obligations.PowerLineCommands
  intro s t phase e i y n now last z g w next beacons m h nb
  refine ⟨fun hd hnet hfirst => ?_, fun hd hnet hlater hrange => ?_, fun hd hnet hlater hlo hhi hfew => ?_, fun hd hnet hlater hlo hhi hfull => ?_,
    exec_zeroCrossingLoss_due, fun hb hnear => ⟨fun hquiet hno => ?_, fun hbusy => ?_, ?_⟩, fun hb hlate receiving => ?_, exec_plcStartupEnd_due,
    exec_slotTmrSend_first⟩
  · exact (exec_zeroCrossingEdge_on hd hnet).trans (congrArg _ (if_pos hfirst))
  · exact (exec_zeroCrossingEdge_on hd hnet).trans (congrArg _ ((if_neg hlater).trans (if_pos hrange)))
  · exact (exec_zeroCrossingEdge_on hd hnet).trans (congrArg _ ((if_neg hlater).trans ((if_neg (not_or.mpr ⟨Nat.not_lt.mpr hlo, Nat.not_lt.mpr hhi⟩)).trans
      (congrArg State.mainsUpdate (if_neg hfew.ne)))))
  · exact (exec_zeroCrossingEdge_on hd hnet).trans (congrArg _ ((if_neg hlater).trans ((if_neg (not_or.mpr ⟨Nat.not_lt.mpr hlo, Nat.not_lt.mpr hhi⟩)).trans
      (congrArg State.mainsUpdate (if_pos hfull)))))
  all_goals obtain ⟨hd, hen, hfence, hdue⟩ := hb
  · refine (exec_beaconSend_due hd hen hfence hdue).trans (congrArg _ ((if_neg (Nat.not_lt.mpr hnear)).trans (if_neg ?_)))
    rw [hquiet, hno]
    decide
  · refine (exec_beaconSend_due hd hen hfence hdue).trans (congrArg _ ((if_neg (Nat.not_lt.mpr hnear)).trans (if_pos ?_)))
    simpa using hbusy
  · exact (exec_beaconSend_due hd hen hfence hdue).trans (congrArg _ ((if_neg (Nat.not_lt.mpr hnear)).trans (if_pos (by simp))))
  · exact (exec_beaconSend_due hd hen hfence hdue).trans (congrArg _ (if_pos hlate))

end Sys2Proof.Machine
end

section
/-! SUPPORT. Laws of the TSU (R427 to R437, R440, R457): its marks, the messages it takes and sends, the servo, steps, captures and the PPS output. -/

namespace Sys2Proof.Machine

/-! ### A pass over numbers of which one acts -/

theorem foldl_of_idle {α β : Type} {f : α → β → α} {x : α} {l : List β} (h : ∀ j ∈ l, f x j = x) : l.foldl f x = x := by
  induction l with
  | nil => rfl
  | cons j l ih =>
    rw [List.foldl_cons, h j List.mem_cons_self]
    exact ih fun i hi => h i (List.mem_cons_of_mem j hi)

/-- Where one number alone acts, before and after it has acted, a pass over all is that number's action. -/
theorem foldl_of_one {α β : Type} {f : α → β → α} {x y : α} {k : β} {l : List β} (hmem : k ∈ l) (hnodup : l.Nodup) (hact : f x k = y)
    (hidle : ∀ j ∈ l, j ≠ k → f x j = x ∧ f y j = y) : l.foldl f x = y := by
  obtain ⟨before, after, rfl⟩ := List.append_of_mem hmem
  obtain ⟨-, hrest, hdisjoint⟩ := List.nodup_append.mp hnodup
  have hbefore : before.foldl f x = x := foldl_of_idle fun j hj =>
    (hidle j (List.mem_append_left _ hj) (hdisjoint j hj k List.mem_cons_self)).1
  have hafter : after.foldl f y = y := foldl_of_idle fun j hj =>
    (hidle j (List.mem_append_right _ (List.mem_cons_of_mem k hj)) fun h => (List.nodup_cons.mp hrest).1 (h ▸ hj)).2
  rw [List.foldl_append, hbefore, List.foldl_cons, hact, hafter]

section
variable {s : State} {q : Requester} {t n : Nat}

/-! ### Marks and the PPS output (R440, R457) -/

theorem exec_intervalMark_due (hnet : (s.at t).netOn = true)
    (hnew : (s.at t).tsuTime.lastEnd.any (fun e =>
      decide ((s.at t).tsuTime.sec / (60 * (s.at t).tsuTime.minutes) * (60 * (s.at t).tsuTime.minutes) ≤ e)) = false) :
    exec (.intervalMark t) s = .next (
      let b := (s.at t).tsuTime.sec / (60 * (s.at t).tsuTime.minutes) * (60 * (s.at t).tsuTime.minutes)
      (s.at t).markBoundary b b 0) := by
  change execIntervalMark t s = _
  simp only [execIntervalMark, hnet, hnew, Bool.not_true, Bool.or_self, Bool.false_eq_true, if_false]

theorem exec_tsuSecondBoundary_ball (hat : (s.at t).atSecond = true) (hball : (s.at t).ppsBall = some n) :
    exec (.tsuSecondBoundary t) s = .next (((s.at t).ballLevel n true).setTimer (tsuA rTSU_PPS)
      ((s.at t).now + (s.at t).fld (tsuA rTSU_PPS) 9 0 * 1000000)) := by
  change execTsuSecondBoundary t s = _
  simp only [execTsuSecondBoundary, hat, hball, if_true]

theorem exec_ppsPulseEnd_over (hrun : (s.at t).timer (tsuA rTSU_PPS) ≠ 0) (hover : (s.at t).timer (tsuA rTSU_PPS) ≤ (s.at t).now)
    (hball : ((s.at t).setTimer (tsuA rTSU_PPS) 0).ppsBall = some n) :
    exec (.ppsPulseEnd t) s = .next (((s.at t).setTimer (tsuA rTSU_PPS) 0).ballLevel n false) := by
  change execPpsPulseEnd t s = _
  simp only [execPpsPulseEnd, hrun, Nat.not_lt.mpr hover, hball, or_self, if_false]

/-- A write of TSU_PPS where EN was clear claims the ball that EN names. -/
theorem State.ppsWrite_of_takes {v : Word32} (hoff : bit (s.rd (tsuA rTSU_PPS)) 31 = false) (h : s.takes q (tsuA rTSU_PPS) v false) :
    s.ppsWrite q v =
      let e := s.plain (tsuA rTSU_PPS) (v.setWidth 64)
      if bit v 31 then (e.blockClaim (bits v 20 16) 3).2 else e := by
  rw [State.ppsWrite, State.guarded_of_takes h]
  simp only [hoff, Bool.false_eq_true, false_and, if_false]

/-! ### Messages (R433, R434, R436) -/

section
variable {port : Nat} {overUdp : Bool} {mac : BitVec 48} {m : List Byte}

/-- A message of the supported subset goes to the Lanyard with its stamp. -/
theorem State.ptpTake_supported (hnet : s.netOn = true) (h : s.ptpSupported port overUdp mac m = true) :
    s.ptpTake port overUdp mac m = { s with ptp := s.ptp ++ [(port, (s.ingressStamp port).toNat, m)] } := by
  simp only [State.ptpTake, hnet, h, Bool.not_true, Bool.false_eq_true, if_false, if_true]

theorem State.ptpTake_other (hnet : s.netOn = true) (h : s.ptpSupported port overUdp mac m = false) :
    s.ptpTake port overUdp mac m = s.bumpF (tsuA rTSU_PTP_DISC) 15 0 1 := by
  simp only [State.ptpTake, hnet, h, Bool.not_true, Bool.false_eq_true, if_false]

end

section
variable {port : Fin 6} {m : List Byte} (hnet : (s.at t).netOn = true)
include hnet

theorem exec_ptpMessageSend_not (hno : (s.at t).ptpSends port.val m = false) (late : Bool) :
    exec (.ptpMessageSend port m late t) s = .next (s.at t) := by
  change execPtpMessageSend port m late t s = _
  simp only [execPtpMessageSend, hnet, hno, Bool.not_true, Bool.not_false, Bool.or_true, if_true]

variable (hsends : (s.at t).ptpSends port.val m = true)
include hsends

/-- A message that carries no stamp of its own goes as the TSU fills it. -/
theorem exec_ptpMessageSend_general (hkind : ¬(ptpType m = 0 ∨ ptpType m = 3)) (late : Bool) :
    exec (.ptpMessageSend port m late t) s = .next ((s.at t).ptpOut port.val ((s.at t).ptpFill port.val m)) := by
  change execPtpMessageSend port m late t s = _
  simp only [execPtpMessageSend, hnet, hsends, hkind, decide_false, Bool.not_true, Bool.not_false, Bool.or_self, Bool.false_eq_true, if_false,
    if_true]

/-- A Sync or Pdelay_Resp is sent two-step by a port that stamps in software or cannot complete it in time, and else completed as it leaves. -/
theorem exec_ptpMessageSend_event (hkind : ptpType m = 0 ∨ ptpType m = 3) (late : Bool) :
    exec (.ptpMessageSend port m late t) s = .next (
      let y := s.at t
      let w := y.ptpFill port.val m
      if y.softStamp port.val then y.ptpOut port.val (twoStep w)
      else if late then (y.bumpF (tsuA rTSU_PTP_DISC) 31 16 1).ptpOut port.val (twoStep w)
      else y.ptpOut port.val (y.ptpComplete port.val w)) := by
  change execPtpMessageSend port m late t s = _
  simp only [execPtpMessageSend, hnet, hsends, hkind, decide_true, Bool.not_true, Bool.or_self, Bool.false_eq_true, if_false]

end

/-! ### The servo, steps and slews (R427 to R431) -/

/-- The bound on a backward step in nanoseconds. -/
def State.backLimit (s : State) : Int := (s.fld (tsuA rTSU_STEP_BACK_LIMIT) 19 0 * 1000 : Nat)

theorem State.backLimit_nonneg (s : State) : 0 ≤ s.backLimit := Int.natCast_nonneg _

/-- A measurement recorded with its port, of the source selected. -/
def State.measured (s : State) (x : BitVec 64) (p : Nat) : State :=
  let u := (s.wr64 (tsuA rTSU_OFFSET) x).putF (tsuA rTSU_STAT) 10 8 p
  u.sourceSeen (u.fld (tsuA rTSU_CTRL) 1 0)

/-- The source that a measurement is of. -/
def State.measuredSource (s : State) (x : BitVec 64) (p : Nat) : Nat :=
  ((s.wr64 (tsuA rTSU_OFFSET) x).putF (tsuA rTSU_STAT) 10 8 p).fld (tsuA rTSU_CTRL) 1 0

/-- The rate the servo sets, where it is in range. -/
def State.servoRate (s : State) : Option (BitVec 32) → State
  | some f => if -rhoLimit ≤ signed 32 f.toNat ∧ signed 32 f.toNat ≤ rhoLimit then s.wr (tsuA rTSU_FREQ) f else s
  | none => s

/-- A measurement with no source selected only looks at the lock; else it is refused, or corrected by a slew within the limit and by a step beyond. -/
theorem exec_ptpOffsetMeasurement_on (hnet : (s.at t).netOn = true) (x : BitVec 64) (p : Fin 8) (freq : Option (BitVec 32)) :
    exec (.ptpOffsetMeasurement x p freq t) s = .next (
      let y := s.at t
      let d := signed 64 x.toNat
      let g := y.measured x p.val
      let z := (g.lockMeasure d.natAbs).putBit (tsuA rTSU_STAT) 5 false
      if y.measuredSource x p.val = 0 then g.lockMeasure d.natAbs
      else if y.backLimit < d ∨ (g.bitAt (tsuA rTSU_STAT) 5 = true ∧ d < -y.backLimit) then g.refuseStep d
      else if -y.backLimit ≤ d then (z.servoRate freq).loadSlew (BitVec.ofInt 32 (-d))
      else if (z.servoRate freq).stepBad (-d) then z.servoRate freq else (z.servoRate freq).applyStep (-d) false) := by
  have hgo : ¬(!(s.at t).netOn) = true := by simp [hnet]
  cases freq <;> exact congrArg Host.Outcome.next (if_neg hgo)

theorem exec_ptpSourceLoss_on (hnet : s.netOn = true) : exec .ptpSourceLoss s = .next ((s.setLocked false).putF (tsuA rTSU_STAT) 10 8 7) := by
  change execPtpSourceLoss s = _
  simp only [execPtpSourceLoss, hnet, Bool.not_true, Bool.false_eq_true, if_false]

theorem exec_slewDone_absorbed (hdone : (s.at t).slewLeft = 0) :
    exec (.slewDone t) s = .next { s.at t with tsuTime := { (s.at t).tsuTime with slewFrac := 0 } } := by
  change execSlewDone t s = _
  simp only [execSlewDone, hdone, if_true]

/-- A step that is taken is applied as the host's. -/
theorem State.tsuStepCtl_of_takes {v : Word32} (hgo : bit v 31 = true)
    (h : s.takes q (tsuA rTSU_STEP_CTL) v (q ≠ .host || s.stepBad s.stepValue)) :
    s.tsuStepCtl q v = s.applyStep s.stepValue true := by
  rw [State.tsuStepCtl, hgo, Bool.true_and, State.guarded_of_takes h, if_pos rfl]

/-! ### Captures (R437) -/

/-- A capture of a channel that is empty. -/
theorem State.captureOn_empty {k : Nat} (hempty : s.bitAt (tsuA (rTSU_CAPC + 8 * k)) 27 = false) :
    s.captureOn k = (((s.wr (tsuA (rTSU_CAP + 8 * k)) (BitVec.ofNat 32 ((s.tsuTime.sec * 1000000000 + s.tsuTime.ns) % 2 ^ 32))).putBit
      (tsuA (rTSU_CAPC + 8 * k)) 27 true).putF (tsuA (rTSU_CAPC + 8 * k)) 31 28 (s.fld (tsuA rTSU_STEP_CNT) 3 0)).irq .tsu 0 4 := by
  simp only [State.captureOn, hempty, Bool.false_eq_true, if_false]

/-- What a rising edge of a source does to a channel. -/
def State.edgeOn (src : BitVec 8) (s : State) (k : Nat) : State :=
  if s.fld (tsuA (rTSU_CAPC + 8 * k)) 7 0 = src.toNat && s.bitAt (tsuA (rTSU_CAPC + 8 * k)) 8 then s.captureOn k else s

theorem State.edgeOn_other {src : BitVec 8} {k : Nat} (h : s.fld (tsuA (rTSU_CAPC + 8 * k)) 7 0 ≠ src.toNat) : s.edgeOn src k = s := by
  simp only [State.edgeOn, h, decide_false, Bool.false_and, Bool.false_eq_true, if_false]

theorem exec_captureEdge_rising {src : BitVec 8} (hnet : (s.at t).netOn = true) (hsrc : src ≠ 0) :
    exec (.captureEdge src true t) s = .next ((List.range 8).foldl (fun u k => u.edgeOn src k) (s.at t)) := by
  change execCaptureEdge src true t s = _
  simp only [execCaptureEdge, hnet, hsrc, Bool.not_true, Bool.false_eq_true, or_self, if_false]
  rfl

end

end Sys2Proof.Machine
end

section
/-! PROOFS. The statement about the TSU's commands. -/

namespace Sys2Proof.Machine

/-- Settles O51: each command of the TSU acts once its condition is met. The offsets and octets of the messages (log entry 21, PRESUMED), and that a
message given as an operand is filled by the TSU (log entry 21, DESIGN CHOICE), are the model's readings. -/
theorem tsuCommands : Obligations.TsuCommands := by
  unfold Obligations.TsuCommands
  intro s q t port p v o x late m src n k mac overUdp y len b S d l src2 g z w sends c
  refine ⟨fun hnet hnone => exec_intervalMark_due hnet (by rw [hnone]; rfl), fun hnet hlast hold => ?_, exec_tsuSecondBoundary_ball,
    exec_ppsPulseEnd_over, fun hnet hmac hen hlong hver hkind hdom => ?_, fun hnet hother => ?_, fun hnet hno => exec_ptpMessageSend_not hnet hno late,
    fun hs h0 h3 => exec_ptpMessageSend_general hs.1 hs.2 (not_or.mpr ⟨h0, h3⟩) late, fun hs hkind => ⟨fun hsoft => ?_, fun hhard => ?_, fun hhard => ?_⟩,
    fun hnet hsrc => ?_, fun hnet hsrc => ?_, exec_ptpSourceLoss_on, fun h => congrArg Host.Outcome.next (State.guarded_of_takes h),
    exec_slewDone_absorbed, fun h => congrArg Host.Outcome.next (State.tsuStepCtl_of_takes rfl h),
    fun hnet hsrc hk hmine hrise hothers hempty => ?_, fun h => ?_⟩
  · refine exec_intervalMark_due hnet ?_
    rw [hlast]
    exact decide_eq_false (Nat.not_le.mpr hold)
  · refine congrArg Host.Outcome.next (State.ptpTake_supported hnet ?_)
    simp only [State.ptpSupported, Bool.and_eq_true, decide_eq_true_eq, List.contains_iff_mem]
    exact ⟨⟨⟨⟨⟨⟨rfl, hmac⟩, hen⟩, hlong⟩, hver⟩, hkind⟩, hdom⟩
  · refine congrArg Host.Outcome.next (State.ptpTake_other hnet ?_)
    rcases hother with hmac | hudp
    · simp [State.ptpSupported, hmac]
    · simp [State.ptpSupported, hudp]
  · exact (exec_ptpMessageSend_event hs.1 hs.2 hkind late).trans (congrArg _ (if_pos hsoft))
  · exact (exec_ptpMessageSend_event hs.1 hs.2 hkind true).trans (congrArg _ (if_neg (Bool.eq_false_iff.mp hhard)))
  · exact (exec_ptpMessageSend_event hs.1 hs.2 hkind false).trans (congrArg _ (if_neg (Bool.eq_false_iff.mp hhard)))
  · exact (exec_ptpOffsetMeasurement_on hnet x p (some o)).trans (congrArg _ (if_pos hsrc))
  · have hmeas (freq : Option (BitVec 32)) := (exec_ptpOffsetMeasurement_on hnet x p freq).trans (congrArg Host.Outcome.next (if_neg hsrc))
    have hslew {freq : Option (BitVec 32)} (hlo : -l ≤ d) (hhi : d ≤ l) :
        exec (.ptpOffsetMeasurement x p freq t) s = .next ((z.servoRate freq).loadSlew (BitVec.ofInt 32 (-d))) :=
      (hmeas freq).trans (congrArg _ ((if_neg (by rintro (h | ⟨-, h⟩) <;> exact absurd h (not_lt.mpr ‹_›))).trans (if_pos hlo)))
    refine ⟨fun hrefused => (hmeas none).trans (congrArg _ (if_pos hrefused)), fun hlo hhi => hslew hlo hhi, fun hlo hhi hout => ?_,
      fun hlo hhi hmin hmax => ?_, fun hback hgood hstep => ?_⟩
    · rw [hslew hlo hhi, State.servoRate, if_neg (by omega)]
    · rw [hslew hlo hhi, State.servoRate, if_pos ⟨hmin, hmax⟩]
    · have hl : 0 ≤ l := State.backLimit_nonneg y
      refine (hmeas none).trans (congrArg _ ((if_neg ?_).trans ((if_neg (not_le.mpr hback)).trans (if_neg (Bool.eq_false_iff.mp hstep)))))
      rintro (h | ⟨h, -⟩)
      · exact absurd (h.trans (hback.trans_le ((neg_nonpos.mpr hl).trans hl))) (lt_irrefl _)
      · exact absurd h (Bool.eq_false_iff.mp hgood)
  · rw [exec_captureEdge_rising hnet hsrc]
    refine congrArg Host.Outcome.next (foldl_of_one (List.mem_range.mpr hk) List.nodup_range ?_ fun j hj hne => ?_)
    · rw [State.edgeOn, if_pos (by rw [decide_eq_true hmine, hrise]; rfl), State.captureOn_empty hempty]
    · obtain ⟨hy, hc⟩ := hothers j (List.mem_range.mp hj) hne
      exact ⟨State.edgeOn_other hy, State.edgeOn_other hc⟩
  · intro e hoff
    exact ⟨fun hno => congrArg Host.Outcome.next ((State.ppsWrite_of_takes hoff h).trans (if_neg (Bool.eq_false_iff.mp hno))),
      fun hen => congrArg Host.Outcome.next ((State.ppsWrite_of_takes hoff h).trans (if_pos hen))⟩

end Sys2Proof.Machine
end

section
/-! SUPPORT. Laws of the RTC (R445 to R454, R458): its second, halt, time, discipline, calendar, oscillator, supplies and backup domain. -/

namespace Sys2Proof.Machine

section
variable {s : State} {q : Requester} {t : Nat}

/-! ### The second (R445, R448, R450) -/

/-- The second that the carry makes. -/
def State.secondAfter (s : State) : Nat := (s.rtcSec + 1) % 2 ^ 40

/-- The time register carried to the next second, its tick whole. -/
def State.carried (s : State) (sec : Nat) : State :=
  let u := s.wr64 (rtcA rRTC_TIME) (BitVec.ofNat 64 (sec * 2 ^ 15))
  { u with rtc := { u.rtc with sub := 0 } }

/-- The weekday moves on where a day begins. -/
def State.weekday (s : State) (sec : Nat) : State :=
  if ((sec : Int) - s.fld (rtcA rRTC_DAY_OFS) 16 0) % 86400 = 0 then
    s.putF (rtcA rRTC_WDAY) 2 0 ((s.fld (rtcA rRTC_WDAY) 2 0 + 1) % 7)
  else s

/-- The alarm set for a second is an interrupt and a wake. -/
def State.alarmAt (s : State) (sec : Nat) : State :=
  if bit (s.rd64 (rtcA rRTC_ALARM)) 63 ∧ bits (s.rd64 (rtcA rRTC_ALARM)) 39 0 = sec then (s.irq .rtc 0 0).wakeUp 1 else s

theorem State.alarmAt_quiet {sec : Nat} (h : bit (s.rd64 (rtcA rRTC_ALARM)) 63 = false ∨ bits (s.rd64 (rtcA rRTC_ALARM)) 39 0 ≠ sec) :
    s.alarmAt sec = s :=
  if_neg fun ⟨hset, hnow⟩ => h.elim (fun hoff => Bool.false_ne_true (hoff.symm.trans hset)) fun hother => hother hnow

/-- The carry of an RTC that runs and is not held: the time, the weekday, then the alarm. -/
theorem exec_rtcSecondCarry_runs (hrun : (s.at t).rtcRuns = true) (hold : (s.at t).rtc.hold = 0) :
    exec (.rtcSecondCarry t) s =
      .next ((((s.at t).carried (s.at t).secondAfter).weekday (s.at t).secondAfter).alarmAt (s.at t).secondAfter) := by
  have hgo : ¬((!(s.at t).rtcRuns) = true ∨ 0 < (s.at t).rtc.hold) := by simp [hrun, hold]
  exact congrArg Host.Outcome.next (if_neg hgo)

/-- The weekday register is none of the alarm's. -/
theorem State.rd64_alarm_weekday (hi lo v : Nat) : (s.putF (rtcA rRTC_WDAY) hi lo v).rd64 (rtcA rRTC_ALARM) = s.rd64 (rtcA rRTC_ALARM) := by
  have hne : ∀ a, a = rtcA rRTC_ALARM ∨ a = rtcA rRTC_ALARM + 4 → a ≠ rtcA rRTC_WDAY := by
    rintro a (rfl | rfl) <;> decide
  simp only [State.rd64, State.putF, State.rd_wr, hne _ (.inl rfl), hne _ (.inr rfl), if_false]

/-! ### Halt and time (R446, R447) -/

theorem bit_or_one (w : Word32) : bit (w ||| 1) 0 = true := by
  simp [bit]

theorem bit_and_not_one (w : Word32) : bit (w &&& ~~~1) 0 = false := by
  simp [bit]

/-- A write that leaves HALT as it is, or sets it, is a write of the register's fields. -/
theorem State.rtcCtrl_holds {v : Word32} (hno : s.bitAt (rtcA rRTC_CTRL) 0 = false ∨ bit v 0 = true) (h : s.takes q (rtcA rRTC_CTRL) v false) :
    s.rtcCtrl q v = s.plain (rtcA rRTC_CTRL) (v.setWidth 64) := by
  have hstays : (s.bitAt (rtcA rRTC_CTRL) 0 && !bit v 0) = false := by
    rcases hno with h0 | h1
    · rw [h0, Bool.false_and]
    · rw [h1, Bool.not_true, Bool.and_false]
  rw [State.rtcCtrl, State.guarded_of_takes h]
  simp only [hstays, Bool.false_eq_true, if_false]

/-- A write that clears HALT lets the count go on from the second cycle (log entry 21). -/
theorem State.rtcCtrl_resumes {v : Word32} (hhalt : s.bitAt (rtcA rRTC_CTRL) 0 = true) (hclear : bit v 0 = false)
    (h : s.takes q (rtcA rRTC_CTRL) v false) :
    s.rtcCtrl q v =
      let g := s.plain (rtcA rRTC_CTRL) (v.setWidth 64)
      { g with rtc := { g.rtc with hold := max 1 g.rtc.hold } } := by
  rw [State.rtcCtrl, State.guarded_of_takes h]
  simp only [hhalt, hclear, Bool.not_false, Bool.and_self, if_true]

/-- How far the RTC is ahead of the TSU's second, in its ticks. -/
def State.discError (s : State) : Int := (s.rtcSec * 32768 + s.rtcFrac : Nat) - (s.tsuTime.sec % 2 ^ 40 * 32768 : Nat)

/-- The discipline records the error, and corrects it by its size. -/
theorem exec_rtcDiscipline_active (hact : (s.at t).discActive = true) :
    exec (.rtcDiscipline t) s = .next (
      let e := (s.at t).discError
      let w := (s.at t).wr (rtcA rRTC_DISC_ERR) (BitVec.ofInt 32 (clampI (-(2 ^ 31)) (2 ^ 31 - 1) e))
      if e < 0 then w.setRtc (s.at t).tsuTime.sec 0
      else if e = 0 then w
      else if e ≤ 32768 then { w with rtc := { w.rtc with hold := e.toNat } }
      else ((w.setRtc (s.at t).tsuTime.sec 0).putBit (rtcA rRTC_STAT) 6 true).irq .rtc 0 2) := by
  have hgo : ¬(!(s.at t).discActive) = true := by simp [hact]
  exact congrArg Host.Outcome.next (if_neg hgo)

/-! ### The calendar (R449) -/

theorem exec_rtcCalRead_denied (hno : (s.at t).noAccess q = true) : exec (.rtcCalRead q t) s = .next { s.at t with rdata := 0 } :=
  congrArg Host.Outcome.next (if_pos hno)

theorem exec_rtcCalRead_allowed (ha : (s.at t).noAccess q = false) :
    exec (.rtcCalRead q t) s = .next
      (if (s.at t).srstBusy (rtcA rRTC_CAL_DATE) then { s.at t with rdata := 0 } else (s.at t).calDateRead q) :=
  congrArg Host.Outcome.next (if_neg (Bool.eq_false_iff.mp ha))

/-- The date waits for the time that its writer writes next. -/
def State.dateKept (s : State) (q : Requester) (date : Word32) : State :=
  { s.wr (rtcA rRTC_CAL_DATE) date with rtc := { s.rtc with dateBy := reqCode q } }

/-- A time written after its date by the same requester sets the RTC, where the two name a second. -/
theorem State.calTimeWrite_paired {time : Word32} {x : Nat} (hpaired : s.rtc.dateBy = reqCode q)
    (hsec : s.calSecond (s.rd (rtcA rRTC_CAL_DATE)) time = some x) (h : s.takes q (rtcA rRTC_CAL_TIME) time (!s.bitAt (rtcA rRTC_CTRL) 0)) :
    s.calTimeWrite q time =
      let g := (s.setRtc x 0).lanyEvent 0x13 []
      { g with rtc := { g.rtc with dateBy := 0 } } := by
  have hnone : decide ((some x : Option Nat) = none) = false := rfl
  simp only [State.calTimeWrite, hsec, hpaired, hnone, Bool.and_false, Bool.or_false, State.guarded_of_takes h, if_true]

/-! ### Supplies (R452, R458) -/

theorem exec_switchToVbat_low {main vbat : BitVec 12} (hmain : s.bitAt (rtcA rRTC_STAT) 1 = false) (hbat : 1900 ≤ vbat.toNat)
    (hlow : main.toNat < 2600 ∨ main.toNat < vbat.toNat) :
    exec (.switchToVbat main vbat) s =
      .next ((((s.mainAt main.toNat).bump (rtcA rRTC_BAT_CNT) 1).putBit (rtcA rRTC_STAT) 1 true).irq .rtc 0 1) := by
  have hgo : 1900 ≤ vbat.toNat ∧ (main.toNat < 2600 ∨ main.toNat < vbat.toNat) ∧ (!(s.mainAt main.toNat).bitAt (rtcA rRTC_STAT) 1) = true :=
    ⟨hbat, hlow, (congrArg (!·) hmain : (!s.bitAt (rtcA rRTC_STAT) 1) = true)⟩
  change execSwitchToVbat main vbat s = _
  simp only [execSwitchToVbat, if_pos hgo]

theorem exec_switchToMain_back {main vbat : BitVec 12} (hbat : s.bitAt (rtcA rRTC_STAT) 1 = true) (hmain : 2700 ≤ main.toNat)
    (habove : vbat.toNat + 100 ≤ main.toNat) :
    exec (.switchToMain main vbat) s = .next (((s.mainAt main.toNat).putBit (rtcA rRTC_STAT) 1 false).irq .rtc 0 1) := by
  have hgo : (s.mainAt main.toNat).bitAt (rtcA rRTC_STAT) 1 = true ∧ 2700 ≤ main.toNat ∧ vbat.toNat + 100 ≤ main.toNat := ⟨hbat, hmain, habove⟩
  change execSwitchToMain main vbat s = _
  simp only [execSwitchToMain, if_pos hgo]

end

end Sys2Proof.Machine
end

section
/-! PROOFS. The statement about the RTC's commands. -/

namespace Sys2Proof.Machine

/-- Settles O52: each write taken has its register's effect, and each event acts once its condition is met. RTC_SET (event 0x13) at every accepted write,
the count that resumes at the second cycle, and the pages reset whole at the loss of the backup domain (log entry 21, DEDUCED) are the model's readings. -/
theorem rtcCommands : Obligations.RtcCommands := by
  unfold Obligations.RtcCommands
  intro s q t x v date time main vbat mv y C S sec a z al day e w D f
  refine ⟨fun hrun hold hday hquiet => ?_, fun hrun hold hday hset hnow => ?_, fun hrun hold hday hoff => ?_,
    fun h => congrArg Host.Outcome.next (State.rtcCtrl_holds (.inr (bit_or_one _)) h),
    fun h hrun => congrArg Host.Outcome.next (State.rtcCtrl_holds (.inl hrun) h),
    fun h hhalt => ?_,
    fun h => congrArg Host.Outcome.next (State.guarded_of_takes h), fun hact => ⟨fun hneg => ?_, fun hzero => ?_, fun hpos hsmall => ?_, fun hbig => ?_⟩,
    exec_rtcCalRead_denied, fun ha hbusy => ?_, fun ha hfree => ?_, fun hdate hsec htime => ?_, rfl, rfl, exec_switchToVbat_low, exec_switchToMain_back,
    rfl, rfl⟩
  · have hz : z.weekday sec = z := if_neg hday
    exact (exec_rtcSecondCarry_runs hrun hold).trans (congrArg _ ((congrArg (·.alarmAt sec) hz).trans (State.alarmAt_quiet hquiet)))
  · have hz : z.weekday sec = z := if_neg hday
    exact (exec_rtcSecondCarry_runs hrun hold).trans (congrArg _ ((congrArg (·.alarmAt sec) hz).trans (if_pos ⟨hset, hnow⟩)))
  · have hz : z.weekday sec = z.putF (rtcA rRTC_WDAY) 2 0 ((z.fld (rtcA rRTC_WDAY) 2 0 + 1) % 7) := if_pos hday
    refine (exec_rtcSecondCarry_runs hrun hold).trans (congrArg _ ((congrArg (·.alarmAt sec) hz).trans (State.alarmAt_quiet (.inl ?_))))
    rw [State.rd64_alarm_weekday]
    exact hoff
  · change Host.Outcome.next (y.rtcCtrl q (y.rd C &&& ~~~1)) = _
    rw [State.rtcCtrl_resumes hhalt (bit_and_not_one _) h]
  · exact (exec_rtcDiscipline_active hact).trans (congrArg _ (if_pos hneg))
  · exact (exec_rtcDiscipline_active hact).trans (congrArg _ ((if_neg hzero.not_lt).trans (if_pos hzero)))
  · exact (exec_rtcDiscipline_active hact).trans (congrArg _ ((if_neg hpos.not_gt).trans ((if_neg hpos.ne').trans (if_pos hsmall))))
  · have hpos : 0 < e := lt_trans (by decide) hbig
    exact (exec_rtcDiscipline_active hact).trans (congrArg _ ((if_neg hpos.not_gt).trans ((if_neg hpos.ne').trans (if_neg (not_le.mpr hbig)))))
  · exact (exec_rtcCalRead_allowed ha).trans (congrArg _ (if_pos hbusy))
  · exact (exec_rtcCalRead_allowed ha).trans (congrArg _ (if_neg (Bool.eq_false_iff.mp hfree)))
  · have hkept : y.calDateWrite q date = f := State.guarded_of_takes hdate
    change Host.Outcome.next ((y.calDateWrite q date).calTimeWrite q time) = _
    rw [hkept, State.calTimeWrite_paired rfl hsec htime]

end Sys2Proof.Machine
end

section
/-! SUPPORT. Laws of the domains, sleep and wake, power failure and return, the chip resets, the reference monitor and the start (R604, R615 to R636). -/

namespace Sys2Proof.Machine

section
variable {s : State} {q : Requester} {t : Nat}

/-! ### Domain targets (R615 to R619) -/

section
variable {d : Nat}

/-- A target of OFF, ON or RET that is taken is written, and then the domain follows it. -/
theorem State.pwrDom_of_takes {v : Word32} (hv : bits v 1 0 ≠ 3) (h : s.takes q (domReg d) v (s.targetBad d (bits v 1 0) != 0)) :
    s.pwrDom q d v =
      let u := s.putF (domReg d) 1 0 (bits v 1 0)
      if bits v 1 0 = 1 then
        let w := if u.bitAt (domReg d) 31 then (u.putBit (domReg d) 31 false).putF (domReg d) 25 24 0 else u
        (if w.timer (domReg d) = 0 then w.turnOn d else w).domainReply
      else if bits v 1 0 = 0 then (u.turnOff d).domainReply
      else (u.retain d).domainReply := by
  have hbad : (decide (bits v 1 0 ≠ 3) && decide (s.targetBad d (bits v 1 0) ≠ 0)) = (s.targetBad d (bits v 1 0) != 0) := by
    rw [decide_eq_true hv, Bool.true_and, Bool.eq_iff_iff, decide_eq_true_iff, bne_iff_ne]
  rw [State.pwrDom, hbad, State.guarded_of_takes h, if_neg hv]

/-- A domain that was off loses what it holds as it starts to turn on; from retention its pages alone are reset. -/
theorem State.turnOn_off (h : s.domSt d = 0) : s.turnOn d = (s.lose d 0).setDom d 3 := by
  simp only [State.turnOn, h, Nat.zero_ne_one, (by decide : (0 : Nat) ≠ 3), (by decide : (0 : Nat) ≠ 2), or_self, if_false]

theorem State.turnOn_ret (h : s.domSt d = 2) : s.turnOn d = (s.resetPages d).setDom d 3 := by
  simp only [State.turnOn, h, (by decide : (2 : Nat) ≠ 1), (by decide : (2 : Nat) ≠ 3), or_self, if_false, if_true]

end

section
variable {dom : Fin 17}

/-- TARGET ON of a domain that has not failed and waits for no retry turns it on. -/
theorem exec_domainTargetOn_taken (h : s.takes q (domReg (dom.val + 1)) 1 (s.targetBad (dom.val + 1) 1 != 0))
    (hok : (s.putF (domReg (dom.val + 1)) 1 0 1).bitAt (domReg (dom.val + 1)) 31 = false)
    (hidle : (s.putF (domReg (dom.val + 1)) 1 0 1).timer (domReg (dom.val + 1)) = 0) :
    exec (.domainTargetOn q dom) s = .next ((s.putF (domReg (dom.val + 1)) 1 0 1).turnOn (dom.val + 1)).domainReply := by
  have htarget : bits (1 : Word32) 1 0 = 1 := by decide
  have hwrite := State.pwrDom_of_takes (v := 1) (by decide) h
  simp only [htarget, if_true, hok, Bool.false_eq_true, if_false, hidle] at hwrite
  exact congrArg Host.Outcome.next hwrite

theorem exec_domainTargetOff_taken (h : s.takes q (domReg (dom.val + 1)) 0 (s.targetBad (dom.val + 1) 0 != 0)) :
    exec (.domainTargetOff q dom) s = .next ((s.putF (domReg (dom.val + 1)) 1 0 0).turnOff (dom.val + 1)).domainReply := by
  have htarget : bits (0 : Word32) 1 0 = 0 := by decide
  have hwrite := State.pwrDom_of_takes (v := 0) (by decide) h
  simp only [htarget, Nat.zero_ne_one, if_false, if_true] at hwrite
  exact congrArg Host.Outcome.next hwrite

theorem exec_domainTargetRet_taken (h : s.takes q (domReg (dom.val + 1)) 2 (s.targetBad (dom.val + 1) 2 != 0)) :
    exec (.domainTargetRet q dom) s = .next ((s.putF (domReg (dom.val + 1)) 1 0 2).retain (dom.val + 1)).domainReply := by
  have htarget : bits (2 : Word32) 1 0 = 2 := by decide
  have hwrite := State.pwrDom_of_takes (v := 2) (by decide) h
  simp only [htarget, (by decide : (2 : Nat) ≠ 1), (by decide : (2 : Nat) ≠ 0), if_false] at hwrite
  exact congrArg Host.Outcome.next hwrite

/-- A domain that has come on: its state, its lock bit and its count of failures. -/
def State.cameOn (s : State) (d : Nat) : State :=
  ((s.setDom d 1).putBit (pa .clk 0 rCLK_STAT) (lockBit d) true).putF (domReg d) 25 24 0

/-- What the blocks of a domain do when it has come on (R323, R426, R623). -/
theorem exec_domainOnComplete_changing (h : s.domSt (dom.val + 1) = 3) :
    exec (.domainOnComplete dom) s = .next (
      let u := s.cameOn (dom.val + 1)
      if dom.val + 1 = 1 then u.sysRestore else if dom.val + 1 = 2 then u.wakeRelease else if dom.val + 1 = 11 then u.tsuStart
        else if dom.val + 1 = 16 then u.lcsStart else u).domainReply :=
  congrArg Host.Outcome.next (if_neg (not_not.mpr h))

/-- A domain that does not come on goes off; three retries follow, and then it has failed. -/
theorem exec_domainOnFail_changing (h : s.domSt (dom.val + 1) = 3) :
    exec (.domainOnFail dom) s = .next (
      let d := dom.val + 1
      let n := s.fld (domReg d) 25 24
      let down := s.turnOff d
      if n < 3 then (down.putF (domReg d) 25 24 (n + 1)).setTimer (domReg d) (down.now + 1000000 * 10 ^ n)
      else
        let f := down.putBit (domReg d) 31 true
        let g := if f.bitAt (pa .pwr 0 rPWR_FAIL_DOM) 31 then f else f.wr (pa .pwr 0 rPWR_FAIL_DOM) (BitVec.ofNat 32 (2 ^ 31 + d))
        ((g.cause .pwr 0 0).lanyEvent 0x19 [d]).domainReply) :=
  congrArg Host.Outcome.next (if_neg (not_not.mpr h))

theorem exec_domainRetry_due (hrun : (s.at t).timer (domReg (dom.val + 1)) ≠ 0) (hdue : (s.at t).timer (domReg (dom.val + 1)) ≤ (s.at t).now) :
    exec (.domainRetry dom t) s = .next (((s.at t).setTimer (domReg (dom.val + 1)) 0).turnOn (dom.val + 1)) := by
  change execDomainRetry dom t s = _
  simp only [execDomainRetry, hrun, Nat.not_lt.mpr hdue, or_self, if_false]

end

/-! ### Sleep and wake (R621 to R623) -/

/-- The word of SLEEP: GO and RET. -/
theorem sleep_word (ret : Bool) : bit (BitVec.ofNat 32 (2 ^ 31 + ret.toNat)) 31 = true ∧ bit (BitVec.ofNat 32 (2 ^ 31 + ret.toNat)) 0 = ret := by
  cases ret <;> decide

/-- A sleep that is taken is recorded, and puts MGMT and with RET the SYS domain into retention. -/
theorem State.sleepWrite_of_takes {v : Word32} (hgo : bit v 31 = true)
    (h : s.takes q (pa .pwr 0 rPWR_SLEEP) v ((List.range 18).any (fun e => 3 ≤ e && s.domSt e ≠ 0 && s.domSt e ≠ 2))) :
    s.sleepWrite q v =
      let z := s.lanyEvent 0x1D [v.toNat]
      if bit v 0 then (z.retain 2).retain 1 else z.retain 2 := by
  rw [State.sleepWrite, hgo, Bool.true_and, State.guarded_of_takes h]
  simp only [if_true]

/-- A source that acts latches its cause; with MGMT on that is recorded, and else the two domains turn on and the boot starts anew. -/
theorem State.wakeUp_acts {src : Nat} (h : s.wakes src = true) :
    s.wakeUp src =
      let w := s.putBit (pa .wake 0 rWAKE_CAUSE) src true
      if w.domOn 2 then w.lanyEvent 0x1B [(w.rd (pa .wake 0 rWAKE_CAUSE)).toNat]
      else ((w.turnOn 1).turnOn 2).wr (pa .rst 0 rRST_BOOT) 0 := by
  simp only [State.wakeUp, h, Bool.not_true, Bool.false_eq_true, if_false]

section
variable {addr : BitVec 7} {read : Bool} {data : List (BitVec 8)}
  (hmatch : s.bitAt (pa .wake 0 rWAKE_CFG) 7 = true ∧ s.fld (pa .wake 0 rWAKE_CFG) 6 0 = addr.toNat)
include hmatch

/-- A match with MGMT off is held, at most 2 ms, and wakes. -/
theorem exec_wakePortMatch_off (hd : s.domOn 2 = false) (hidle : s.timer (pa .wake 0 rWAKE_CFG) = 0) :
    exec (.wakePortMatch addr read data) s = .next
      (({ s.setTimer (pa .wake 0 rWAKE_CFG) (s.now + 2000000) with wakeHeld := some (read, data) } : State).wakeUp 0) := by
  change execWakePortMatch addr read data s = _
  simp only [execWakePortMatch, hmatch.1, hmatch.2, hd, hidle, decide_true, Bool.and_self, Bool.not_true, Bool.not_false, Bool.false_eq_true,
    if_false, if_true]

theorem exec_wakePortMatch_on (hd : s.domOn 2 = true) : exec (.wakePortMatch addr read data) s = .next (s.wakeServe read data) := by
  change execWakePortMatch addr read data s = _
  simp only [execWakePortMatch, hmatch.1, hmatch.2, hd, decide_true, Bool.and_self, Bool.not_true, Bool.false_eq_true, if_false]

end

/-- A host write that is served puts its first three bytes with their number in WAKE_MSG. -/
theorem State.wakeServe_write {data : List (BitVec 8)} (hdata : data ≠ []) :
    s.wakeServe false data =
      (s.wr (pa .wake 0 rWAKE_MSG) (BitVec.ofNat 32 ((data.take 3).length * 2 ^ 30 + leNat (data.take 3)))).irq .wake 0 0 := by
  simp only [State.wakeServe, hdata, Bool.false_eq_true, if_false]

theorem exec_wakeStretchTimeout_over (hrun : (s.at t).timer (pa .wake 0 rWAKE_CFG) ≠ 0) (hover : (s.at t).timer (pa .wake 0 rWAKE_CFG) ≤ (s.at t).now)
    (hd : (({ s.at t with wakeHeld := none } : State).setTimer (pa .wake 0 rWAKE_CFG) 0).domOn 2 = false) :
    exec (.wakeStretchTimeout t) s = .next (((({ s.at t with wakeHeld := none } : State).setTimer (pa .wake 0 rWAKE_CFG) 0).putBit
      (pa .wake 0 rWAKE_CAUSE) 8 true).cause .wake 0 0) := by
  change execWakeStretchTimeout t s = _
  simp only [execWakeStretchTimeout, hrun, Nat.not_lt.mpr hover, hd, Bool.false_eq_true, or_self, if_false]

/-! ### Power failure and return (R624 to R626) -/

theorem exec_powerFail_first {mon : Bool} (hno : (s.at t).bitAt (pa .pwr 0 rPWR_STAT) 0 = false)
    (hen : (s.at t).bitAt (pa .pwr 0 rPWR_PF_CFG) (if mon then 31 else 30) = true) : exec (.powerFail mon t) s = .next (s.at t).powerFail := by
  change execPowerFail mon t s = _
  simp only [execPowerFail, hno, hen, Bool.not_true, Bool.or_self, Bool.false_eq_true, if_false]

theorem exec_powerFailDone_running (hrun : (s.at t).bitAt (pa .pwr 0 rPWR_STAT) 0 = true) (hno : (s.at t).bitAt (pa .pwr 0 rPWR_STAT) 1 = false) :
    exec (.powerFailDone t) s = .next ((List.range 15).foldl (fun (s : State) i => s.turnOff (i + 3))
      (((s.at t).putBit (pa .pwr 0 rPWR_STAT) 1 true).setTimer (pa .pwr 0 rPWR_STAT) ((s.at t).now + 10000000))) := by
  have hgo : ¬(!(s.at t).bitAt (pa .pwr 0 rPWR_STAT) 0 || (s.at t).bitAt (pa .pwr 0 rPWR_STAT) 1) = true := by
    rw [hrun, hno]
    decide
  exact congrArg Host.Outcome.next (if_neg hgo)

theorem exec_powerReturn_over (hdone : (s.at t).bitAt (pa .pwr 0 rPWR_STAT) 1 = true)
    (hover : (s.at t).timer (pa .pwr 0 rPWR_STAT) ≤ (s.at t).now) : exec (.powerReturn t) s = .next ((s.at t).chipReset 7) := by
  change execPowerReturn t s = _
  simp only [execPowerReturn, hdone, hover, decide_true, Bool.and_self, if_true]

/-! ### Chip resets (R627, R628, R634) -/

/-- The right key with GO is a reset of the chip. -/
theorem State.rstCtrl_reset (h : s.takes q (pa .rst 0 rRST_CTRL) 0x800052A5 false) : s.rstCtrl q 0x800052A5 = s.chipReset 5 := by
  have hkey : decide (bits (0x800052A5 : Word32) 15 0 ≠ 0x52A5) = false := by decide
  rw [State.rstCtrl, hkey, State.guarded_of_takes h]
  exact if_pos rfl

/-- Of the causes of one cycle the first is the reset, and each further one is recorded beside it (log entry 33). -/
theorem exec_chipReset_power : exec (.chipReset 0 t) s = .next (s.at t).powerOn :=
  congrArg Host.Outcome.next (if_pos rfl)

theorem exec_chipReset_first {code : Fin 8} (hcode : code ≠ 0) (hfirst : (s.at t).timer resetKey ≠ (s.at t).now + 1)
    (hready : code ≠ 3 ∨ (s.at t).resetReady = true) :
    exec (.chipReset code t) s = .next (((s.at t).chipReset code.val).setTimer resetKey ((s.at t).now + 1)) := by
  have hgo : ¬(code = 3 ∧ (!(s.at t).resetReady) = true) := by
    rintro ⟨hthree, hwait⟩
    rcases hready with hother | hyes
    · exact hother hthree
    · rw [hyes] at hwait
      exact Bool.false_ne_true hwait
  change execChipReset code t s = _
  simp only [execChipReset, hcode, hfirst, hgo, if_false]

theorem exec_chipReset_also {code : Fin 8} (hcode : code ≠ 0) (hsame : (s.at t).timer resetKey = (s.at t).now + 1) :
    exec (.chipReset code t) s = .next ((s.at t).resetAlso code.val) := by
  change execChipReset code t s = _
  simp only [execChipReset, hcode, hsame, if_false, if_true]

/-! ### The reference monitor (R635) -/

/-- A window's deviation is recorded, and held against the limit. -/
theorem exec_refMonitorWindow_on (hd : s.domOn 1 = true) (hen : s.bitAt (pa .clk 0 rCLK_REF_MON) 31 = true) (count : Nat) :
    exec (.refMonitorWindow count) s = .next (
      let dev : Int := 10 * (count : Int) - 10009766
      let rm := s.wr (pa .clk 0 rCLK_REF_DEV) (BitVec.ofInt 32 ((dev * 1000000).tdiv 10009766))
      if (rm.fld (pa .clk 0 rCLK_REF_MON) 11 0 : Int) * 10009766 < dev.natAbs * 1000000 then (rm.setRefOk false).clkCause 0
      else rm.setRefOk true) := by
  have hgo : ¬(!(s.domOn 1 && s.bitAt (pa .clk 0 rCLK_REF_MON) 31)) = true := by
    rw [hd, hen]
    decide
  exact congrArg Host.Outcome.next (if_neg hgo)

theorem exec_refLost_on (hd : s.domOn 1 = true) : exec .refLost s = .next ((s.setRefOk false).clkCause 1) := by
  change execRefLost s = _
  simp only [execRefLost, hd, Bool.not_true, Bool.false_eq_true, if_false]

/-! ### The boot ROM (R604, R629 to R631) -/

/-- Once every kind has been copied the ROM hands over to the active image, else to the golden one, and waits where neither is good. -/
theorem State.boot_copied {bad : List (Nat × Bool × Nat)} {left left' : Nat} {ev : List Nat} {w : State} (hd : s.domOn 2 = true)
    (hstage : s.bootAt < 3) (hlcs : s.lcs ≠ 4)
    (hcopy : (((s.otpLoad.sysRestore.powerUp 16).powerUp 17).bootStage 1 0).copyKinds (fun k second i => bad.contains (k, second, i)) [1, 2, 3] left =
      (some left', ev, w)) :
    s.boot bad left =
      let b := w.bootStage 2 0
      if b.startOk activeArea 1 false then b.handover false ev else if b.startOk 0 1 true then b.handover true ev else b.romWait := by
  simp only [State.boot, hd, Nat.not_le.mpr hstage, hlcs, hcopy, decide_false, Bool.not_true, Bool.or_self, Bool.false_eq_true, if_false]

theorem exec_startUp_first {bad : List (Nat × Bool × Nat)} {left : Nat} {unreadable : List Nat} {ms : BitVec 32}
    (hruns : ((s.at t).boot bad left).lanyRuns = true) (hfirst : ((s.at t).boot bad left).lany.started = false) :
    exec (.startUp bad left unreadable ms t) s = .next (((s.at t).boot bad left).firmwareStart unreadable ms) := by
  change execStartUp bad left unreadable ms t s = _
  simp only [execStartUp, hruns, hfirst, Bool.not_false, Bool.and_self, if_true]

end

end Sys2Proof.Machine
end

section
/-! PROOFS. The statement about domains, sleep, wake, power failure, resets, the reference monitor, boot and start-up. -/

namespace Sys2Proof.Machine

/-- Settles O53: each write taken has its register's effect, and each event acts once its condition is met. That SLEEP acts at its write (R621), that BOOT
and START_UP are one command each, that the CHIP_RESETs of one time are one reset (log entry 33), and the cut of CLK_REF_DEV to its field (log entry 14,
DESIGN CHOICE) are the model's readings. -/
theorem powerCommands : Obligations.PowerCommands := by
  unfold Obligations.PowerCommands
  intro s q t dom ret src addr data mon code bad left unreadable ms count left' ev w y d R on P W K up down n zz sl wk matched kept freed f dev rm z b
  refine ⟨fun h _ hok hidle => ⟨fun hoff => ?_, fun hret => ?_⟩, exec_domainTargetOff_taken, exec_domainTargetRet_taken,
    fun hst => ⟨fun h1 h2 h11 h16 => ?_, fun h16 => ?_, fun h2 => ?_, fun h1 => ?_, fun h11 => ?_, fun hn => ?_, fun hn hfirst => ?_⟩,
    exec_domainRetry_due, fun h => ?_, fun hsrc => ?_, exec_wakePortMatch_off, exec_wakePortMatch_on, fun hm hd hdata => ?_,
    exec_wakeStretchTimeout_over, exec_powerFail_first, exec_powerFailDone_running, exec_powerReturn_over, rfl, rfl,
    fun h => congrArg Host.Outcome.next (State.rstCtrl_reset h), exec_chipReset_power, exec_chipReset_first, exec_chipReset_also,
    fun hd hen => exec_refMonitorWindow_on hd hen count, exec_refLost_on, fun hd hstage hlcs hcopy => ?_, exec_startUp_first⟩
  · exact (exec_domainTargetOn_taken h hok hidle).trans (congrArg _ (congrArg State.domainReply (State.turnOn_off hoff)))
  · exact (exec_domainTargetOn_taken h hok hidle).trans (congrArg _ (congrArg State.domainReply (State.turnOn_ret hret)))
  · exact (exec_domainOnComplete_changing hst).trans (congrArg _ (congrArg State.domainReply
      ((if_neg h1).trans ((if_neg h2).trans ((if_neg h11).trans (if_neg h16))))))
  · exact (exec_domainOnComplete_changing hst).trans (congrArg _ (congrArg State.domainReply
      ((if_neg (by omega)).trans ((if_neg (by omega)).trans ((if_neg (by omega)).trans (if_pos h16))))))
  · exact (exec_domainOnComplete_changing hst).trans (congrArg _ (congrArg State.domainReply ((if_neg (by omega)).trans (if_pos h2))))
  · exact (exec_domainOnComplete_changing hst).trans (congrArg _ (congrArg State.domainReply (if_pos h1)))
  · exact (exec_domainOnComplete_changing hst).trans (congrArg _ (congrArg State.domainReply
      ((if_neg (by omega)).trans ((if_neg (by omega)).trans (if_pos h11)))))
  · exact (exec_domainOnFail_changing hst).trans (congrArg _ (if_pos hn))
  · refine (exec_domainOnFail_changing hst).trans (congrArg _ ((if_neg (Nat.not_lt.mpr (Nat.le_of_eq hn.symm))).trans ?_))
    exact congrArg (fun u : State => ((u.cause .pwr 0 0).lanyEvent 0x19 [d]).domainReply) (if_neg (Bool.eq_false_iff.mp hfirst))
  · obtain ⟨hgo, hret⟩ := sleep_word ret
    have hsleep := State.sleepWrite_of_takes hgo h
    rw [hret] at hsleep
    exact congrArg Host.Outcome.next hsleep
  · have hwakes : s.wakes src.val = true := by
      rcases hsrc with ⟨hsupply, hdone⟩ | ⟨hlow, hen⟩
      · rw [State.wakes, hsupply]
        exact hdone
      · rw [State.wakes, if_pos hlow]
        exact hen
    exact ⟨fun hd => congrArg Host.Outcome.next ((State.wakeUp_acts hwakes).trans (if_pos hd)),
      fun hd => congrArg Host.Outcome.next ((State.wakeUp_acts hwakes).trans (if_neg (Bool.eq_false_iff.mp hd)))⟩
  · exact (exec_wakePortMatch_on hm hd).trans (congrArg Host.Outcome.next (State.wakeServe_write hdata))
  · have hboot := State.boot_copied hd hstage hlcs hcopy
    exact ⟨fun hact => congrArg Host.Outcome.next (hboot.trans (if_pos hact)),
      fun hact hgold => congrArg Host.Outcome.next (hboot.trans ((if_neg (Bool.eq_false_iff.mp hact)).trans (if_pos hgold))),
      fun hact hgold => congrArg Host.Outcome.next (hboot.trans
        ((if_neg (Bool.eq_false_iff.mp hact)).trans (if_neg (Bool.eq_false_iff.mp hgold))))⟩

end Sys2Proof.Machine
end

section
/-! SUPPORT. Laws of STORE: its start and scan, the requests, the slots of the frame and the ends of its operations (R498, R503, R506 to R520). -/

namespace Sys2Proof.Machine

section
variable {s : State} {q : Requester} {t : Nat} {tg : Fin 32} {corr : Fin 65} {x : NandRun} {r : NandReq}

/-! ### Start and scan (R498, R517) -/

theorem exec_nandInit_taken (h : s.takes q (nandA 0x00C) 1 false) (hoff : s.bitAt (nandA 0x00C) 0 = false) :
    exec (.nandInit q) s = .next (s.putBit (nandA 0x00C) 0 true).nandInit := by
  have hbit : bit (1 : Word32) 0 = true := by decide
  change Host.Outcome.next (s.nandEnable q 1) = _
  rw [State.nandEnable, hbit, Bool.not_true, Bool.false_and, State.guarded_of_takes h]
  simp only [hoff, Bool.not_false, and_self, if_true]

section
variable (hup : s.domOn 15 = true ∧ s.bitAt (nandA 0x00C) 0 = true)
include hup

theorem exec_nandScan_fitted (hfit : s.bitAt (nandA rNAND_STAT) 0 = true) (us : List Nat) :
    exec (.nandScan none us) s = .next (s.scanAll us) ∧ exec (.nandScan (some tg) us) s = .next (s.nandScan [tg.val] us) := by
  have hgo : ¬(!(s.domOn 15 && s.bitAt (nandA 0x00C) 0 && s.bitAt (nandA rNAND_STAT) 0)) = true := by
    rw [hup.1, hup.2, hfit]
    decide
  exact ⟨congrArg Host.Outcome.next (if_neg hgo), congrArg Host.Outcome.next (if_neg hgo)⟩

theorem exec_nandScanDone_whole (ms : BitVec 32) : exec (.nandScanDone none ms) s = .next (s.scanDone ms) := by
  have hgo : ¬(!(s.domOn 15 && s.bitAt (nandA 0x00C) 0)) = true := by
    rw [hup.1, hup.2]
    decide
  exact congrArg Host.Outcome.next (if_neg hgo)

/-- The rescan of a target ends unless an injection of MAP_UE with CONT is armed. -/
theorem exec_nandScanDone_target (hinj : s.bitAt (nandA 0x01C) 31 = false ∨ s.bitAt (nandA 0x01C) 1 = false) (ms : BitVec 32) :
    exec (.nandScanDone (some tg) ms) s = .next (
      let left := s.nand.rescan.filter (· ≠ tg.val)
      ((s.setNand { s.nand with rescan := left }).putBit (nandA rNAND_STAT) 5 (decide (left ≠ []))).freeChanged) := by
  have hgo : ¬(!(s.domOn 15 && s.bitAt (nandA 0x00C) 0)) = true := by
    rw [hup.1, hup.2]
    decide
  have hend : ¬(s.bitAt (nandA 0x01C) 31 = true ∧ s.bitAt (nandA 0x01C) 1 = true) := by
    rintro ⟨harmed, hcont⟩
    rcases hinj with h | h <;> simp [h] at harmed hcont
  exact congrArg Host.Outcome.next ((if_neg hgo).trans (if_neg hend))

end

/-! ### Requests (R503, R507) -/

/-- A cell that a port's queue has room for joins it; the image of a program is fetched with it. -/
theorem exec_nandRequestPop_queued {n : BitVec 13} {lay port comp : Nat} {c : Cell512} {a : Bool} {u w : State}
    (hport : s.nandPort n.toNat = some (lay, port, comp)) (hready : s.nandReady = true)
    (hroom : s.nand.queue.countP (fun r => r.splice = n.toNat) < 32) (hpop : s.pop n.toNat = (some (c, a), u))
    (hserved : (nandReqOf u.pairMode n.toNat u.now c).bad = true →
      u.rig.nand.any (fun e => e.cls = classOf (nandReqOf u.pairMode n.toNat u.now c).op && e.lay = lay && e.port = port) = true)
    (hfetch : (let q1 := nandReqOf u.pairMode n.toNat u.now c; if q1.bad = true ∨ q1.op ≠ 1 then (q1, u) else u.fetchImage q1) = (r, w)) :
    exec (.nandRequestPop n) s = .next (w.setNand { w.nand with queue := w.nand.queue ++ [r] }) := by
  have hgo : ¬(!s.nandReady || decide (32 ≤ s.nand.queue.countP (fun r => r.splice = n.toNat))) = true := by
    rw [hready, decide_eq_false (Nat.not_le.mpr hroom)]
    decide
  have hanswer : ¬((nandReqOf u.pairMode n.toNat u.now c).bad &&
      !u.rig.nand.any (fun e => e.cls = classOf (nandReqOf u.pairMode n.toNat u.now c).op && e.lay = lay && e.port = port)) = true := by
    intro hno
    obtain ⟨hbad, hnone⟩ := Bool.and_eq_true_iff.mp hno
    rw [hserved hbad] at hnone
    exact Bool.false_ne_true hnone
  change execNandRequestPop n s = _
  rw [execNandRequestPop, hport]
  simp only [if_neg hgo, hpop, if_neg hanswer, hfetch]

theorem exec_checkpointFetch_waiting {n : BitVec 13} {r' : NandReq} {w : State}
    (hfind : s.nand.queue.find? (fun r => r.splice = n.toNat && r.op = 2 && !r.bad) = some r) (htries : r.tries < 4)
    (hfetch : s.fetchCheckpoint r = (r', w)) :
    exec (.checkpointFetch n) s = .next (w.setNand { w.nand with queue := w.nand.queue.replace r r' }) := by
  change execCheckpointFetch n s = _
  rw [execCheckpointFetch, hfind]
  simp only [if_neg (Nat.not_le.mpr htries), hfetch]

/-! ### Slots (R503, R511, R512) -/

/-- A period of a running frame chooses the positions to collect in, and none outside foreground collection. -/
theorem exec_nandFramePeriod_running (hready : s.nandReady = true) (hframes : s.rig.frames = true) :
    exec .nandFramePeriod s = .next (
      let z : State := { s with rig := { s.rig with nandDone := [] } }
      let n := s.positions.length
      let need (p : Nat) : Bool := match s.rig.nand[s.positions.getD p 0]? with
        | some e => s.needsGc (e.chan * 8 + e.target)
        | none => false
      let prev := 0 < n && s.nand.taken.contains (n - 1)
      let order := if s.nand.odd then (List.range n).reverse else List.range n
      z.setNand { s.nand with taken := if s.bitAt (nandA rNAND_STAT) 3 then takeGreedy need prev n order [] else [], odd := !s.nand.odd }) := by
  have hgo : ¬(!(s.nandReady && s.rig.frames)) = true := by
    rw [hready, hframes]
    decide
  exact congrArg Host.Outcome.next (if_neg hgo)

/-- What a slot of a ready target does, after its map word read well. -/
def State.slotServes (w : State) (entry : Nat) (e : NandEntry) : State :=
  let tg := e.chan * 8 + e.target
  if e.cls = 1 ∧ w.nand.taken.contains (w.positions.idxOf entry) then ((w.startErase tg).getD ((w.startCopy tg).getD w)).nandCount 11
  else if e.cls ≤ 3 then w.portSlot e
  else if e.cls = 4 then
    if w.nand.journal.contains e.chan then
      match w.openLog tg 7 with
      | some (k, w) => w.startRun ⟨tg, 7, none, k⟩
      | none => (w.startCopy tg).getD w
    else (w.startSalvage tg).getD ((w.startCopy tg).getD w)
  else if e.cls = 5 then (w.startErase tg).getD w
  else w.startRun ⟨tg, 6, none, 0⟩

theorem exec_nandSlot_due {entry : BitVec 8} {e : NandEntry} {w : State} (hready : (s.at t).nandReady = true) (hframes : (s.at t).rig.frames = true)
    (hpower : (s.at t).bitAt (pa .pwr 0 rPWR_STAT) 0 = false) (hentry : (s.at t).rig.nand[entry.toNat]? = some e)
    (hdue : (s.at t).nandDue entry.toNat = true) (hmap : ((s.at t).nandPast entry.toNat).mapRead (e.chan * 8 + e.target) = (false, w))
    (hscan : e.chan * 8 + e.target ∉ w.nand.rescan) (huse : e.chan * 8 + e.target ∈ w.nandTargets) :
    exec (.nandSlot entry t) s = .next (w.slotServes entry.toNat e) := by
  have hgo : ¬(!(s.at t).rig.frames || !(s.at t).nandDue entry.toNat) = true := by
    rw [hframes, hdue]
    decide
  have hrun : ¬(!((s.at t).nandPast entry.toNat).nandReady || ((s.at t).nandPast entry.toNat).bitAt (pa .pwr 0 rPWR_STAT) 0) = true := by
    change ¬(!(s.at t).nandReady || (s.at t).bitAt (pa .pwr 0 rPWR_STAT) 0) = true
    rw [hready, hpower]
    decide
  have hidle : ¬(False ∨ w.nand.rescan.contains (e.chan * 8 + e.target) = true ∨ (!w.nandTargets.contains (e.chan * 8 + e.target)) = true) := by
    simp [hscan, huse]
  change execNandSlot entry t s = _
  simp only [execNandSlot, if_neg hgo, hentry, if_neg hrun, hmap, Bool.false_eq_true, if_neg hidle]
  rfl

section
variable {w z : State} {entry : Nat} {e : NandEntry} {k : Nat}

theorem State.slotServes_taken (hcls : e.cls = 1) (htaken : w.nand.taken.contains (w.positions.idxOf entry) = true)
    (hz : w.startErase (e.chan * 8 + e.target) = some z) : w.slotServes entry e = z.nandCount 11 := by
  simp only [State.slotServes, hcls, htaken, hz, and_self, if_true, Option.getD_some]

/-- A slot of a lay's port that the foreground collection has not taken serves the port. -/
theorem State.slotServes_port (hport : 1 < e.cls ∨ w.nand.taken.contains (w.positions.idxOf entry) = false) (hcls : e.cls ≤ 3) :
    w.slotServes entry e = w.portSlot e := by
  have hno : ¬(e.cls = 1 ∧ w.nand.taken.contains (w.positions.idxOf entry) = true) := by
    rintro ⟨hone, htaken⟩
    rcases hport with h | h
    · omega
    · rw [h] at htaken
      exact Bool.false_ne_true htaken
  simp only [State.slotServes, if_neg hno, if_pos hcls]

theorem State.portSlot_serves {comp : Nat} (hport : w.port e.lay 1 e.port = some (k, comp))
    (hfind : w.nand.queue.find? (fun r => r.splice = k && classOf r.op = e.cls && r.popped + 100000 ≤ w.now && !w.rescanWaits r) = some r)
    (hgood : r.bad = false) :
    w.portSlot e =
      if e.cls = 2 then (w.setNand { w.nand with queue := w.nand.queue.erase r }).startRun ⟨e.chan * 8 + e.target, 2, some r, 0⟩
      else (w.takeProgram (e.chan * 8 + e.target) r).getD (w.nandCount 15) := by
  simp only [State.portSlot, hport, hfind, hgood, Bool.false_eq_true, if_false]

theorem State.slotServes_journal (hcls : e.cls = 4) (howed : e.chan ∈ w.nand.journal) (hz : w.openLog (e.chan * 8 + e.target) 7 = some (k, z)) :
    w.slotServes entry e = z.startRun ⟨e.chan * 8 + e.target, 7, none, k⟩ := by
  simp [State.slotServes, hcls, howed, hz]

theorem State.slotServes_collect (hcls : e.cls = 4) (hnone : e.chan ∉ w.nand.journal) :
    w.slotServes entry e = (w.startSalvage (e.chan * 8 + e.target)).getD ((w.startCopy (e.chan * 8 + e.target)).getD w) := by
  simp [State.slotServes, hcls, hnone]

theorem State.slotServes_erase (hcls : e.cls = 5) (hz : w.startErase (e.chan * 8 + e.target) = some z) : w.slotServes entry e = z := by
  simp [State.slotServes, hcls, hz]

theorem State.slotServes_scrub (hcls : 6 ≤ e.cls) : w.slotServes entry e = w.startRun ⟨e.chan * 8 + e.target, 6, none, 0⟩ := by
  have hone : ¬(e.cls = 1 ∧ w.nand.taken.contains (w.positions.idxOf entry) = true) := fun h => absurd h.1 (by omega)
  have hport : ¬e.cls ≤ 3 := by omega
  have hcollect : ¬e.cls = 4 := by omega
  have herase : ¬e.cls = 5 := by omega
  simp only [State.slotServes, if_neg hone, if_neg hport, if_neg hcollect, if_neg herase]

end

/-! ### Ends of operations (R506 to R518) -/

/-- While an operation runs on a target a STANDBY starts none there. -/
theorem State.standbyRun_of_runOf {T cls : Nat} {kind : NandRun → Bool} (h : s.runOf T kind = some x) : s.standbyRun T cls = s := by
  obtain ⟨hfind, -⟩ := Option.filter_eq_some_iff.mp h
  have hrun : s.nand.runs.any (fun r => r.target = T) = true :=
    List.any_eq_true.mpr ⟨x, List.mem_of_find?_eq_some hfind, List.find?_some (p := fun r : NandRun => decide (r.target = T)) hfind⟩
  simp only [State.standbyRun, hrun, or_true, if_true]

section
variable (hrun : s.runOf tg.val (fun r => r.cls = 1 || r.cls = 3 || r.cls = 9) = some x) (hreq : x.req = some r)
include hrun hreq

/-- The end of a program for a request: it failed, its verify failed or found too much to correct, or the page is written and answered. -/
theorem exec_nandProgramComplete_request {ok decodes bad : Bool}
    (hbad : (!decodes || decide ((s.endRun x).fld (nandA rNAND_ECC) 7 0 < corr.val)) = bad) :
    exec (.nandProgramComplete tg ok decodes corr) s = .next (
      let v := s.endRun x
      if !ok then v.programFailed x r false
      else if bad then v.programFailed x r true
      else
        (v.writePage x.block (if r.op = 2 then tornRecords r else r.user) none r.image).nandDone r 0 ((v.blk x.block).lbn.getD 0)
          (v.blk x.block).pages.length v.nand.seq tg.val corr.val) := by
  change execNandProgramComplete tg ok decodes corr s = _
  rw [← hbad]
  simp only [execNandProgramComplete, hrun, hreq]
  rfl

end

theorem exec_nandReadComplete_running (hturn : s.storeTurn = true) (hrun : s.runOf tg.val (fun x => x.req.any (fun r => r.op = 3)) = some x)
    (hreq : x.req = some r) (ue : Bool) : exec (.nandReadComplete tg ue corr) s = .next ((s.endRun x).readDone tg.val r ue corr.val) := by
  change execNandReadComplete tg ue corr s = _
  simp only [execNandReadComplete, hturn, hrun, hreq, Bool.not_true, Bool.false_eq_true, if_false]

theorem exec_nandRelease_running {k : Nat} {b : Block} (hrun : s.runOf tg.val (fun x => x.req.any (fun r => r.op = 4)) = some x)
    (hreq : x.req = some r) (hblock : (s.endRun x).lbnBlock r.lbn = some (k, b)) (hst : b.st ≠ .opened) :
    exec (.nandRelease tg) s = .next (
      let v := s.endRun x
      let w := if v.pairMode && v.peerReady && decide (b.stream ≤ 1) then v.pairSend 6 (toBe 4 r.lbn) false else v
      (w.releaseLive k).nandDone r 0 r.lbn 0 0 tg.val 0) := by
  change execNandRelease tg s = _
  simp only [execNandRelease, hrun, hreq, hblock, if_neg hst]

theorem exec_nandEraseComplete_running (hrun : s.runOf tg.val (fun x => x.cls = 5) = some x) (ok : Bool) :
    exec (.nandEraseComplete tg ok) s = .next (
      let v := s.endRun x
      if !ok then ((v.nandCount 3).cause .nand 0 4).growBad x.block
      else ((((v.eraseBlock x.block).setBlk x.block { Block.fresh with erases := (v.blk x.block).erases + 1 }).nandCount 9).freeChanged).wearLevel
        tg.val) := by
  change execNandEraseComplete tg ok s = _
  simp only [execNandEraseComplete, State.standbyRun_of_runOf hrun, hrun]

/-- A copy of a page that is not the last of its block. -/
theorem exec_relocationCopy_page {l : Reloc} {k : Nat} {g : PageRec} (hrun : s.runOf tg.val (fun x => x.cls = 8) = some x)
    (hfind : (s.endRun x).nand.reloc.find? (fun r => r.src = x.block) = some l) (hdst : l.dst = some k)
    (hpage : ((s.endRun x).blk l.src).pages[l.copied]? = some g) (hmore : l.copied + 1 < ((s.endRun x).blk l.src).pages.length) :
    exec (.relocationCopy tg) s = .next (
      let v := s.endRun x
      let w := v.writePage k g.user (some g.ord) (v.bytes .nand (pageAddr l.src l.copied) 16384)
      w.setNand { w.nand with reloc := w.nand.reloc.replace l { l with copied := l.copied + 1 } }) := by
  change execRelocationCopy tg s = _
  simp only [execRelocationCopy, State.standbyRun_of_runOf hrun, hrun, hfind, hdst, hpage, if_pos hmore]

theorem exec_journalProgram_running (hrun : s.runOf tg.val (fun x => x.cls = 7) = some x) :
    exec (.journalProgram tg) s = .next (
      let v := s.endRun x
      let i := v.badEntries (tg.val / 8)
      let w := v.writePage x.block 0 none ((toLe 4 i.length ++ i.flatMap (toLe 4) ++ List.replicate 16384 0).take 16384)
      let w := w.setNand { w.nand with journal := w.nand.journal.filter (· ≠ tg.val / 8) }
      (w.oldJournals (tg.val / 8) x.block).foldl (fun (w : State) k => w.releaseBlk k) w) := by
  change execJournalProgram tg s = _
  simp only [execJournalProgram, hrun]

/-- The state after a scrub read of page p: the next one starts behind it, and the read is counted. -/
def State.scrubbed (s : State) (T p : Nat) : State :=
  (s.setNand { s.nand with scrub := Machine.store (fun _ => 0) s.nand.scrub T (p + 1) }).nandCount 7

section
variable {p : Nat} (hrun : s.runOf tg.val (fun x => x.cls = 6) = some x)
  (hpage : (((s.endRun x).writtenPages tg.val).find? (fun p => look (fun _ => 0) (s.endRun x).nand.scrub tg.val ≤ p)).or
    ((s.endRun x).writtenPages tg.val).head? = some p)
include hrun hpage

/-- A scrub read that decodes, with what it corrected below the limit, or not. -/
theorem exec_nandScrubRead_below (hlow : corr.val < ((s.endRun x).scrubbed tg.val p).fld (nandA rNAND_ECC) 15 8) :
    exec (.nandScrubRead tg false corr) s = .next ((s.endRun x).scrubbed tg.val p) := by
  have hno : ¬((s.endRun x).scrubbed tg.val p).fld (nandA rNAND_ECC) 15 8 ≤ corr.val := Nat.not_le.mpr hlow
  rw [State.scrubbed] at hno ⊢
  change execNandScrubRead tg false corr s = _
  simp only [execNandScrubRead, State.standbyRun_of_runOf hrun, hrun, hpage, Bool.false_eq_true, if_false, false_or, if_neg hno]

theorem exec_nandScrubRead_above (hhigh : ((s.endRun x).scrubbed tg.val p).fld (nandA rNAND_ECC) 15 8 ≤ corr.val) :
    exec (.nandScrubRead tg false corr) s = .next (((s.endRun x).scrubbed tg.val p).queueReloc (p / 1024)) := by
  rw [State.scrubbed] at hhigh ⊢
  change execNandScrubRead tg false corr s = _
  simp only [execNandScrubRead, State.standbyRun_of_runOf hrun, hrun, hpage, Bool.false_eq_true, if_false, false_or, if_pos hhigh]

theorem exec_nandScrubRead_uncorrectable :
    exec (.nandScrubRead tg true corr) s = .next ((((s.endRun x).scrubbed tg.val p).pageUe true (p / 1024) (p % 1024)).queueReloc (p / 1024)) := by
  rw [State.scrubbed]
  change execNandScrubRead tg true corr s = _
  simp only [execNandScrubRead, State.standbyRun_of_runOf hrun, hrun, hpage, if_true, true_or]

end

/-! ### Full and temperature (R514, R520) -/

theorem exec_nandFull_ready (h : s.nandReady = true) : exec .nandFull s = .next s.fullCheck := congrArg Host.Outcome.next (if_pos h)

theorem exec_nandTempSample_due (hd : (s.at t).domOn 15 = true) (hen : (s.at t).bitAt (nandA 0x00C) 0 = true)
    (hdue : (s.at t).timer (nandA rNAND_TEMP_SRC) ≤ (s.at t).now) :
    exec (.nandTempSample t) s = .next (((s.at t).nandTargets.foldl (fun (s : State) t => s.tempMinuteOf t) (s.at t)).setTimer
      (nandA rNAND_TEMP_SRC) ((s.at t).timer (nandA rNAND_TEMP_SRC) + 60000000000)) := by
  have hgo : ¬(!((s.at t).domOn 15 && (s.at t).bitAt (nandA 0x00C) 0) ||
      decide ((s.at t).now < (s.at t).timer (nandA rNAND_TEMP_SRC))) = true := by
    rw [hd, hen, decide_eq_false (Nat.not_lt.mpr hdue)]
    decide
  exact congrArg Host.Outcome.next (if_neg hgo)

end

end Sys2Proof.Machine
end

section
/-! PROOFS. The statement about STORE. -/

namespace Sys2Proof.Machine

/-- Settles O54: each event finds the operation, request or slot that its clause names, and does what the rule gives. That a release's completion names
the target of the slot that served it, that the page image is taken at the slot and the erase counts are kept (log entry 35, DEDUCED and DESIGN CHOICE),
and that a read ends in a STORE slot (`storeTurn`, log entry 34) are the model's readings. -/
theorem nandCommands : Obligations.NandCommands := by
  unfold Obligations.NandCommands
  intro s q t tg us ms n entry ok corr x r r' lay port comp c a u w z e k p b l g y B S T rescan up v blk q1 m op served ordered
  refine ⟨exec_nandInit_taken, fun hup hfit => exec_nandScan_fitted hup hfit us, fun hup => exec_nandScanDone_whole hup ms,
    fun hup hinj => exec_nandScanDone_target hup hinj ms, fun hport hready hroom hpop hserved => ⟨fun hkind => ?_, fun hbad hop hfetch => ?_⟩,
    fun hready hframes hfg => ?_, fun hready hframes hfg => ?_,
    fun hready hframes hpower hentry hdue hmap hscan huse => ?_, fun hrun hreq => ⟨?_, fun hcorr => ?_, fun hcorr => ?_⟩,
    exec_checkpointFetch_waiting, fun hturn hrun hreq => exec_nandReadComplete_running hturn hrun hreq ok, exec_nandRelease_running,
    fun hrun => exec_nandEraseComplete_running hrun false, fun hrun => exec_nandEraseComplete_running hrun true, exec_relocationCopy_page,
    exec_journalProgram_running,
    fun hrun hpage => ⟨exec_nandScrubRead_below hrun hpage, exec_nandScrubRead_above hrun hpage, exec_nandScrubRead_uncorrectable hrun hpage⟩,
    exec_nandFull_ready, exec_nandTempSample_due⟩
  · exact exec_nandRequestPop_queued hport hready hroom hpop hserved (if_pos hkind)
  · have hkind : ¬(q1.bad = true ∨ q1.op ≠ 1) := by
      rintro (h | h)
      · rw [hbad] at h
        exact Bool.false_ne_true h
      · exact h hop
    exact exec_nandRequestPop_queued hport hready hroom hpop hserved ((if_neg hkind).trans hfetch)
  · have hperiod := exec_nandFramePeriod_running hready hframes
    rw [hfg] at hperiod
    exact hperiod
  · have hperiod := exec_nandFramePeriod_running hready hframes
    rw [hfg] at hperiod
    exact hperiod
  · have hslot := exec_nandSlot_due hready hframes hpower hentry hdue hmap hscan huse
    refine ⟨fun hcls htaken hz => ?_, fun hkind hcls hport hfind hgood => ⟨fun htwo => ?_, fun hnot hz => ?_⟩, fun hcls howed hz => ?_,
      fun hcls hnone hz => ?_, fun hcls hnone hno hz => ?_, fun hcls hz => ?_, fun hcls => ?_⟩
    · rw [hslot, State.slotServes_taken hcls htaken hz]
    · rw [hslot, State.slotServes_port hkind hcls, State.portSlot_serves hport hfind hgood, if_pos htwo]
    · rw [hslot, State.slotServes_port hkind hcls, State.portSlot_serves hport hfind hgood, if_neg hnot, hz, Option.getD_some]
    · rw [hslot, State.slotServes_journal hcls howed hz]
    · rw [hslot, State.slotServes_collect hcls hnone, hz, Option.getD_some]
    · rw [hslot, State.slotServes_collect hcls hnone, hno, hz, Option.getD_none, Option.getD_some]
    · rw [hslot, State.slotServes_erase hcls hz]
    · rw [hslot, State.slotServes_scrub hcls]
  · exact exec_nandProgramComplete_request hrun hreq (ok := false) rfl
  · refine exec_nandProgramComplete_request (ok := true) hrun hreq (bad := true) ?_
    rw [decide_eq_true hcorr, Bool.or_true]
  · refine exec_nandProgramComplete_request (ok := true) hrun hreq (bad := false) ?_
    rw [decide_eq_false (Nat.not_lt.mpr hcorr)]
    rfl

end Sys2Proof.Machine
end

section
/-! SUPPORT. Laws of the mailbox's requests, of the Lanyard-facing splices and of the lockstep comparison (R528 to R534, R538, R540, R632). -/

namespace Sys2Proof.Machine

section
variable {s u : State} {m : MailReq} {c : Nat}

/-! ### Requests in service (R530, R531) -/

/-- Request m with code c is in service, its work not begun. -/
def State.inService (s : State) (m : MailReq) (c : Nat) : Prop := s.lany.mail = some m ∧ s.normalRuns = true ∧ m.req = c ∧ m.begun = false

theorem State.serve_inService (h : s.inService m c) (eff : MailReq → State → State) : s.serve c eff = eff m s := by
  obtain ⟨hmail, hruns, hreq, hwait⟩ := h
  simp only [State.serve, hmail, hruns, hreq, hwait, decide_true, Bool.not_false, Bool.and_self, if_true]

theorem State.serveWords_empty (h : s.inService m c) (hbody : m.body = []) (eff : List Nat → State → State) : s.serveWords c [] eff = eff [] s := by
  rw [State.serveWords, State.serve_inService h, hbody]
  rfl

/-- A body of one word with no bit outside its mask is in its form. -/
theorem State.serveWords_one {mask : Nat} (h : s.inService m c ∧ m.body.length = 8 ∧ leNat (m.body.take 8) &&& mask = leNat (m.body.take 8))
    (eff : List Nat → State → State) : s.serveWords c [mask] eff = eff [leNat (m.body.take 8)] s := by
  obtain ⟨hserved, hlen, hmask⟩ := h
  rw [State.serveWords, State.serve_inService hserved]
  simp [hlen, hmask]

theorem exec_mbStatus_served (h : s.inService m 1) (hbody : m.body = []) :
    exec .mbStatus s = .next (
      let v := (s.capacity 0).2
      v.reply 0 0
        [laysMask (fun n => v.domOn (3 + n) && v.laySt n = 3) + laysMask (fun n => v.domOn (3 + n) && v.laySt n = 4) * 2 ^ 8 +
          laysMask (fun n => !v.domOn (3 + n)) * 2 ^ 16 + v.lcs * 2 ^ 24,
         v.fld (seA rSENS_T_ALARM) 11 0 + v.fld (seA rSENS_V_ALARM) 19 0 * 2 ^ 32, (s.capacity 0).1, (v.rd64 (pa .fc 0 rFC_STATUS)).toNat,
         if v.netOn then v.timeProperties else 0]) :=
  congrArg Host.Outcome.next (State.serveWords_empty h hbody _)

/-- A load of the rigging starts with no failure recorded. -/
def State.mailRigging (s : State) (addr len : Nat) : State :=
  ({ s with rig := { s.rig with failed := (0, 0, 0, 0) } } : State).rigLoad true addr len

section
variable (h : s.inService m 0x10) (addr len : Nat)
include h

theorem exec_mbRiggingLoad_waits (hturn : s.hostTurn = false) : exec (.mbRiggingLoad addr len) s = .next s := by
  change Host.Outcome.next (s.serve 0x10 _) = _
  rw [State.serve_inService h, hturn]
  rfl

theorem exec_mbRiggingLoad_served (hturn : s.hostTurn = true) :
    exec (.mbRiggingLoad addr len) s = .next (
      let f := s.mailRigging addr len
      if f.rig.failed.1 ≠ 0 then f.reply 3 f.rig.failed.1 []
      else if f.rig.waiting || f.rig.stopping then f.mailBegun
      else f.reply 0 0 []) := by
  change Host.Outcome.next (s.serve 0x10 _) = _
  rw [State.serve_inService h, hturn]
  rfl

/-- A load that failed is answered with its reason; one that waits is answered when it ends, another at once. -/
theorem exec_mbRiggingLoad_failed (hturn : s.hostTurn = true) (hbad : (s.mailRigging addr len).rig.failed.1 ≠ 0) :
    exec (.mbRiggingLoad addr len) s = .next ((s.mailRigging addr len).reply 3 (s.mailRigging addr len).rig.failed.1 []) :=
  (exec_mbRiggingLoad_served h addr len hturn).trans (congrArg Host.Outcome.next (if_pos hbad))

theorem exec_mbRiggingLoad_begun (hturn : s.hostTurn = true) (hok : (s.mailRigging addr len).rig.failed.1 = 0)
    (hwait : (s.mailRigging addr len).rig.waiting = true ∨ (s.mailRigging addr len).rig.stopping = true) :
    exec (.mbRiggingLoad addr len) s = .next (s.mailRigging addr len).mailBegun :=
  (exec_mbRiggingLoad_served h addr len hturn).trans
    (congrArg Host.Outcome.next ((if_neg (not_not.mpr hok)).trans (if_pos ((Bool.or_eq_true _ _).mpr hwait))))

theorem exec_mbRiggingLoad_done (hturn : s.hostTurn = true) (hok : (s.mailRigging addr len).rig.failed.1 = 0)
    (hno : (s.mailRigging addr len).rig.waiting = false) (hrun : (s.mailRigging addr len).rig.stopping = false) :
    exec (.mbRiggingLoad addr len) s = .next ((s.mailRigging addr len).reply 0 0 []) := by
  have hidle : ¬((s.mailRigging addr len).rig.waiting || (s.mailRigging addr len).rig.stopping) = true := by
    rw [hno, hrun]
    decide
  exact (exec_mbRiggingLoad_served h addr len hturn).trans
    (congrArg Host.Outcome.next ((if_neg (not_not.mpr hok)).trans (if_neg hidle)))

end

theorem exec_mbStrandReturn_served
    (h : s.inService m 0x11 ∧ m.body.length = 8 ∧ leNat (m.body.take 8) &&& 0xF07 = leNat (m.body.take 8))
    (hret : s.returnStrand (nbits (leNat (m.body.take 8)) 2 0) (nbits (leNat (m.body.take 8)) 11 8) true = some u) :
    exec .mbStrandReturn s = .next (u.reply 0 0 []) := by
  change Host.Outcome.next (s.serveWords 0x11 [0xF07] _) = _
  rw [State.serveWords_one h]
  simp only [List.getD_cons_zero, hret]

theorem exec_mbStrandKeepOut_served
    (h : s.inService m 0x12 ∧ m.body.length = 8 ∧ leNat (m.body.take 8) &&& 0x10F07 = leNat (m.body.take 8)) :
    exec .mbStrandKeepOut s = .next (
      let w := leNat (m.body.take 8)
      let k := 16 * nbits w 2 0 + nbits w 11 8
      let rest := s.lany.kept.filter (· ≠ k)
      ({ s with lany := { s.lany with kept := if w.testBit 16 then rest ++ [k] else rest } } : State).reply 0 0 []) :=
  congrArg Host.Outcome.next (State.serveWords_one h _)

/-! ### Roster, keys, life cycle and OTP (R268, R474, R483 to R488) -/

section
variable {src : Option (BitVec 34)} {heads : List (BitVec 20 × BitVec 3)} {r : Nat × Nat × Option (Nat × Nat)}
  (h : s.inService m 0x20) (hdom : s.domOn 14 = true) (hturn : s.hostTurn = true)
  (hfrom : s.rosterFrom m.body (src.map (·.toNat)) (fun i => s.meterValid i)
    ((if src.isNone then heads.take 1 else heads).zipIdx.map (fun h => (h.2, (h.1.1.toNat, h.1.2.toNat)))) = (r, u))
include h hdom hturn hfrom

theorem exec_mbRoster_whole (hnone : r.2.2 = none) : exec (.mbRoster src heads) s = .next (u.reply 0 0 [r.1, 0, 0]) := by
  change Host.Outcome.next (s.serve 0x20 _) = _
  rw [State.serve_inService h]
  simp only [hdom, hturn, Bool.not_true, Bool.false_eq_true, if_false, hfrom, hnone]

/-- The first refused image is named with its status. -/
theorem exec_mbRoster_part {i st : Nat} (hsome : r.2.2 = some (i, st)) (hst : st ≠ 0) :
    exec (.mbRoster src heads) s = .next (u.reply (if r.1 = 0 then 3 else 0) (BitVec.ofNat 64 st).toNat [r.1, r.2.1, i]) := by
  change Host.Outcome.next (s.serve 0x20 _) = _
  rw [State.serve_inService h]
  simp only [hdom, hturn, Bool.not_true, Bool.false_eq_true, if_false, hfrom, hsome, if_neg hst]

end

/-- The registers of the KEY page that MB_KEY writes before its command. -/
def State.keyArgs (s : State) (arg mask label gen bIn bOut : BitVec 32) (ctx : BitVec 64) : State :=
  (([(rKEY_ARG, arg), (rKEY_MASK, mask), (rKEY_LABEL, label), (rKEY_GEN_IN, gen), (rKEY_BUF_IN, bIn), (rKEY_BUF_OUT, bOut)] :
    List (Nat × BitVec 32)).foldl (fun (s : State) r => s.lanyWrite (pa .key 0 r.1) r.2) s).plain (pa .key 0 rKEY_CONTEXT) ctx

theorem exec_mbKey_served {op : BitVec 4} {slot : BitVec 12} {arg mask label gen bIn bOut : BitVec 32} {ctx : BitVec 64} (h : s.inService m 0x30)
    (hturn : op.toNat < 3 ∨ 5 < op.toNat ∨ s.hostTurn = true)
    (hfree : s.refusal .normal (pa .key 0 rKEY_CMD) true (BitVec.ofNat 32 (2 ^ 31 + op.toNat * 2 ^ 24 + slot.toNat)) false
      (s.bitAt (pa .key 0 rKEY_STAT) 31) = none) :
    exec (.mbKey op slot arg mask label gen bIn bOut ctx) s = .next (
      let st := pa .key 0 rKEY_STAT
      let k := (((s.keyArgs arg mask label gen bIn bOut ctx).keyCmd .normal (BitVec.ofNat 32 (2 ^ 31 + op.toNat * 2 ^ 24 + slot.toNat))).endJob st).irq
        .key 0 0
      k.reply (if k.fld st 3 0 = 0 then 0 else 3) (k.fld st 3 0) []) := by
  have hgo : ¬((decide (3 ≤ op.toNat) && decide (op.toNat ≤ 5)) && !s.hostTurn) = true := by
    rintro hwait
    simp only [Bool.and_eq_true, decide_eq_true_eq, Bool.not_eq_true'] at hwait
    obtain ⟨⟨hlow, hhigh⟩, hno⟩ := hwait
    rcases hturn with hsmall | hbig | hyes
    · omega
    · omega
    · exact Bool.false_ne_true (hno.symm.trans hyes)
  have hok : ¬(s.refusal .normal (pa .key 0 rKEY_CMD) true (BitVec.ofNat 32 (2 ^ 31 + op.toNat * 2 ^ 24 + slot.toNat)) false
      (s.bitAt (pa .key 0 rKEY_STAT) 31)).isSome = true := by
    rw [hfree]
    exact Bool.false_ne_true
  change Host.Outcome.next (s.serve 0x30 _) = _
  rw [State.serve_inService h]
  exact congrArg Host.Outcome.next ((if_neg hgo).trans (if_neg hok))

/-- A life-cycle request whose write is taken reports the result of the step. -/
theorem exec_mbLifeCycle_served {chal req : Bool} {target : BitVec 3} {good : BitVec 2} (h : s.inService m 0x31)
    (htakes : s.takes .safe (lcsA rLCS_CTRL) (BitVec.ofNat 32 (req.toNat * 2 ^ 31 + chal.toNat * 2 ^ 30 + target.toNat)) false) :
    exec (.mbLifeCycle chal req target good) s = .next (
      let u := s.lcsCtrl .safe (BitVec.ofNat 32 (req.toNat * 2 ^ 31 + chal.toNat * 2 ^ 30 + target.toNat)) good
      let r := u.fld (lcsA rLCS_STAT) 2 0
      u.reply (if (req = false ∧ chal = false) ∨ r = 0 then 0 else if r = 1 then 4 else 3) r []) := by
  have hok : ¬(s.refusal .safe (lcsA rLCS_CTRL) true (BitVec.ofNat 32 (req.toNat * 2 ^ 31 + chal.toNat * 2 ^ 30 + target.toNat)) false
      false).isSome = true := by
    rw [show s.refusal .safe _ true _ false false = none from htakes]
    exact Bool.false_ne_true
  have hcode (r : Nat) : ((!req && !chal || decide (r = 0)) = true) = ((req = false ∧ chal = false) ∨ r = 0) := by
    simp only [Bool.or_eq_true, Bool.and_eq_true, Bool.not_eq_true', decide_eq_true_eq]
  change Host.Outcome.next (s.serve 0x31 _) = _
  rw [State.serve_inService h]
  simp only [if_neg hok, hcode]

theorem exec_mbRootNew_served (h : s.inService m 0x32) (hbody : m.body = []) (hlcs : s.lcs ≠ 4)
    (htakes : s.takes .safe (lcsA rLCS_CTRL) 0x20000000 (s.root.id ≠ 0 || s.tamperBars || !s.drbgOk)) :
    exec .mbRootNew s = .next ((s.lcsCtrl .safe 0x20000000 3).reply 0 0 []) := by
  have hok : ¬(s.refusal .safe (lcsA rLCS_CTRL) true (BitVec.ofNat 32 (2 ^ 29)) false
      (s.root.id ≠ 0 || s.tamperBars || !s.drbgOk)).isSome = true := by
    rw [show BitVec.ofNat 32 (2 ^ 29) = (0x20000000 : Word32) by decide, show s.refusal .safe _ true _ false _ = none from htakes]
    exact Bool.false_ne_true
  change Host.Outcome.next (s.serveWords 0x32 [] _) = _
  rw [State.serveWords_empty h hbody]
  exact congrArg Host.Outcome.next ((if_neg hlcs).trans (if_neg hok))

theorem exec_mbOtpProgram_served {slot : BitVec 3} {hash : BitVec 384} (h : s.inService m 0x33) (hlcs : s.lcs ≤ 1)
    (htakes : s.takes .normal (lcsA rLCS_OTP_CMD) (BitVec.ofNat 32 (2 ^ 31 + slot.toNat)) (s.otpHas slot.toNat)) :
    exec (.mbOtpProgram slot hash) s = .next (
      let l := toBe 48 hash.toNat
      let u := (List.range 12).foldl (fun (s : State) i => s.lanyWrite (lcsA (rLCS_OTP_DATA + 4 * i)) (BitVec.ofNat 32 (leAt l (4 * i) 4))) s
      (u.otpCmd .normal (BitVec.ofNat 32 (2 ^ 31 + slot.toNat))).reply 0 0 []) := by
  have hok : ¬(s.refusal .normal (lcsA rLCS_OTP_CMD) true (BitVec.ofNat 32 (2 ^ 31 + slot.toNat)) false (s.otpHas slot.toNat)).isSome = true := by
    rw [show s.refusal .normal _ true _ false _ = none from htakes]
    exact Bool.false_ne_true
  change Host.Outcome.next (s.serve 0x33 _) = _
  rw [State.serve_inService h]
  exact congrArg Host.Outcome.next ((if_neg (Nat.not_lt.mpr hlcs)).trans (if_neg hok))

/-! ### Updates and settings (R599 to R609) -/

theorem exec_updatePiece_served {k : Nat} {nf ff : Bool} (h : s.inService m 0x40) (hpiece : s.takePiece (m.body.drop 8) nf ff = (k, u)) :
    exec (.updatePiece nf ff) s = .next (if k = 0 then u.reply 0 0 [] else if k = 255 then u.replyRefused else u.reply 3 k []) := by
  change Host.Outcome.next (s.serve 0x40 _) = _
  rw [State.serve_inService h]
  simp only [hpiece]

theorem exec_updateStatus_served (h : s.inService m 0x40) (kind : Fin 4) :
    exec (.updateStatus kind) s = .next (
      let k := kind.val + 1
      let a := resumeAt k
      let n := if s.resumeSt k = 0 then 0 else s.die.le .fram (a + 0x10) 2
      let rs := ((runsOf ((List.range n).filter (fun i => !s.resBit k 0x080 i))).take 200).map (fun r => r.1 + r.2 * 2 ^ 16)
      s.reply 0 0 ([s.resumeSt k, if s.resumeSt k = 0 then 0 else s.die.le .fram (a + 8) 8, n] ++
        (List.range ((rs.length + 1) / 2)).map (fun i => rs.getD (2 * i) 0 + rs.getD (2 * i + 1) 0 * 2 ^ 32))) := by
  change Host.Outcome.next (s.serve 0x40 _) = _
  rw [State.serve_inService h]

theorem exec_updateActivate_served (h : s.inService m 0x40) :
    exec .updateActivate s = .next (((s.reply 0 0 []).flushNow).rstCtrl .normal 0x800052A5) := by
  change Host.Outcome.next (s.serve 0x40 _) = _
  rw [State.serve_inService h]

theorem exec_updateImageStore_served {sl : Fin 64} {ff : Bool} {at_ : List (Nat × Nat)} (h : s.inService m 0x40) (hst : s.resumeSt 4 = 1)
    (hgroups : s.groupsDone 4 = true) (hfree : ∀ c ∈ s.camps, c.slot ≠ sl.val) (hrun : s.rig.running = true) (h14 : s.domOn 14 = true)
    (h15 : s.domOn 15 = true)
    (hstore : s.storeImage (imagePages (s.bytes .nor (recvAt 4 + 0x10000) (Machine.u (s.manifestAt (recvAt 4)) 0x18 4))) [] = some (at_, u)) :
    exec (.updateImageStore sl ff) s = .next (
      let man := s.manifestAt (recvAt 4)
      let x : SlotImage := ⟨(man.drop 0x20).take 32, Machine.u man 8 8, Machine.u man 0x18 4, at_⟩
      (({ u with images := place sl.val x (Machine.drop u.images sl.val) } : State).setResumeSt 4 3 ff).reply 0 0 []) := by
  have hcamps : s.camps.any (fun c => c.slot = sl.val) = false := List.any_eq_false.mpr fun c hc => by simpa using hfree c hc
  change Host.Outcome.next (s.serve 0x40 _) = _
  rw [State.serve_inService h]
  simp only [hst, hgroups, hcamps, hrun, h14, h15, hstore, ne_eq, not_true_eq_false, Bool.not_true, Bool.false_eq_true, or_self, if_false]

theorem exec_settingsSave_served (h : s.inService m 0x41) :
    exec (.settingsSave true) s = .next ((s.settingsWrite s.settingsNow true).reply 0 0 []) := by
  change Host.Outcome.next (s.serve 0x41 _) = _
  rw [State.serve_inService h]
  simp only [if_true]

theorem exec_settingsDefaults_served (h : s.inService m 0x41) : exec .settingsDefaults s = .next (s.settingsReset.reply 0 0 []) := by
  change Host.Outcome.next (s.serve 0x41 _) = _
  rw [State.serve_inService h]

/-! ### Domains, health and the host watchdog (R538, R540, R632) -/

theorem exec_mbDomain_served
    (h : s.inService m 0x50 ∧ m.body.length = 8 ∧ leNat (m.body.take 8) &&& 0x31F = leNat (m.body.take 8))
    (hlow : 0 < nbits (leNat (m.body.take 8)) 4 0) (hhigh : nbits (leNat (m.body.take 8)) 4 0 ≤ 17) (htgt : nbits (leNat (m.body.take 8)) 9 8 ≠ 3)
    (hok : s.targetBad (nbits (leNat (m.body.take 8)) 4 0) (nbits (leNat (m.body.take 8)) 9 8) = 0) :
    exec .mbDomain s = .next (((s.lanyEvent 0x1E [leNat (m.body.take 8)]).mailBegun).pwrDom .normal (nbits (leNat (m.body.take 8)) 4 0)
      (BitVec.ofNat 32 (nbits (leNat (m.body.take 8)) 9 8))) := by
  have hform : ¬(nbits (leNat (m.body.take 8)) 4 0 = 0 ∨ 17 < nbits (leNat (m.body.take 8)) 4 0 ∨ nbits (leNat (m.body.take 8)) 9 8 = 3) := by
    omega
  change Host.Outcome.next (s.serveWords 0x50 [0x31F] _) = _
  rw [State.serveWords_one h]
  simp only [List.getD_cons_zero, if_neg hform, hok, ne_eq, not_true_eq_false, if_false]

theorem exec_mbHealth_served (h : s.inService m 0x70) (hbody : m.body = []) : exec .mbHealth s = .next (s.reply 0 0 s.lifetime.words) :=
  congrArg Host.Outcome.next (State.serveWords_empty h hbody _)

theorem exec_mbWdogSet_served
    (h : s.inService m 0x80 ∧ m.body.length = 8 ∧ leNat (m.body.take 8) &&& 0x1FFFFFFFF = leNat (m.body.take 8))
    (hlow : 100 ≤ nbits (leNat (m.body.take 8)) 15 0) (hhigh : nbits (leNat (m.body.take 8)) 15 0 ≤ 60000)
    (hwin : nbits (leNat (m.body.take 8)) 31 16 < nbits (leNat (m.body.take 8)) 15 0)
    (hfield : s.lcs ≠ 2 ∨ s.bitAt (wdA rWDG_HOST_CFG) 31 = false ∨
      ((leNat (m.body.take 8)).testBit 32 = true ∧ nbits (leNat (m.body.take 8)) 15 0 ≤ s.fld (wdA rWDG_HOST_CFG) 15 0))
    (htakes : s.takes .safe (wdA rWDG_HOST_WIN) (BitVec.ofNat 32 (nbits (leNat (m.body.take 8)) 31 16)) false) :
    exec .mbWdogSet s = .next (
      let w := leNat (m.body.take 8)
      ((s.plain (wdA rWDG_HOST_WIN) (BitVec.ofNat 64 (nbits w 31 16))).hostCfg .safe
        (BitVec.ofNat 32 (nbits w 15 0 + (nbits w 32 32) * 2 ^ 31))).reply 0 0 []) := by
  have hform : ¬(nbits (leNat (m.body.take 8)) 15 0 < 100 ∨ 60000 < nbits (leNat (m.body.take 8)) 15 0 ∨
      nbits (leNat (m.body.take 8)) 15 0 ≤ nbits (leNat (m.body.take 8)) 31 16) := by
    omega
  have hallowed : ¬(s.lcs = 2 ∧ s.bitAt (wdA rWDG_HOST_CFG) 31 = true ∧
      ((!(leNat (m.body.take 8)).testBit 32) = true ∨ s.fld (wdA rWDG_HOST_CFG) 15 0 < nbits (leNat (m.body.take 8)) 15 0)) := by
    rintro ⟨htwo, hen, hloose⟩
    rcases hfield with hother | hoff | ⟨hkeeps, hshort⟩
    · exact hother htwo
    · exact Bool.false_ne_true (hoff.symm.trans hen)
    · rcases hloose with hoff | hlong
      · rw [hkeeps] at hoff
        exact Bool.false_ne_true hoff
      · exact absurd hlong (Nat.not_lt.mpr hshort)
  change Host.Outcome.next (s.serveWords 0x80 [0x1FFFFFFFF] _) = _
  rw [State.serveWords_one h]
  simp only [List.getD_cons_zero, if_neg hform, if_neg hallowed, State.guarded_of_takes htakes]

/-! ### The next request, Lanyard-facing splices and lockstep (R530, R534) -/

theorem exec_mailboxRequest_next {c : Cell512} {cs : List Cell512} (hruns : s.normalRuns = true) (hidle : s.lany.mail = none)
    (htake : s.takeMessage 21 6144 512 = ([], c :: cs, u)) (htaint : ∀ d ∈ c :: cs, cellTaint d = false) (hlen : (c :: cs).length ≤ 64)
    (hknown : reqKnown (cellChan c) = true) :
    exec .mailboxRequest s = .next { u with lany := { u.lany with
      mail := some ⟨cellChan c, cellAux c, (c :: cs).flatMap (fun c => cellBytes c (min 56 (cellLen c))), false⟩ } } := by
  have hclean : (c :: cs).any cellTaint = false := List.any_eq_false.mpr fun d hd => by simpa using htaint d hd
  change execMailboxRequest s = _
  simp only [execMailboxRequest, hruns, hidle, htake, State.mailTaken, hclean, hknown, decide_eq_false (Nat.not_lt.mpr hlen), Option.isSome_none,
    Bool.not_true, Bool.false_eq_true, Bool.or_self, or_self, ne_eq, not_true_eq_false, if_false]

theorem exec_lanyardSplicePop_cell {n : BitVec 13} {c : Cell512} {a : Bool} (hruns : s.normalRuns = true) (hlow : 6208 ≤ n.toNat)
    (hhigh : n.toNat < 6336) (hend : s.fld (descA n.toNat 1) 12 8 = 0x15) (hpop : s.pop n.toNat = (some (c, a), u)) (ok nf ff : Bool) :
    exec (.lanyardSplicePop n ok nf ff) s = .next (u.lanyCell n.toNat c ok nf ff) := by
  have hgo : ¬(!(s.normalRuns && decide (6208 ≤ n.toNat) && decide (n.toNat < 6336) && decide (s.fld (descA n.toNat 1) 12 8 = 0x15))) = true := by
    rw [hruns, decide_eq_true hlow, decide_eq_true hhigh, decide_eq_true hend]
    decide
  change execLanyardSplicePop n ok nf ff s = _
  simp only [execLanyardSplicePop, if_neg hgo, hpop]

end

end Sys2Proof.Machine
end

section
/-! PROOFS. The statement about the mailbox. -/

namespace Sys2Proof.Machine

/-- Settles O55: a request in service with a body in its form has its effect and its reply. The layout of UPDATE_STATUS (log entry 28, DESIGN CHOICE),
the sixth word of STATUS, the layout of HEALTH and the empty body of ROOT_NEW (log entry 25, DESIGN CHOICE and DEDUCED) are the model's readings. -/
theorem mailboxCommands : Obligations.MailboxCommands := by
  unfold Obligations.MailboxCommands
  intro s m addr len u src heads r op slot arg mask label gen bIn bOut ctx chal req target good hash nf ff ok kind sl n c a cs k at_ served w word f id
    rest K cmd args key lv lc lr otp H win heads' dom tgt st np rs man
  refine ⟨exec_mbStatus_served, fun h => exec_mbRiggingLoad_waits h addr len, fun h hturn => ⟨exec_mbRiggingLoad_begun h addr len hturn,
      exec_mbRiggingLoad_done h addr len hturn, exec_mbRiggingLoad_failed h addr len hturn⟩,
    exec_mbStrandReturn_served, exec_mbStrandKeepOut_served, fun h hdom hturn hfrom => ⟨fun hnone => ?_, fun i st hsome hst => ?_⟩,
    exec_mbKey_served, exec_mbLifeCycle_served, exec_mbRootNew_served, exec_mbOtpProgram_served, fun h hpiece => ⟨fun hzero => ?_, fun hzero hbad => ?_⟩,
    fun h => exec_updateStatus_served h kind, exec_updateActivate_served, exec_updateImageStore_served, exec_settingsSave_served,
    exec_settingsDefaults_served, exec_mbDomain_served, exec_mbHealth_served, exec_mbWdogSet_served, exec_mailboxRequest_next,
    fun hruns hlow hhigh hend hpop => exec_lanyardSplicePop_cell hruns hlow hhigh hend hpop ok nf ff, fun hd hst => ?_⟩
  · exact exec_mbRoster_whole h hdom hturn hfrom hnone
  · rw [exec_mbRoster_part h hdom hturn hfrom hsome hst, BitVec.toNat_ofNat]
  · exact (exec_updatePiece_served h hpiece).trans (congrArg Host.Outcome.next (if_pos hzero))
  · exact (exec_updatePiece_served h hpiece).trans (congrArg Host.Outcome.next ((if_neg hzero).trans (if_neg hbad)))
  · have hgo : ¬((!s.domOn 2) = true ∨ s.bitAt (wdA rLNY_STAT) 0 = true) := by
      simp [hd, hst]
    exact congrArg Host.Outcome.next (if_neg hgo)

end Sys2Proof.Machine
end

section
/-! SUPPORT. Laws of the pair: its frames, roles, link, cleat and host commands (R569 to R578, R592, R593). -/

namespace Sys2Proof.Machine

section
variable {s v : State} {q : Requester} {t : Nat} {h : PairHead}

/-! ### Frames heard (R570, R571) -/

/-- A frame of a type and body verifies under a counter above the last, with no armed buffer error: v is the state once its buffer word was read. -/
def State.hears (s : State) (h : PairHead) (v : State) (type : Nat) (body : List Byte) : Prop :=
  s.pairLoadKey.pairOn = true ∧ s.pairLoadKey.inject .pair 0 3 4 = (0, v) ∧ v.pairGood h type body = true ∧
    (h.session.toNat ≠ v.pair.peerSession ∨ v.pair.peerCtr < h.fctr.toNat)

/-- The session and counter of a frame are the last heard. -/
def State.heardFrom (v : State) (h : PairHead) : State :=
  { v with pair := { v.pair with peerSession := h.session.toNat, peerCtr := h.fctr.toNat } }

theorem State.pairTake_of_hears {type : Nat} {body : List Byte} (hh : s.hears h v type body) (eff : State → State) :
    s.pairTake h type body eff = eff (v.heardFrom h) := by
  obtain ⟨hon, hread, hgood, hnew⟩ := hh
  have hfresh : (decide (h.session.toNat = v.pair.peerSession) && decide (h.fctr.toNat ≤ v.pair.peerCtr)) = false := by
    rcases hnew with hother | hlater
    · rw [decide_eq_false hother, Bool.false_and]
    · rw [decide_eq_false (Nat.not_le.mpr hlater), Bool.and_false]
  simp only [State.pairTake, hon, hread, hgood, hfresh, State.heardFrom, Nat.zero_ne_one, (by decide : (0 : Nat) ≠ 2), decide_false, Bool.not_true,
    Bool.false_eq_true, Bool.or_self, if_false]

/-! ### The pair's enable (R569, R592) -/

theorem State.leaseCtrl_enable {w : Word32} (hoff : s.pairEn = false) (hbit : bit w 0 = true) (htakes : s.takes q (leA rLEASE_CTRL) w false) :
    s.leaseCtrl q w = (s.plain (leA rLEASE_CTRL) (w.setWidth 64)).setRole 1 := by
  simp only [State.leaseCtrl, hoff, hbit, Bool.false_and, State.guarded_of_takes htakes, Bool.not_false, Bool.and_self, if_true]

theorem State.leaseCtrl_disable {w : Word32} (hon : s.pairEn = true) (hrole : s.role = 1 ∨ s.role = 5) (hbit : bit w 0 = false)
    (htakes : s.takes q (leA rLEASE_CTRL) w false) : s.leaseCtrl q w = (s.plain (leA rLEASE_CTRL) (w.setWidth 64)).setRole 0 := by
  have hquiet : (decide (s.role = 1) || decide (s.role = 5)) = true := by simpa using hrole
  simp only [State.leaseCtrl, hon, hbit, hquiet, Bool.not_true, Bool.and_false, State.guarded_of_takes htakes, Bool.not_false, Bool.and_self,
    Bool.false_and, Bool.false_eq_true, if_true, if_false]

/-! ### A HELLO says nothing of the timers -/

/-- The CHIP registers stand in the OTP and go by no timer. -/
theorem viewRow_setTimer_chip (k n i o : Nat) (r : RegRow) : (s.setTimer k n).viewRow .chip i r o = s.viewRow .chip i r o := by
  simp only [State.viewRow, State.view64, State.view32]
  rfl

theorem view_setTimer_chip (k n : Nat) {a i : Nat} (h : pageAt (a / 4 * 4 / 4096) = some (.chip, i)) : (s.setTimer k n).view a = s.view a := by
  simp only [State.view, isDesc_of_pageAt h, h, Bool.false_eq_true, if_false, viewRow_setTimer_chip]
  rfl

theorem State.ownHello_setTimer (k n : Nat) : (s.setTimer k n).ownHello = s.ownHello := by
  have hserial : (s.setTimer k n).viewWide (pa .chip 0 rCHIP_SERIAL) = s.viewWide (pa .chip 0 rCHIP_SERIAL) := by
    rw [State.viewWide, State.viewWide, view_setTimer_chip k n (i := 0) (by decide), view_setTimer_chip k n (i := 0) (by decide)]
  have hhw : (s.setTimer k n).view (pa .chip 0 rCHIP_HWTYPE) = s.view (pa .chip 0 rCHIP_HWTYPE) := view_setTimer_chip k n (i := 0) (by decide)
  have hepoch : (s.setTimer k n).epoch = s.epoch := State.epoch_eq rfl rfl
  rw [State.ownHello, State.ownHello, hserial, hhw, hepoch]
  rfl

/-! ### HELLO and the lanes (R570 to R572) -/

theorem exec_helloSend_due (hon : (s.at t).pairLoadKey.pairOn = true)
    (hdue : (s.at t).pairLoadKey.timer (prA rPAIR_STAT) ≤ (s.at t).pairLoadKey.now) {w : State}
    (hsent : ((s.at t).pairLoadKey.setTimer (prA rPAIR_STAT) ((s.at t).pairLoadKey.now + 20000000)).pairSend 1
      (helloBytes ((s.at t).pairLoadKey.setTimer (prA rPAIR_STAT) ((s.at t).pairLoadKey.now + 20000000)).ownHello) false = w)
    (hno : w.pair.catchup = none) : exec (.helloSend t) s = .next w := by
  have hgo : ¬(!(s.at t).pairLoadKey.pairOn || decide ((s.at t).pairLoadKey.now < (s.at t).pairLoadKey.timer (prA rPAIR_STAT))) = true := by
    rw [hon, decide_eq_false (Nat.not_lt.mpr hdue)]
    decide
  rw [State.ownHello_setTimer] at hsent
  change execHelloSend t s = _
  simp only [execHelloSend, if_neg hgo, hsent, hno]

/-- The pages that wait for a peer that is not ready fail. -/
def State.settled (s : State) : State := if s.peerReady then s else s.failOutstanding

/-- What a HELLO records of the peer. -/
def State.metPeer (e : State) (b : HelloBody) : State :=
  (({ e with pair := { e.pair with seen := some e.now, peer := some b, told := false } } : State).wr
    (leA rLEASE_PEER_EPOCH) b.epoch).wr64 (prA rPAIR_PEER_SERIAL) b.serial

section
variable {b : HelloBody}

theorem exec_hello_heard (hh : (s.at t).hears h v 1 (helloBytes b)) :
    exec (.hello h b t) s = .next (
      let e := v.heardFrom h
      let bad := b.hwtype ≠ e.view (pa .chip 0 rCHIP_HWTYPE) || b.fit ≠ e.rd (nandA rNAND_FIT)
      let s := e.metPeer b
      let s := if bad && !s.bitAt (prA rPAIR_STAT) 3 then (s.cause .pair 0 2).lanyEvent 0x57 [] else s
      let s := s.putBit (prA rPAIR_STAT) 3 bad
      let s := if s.linkUp then s else (((s.putBit (prA rPAIR_STAT) 2 true).irq .pair 0 0).newSession).lanyEvent 0x55 []
      let s := s.settled
      if bad then s else s.helloActs b) :=
  congrArg Host.Outcome.next (State.pairTake_of_hears hh _)

section
variable (hh : (s.at t).hears h v 1 (helloBytes b)) (hhw : (v.heardFrom h).view (pa .chip 0 rCHIP_HWTYPE) = b.hwtype)
  (hfit : (v.heardFrom h).rd (nandA rNAND_FIT) = b.fit)
include hh hhw hfit

/-- A peer that fits, on a link that was up or comes up with it. -/
theorem exec_hello_linked (hup : (((v.heardFrom h).metPeer b).putBit (prA rPAIR_STAT) 3 false).linkUp = true) :
    exec (.hello h b t) s = .next ((((v.heardFrom h).metPeer b).putBit (prA rPAIR_STAT) 3 false).settled.helloActs b) := by
  rw [exec_hello_heard hh]
  simp only [hhw, hfit, ne_eq, not_true_eq_false, decide_false, Bool.or_self, Bool.false_and, Bool.false_eq_true, if_false, hup, if_true]

theorem exec_hello_linking (hdown : (((v.heardFrom h).metPeer b).putBit (prA rPAIR_STAT) 3 false).linkUp = false) :
    exec (.hello h b t) s = .next (((((((((v.heardFrom h).metPeer b).putBit (prA rPAIR_STAT) 3 false).putBit (prA rPAIR_STAT) 2 true).irq
      .pair 0 0).newSession).lanyEvent 0x55 []).settled).helloActs b) := by
  rw [exec_hello_heard hh]
  simp only [hhw, hfit, ne_eq, not_true_eq_false, decide_false, Bool.or_self, Bool.false_and, Bool.false_eq_true, if_false, hdown]

end

/-- A peer that does not fit is reported once, and nothing starts with it. -/
theorem exec_hello_mismatch (hh : (s.at t).hears h v 1 (helloBytes b))
    (hbad : (v.heardFrom h).view (pa .chip 0 rCHIP_HWTYPE) ≠ b.hwtype ∨ (v.heardFrom h).rd (nandA rNAND_FIT) ≠ b.fit)
    (hfirst : ((v.heardFrom h).metPeer b).bitAt (prA rPAIR_STAT) 3 = false)
    (hup : (((((v.heardFrom h).metPeer b).cause .pair 0 2).lanyEvent 0x57 []).putBit (prA rPAIR_STAT) 3 true).linkUp = true) :
    exec (.hello h b t) s = .next (((((v.heardFrom h).metPeer b).cause .pair 0 2).lanyEvent 0x57 []).putBit (prA rPAIR_STAT) 3 true).settled := by
  have hdiffers : (decide (b.hwtype ≠ (v.heardFrom h).view (pa .chip 0 rCHIP_HWTYPE)) || decide (b.fit ≠ (v.heardFrom h).rd (nandA rNAND_FIT))) =
      true := by
    rw [Bool.or_eq_true, decide_eq_true_eq, decide_eq_true_eq]
    exact hbad.imp Ne.symm Ne.symm
  rw [exec_hello_heard hh]
  simp only [hdiffers, hfirst, hup, Bool.not_false, Bool.and_self, if_true]

end

/-- No frame has been heard for 100 ms on a link that was up. -/
theorem exec_pairLinkDown_silent (hd : (s.at t).domOn 11 = true) (hsilent : ∀ x, (s.at t).pair.seen = some x → x + 100000000 ≤ (s.at t).now)
    (hup : (s.at t).bitAt (prA rPAIR_STAT) 2 = true) :
    exec (.pairLinkDown t) s = .next (((((((s.at t).putBit (prA rPAIR_STAT) 2 false).irq .pair 0 0).lanyEvent 0x54 []).clearLink).failOutstanding).salvageBroken
      (s.at t).pair.salvage.isSome) := by
  have hall : (s.at t).pair.seen.all (fun x => decide (x + 100000000 ≤ (s.at t).now)) = true := by
    rw [Option.all_eq_true]
    exact fun x hx => decide_eq_true (hsilent x hx)
  have hgo : ((s.at t).domOn 11 && (s.at t).pair.seen.all (fun x => decide (x + 100000000 ≤ (s.at t).now))) = true := by
    rw [hd, hall]
    decide
  change execPairLinkDown t s = _
  simp only [execPairLinkDown, if_pos hgo, State.linkDown, hup, Bool.not_true, Bool.false_eq_true, if_false]

section
variable {lane : Fin 2} (hd : s.domOn 11 = true)
include hd

theorem exec_laneDown_aligned (hen : s.bitAt (prA 0x00C) 0 = true) (hlane : s.bitAt (prA rPAIR_CTRL) (lane.val + 1) = true) :
    exec (.laneDown lane true) s = .next (s.putBit (prA rPAIR_STAT) lane.val true) := by
  change execLaneDown lane true s = _
  simp only [execLaneDown, hd, hen, hlane, Bool.not_true, Bool.false_eq_true, Bool.and_self, if_false, if_true]

theorem exec_laneDown_lost (hup : s.bitAt (prA rPAIR_STAT) lane.val = true) :
    exec (.laneDown lane false) s = .next (
      let d := (s.putBit (prA rPAIR_STAT) lane.val false).cause .pair 0 0
      if d.lanesUp = [] then d.linkDown else d) := by
  change execLaneDown lane false s = _
  simp only [execLaneDown, hd, hup, Bool.not_true, Bool.false_eq_true, if_false]

end

/-! ### The cleat (R573 to R576) -/

theorem exec_renewSend_due (hrole : (s.at t).role = 2) (hlease : (s.at t).leaseDue = false)
    (hold : ∀ x ∈ (s.at t).pair.renews, x.2 + 500000000 ≤ (s.at t).now) : exec (.renewSend t) s = .next (s.at t).renew := by
  have hrecent : ¬(s.at t).pair.renews.any (fun e => decide ((s.at t).now < e.2 + 500000000)) = true := by
    rw [Bool.not_eq_true, List.any_eq_false]
    exact fun x hx => by simpa using hold x hx
  have hran : ¬(s.at t).leaseDue = true := Bool.eq_false_iff.mp hlease
  exact congrArg Host.Outcome.next ((if_neg (not_not.mpr hrole)).trans ((if_neg hran).trans (if_neg hrecent)))

theorem exec_renewSend_lapsed (hrole : (s.at t).role = 2) (hlease : (s.at t).leaseDue = true) : exec (.renewSend t) s = .next ((s.at t).fence false) :=
  congrArg Host.Outcome.next ((if_neg (not_not.mpr hrole)).trans (if_pos hlease))

theorem exec_leaseExpiry_lapsed (hlease : (s.at t).leaseDue = true) : exec (.leaseExpiry t) s = .next ((s.at t).fence false) :=
  congrArg Host.Outcome.next (if_pos hlease)

section
variable {rseq epoch : BitVec 32}

/-- What a RENEW heard does with the peer's epoch recorded: two parts in service fence the older, and a part that may stand by grants it. -/
theorem exec_renew_heard (hh : (s.at t).hears h v 2 (toBe 4 rseq.toNat ++ toBe 4 epoch.toNat)) :
    exec (.renew h rseq epoch t) s = .next (
      let r := (v.heardFrom h).wr (leA rLEASE_PEER_EPOCH) epoch
      if r.role = 2 ∨ r.role = 4 then (if r.epoch ≤ epoch.toNat then r.fence true else r)
      else if epoch.toNat < r.epoch then r
      else if r.role = 1 then r.enterStandby.grant rseq.toNat
      else if r.role = 3 then r.grant rseq.toNat
      else r) :=
  congrArg Host.Outcome.next (State.pairTake_of_hears hh _)

section
variable (hh : (s.at t).hears h v 2 (toBe 4 rseq.toNat ++ toBe 4 epoch.toNat))
  (hepoch : ((v.heardFrom h).wr (leA rLEASE_PEER_EPOCH) epoch).epoch ≤ epoch.toNat)
include hh hepoch

theorem exec_renew_standby (hrole : ((v.heardFrom h).wr (leA rLEASE_PEER_EPOCH) epoch).role = 3) :
    exec (.renew h rseq epoch t) s = .next (((v.heardFrom h).wr (leA rLEASE_PEER_EPOCH) epoch).grant rseq.toNat) := by
  rw [exec_renew_heard hh]
  simp only [hrole, Nat.not_lt.mpr hepoch, (by decide : ¬((3 : Nat) = 2 ∨ (3 : Nat) = 4)), (by decide : (3 : Nat) ≠ 1), if_false, if_true]

theorem exec_renew_starting (hrole : ((v.heardFrom h).wr (leA rLEASE_PEER_EPOCH) epoch).role = 1) :
    exec (.renew h rseq epoch t) s = .next (((v.heardFrom h).wr (leA rLEASE_PEER_EPOCH) epoch).enterStandby.grant rseq.toNat) := by
  rw [exec_renew_heard hh]
  simp only [hrole, Nat.not_lt.mpr hepoch, (by decide : ¬((1 : Nat) = 2 ∨ (1 : Nat) = 4)), if_false, if_true]

theorem exec_renew_conflict (hrole : ((v.heardFrom h).wr (leA rLEASE_PEER_EPOCH) epoch).role = 2 ∨
    ((v.heardFrom h).wr (leA rLEASE_PEER_EPOCH) epoch).role = 4) :
    exec (.renew h rseq epoch t) s = .next (((v.heardFrom h).wr (leA rLEASE_PEER_EPOCH) epoch).fence true) := by
  rw [exec_renew_heard hh]
  simp only [if_pos hrole, if_pos hepoch]

end

/-- A GRANT of a RENEW that is known and later than the last granted: the lease runs from the moment the RENEW was sent. -/
theorem exec_grant_known {at0 : Nat} (hh : (s.at t).hears h v 3 (toBe 4 rseq.toNat)) (hrole : (v.heardFrom h).role = 2)
    (hlease : (v.heardFrom h).leaseDue = false)
    (hfind : ((v.heardFrom h).pairCount 1).pair.renews.find? (fun e => e.1 = rseq.toNat) = some (rseq.toNat, at0))
    (hlater : ((v.heardFrom h).pairCount 1).pair.granted < rseq.toNat) :
    exec (.grant h rseq t) s = .next (
      let g := (v.heardFrom h).pairCount 1
      { g with pair := { g.pair with
        granted := rseq.toNat, expiry := at0 + 2000000000, grantAt := some g.now, renews := g.pair.renews.filter (fun e => decide (rseq.toNat ≤ e.1)) } }) := by
  have hran : ¬(v.heardFrom h).leaseDue = true := Bool.eq_false_iff.mp hlease
  change Host.Outcome.next ((s.at t).pairTake h 3 (toBe 4 rseq.toNat) _) = _
  rw [State.pairTake_of_hears hh]
  simp only [if_neg (not_not.mpr hrole), if_neg hran, hfind, if_neg (Nat.not_le.mpr hlater)]

end

theorem exec_takeoverTime_due (hrole : (s.at t).role = 3) (hruns : 0 < (s.at t).pair.expiry) (hdue : (s.at t).pair.expiry ≤ (s.at t).now) (up : Bool) :
    exec (.takeoverTime up t) s = .next (
      let start := { s.at t with pair := { (s.at t).pair with expiry := 0, test := none, salvage := none } }
      ([3, 4, 5, 6, 7, 8, 9, 10, 14, 16, 12, 13, 17] : List Nat).foldl (fun (s : State) d => s.turnOn d)
        ((((start.setRole 4).stopAll).newEpoch up).2.lanyEvent 0x52 [])) := by
  have hgo : ¬((s.at t).role ≠ 3 ∨ (s.at t).pair.expiry = 0 ∨ (s.at t).now < (s.at t).pair.expiry) := by omega
  exact congrArg Host.Outcome.next (if_neg hgo)

theorem exec_takeoverComplete_ready (hrole : (s.at t).role = 4) (hepoch : ((s.at t).rd (leA rLEASE_PEER_EPOCH)).toNat < (s.at t).epoch)
    (hruns : (s.at t).normalRuns = true) : exec (.takeoverComplete t) s = .next (s.at t).takeoverEnd :=
  congrArg Host.Outcome.next (if_pos ⟨hrole, hepoch, hruns⟩)

/-! ### Host commands (R593) -/

theorem State.pairHost_forceActive (hrole : s.role = 1 ∨ s.role = 5)
    (hdown : (!s.linkUp || s.pair.peer.any (fun p => p.role.val = 5)) = true) (htakes : s.takes q (prA rPAIR_HOST_CMD) 0x80000001 false) :
    s.pairHost q 0x80000001 false = (s.newEpoch false).2.becomeActive := by
  have hcode : bits (0x80000001 : Word32) 3 0 = 1 := by decide
  have hgo : bit (0x80000001 : Word32) 31 = true := by decide
  have hok : (decide (s.role = 1) || decide (s.role = 5)) = true := by simpa using hrole
  simp only [State.pairHost, hcode, hgo, hok, hdown, decide_true, Bool.and_self, Bool.true_or, Bool.not_true, Bool.and_false,
    State.guarded_of_takes htakes, Bool.false_eq_true, if_false, if_true]
  rfl

theorem State.pairHost_stayOut (hrole : s.role = 5) (htakes : s.takes q (prA rPAIR_HOST_CMD) 0x80000002 false) :
    s.pairHost q 0x80000002 false = { s with pair := { s.pair with stayOut := true } } := by
  have hcode : bits (0x80000002 : Word32) 3 0 = 2 := by decide
  have hgo : bit (0x80000002 : Word32) 31 = true := by decide
  simp only [State.pairHost, hcode, hgo, hrole, decide_true, Bool.and_self, Bool.or_true, Bool.true_or, Bool.not_true, Bool.and_false,
    State.guarded_of_takes htakes, Bool.false_eq_true, (by decide : (2 : Nat) ≠ 1), if_false]

theorem State.pairHost_rejoin (htakes : s.takes q (prA rPAIR_HOST_CMD) 0x80000003 false) :
    s.pairHost q 0x80000003 false = { s with pair := { s.pair with stayOut := false } } := by
  have hcode : bits (0x80000003 : Word32) 3 0 = 3 := by decide
  have hgo : bit (0x80000003 : Word32) 31 = true := by decide
  simp only [State.pairHost, hcode, hgo, decide_true, Bool.or_true, Bool.not_true, Bool.and_false, State.guarded_of_takes htakes, Bool.false_eq_true,
    (by decide : (3 : Nat) ≠ 1), (by decide : (3 : Nat) ≠ 2), decide_false, if_false]

end

end Sys2Proof.Machine
end

section
/-! PROOFS. The statement about the pair's roles. -/

namespace Sys2Proof.Machine

/-- Settles O56: a frame that is heard, a time that is reached or a write that is taken changes the role, the link or the lease as its rule gives. The
sizes of the fields of a HELLO (`helloBytes`, R571) are log entry 30, DESIGN CHOICE. -/
theorem pairRoleCommands : Obligations.PairRoleCommands := by
  unfold Obligations.PairRoleCommands
  intro s q t pref up h b v rseq epoch lane at0 y L P C z heard e hw fit e1 e2 r g en off sent hello renew settle start down
  have hen : bit en 0 = true := by cases pref <;> decide
  have hoff : bit off 0 = false := by cases pref <;> decide
  exact ⟨fun hwas htakes => congrArg Host.Outcome.next (State.leaseCtrl_enable hwas hen htakes),
    fun hwas hrole htakes => congrArg Host.Outcome.next (State.leaseCtrl_disable hwas hrole hoff htakes),
    fun hon hdue hno => exec_helloSend_due hon hdue rfl hno, exec_hello_linked, exec_hello_linking, exec_hello_mismatch, exec_pairLinkDown_silent,
    exec_laneDown_aligned, exec_laneDown_lost, exec_renewSend_due,
    fun hrole hlease => ⟨exec_renewSend_lapsed hrole hlease, exec_leaseExpiry_lapsed hlease⟩,
    fun hh hrole hepoch => exec_renew_standby hh hepoch hrole, fun hh hrole hepoch => exec_renew_starting hh hepoch hrole,
    fun hh hrole hepoch => exec_renew_conflict hh hepoch hrole, exec_grant_known,
    fun hrole hruns hdue => exec_takeoverTime_due hrole hruns hdue up, exec_takeoverComplete_ready,
    fun hrole hdown htakes => congrArg Host.Outcome.next (State.pairHost_forceActive hrole hdown htakes),
    fun hrole htakes => congrArg Host.Outcome.next (State.pairHost_stayOut hrole htakes),
    fun htakes => congrArg Host.Outcome.next (State.pairHost_rejoin htakes)⟩

end Sys2Proof.Machine
end

section
/-! SUPPORT. Laws of mirrored and returned pages, limits, settings, health, the standby's test (R579 to R583, R588 to R591) and of a meter image
campaign (R610). -/

namespace Sys2Proof.Machine

section
variable {s u v : State} {t : Nat} {h : PairHead}

/-! ### At a STANDBY (R580 to R582, R589) -/

section
variable (hrole : (v.heardFrom h).role = 3)
include hrole

theorem exec_page_mirrored {p : PairPage} {ck : Option (BitVec 16)} (hh : s.hears h v 4 (pagePlain p))
    (hmirror : ((v.heardFrom h).pairCount 3).mirror 4 p ck false = some u) : exec (.page h p ck) s = .next u := by
  change Host.Outcome.next (s.pairTake h 4 (pagePlain p) _) = _
  rw [State.pairTake_of_hears hh]
  simp only [if_neg (not_not.mpr hrole), hmirror, Option.getD_some]

theorem exec_page_refused {p : PairPage} {ck : Option (BitVec 16)} (hh : s.hears h v 4 (pagePlain p))
    (hmirror : ((v.heardFrom h).pairCount 3).mirror 4 p ck false = none) :
    exec (.page h p ck) s = .next (((v.heardFrom h).pairCount 3).verified p.lbn.toNat p.page.toNat 1) := by
  change Host.Outcome.next (s.pairTake h 4 (pagePlain p) _) = _
  rw [State.pairTake_of_hears hh]
  simp only [if_neg (not_not.mpr hrole), hmirror, Option.getD_none]

theorem exec_pairRelease_standby {lbn : BitVec 18} {k : Nat} {b : Block} (hh : s.hears h v 6 (toBe 4 lbn.toNat))
    (hblock : (v.heardFrom h).lbnBlock lbn.toNat = some (k, b)) : exec (.pairRelease h lbn) s = .next ((v.heardFrom h).releaseLive k) := by
  change Host.Outcome.next (s.pairTake h 6 (toBe 4 lbn.toNat) _) = _
  rw [State.pairTake_of_hears hh]
  simp only [if_neg (not_not.mpr hrole), hblock]

theorem exec_reserve_standby {i : Fin 10} {limit : BitVec 32} (hh : s.hears h v 7 (toBe 1 i.val ++ toBe 4 limit.toNat)) :
    exec (.reserve h i limit) s = .next (((v.heardFrom h).reserve (0x1F2100 + 16 * i.val) limit.toNat).verified (2 ^ 32 - 1) i.val 0) := by
  change Host.Outcome.next (s.pairTake h 7 (toBe 1 i.val ++ toBe 4 limit.toNat) _) = _
  rw [State.pairTake_of_hears hh]
  exact congrArg Host.Outcome.next (if_neg (not_not.mpr hrole))

/-- The pieces of a settings image held before one at an offset. -/
def State.piecesBefore (s : State) (off : Nat) : List Byte := if off = 0 then [] else s.pair.pieces

/-- A piece that follows those held joins them; where it completes an image of those bytes the image is written. -/
theorem exec_settings_standby {off : BitVec 32} {piece : List (BitVec 8)} (hh : s.hears h v 8 (toBe 4 off.toNat ++ piece))
    (halign : off.toNat % 1024 = 0) (hfollows : ((v.heardFrom h).piecesBefore off.toNat).length = off.toNat) (image : Option Settings) (ok : Bool) :
    exec (.settings h off piece image ok) s = .next (
      let held := (v.heardFrom h).piecesBefore off.toNat
      let w := (v.heardFrom h).setPieces (held ++ piece)
      match image with
      | none => w
      | some x => if settingsBody x = held ++ piece then (w.setPieces []).settingsWrite x ok else w) := by
  have hgo : ¬((v.heardFrom h).role ≠ 3 ∨ off.toNat % 1024 ≠ 0 ∨ ((v.heardFrom h).piecesBefore off.toNat).length ≠ off.toNat) := by
    rintro (hother | hodd | hgap)
    · exact hother hrole
    · exact hodd halign
    · exact hgap hfollows
  change Host.Outcome.next (s.pairTake h 8 (toBe 4 off.toNat ++ piece) _) = _
  rw [State.pairTake_of_hears hh]
  exact congrArg Host.Outcome.next (if_neg hgo)

theorem exec_catchup_standby {p : PairPage} {ck : Option (BitVec 16)} {last : Bool} (hh : s.hears h v 0x0A (pagePlain p))
    (hidle : (v.heardFrom h).pair.salvage = none) (hmirror : (v.heardFrom h).mirror 10 p ck last = some u) :
    exec (.catchup h p last ck) s = .next u := by
  have hgo : ¬((v.heardFrom h).role ≠ 3 ∨ (v.heardFrom h).pair.salvage.isSome = true) := by
    simp [hrole, hidle]
  change Host.Outcome.next (s.pairTake h 0x0A (pagePlain p) _) = _
  rw [State.pairTake_of_hears hh]
  simp only [if_neg hgo, hmirror, Option.getD_some]

end

/-- A program from the mirror buffer that verified: its page is in its block. -/
theorem exec_nandProgramComplete_mirror {x : NandRun} {E : Mirrored}
    (hrun : s.runOf x.target (fun r => r.cls = 1 || r.cls = 3 || r.cls = 9) = some x) (hreq : x.req = none) (htarget : x.target < 32)
    (hfind : s.nand.mirror.find? (fun e => e.block = some x.block) = some E)
    (hnext : E.kind = 11 ∨
      ((((s.endRun x).setNand { (s.endRun x).nand with mirror := s.nand.mirror.erase E }).blk x.block).pages.length = E.page.page.toNat)) :
    exec (.nandProgramComplete (Fin.ofNat 32 x.target) true true 0) s =
      .next (((s.endRun x).setNand { (s.endRun x).nand with mirror := s.nand.mirror.erase E }).mirrorDone E x.block) := by
  have hval : (Fin.ofNat 32 x.target).val = x.target := Nat.mod_eq_of_lt htarget
  have hlow : ¬s.fld (nandA rNAND_ECC) 7 0 < (0 : Fin 65).val := Nat.not_lt_zero _
  have hend : exec (.nandProgramComplete (Fin.ofNat 32 x.target) true true 0) s = .next (s.mirrorEnd x true) := by
    change execNandProgramComplete (Fin.ofNat 32 x.target) true true 0 s = _
    simp only [execNandProgramComplete, hval, hrun, hreq, hlow, decide_false, Bool.not_true, Bool.or_self, Bool.not_false, Bool.and_self, if_true]
  have hinplace : ¬(E.kind != 11 &&
      (((s.endRun x).setNand { (s.endRun x).nand with mirror := s.nand.mirror.erase E }).blk x.block).pages.length != E.page.page.toNat) = true := by
    rcases hnext with hkind | hlen
    · simp [hkind]
    · simp [hlen]
  rw [hend, State.mirrorEnd, hfind]
  simp only [Bool.not_true, Bool.false_and, Bool.false_or, Bool.false_eq_true, if_false, if_neg hinplace]

/-! ### Answers and silence of the peer (R579, R581, R588, R590) -/

section
variable {lbn : BitVec 18} {page : BitVec 10}

theorem exec_verified_limit {refused : Bool} (hh : s.hears h v 5 (verifiedBody (2 ^ 32 - 1) page.toNat refused.toNat)) :
    exec (.verified h true lbn page refused) s = .next (((v.heardFrom h).pairCount 4).limitUse page.toNat) := by
  change Host.Outcome.next (s.pairTake h 5 (verifiedBody (if true = true then 2 ^ 32 - 1 else lbn.toNat) page.toNat refused.toNat) _) = _
  rw [if_pos rfl, State.pairTake_of_hears hh]
  exact congrArg Host.Outcome.next (if_pos rfl)

/-- What the answer to a page does: the page that waits for it completes or fails; a salvaged page is done or sent again. -/
def State.pageAnswered (g : State) (lbn : BitVec 18) (page : BitVec 10) (refused : Bool) : State :=
  match g.pair.out.find? (fun o => o.lbn = lbn.toNat && o.page = page.toNat) with
  | some o =>
    let got := { g with pair := { g.pair with out := g.pair.out.erase o } }
    if refused then got.partnerFail o.req o.lbn o.page
    else got.kindOne o.req 0 o.lbn o.page (got.pageSeq o.lbn o.page) (((got.lbnBlock o.lbn).map (·.1)).getD 0 / 8192)
  | none =>
    if !g.pair.salvage.any (fun l => l.contains (lbn.toNat, page.toNat)) then g
    else if refused then g.sendStored 0x0B (lbn.toNat, page.toNat)
    else { g with pair := { g.pair with salvage := g.pair.salvage.map (fun l => l.erase (lbn.toNat, page.toNat)) } }

theorem exec_verified_page {refused : Bool} (hh : s.hears h v 5 (verifiedBody lbn.toNat page.toNat refused.toNat)) :
    exec (.verified h false lbn page refused) s = .next (((v.heardFrom h).pairCount 4).pageAnswered lbn page refused) := by
  change Host.Outcome.next (s.pairTake h 5 (verifiedBody (if false = true then 2 ^ 32 - 1 else lbn.toNat) page.toNat refused.toNat) _) = _
  rw [if_neg Bool.false_ne_true, State.pairTake_of_hears hh]
  exact congrArg Host.Outcome.next (if_neg Bool.false_ne_true)

section
variable {g : State} {o : PairSent} {l : List (Nat × Nat)}

theorem State.pageAnswered_waiting (hwaits : g.pair.out.find? (fun o => o.lbn = lbn.toNat && o.page = page.toNat) = some o) (refused : Bool) :
    g.pageAnswered lbn page refused =
      let got := { g with pair := { g.pair with out := g.pair.out.erase o } }
      if refused then got.partnerFail o.req o.lbn o.page
      else got.kindOne o.req 0 o.lbn o.page (got.pageSeq o.lbn o.page) (((got.lbnBlock o.lbn).map (·.1)).getD 0 / 8192) := by
  simp only [State.pageAnswered, hwaits]

theorem State.pageAnswered_salvage (hwaits : g.pair.out.find? (fun o => o.lbn = lbn.toNat && o.page = page.toNat) = none)
    (hsalvage : g.pair.salvage = some l) (hmem : (lbn.toNat, page.toNat) ∈ l) (refused : Bool) :
    g.pageAnswered lbn page refused =
      if refused then g.sendStored 0x0B (lbn.toNat, page.toNat)
      else { g with pair := { g.pair with salvage := some (l.erase (lbn.toNat, page.toNat)) } } := by
  have hgo : ¬(!g.pair.salvage.any (fun l => l.contains (lbn.toNat, page.toNat))) = true := by
    simp [hsalvage, hmem]
  simp only [State.pageAnswered, hwaits, if_neg hgo]
  rw [hsalvage, Option.map_some]

end

end

theorem exec_partnerFail_unready (hd : s.domOn 11 = true) (hready : s.peerReady = false) : exec .partnerFail s = .next s.failOutstanding := by
  have hgo : (s.domOn 11 && !s.peerReady) = true := by
    rw [hd, hready]
    decide
  exact congrArg Host.Outcome.next (if_pos hgo)

theorem exec_health_failed {body : List (BitVec 8)} (hh : s.hears h v 9 body) (hrole : (v.heardFrom h).role = 2)
    (hstandby : leNat ((body.drop 12).take 1) = 3) (hbad : leNat ((body.drop 15).take 1) ≠ 0 ∨ leNat ((body.drop 24).take 4) ≠ 0) :
    exec (.health h body) s = .next ((v.heardFrom h).notify 0x102 ((List.range 8).map (fun i => leNat ((body.drop (8 * i)).take 8)))) := by
  change Host.Outcome.next (s.pairTake h 9 body _) = _
  rw [State.pairTake_of_hears hh]
  exact congrArg Host.Outcome.next (if_pos ⟨hrole, hstandby, hbad⟩)

/-- A STANDBY's health goes out over the link and as a datagram to the destination set. -/
theorem exec_healthSend_standby {hs : State} (hrole : (s.at t).role = 3) (hdue : (s.at t).timer (prA rPAIR_HEALTH_DST) ≤ (s.at t).now)
    (hsent : ((s.at t).setTimer (prA rPAIR_HEALTH_DST) ((s.at t).now + 1000000000)).pairSend 9 (s.at t).healthBody false = hs)
    (hstill : hs.role = 3) (hset : bit (hs.rd (prA rPAIR_HEALTH_DST)) 31 = true) (hport : bits (hs.rd (prA rPAIR_HEALTH_DST)) 2 0 < 6)
    (hnet : hs.netOn = true) :
    exec (.healthSend t) s = .next (hs.send (bits (hs.rd (prA rPAIR_HEALTH_DST)) 2 0) hs.healthDst
      (toBe 2 (hs.fld (prA rPAIR_HEALTH_UDP) 15 0) ++ (s.at t).healthBody)) := by
  have hgo : ¬(((s.at t).role ≠ 2 ∧ (s.at t).role ≠ 3) ∨ (s.at t).now < (s.at t).timer (prA rPAIR_HEALTH_DST)) := by omega
  have hdatagram : (bit (hs.rd (prA rPAIR_HEALTH_DST)) 31 && decide (bits (hs.rd (prA rPAIR_HEALTH_DST)) 2 0 < 6) && hs.netOn) = true := by
    rw [hset, decide_eq_true hport, hnet]
    decide
  change execHealthSend t s = _
  simp only [execHealthSend, if_neg hgo, hsent, if_pos hstill, if_pos hdatagram]

section
variable {p : PairPage} (hh : s.hears h v 0x0B (pagePlain p)) (hrole : (v.heardFrom h).role = 2)
include hh hrole

theorem exec_salvage_full (hfull : (v.heardFrom h).mirrorRoom = false) :
    exec (.salvage h p) s = .next ((v.heardFrom h).verified p.lbn.toNat p.page.toNat 1) := by
  change Host.Outcome.next (s.pairTake h 0x0B (pagePlain p) _) = _
  rw [State.pairTake_of_hears hh]
  simp only [if_neg (not_not.mpr hrole), hfull, Bool.not_false, if_true]

theorem exec_salvage_taken (hroom : (v.heardFrom h).mirrorRoom = true) :
    exec (.salvage h p) s = .next ((v.heardFrom h).setNand { (v.heardFrom h).nand with
      mirror := (v.heardFrom h).nand.mirror ++ [⟨11, p, none, false, none, false⟩] }) := by
  change Host.Outcome.next (s.pairTake h 0x0B (pagePlain p) _) = _
  rw [State.pairTake_of_hears hh]
  simp only [if_neg (not_not.mpr hrole), hroom, Bool.not_true, Bool.false_eq_true, if_false]

end

theorem exec_salvageDone_all (hdone : s.pair.salvage = some []) (hrole : s.role = 3) :
    exec .salvageDone s = .next (
      let sv := ({ s with pair := { s.pair with salvage := none }, passes := [] } : State).setSolo none
      (sv.nand.blocks.filter (fun e => e.2.stream ≤ 2 && e.2.lbn.isSome)).foldl (fun (s : State) e =>
        ((s.eraseBlock e.1).setBlk e.1 { Block.fresh with erases := e.2.erases + 1 }).nandCount 9) sv) := by
  have hgo : ¬(s.pair.salvage ≠ some [] ∨ s.role ≠ 3) := by
    rintro (hmore | hother)
    · exact hmore hdone
    · exact hother hrole
  exact congrArg Host.Outcome.next (if_neg hgo)

/-! ### The standby's test (R583) -/

theorem exec_standbyTestStep_due (hrole : (s.at t).role = 3) (hidle : (s.at t).pair.test = none) (hdue : (s.at t).pair.testAt ≤ (s.at t).now)
    (hruns : (s.at t).normalRuns = true) :
    exec (.standbyTestStep t) s = .next (
      let n := (s.at t).pair.nextTest % 8
      let w := { s.at t with pair := { (s.at t).pair with test := some n, testAt := (s.at t).pair.testAt + 600000000000 } }
      ((w.turnOn (3 + n)).turnOn 14).turnOn 16) := by
  have hgo : ¬((s.at t).role ≠ 3 ∨ (s.at t).pair.test.isSome = true ∨ (s.at t).now < (s.at t).pair.testAt ∨ (!(s.at t).normalRuns) = true) := by
    rw [hidle, hruns]
    rintro (hother | hbusy | hearly | hstops)
    · exact hother hrole
    · exact Bool.false_ne_true hbusy
    · exact absurd hearly (Nat.not_lt.mpr hdue)
    · exact Bool.false_ne_true hstops
  exact congrArg Host.Outcome.next (if_neg hgo)

theorem exec_standbyTestEnd_running {n : Nat} (hrun : s.pair.test = some n) (hrole : s.role = 3) (hruns : s.normalRuns = true) (pass : Bool) :
    exec (.standbyTestEnd pass) s = .next (
      let te := { s with pair := { s.pair with
        test := none, nextTest := (n + 1) % 8, passed := if pass then s.pair.passed ||| 2 ^ n else clearBitN s.pair.passed n,
        failed := if pass then clearBitN s.pair.failed n else s.pair.failed ||| 2 ^ n } }
      (((if pass then te else te.lanyEvent 0x56 []).turnOff (3 + n)).turnOff 14).turnOff 16) := by
  have hgo : ¬(s.role ≠ 3 ∨ (!s.normalRuns) = true) := by
    simp [hrole, hruns]
  change execStandbyTestEnd pass s = _
  simp only [execStandbyTestEnd, hrun, if_neg hgo]

/-! ### Campaigns (R610) -/

/-- The meters that join a campaign, one after the other, with the state after the last. -/
def State.campJoined (s : State) (slot ring block len : Nat) (meters : List (BitVec 20 × BitVec 13 × Fin 4)) : List (Nat × CampMeter) × State :=
  meters.foldl (fun (p : List (Nat × CampMeter) × State) m =>
    if !p.2.meterValid m.1.toNat ∨ p.1.any (fun e => e.1 = m.1.toNat) then p
    else match p.2.campJoin slot ring block len m.1.toNat m.2.1.toNat m.2.2.val with
      | (some e, s) => (p.1 ++ [e], s)
      | (none, s) => (p.1, s)) (([] : List (Nat × CampMeter)), s)

/-- A campaign command in service: its answer, and the campaign of the meters that joined. -/
def State.campCommand (s : State) (slot ring : Nat) (meters : List (BitVec 20 × BitVec 13 × Fin 4)) (block key rounds gap act : Nat) : List Nat × State :=
  match s.images.find? (fun e => e.1 = slot) with
  | none => ([0], s)
  | some (_, x) =>
    if !s.campOn || !campOk meters.length block rounds gap then ([0], s)
    else
      let (ms, s) := s.campJoined slot ring block x.len meters
      ([1], if ms = [] then s else { s with camps := s.camps ++ [⟨slot, block, key, rounds, gap * 1000000, act, 1, [], [], ms, ring⟩] })

theorem exec_campaignStart_joined {cmd slot ring : Fin 64} {meters : List (BitVec 20 × BitVec 13 × Fin 4)} {block : BitVec 11} {key : BitVec 8}
    {rounds : BitVec 5} {gap : BitVec 13} {act : BitVec 48} {c0 : Cell512} {cs0 : List Cell512} {k : Nat} {img : SlotImage} {ms : List (Nat × CampMeter)}
    (hmay : (s.at t).hostMay fieldLay cmd.val ring.val = true) (hpop : (s.at t).popMessage (6144 + cmd.val) 4096 = (c0 :: cs0, v))
    (himage : (v.hostSpend cmd.val ring.val).images.find? (fun e => e.1 = slot.val) = some (k, img))
    (hon : (v.hostSpend cmd.val ring.val).campOn = true) (hok : campOk meters.length block.toNat rounds.toNat gap.toNat = true)
    (hjoined : (v.hostSpend cmd.val ring.val).campJoined slot.val ring.val block.toNat img.len meters = (ms, u)) (hsome : ms ≠ []) :
    exec (.campaignStart cmd slot meters block key rounds gap act ring t) s = .next (({ u with camps := u.camps ++
      [⟨slot.val, block.toNat, key.toNat, rounds.toNat, gap.toNat * 1000000, act.toNat, 1, [], [], ms, ring.val⟩] } : State).offer
      (6144 + ring.val) (mkCompletion (cellChan c0) (cellAux c0) ((Config.hostWords [1]).map (·.toNat)))) := by
  have hgo : ¬(!(v.hostSpend cmd.val ring.val).campOn || !campOk meters.length block.toNat rounds.toNat gap.toNat) = true := by
    rw [hon, hok]
    decide
  change Host.Outcome.next ((s.at t).hostServe fieldLay cmd.val ring.val
    (fun s => s.campCommand slot.val ring.val meters block.toNat key.toNat rounds.toNat gap.toNat act.toNat)) = _
  rw [State.hostServe_of_popped _ ⟨hmay, hpop⟩]
  simp only [State.campCommand, himage, if_neg hgo, hjoined, if_neg hsome]

section
variable {k : Nat} {c : Camp} (hcamp : (s.at t).camps[k]? = some c) (hon : (s.at t).campOn = true)
include hcamp hon

/-- A block broadcast; with the last block of a round the meters' answers are taken. -/
theorem exec_imageBlockBroadcast_due {out : BitVec 13} {held : List (BitVec 20 × List (BitVec 16))}
    {took : List (BitVec 20 × List (BitVec 16 × Fin 4))} {verify : List (BitVec 20 × Fin 4)} {x : Nat} {xs : List Nat}
    (hround : c.round ≤ c.rounds) (hdue : look (fun _ => 0) c.due out.toNat ≤ (s.at t).now) (hunsent : c.unsent out.toNat = x :: xs) :
    exec (.imageBlockBroadcast k out held took verify t) s = .next (
      let c2 : Camp := { c with
        sent := c.sent ++ [out.toNat * 65536 + x], due := Machine.store (fun _ => 0) c.due out.toNat ((s.at t).now + c.gap) }
      let w := (s.at t).broadcastBlock c2 out.toNat (Config.dlmsBytes [18, 2, c.slot, c.key, x, c.block])
      if c2.meters.all (fun m => decide (c2.unsent m.2.out = [])) then w.campRound k c2 held took verify else w.setCamp k c2) := by
  have hgo : ¬((!(s.at t).campOn) = true ∨ c.rounds < c.round ∨ (s.at t).now < look (fun _ => 0) c.due out.toNat) := by
    rw [hon]
    rintro (hoff | hover | hearly)
    · exact Bool.false_ne_true hoff
    · exact absurd hover (Nat.not_lt.mpr hround)
    · exact absurd hearly (Nat.not_lt.mpr hdue)
  change execImageBlockBroadcast k out held took verify t s = _
  simp only [execImageBlockBroadcast, hcamp, if_neg hgo, hunsent]

end

/-- What the answer to image_activate does to a meter of a campaign. -/
def State.campActivated (s : State) (c : Camp) (answers : List (BitVec 20 × Bool)) (x : Nat × CampMeter) : State :=
  let s := s.toMeter x.1 1 x.2.out [18, 4]
  match answers.find? (fun a => a.1.toNat = x.1) with
  | some (_, true) => s.campEnd c.slot c.ring x.1 x.2 6 0
  | some (_, false) => s.campEnd c.slot c.ring x.1 x.2 7 5
  | none => s.campEnd c.slot c.ring x.1 x.2 7 3

theorem exec_imageActivate_due {k : Nat} {c : Camp} (hcamp : (s.at t).camps[k]? = some c) (hon : (s.at t).campOn = true)
    (hdue : c.act ≤ (s.at t).tsuTime.sec) (answers : List (BitVec 20 × Bool)) :
    exec (.imageActivate k answers t) s = .next
      (((c.meters.filter (fun m => m.2.st = 5)).foldl (fun (s : State) x => s.campActivated c answers x) (s.at t)).setCamp k
        { c with meters := c.meters.filter (fun m => decide (m.2.st ≠ 5)) }) := by
  have hgo : ¬((!(s.at t).campOn) = true ∨ (s.at t).tsuTime.sec < c.act) := by
    rw [hon]
    rintro (hoff | hearly)
    · exact Bool.false_ne_true hoff
    · exact absurd hearly (Nat.not_lt.mpr hdue)
  change execImageActivate k answers t s = _
  simp only [execImageActivate, hcamp, if_neg hgo]
  rfl

section
variable {c : Camp} {meter : BitVec 20} {m : CampMeter} (hcamps : (s.at t).camps = [c]) (hmeters : c.meters = [(meter.toNat, m)])
  (hon : (s.at t).campOn = true) (hst : m.st = 4) (hdue : m.poll ≤ (s.at t).tsuTime.sec)
include hcamps hmeters hon hst hdue

/-- A poll of image_verify finds the one meter of the one campaign; a temporary failure counts as a failure after 10 minutes. -/
theorem exec_imageVerifyPoll_due {ans : Fin 4} {r : Option (Nat × CampMeter)} {w : State}
    (hverdict : ((s.at t).toMeter meter.toNat 1 m.out [18, 6]).campVerdict c.slot c.ring meter.toNat m
      (if ans.val = 1 ∧ m.since + 600 ≤ ((s.at t).toMeter meter.toNat 1 m.out [18, 6]).tsuTime.sec then 2 else ans.val) = (r, w)) :
    exec (.imageVerifyPoll meter ans t) s =
      .next (w.setCamp 0 { c with meters := (r.map (fun x => (meter.toNat, x.2))).toList }) := by
  have hgo : ¬((!(s.at t).campOn) = true ∨ m.st ≠ 4 ∨ (s.at t).tsuTime.sec < m.poll) := by
    rw [hon]
    rintro (hoff | hother | hearly)
    · exact Bool.false_ne_true hoff
    · exact hother hst
    · exact absurd hearly (Nat.not_lt.mpr hdue)
  have hfind : (s.at t).camps.zipIdx.find? (fun c => c.1.meters.any (fun m => m.1 = meter.toNat)) = some (c, 0) := by
    simp [hcamps, hmeters]
  have hmine : c.meters.find? (fun m => m.1 = meter.toNat) = some (meter.toNat, m) := by
    simp [hmeters]
  have hrest : drop c.meters meter.toNat = [] := by
    simp [drop, hmeters]
  change execImageVerifyPoll meter ans t s = _
  simp only [execImageVerifyPoll, hfind, hmine, if_neg hgo, hrest, place, hverdict]
  cases r with
  | none => rfl
  | some x => rfl

end

end

end Sys2Proof.Machine
end

section
/-! PROOFS. The statement about mirroring and campaigns. -/

namespace Sys2Proof.Machine

/-- Settles O57: a frame that is heard, a time that is reached or an operation that ends mirrors, answers or returns a page as its rule gives, and a
campaign takes its next step. The sizes of the bodies of RESERVE, VERIFIED, the page frames and SETTINGS and the notice code 0x102 are log entry 30
(DESIGN CHOICE, free); how a campaign's steps are read is log entry 29. -/
theorem mirrorAndCampaignCommands : Obligations.MirrorAndCampaignCommands := by
  unfold Obligations.MirrorAndCampaignCommands
  intro s t k h v u p last refused pass ck piece X E lbn page o l b i limit off set body n slot cmd ring c0 cs0 out meters block key rounds gap act img
    ms c held took verify meter m m' ans answers x xs w y z heard e pieces g dest waits got f H hs dst tn ts te sv joined c2 s2 ends
  refine ⟨fun hrole => ⟨exec_page_mirrored hrole, exec_page_refused hrole, exec_pairRelease_standby hrole, exec_reserve_standby hrole,
      fun hh halign hfollows => ⟨fun hbody => ?_, fun hbody => ?_, exec_settings_standby hrole hh halign hfollows none pass⟩,
      exec_catchup_standby hrole⟩,
    exec_nandProgramComplete_mirror, ?_, exec_partnerFail_unready, exec_health_failed,
    fun hrole hdue hstill hset hport hnet => exec_healthSend_standby hrole hdue rfl hstill hset hport hnet,
    fun hh hrole => ⟨exec_salvage_full hh hrole, exec_salvage_taken hh hrole⟩, exec_salvageDone_all, exec_standbyTestStep_due,
    fun hrun hrole hruns => exec_standbyTestEnd_running hrun hrole hruns pass,
    fun hmay hpop => ?_,
    fun hcamp hon hround hdue hunsent => ⟨fun hall => ?_, fun hmore => ?_⟩,
    fun hcamps hmeters hon hst hdue => ?_,
    fun hcamp hon hdue => exec_imageActivate_due hcamp hon hdue answers⟩
  · exact (exec_settings_standby hrole hh halign hfollows (some set) pass).trans (congrArg Host.Outcome.next (if_pos hbody))
  · exact (exec_settings_standby hrole hh halign hfollows (some set) pass).trans (congrArg Host.Outcome.next (if_neg hbody))
  · refine ⟨exec_verified_limit, fun hh hok hwaits => ?_, fun hh hbad hwaits => ?_, fun hh hwaits hsalvage hmem => ⟨fun hbad => ?_, fun hok => ?_⟩⟩
    · exact (exec_verified_page hh).trans (congrArg Host.Outcome.next
        ((State.pageAnswered_waiting hwaits refused).trans (if_neg (Bool.eq_false_iff.mp hok))))
    · exact (exec_verified_page hh).trans (congrArg Host.Outcome.next ((State.pageAnswered_waiting hwaits refused).trans (if_pos hbad)))
    · exact (exec_verified_page hh).trans (congrArg Host.Outcome.next ((State.pageAnswered_salvage hwaits hsalvage hmem refused).trans (if_pos hbad)))
    · exact (exec_verified_page hh).trans (congrArg Host.Outcome.next
        ((State.pageAnswered_salvage hwaits hsalvage hmem refused).trans (if_neg (Bool.eq_false_iff.mp hok))))
  · intro a himage hon hlen hblock hblockMax hrounds hroundsMax hgap hgapMax hjoined hsome
    have hok : campOk meters.length block.toNat rounds.toNat gap.toNat = true := by
      simp [campOk, hlen, hblock, hblockMax, hrounds, hroundsMax, hgap, hgapMax]
    exact exec_campaignStart_joined hmay hpop himage hon hok hjoined hsome
  · have hend : c2.meters.all (fun m => decide (c2.unsent m.2.out = [])) = true := by simpa using hall
    exact (exec_imageBlockBroadcast_due hcamp hon hround hdue hunsent).trans (congrArg Host.Outcome.next (if_pos hend))
  · have hend : ¬c2.meters.all (fun m => decide (c2.unsent m.2.out = [])) = true := by simpa using hmore
    exact (exec_imageBlockBroadcast_due hcamp hon hround hdue hunsent).trans (congrArg Host.Outcome.next (if_neg hend))
  · exact ⟨exec_imageVerifyPoll_due hcamps hmeters hon hst hdue, exec_imageVerifyPoll_due hcamps hmeters hon hst hdue⟩

end Sys2Proof.Machine
end

section
/-! SUPPORT. Laws of the DMA rings, the PCIe link and its resets, MSI-X messages and the QSPI commands (R595, R613, R658 to R667). -/

namespace Sys2Proof.Machine

section
variable {s : State} {q : Requester} {t : Nat} {ring : Fin 64}

/-! ### Rings (R658 to R664) -/

/-- A write that enables a ring sets its control word and lets it work; one that resets it clears both. -/
theorem State.ringCtrl_enable {v : Word32} (hgo : bit v 31 = false) (hen : bit v 0 = true)
    (h : s.takes q (pcA rPCIE_RC_CTRL) v (s.ringBad (s.fld (pcA rPCIE_RC_SEL) 5 0))) :
    s.ringCtrl q v =
      (s.setBk (pcA rPCIE_RC_CTRL) (s.fld (pcA rPCIE_RC_SEL) 5 0) (BitVec.ofNat 64 (bits v 1 0))).ringGo (s.fld (pcA rPCIE_RC_SEL) 5 0) := by
  simp only [State.ringCtrl, hen, Bool.true_and, State.guarded_of_takes h, hgo, Bool.false_eq_true, if_false]

theorem State.ringCtrl_reset (h : s.takes q (pcA rPCIE_RC_CTRL) 0x80000000 false) :
    s.ringCtrl q 0x80000000 = (s.setBk (pcA rPCIE_RC_CTRL) (s.fld (pcA rPCIE_RC_SEL) 5 0) 0).ringReset (s.fld (pcA rPCIE_RC_SEL) 5 0) := by
  have hgo : bit (0x80000000 : Word32) 31 = true := by decide
  have hno : bit (0x80000000 : Word32) 0 = false := by decide
  have hlow : BitVec.ofNat 64 (bits (0x80000000 : Word32) 1 0) = 0 := by decide
  simp only [State.ringCtrl, hno, Bool.false_and, State.guarded_of_takes h, hgo, hlow, if_true]

theorem exec_ringEnable_taken {irq : Bool}
    (h : s.takes q (pcA rPCIE_RC_CTRL) (BitVec.ofNat 32 (1 + 2 * irq.toNat)) (s.ringBad (s.fld (pcA rPCIE_RC_SEL) 5 0))) :
    exec (.ringEnable q irq) s = .next ((s.setBk (pcA rPCIE_RC_CTRL) (s.fld (pcA rPCIE_RC_SEL) 5 0)
      (BitVec.ofNat 64 (1 + 2 * irq.toNat))).ringGo (s.fld (pcA rPCIE_RC_SEL) 5 0)) := by
  have hlow : bits (BitVec.ofNat 32 (1 + 2 * irq.toNat)) 1 0 = 1 + 2 * irq.toNat := by cases irq <;> decide
  have hwrite := State.ringCtrl_enable (by cases irq <;> decide) (by cases irq <;> decide) h
  rw [hlow] at hwrite
  exact congrArg Host.Outcome.next hwrite

theorem exec_ringReset_taken (h : s.takes q (pcA rPCIE_RC_CTRL) 0x80000000 false) (bells : BitVec 32) :
    exec (.ringReset q bells) s = .next (((s.setBk (pcA rPCIE_RC_CTRL) (s.fld (pcA rPCIE_RC_SEL) 5 0) 0).ringReset
      (s.fld (pcA rPCIE_RC_SEL) 5 0)).bumpBk (pcA rPCIE_CNT) 0 (2 ^ 32 - 1) bells.toNat) := by
  have hword : (BitVec.ofNat 32 (2 ^ 31) : Word32) = 0x80000000 := by decide
  have hfree : s.refusal q (pcA rPCIE_RC_CTRL) true 0x80000000 false false = none := h
  change execRingReset q bells s = _
  simp only [execRingReset, hword, hfree, State.ringCtrl_reset h]

/-- The host's new index of a ring that has a direction: an H2D index outside the ring's free entries halts it. -/
theorem State.doorbell_up {r i : Nat} (hup : s.pcieUp = true) (hdir : s.ringDir r ≠ 0) :
    s.doorbell r i =
      if s.ringDir r = 1 ∧ ((i + 2 ^ 16 - s.ringDev r) % 2 ^ 16 < (s.ringHost r + 2 ^ 16 - s.ringDev r) % 2 ^ 16 ∨
          s.ringSize r < (i + 2 ^ 16 - s.ringDev r) % 2 ^ 16) then
        (s.setRingIdx r (s.ringDev r) i).ringHalt r 1
      else (s.setRingIdx r (s.ringDev r) i).ringGo r := by
  simp only [State.doorbell, hup, hdir, Bool.not_true, Bool.false_eq_true, if_false]

/-- The state once the host has written its entries behind its last index. -/
def State.hostWrote (s : State) (r : Nat) (l : List (BitVec 512)) : State := s.hostEntries r (s.ringHost r) l

section
variable {idx : BitVec 16} {l : List (BitVec 512)} (hup : (s.at t).pcieUp = true) (hstill : ((s.at t).hostWrote ring.val l).pcieUp = true)
  (hdir : ((s.at t).hostWrote ring.val l).ringDir ring.val = 1)
include hup hstill hdir

theorem exec_ringDoorbellH2d_up :
    exec (.ringDoorbellH2d ring idx l t) s = .next (
      let z := (s.at t).hostWrote ring.val l
      let c := z.ringDev ring.val
      let fresh := (idx.toNat + 2 ^ 16 - c) % 2 ^ 16
      let old := (z.ringHost ring.val + 2 ^ 16 - c) % 2 ^ 16
      if fresh < old ∨ z.ringSize ring.val < fresh then (z.setRingIdx ring.val c idx.toNat).ringHalt ring.val 1
      else (z.setRingIdx ring.val c idx.toNat).ringGo ring.val) := by
  have hbell := State.doorbell_up (i := idx.toNat) hstill (by rw [hdir]; decide)
  simp only [hdir, true_and] at hbell
  change execRingDoorbellH2d ring idx l t s = _
  simp only [execRingDoorbellH2d, hup, Bool.not_true, Bool.false_eq_true, if_false]
  exact congrArg Host.Outcome.next hbell

end

theorem exec_ringDoorbellD2h_up {idx : BitVec 16} (hup : (s.at t).pcieUp = true) (hdir : (s.at t).ringDir ring.val = 2) :
    exec (.ringDoorbellD2h ring idx t) s = .next (((s.at t).setRingIdx ring.val ((s.at t).ringDev ring.val) idx.toNat).ringGo ring.val) := by
  have hbell := State.doorbell_up (i := idx.toNat) hup (by rw [hdir]; decide)
  simp only [hdir, (by decide : (2 : Nat) ≠ 1), false_and, if_false] at hbell
  exact congrArg Host.Outcome.next hbell

theorem exec_ringDoorbellD2h_undirected {idx : BitVec 16} (hup : (s.at t).pcieUp = true) (hdir : (s.at t).ringDir ring.val = 0) :
    exec (.ringDoorbellD2h ring idx t) s = .next ((s.at t).bumpBk (pcA rPCIE_CNT) 0 (2 ^ 32 - 1) 1) := by
  change Host.Outcome.next ((s.at t).doorbell ring.val idx.toNat) = _
  simp only [State.doorbell, hup, hdir, Bool.not_true, Bool.false_eq_true, if_false, if_true]

theorem exec_ringWriteBack_due (hlive : (s.at t).ringLive ring.val = true) (hsince : 0 < ((s.at t).ring ring.val).since)
    (hdue : ((s.at t).ring ring.val).wbAt ≤ (s.at t).now) :
    exec (.ringWriteBack ring t) s = .next (((s.at t).ringBack ring.val).ringGo ring.val) := by
  have hgo : ((s.at t).ringLive ring.val && decide (0 < ((s.at t).ring ring.val).since) &&
      decide (((s.at t).ring ring.val).wbAt ≤ (s.at t).now)) = true := by
    rw [hlive, decide_eq_true hsince, decide_eq_true hdue]
    decide
  exact congrArg Host.Outcome.next (if_pos hgo)

theorem exec_ringIrqTimer_due (hd : (s.at t).domOn 17 = true) (hirq : bit ((s.at t).bk (pcA rPCIE_RC_CTRL) ring.val) 1 = true)
    (hruns : ((s.at t).ring ring.val).irqAt ≠ 0) (hdue : ((s.at t).ring ring.val).irqAt ≤ (s.at t).now) :
    exec (.ringIrqTimer ring t) s = .next ((s.at t).ringSignal ring.val) := by
  have hgo : ((s.at t).domOn 17 && bit ((s.at t).bk (pcA rPCIE_RC_CTRL) ring.val) 1 && decide (((s.at t).ring ring.val).irqAt ≠ 0) &&
      decide (((s.at t).ring ring.val).irqAt ≤ (s.at t).now)) = true := by
    rw [hd, hirq, decide_eq_true hruns, decide_eq_true hdue]
    decide
  exact congrArg Host.Outcome.next (if_pos hgo)

section
variable {kind : Fin 3} (hlive : s.ringLive ring.val = true)
include hlive

/-- A completion that timed out or was poisoned is counted, an Unsupported Request is not. -/
theorem exec_dmaError_counted (hkind : kind.val < 2) :
    exec (.dmaError ring kind) s = .next ((s.bumpBk (pcA rPCIE_CNT) (kind.val + 1) (2 ^ 32 - 1) 1).ringHalt ring.val 2) := by
  change execDmaError ring kind s = _
  simp only [execDmaError, hlive, hkind, Bool.not_true, Bool.false_eq_true, if_false, if_true]

theorem exec_dmaError_unsupported (hkind : kind.val = 2) : exec (.dmaError ring kind) s = .next (s.ringHalt ring.val 2) := by
  change execDmaError ring kind s = _
  simp only [execDmaError, hlive, hkind, Bool.not_true, Bool.false_eq_true, if_false, lt_irrefl]

end

/-! ### Resets and the link (R665) -/

theorem exec_perstAssert_on (hd : s.domOn 17 = true) :
    exec .perstAssert s = .next (
      let w := (List.range 64).foldl (fun (s : State) r => s.ringReset r) s
      (({ (w.pageOff .pcie 0) with rings := [], msix := { Msix.off with sent := w.msix.sent } } : State).wr (pcA rPCIE_STAT) 0).putBit
        (pcA rPCIE_STAT) 7 true) := by
  change execPerstAssert s = _
  simp only [execPerstAssert, hd, Bool.not_true, Bool.false_eq_true, if_false]

theorem exec_perstDeassert_on (hd : s.domOn 17 = true) : exec .perstDeassert s = .next (s.putBit (pcA rPCIE_STAT) 7 false) :=
  congrArg Host.Outcome.next (if_pos hd)

/-- The link's state, speed and width recorded, and its correctable errors counted. -/
def State.linkRecorded (s : State) (up : Bool) (speed : Fin 4) (width : Fin 5) (d : BitVec 32) : State :=
  (((s.putBit (pcA rPCIE_STAT) 0 up).putF (pcA rPCIE_STAT) 2 1 (if up then speed.val else 0)).putF (pcA rPCIE_STAT) 6 4
    (if up then width.val else 0)).bumpBk (pcA rPCIE_CNT) 3 (2 ^ 32 - 1) d.toNat

section
variable {up : Bool} {speed : Fin 4} {width : Fin 5} {d : BitVec 32} (hd : s.domOn 17 = true) (hrst : s.bitAt (pcA rPCIE_STAT) 7 = false)
include hd hrst

theorem exec_pcieLinkChange_out :
    exec (.pcieLinkChange up speed width d) s = .next (
      let c := s.linkRecorded up speed width d
      let c := if s.bitAt (pcA rPCIE_STAT) 0 ≠ up then c.irq .pcie 0 0 else c
      if s.bitAt (pcA rPCIE_STAT) 0 && !up then c.cause .pcie 0 3 else c.ringsGo) := by
  have hgo : ¬(!s.domOn 17 || s.bitAt (pcA rPCIE_STAT) 7) = true := by
    rw [hd, hrst]
    decide
  exact congrArg Host.Outcome.next (if_neg hgo)

theorem exec_pcieLinkChange_same (hsame : s.bitAt (pcA rPCIE_STAT) 0 = up) :
    exec (.pcieLinkChange up speed width d) s = .next (s.linkRecorded up speed width d).ringsGo := by
  rw [exec_pcieLinkChange_out hd hrst]
  simp only [hsame, ne_eq, not_true_eq_false, if_false, Bool.and_not_self, Bool.false_eq_true]

theorem exec_pcieLinkChange_up (hwas : s.bitAt (pcA rPCIE_STAT) 0 = false) :
    exec (.pcieLinkChange true speed width d) s = .next ((s.linkRecorded true speed width d).irq .pcie 0 0).ringsGo := by
  rw [exec_pcieLinkChange_out hd hrst]
  simp only [hwas, ne_eq, Bool.false_eq_true, not_false_eq_true, if_true, Bool.false_and, if_false]

theorem exec_pcieLinkChange_down (hwas : s.bitAt (pcA rPCIE_STAT) 0 = true) :
    exec (.pcieLinkChange false speed width d) s = .next (((s.linkRecorded false speed width d).irq .pcie 0 0).cause .pcie 0 3) := by
  rw [exec_pcieLinkChange_out hd hrst]
  simp only [hwas, ne_eq, Bool.true_eq_false, not_false_eq_true, if_true, Bool.not_false, Bool.and_self]

end

/-! ### MSI-X (R666) -/

section
variable {vec : BitVec 8} (hup : s.pcieUp = true)
include hup

/-- A message that is due leaves the list of those due; of a masked vector it stays pending. -/
theorem exec_msixMessage_due (hdue : s.msix.due.contains vec.toNat = true) :
    exec (.msixMessage vec) s = .next (
      let w := { s with msix := { s.msix with due := s.msix.due.erase vec.toNat } }
      if s.msix.open_.contains vec.toNat then w.msiSend vec.toNat
      else if s.msix.pend.contains vec.toNat then w
      else { w with msix := { w.msix with pend := s.msix.pend ++ [vec.toNat] } }) := by
  have hgo : ¬(!s.pcieUp || !s.msix.due.contains vec.toNat) = true := by
    rw [hup, hdue]
    decide
  exact congrArg Host.Outcome.next (if_neg hgo)

/-- The host's table entry of a vector, with its mask. -/
def State.vectorSet (s : State) (v : Nat) (addr : BitVec 64) (data : BitVec 32) (mask : Bool) : State :=
  let rest := s.msix.open_.filter (· ≠ v)
  { s with msix := { s.msix with entries := place v (addr, data) (drop s.msix.entries v), open_ := if mask then rest else rest ++ [v] } }

theorem exec_msixUnmask_up (addr : BitVec 64) (d : BitVec 32) (mask : Bool) :
    exec (.msixUnmask vec addr d mask) s = .next (
      let m := s.vectorSet vec.toNat addr d mask
      if mask || !s.msix.pend.contains vec.toNat then m
      else
        let w := { m with msix := { m.msix with pend := m.msix.pend.filter (· ≠ vec.toNat) } }
        if vec.toNat = 0 || (64 ≤ vec.toNat && vec.toNat < 128) || w.request vec.toNat then w.msiSend vec.toNat else w) := by
  have hgo : ¬(!s.pcieUp) = true := by
    rw [hup]
    decide
  exact congrArg Host.Outcome.next (if_neg hgo)

theorem exec_msixUnmask_quiet {addr : BitVec 64} {d : BitVec 32} {mask : Bool} (hquiet : mask = true ∨ s.msix.pend.contains vec.toNat = false) :
    exec (.msixUnmask vec addr d mask) s = .next (s.vectorSet vec.toNat addr d mask) := by
  have hgo : (mask || !s.msix.pend.contains vec.toNat) = true := by
    rcases hquiet with hmask | hnone
    · rw [hmask, Bool.true_or]
    · rw [hnone, Bool.not_false, Bool.or_true]
  exact (exec_msixUnmask_up hup addr d mask).trans (congrArg Host.Outcome.next (if_pos hgo))

/-- A pending message of vector 0 or of a ring is sent with the unmask. -/
theorem exec_msixUnmask_pending {addr : BitVec 64} {d : BitVec 32} {mask : Bool} (hmask : mask = false)
    (hpend : s.msix.pend.contains vec.toNat = true) (hring : vec.toNat = 0 ∨ (64 ≤ vec.toNat ∧ vec.toNat < 128)) :
    exec (.msixUnmask vec addr d mask) s = .next (
      let m := s.vectorSet vec.toNat addr d mask
      ({ m with msix := { m.msix with pend := m.msix.pend.filter (· ≠ vec.toNat) } } : State).msiSend vec.toNat) := by
  have hgo : ¬(mask || !s.msix.pend.contains vec.toNat) = true := by
    rw [hmask, hpend]
    decide
  have hsend : ∀ b : Bool, (decide (vec.toNat = 0) || (decide (64 ≤ vec.toNat) && decide (vec.toNat < 128)) || b) = true := by
    intro b
    rw [Bool.or_eq_true, Bool.or_eq_true, Bool.and_eq_true, decide_eq_true_eq, decide_eq_true_eq, decide_eq_true_eq]
    exact .inl hring
  exact (exec_msixUnmask_up hup addr d mask).trans (congrArg Host.Outcome.next ((if_neg hgo).trans (if_pos (hsend _))))

end

/-! ### QSPI (R595, R613) -/

/-- A command of operation op is in progress. -/
def State.qspiBusy (s : State) (op : Nat) : State :=
  { s.putBit (qsA rQSPI_STAT) 0 true with results := place (qsA rQSPI_STAT) op (drop (s.putBit (qsA rQSPI_STAT) 0 true).results (qsA rQSPI_STAT)) }

/-- A GO that is not refused has its effect with the command. -/
theorem State.qspiCmd_go {v : Word32} {op : Nat} (hop : bits v 2 0 = op) (hgo : bit v 31 = true)
    (h : s.refusal q (qsA rQSPI_CMD) true v (s.goldenBad op (s.fld (qsA rQSPI_ADDR) 25 0))
      (s.qspiBad q op (s.fld (qsA rQSPI_ADDR) 25 0) (s.fld (qsA rQSPI_LEN) 8 0)) = none) :
    s.qspiCmd q v = (s.qspiEffect op (s.fld (qsA rQSPI_ADDR) 25 0) (s.fld (qsA rQSPI_LEN) 8 0)).qspiBusy op := by
  subst hop
  unfold State.qspiCmd
  simp only [hgo, Bool.true_and, h]
  exact if_neg Bool.false_ne_true

theorem State.qspiEffect_read (a n : Nat) : s.qspiEffect 1 a n = s.setQspiBuf (s.bytes .nor a n) := if_pos rfl

theorem State.qspiEffect_program (a n : Nat) : s.qspiEffect 2 a n = s.norProgram a (s.qspiBuf n) := (if_neg (by decide)).trans (if_pos rfl)

theorem State.qspiEffect_erase (a n : Nat) : s.qspiEffect 3 a n = s.norErase a :=
  (if_neg (by decide)).trans ((if_neg (by decide)).trans (if_pos rfl))

theorem exec_qspiRead_go
    (h : s.refusal q (qsA rQSPI_CMD) true (qspiGo 1) (s.goldenBad 1 (s.fld (qsA rQSPI_ADDR) 25 0))
      (s.qspiBad q 1 (s.fld (qsA rQSPI_ADDR) 25 0) (s.fld (qsA rQSPI_LEN) 8 0)) = none) :
    exec (.qspiRead q) s = .next ((s.setQspiBuf (s.bytes .nor (s.fld (qsA rQSPI_ADDR) 25 0) (s.fld (qsA rQSPI_LEN) 8 0))).qspiBusy 1) := by
  have hop : bits (qspiGo 1) 2 0 = 1 := by decide
  have hgo : bit (qspiGo 1) 31 = true := by decide
  change Host.Outcome.next (s.qspiCmd q (qspiGo 1)) = _
  rw [State.qspiCmd_go hop hgo h, State.qspiEffect_read]

theorem exec_qspiProgram_go
    (h : s.refusal q (qsA rQSPI_CMD) true (qspiGo 2) (s.goldenBad 2 (s.fld (qsA rQSPI_ADDR) 25 0))
      (s.qspiBad q 2 (s.fld (qsA rQSPI_ADDR) 25 0) (s.fld (qsA rQSPI_LEN) 8 0)) = none) :
    exec (.qspiProgram q) s = .next ((s.norProgram (s.fld (qsA rQSPI_ADDR) 25 0) (s.qspiBuf (s.fld (qsA rQSPI_LEN) 8 0))).qspiBusy 2) := by
  have hop : bits (qspiGo 2) 2 0 = 2 := by decide
  have hgo : bit (qspiGo 2) 31 = true := by decide
  change Host.Outcome.next (s.qspiCmd q (qspiGo 2)) = _
  rw [State.qspiCmd_go hop hgo h, State.qspiEffect_program]

theorem exec_qspiErase_go
    (h : s.refusal q (qsA rQSPI_CMD) true (qspiGo 3) (s.goldenBad 3 (s.fld (qsA rQSPI_ADDR) 25 0))
      (s.qspiBad q 3 (s.fld (qsA rQSPI_ADDR) 25 0) (s.fld (qsA rQSPI_LEN) 8 0)) = none) :
    exec (.qspiErase q) s = .next ((s.norErase (s.fld (qsA rQSPI_ADDR) 25 0)).qspiBusy 3) := by
  have hop : bits (qspiGo 3) 2 0 = 3 := by decide
  have hgo : bit (qspiGo 3) 31 = true := by decide
  change Host.Outcome.next (s.qspiCmd q (qspiGo 3)) = _
  rw [State.qspiCmd_go hop hgo h, State.qspiEffect_erase]

/-- The state once a QSPI command has ended. -/
def State.qspiEnded (s : State) : State :=
  { s.putBit (qsA rQSPI_STAT) 0 false with results := drop (s.putBit (qsA rQSPI_STAT) 0 false).results (qsA rQSPI_STAT) }

theorem exec_qspiCommandDone_busy (hd : s.domOn 2 = true) (hbusy : s.bitAt (qsA rQSPI_STAT) 0 = true) (timeout : Bool) :
    exec (.qspiCommandDone timeout) s = .next (
      let op := look (fun _ => 0) s.results (qsA rQSPI_STAT)
      if timeout && (op = 2 || op = 3) then s.qspiEnded.cause .qspi 0 0 else s.qspiEnded) := by
  have hgo : ¬(!(s.domOn 2 && s.bitAt (qsA rQSPI_STAT) 0)) = true := by
    rw [hd, hbusy]
    decide
  exact congrArg Host.Outcome.next (if_neg hgo)

end

end Sys2Proof.Machine
end

section
/-! PROOFS. The statement about rings, the PCIe link, MSI-X and QSPI. -/

namespace Sys2Proof.Machine

/-- Settles O58: a write that is taken, an index the host rings or an event of the link has the effect its rule gives. That a disabled ring takes the
host's index, that an index of D2H is never BAD_DB and that a doorbell of a ring without direction is counted (log entry 31), and that a QSPI command
has its effect at the command (log entry 27), are the model's choices. -/
theorem ringAndQspiCommands : Obligations.RingAndQspiCommands := by
  unfold Obligations.RingAndQspiCommands
  intro s q t ring irq idx l kind bells up speed width vec addr d mask y r C S on k z c fresh old p cnt v sent rest m Q a n runs busy op ended
  refine ⟨exec_ringEnable_taken, fun hup hstill hdir => ⟨fun hmore hfits => ?_, fun hbad => ?_⟩, exec_ringDoorbellD2h_up, exec_ringDoorbellD2h_undirected,
    exec_ringWriteBack_due, exec_ringIrqTimer_due, fun hlive => ⟨exec_dmaError_counted hlive, exec_dmaError_unsupported hlive⟩,
    fun h => exec_ringReset_taken h bells, exec_perstAssert_on, exec_perstDeassert_on, fun hd hrst => ⟨exec_pcieLinkChange_same hd hrst,
      fun hwas hup => ?_, fun hwas hup => ?_⟩, fun hup hdue => ⟨fun hopen => ?_, fun hmasked hnew => ?_⟩, fun hup hquiet => exec_msixUnmask_quiet hup hquiet,
    fun hup hmask hpend hring => exec_msixUnmask_pending hup hmask hpend hring,
    exec_qspiRead_go, exec_qspiProgram_go, exec_qspiErase_go, fun hd hbusy => ⟨?_, fun hop => ?_⟩⟩
  · exact (exec_ringDoorbellH2d_up hup hstill hdir).trans (congrArg Host.Outcome.next (if_neg (not_or.mpr ⟨Nat.not_lt.mpr hmore, Nat.not_lt.mpr hfits⟩)))
  · exact (exec_ringDoorbellH2d_up hup hstill hdir).trans (congrArg Host.Outcome.next (if_pos hbad))
  · subst hup
    exact exec_pcieLinkChange_up hd hrst hwas
  · subst hup
    exact exec_pcieLinkChange_down hd hrst hwas
  · exact (exec_msixMessage_due hup hdue).trans (congrArg Host.Outcome.next (if_pos hopen))
  · exact (exec_msixMessage_due hup hdue).trans
      (congrArg Host.Outcome.next ((if_neg (Bool.eq_false_iff.mp hmasked)).trans (if_neg (Bool.eq_false_iff.mp hnew))))
  · exact (exec_qspiCommandDone_busy hd hbusy false).trans (congrArg Host.Outcome.next (if_neg Bool.false_ne_true))
  · have hwrites : (true && (decide (op = 2) || decide (op = 3))) = true := by simpa using hop
    exact (exec_qspiCommandDone_busy hd hbusy true).trans (congrArg Host.Outcome.next (if_pos hwrites))

end Sys2Proof.Machine
end

section
namespace Sys2Proof.Machine

-- Elaborated one after another: each asynchronous elaboration takes a stack of its own out of the
-- memory the check allows.
set_option Elab.async false

/-- The tables of a state are in canonical form. -/
def State.Canonical (s : State) : Prop := s.canonical = true

/-- The state that a result goes on to is canonical. -/
def ResCanonical (r : Res) : Prop := ∀ t, r = .next t → t.Canonical

section
variable {s t : State}

theorem State.canonical_iff :
    s.Canonical ↔ canon regReset s.regs = true ∧ canon bankReset s.bank = true ∧
      canon memDefault s.mem = true ∧ canon (fun _ => 0) s.ecc = true := by
  simp only [State.Canonical, State.canonical, Bool.and_eq_true, and_assoc]

theorem ResCanonical.next (h : s.Canonical) : ResCanonical (.next s) := by
  rintro t ⟨rfl⟩
  exact h

/-- A state with the tables of a canonical one is canonical. -/
theorem State.Canonical.keep (h : s.Canonical) (hr : t.regs = s.regs := by rfl)
    (hb : t.bank = s.bank := by rfl) (hm : t.mem = s.mem := by rfl) (he : t.ecc = s.ecc := by rfl) :
    t.Canonical := by
  rw [State.canonical_iff] at *
  rwa [hr, hb, hm, he]

/-! A record update of a field that is no table keeps the canonical form. -/

theorem State.Canonical.withBal {x} (h : s.Canonical) : ({ s with bal := x } : State).Canonical :=
  h.keep

theorem State.Canonical.withCatalogue {x} (h : s.Canonical) :
    ({ s with catalogue := x } : State).Canonical :=
  h.keep

theorem State.Canonical.withCopies {x} (h : s.Canonical) :
    ({ s with copies := x } : State).Canonical :=
  h.keep

theorem State.Canonical.withDbg {x} (h : s.Canonical) : ({ s with dbg := x } : State).Canonical :=
  h.keep

theorem State.Canonical.withEvr {x} (h : s.Canonical) : ({ s with evr := x } : State).Canonical :=
  h.keep

theorem State.Canonical.withFc {x} (h : s.Canonical) : ({ s with fc := x } : State).Canonical :=
  h.keep

theorem State.Canonical.withImages {x} (h : s.Canonical) :
    ({ s with images := x } : State).Canonical :=
  h.keep

theorem State.Canonical.withIng {x} (h : s.Canonical) : ({ s with ing := x } : State).Canonical :=
  h.keep

theorem State.Canonical.withLany {x} (h : s.Canonical) : ({ s with lany := x } : State).Canonical :=
  h.keep

theorem State.Canonical.withMeas {x} (h : s.Canonical) : ({ s with meas := x } : State).Canonical :=
  h.keep

theorem State.Canonical.withPair {x} (h : s.Canonical) : ({ s with pair := x } : State).Canonical :=
  h.keep

theorem State.Canonical.withPending {x} (h : s.Canonical) :
    ({ s with pending := x } : State).Canonical :=
  h.keep

theorem State.Canonical.withPlc {x} (h : s.Canonical) : ({ s with plc := x } : State).Canonical :=
  h.keep

theorem State.Canonical.withRdata {x} (h : s.Canonical) :
    ({ s with rdata := x } : State).Canonical :=
  h.keep

theorem State.Canonical.withRtc {x} (h : s.Canonical) : ({ s with rtc := x } : State).Canonical :=
  h.keep

theorem State.Canonical.withRig {x} (h : s.Canonical) : ({ s with rig := x } : State).Canonical :=
  h.keep

theorem State.Canonical.withWire {x} (h : s.Canonical) : ({ s with wire := x } : State).Canonical :=
  h.keep

theorem State.Canonical.withSettings {x} (h : s.Canonical) :
    ({ s with settings := x } : State).Canonical :=
  h.keep

theorem State.Canonical.withTotals {x} (h : s.Canonical) :
    ({ s with totals := x } : State).Canonical :=
  h.keep

theorem State.Canonical.withVersions {x} (h : s.Canonical) :
    ({ s with versions := x } : State).Canonical :=
  h.keep

theorem State.Canonical.withWork {x} (h : s.Canonical) : ({ s with work := x } : State).Canonical :=
  h.keep

theorem State.Canonical.withLifetimeLany {x y} (h : s.Canonical) :
    ({ s with lifetime := x, lany := y } : State).Canonical :=
  h.keep

theorem State.Canonical.withRingsMsix {x y} (h : s.Canonical) :
    ({ s with rings := x, msix := y } : State).Canonical :=
  h.keep

theorem State.Canonical.withSbusMeas {x y} (h : s.Canonical) :
    ({ s with sbus := x, meas := y } : State).Canonical :=
  h.keep

theorem State.Canonical.ite {c : Prop} {_ : Decidable c} (hs : s.Canonical) (ht : t.Canonical) :
    (if c then s else t).Canonical := by
  split
  · exact hs
  · exact ht

section
variable {α β : Type}

theorem State.Canonical.ite_snd {c : Prop} {_ : Decidable c} {x y : α × State} (hx : x.2.Canonical)
    (hy : y.2.Canonical) : (if c then x else y).2.Canonical := by
  split
  · exact hx
  · exact hy

theorem State.Canonical.ite_snd_snd {c : Prop} {_ : Decidable c} {x y : α × β × State}
    (hx : x.2.2.Canonical) (hy : y.2.2.Canonical) : (if c then x else y).2.2.Canonical := by
  split
  · exact hx
  · exact hy

theorem State.Canonical.snd_snd_mk {a : α} {b : β} (h : s.Canonical) :
    ((a, b, s) : α × β × State).2.2.Canonical :=
  h

theorem State.Canonical.of_snd {x : α × State} {a : α} (h : x.2.Canonical) (hx : x = (a, t)) :
    t.Canonical := by
  rwa [hx] at h

theorem State.Canonical.of_snd_snd {x : α × β × State} {a : α} {b : β} (h : x.2.2.Canonical)
    (hx : x = (a, b, t)) : t.Canonical := by
  rwa [hx] at h

theorem State.Canonical.getD {o : Option State} (ho : ∀ t, o = some t → t.Canonical)
    (h : s.Canonical) : (o.getD s).Canonical := by
  cases o with
  | none => exact h
  | some t => exact ho t rfl

theorem State.Canonical.foldl {f : State → α → State} {l : List α} (h : s.Canonical)
    (hf : ∀ {u : State} x, u.Canonical → (f u x).Canonical) : (l.foldl f s).Canonical := by
  induction l generalizing s with
  | nil => exact h
  | cons x l ih => exact ih (hf x h)

theorem State.Canonical.foldl_snd {f : β × State → α → β × State} {l : List α} {b : β × State}
    (h : b.2.Canonical) (hf : ∀ {u : β × State} x, u.2.Canonical → (f u x).2.Canonical) :
    (l.foldl f b).2.Canonical := by
  induction l generalizing b with
  | nil => exact h
  | cons x l ih => exact ih (hf x h)

theorem State.Canonical.foldl_snd_snd {γ : Type} {f : α × β × State → γ → α × β × State}
    {l : List γ} {b : α × β × State} (h : b.2.2.Canonical) (hf : ∀ {u : α × β × State} x,
    u.2.2.Canonical → (f u x).2.2.Canonical) : (l.foldl f b).2.2.Canonical := by
  induction l generalizing b with
  | nil => exact h
  | cons x l ih => exact ih (hf x h)

end

/-! The functions of `Sys2Proof/Machine/Ops.lean`. -/

theorem State.Canonical.setByte {sp a v} (h : s.Canonical) : (s.setByte sp a v).Canonical := by
  obtain ⟨hr, hb, hm, he⟩ := State.canonical_iff.mp h
  exact State.canonical_iff.mpr ⟨hr, hb, canon_store _ _ hm, he⟩

theorem State.Canonical.setBytes {sp a l} (h : s.Canonical) : (s.setBytes sp a l).Canonical := by
  induction l generalizing s a with
  | nil => exact h
  | cons b l ih => exact ih h.setByte

theorem State.Canonical.setLe {sp a n v} (h : s.Canonical) : (s.setLe sp a n v).Canonical :=
  h.setBytes

theorem State.Canonical.dieServe (h : s.Canonical) : s.dieServe.Canonical :=
  h.keep.foldl fun _ h1 => h1.setBytes

theorem State.Canonical.framPut {rank a l} (h : s.Canonical) : (s.framPut rank a l).Canonical :=
  .ite h.keep h.setBytes

theorem State.Canonical.setEcc {sp a c} (h : s.Canonical) : (s.setEcc sp a c).Canonical := by
  obtain ⟨hr, hb, hm, he⟩ := State.canonical_iff.mp h
  exact State.canonical_iff.mpr ⟨hr, hb, hm, canon_store _ _ he⟩

theorem State.Canonical.clearMem {sp a b} (h : s.Canonical) : (s.clearMem sp a b).Canonical := by
  obtain ⟨hr, hb, hm, he⟩ := State.canonical_iff.mp h
  exact State.canonical_iff.mpr ⟨hr, hb, canon_dropRange _ _ hm, canon_dropRange _ _ he⟩

theorem State.Canonical.wr {a v} (h : s.Canonical) : (s.wr a v).Canonical := by
  obtain ⟨hr, hb, hm, he⟩ := State.canonical_iff.mp h
  exact State.canonical_iff.mpr ⟨canon_store _ _ hr, hb, hm, he⟩

theorem State.Canonical.putF {a hi lo v} (h : s.Canonical) : (s.putF a hi lo v).Canonical := h.wr

theorem State.Canonical.putBit {a i b} (h : s.Canonical) : (s.putBit a i b).Canonical := h.putF

theorem State.Canonical.wr64 {a v} (h : s.Canonical) : (s.wr64 a v).Canonical := h.wr.wr

theorem State.Canonical.setBk {a i v} (h : s.Canonical) : (s.setBk a i v).Canonical := by
  obtain ⟨hr, hb, hm, he⟩ := State.canonical_iff.mp h
  rw [State.canonical_iff, State.setBk_regs, State.setBk_mem, State.setBk_ecc]
  unfold State.setBk
  exact ⟨hr, canon_store _ _ hb, hm, he⟩

theorem State.Canonical.bumpBk {a i limit n} (h : s.Canonical) : (s.bumpBk a i limit n).Canonical :=
  h.setBk

theorem State.Canonical.bump {a n} (h : s.Canonical) : (s.bump a n).Canonical := h.wr

theorem State.Canonical.bumpMod {a n} (h : s.Canonical) : (s.bumpMod a n).Canonical := h.wr

theorem State.Canonical.bumpF {a hi lo n} (h : s.Canonical) : (s.bumpF a hi lo n).Canonical :=
  h.putF

theorem State.Canonical.draw (h : s.Canonical) : s.draw.2.Canonical := h.keep

theorem State.Canonical.drawN {n} (h : s.Canonical) : (s.drawN n).2.Canonical := by
  induction n generalizing s with
  | zero => exact h
  | succ n ih => exact ih h.draw

theorem State.Canonical.roundFree {a b} (h : s.Canonical) : (s.roundFree a b).2.Canonical :=
  .ite_snd h h.draw

theorem State.Canonical.tsuRun {dt} (h : s.Canonical) : (s.tsuRun dt).Canonical :=
  .ite h (State.Canonical.ite h.wr h).keep

theorem State.Canonical.rtcRun {dt} (h : s.Canonical) : (s.rtcRun dt).Canonical :=
  .ite h (.ite h.keep h.keep.wr64)

theorem State.Canonical.at {t} (h : s.Canonical) : (s.at t).Canonical := .ite h h.tsuRun.rtcRun.keep

theorem State.Canonical.readBy {q f} (h : s.Canonical) (hf : ∀ {u : State}, u.Canonical →
    (f u).Canonical) : (s.readBy q f).Canonical :=
  .ite h.keep (hf h)

theorem State.Canonical.fire {v} (h : s.Canonical) : (s.fire v).Canonical := .ite h h.keep

theorem State.Canonical.irq {p inst i} (h : s.Canonical) : (s.irq p inst i).Canonical := by
  unfold State.irq
  dsimp only
  split
  · exact h.putBit
  · split
    · exact h.putBit
    · exact .ite h.putBit h.putBit.fire

theorem State.Canonical.refuse {q a cause} (h : s.Canonical) : (s.refuse q a cause).Canonical :=
  h.wr.bump.irq

theorem State.Canonical.guarded {q a v stateBad eff} (h : s.Canonical)
    (heff : ∀ {u : State}, u.Canonical → (eff u).Canonical) :
    (s.guarded q a v stateBad eff).Canonical := by
  unfold State.guarded
  split
  · exact h.refuse
  · exact heff h

theorem State.Canonical.pulse {src} (h : s.Canonical) : (s.pulse src).Canonical :=
  .ite h (.ite h.bump (.ite h h.keep))

theorem State.Canonical.cause {p inst i} (h : s.Canonical) : (s.cause p inst i).Canonical := by
  unfold State.cause
  dsimp only
  split
  · exact .ite h.putBit.pulse h.putBit
  · exact h.putBit

theorem State.Canonical.inject {p inst ce ue} (h : s.Canonical) :
    (s.inject p inst ce ue).2.Canonical :=
  .ite_snd (.ite h h.putBit) (.ite_snd (.ite h h.putBit) h)

/-! The functions of `Sys2Proof/Machine/MacMap.lean`. -/

theorem State.Canonical.setPort7 {m a2} (h : s.Canonical) : (s.setPort7 m a2).Canonical := h.keep

theorem State.Canonical.xregSettle {n} (h : s.Canonical) : (s.xregSettle n).Canonical := by
  unfold State.xregSettle
  dsimp only
  split
  · exact .ite (.ite h.setPort7.putBit h.setPort7.putBit.putF) h
  · exact h

theorem State.Canonical.setEthPort {n a2} (h : s.Canonical) : (s.setEthPort n a2).Canonical :=
  h.keep

/-! The functions of `Sys2Proof/Machine/IoMap.lean`. -/

theorem State.Canonical.mdioSettle (h : s.Canonical) : s.mdioSettle.Canonical := by
  unfold State.mdioSettle
  dsimp only
  split
  · exact .ite (.ite h.setEthPort.putBit.putF h.setEthPort.putBit) h
  · exact h

/-! The functions of `Sys2Proof/Machine/Splices.lean`. -/

theorem State.Canonical.setSpl {n a2} (h : s.Canonical) : (s.setSpl n a2).Canonical := h.keep

theorem State.Canonical.splEmptied {n} (h : s.Canonical) : (s.splEmptied n).Canonical := h.setSpl

theorem State.Canonical.setPoolCell {cell c} (h : s.Canonical) : (s.setPoolCell cell c).Canonical :=
  h.setLe.foldl fun _ h1 => h1.setEcc

theorem State.Canonical.poolFound {cell w c scrub} (h : s.Canonical) :
    (s.poolFound cell w c scrub).Canonical :=
  .ite h.cause.bump (.ite h.cause.wr h)

theorem State.Canonical.readCell {cell} (h : s.Canonical) : (s.readCell cell).2.Canonical :=
  h.foldl_snd fun _ h1 => h1.poolFound

theorem State.Canonical.newPtr {v} (h : s.Canonical) : (s.newPtr v).2.Canonical :=
  .ite_snd (.ite h h.putBit) (.ite_snd (.ite h h.putBit) h)

theorem State.Canonical.overrun {n} (h : s.Canonical) : (s.overrun n).Canonical :=
  .ite h.setSpl.cause.irq.bump h.setSpl.cause.irq.bump.wr

theorem State.Canonical.commitAt {n c} (h : s.Canonical) : (s.commitAt n c).Canonical :=
  (State.Canonical.ite h.setPoolCell.inject h.setPoolCell.inject.setEcc).newPtr.setSpl

theorem State.Canonical.blockPut {n c} (h : s.Canonical) : (s.blockPut n c).Canonical :=
  .ite h.bump h.commitAt

theorem State.Canonical.strandCommit {n c} (h : s.Canonical) : (s.strandCommit n c).Canonical :=
  .ite h.bump (.ite h.overrun h.commitAt)

theorem State.Canonical.pop {n} (h : s.Canonical) : (s.pop n).2.Canonical :=
  .ite_snd h h.readCell.newPtr.setSpl

theorem State.Canonical.sync {n} (h : s.Canonical) : (s.sync n).Canonical := h.setSpl

theorem State.Canonical.syncLay {lay} (h : s.Canonical) : (s.syncLay lay).Canonical :=
  h.foldl fun _ h1 => h1.sync

theorem State.Canonical.offer {n c} (h : s.Canonical) : (s.offer n c).Canonical :=
  .ite h.keep h.blockPut

theorem State.Canonical.offerAll {n cs} (h : s.Canonical) : (s.offerAll n cs).Canonical :=
  h.foldl fun _ h1 => h1.offer

theorem State.Canonical.ptrReset {n} (h : s.Canonical) : (s.ptrReset n).Canonical :=
  .ite h.setSpl.cause.irq.bump h.setSpl.cause.irq.bump.wr

theorem State.Canonical.ethCount {n i} (h : s.Canonical) : (s.ethCount n i).Canonical := h.bumpBk

theorem State.Canonical.cacheUse {n addr} (h : s.Canonical) : (s.cacheUse n addr).Canonical := by
  unfold State.cacheUse
  dsimp only
  split
  · exact h
  · exact h.setEthPort

theorem State.Canonical.ethSend {n src dst udp l} (h : s.Canonical) :
    (s.ethSend n src dst udp l).Canonical := by
  unfold State.ethSend
  refine .ite h ?_
  split
  next hc =>
  extract_lets s2
  have h1 := (State.Canonical.ite_snd h.inject h.inject).of_snd hc
  have h2 : s2.Canonical := .ite h1 (.ite h1.cause h1.cause)
  exact .ite h2 (State.Canonical.withWire h2.cacheUse).ethCount

theorem State.Canonical.sendTo {port dst key l} (h : s.Canonical) :
    (s.sendTo port dst key l).Canonical :=
  .ite h.ethSend h.keep

theorem State.Canonical.send {port dst l} (h : s.Canonical) : (s.send port dst l).Canonical :=
  h.sendTo

/-! The functions of `Sys2Proof/Machine/Operands.lean`. -/

theorem State.Canonical.setStr {n a2} (h : s.Canonical) : (s.setStr n a2).Canonical := h.keep

theorem State.Canonical.setLay {n a2} (h : s.Canonical) : (s.setLay n a2).Canonical := h.keep

theorem State.Canonical.fly {a1 rank latency l} (h : s.Canonical) :
    (s.fly a1 rank latency l).Canonical :=
  h.setStr

theorem State.Canonical.flyReg {a1 rank latency d v} (h : s.Canonical) :
    (s.flyReg a1 rank latency d v).Canonical :=
  h.fly

theorem State.Canonical.when {a1 eff} (h : s.Canonical) (heff : ∀ {u : State}, u.Canonical →
    (eff u).Canonical) : (s.when a1 eff).Canonical :=
  .ite (heff h) h

/-! The functions of `Sys2Proof/Machine/NandMap.lean`. -/

theorem State.Canonical.setNand {a1} (h : s.Canonical) : (s.setNand a1).Canonical := h.keep

theorem State.Canonical.setBlk {k b} (h : s.Canonical) : (s.setBlk k b).Canonical := h.setNand

/-! The functions of `Sys2Proof/Machine/IngestMap.lean`. -/

theorem State.Canonical.setSource {i a2} (h : s.Canonical) : (s.setSource i a2).Canonical := h.keep

/-! The functions of `Sys2Proof/Machine/KeyMap.lean`. -/

theorem State.Canonical.setSlot {i a2} (h : s.Canonical) : (s.setSlot i a2).Canonical := h.keep

/-! The functions of `Sys2Proof/Machine/Views.lean`. -/

theorem State.Canonical.setTimer {k t} (h : s.Canonical) : (s.setTimer k t).Canonical := h.keep

theorem State.Canonical.flushStart {always} (h : s.Canonical) : (s.flushStart always).Canonical :=
  .ite h (.ite h.keep h.putBit.keep)

theorem State.Canonical.enter {code src args} (h : s.Canonical) :
    (s.enter code src args).Canonical := by
  unfold State.enter
  extract_lets e s1 s2 s3
  have h2 : s2.Canonical := h.withEvr.bumpMod
  have h3 : s3.Canonical := .ite h2.flushStart h2
  exact .ite h3.putBit.cause h3

theorem State.Canonical.loseRecord (h : s.Canonical) : s.loseRecord.Canonical :=
  h.bump.cause.irq.keep

theorem State.Canonical.event {code src args} (h : s.Canonical) :
    (s.event code src args).Canonical :=
  .ite h (.ite h.bump (.ite h.loseRecord (.ite h.loseRecord (.ite (.ite h.loseRecord h.enter)
    (.ite h.loseRecord (.ite h.enter.keep.loseRecord h.enter.keep.enter))))))

theorem State.Canonical.notify {code body} (h : s.Canonical) : (s.notify code body).Canonical :=
  .ite h h.keep

theorem State.Canonical.lanyEvent {code args} (h : s.Canonical) :
    (s.lanyEvent code args).Canonical :=
  .ite h.event.notify h.event

theorem State.Canonical.layEvent {lay code args} (h : s.Canonical) :
    (s.layEvent lay code args).Canonical :=
  .ite h.event.notify h.event

/-! The functions of `Sys2Proof/Machine/Access.lean`. -/

theorem State.Canonical.setVal {p inst r o v} (h : s.Canonical) :
    (s.setVal p inst r o v).Canonical := by
  unfold State.setVal
  dsimp only
  split
  · exact h.setBk
  · exact .ite h.wr64 h.wr

theorem State.Canonical.plain {a v} (h : s.Canonical) : (s.plain a v).Canonical := by
  unfold State.plain
  split
  · exact h
  · split
    · exact h
    · exact h.setVal

theorem State.Canonical.clearRc {a} (h : s.Canonical) : (s.clearRc a).Canonical := by
  unfold State.clearRc
  split
  · exact h
  · split
    · exact h
    · exact .ite h.setVal h

theorem State.Canonical.read32 {q a} (h : s.Canonical) : (s.read32 q a).Canonical :=
  .ite (.ite h.keep.clearRc h.keep) h.keep.clearRc

theorem State.Canonical.read64 {q a} (h : s.Canonical) : (s.read64 q a).Canonical := h.keep.clearRc

theorem State.Canonical.setShadow {q a v} (h : s.Canonical) : (s.setShadow q a v).Canonical :=
  h.keep

theorem State.Canonical.dropShadow {q a} (h : s.Canonical) : (s.dropShadow q a).Canonical := h.keep

theorem State.Canonical.pageReset {p inst} (h : s.Canonical) : (s.pageReset p inst).Canonical := by
  obtain ⟨hr, hb, hm, he⟩ := State.canonical_iff.mp h
  exact State.canonical_iff.mpr ⟨canon_dropRange _ _ hr, canon_dropRange _ _ hb, hm, he⟩

theorem State.Canonical.softReset {p inst} (h : s.Canonical) : (s.softReset p inst).Canonical :=
  h.pageReset.wr.wr.wr.wr.wr

theorem State.Canonical.pageOff {p inst} (h : s.Canonical) : (s.pageOff p inst).Canonical := by
  obtain ⟨hr, hb, hm, he⟩ := State.canonical_iff.mp (h.pageReset (p := p) (inst := inst))
  exact State.canonical_iff.mpr ⟨canon_dropRange _ _ hr, hb, hm, he⟩

theorem State.Canonical.takeLock {q a} (h : s.Canonical) : (s.takeLock q a).Canonical :=
  .ite h h.putBit.wr

theorem State.Canonical.freeLock {a} (h : s.Canonical) : (s.freeLock a).Canonical := h.putBit.wr

theorem State.Canonical.claim {q a tag} (h : s.Canonical) : (s.claim q a tag).Canonical := h.wr

/-! The functions of `Sys2Proof/Machine/Strands.lean`. -/

theorem State.Canonical.taint {n i} (h : s.Canonical) : (s.taint n i).Canonical :=
  .ite h.setStr h.setStr.wr

theorem State.Canonical.strandCause {n i} (h : s.Canonical) : (s.strandCause n i).Canonical :=
  .ite (State.Canonical.ite h.cause.taint h.cause).bump.layEvent (State.Canonical.ite h.cause.taint
    h.cause)

theorem State.Canonical.strandEcc {n dm scrub addr c} (h : s.Canonical) :
    (s.strandEcc n dm scrub addr c).Canonical :=
  .ite h (.ite h.wr.cause.bump (.ite h.wr.cause h.wr.strandCause))

theorem State.Canonical.readStrandWord {n dm scrub addr} (h : s.Canonical) :
    (s.readStrandWord n dm scrub addr).2.Canonical :=
  h.inject.strandEcc

theorem State.Canonical.scrubStrandWord {n dm w} (h : s.Canonical) :
    (s.scrubStrandWord n dm w).Canonical :=
  .ite h.readStrandWord.setEcc h.readStrandWord

theorem State.Canonical.freeScrub {n} (h : s.Canonical) : (s.freeScrub n).Canonical :=
  .ite h h.setStr

theorem State.Canonical.strandScrub {n} (h : s.Canonical) : (s.strandScrub n).Canonical := by
  unfold State.strandScrub
  extract_lets used s1 w s2 a s3 w' s4
  have h1 : s1.Canonical := h.freeScrub
  have h3 : s3.Canonical := .ite h1 h1.scrubStrandWord.setStr
  exact .ite h3 h3.scrubStrandWord.setStr

theorem State.Canonical.readDmem {n addr size} (h : s.Canonical) :
    (s.readDmem n addr size).Canonical :=
  .ite h.setStr.readStrandWord.readStrandWord h.setStr.readStrandWord

theorem State.Canonical.align {n ea size} (h : s.Canonical) : (s.align n ea size).Canonical :=
  .ite h h.strandCause

theorem State.Canonical.load {a0 size sext d a imm} (h : s.Canonical) :
    (State.load a0 size sext d a imm s).Canonical := by
  unfold State.load
  refine h.when fun h1 => ?_
  dsimp only
  split
  · exact h1.align.strandCause.fly
  · exact h1.align.readDmem.fly
  · exact .ite h1.align.fly h1.align.strandCause.fly

theorem State.Canonical.storeOp {a0 size d a imm} (h : s.Canonical) :
    (State.storeOp a0 size d a imm s).Canonical := by
  unfold State.storeOp
  refine h.when fun h1 => ?_
  dsimp only
  split
  · exact h1.align.strandCause
  · exact h1.align.setStr.fly
  · exact .ite h1.align.fly h1.align.strandCause

theorem State.Canonical.storeBytes {sp a size v} (h : s.Canonical) :
    (s.storeBytes sp a size v).Canonical :=
  .ite (State.Canonical.ite h.setLe.setEcc h.setLe).setEcc (State.Canonical.ite h.setLe.setEcc
    h.setLe)

theorem State.Canonical.lmemFound {lay scrub addr c} (h : s.Canonical) :
    (s.lmemFound lay scrub addr c).Canonical :=
  .ite h (.ite h.wr.cause.bump h.wr.cause)

theorem State.Canonical.readLmemWord {lay scrub addr} (h : s.Canonical) :
    (s.readLmemWord lay scrub addr).2.Canonical :=
  h.inject.lmemFound

theorem State.Canonical.readLmem {lay addr size} (h : s.Canonical) :
    (s.readLmem lay addr size).Canonical :=
  .ite h.readLmemWord.readLmemWord h.readLmemWord

theorem State.Canonical.occupyDivider {a1} (h : s.Canonical) : (s.occupyDivider a1).Canonical := by
  unfold State.occupyDivider
  dsimp only
  refine State.Canonical.setStr ?_
  split
  · exact .ite h.setStr.strandCause h
  · exact h

theorem State.Canonical.division {a0 d a b f} (h : s.Canonical) :
    (State.division a0 d a b f s).Canonical :=
  .ite h.occupyDivider.setStr h.occupyDivider

theorem State.Canonical.branch {a0 target} (h : s.Canonical) :
    (State.branch a0 target s).Canonical :=
  h.setStr

theorem State.Canonical.complete {n f} (h : s.Canonical) : (s.complete n f).Canonical := by
  unfold State.complete
  dsimp only
  split
  · exact h.setStr
  · exact h.setStr
  · exact h.setStr
  · exact h.setStr
  · exact h.storeBytes
  · exact h.storeBytes
  · exact h.readLmem.setStr
  · exact h.strandCommit

theorem State.Canonical.retireStrand {n c} (h : s.Canonical) : (s.retireStrand n c).Canonical :=
  h.setStr.foldl fun _ h1 => h1.foldl fun _ h2 => h2.complete

theorem State.Canonical.retireCommits {lay c} (h : s.Canonical) :
    (s.retireCommits lay c).Canonical :=
  (h.foldl fun _ h1 => h1.setStr).foldl fun _ h1 => h1.complete

/-! The functions of `Sys2Proof/Machine/Alu.lean`. -/

theorem State.Canonical.alu2 {a0 u d a b f} (h : s.Canonical) :
    (State.alu2 a0 u d a b f s).Canonical :=
  h.when (fun h1 => h1.flyReg)

theorem State.Canonical.alu1 {a0 u d a f} (h : s.Canonical) : (State.alu1 a0 u d a f s).Canonical :=
  h.when (fun h1 => h1.flyReg)

theorem State.Canonical.cmp2 {a0 u pd a b f} (h : s.Canonical) :
    (State.cmp2 a0 u pd a b f s).Canonical :=
  h.when (fun h1 => h1.fly)

theorem State.Canonical.cmp1 {a0 u pd a f} (h : s.Canonical) :
    (State.cmp1 a0 u pd a f s).Canonical :=
  h.when (fun h1 => h1.fly)

theorem State.Canonical.plogic {a0 u pd p1 p2 f} (h : s.Canonical) :
    (State.plogic a0 u pd p1 p2 f s).Canonical :=
  h.when (fun h1 => h1.fly)

theorem State.Canonical.mulOp {a0 d a b f} (h : s.Canonical) :
    (State.mulOp a0 d a b f s).Canonical :=
  h.when (fun h1 => h1.flyReg)

theorem execNop_canonical {a0 a1 w} (h : s.Canonical) : ResCanonical (execNop a0 a1 w s) :=
  .next (h.when (fun h1 => .ite h1 h1.strandCause))

theorem execAdd_canonical {a0 u d a b} (h : s.Canonical) : ResCanonical (execAdd a0 u d a b s) :=
  .next h.alu2

theorem execSub_canonical {a0 u d a b} (h : s.Canonical) : ResCanonical (execSub a0 u d a b s) :=
  .next h.alu2

theorem execAnd_canonical {a0 u d a b} (h : s.Canonical) : ResCanonical (execAnd a0 u d a b s) :=
  .next h.alu2

theorem execOr_canonical {a0 u d a b} (h : s.Canonical) : ResCanonical (execOr a0 u d a b s) :=
  .next h.alu2

theorem execXor_canonical {a0 u d a b} (h : s.Canonical) : ResCanonical (execXor a0 u d a b s) :=
  .next h.alu2

theorem execAndn_canonical {a0 u d a b} (h : s.Canonical) : ResCanonical (execAndn a0 u d a b s) :=
  .next h.alu2

theorem execShl_canonical {a0 u d a b} (h : s.Canonical) : ResCanonical (execShl a0 u d a b s) :=
  .next h.alu2

theorem execShr_canonical {a0 u d a b} (h : s.Canonical) : ResCanonical (execShr a0 u d a b s) :=
  .next h.alu2

theorem execSar_canonical {a0 u d a b} (h : s.Canonical) : ResCanonical (execSar a0 u d a b s) :=
  .next h.alu2

theorem execRor_canonical {a0 u d a b} (h : s.Canonical) : ResCanonical (execRor a0 u d a b s) :=
  .next h.alu2

theorem execSel_canonical {a0 u d a b p} (h : s.Canonical) :
    ResCanonical (execSel a0 u d a b p s) :=
  .next h.alu2

theorem execMinu_canonical {a0 u d a b} (h : s.Canonical) : ResCanonical (execMinu a0 u d a b s) :=
  .next h.alu2

theorem execMaxu_canonical {a0 u d a b} (h : s.Canonical) : ResCanonical (execMaxu a0 u d a b s) :=
  .next h.alu2

theorem execMins_canonical {a0 u d a b} (h : s.Canonical) : ResCanonical (execMins a0 u d a b s) :=
  .next h.alu2

theorem execMaxs_canonical {a0 u d a b} (h : s.Canonical) : ResCanonical (execMaxs a0 u d a b s) :=
  .next h.alu2

theorem execAddi_canonical {a0 u d a imm} (h : s.Canonical) :
    ResCanonical (execAddi a0 u d a imm s) :=
  .next h.alu1

theorem execAndi_canonical {a0 u d a imm} (h : s.Canonical) :
    ResCanonical (execAndi a0 u d a imm s) :=
  .next h.alu1

theorem execOri_canonical {a0 u d a imm} (h : s.Canonical) :
    ResCanonical (execOri a0 u d a imm s) :=
  .next h.alu1

theorem execXori_canonical {a0 u d a imm} (h : s.Canonical) :
    ResCanonical (execXori a0 u d a imm s) :=
  .next h.alu1

theorem execShli_canonical {a0 u d a n} (h : s.Canonical) : ResCanonical (execShli a0 u d a n s) :=
  .next h.alu1

theorem execShri_canonical {a0 u d a n} (h : s.Canonical) : ResCanonical (execShri a0 u d a n s) :=
  .next h.alu1

theorem execSari_canonical {a0 u d a n} (h : s.Canonical) : ResCanonical (execSari a0 u d a n s) :=
  .next h.alu1

theorem execRori_canonical {a0 u d a n} (h : s.Canonical) : ResCanonical (execRori a0 u d a n s) :=
  .next h.alu1

theorem execMovz_canonical {a0 u d imm} (h : s.Canonical) : ResCanonical (execMovz a0 u d imm s) :=
  .next h.alu1

theorem execMovk0_canonical {a0 u d imm} (h : s.Canonical) :
    ResCanonical (execMovk0 a0 u d imm s) :=
  .next h.alu1

theorem execMovk1_canonical {a0 u d imm} (h : s.Canonical) :
    ResCanonical (execMovk1 a0 u d imm s) :=
  .next h.alu1

theorem execMovk2_canonical {a0 u d imm} (h : s.Canonical) :
    ResCanonical (execMovk2 a0 u d imm s) :=
  .next h.alu1

theorem execMovk3_canonical {a0 u d imm} (h : s.Canonical) :
    ResCanonical (execMovk3 a0 u d imm s) :=
  .next h.alu1

theorem execBswap_canonical {a0 u d a m} (h : s.Canonical) :
    ResCanonical (execBswap a0 u d a m s) :=
  .next h.alu1

theorem execClz_canonical {a0 u d a} (h : s.Canonical) : ResCanonical (execClz a0 u d a s) :=
  .next h.alu1

theorem execPopc_canonical {a0 u d a} (h : s.Canonical) : ResCanonical (execPopc a0 u d a s) :=
  .next h.alu1

theorem execCmpeq_canonical {a0 u pd a b} (h : s.Canonical) :
    ResCanonical (execCmpeq a0 u pd a b s) :=
  .next h.cmp2

theorem execCmpne_canonical {a0 u pd a b} (h : s.Canonical) :
    ResCanonical (execCmpne a0 u pd a b s) :=
  .next h.cmp2

theorem execCmpltu_canonical {a0 u pd a b} (h : s.Canonical) :
    ResCanonical (execCmpltu a0 u pd a b s) :=
  .next h.cmp2

theorem execCmplts_canonical {a0 u pd a b} (h : s.Canonical) :
    ResCanonical (execCmplts a0 u pd a b s) :=
  .next h.cmp2

theorem execCmpleu_canonical {a0 u pd a b} (h : s.Canonical) :
    ResCanonical (execCmpleu a0 u pd a b s) :=
  .next h.cmp2

theorem execCmples_canonical {a0 u pd a b} (h : s.Canonical) :
    ResCanonical (execCmples a0 u pd a b s) :=
  .next h.cmp2

theorem execCmpeqi_canonical {a0 u pd a imm} (h : s.Canonical) :
    ResCanonical (execCmpeqi a0 u pd a imm s) :=
  .next h.cmp1

theorem execCmpnei_canonical {a0 u pd a imm} (h : s.Canonical) :
    ResCanonical (execCmpnei a0 u pd a imm s) :=
  .next h.cmp1

theorem execCmpltui_canonical {a0 u pd a imm} (h : s.Canonical) :
    ResCanonical (execCmpltui a0 u pd a imm s) :=
  .next h.cmp1

theorem execCmpltsi_canonical {a0 u pd a imm} (h : s.Canonical) :
    ResCanonical (execCmpltsi a0 u pd a imm s) :=
  .next h.cmp1

theorem execTbit_canonical {a0 u pd a n} (h : s.Canonical) :
    ResCanonical (execTbit a0 u pd a n s) :=
  .next h.cmp1

theorem execPand_canonical {a0 u pd p1 p2} (h : s.Canonical) :
    ResCanonical (execPand a0 u pd p1 p2 s) :=
  .next h.plogic

theorem execPor_canonical {a0 u pd p1 p2} (h : s.Canonical) :
    ResCanonical (execPor a0 u pd p1 p2 s) :=
  .next h.plogic

theorem execPxor_canonical {a0 u pd p1 p2} (h : s.Canonical) :
    ResCanonical (execPxor a0 u pd p1 p2 s) :=
  .next h.plogic

theorem execMul_canonical {a0 d a b} (h : s.Canonical) : ResCanonical (execMul a0 d a b s) :=
  .next h.mulOp

theorem execMulhu_canonical {a0 d a b} (h : s.Canonical) : ResCanonical (execMulhu a0 d a b s) :=
  .next h.mulOp

theorem execMulhs_canonical {a0 d a b} (h : s.Canonical) : ResCanonical (execMulhs a0 d a b s) :=
  .next h.mulOp

theorem execSid_canonical {a0 d} (h : s.Canonical) : ResCanonical (execSid a0 d s) := .next h.alu1

theorem execDivu_canonical {a0 d a b} (h : s.Canonical) : ResCanonical (execDivu a0 d a b s) :=
  .next h.division

theorem execDivs_canonical {a0 d a b} (h : s.Canonical) : ResCanonical (execDivs a0 d a b s) :=
  .next h.division

theorem execRemu_canonical {a0 d a b} (h : s.Canonical) : ResCanonical (execRemu a0 d a b s) :=
  .next h.division

theorem execRems_canonical {a0 d a b} (h : s.Canonical) : ResCanonical (execRems a0 d a b s) :=
  .next h.division

theorem execBr_canonical {a0 target} (h : s.Canonical) : ResCanonical (execBr a0 target s) :=
  .next h.branch

theorem execBrl_canonical {a0 d target} (h : s.Canonical) : ResCanonical (execBrl a0 d target s) :=
  .next (h.when (fun h1 => h1.flyReg)).branch

theorem execBrr_canonical {a0 a} (h : s.Canonical) : ResCanonical (execBrr a0 a s) := .next h.branch

theorem execChk_canonical {a0 imm} (h : s.Canonical) : ResCanonical (execChk a0 imm s) :=
  .next (h.when (fun h1 => .ite h1 h1.strandCause))

theorem execTend_canonical {a0} (h : s.Canonical) : ResCanonical (execTend a0 s) :=
  .next (h.when (fun h1 => h1.setStr))

/-! The functions of `Sys2Proof/Machine/MemSlot.lean`. -/

theorem execLd8u_canonical {a0 d a imm} (h : s.Canonical) : ResCanonical (execLd8u a0 d a imm s) :=
  .next h.load

theorem execLd16u_canonical {a0 d a imm} (h : s.Canonical) :
    ResCanonical (execLd16u a0 d a imm s) :=
  .next h.load

theorem execLd32u_canonical {a0 d a imm} (h : s.Canonical) :
    ResCanonical (execLd32u a0 d a imm s) :=
  .next h.load

theorem execLd32s_canonical {a0 d a imm} (h : s.Canonical) :
    ResCanonical (execLd32s a0 d a imm s) :=
  .next h.load

theorem execLd64_canonical {a0 d a imm} (h : s.Canonical) : ResCanonical (execLd64 a0 d a imm s) :=
  .next h.load

theorem execLd128_canonical {a0 d a imm} (h : s.Canonical) :
    ResCanonical (execLd128 a0 d a imm s) :=
  .next h.load

theorem execSt8_canonical {a0 d a imm} (h : s.Canonical) : ResCanonical (execSt8 a0 d a imm s) :=
  .next h.storeOp

theorem execSt16_canonical {a0 d a imm} (h : s.Canonical) : ResCanonical (execSt16 a0 d a imm s) :=
  .next h.storeOp

theorem execSt32_canonical {a0 d a imm} (h : s.Canonical) : ResCanonical (execSt32 a0 d a imm s) :=
  .next h.storeOp

theorem execSt64_canonical {a0 d a imm} (h : s.Canonical) : ResCanonical (execSt64 a0 d a imm s) :=
  .next h.storeOp

theorem execSt128_canonical {a0 d a imm} (h : s.Canonical) :
    ResCanonical (execSt128 a0 d a imm s) :=
  .next h.storeOp

theorem execStrandScrub_canonical {lay strand} (h : s.Canonical) :
    ResCanonical (execStrandScrub lay strand s) :=
  .next (.ite h.strandScrub h)

theorem State.Canonical.dbgDataWrite {q n v} (h : s.Canonical) : (s.dbgDataWrite q n v).Canonical :=
  h.guarded (fun h1 => h1.dropShadow.setStr)

theorem execDebugDataWrite_canonical {q lay strand v} (h : s.Canonical) :
    ResCanonical (execDebugDataWrite q lay strand v s) :=
  .next h.dbgDataWrite

/-! The functions of `Sys2Proof/Machine/Lays.lean`. -/

theorem State.Canonical.setLaySt {n v} (h : s.Canonical) : (s.setLaySt n v).Canonical := h.putF

theorem State.Canonical.readVtab {n} (h : s.Canonical) : (s.readVtab n).Canonical :=
  .ite h.inject.cause.setLay (.ite h.inject.cause h.inject)

theorem State.Canonical.endCycle {n} (h : s.Canonical) : (s.endCycle n).Canonical :=
  ((h.foldl fun _ h1 => h1.retireStrand).retireCommits.foldl fun _ h1 => h1.setStr).syncLay.setLay

theorem State.Canonical.quotaTick {lay} (h : s.Canonical) : (s.quotaTick lay).Canonical := h.keep

theorem State.Canonical.turnTick {lay} (h : s.Canonical) : (s.turnTick lay).Canonical :=
  (h.foldl fun _ h1 => h1.keep).quotaTick

theorem State.Canonical.clearStrands {n} (h : s.Canonical) : (s.clearStrands n).Canonical :=
  (h.foldl fun _ h1 => h1.setStr).setLay

theorem State.Canonical.clearData {n} (h : s.Canonical) : (s.clearData n).Canonical :=
  h.foldl fun _ h1 => h1.clearMem

theorem State.Canonical.stopLay {n} (h : s.Canonical) : (s.stopLay n).Canonical :=
  h.clearStrands.clearData.wr.wr.setLay.irq.layEvent

theorem State.Canonical.holdLay {n noVariant} (h : s.Canonical) :
    (s.holdLay n noVariant).Canonical :=
  .ite (State.Canonical.ite h.cause h) (State.Canonical.ite h.cause h).setLaySt.irq.layEvent

theorem State.Canonical.returnDone {n k} (h : s.Canonical) : (s.returnDone n k).Canonical :=
  h.wr.setStr.irq.layEvent

theorem State.Canonical.finishReturn {n} (h : s.Canonical) : (s.finishReturn n).Canonical :=
  .ite h (h.foldl fun _ h1 => h1.returnDone).setLay.putBit

theorem State.Canonical.startTurn {n} (h : s.Canonical) : (s.startTurn n).Canonical :=
  (h.setLay.bumpMod.foldl fun _ h1 => .ite h1.bumpMod.setStr h1).turnTick

theorem State.Canonical.selectVariant {n v} (h : s.Canonical) : (s.selectVariant n v).Canonical :=
  .ite h.putF.setLaySt h.putF.setLaySt.irq.bumpMod.layEvent

theorem State.Canonical.turnBoundary {n} (h : s.Canonical) : (s.turnBoundary n).Canonical := by
  unfold State.turnBoundary
  refine .ite h (.ite h.stopLay ?_)
  extract_lets late out s1 s2 l s3 s4 s5
  have h2 : s2.Canonical := h.finishReturn.wr
  have h3 : s3.Canonical := by
    unfold s3
    split
    · exact h2.holdLay
    · exact .ite h2.holdLay (.ite h2 h2.selectVariant)
  exact .foldl (.foldl h3.setLay.startTurn fun _ h1 => h1.strandCause) fun _ h1 => h1.setStr

theorem State.Canonical.clockWindow {n count} (h : s.Canonical) :
    (s.clockWindow n count).Canonical := by
  unfold State.clockWindow
  extract_lets lo hi ok s1 good s2 s3 g l s4 now
  have h2 : s2.Canonical := .ite h.wr.cause h.wr
  have h3 : s3.Canonical := .ite h2.cause h2
  have h4 : s4.Canonical := h3.setLay
  exact .ite h (.ite h4 h4.putBit.irq)

theorem execClockMonitorWindow_canonical {lay count} (h : s.Canonical) :
    ResCanonical (execClockMonitorWindow lay count s) :=
  .next h.clockWindow

theorem State.Canonical.balFirst {n} (h : s.Canonical) : (s.balFirst n).Canonical := .ite h.keep h

theorem State.Canonical.startLay {n} (h : s.Canonical) : (s.startLay n).Canonical :=
  .ite h h.balFirst.putBit.wr.wr.wr.setLay.irq.startTurn

theorem State.Canonical.strobe (h : s.Canonical) : s.strobe.Canonical :=
  .ite h (h.foldl fun _ h1 => h1.startLay).keep

theorem State.Canonical.armLay {n} (h : s.Canonical) : (s.armLay n).Canonical :=
  .ite h.setLaySt.putBit h

theorem State.Canonical.disarmLay {n} (h : s.Canonical) : (s.disarmLay n).Canonical :=
  .ite h.setLaySt.putBit h

theorem State.Canonical.layCtrl {q n v} (h : s.Canonical) : (s.layCtrl q n v).Canonical := by
  unfold State.layCtrl
  refine h.guarded fun h1 => ?_
  extract_lets s1 s2 l s3
  have hs1 : s1.Canonical := .ite h1.armLay (.ite h1 h1.disarmLay)
  have hs2 : s2.Canonical := .ite hs1.putBit hs1
  have hs3 : s3.Canonical := .ite hs2.setLay hs2
  exact .ite hs3.strobe hs3

theorem execLayArm_canonical {q lay} (h : s.Canonical) : ResCanonical (execLayArm q lay s) :=
  .next h.layCtrl

theorem execLayDisarm_canonical {q lay} (h : s.Canonical) : ResCanonical (execLayDisarm q lay s) :=
  .next h.layCtrl

theorem execLayGo_canonical {q lay arm} (h : s.Canonical) : ResCanonical (execLayGo q lay arm s) :=
  .next h.layCtrl

theorem execLayStop_canonical {q lay} (h : s.Canonical) : ResCanonical (execLayStop q lay s) :=
  .next h.layCtrl

theorem execLayResume_canonical {q lay} (h : s.Canonical) : ResCanonical (execLayResume q lay s) :=
  .next h.layCtrl

theorem State.Canonical.layReturn {q n v} (h : s.Canonical) : (s.layReturn q n v).Canonical :=
  h.guarded (fun h1 => .ite h1.setLay.putBit h1)

theorem State.Canonical.ldNext {n} (h : s.Canonical) : (s.ldNext n).Canonical := h.bumpMod

theorem State.Canonical.ldRead {n} (h : s.Canonical) : (s.ldRead n).2.Canonical := by
  unfold State.ldRead
  dsimp only
  split
  · exact .ite_snd h.setStr.readStrandWord h
  · split
    · exact .ite_snd h.setStr.readStrandWord h
    · split
      · exact .ite_snd h.readLmemWord h
      · split
        · split
          · exact .ite_snd h.readVtab h
          · exact h
        · exact h

theorem State.Canonical.ldWrite {n v} (h : s.Canonical) : (s.ldWrite n v).Canonical :=
  .ite h.storeBytes (.ite h.storeBytes (.ite h.storeBytes h.setLay))

theorem State.Canonical.loadPortRead {q n} (h : s.Canonical) : (s.loadPortRead q n).Canonical :=
  .ite h.keep h.ldRead.keep.ldNext

theorem execLoadPortRead_canonical {q lay} (h : s.Canonical) :
    ResCanonical (execLoadPortRead q lay s) :=
  .next (h.readBy (fun h1 => h1.loadPortRead))

theorem State.Canonical.ldCommit {q n v} (h : s.Canonical) : (s.ldCommit q n v).Canonical :=
  h.guarded (fun h1 => h1.dropShadow.ldWrite.ldNext)

theorem execLoadPortWrite_canonical {q lay v} (h : s.Canonical) :
    ResCanonical (execLoadPortWrite q lay v s) :=
  .next h.ldCommit

theorem State.Canonical.lmemScrub {n bank} (h : s.Canonical) : (s.lmemScrub n bank).Canonical :=
  .ite (State.Canonical.ite h.readLmemWord.setEcc h.readLmemWord).setLay h

theorem execLayMemScrub_canonical {lay bank} (h : s.Canonical) :
    ResCanonical (execLayMemScrub lay bank s) :=
  .next h.lmemScrub

/-! The functions of `Sys2Proof/Machine/Ports.lean`. -/

theorem State.Canonical.post {code n cs} (h : s.Canonical) : (s.post code n cs).Canonical := h.keep

theorem State.Canonical.deliverOldest {code} (h : s.Canonical) :
    (s.deliverOldest code).Canonical := by
  unfold State.deliverOldest
  split
  · exact h
  · exact h.keep.offerAll

theorem State.Canonical.ddrWord {a} (h : s.Canonical) : (s.ddrWord a).2.Canonical :=
  .ite h.inject.cause (.ite h.inject.cause h.inject)

theorem State.Canonical.ddrCheck {a n} (h : s.Canonical) : (s.ddrCheck a n).2.Canonical :=
  h.foldl_snd fun _ h1 => h1.ddrWord

theorem State.Canonical.ddrGet {a n} (h : s.Canonical) : (s.ddrGet a n).2.2.Canonical := h.ddrCheck

theorem State.Canonical.ddrPut {a l} (h : s.Canonical) : (s.ddrPut a l).Canonical :=
  h.setBytes.foldl fun _ h1 => h1.setEcc

theorem State.Canonical.ddrHalf {a1 half} (h : s.Canonical) : (s.ddrHalf a1 half).2.Canonical :=
  h.ddrCheck

theorem State.Canonical.ddrRequest {req comp} (h : s.Canonical) :
    (s.ddrRequest req comp).Canonical := by
  unfold State.ddrRequest
  split
  · next hp => exact h.pop.of_snd hp
  · next hp =>
    have h1 := h.pop.of_snd hp
    extract_lets w tag op far
    refine .ite (.ite h1.post ?_) (.ite ?_ h1.post)
    · -- the halves are read at a tag that stays a variable
      obtain ⟨k, hk⟩ : ∃ k, k = tag := ⟨_, rfl⟩
      rw [← hk]
      exact h1.ddrHalf.ddrHalf.post
    · split
      · exact h1.post
      · exact .ite (.ite h1.pop.post h1.pop.ddrPut.post) h1.post

theorem State.Canonical.ddrScrubSlot (h : s.Canonical) : s.ddrScrubSlot.Canonical :=
  (State.Canonical.ite h.ddrWord.setEcc h.ddrWord).keep

theorem execDdrSlot_canonical {slot} (h : s.Canonical) : ResCanonical (execDdrSlot slot s) := by
  refine .next ?_
  split
  · exact h
  · dsimp only
    split
    · split
      · exact h.keep.ddrRequest
      · exact h.keep
    · exact .ite h.keep.ddrScrubSlot h.keep

theorem execDdrBurstComplete_canonical (h : s.Canonical) : ResCanonical (execDdrBurstComplete s) :=
  .next h.deliverOldest

theorem State.Canonical.pkeResync {req fuel} (h : s.Canonical) :
    (s.pkeResync req fuel).Canonical := by
  induction fuel generalizing s with
  | zero => exact h
  | succ fuel ih =>
    simp only [State.pkeResync]
    split
    · exact h
    · exact .ite h (ih h.pop.bump)

theorem State.Canonical.popMany {req n} (h : s.Canonical) : (s.popMany req n).2.Canonical := by
  induction n generalizing s with
  | zero => exact h
  | succ n ih =>
    simp only [State.popMany]
    split
    · next hp => exact h.pop.of_snd hp
    · next hp => exact ih (h.pop.of_snd hp)

theorem State.Canonical.popMessage {n fuel} (h : s.Canonical) :
    (s.popMessage n fuel).2.Canonical := by
  induction fuel generalizing s with
  | zero => exact h
  | succ fuel ih =>
    simp only [State.popMessage]
    split
    · next hp => exact h.pop.of_snd hp
    · next hp => exact .ite_snd (h.pop.of_snd hp) (ih (h.pop.of_snd hp))

theorem State.Canonical.useQuota {lay cls n} (h : s.Canonical) : (s.useQuota lay cls n).Canonical :=
  h.keep

theorem State.Canonical.hostSpend {ring reply} (h : s.Canonical) :
    (s.hostSpend ring reply).Canonical := by
  unfold State.hostSpend
  split
  · exact h.useQuota
  · exact h

theorem State.Canonical.hostServe {own ring reply act} (h : s.Canonical)
    (hact : ∀ {u : State}, u.Canonical → (act u).2.Canonical) :
    (s.hostServe own ring reply act).Canonical := by
  unfold State.hostServe
  split
  · exact h
  · split
    · rename_i heq
      exact h.popMessage.of_snd heq
    · rename_i heq
      exact (hact (h.popMessage.of_snd heq).hostSpend).offer

theorem State.Canonical.setBegun {code n l} (h : s.Canonical) : (s.setBegun code n l).Canonical :=
  h.keep

theorem State.Canonical.takeMessage {code n fuel} (h : s.Canonical) :
    (s.takeMessage code n fuel).2.2.Canonical := by
  induction fuel generalizing s with
  | zero => exact h
  | succ fuel ih =>
    simp only [State.takeMessage]
    split
    · exact h
    · exact .ite_snd_snd h.setBegun (.ite_snd_snd h.pop.setBegun (ih h.pop.setBegun))

theorem State.Canonical.pkeTake {lay three} (h : s.Canonical) :
    (s.pkeTake lay three).Canonical := by
  unfold State.pkeTake
  split
  · exact h
  · dsimp only
    split
    · exact .ite h.pkeResync h.pkeResync.popMany.keep.post
    · exact h.pkeResync

theorem State.Canonical.pkeStep (h : s.Canonical) : s.pkeStep.Canonical :=
  .ite h.keep.keep (.ite h.keep.pkeTake h.keep)

theorem execPkeSlot_canonical {slot} (h : s.Canonical) : ResCanonical (execPkeSlot slot s) :=
  .next (.ite h h.pkeStep)

theorem execPkeVerifyRequest_canonical {lay} (h : s.Canonical) :
    ResCanonical (execPkeVerifyRequest lay s) :=
  .next (.ite h h.pkeStep)

theorem execPkeVerifyComplete_canonical (h : s.Canonical) :
    ResCanonical (execPkeVerifyComplete s) :=
  .next (.ite h.deliverOldest.bumpMod h)

theorem State.Canonical.splCfg {q n v} (h : s.Canonical) : (s.splCfg q n v).Canonical :=
  h.guarded (fun h1 => h1.wr.splEmptied)

theorem execSpliceConfigWrite_canonical {q n v} (h : s.Canonical) :
    ResCanonical (execSpliceConfigWrite q n v s) :=
  .next h.splCfg

theorem State.Canonical.splEnds {q n v} (h : s.Canonical) : (s.splEnds q n v).Canonical :=
  h.guarded (fun h1 => h1.wr)

theorem execSpliceEndsWrite_canonical {q n v} (h : s.Canonical) :
    ResCanonical (execSpliceEndsWrite q n v s) :=
  .next h.splEnds

theorem execCrossDomainVisibility_canonical {n freed} (h : s.Canonical) :
    ResCanonical (execCrossDomainVisibility n freed s) :=
  .next (.ite h h.setSpl)

theorem execBlockCommit_canonical {n} (h : s.Canonical) : ResCanonical (execBlockCommit n s) := by
  refine .next ?_
  split
  · exact h
  · exact .ite h h.keep.blockPut

theorem State.Canonical.pointerCheck {n producer} (h : s.Canonical) :
    (s.pointerCheck n producer).Canonical := by
  unfold State.pointerCheck
  refine .ite h ?_
  split
  · exact h.setSpl.cause.bump
  · exact h.ptrReset

theorem execPointerCheck_canonical {n producer} (h : s.Canonical) :
    ResCanonical (execPointerCheck n producer s) :=
  .next (.ite h (.ite h.setSpl h.pointerCheck))

theorem execPoolScrub_canonical {busy} (h : s.Canonical) : ResCanonical (execPoolScrub busy s) :=
  .next (.ite h (State.Canonical.ite h.poolFound.setEcc h.poolFound).keep)

theorem State.Canonical.splFlush {q v} (h : s.Canonical) : (s.splFlush q v).Canonical :=
  h.guarded (fun h1 => .ite h1.splEmptied h1)

theorem execSpliceFlush_canonical {q n} (h : s.Canonical) : ResCanonical (execSpliceFlush q n s) :=
  .next h.splFlush

theorem State.Canonical.poolPeek {q} (h : s.Canonical) : (s.poolPeek q).Canonical :=
  .ite h.read64.poolFound h.read64

theorem execPoolPeek_canonical {q} (h : s.Canonical) : ResCanonical (execPoolPeek q s) :=
  .next (h.readBy (fun h1 => h1.poolPeek))

theorem State.Canonical.reply {status detail ws} (h : s.Canonical) :
    (s.reply status detail ws).Canonical := by
  unfold State.reply
  split
  · exact h
  · exact h.keep.offerAll

theorem State.Canonical.replyRefused (h : s.Canonical) : s.replyRefused.Canonical := h.draw.reply

theorem State.Canonical.replyLater {req status detail ws} (h : s.Canonical) :
    (s.replyLater req status detail ws).Canonical :=
  .ite h.reply h

/-! The functions of `Sys2Proof/Machine/Xu.lean`. -/

theorem State.Canonical.deliver {a1 oct c} (h : s.Canonical) : (s.deliver a1 oct c).Canonical :=
  h.fly

theorem State.Canonical.useEnd {a1 n producer} (h : s.Canonical) :
    (s.useEnd a1 n producer).Canonical :=
  h.setLay

theorem State.Canonical.injectCell {n} (h : s.Canonical) : (s.injectCell n).2.Canonical :=
  .ite h.putBit h

theorem State.Canonical.popOp {x oct n must} (h : s.Canonical) :
    (State.popOp x oct n must s).Canonical := by
  unfold State.popOp
  refine h.when fun h1 => .ite h1.strandCause.deliver (.ite h1.strandCause.deliver ?_)
  dsimp only
  split
  · next hp =>
    have h2 := h1.useEnd.pop.of_snd hp
    exact .deliver (.ite h2.strandCause h2)
  · next hp =>
    have h2 := (h1.useEnd.pop.of_snd hp).injectCell (n := issueNo x)
    exact .deliver (.ite h2.strandCause h2)

theorem State.Canonical.pushOp {a0 oct n} (h : s.Canonical) : (State.pushOp a0 oct n s).Canonical :=
  h.when (fun h1 => .ite h1.strandCause (.ite h1.strandCause h1.useEnd.fly))

theorem execPope_canonical {a0 oct n} (h : s.Canonical) : ResCanonical (execPope a0 oct n s) :=
  .next h.popOp

theorem execPopo_canonical {a0 oct n} (h : s.Canonical) : ResCanonical (execPopo a0 oct n s) :=
  .next h.popOp

theorem execPoper_canonical {a0 oct a} (h : s.Canonical) : ResCanonical (execPoper a0 oct a s) :=
  .next h.popOp

theorem execPopor_canonical {a0 oct a} (h : s.Canonical) : ResCanonical (execPopor a0 oct a s) :=
  .next h.popOp

theorem execPush_canonical {a0 oct n} (h : s.Canonical) : ResCanonical (execPush a0 oct n s) :=
  .next h.pushOp

theorem execPushr_canonical {a0 oct a} (h : s.Canonical) : ResCanonical (execPushr a0 oct a s) :=
  .next h.pushOp

theorem execSemp_canonical {a0 pd n} (h : s.Canonical) : ResCanonical (execSemp a0 pd n s) :=
  .next (h.when (fun h1 => h1.fly))

theorem execSfull_canonical {a0 pd n} (h : s.Canonical) : ResCanonical (execSfull a0 pd n s) :=
  .next (h.when (fun h1 => h1.fly))

theorem State.Canonical.keyLoad {a0 k op a b blob} (h : s.Canonical) :
    (State.keyLoad a0 k op a b blob s).Canonical :=
  h.when (fun h1 => .ite h1.strandCause h1.setStr.setLay)

theorem execKlds_canonical {a0 k a} (h : s.Canonical) : ResCanonical (execKlds a0 k a s) :=
  .next h.keyLoad

theorem execKldd_canonical {a0 k a b} (h : s.Canonical) : ResCanonical (execKldd a0 k a b s) :=
  .next h.keyLoad

theorem execKldw_canonical {a0 k oct} (h : s.Canonical) : ResCanonical (execKldw a0 k oct s) :=
  .next h.keyLoad

theorem execKst_canonical {a0 k d} (h : s.Canonical) : ResCanonical (execKst a0 k d s) :=
  .next (h.when (fun h1 => h1.flyReg))

theorem execKclr_canonical {a0 k} (h : s.Canonical) : ResCanonical (execKclr a0 k s) :=
  .next (h.when (fun h1 => h1.setStr.setLay))

theorem execAesb_canonical {a0 k d a} (h : s.Canonical) : ResCanonical (execAesb a0 k d a s) :=
  .next (h.when (fun h1 => (State.Canonical.ite h1.strandCause (.ite h1.strandCause h1)).fly))

theorem execGmul_canonical {a0 d a b} (h : s.Canonical) : ResCanonical (execGmul a0 d a b s) :=
  .next (h.when (fun h1 => h1.fly))

theorem State.Canonical.crcOp {a0 w poly d a b n} (h : s.Canonical) :
    (State.crcOp a0 w poly d a b n s).Canonical :=
  h.when (fun h1 => h1.flyReg)

theorem execCrc16_canonical {a0 d a b n} (h : s.Canonical) :
    ResCanonical (execCrc16 a0 d a b n s) :=
  .next h.crcOp

theorem execCrc32_canonical {a0 d a b n} (h : s.Canonical) :
    ResCanonical (execCrc32 a0 d a b n s) :=
  .next h.crcOp

theorem execMacu_canonical {a0 a b} (h : s.Canonical) : ResCanonical (execMacu a0 a b s) :=
  .next (h.when (fun h1 => h1.fly))

theorem execMacs_canonical {a0 a b} (h : s.Canonical) : ResCanonical (execMacs a0 a b s) :=
  .next (h.when (fun h1 => h1.fly))

theorem execMacz_canonical {a0} (h : s.Canonical) : ResCanonical (execMacz a0 s) :=
  .next (h.when (fun h1 => h1.fly))

theorem execMacrl_canonical {a0 d} (h : s.Canonical) : ResCanonical (execMacrl a0 d s) :=
  .next (h.when (fun h1 => h1.flyReg))

theorem execMacrh_canonical {a0 d} (h : s.Canonical) : ResCanonical (execMacrh a0 d s) :=
  .next (h.when (fun h1 => h1.flyReg))

/-! The functions of `Sys2Proof/Machine/PairLink.lean`. -/

theorem State.Canonical.pairCount {i} (h : s.Canonical) : (s.pairCount i).Canonical := h.bumpBk

theorem State.Canonical.newSession (h : s.Canonical) : s.newSession.Canonical := h.draw.keep

theorem State.Canonical.pairFrame {type body key lane} (h : s.Canonical) :
    (s.pairFrame type body key lane).Canonical :=
  h.keep.send

theorem State.Canonical.pairSend {type body every} (h : s.Canonical) :
    (s.pairSend type body every).Canonical := by
  unfold State.pairSend
  split
  · exact h
  · refine .ite h ?_
    extract_lets s1 l
    have h1 : s1.Canonical := .ite h.newSession h
    exact .ite (h1.foldl fun _ h => h.pairFrame) h1.pairFrame

theorem State.Canonical.verified {lbn page status} (h : s.Canonical) :
    (s.verified lbn page status).Canonical :=
  h.pairSend

theorem State.Canonical.sendPage {type p data} (h : s.Canonical) :
    (s.sendPage type p data).Canonical :=
  h.pairSend

theorem State.Canonical.pairStore {a v fail} (h : s.Canonical) :
    (s.pairStore a v fail).Canonical := by
  unfold State.pairStore
  have hd : (s.drawN 2).2.Canonical := h.drawN
  generalize s.drawN 2 = d at hd ⊢
  exact .ite hd.framPut h.framPut

theorem State.Canonical.setSolo {v} (h : s.Canonical) : (s.setSolo v).Canonical :=
  .ite (State.Canonical.ite h h.pairStore) (State.Canonical.ite h h.pairStore).putBit.irq

theorem State.Canonical.limitSend {i r} (h : s.Canonical) : (s.limitSend i r).Canonical :=
  h.keep.pairSend

/-! The functions of `Sys2Proof/Machine/Nand.lean`. -/

theorem State.Canonical.nandCount {i} (h : s.Canonical) : (s.nandCount i).Canonical := h.bumpBk

theorem State.Canonical.queueReloc {k} (h : s.Canonical) : (s.queueReloc k).Canonical :=
  .ite h (State.Canonical.ite h.setBlk h).setNand

theorem State.Canonical.foregroundCheck (h : s.Canonical) : s.foregroundCheck.Canonical :=
  .ite h.putBit.irq (.ite h.putBit.irq.keep h)

theorem State.Canonical.fullCheck (h : s.Canonical) : s.fullCheck.Canonical :=
  .ite (.ite h.cause h.cause.putBit.irq) (.ite h.putBit.irq h)

theorem State.Canonical.freeChanged (h : s.Canonical) : s.freeChanged.Canonical :=
  h.foregroundCheck.fullCheck

theorem State.Canonical.growBad {k} (h : s.Canonical) : (s.growBad k).Canonical :=
  .ite h.setBlk.nandCount.irq h.setBlk.nandCount.irq.setNand

theorem State.Canonical.releaseBlk {k} (h : s.Canonical) : (s.releaseBlk k).Canonical :=
  h.setBlk.setNand

theorem State.Canonical.wearLevel {t} (h : s.Canonical) : (s.wearLevel t).Canonical := by
  unfold State.wearLevel
  dsimp only
  split
  · exact h
  · exact .ite h.queueReloc h

theorem State.Canonical.mapRead {t} (h : s.Canonical) : (s.mapRead t).2.Canonical := by
  unfold State.mapRead
  split
  next hc =>
  have h1 := h.inject.of_snd hc
  extract_lets s2 n2 s3 n3 s4
  have h3 : s3.Canonical := .ite h1.cause.nandCount h1.cause.nandCount.setNand
  have h4 : s4.Canonical := .ite h3.setNand h3
  exact .ite_snd h1.cause (.ite_snd h4.putBit h1)

theorem State.Canonical.nandInit (h : s.Canonical) : s.nandInit.Canonical := by
  unfold State.nandInit
  extract_lets mask0 geo ok mask targets g s1 s2 s3 s4
  have h1 : s1.Canonical := by
    obtain ⟨hr, hb, hm, he⟩ := State.canonical_iff.mp h
    exact State.canonical_iff.mpr ⟨hr, canon_dropRange _ _ (canon_dropRange _ _ hb), hm, he⟩
  have h3 : s3.Canonical := .ite h1.wr.cause h1.wr
  exact h3.setNand.wr.setTimer

theorem State.Canonical.nandEnable {q v} (h : s.Canonical) : (s.nandEnable q v).Canonical :=
  h.guarded (fun h1 => .ite h1.putBit.nandInit h1.putBit)

theorem execNandInit_canonical {q} (h : s.Canonical) : ResCanonical (execNandInit q s) :=
  .next h.nandEnable

theorem State.Canonical.nandScan {ts unreadable} (h : s.Canonical) :
    (s.nandScan ts unreadable).Canonical :=
  ((((h.foldl fun _ h1 => h1.setBlk).foldl fun _ h1 => h1.setBlk).foldl fun _ h1 => .ite
    h1.releaseBlk h1).foldl fun _ h1 => .ite h1.setBlk h1).setNand

theorem State.Canonical.scanAll {unreadable} (h : s.Canonical) : (s.scanAll unreadable).Canonical :=
  h.putBit.putBit.nandScan

theorem execNandScan_canonical {target unreadable} (h : s.Canonical) :
    ResCanonical (execNandScan target unreadable s) := by
  refine .next ?_
  split
  · exact h
  · split
    · exact h.nandScan
    · exact h.scanAll

theorem State.Canonical.scanDone {ms} (h : s.Canonical) : (s.scanDone ms).Canonical :=
  h.setNand.putBit.putBit.wr.irq.freeChanged

theorem execNandScanDone_canonical {target ms} (h : s.Canonical) :
    ResCanonical (execNandScanDone target ms s) := by
  refine .next ?_
  split
  · exact h
  · split
    · exact .ite h h.setNand.putBit.freeChanged
    · exact h.scanDone

theorem State.Canonical.nandDone {r status lbn page seq target corr} (h : s.Canonical) :
    (s.nandDone r status lbn page seq target corr).Canonical := by
  unfold State.nandDone
  split
  · exact h
  · exact h.offer

theorem State.Canonical.badReq {r t} (h : s.Canonical) : (s.badReq r t).Canonical :=
  .ite h.nandDone h.nandDone

theorem State.Canonical.kindOne {r status lbn page seq target} (h : s.Canonical) :
    (s.kindOne r status lbn page seq target).Canonical :=
  h.nandDone.setNand

theorem State.Canonical.partnerFail {r lbn page} (h : s.Canonical) :
    (s.partnerFail r lbn page).Canonical :=
  (State.Canonical.ite h.setSolo h).pairCount.kindOne

theorem State.Canonical.pairPage {k r} (h : s.Canonical) : (s.pairPage k r).Canonical := by
  unfold State.pairPage
  extract_lets b lbn page p s1
  have h1 : s1.Canonical := h.sendPage.pairCount
  clear_value s1
  exact .ite h (.ite (.ite h1 h1.keep) (.ite h h.partnerFail))

theorem State.Canonical.fetchImage {r} (h : s.Canonical) : (s.fetchImage r).2.Canonical := h.ddrGet

theorem State.Canonical.fetchCheckpoint {r} (h : s.Canonical) : (s.fetchCheckpoint r).2.Canonical :=
  h.ddrGet

theorem execNandRequestPop_canonical {n} (h : s.Canonical) :
    ResCanonical (execNandRequestPop n s) := by
  refine .next ?_
  split
  · exact h
  · refine .ite h ?_
    split
    · next hp => exact h.pop.of_snd hp
    · next hp =>
      have h1 := h.pop.of_snd hp
      refine .ite h1.badReq.nandCount ?_
      split
      next hf => exact ((State.Canonical.ite_snd h1 h1.fetchImage).of_snd hf).setNand

theorem execCheckpointFetch_canonical {n} (h : s.Canonical) :
    ResCanonical (execCheckpointFetch n s) := by
  refine .next ?_
  split
  · exact h
  · exact .ite h h.fetchCheckpoint.setNand

theorem execNandFramePeriod_canonical (h : s.Canonical) : ResCanonical (execNandFramePeriod s) :=
  .next (.ite h.keep h.keep.setNand)

theorem State.Canonical.openLog {t stream} (h : s.Canonical) {x} (hx : s.openLog t stream = some x)
    : x.2.Canonical := by
  unfold State.openLog at hx
  split at hx
  · cases hx
    exact h
  · split at hx
    · cases hx
      exact h.setBlk.freeChanged
    · cases hx

theorem State.Canonical.startRun {r} (h : s.Canonical) : (s.startRun r).Canonical := h.setNand

theorem State.Canonical.startErase {t} (h : s.Canonical) {u} (hu : s.startErase t = some u) :
    u.Canonical := by
  obtain ⟨k, -, rfl⟩ := Option.map_eq_some_iff.mp hu
  exact h.startRun

theorem State.Canonical.startCopy {t} (h : s.Canonical) {u} (hu : s.startCopy t = some u) :
    u.Canonical := by
  unfold State.startCopy at hu
  split at hu
  · cases hu
  · split at hu
    · cases hu
      exact h.startRun
    · obtain ⟨k, -, rfl⟩ := Option.map_eq_some_iff.mp hu
      exact h.setBlk.setBlk.setNand.freeChanged.startRun

theorem State.Canonical.startSalvage {t} (h : s.Canonical) {u} (hu : s.startSalvage t = some u) :
    u.Canonical := by
  unfold State.startSalvage at hu
  split at hu
  · cases hu
  · split at hu
    · cases hu
    · obtain ⟨x, hx, rfl⟩ := Option.map_eq_some_iff.mp hu
      exact (h.openLog hx).setNand.startRun

theorem State.Canonical.standbyRun {t cls} (h : s.Canonical) : (s.standbyRun t cls).Canonical :=
  .ite h (.ite (.getD (fun _ hx => h.startErase hx) h) (.ite (.getD (fun _ hx => h.startCopy hx) h)
    h.startRun))

theorem State.Canonical.takeProgram {t r} (h : s.Canonical) {u} (hu : s.takeProgram t r = some u) :
    u.Canonical := by
  unfold State.takeProgram at hu
  split at hu
  · cases hu
  · next ho =>
    cases hu
    have h1 := h.openLog ho
    exact .pairPage (.startRun (.foldl (.ite_snd h1.setNand.fetchCheckpoint h1.setNand) fun _ h2 =>
      .ite h2.nandCount h2))

theorem State.Canonical.portSlot {e} (h : s.Canonical) : (s.portSlot e).Canonical := by
  unfold State.portSlot
  dsimp only
  split
  · exact h.nandCount
  · split
    · exact h.nandCount
    · exact .ite h.setNand.badReq.nandCount (.ite h.setNand.startRun
        (.getD (fun _ hx => h.takeProgram hx) h.nandCount))

theorem State.Canonical.nandPast {i} (h : s.Canonical) : (s.nandPast i).Canonical := h.keep

theorem State.Canonical.slotIdle {e} (h : s.Canonical) : (s.slotIdle e).Canonical :=
  .ite h.nandCount h

theorem execNandSlot_canonical {entry t} (h : s.Canonical) :
    ResCanonical (execNandSlot entry t s) := by
  refine .next (.ite h.at ?_)
  split
  · exact h.at
  · refine .ite h.at.nandPast.slotIdle ?_
    extract_lets tg
    split
    next hm =>
    have h1 := h.at.nandPast.mapRead.of_snd hm
    have copy := State.Canonical.getD (fun _ hx => h1.startCopy (t := tg) hx) h1
    refine .ite h1.slotIdle (.ite ?_ (.ite h1.portSlot (.ite (.ite ?_ ?_) (.ite ?_ h1.startRun))))
    · exact .nandCount (.getD (fun _ hx => h1.startErase hx) copy)
    · split
      · next ho => exact (h1.openLog ho).startRun
      · exact copy
    · exact .getD (fun _ hx => h1.startSalvage hx) copy
    · exact .getD (fun _ hx => h1.startErase hx) h1

theorem State.Canonical.endRun {r} (h : s.Canonical) : (s.endRun r).Canonical := h.setNand

theorem State.Canonical.storePage {k p data} (h : s.Canonical) : (s.storePage k p data).Canonical :=
  .ite h.setBytes.setBytes.setBlk.setNand.nandCount.wearLevel
    h.setBytes.setBytes.setBlk.setNand.nandCount

theorem State.Canonical.writePage {k user copyOf data} (h : s.Canonical) :
    (s.writePage k user copyOf data).Canonical :=
  h.storePage

theorem State.Canonical.programFailed {a1 r verify} (h : s.Canonical) :
    (s.programFailed a1 r verify).Canonical :=
  h.nandCount.cause.keep.setBlk.queueReloc.setNand

theorem State.Canonical.pageUe {scrub k page} (h : s.Canonical) :
    (s.pageUe scrub k page).Canonical :=
  h.wr.cause

theorem State.Canonical.readDone {t r ue corr} (h : s.Canonical) :
    (s.readDone t r ue corr).Canonical := by
  unfold State.readDone
  split
  · exact h.nandDone
  · split
    · exact h.nandDone
    · extract_lets s1 s2 s3 s4
      have h2 : s2.Canonical := h.nandCount.ddrPut
      have h3 : s3.Canonical := .ite h2.nandCount.pageUe (.ite h2 h2.nandCount)
      have h4 : s4.Canonical := .ite h3.queueReloc h3
      exact h4.nandDone

theorem execNandReadComplete_canonical {target ue corr} (h : s.Canonical) :
    ResCanonical (execNandReadComplete target ue corr s) := by
  refine .next ?_
  split
  · exact h
  · split
    · exact h
    · split
      · exact h
      · exact h.endRun.readDone

theorem State.Canonical.dropCopy {k} (h : s.Canonical) : (s.dropCopy k).Canonical := by
  unfold State.dropCopy
  split
  · exact h
  · dsimp only
    split
    · exact h.setNand
    · exact .ite h.setNand.setBlk.freeChanged h.setNand.releaseBlk

theorem State.Canonical.releaseLive {k} (h : s.Canonical) : (s.releaseLive k).Canonical :=
  .ite h.dropCopy.growBad h.dropCopy.releaseBlk

theorem execNandRelease_canonical {target} (h : s.Canonical) :
    ResCanonical (execNandRelease target s) := by
  refine .next ?_
  split
  · exact h
  · split
    · exact h
    · dsimp only
      split
      · exact h.endRun.nandDone
      · exact .ite h.endRun.nandDone (State.Canonical.ite h.endRun.pairSend
          h.endRun).releaseLive.nandDone

theorem State.Canonical.eraseBlock {k} (h : s.Canonical) : (s.eraseBlock k).Canonical :=
  h.clearMem.clearMem

theorem execNandEraseComplete_canonical {target ok} (h : s.Canonical) :
    ResCanonical (execNandEraseComplete target ok s) := by
  refine .next ?_
  split
  · exact h.standbyRun
  · exact .ite h.standbyRun.endRun.nandCount.cause.growBad
      h.standbyRun.endRun.eraseBlock.setBlk.nandCount.freeChanged.wearLevel

theorem execRelocationCopy_canonical {target} (h : s.Canonical) :
    ResCanonical (execRelocationCopy target s) := by
  refine .next ?_
  split
  · exact h.standbyRun
  · extract_lets s0
    have h0 : s0.Canonical := h.standbyRun.endRun
    clear_value s0
    split
    · exact h0
    · split
      · exact h0
      · extract_lets b s1 n1 s2 b1 s3
        have h1 : s1.Canonical := by
          unfold s1
          split
          · exact h0.writePage
          · exact h0
        have h2 : s2.Canonical := h1.setNand.nandCount
        have h3 : s3.Canonical := .ite h2.setBlk.freeChanged h2.setBlk
        exact .ite h1.setNand (.wearLevel (.ite h3.growBad h3.releaseBlk))

theorem execJournalProgram_canonical {target} (h : s.Canonical) :
    ResCanonical (execJournalProgram target s) := by
  refine .next ?_
  split
  · exact h
  · exact h.endRun.writePage.setNand.foldl fun _ h1 => h1.releaseBlk

theorem execNandScrubRead_canonical {target ue corr} (h : s.Canonical) :
    ResCanonical (execNandScrubRead target ue corr s) := by
  refine .next ?_
  split
  · exact h.standbyRun
  · extract_lets s1 l pos
    have h1 : s1.Canonical := h.standbyRun.endRun
    split
    · exact h1
    · extract_lets s2 s3 s4
      have h4 : s4.Canonical := .ite h1.setNand.nandCount.pageUe h1.setNand.nandCount
      exact .ite h4.queueReloc h4

theorem execNandFull_canonical (h : s.Canonical) : ResCanonical (execNandFull s) :=
  .next (.ite h.fullCheck h)

theorem State.Canonical.tempMinuteOf {t} (h : s.Canonical) : (s.tempMinuteOf t).Canonical :=
  h.bumpBk

theorem execNandTempSample_canonical {t} (h : s.Canonical) :
    ResCanonical (execNandTempSample t s) :=
  .next (.ite h.at (h.at.foldl fun _ h1 => h1.tempMinuteOf).setTimer)

/-! The functions of `Sys2Proof/Machine/Ingest.lean`. -/

theorem State.Canonical.countLate (h : s.Canonical) : s.countLate.Canonical := h.bump.cause.irq

theorem State.Canonical.ringAdd {seq port} (h : s.Canonical) : (s.ringAdd seq port).Canonical := by
  unfold State.ringAdd
  dsimp only
  refine State.Canonical.keep ?_
  refine State.Canonical.keep ?_
  split
  · exact .ite h h.countLate
  · exact h

theorem execLateScan_canonical {t} (h : s.Canonical) : ResCanonical (execLateScan t s) := by
  refine .next ?_
  refine State.Canonical.foldl h.at fun _ h1 => ?_
  split
  · exact .ite h1.countLate.keep h1
  · exact h1

theorem State.Canonical.drainCheck (h : s.Canonical) : s.drainCheck.Canonical :=
  .ite h.putBit.irq h.putBit

theorem State.Canonical.settle (h : s.Canonical) : s.settle.Canonical := h.putF.drainCheck

theorem State.Canonical.ackReport_other {seq} (h : s.Canonical) :
    (State.ackReport.other seq s).Canonical :=
  .ite h.settle h.cause

theorem State.Canonical.ackReport {seq} (h : s.Canonical) : (s.ackReport seq).Canonical := by
  unfold State.ackReport
  refine .ite h.keep.settle ?_
  split
  · exact .ite (.settle (.ite h.keep.wr.countLate h.keep.wr)) h.ackReport_other
  · exact h.ackReport_other

theorem execAckReport_canonical {seq t} (h : s.Canonical) : ResCanonical (execAckReport seq t s) :=
  .next h.at.ackReport

theorem State.Canonical.spend {lay cls} (h : s.Canonical) : (s.spend lay cls).Canonical := h.keep

theorem State.Canonical.ingHeal {o key} (h : s.Canonical) : (s.ingHeal o key).Canonical :=
  .ite h.keep.setBk.cause h

theorem State.Canonical.ingBump {o key most} (h : s.Canonical) : (s.ingBump o key most).Canonical :=
  h.ingHeal.bumpBk

theorem State.Canonical.countUnit {src cls why} (h : s.Canonical) :
    (s.countUnit src cls why).Canonical := by
  unfold State.countUnit
  dsimp only
  split
  · exact h.ingBump.ingBump
  · exact h.ingBump.ingBump.ingBump

theorem State.Canonical.noteUnlocked {seq} (h : s.Canonical) : (s.noteUnlocked seq).Canonical :=
  .ite h h.keep

theorem State.Canonical.decideOne {src port hold i taken} (h : s.Canonical) :
    (s.decideOne src port hold i taken).2.Canonical := by
  unfold State.decideOne
  refine .ite_snd h.bump ?_
  split
  · exact .countUnit (.ite h.cause.irq h)
  · extract_lets seq x s1 s2 s3 g s4 s5 s6 s7 s8
    have h3 : s3.Canonical := .ite h.setSource.spend.spend h.setSource.spend
    have h5 : s5.Canonical := h3.withIng.bumpMod
    have h7 : s7.Canonical := .ite h5.putF.cause h5.putF
    have h8 : s8.Canonical := .ite h7.putBit.ringAdd.noteUnlocked h5
    exact h8.countUnit

theorem State.Canonical.decideAll {src port hold l promised} (h : s.Canonical) :
    (s.decideAll src port hold l promised).2.Canonical := by
  induction l generalizing s promised with
  | nil => exact h
  | cons i l ih => exact ih h.decideOne

theorem State.Canonical.uniform {lo hi} (h : s.Canonical) : (s.uniform lo hi).2.Canonical := h.draw

theorem State.Canonical.retryAfter {src w} (h : s.Canonical) :
    (s.retryAfter src w).2.Canonical := by
  unfold State.retryAfter
  extract_lets x lo most
  split
  next hd =>
  have hd := h.uniform.of_snd hd
  split
  · exact h.uniform
  · exact .ite_snd h hd
  · exact hd

theorem State.Canonical.refusalReply {f src l batch} (h : s.Canonical) :
    (s.refusalReply f src l batch).2.Canonical := by
  unfold State.refusalReply
  split
  · exact .ite_snd h.retryAfter.sendTo (.ite_snd h.retryAfter.sendTo h.retryAfter)
  · exact h

theorem State.Canonical.discard (h : s.Canonical) : s.discard.2.Canonical := h.bump

theorem State.Canonical.readSource {src} (h : s.Canonical) : (s.readSource src).Canonical :=
  .ite h.inject.cause (.ite h.inject.setSource.cause h.inject)

theorem State.Canonical.takeUnit {f} (h : s.Canonical) : (s.takeUnit f).2.Canonical := by
  unfold State.takeUnit
  refine .ite_snd h ?_
  split
  · exact h.discard
  · extract_lets src s1 x
    have h1 : s1.Canonical := h.readSource
    clear_value s1
    refine .ite_snd h1.discard ?_
    split
    next l s2 hl =>
    have h2 : s2.Canonical := h1.decideAll.of_snd hl
    extract_lets adm nadm s3 ing s4
    have h3 : s3.Canonical := by
      refine h2.foldl fun e h => ?_
      split
      · exact h.offerAll
      · exact h
    have h4 : s4.Canonical := by
      unfold s4
      split
      · exact .ite h3 h3.keep
      · exact h3
    exact .ite_snd h4.refusalReply (.ite_snd h4 h4)

theorem execFrameAdmission_canonical {f t} (h : s.Canonical) :
    ResCanonical (execFrameAdmission f t s) :=
  .next h.at.takeUnit

theorem execCreditRefill_canonical (h : s.Canonical) : ResCanonical (execCreditRefill s) :=
  .next (.ite h (h.foldl fun _ h1 => h1.readSource.setSource))

theorem State.Canonical.reseed (h : s.Canonical) : s.reseed.Canonical := .ite h.draw h

theorem State.Canonical.ingEnable {q v} (h : s.Canonical) : (s.ingEnable q v).Canonical :=
  h.guarded (fun h1 => .ite h1.putBit.keep.setTimer.reseed h1.putBit)

theorem execIngestEnable_canonical {q t} (h : s.Canonical) :
    ResCanonical (execIngestEnable q t s) :=
  .next h.at.ingEnable

theorem execIngestReseed_canonical (h : s.Canonical) : ResCanonical (execIngestReseed s) :=
  .next (.ite h.reseed h)

theorem State.Canonical.openStep {i} (h : s.Canonical) : (s.openStep i).Canonical := by
  unfold State.openStep
  split
  · exact h.putBit.irq
  · exact .ite h.putBit.keep.putBit h.putBit.putBit.irq

theorem State.Canonical.openSequence (h : s.Canonical) : s.openSequence.Canonical :=
  h.putBit.putF.putBit.keep.drainCheck.openStep

theorem State.Canonical.openAll (h : s.Canonical) : s.openAll.Canonical :=
  h.putBit.putF.putBit.drainCheck

theorem State.Canonical.closeAll (h : s.Canonical) : s.closeAll.Canonical :=
  h.putBit.putF.putBit.drainCheck

theorem State.Canonical.ingCtrl {q v} (h : s.Canonical) : (s.ingCtrl q v).Canonical :=
  h.guarded (fun h1 => .ite h1.openAll
    (.ite h1.openSequence (.ite h1.closeAll h1.putBit.drainCheck)))

theorem execOpenSeq_canonical {q} (h : s.Canonical) : ResCanonical (execOpenSeq q s) :=
  .next h.ingCtrl

theorem execCloseAll_canonical {q} (h : s.Canonical) : ResCanonical (execCloseAll q s) :=
  .next h.ingCtrl

theorem execOpenAll_canonical {q} (h : s.Canonical) : ResCanonical (execOpenAll q s) :=
  .next h.ingCtrl

theorem execClassOpenStep_canonical (h : s.Canonical) : ResCanonical (execClassOpenStep s) :=
  .next (.ite h.openStep h)

theorem State.Canonical.commitSource {i} (h : s.Canonical) : (s.commitSource i).Canonical :=
  h.setSource

theorem State.Canonical.loadSource {i} (h : s.Canonical) : (s.loadSource i).Canonical :=
  h.wr.wr.wr.foldl fun _ h1 => h1.wr

theorem State.Canonical.srcSel {q v} (h : s.Canonical) : (s.srcSel q v).Canonical :=
  h.guarded (fun h1 => .ite h1.putF.putF.readSource.commitSource
    (.ite h1.putF.putF.readSource.loadSource h1.putF.putF))

theorem State.Canonical.applySource {i a2} (h : s.Canonical) : (s.applySource i a2).Canonical :=
  h.setSource

theorem State.Canonical.ingRead {a} (h : s.Canonical) : (s.ingRead a).Canonical :=
  .ite h (.ite h.readSource (.ite (h.foldl fun _ h1 => h1.ingHeal)
    (h.foldl fun _ h1 => h1.ingHeal)))

theorem execSourceCommit_canonical {q source} (h : s.Canonical) :
    ResCanonical (execSourceCommit q source s) :=
  .next h.srcSel

theorem execSourceLoad_canonical {q source} (h : s.Canonical) :
    ResCanonical (execSourceLoad q source s) :=
  .next h.srcSel

/-! The functions of `Sys2Proof/Machine/Balance.lean`. -/

theorem State.Canonical.balStart (h : s.Canonical) : s.balStart.Canonical := h.keep

theorem State.Canonical.putBal {b} (h : s.Canonical) : (s.putBal b).Canonical :=
  (h.keep.foldl fun _ h1 => h1.ddrPut).foldl fun _ h1 => h1.ddrPut

theorem State.Canonical.nodeRead {n} (h : s.Canonical) : (s.nodeRead n).Canonical := by
  unfold State.nodeRead
  refine .ite h ?_
  extract_lets a mark
  have mark_canonical {u : State} {decl} (h : u.Canonical) : (mark u decl).Canonical := h.putBal
  split
  next hc =>
  have h1 := h.ddrCheck.of_snd hc
  split
  next hc =>
  have h2 := (State.Canonical.ite_snd h1.ddrCheck h1).of_snd hc
  split
  next hd =>
  have h3 := h2.ddrCheck.of_snd hd
  extract_lets s4
  have h4 : s4.Canonical := .ite (mark_canonical h3) h3
  exact .ite (mark_canonical h4) h4

theorem State.Canonical.contribute {c} (h : s.Canonical) : (s.contribute c).Canonical :=
  .ite h.balStart.nodeRead h.balStart.nodeRead.putBal

theorem execContributionCell_canonical {n} (h : s.Canonical) :
    ResCanonical (execContributionCell n s) := by
  refine .next ?_
  split
  · rename_i heq
    exact h.pop.of_snd heq
  · rename_i heq
    exact (h.pop.of_snd heq).contribute

theorem State.Canonical.balRun {out c} (h : s.Canonical) : (s.balRun out c).2.Canonical :=
  .ite_snd h.balStart.nodeRead (.ite_snd h.balStart.nodeRead h.balStart.nodeRead.keep)

theorem State.Canonical.balOrders (h : s.Canonical) : s.balOrders.Canonical := h.putBal

theorem State.Canonical.balCommand {op ring reply} (h : s.Canonical) :
    (s.balCommand op ring reply).Canonical := by
  unfold State.balCommand
  split
  · exact h
  · exact .ite h.pop.hostSpend.balRun.offerAll h

theorem execNodeDecl_canonical {ring reply} (h : s.Canonical) :
    ResCanonical (execNodeDecl ring reply s) :=
  .next h.balCommand

theorem execNodeRemove_canonical {ring reply} (h : s.Canonical) :
    ResCanonical (execNodeRemove ring reply s) :=
  .next h.balCommand

theorem execNodeReset_canonical {ring reply} (h : s.Canonical) :
    ResCanonical (execNodeReset ring reply s) :=
  .next h.balCommand

theorem execNodeRead_canonical {ring reply} (h : s.Canonical) :
    ResCanonical (execNodeRead ring reply s) :=
  .next h.balCommand

theorem State.Canonical.takePoints_takeAll {n fuel} (h : s.Canonical) :
    (State.takePoints.takeAll n s fuel).Canonical := by
  induction fuel generalizing s with
  | zero => exact h
  | succ fuel ih =>
    unfold State.takePoints.takeAll
    split
    · next hp => exact h.pop.of_snd hp
    · next hp => exact ih (h.pop.of_snd hp).keep

theorem State.Canonical.takePoints (h : s.Canonical) : s.takePoints.Canonical :=
  h.foldl fun _ h1 => h1.takePoints_takeAll

theorem State.Canonical.balDeliver (h : s.Canonical) : s.balDeliver.Canonical :=
  .ite h.putBit.keep h

theorem State.Canonical.balClose {fin forced lost us} (h : s.Canonical) :
    (s.balClose fin forced lost us).Canonical := by
  unfold State.balClose
  extract_lets s1 s2
  have h2 : s2.Canonical := h.balDeliver.takePoints.balOrders.foldl fun _ h => h.nodeRead
  exact .ite h2.putBal h2.putBal

theorem State.Canonical.balIgnore (h : s.Canonical) : s.balIgnore.Canonical := h.keep

theorem execCloseOrder_canonical {k lost us} (h : s.Canonical) :
    ResCanonical (execCloseOrder k lost us s) := by
  unfold execCloseOrder
  extract_lets s1 s2
  have h2 : s2.Canonical := .ite h.balStart.setTimer h.balStart
  exact .next (.ite h (.ite h2.balIgnore h2.balClose))

theorem execForcedClose_canonical {n us} (h : s.Canonical) :
    ResCanonical (execForcedClose n us s) := by
  refine .next ?_
  split
  · rename_i heq
    exact h.pop.of_snd heq
  · rename_i heq
    exact .ite (h.pop.of_snd heq).balStart.balIgnore ((h.pop.of_snd heq).balStart.foldl fun _ h1 =>
      h1.balClose)

theorem execClosureNotice_canonical {lay} (h : s.Canonical) :
    ResCanonical (execClosureNotice lay s) := by
  refine .next ?_
  split
  · exact h
  · exact h.keep

theorem execReportPush_canonical {n} (h : s.Canonical) : ResCanonical (execReportPush n s) := by
  unfold execReportPush
  extract_lets b
  split
  next out staged _ => exact .next h.keep.offerAll

theorem execBalanceStatus_canonical (h : s.Canonical) : ResCanonical (execBalanceStatus s) := by
  refine .next ?_
  split
  · exact h
  · extract_lets b s1 put s2 s3 s4 s5 s6 s7 s8
    have h1 : s1.Canonical := h.withBal
    have h2 : s2.Canonical := h1.wr.wr.wr.wr.wr
    have h4 : s4.Canonical := h2.bump.bump.bump.bump.putBit.setTimer
    have h5 : s5.Canonical := .ite h4.cause.irq h4
    have h6 : s6.Canonical := .ite h5.cause h5
    have h7 : s7.Canonical := .ite h6.cause h6
    have h8 : s8.Canonical := .ite h7.irq h7
    exact .ite h1 h8.irq

theorem execBalNoStatus_canonical {t} (h : s.Canonical) : ResCanonical (execBalNoStatus t s) :=
  .next (.ite h.at h.at.setTimer.cause)

theorem State.Canonical.balReg {q o v} (h : s.Canonical) : (s.balReg q o v).Canonical :=
  h.guarded (fun h1 => .ite h1.plain.putBit h1.plain)

theorem execBalCommit_canonical {q reportAll hold} (h : s.Canonical) :
    ResCanonical (execBalCommit q reportAll hold s) :=
  .next h.balReg

/-! The functions of `Sys2Proof/Machine/Rigging.lean`. -/

theorem State.Canonical.fill {b sp size scale o} (h : s.Canonical) :
    (s.fill b sp size scale o).Canonical :=
  h.clearMem.foldl fun _ h1 => h1.setBytes

theorem State.Canonical.setPll {n} (h : s.Canonical) : (s.setPll n).Canonical := .ite h h.draw.putF

theorem State.Canonical.loadLay {b n} (h : s.Canonical) : (s.loadLay b n).Canonical :=
  (h.foldl fun _ h1 => h1.fill.fill).fill.clearStrands.setLay.wr.wr.wr.wr.setPll.setLaySt

theorem State.Canonical.unloadLay {n} (h : s.Canonical) : (s.unloadLay n).Canonical :=
  h.clearStrands.setLay.setLaySt

theorem State.Canonical.loadSplices {b} (h : s.Canonical) : (s.loadSplices b).Canonical := by
  unfold State.loadSplices
  extract_lets s1
  have h1 : s1.Canonical := by
    obtain ⟨hr, hb, hm, he⟩ := State.canonical_iff.mp h
    exact State.canonical_iff.mpr ⟨canon_filter _ hr, hb, hm, he⟩
  exact .foldl (.foldl h1 fun _ h => h.wr.wr) fun _ h => h.wr

theorem State.Canonical.dirChanged {old} (h : s.Canonical) : (s.dirChanged old).Canonical :=
  h.foldl fun _ h1 => .ite h1.setBk h1

theorem State.Canonical.loadRigging (h : s.Canonical) : s.loadRigging.Canonical := by
  unfold State.loadRigging
  extract_lets b old s1 s2
  have h2 : s2.Canonical := (h.foldl fun _ h1 => .ite h1 (.ite h1.loadLay h1.unloadLay)).loadSplices
  clear_value s2
  refine .dirChanged ?_
  exact h2.keep

theorem State.Canonical.armAndGo (h : s.Canonical) : s.armAndGo.Canonical :=
  .ite h (h.foldl fun _ h1 => .ite h1.armLay h1).strobe

theorem State.Canonical.stopAll (h : s.Canonical) : s.stopAll.Canonical :=
  (h.foldl fun _ h1 => h1.putBit).keep

theorem State.Canonical.reopen (h : s.Canonical) : s.reopen.Canonical := .ite h.openSequence.keep h

theorem State.Canonical.rigOrder {b supplied close} (h : s.Canonical) (hclose : ∀ {u : State},
    u.Canonical → (close u).Canonical) : (s.rigOrder b supplied close).Canonical := by
  unfold State.rigOrder
  split
  · exact (State.Canonical.withRig h).lanyEvent
  · exact .ite (.withRig (hclose h.withRig)) (State.Canonical.withRig h).loadRigging.armAndGo

theorem State.Canonical.imageAt {fromDdr addr len} (h : s.Canonical) :
    (s.imageAt fromDdr addr len).2.Canonical :=
  .ite_snd h.ddrGet h

theorem State.Canonical.rigLoad {fromDdr addr len} (h : s.Canonical) :
    (s.rigLoad fromDdr addr len).Canonical :=
  h.imageAt.rigOrder (fun h1 => h1.closeAll)

theorem execRiggingLoad_canonical {fromDdr addr len} (h : s.Canonical) :
    ResCanonical (execRiggingLoad fromDdr addr len s) :=
  .next (.ite h h.rigLoad)

theorem State.Canonical.replaceGo (h : s.Canonical) : s.replaceGo.Canonical :=
  h.loadRigging.armAndGo.reopen.replyLater

theorem execRiggingReplaceDrained_canonical (h : s.Canonical) :
    ResCanonical (execRiggingReplaceDrained s) :=
  .next (.ite (.ite h.stopAll.replaceGo h.stopAll) h)

theorem execRiggingReplaceTimeout_canonical (h : s.Canonical) :
    ResCanonical (execRiggingReplaceTimeout s) :=
  .next (.ite h.keep.reopen.replyLater h)

theorem execTurnBoundary_canonical {lay} (h : s.Canonical) :
    ResCanonical (execTurnBoundary lay s) :=
  .next (.ite h.turnBoundary.replaceGo h.turnBoundary)

/-! The functions of `Sys2Proof/Machine/Power.lean`. -/

theorem State.Canonical.resetPages {d} (h : s.Canonical) : (s.resetPages d).Canonical :=
  h.foldl fun _ h1 => h1.foldl fun _ h2 => .ite h2.pageOff h2

theorem State.Canonical.clearBanks {sp bank n keep} (h : s.Canonical) :
    (s.clearBanks sp bank n keep).Canonical :=
  h.foldl fun _ h1 => .ite h1 h1.clearMem

theorem State.Canonical.loseSys {keep} (h : s.Canonical) : (s.loseSys keep).Canonical := by
  obtain ⟨hr, hb, hm, he⟩ := State.canonical_iff.mp (h.dieServe.clearBanks (sp := .pool)
    (bank := 0x80000) (n := 16) (keep := keep))
  exact State.canonical_iff.mpr ⟨canon_filter _ hr, hb, hm, he⟩

theorem State.Canonical.loseLay {n keep} (h : s.Canonical) : (s.loseLay n keep).Canonical := by
  unfold State.loseLay
  extract_lets s1 s2 keyq s3 l s4
  have h2 : s2.Canonical := h.clearBanks.foldl fun _ h1 => h1.clearMem.clearMem
  clear_value s2
  have h3 : s3.Canonical := h2.keep
  have h4 : s4.Canonical := h3.setLay
  clear_value s4
  exact h4.keep

theorem State.Canonical.lose {d keep} (h : s.Canonical) : (s.lose d keep).Canonical := by
  unfold State.lose
  extract_lets s1
  have h1 : s1.Canonical := h.resetPages
  exact .ite h1.loseSys (.ite h1.clearBanks.keep
    (.ite h1.loseLay (.ite h1.clearMem.keep (.ite h1.setNand (.ite h1.keep (.ite h1.keep
    (.ite h1.keep (.ite h1.keep (.ite h1.keep h1)))))))))

theorem State.Canonical.setDom {d st} (h : s.Canonical) : (s.setDom d st).Canonical :=
  .ite h h.putF.irq

theorem State.Canonical.turnOff {d} (h : s.Canonical) : (s.turnOff d).Canonical :=
  .ite h.setTimer h.setTimer.lose.putBit.setDom

theorem State.Canonical.turnOn {d} (h : s.Canonical) : (s.turnOn d).Canonical :=
  .ite h (State.Canonical.ite h.resetPages h.lose).setDom

theorem State.Canonical.retain {d} (h : s.Canonical) : (s.retain d).Canonical :=
  .ite h.lose.putBit.setDom h

theorem State.Canonical.domainReply (h : s.Canonical) : s.domainReply.Canonical := by
  unfold State.domainReply
  split
  · exact h
  · exact .ite h.reply h

theorem State.Canonical.pwrDom {q d v} (h : s.Canonical) : (s.pwrDom q d v).Canonical := by
  unfold State.pwrDom
  refine h.guarded fun h1 => .ite h1 ?_
  extract_lets s1 s2
  have hs1 : s1.Canonical := h1.putF
  have hs2 : s2.Canonical := .ite hs1.putBit.putF hs1
  exact .ite (State.Canonical.ite hs2.turnOn hs2).domainReply (.ite hs1.turnOff.domainReply
    hs1.retain.domainReply)

theorem execDomainTargetOn_canonical {q d} (h : s.Canonical) :
    ResCanonical (execDomainTargetOn q d s) :=
  .next h.pwrDom

theorem execDomainTargetOff_canonical {q d} (h : s.Canonical) :
    ResCanonical (execDomainTargetOff q d s) :=
  .next h.pwrDom

theorem execDomainTargetRet_canonical {q d} (h : s.Canonical) :
    ResCanonical (execDomainTargetRet q d s) :=
  .next h.pwrDom

theorem execDomainOnFail_canonical {d} (h : s.Canonical) : ResCanonical (execDomainOnFail d s) :=
  .next (.ite h (.ite h.turnOff.putF.setTimer (State.Canonical.ite h.turnOff.putBit
    h.turnOff.putBit.wr).cause.lanyEvent.domainReply))

theorem execDomainRetry_canonical {d t} (h : s.Canonical) : ResCanonical (execDomainRetry d t s) :=
  .next (.ite h.at h.at.setTimer.turnOn)

theorem State.Canonical.afterReset {pages} (h : s.Canonical) : (s.afterReset pages).Canonical := by
  obtain ⟨hr, hb, hm, he⟩ := State.canonical_iff.mp h
  exact State.canonical_iff.mpr ⟨canon_filter _ hr, canon_nil _, canon_filter _ hm, canon_filter _
    he⟩

theorem State.Canonical.chipReset {code} (h : s.Canonical) : (s.chipReset code).Canonical :=
  (State.Canonical.ite h.dieServe.afterReset.wr.wr.wr.wr64
    h.dieServe.afterReset.wr.wr).wr.putBit.bumpMod.wr

theorem State.Canonical.powerOn (h : s.Canonical) : s.powerOn.Canonical := by
  unfold State.powerOn
  extract_lets s1
  have h1 : s1.Canonical := h.afterReset.wr.wr
  clear_value s1
  exact h1.keep

theorem execPowerOnReset_canonical (h : s.Canonical) : ResCanonical (execPowerOnReset s) :=
  .next h.powerOn

theorem execResetPin_canonical (h : s.Canonical) : ResCanonical (execResetPin s) :=
  .next h.chipReset

theorem State.Canonical.rstCtrl {q v} (h : s.Canonical) : (s.rstCtrl q v).Canonical :=
  h.guarded (fun h1 => .ite h1.chipReset h1)

theorem execRstChip_canonical {q} (h : s.Canonical) : ResCanonical (execRstChip q s) :=
  .next h.rstCtrl

theorem State.Canonical.resetAlso {code} (h : s.Canonical) : (s.resetAlso code).Canonical :=
  (State.Canonical.ite h h.wr).putBit

theorem execChipReset_canonical {code t} (h : s.Canonical) :
    ResCanonical (execChipReset code t s) :=
  .next (.ite h.at.powerOn (.ite h.at.resetAlso (.ite h.at h.at.chipReset.setTimer)))

theorem State.Canonical.sleepWrite {q v} (h : s.Canonical) : (s.sleepWrite q v).Canonical :=
  h.guarded (fun h1 => .ite (.ite h1.lanyEvent.retain.retain h1.lanyEvent.retain) h1)

theorem execSleep_canonical {q ret} (h : s.Canonical) : ResCanonical (execSleep q ret s) :=
  .next h.sleepWrite

theorem State.Canonical.wakeUp {src} (h : s.Canonical) : (s.wakeUp src).Canonical :=
  .ite h (.ite h.putBit.lanyEvent h.putBit.turnOn.turnOn.wr)

theorem execWake_canonical {src} (h : s.Canonical) : ResCanonical (execWake src s) := .next h.wakeUp

theorem State.Canonical.wakeServe {read data} (h : s.Canonical) :
    (s.wakeServe read data).Canonical :=
  .ite h.keep (.ite h h.wr.irq)

theorem State.Canonical.wakeRelease (h : s.Canonical) : s.wakeRelease.Canonical := by
  unfold State.wakeRelease
  dsimp only
  split
  · exact h.keep.setTimer.wakeServe
  · exact h.keep.setTimer

theorem execWakePortMatch_canonical {addr read data} (h : s.Canonical) :
    ResCanonical (execWakePortMatch addr read data s) :=
  .next (.ite h (.ite (State.Canonical.ite h.setTimer h).keep.wakeUp h.wakeServe))

theorem execWakeStretchTimeout_canonical {t} (h : s.Canonical) :
    ResCanonical (execWakeStretchTimeout t s) :=
  .next (.ite h.at (.ite h.at.keep.setTimer h.at.keep.setTimer.putBit.cause))

theorem State.Canonical.setRefOk {ok} (h : s.Canonical) : (s.setRefOk ok).Canonical :=
  .ite h h.putBit.irq

theorem State.Canonical.clkCause {i} (h : s.Canonical) : (s.clkCause i).Canonical :=
  h.cause.lanyEvent

theorem execRefMonitorWindow_canonical {count} (h : s.Canonical) :
    ResCanonical (execRefMonitorWindow count s) :=
  .next (.ite h (.ite h.wr.setRefOk.clkCause h.wr.setRefOk))

theorem execRefLost_canonical (h : s.Canonical) : ResCanonical (execRefLost s) :=
  .next (.ite h h.setRefOk.clkCause)

/-! The functions of `Sys2Proof/Machine/Keys.lean`. -/

theorem State.Canonical.orphanCopies {p} (h : s.Canonical) : (s.orphanCopies p).Canonical := h.keep

theorem State.Canonical.advance {i} (h : s.Canonical) : (s.advance i).Canonical := by
  unfold State.advance
  extract_lets x g s1 c s2
  have h1 : s1.Canonical := h.setSlot
  clear_value s1
  have h2 : s2.Canonical := h1.keep
  exact h2.orphanCopies

theorem State.Canonical.eraseSlot {i} (h : s.Canonical) : (s.eraseSlot i).Canonical :=
  h.setSlot.advance

theorem State.Canonical.orphanSlot {i} (h : s.Canonical) : (s.orphanSlot i).Canonical :=
  h.eraseSlot.bump

theorem State.Canonical.orphanPath {i} (h : s.Canonical) : (s.orphanPath i).Canonical :=
  h.foldl fun _ h1 => h1.orphanSlot

theorem State.Canonical.wipeKeys (h : s.Canonical) : s.wipeKeys.Canonical := h.keep.orphanCopies

theorem State.Canonical.recordDue (h : s.Canonical) : s.recordDue.Canonical :=
  .ite (h.keep.foldl fun _ h1 => h1.lanyEvent) h

theorem State.Canonical.laterEvent {code args} (h : s.Canonical) :
    (s.laterEvent code args).Canonical :=
  h.keep.recordDue

theorem State.Canonical.zeroRoot (h : s.Canonical) : s.zeroRoot.Canonical :=
  .ite h.keep (State.Canonical.ite h.keep.orphanCopies.irq h.keep.orphanCopies).laterEvent

theorem State.Canonical.readSlot {i} (h : s.Canonical) : (s.readSlot i).2.Canonical :=
  .ite_snd (State.Canonical.ite_snd h.inject h).orphanSlot.cause
    (.ite (State.Canonical.ite_snd h.inject h).cause (.ite_snd h.inject h))

theorem State.Canonical.afterUse {i r} (h : s.Canonical) : (s.afterUse i r).Canonical :=
  .ite h.orphanPath h

theorem State.Canonical.serveLoad {lay r} (h : s.Canonical) : (s.serveLoad lay r).2.Canonical := by
  unfold State.serveLoad
  extract_lets a blob i formBad
  split
  next c s1 hc =>
  have h1 : s1.Canonical := (State.Canonical.ite_snd h.inject h).of_snd hc
  extract_lets s2 s3 u x
  have h2 : s2.Canonical := .ite h1.cause (.ite h1.cause h1)
  have h3 : s3.Canonical := h2.readSlot
  refine .ite_snd h2 ?_
  cases u with
  | some st => exact h3.afterUse
  | none =>
    refine .ite_snd h3 (.ite_snd (.ite_snd h3 h3) (.ite_snd h3 ?_))
    split
    · exact h3
    · exact h3

theorem State.Canonical.countLoad {lay pending st} (h : s.Canonical) :
    (s.countLoad lay pending st).Canonical :=
  .ite h (State.Canonical.ite h.bumpBk.bumpBk
    (.ite h.bumpBk.bumpBk (.ite h.bumpBk.bumpBk h.bumpBk))).setBk

theorem execKeyLoadDone_canonical {lay} (h : s.Canonical) :
    ResCanonical (execKeyLoadDone lay s) := by
  refine .next ?_
  split
  · exact h
  · exact .ite h.serveLoad.setLay.countLoad h.serveLoad.setLay.countLoad.setStr

theorem State.Canonical.startJob {a result} (h : s.Canonical) : (s.startJob a result).Canonical :=
  h.putBit.keep

theorem State.Canonical.defer {a addr l} (h : s.Canonical) : (s.defer a addr l).Canonical := h.keep

theorem State.Canonical.flushJob {a} (h : s.Canonical) : (s.flushJob a).Canonical :=
  h.keep.foldl fun _ h1 => h1.ddrPut

theorem State.Canonical.endJob {a} (h : s.Canonical) : (s.endJob a).Canonical :=
  .ite h.flushJob.putBit.putF.keep h

theorem State.Canonical.generated (h : s.Canonical) : s.generated.Canonical := h.keep

theorem State.Canonical.random {n} (h : s.Canonical) : (s.random n).2.Canonical := h.generated.drawN

theorem State.Canonical.renewSlot {i a2} (h : s.Canonical) : (s.renewSlot i a2).Canonical :=
  h.setSlot.orphanCopies

theorem State.Canonical.placeKey {i x} (h : s.Canonical) : (s.placeKey i x).Canonical := by
  unfold State.placeKey
  extract_lets x s1
  have h1 : s1.Canonical := h.renewSlot
  clear_value s1
  exact h1.keep

theorem State.Canonical.keyGenerate {i} (h : s.Canonical) : (s.keyGenerate i).2.Canonical :=
  .ite_snd h (.ite_snd h (.ite_snd h (.ite_snd h h.random.placeKey)))

theorem State.Canonical.keyDerive {i} (h : s.Canonical) : (s.keyDerive i).2.Canonical := by
  unfold State.keyDerive
  dsimp only
  split
  · exact h
  · split
    · exact h
    · split
      · exact h.afterUse
      · exact .ite_snd h (.ite_snd h h.placeKey)

theorem State.Canonical.keyImport {i} (h : s.Canonical) : (s.keyImport i).2.Canonical := by
  unfold State.keyImport
  extract_lets p s1
  split
  next img ue s2 hg =>
  have h2 : s2.Canonical := h.defer.ddrGet.of_snd_snd hg
  refine .ite_snd h2 (.ite_snd h2 (.ite_snd h2 ?_))
  split
  · exact h2.afterUse
  · split
    · exact h2
    · exact .ite_snd h2 (.ite_snd h2 h2.placeKey)

theorem State.Canonical.keyExport {i} (h : s.Canonical) : (s.keyExport i).2.Canonical :=
  .ite_snd h (.ite_snd h (.ite_snd h.orphanPath h.random.defer))

theorem State.Canonical.keyRewrap {i} (h : s.Canonical) : (s.keyRewrap i).2.Canonical := by
  unfold State.keyRewrap
  extract_lets p s1
  split
  next blob ue s2 hg =>
  have h2 : s2.Canonical := h.defer.ddrGet.of_snd_snd hg
  refine .ite_snd h2 (.ite_snd h2 ?_)
  split
  · exact h2.afterUse
  · exact h2.afterUse
  · refine .ite_snd h2 (.ite_snd h2 ?_)
    split
    · exact h2
    · refine .ite_snd h2 ?_
      split
      next hw => exact (h2.random.of_snd hw).defer

theorem State.Canonical.keySetMask {i} (h : s.Canonical) : (s.keySetMask i).2.Canonical :=
  .ite_snd h (.ite_snd h h.placeKey)

theorem State.Canonical.sweep {fuel} (h : s.Canonical) : (s.sweep fuel).Canonical := by
  induction fuel generalizing s with
  | zero => exact h
  | succ fuel ih =>
    unfold State.sweep
    split
    · exact h
    · exact ih h.orphanSlot

theorem State.Canonical.keyOp {op i} (h : s.Canonical) : (s.keyOp op i).2.Canonical := by
  unfold State.keyOp
  split
  · exact h
  · dsimp only
    split
    · exact h.readSlot
    · split
      · exact h.readSlot
      · split
        · exact h.readSlot.keyGenerate
        · exact h.readSlot.keyDerive
        · exact h.readSlot.keyImport
        · exact h.readSlot.keyExport
        · exact h.readSlot.keyRewrap
        · exact h.readSlot.eraseSlot
        · exact h.readSlot.keySetMask
        · exact h.readSlot.sweep
        · exact h.readSlot.wipeKeys

theorem State.Canonical.keyCmd {q v} (h : s.Canonical) : (s.keyCmd q v).Canonical :=
  h.guarded (fun h1 => .ite h1.keyOp.startJob h1)

theorem execKeyGenerate_canonical {q i} (h : s.Canonical) : ResCanonical (execKeyGenerate q i s) :=
  .next h.keyCmd

theorem execKeyDerive_canonical {q i} (h : s.Canonical) : ResCanonical (execKeyDerive q i s) :=
  .next h.keyCmd

theorem execKeyImport_canonical {q i} (h : s.Canonical) : ResCanonical (execKeyImport q i s) :=
  .next h.keyCmd

theorem execKeyExport_canonical {q i} (h : s.Canonical) : ResCanonical (execKeyExport q i s) :=
  .next h.keyCmd

theorem execKeyRewrap_canonical {q i} (h : s.Canonical) : ResCanonical (execKeyRewrap q i s) :=
  .next h.keyCmd

theorem execKeyInvalidate_canonical {q i} (h : s.Canonical) :
    ResCanonical (execKeyInvalidate q i s) :=
  .next h.keyCmd

theorem execKeySetMask_canonical {q i} (h : s.Canonical) : ResCanonical (execKeySetMask q i s) :=
  .next h.keyCmd

theorem execKeySweep_canonical {q} (h : s.Canonical) : ResCanonical (execKeySweep q s) :=
  .next h.keyCmd

theorem execKeyWipe_canonical {q} (h : s.Canonical) : ResCanonical (execKeyWipe q s) :=
  .next h.keyCmd

theorem execKeyCommandDone_canonical (h : s.Canonical) : ResCanonical (execKeyCommandDone s) :=
  .next (.ite h.endJob.irq h)

theorem State.Canonical.tamperQualified {k} (h : s.Canonical) :
    (s.tamperQualified k).Canonical := by
  unfold State.tamperQualified
  extract_lets cfg st s1 s2 s3 s4
  have h1 : s1.Canonical := h.putBit.bump
  have h2 : s2.Canonical := .ite h1 h1.putBit.putF.wr64
  have h3 : s3.Canonical := .ite h2.zeroRoot h2
  have h4 : s4.Canonical := .ite h3.wipeKeys h3
  exact h4.wakeUp.cause.irq.laterEvent

theorem State.Canonical.tamperInput {k level} (h : s.Canonical) :
    (s.tamperInput k level).Canonical :=
  .ite h.putBit.keep.tamperQualified h.putBit.keep

theorem execTamperSample_canonical {levels} (h : s.Canonical) :
    ResCanonical (execTamperSample levels s) :=
  .next (h.foldl fun _ h1 => h1.tamperInput).recordDue

theorem State.Canonical.tamperStat {q v} (h : s.Canonical) : (s.tamperStat q v).Canonical := by
  unfold State.tamperStat
  refine h.guarded fun h1 => ?_
  extract_lets s2
  have h2 : s2.Canonical := h1.foldl fun k h => .ite h.putBit h
  exact .ite h2.putBit.putF.wr64 h2

theorem execTamperLatchClear_canonical {q latches} (h : s.Canonical) :
    ResCanonical (execTamperLatchClear q latches s) :=
  .next h.tamperStat

theorem State.Canonical.tamperCfg {q k v} (h : s.Canonical) : (s.tamperCfg q k v).Canonical := by
  unfold State.tamperCfg
  exact h.guarded fun h1 => h1.plain

theorem State.Canonical.selfTest {p ok} (h : s.Canonical) : (s.selfTest p ok).Canonical :=
  .ite h.putBit h.cause

theorem State.Canonical.trngStart {ok} (h : s.Canonical) : (s.trngStart ok).Canonical :=
  .ite h (.ite h.selfTest.keep.wr.irq.setTimer h.selfTest.keep.wr)

theorem execCryptoSelfTest_canonical {kdf aead hash pke trng} (h : s.Canonical) :
    ResCanonical (execCryptoSelfTest kdf aead hash pke trng s) :=
  .next (.ite h (.ite h.selfTest.selfTest.selfTest.selfTest.trngStart
    h.selfTest.selfTest.selfTest.selfTest))

theorem State.Canonical.rawBits {l} (h : s.Canonical) : (s.rawBits l).Canonical := by
  induction l generalizing s with
  | nil => exact h
  | cons b l ih =>
    unfold State.rawBits
    extract_lets x apt s1
    have h1 : s1.Canonical := h.keep
    exact .ite h1.cause.wr (ih (.ite h1.bump h1))

theorem execTrngHealthFail_canonical {raw} (h : s.Canonical) :
    ResCanonical (execTrngHealthFail raw s) :=
  .next (.ite h.rawBits h)

theorem execDrbgReseed_canonical {t} (h : s.Canonical) : ResCanonical (execDrbgReseed t s) :=
  .next (.ite h.at.keep.bumpMod.setTimer h.at)

theorem State.Canonical.trngRead {q whole} (h : s.Canonical) : (s.trngRead q whole).Canonical := by
  unfold State.trngRead
  extract_lets a
  split
  next w s1 hw =>
  have h1 : s1.Canonical := (State.Canonical.ite_snd h.generated.draw h).of_snd hw
  exact h1.keep

theorem execTrngRead_canonical {q} (h : s.Canonical) : ResCanonical (execTrngRead q s) :=
  .next (h.readBy (fun h1 => h1.trngRead))

theorem State.Canonical.dropAuth (h : s.Canonical) : s.dropAuth.Canonical := h.putBit.putF.setTimer

theorem State.Canonical.lcsResult {r} (h : s.Canonical) : (s.lcsResult r).Canonical := h.putF

theorem State.Canonical.lcsStart (h : s.Canonical) : s.lcsStart.Canonical :=
  .ite (State.Canonical.ite h h.cause) (State.Canonical.ite h h.cause).cause

theorem State.Canonical.burn {target good} (h : s.Canonical) : (s.burn target good).Canonical :=
  h.keep

theorem State.Canonical.transition {target good} (h : s.Canonical) :
    (s.transition target good).Canonical := by
  unfold State.transition
  extract_lets bad s1 s2 was s3 s4 s5
  have h1 : s1.Canonical := h.dropAuth
  have h2 : s2.Canonical := .ite h1.zeroRoot.wipeKeys h1
  have h3 : s3.Canonical := h2.burn
  have h4 : s4.Canonical := .ite h3.lcsResult h3.cause.lcsResult
  have h5 : s5.Canonical := h4.irq
  exact .ite h1.lcsResult.irq (.ite h5 h5.lanyEvent.putBit.setTimer)

theorem State.Canonical.newChallenge {target} (h : s.Canonical) :
    (s.newChallenge target).Canonical := by
  unfold State.newChallenge
  refine .ite h.dropAuth.lcsResult ?_
  split
  next hr =>
  have h1 := h.dropAuth.random.of_snd hr
  exact (h1.foldl fun _ h => h.wr).putF.lcsResult

theorem State.Canonical.newRoot (h : s.Canonical) : s.newRoot.Canonical := by
  unfold State.newRoot
  split
  next hr =>
  have h1 := h.random.of_snd hr
  split
  next hw =>
  have h2 := h1.draw.of_snd hw
  exact h2.keep

theorem State.Canonical.lcsCtrl {q v good} (h : s.Canonical) : (s.lcsCtrl q v good).Canonical := by
  unfold State.lcsCtrl
  refine h.guarded fun h1 => ?_
  extract_lets s1 s2
  have hs1 : s1.Canonical := .ite h1.newChallenge h1
  have hs2 : s2.Canonical := .ite hs1.newRoot hs1
  exact .ite hs2.transition hs2

theorem execLcsRootNew_canonical {q} (h : s.Canonical) : ResCanonical (execLcsRootNew q s) :=
  .next h.lcsCtrl

theorem execLcsTransitionRequest_canonical {q target good} (h : s.Canonical) :
    ResCanonical (execLcsTransitionRequest q target good s) :=
  .next h.lcsCtrl

theorem execLcsTransitionReset_canonical {t} (h : s.Canonical) :
    ResCanonical (execLcsTransitionReset t s) :=
  .next (.ite h.at h.at.chipReset)

theorem execLcsNewChallenge_canonical {q target} (h : s.Canonical) :
    ResCanonical (execLcsNewChallenge q target s) :=
  .next h.lcsCtrl

theorem execLcsAuthExpiry_canonical {t} (h : s.Canonical) : ResCanonical (execLcsAuthExpiry t s) :=
  .next (.ite h.at.dropAuth h.at)

theorem State.Canonical.otpCmd {q v} (h : s.Canonical) : (s.otpCmd q v).Canonical :=
  h.guarded (fun h1 => .ite h1.keep.lcsResult.irq h1)

theorem execOtpProgram_canonical {q slot} (h : s.Canonical) :
    ResCanonical (execOtpProgram q slot s) :=
  .next h.otpCmd

/-! The functions of `Sys2Proof/Machine/Pins.lean`. -/

theorem State.Canonical.pmxConflict {r f who} (h : s.Canonical) :
    (s.pmxConflict r f who).Canonical :=
  h.wr.wr.bump.cause.irq.lanyEvent

theorem State.Canonical.pmxSet {r f holder} (h : s.Canonical) : (s.pmxSet r f holder).Canonical :=
  h.wr

theorem State.Canonical.blockClaim {r f} (h : s.Canonical) : (s.blockClaim r f).2.Canonical :=
  .ite_snd h (.ite_snd h.pmxConflict h.pmxSet)

theorem State.Canonical.blockRelease {r f} (h : s.Canonical) : (s.blockRelease r f).Canonical :=
  .ite h.pmxSet h

theorem State.Canonical.pmxClaim {q v} (h : s.Canonical) : (s.pmxClaim q v).Canonical :=
  h.guarded (fun h1 => .ite (.ite h1.pmxSet.wr h1.wr)
    (.ite (.ite h1.wr (.ite h1.pmxConflict h1.pmxSet.wr)) h1))

theorem execPmxClaim_canonical {q func res} (h : s.Canonical) :
    ResCanonical (execPmxClaim q func res s) :=
  .next h.pmxClaim

theorem execPmxRelease_canonical {q res} (h : s.Canonical) :
    ResCanonical (execPmxRelease q res s) :=
  .next h.pmxClaim

theorem State.Canonical.ballLevel {n level} (h : s.Canonical) : (s.ballLevel n level).Canonical :=
  .ite h.keep (.ite h.keep.putBit.putBit.irq h.keep.putBit)

theorem execGpioEdge_canonical {ball level} (h : s.Canonical) :
    ResCanonical (execGpioEdge ball level s) :=
  .next (.ite h h.ballLevel)

theorem State.Canonical.gpioDrive (h : s.Canonical) : s.gpioDrive.Canonical :=
  h.foldl fun _ h1 => .ite h1.ballLevel h1

theorem State.Canonical.gpioWrite {q o v} (h : s.Canonical) : (s.gpioWrite q o v).Canonical :=
  h.guarded (fun h1 => (State.Canonical.ite h1.wr (.ite h1.wr (.ite h1.wr h1.wr))).gpioDrive.putBit)

theorem State.Canonical.tmrWrite {q o v} (h : s.Canonical) : (s.tmrWrite q o v).Canonical := by
  unfold State.tmrWrite
  refine h.guarded fun h1 => .ite h1.pmxConflict ?_
  extract_lets was s2
  have h2 : s2.Canonical := h1.plain
  exact .ite h2.setTimer (.ite h2.setTimer h2)

theorem execTimerExpiry_canonical {k t} (h : s.Canonical) : ResCanonical (execTimerExpiry k t s) :=
  .next (.ite h.at (.ite h.at.putBit.irq.setTimer h.at.putBit.irq.putBit.setTimer))

/-! The functions of `Sys2Proof/Machine/Time.lean`. -/

theorem State.Canonical.setLocked {b} (h : s.Canonical) : (s.setLocked b).Canonical :=
  .ite h (.ite h.putBit.irq h.putBit.irq.cause.keep)

theorem State.Canonical.rateCheck (h : s.Canonical) : s.rateCheck.Canonical := .ite h.cause h

theorem State.Canonical.loadSlew {v} (h : s.Canonical) : (s.loadSlew v).Canonical :=
  h.wr.keep.rateCheck

theorem State.Canonical.tsuSlew {q v} (h : s.Canonical) : (s.tsuSlew q v).Canonical :=
  h.guarded (fun h1 => h1.loadSlew)

theorem State.Canonical.tsuFreqWrite {q v} (h : s.Canonical) : (s.tsuFreqWrite q v).Canonical :=
  h.guarded (fun h1 => .ite h1.wr.rateCheck h1)

theorem State.Canonical.tsuSlewRate {q v} (h : s.Canonical) : (s.tsuSlewRate q v).Canonical :=
  h.guarded (fun h1 => h1.plain.rateCheck)

theorem execTsuSlewWrite_canonical {q v t} (h : s.Canonical) :
    ResCanonical (execTsuSlewWrite q v t s) :=
  .next h.at.tsuSlew

theorem execSlewDone_canonical {t} (h : s.Canonical) : ResCanonical (execSlewDone t s) :=
  .next (.ite h.at.keep h.at)

theorem State.Canonical.tsuIvl {q v} (h : s.Canonical) : (s.tsuIvl q v).Canonical :=
  h.guarded (fun h1 => .ite h1.putF h1)

theorem State.Canonical.pushMark {fin start index skipped minutes lenChange back} (h : s.Canonical)
    : (s.pushMark fin start index skipped minutes lenChange back).Canonical :=
  (h.foldl fun _ h1 => h1.offer).wr.irq.keep

theorem State.Canonical.markBoundary {first last skipped} (h : s.Canonical) :
    (s.markBoundary first last skipped).Canonical :=
  .ite h.pushMark.keep.lanyEvent h.pushMark.keep

theorem execIntervalMark_canonical {t} (h : s.Canonical) : ResCanonical (execIntervalMark t s) :=
  .next (.ite h.at h.at.markBoundary)

theorem State.Canonical.applyStep {v host} (h : s.Canonical) : (s.applyStep v host).Canonical := by
  unfold State.applyStep
  extract_lets before n s1 time s2 s3 s4 s5 meas s6
  have h1 : s1.Canonical := h.loadSlew
  clear_value s1
  have h2 : s2.Canonical := h1.keep
  have h3 : s3.Canonical := h2.bumpMod.irq.putBit
  have h4 : s4.Canonical := .ite h3.setLocked h3
  have h5 : s5.Canonical := h4.lanyEvent
  clear_value s5
  have h6 : s6.Canonical := h5.keep
  clear_value s6
  refine .ite ?_ ?_
  · split
    · exact h6.markBoundary
    · exact h6
  · split
    · exact .ite h6.pushMark h6
    · exact h6

theorem State.Canonical.tsuStepCtl {q v} (h : s.Canonical) : (s.tsuStepCtl q v).Canonical :=
  h.guarded (fun h1 => .ite h1.applyStep h1)

theorem execTsuStep_canonical {q t} (h : s.Canonical) : ResCanonical (execTsuStep q t s) :=
  .next h.at.tsuStepCtl

theorem State.Canonical.lockMeasure {mag} (h : s.Canonical) : (s.lockMeasure mag).Canonical :=
  .ite h.keep.setLocked (.ite h.keep.setLocked h.keep)

theorem State.Canonical.refuseStep {o} (h : s.Canonical) : (s.refuseStep o).Canonical :=
  .ite h.wr64.keep h.wr64.keep.putBit.cause.irq.setLocked.lanyEvent

theorem State.Canonical.sourceSeen {src} (h : s.Canonical) : (s.sourceSeen src).Canonical := h.keep

theorem execPtpOffsetMeasurement_canonical {o port freq t} (h : s.Canonical) :
    ResCanonical (execPtpOffsetMeasurement o port freq t s) := by
  unfold execPtpOffsetMeasurement
  extract_lets s0 x l s1 src s2 s3 s4
  have h2 : s2.Canonical := h.at.wr64.putF.sourceSeen
  have h3 : s3.Canonical := h2.lockMeasure.putBit
  have h4 : s4.Canonical := by
    unfold s4
    split
    · exact .ite h3.wr h3
    · exact h3
  exact .next (.ite h.at (.ite h2.lockMeasure
    (.ite h2.refuseStep (.ite h4.loadSlew (.ite h4 h4.applyStep)))))

theorem execPtpSourceLoss_canonical (h : s.Canonical) : ResCanonical (execPtpSourceLoss s) :=
  .next (.ite h h.setLocked.putF)

theorem State.Canonical.ppsWrite {q v} (h : s.Canonical) : (s.ppsWrite q v).Canonical := by
  unfold State.ppsWrite
  refine h.guarded fun h1 => ?_
  extract_lets old s1 s2
  have hs1 : s1.Canonical := h1.plain
  have hs2 : s2.Canonical := .ite hs1.blockRelease hs1
  exact .ite hs2.blockClaim hs2

theorem execPpsConfigWrite_canonical {q v} (h : s.Canonical) :
    ResCanonical (execPpsConfigWrite q v s) :=
  .next h.ppsWrite

theorem execTsuSecondBoundary_canonical {t} (h : s.Canonical) :
    ResCanonical (execTsuSecondBoundary t s) := by
  refine .next ?_
  split
  · exact h.at.ballLevel.setTimer
  · exact h.at

theorem execPpsPulseEnd_canonical {t} (h : s.Canonical) : ResCanonical (execPpsPulseEnd t s) := by
  refine .next ?_
  split
  · exact h.at
  · dsimp only
    split
    · exact h.at.setTimer.ballLevel
    · exact h.at.setTimer

theorem State.Canonical.captureOn {k} (h : s.Canonical) : (s.captureOn k).Canonical :=
  .ite h.putBit.cause.bump h.wr.putBit.putF.irq

theorem execCaptureEdge_canonical {src rising t} (h : s.Canonical) :
    ResCanonical (execCaptureEdge src rising t s) :=
  .next (.ite h.at (h.at.foldl fun _ h1 => .ite h1.captureOn h1))

theorem State.Canonical.setRtc {sec frac} (h : s.Canonical) : (s.setRtc sec frac).Canonical :=
  h.wr64.putBit.keep

theorem execRtcSecondCarry_canonical {t} (h : s.Canonical) :
    ResCanonical (execRtcSecondCarry t s) := by
  unfold execRtcSecondCarry
  extract_lets s0 sec s1 r s2 ofs s3 al
  have h2 : s2.Canonical := .withRtc h.at.wr64
  have h3 : s3.Canonical := .ite h2.putF h2
  exact .next (.ite h.at (.ite h3.irq.wakeUp h3))

theorem State.Canonical.rtcCtrl {q v} (h : s.Canonical) : (s.rtcCtrl q v).Canonical :=
  h.guarded (fun h1 => .ite h1.plain.keep h1.plain)

theorem execRtcHalt_canonical {q t} (h : s.Canonical) : ResCanonical (execRtcHalt q t s) :=
  .next h.at.rtcCtrl

theorem execRtcResume_canonical {q t} (h : s.Canonical) : ResCanonical (execRtcResume q t s) :=
  .next h.at.rtcCtrl

theorem State.Canonical.rtcTime {q v} (h : s.Canonical) : (s.rtcTime q v).Canonical :=
  h.guarded (fun h1 => h1.setRtc.lanyEvent)

theorem execRtcTimeWrite_canonical {q v t} (h : s.Canonical) :
    ResCanonical (execRtcTimeWrite q v t s) :=
  .next h.at.rtcTime

theorem execRtcDiscipline_canonical {t} (h : s.Canonical) : ResCanonical (execRtcDiscipline t s) :=
  .next (.ite h.at (.ite h.at.wr.setRtc
    (.ite h.at.wr (.ite h.at.wr.keep h.at.wr.setRtc.putBit.irq))))

theorem State.Canonical.calDateRead {q} (h : s.Canonical) : (s.calDateRead q).Canonical := h.keep

theorem State.Canonical.calTimeRead {q} (h : s.Canonical) : (s.calTimeRead q).Canonical := h.keep

theorem execRtcCalRead_canonical {q t} (h : s.Canonical) : ResCanonical (execRtcCalRead q t s) :=
  .next (h.at.readBy (fun h1 => .ite h1.keep h1.calDateRead))

theorem State.Canonical.calDateWrite {q v} (h : s.Canonical) : (s.calDateWrite q v).Canonical :=
  h.guarded (fun h1 => h1.wr.keep)

theorem State.Canonical.calOfsWrite {q v} (h : s.Canonical) : (s.calOfsWrite q v).Canonical :=
  h.guarded (fun h1 => .ite h1.plain h1)

theorem State.Canonical.calTimeWrite {q v} (h : s.Canonical) : (s.calTimeWrite q v).Canonical := by
  unfold State.calTimeWrite
  dsimp only
  refine h.guarded fun h1 => ?_
  split
  · exact .ite h1.setRtc.lanyEvent.keep h1
  · exact h1

theorem execRtcCalWrite_canonical {q date time t} (h : s.Canonical) :
    ResCanonical (execRtcCalWrite q date time t s) :=
  .next h.at.calDateWrite.calTimeWrite

theorem State.Canonical.uncount {t} (h : s.Canonical) : (s.uncount t).Canonical := h.wr64

theorem execOscStop_canonical {t} (h : s.Canonical) : ResCanonical (execOscStop t s) := by
  unfold execOscStop
  obtain ⟨quiet, hq⟩ : ∃ q, q = t - 4000000 := ⟨_, rfl⟩
  rw [← hq]
  exact .next (State.Canonical.withRtc h.at.uncount).at.putBit.putBit.cause

theorem execOscResume_canonical {t} (h : s.Canonical) : ResCanonical (execOscResume t s) :=
  .next h.at.keep

theorem State.Canonical.mainAt {mv} (h : s.Canonical) : (s.mainAt mv).Canonical := h.keep

theorem execSwitchToVbat_canonical {main vbat} (h : s.Canonical) :
    ResCanonical (execSwitchToVbat main vbat s) :=
  .next (.ite h.mainAt.bump.putBit.irq h.mainAt)

theorem execSwitchToMain_canonical {main vbat} (h : s.Canonical) :
    ResCanonical (execSwitchToMain main vbat s) :=
  .next (.ite h.mainAt.putBit.irq h.mainAt)

theorem execVbatMeasurement_canonical {mv} (h : s.Canonical) :
    ResCanonical (execVbatMeasurement mv s) :=
  .next (.ite h.putF.cause h.putF)

theorem execBackupLoss_canonical {t} (h : s.Canonical) : ResCanonical (execBackupLoss t s) :=
  .next h.at.pageOff.pageOff.keep.putBit.cause.zeroRoot.cause

theorem State.Canonical.tsuStart (h : s.Canonical) : s.tsuStart.Canonical := h.keep

/-! The functions of `Sys2Proof/Machine/Measure.lean`. -/

theorem State.Canonical.mpWrite {q p o v} (h : s.Canonical) : (s.mpWrite q p o v).Canonical :=
  h.guarded (fun h1 => .ite (.ite h1.putBit h1) h1.plain)

theorem execMpCommit_canonical {q p} (h : s.Canonical) : ResCanonical (execMpCommit q p s) :=
  .next h.mpWrite

theorem State.Canonical.setMpt {p a2} (h : s.Canonical) : (s.setMpt p a2).Canonical := h.keep

theorem State.Canonical.setChan {c a2} (h : s.Canonical) : (s.setChan c a2).Canonical := h.keep

theorem State.Canonical.setAcc {p φ a3} (h : s.Canonical) : (s.setAcc p φ a3).Canonical := h.keep

theorem State.Canonical.putCh {o c b} (h : s.Canonical) : (s.putCh o c b).Canonical := h.putBit

theorem State.Canonical.accCheck {p} (h : s.Canonical) : (s.accCheck p).Canonical :=
  .ite h.inject.cause (.ite h.inject.cause.putBit h.inject)

theorem State.Canonical.coefCheck {p} (h : s.Canonical) : (s.coefCheck p).Canonical :=
  .ite h.inject.cause (.ite h.inject.cause.putBit h.inject)

theorem State.Canonical.chanSample {c w} (h : s.Canonical) : (s.chanSample c w).Canonical :=
  (State.Canonical.ite h.coefCheck.putCh h.coefCheck).setChan

theorem State.Canonical.phaseSample {p φ} (h : s.Canonical) : (s.phaseSample p φ).Canonical :=
  h.accCheck.setAcc

theorem execMeasSample_canonical {xs t} (h : s.Canonical) : ResCanonical (execMeasSample xs t s) :=
  .next (.ite h.at (.ite (h.at.foldl fun _ h1 => h1.chanSample)
    ((h.at.foldl fun _ h1 => h1.chanSample).foldl fun _ h1 => .ite
    (h1.foldl fun _ h2 => h2.phaseSample).setMpt h1)))

theorem State.Canonical.measEnable {q v} (h : s.Canonical) : (s.measEnable q v).Canonical := by
  unfold State.measEnable
  refine h.guarded fun h1 => ?_
  extract_lets was s1 s2 s3 pts
  have hs2 : s2.Canonical := .ite h1.putBit h1.putBit.putBit
  exact .ite hs2.putBit.withMeas hs2

theorem execMeasEnable_canonical {q t} (h : s.Canonical) : ResCanonical (execMeasEnable q t s) :=
  .next h.at.measEnable

theorem execMeasSettled_canonical {t} (h : s.Canonical) : ResCanonical (execMeasSettled t s) :=
  .next (.ite h.at.putBit.irq.keep h.at)

theorem execSyntTrim_canonical (h : s.Canonical) : ResCanonical (execSyntTrim s) :=
  .next (.ite h (.ite h.roundFree.wr.cause h.roundFree.wr))

theorem State.Canonical.eventStamps {k set} (h : s.Canonical) :
    (s.eventStamps k set).Canonical := by
  unfold State.eventStamps
  dsimp only
  split
  · exact h.keep
  · split
    · exact h.keep
    · exact h

theorem State.Canonical.measEvent {p code phase set value} (h : s.Canonical) :
    (s.measEvent p code phase set value).Canonical :=
  (State.Canonical.ite h.putBit.putBit.irq h.putBit).lanyEvent.keep.setMpt.eventStamps.foldl
    fun _ h1 => .ite h1 h1.commitAt

theorem State.Canonical.criterion {p code phase setIf clearIf need value} (h : s.Canonical) :
    (s.criterion p code phase setIf clearIf need value).Canonical :=
  .ite h.keep.measEvent h.keep

theorem State.Canonical.markStuck {c} (h : s.Canonical) : (s.markStuck c).Canonical :=
  h.setChan.putCh.cause.irq

theorem execChannelStuck_canonical {c} (h : s.Canonical) : ResCanonical (execChannelStuck c s) :=
  .next (.ite h (.ite h.markStuck h.markStuck.draw.measEvent))

theorem execChannelStuckEnd_canonical {c} (h : s.Canonical) :
    ResCanonical (execChannelStuckEnd c s) :=
  .next (.ite h (.ite h.putCh h.putCh.draw.measEvent))

theorem State.Canonical.rootFree {num den} (h : s.Canonical) : (s.rootFree num den).2.Canonical :=
  .ite_snd h h.draw

theorem State.Canonical.dropRuns {p codes} (h : s.Canonical) : (s.dropRuns p codes).Canonical :=
  h.keep

theorem State.Canonical.dropRun {p code phase} (h : s.Canonical) :
    (s.dropRun p code phase).Canonical :=
  h.keep

theorem execLineCycle_canonical {p t} (h : s.Canonical) : ResCanonical (execLineCycle p t s) := by
  unfold execLineCycle
  obtain ⟨root, hr⟩ : ∃ r, r = @State.rootFree := ⟨_, rfl⟩
  have root_canonical {u : State} {a b} (h : u.Canonical) : (root u a b).2.Canonical :=
    hr ▸ h.rootFree
  rw [← hr]
  extract_lets s0 p three vnom vfs cfg phases measured bad period n y s1
  have h1 : s1.Canonical := h.at.putF
  refine .next (.ite h.at ?_)
  split
  next hw =>
  extract_lets s2 s3 s4 clear
  have h2 : s2.Canonical := (h1.draw.of_snd hw).criterion
  have h3 : s3.Canonical := .ite h2.dropRun.dropRun h2
  have h4 : s4.Canonical := by
    refine h3.foldl fun f h => ?_
    split
    next hr => exact ((root_canonical h).of_snd hr).criterion
  refine .ite h3.dropRuns (.ite h4.dropRuns ?_)
  split
  next hv =>
  extract_lets s5
  have h5 : s5.Canonical := ((root_canonical h4).of_snd hv).criterion
  refine .ite h5 ?_
  split
  next hz => exact ((State.Canonical.ite_snd (root_canonical h5) (root_canonical h5)).of_snd
    hz).criterion

theorem State.Canonical.showPhase {p φ} (h : s.Canonical) : (s.showPhase p φ).Canonical := by
  -- `showPhase` is replaced by its value as a function, and the roots in it are kept closed
  obtain ⟨f, hf⟩ : ∃ f, @State.showPhase = f := ⟨_, rfl⟩
  rw [hf]
  delta State.showPhase at hf
  subst hf
  obtain ⟨root, hr⟩ : ∃ r, r = @State.rootFree := ⟨_, rfl⟩
  have root_canonical {u : State} {a b} (h : u.Canonical) : (root u a b).2.Canonical :=
    hr ▸ h.rootFree
  rw [← hr]
  exact (root_canonical (root_canonical h)).roundFree.roundFree.wr.wr.wr.wr

theorem State.Canonical.currentSquare {p} (h : s.Canonical) : (s.currentSquare p).2.Canonical :=
  h.roundFree

theorem State.Canonical.takeTemp {p} (h : s.Canonical) : (s.takeTemp p).Canonical :=
  .ite h.putBit.putBit.wr.setMpt (State.Canonical.ite h.putBit.putBit.wr.setMpt.draw.lanyEvent
    h.putBit.putBit.wr.setMpt.draw).measEvent

theorem State.Canonical.ageTemps (h : s.Canonical) : s.ageTemps.Canonical := h.keep

theorem State.Canonical.hostTempWrite {q p v} (h : s.Canonical) :
    (s.hostTempWrite q p v).Canonical :=
  h.guarded (fun h1 => .ite h1.plain.keep h1.plain)

theorem State.Canonical.measWrite {q o v} (h : s.Canonical) : (s.measWrite q o v).Canonical := by
  unfold State.measWrite
  exact h.guarded fun h1 => h1.plain

theorem State.Canonical.setTpt {p a2} (h : s.Canonical) : (s.setTpt p a2).Canonical := h.keep

theorem State.Canonical.consume {p start} (h : s.Canonical) : (s.consume p start).Canonical := by
  unfold State.consume
  dsimp only
  split
  · exact h
  · exact h.setTpt.foldl fun _ h1 => h1.setBk

theorem State.Canonical.pulseIdle {p level} (h : s.Canonical) : (s.pulseIdle p level).Canonical :=
  .ite h.ballLevel h

theorem State.Canonical.pulseBegin {p clear} (h : s.Canonical) : (s.pulseBegin p clear).Canonical :=
  .ite h h.keep

theorem State.Canonical.pulseCompute {p incs clear} (h : s.Canonical) :
    (s.pulseCompute p incs clear).Canonical :=
  .ite h.pulseBegin (State.Canonical.ite h.pulseBegin.keep.wr.cause.irq
    h.pulseBegin.keep.wr).pulseIdle

theorem State.Canonical.showCopies (h : s.Canonical) : s.showCopies.Canonical := by
  unfold State.showCopies
  split
  · exact h.putBit.wr
  · exact h

theorem State.Canonical.totRestore (h : s.Canonical) : s.totRestore.Canonical := by
  unfold State.totRestore
  split
  · exact h.keep.putBit.irq.showCopies
  · exact h.keep.putBit.cause.irq.lanyEvent

theorem State.Canonical.totCheck {p} (h : s.Canonical) : (s.totCheck p).Canonical := by
  unfold State.totCheck
  split
  next he =>
  have h1 := h.inject.of_snd he
  refine .ite h1.cause (.ite ?_ h1)
  extract_lets s2
  have h2 : s2.Canonical := h1.cause
  split
  · exact h2.setTpt
  · exact h2.setTpt.cause

theorem State.Canonical.commitPoint {p} (h : s.Canonical) : (s.commitPoint p).Canonical :=
  .ite h (State.Canonical.ite h.keep.setTpt h.keep).wr64.setMpt.putBit.putBit.irq

theorem State.Canonical.reverseTest {p φ} (h : s.Canonical) : (s.reverseTest p φ).Canonical :=
  .ite h.dropRun h.criterion

theorem State.Canonical.transferPoint {p sec start isPartial stepped unlocked} (h : s.Canonical) :
    (s.transferPoint p sec start isPartial stepped unlocked).Canonical := by
  unfold State.transferPoint
  extract_lets s1 s2 s3 s4 s5 r s6 sub s7 s8
  have h2 : s2.Canonical := h.accCheck.coefCheck.foldl fun _ h => h.showPhase
  have h3 : s3.Canonical := .foldl (.ite h2.dropRun h2) fun _ h => h.reverseTest
  have h6 : s6.Canonical := h3.putBit.putBit.consume.setTpt
  have h7 : s7.Canonical := .ite h6.setTpt h6
  have h8 : s8.Canonical := h7.pulseCompute
  split
  next hi => exact (h8.currentSquare.of_snd hi).setMpt

theorem State.Canonical.intervalCells {sec en} (h : s.Canonical) :
    (s.intervalCells sec en).Canonical := by
  unfold State.intervalCells
  split
  · exact h
  · extract_lets m s1
    have h1 : s1.Canonical := h.foldl fun p h => .withMeas h.setMpt.setTpt
    exact .ite h (.ite h.withMeas h1.withMeas)

theorem State.Canonical.hidePhase2 {p} (h : s.Canonical) : (s.hidePhase2 p).Canonical :=
  h.foldl fun _ h1 => h1.wr

theorem State.Canonical.nextSecond {p} (h : s.Canonical) : (s.nextSecond p).Canonical := by
  unfold State.nextSecond
  extract_lets s1 s2 was x s3 s4
  have h1 : s1.Canonical := h.foldl fun _ h => .ite h.wr h.roundFree.wr.setChan
  have h2 : s2.Canonical := h1.foldl fun _ h => h.setAcc
  have h3 : s3.Canonical := h2.setMpt.commitPoint
  have h4 : s4.Canonical := .ite h3.hidePhase2 h3
  exact .ite h4 (State.Canonical.ite h4 h4.dropRuns).takeTemp

theorem State.Canonical.clearPoints (h : s.Canonical) : s.clearPoints.Canonical := by
  refine h.foldl fun p h1 => ?_
  extract_lets x s2
  have h2 : s2.Canonical := .ite h1.setTpt.pulseBegin h1
  exact .ite h2.setTpt h2

theorem State.Canonical.transfer {isPartial} (h : s.Canonical) :
    (s.transfer isPartial).Canonical := by
  unfold State.transfer
  extract_lets sec start unlocked stepped en tseq s1 s2 m3 s3 s4 points image c s5 shot m6 s6 s7 s8
    s9 m10 s10
  have h2 : s2.Canonical := .foldl (State.Canonical.clearPoints (h.foldl fun p h => h.totCheck))
    fun p h => h.transferPoint
  have h3 : s3.Canonical := h2.withTotals
  have h6 : s6.Canonical := h3.wr.setLe.withTotals
  have h8 : s8.Canonical := .ite h6.putBit h6.putBit.intervalCells
  have h9 : s9.Canonical := h8.ageTemps.foldl fun p h => h.nextSecond
  exact .ite h (State.Canonical.setTimer h9.withMeas)

theorem execOneSecondTransfer_canonical {t} (h : s.Canonical) :
    ResCanonical (execOneSecondTransfer t s) :=
  .next h.at.transfer

theorem State.Canonical.copyEnd {fails} (h : s.Canonical) : (s.copyEnd fails).Canonical := by
  unfold State.copyEnd
  split
  · exact h
  · extract_lets s1 s2 ok s3
    have h2 : s2.Canonical := .ite h.setBytes h.setBytes.cause
    have h3 : s3.Canonical := .ite h2 h2.setLe
    exact (State.Canonical.withTotals h3).putBit.bumpMod.showCopies

theorem State.Canonical.copyWritten {fails} (h : s.Canonical) : (s.copyWritten fails).Canonical :=
  h.copyEnd.dieServe

theorem execTotalsCopyWritten_canonical {fails} (h : s.Canonical) :
    ResCanonical (execTotalsCopyWritten fails s) :=
  .next h.copyWritten

theorem execIntervalValuePush_canonical (h : s.Canonical) :
    ResCanonical (execIntervalValuePush s) := by
  refine .next ?_
  split
  · exact h
  · dsimp only
    split
    · exact h.keep
    · exact h.keep.foldl fun _ h1 => (State.Canonical.ite h1.keep.bump.cause h1).offer

theorem execSnapshotMessage_canonical (h : s.Canonical) : ResCanonical (execSnapshotMessage s) := by
  refine .next ?_
  split
  · exact .ite h (h.foldl fun _ h1 => .ite h1 (.ite h1.bump.cause h1.offerAll)).keep
  · exact h.keep

theorem State.Canonical.pulseDrive {p level} (h : s.Canonical) : (s.pulseDrive p level).Canonical :=
  .ite h.ballLevel h.cause

theorem execPulseStart_canonical {p t} (h : s.Canonical) : ResCanonical (execPulseStart p t s) :=
  .next (.ite h.at h.at.keep.bumpMod.setTimer.pulseDrive)

theorem execPulseEnd_canonical {p t} (h : s.Canonical) : ResCanonical (execPulseEnd p t s) :=
  .next (.ite h.at h.at.setTimer.pulseIdle)

theorem State.Canonical.pulseCfg {q p v} (h : s.Canonical) : (s.pulseCfg q p v).Canonical :=
  h.guarded (fun h1 => .ite (.ite h1.plain.blockClaim h1.plain.blockClaim.cause)
    h1.plain.blockRelease)

theorem State.Canonical.pulseWeight {q p v} (h : s.Canonical) : (s.pulseWeight q p v).Canonical :=
  h.guarded (fun h1 => h1.wr)

theorem execPulseConfigWrite_canonical {q p v} (h : s.Canonical) :
    ResCanonical (execPulseConfigWrite q p v s) :=
  .next h.pulseCfg

theorem State.Canonical.totClear {q v} (h : s.Canonical) : (s.totClear q v).Canonical :=
  h.guarded (fun h1 => .ite h1.keep h1)

theorem execTotClear_canonical {q mask} (h : s.Canonical) : ResCanonical (execTotClear q mask s) :=
  .next h.totClear

theorem State.Canonical.totSel {q v} (h : s.Canonical) : (s.totSel q v).Canonical := by
  unfold State.totSel
  refine h.guarded fun h1 => ?_
  dsimp only
  split
  · exact h1.plain.wr64.wr64.wr
  · exact h1.plain

theorem execTotSnap_canonical {q p index} (h : s.Canonical) :
    ResCanonical (execTotSnap q p index s) :=
  .next h.totSel

theorem State.Canonical.totSwData {q v} (h : s.Canonical) : (s.totSwData q v).Canonical :=
  h.guarded (fun h1 => h1.plain.putF)

theorem execTotSwitchWrite_canonical {q v} (h : s.Canonical) :
    ResCanonical (execTotSwitchWrite q v s) :=
  .next h.totSwData

theorem State.Canonical.totDmCfg {q v} (h : s.Canonical) : (s.totDmCfg q v).Canonical := by
  unfold State.totDmCfg
  exact h.guarded fun h1 => h1.plain.withTotals

theorem execTotDmConfig_canonical {q sub n} (h : s.Canonical) :
    ResCanonical (execTotDmConfig q sub n s) :=
  .next h.totDmCfg

theorem execPllUnlock_canonical {d locked} (h : s.Canonical) :
    ResCanonical (execPllUnlock d locked s) :=
  .next (.ite h (.ite (.ite h.putBit h) (.ite h.putBit.clkCause.cause.keep h.putBit.clkCause)))

/-! The functions of `Sys2Proof/Machine/Crypto.lean`. -/

theorem State.Canonical.engineWord {p} (h : s.Canonical) : (s.engineWord p).2.Canonical :=
  .ite h.inject.cause (.ite h.inject.cause h.inject)

theorem State.Canonical.job {p cmd q v run} (h : s.Canonical) (hrun : ∀ {u : State}, u.Canonical →
    (run u).2.Canonical) : (s.job p cmd q v run).Canonical :=
  h.guarded (fun h1 => .ite (hrun h1).startJob h1)

theorem State.Canonical.aeadJob {op slot} (h : s.Canonical) : (s.aeadJob op slot).2.Canonical := by
  unfold State.aeadJob
  refine .ite_snd h (.ite_snd h ?_)
  split
  next hb =>
  have h1 := h.engineWord.of_snd hb
  extract_lets s2 par
  have h2 : s2.Canonical := h1.readSlot.defer
  refine .ite_snd h1 ?_
  split
  · exact h2.afterUse
  · split
    next hg =>
    have h3 := h2.ddrGet.of_snd_snd hg
    refine .ite_snd h3 (.ite_snd h3 ?_)
    split
    next hg =>
    have h4 := h3.ddrGet.of_snd_snd hg
    refine .ite_snd h4 ?_
    split
    exact .ite h4.defer.defer h4.defer

theorem State.Canonical.testJob {p kat ok} (h : s.Canonical) : (s.testJob p kat ok).2.Canonical :=
  h.selfTest

theorem State.Canonical.aeadCmd {q v ok} (h : s.Canonical) : (s.aeadCmd q v ok).Canonical :=
  h.job (fun h1 => .ite_snd h1.testJob (.ite_snd h1 h1.aeadJob))

theorem execAeadGcmEncrypt_canonical {q slot} (h : s.Canonical) :
    ResCanonical (execAeadGcmEncrypt q slot s) :=
  .next h.aeadCmd

theorem execAeadGcmDecrypt_canonical {q slot} (h : s.Canonical) :
    ResCanonical (execAeadGcmDecrypt q slot s) :=
  .next h.aeadCmd

theorem execAeadCcmEncrypt_canonical {q slot} (h : s.Canonical) :
    ResCanonical (execAeadCcmEncrypt q slot s) :=
  .next h.aeadCmd

theorem execAeadCcmDecrypt_canonical {q slot} (h : s.Canonical) :
    ResCanonical (execAeadCcmDecrypt q slot s) :=
  .next h.aeadCmd

theorem execAeadCmac_canonical {q slot} (h : s.Canonical) : ResCanonical (execAeadCmac q slot s) :=
  .next h.aeadCmd

theorem execAeadCtr_canonical {q slot} (h : s.Canonical) : ResCanonical (execAeadCtr q slot s) :=
  .next h.aeadCmd

theorem execAeadSelftest_canonical {q ok} (h : s.Canonical) :
    ResCanonical (execAeadSelftest q ok s) :=
  .next h.aeadCmd

theorem State.Canonical.hashJob {op} (h : s.Canonical) : (s.hashJob op).2.Canonical :=
  .ite_snd h (.ite_snd h (.ite_snd h.engineWord.defer.ddrGet h.engineWord.defer.ddrGet.defer))

theorem State.Canonical.hashCmd {q v ok} (h : s.Canonical) : (s.hashCmd q v ok).Canonical :=
  h.job (fun h1 => .ite_snd h1.testJob (.ite_snd h1.hashJob h1))

theorem execHashSha256_canonical {q} (h : s.Canonical) : ResCanonical (execHashSha256 q s) :=
  .next h.hashCmd

theorem execHashSha384_canonical {q} (h : s.Canonical) : ResCanonical (execHashSha384 q s) :=
  .next h.hashCmd

theorem execHashSelftest_canonical {q ok} (h : s.Canonical) :
    ResCanonical (execHashSelftest q ok s) :=
  .next h.hashCmd

theorem execJobDone_canonical {hash} (h : s.Canonical) : ResCanonical (execJobDone hash s) :=
  .next h.endJob

theorem State.Canonical.bufPut {buf i v} (h : s.Canonical) : (s.bufPut buf i v).Canonical := h.defer

theorem State.Canonical.pkeSign {buf slot l} (h : s.Canonical) :
    (s.pkeSign buf slot l).2.Canonical := by
  unfold State.pkeSign
  split
  · exact h.afterUse
  · extract_lets x c
    split
    next hk =>
    have h1 := h.random.of_snd hk
    split
    · exact h1
    · exact h1.bufPut

theorem State.Canonical.pkeKeygen {buf slot} (h : s.Canonical) :
    (s.pkeKeygen buf slot).2.Canonical :=
  .ite_snd h (.ite_snd h h.random.placeKey.bufPut)

theorem State.Canonical.pkePubkey {buf slot} (h : s.Canonical) :
    (s.pkePubkey buf slot).2.Canonical := by
  unfold State.pkePubkey
  split
  · exact h.afterUse
  · exact h.bufPut

theorem State.Canonical.ecdhKey {z} (h : s.Canonical) : (s.ecdhKey z).2.Canonical :=
  .ite_snd h h.random

theorem State.Canonical.pkeEcdh {slot l} (h : s.Canonical) : (s.pkeEcdh slot l).2.Canonical := by
  unfold State.pkeEcdh
  extract_lets dst t use gen c q
  split
  · exact h.afterUse
  · refine .ite_snd h (.ite_snd h (.ite_snd h (.ite_snd h (.ite_snd h ?_))))
    split
    · exact h
    · split
      next hk => exact (h.ecdhKey.of_snd hk).placeKey

theorem State.Canonical.pkeLcs {l} (h : s.Canonical) : (s.pkeLcs l).2.Canonical :=
  .ite h.putBit.setTimer.irq h

theorem State.Canonical.pkeJob {op slot} (h : s.Canonical) : (s.pkeJob op slot).2.Canonical := by
  unfold State.pkeJob
  extract_lets buf
  refine .ite_snd h ?_
  split
  next hb =>
  have h1 := h.engineWord.of_snd hb
  extract_lets s2
  split
  next hg =>
  have h2 := h1.defer.ddrGet.of_snd_snd hg
  extract_lets s3
  have h3 : s3.Canonical := .ite h2.readSlot h2
  refine .ite_snd h3 ?_
  split
  · exact h3
  · exact h3
  · exact h3.pkeSign
  · exact h3.pkeKeygen
  · exact h3.pkePubkey
  · exact h3.pkeEcdh
  · exact h3.pkeLcs
  · exact h3

theorem State.Canonical.pkeCmd {q v ok} (h : s.Canonical) : (s.pkeCmd q v ok).Canonical :=
  h.job (fun h1 => .ite_snd h1.keep.testJob h1.keep.pkeJob)

theorem execPkeVerify256_canonical {q} (h : s.Canonical) : ResCanonical (execPkeVerify256 q s) :=
  .next h.pkeCmd

theorem execPkeVerify384_canonical {q} (h : s.Canonical) : ResCanonical (execPkeVerify384 q s) :=
  .next h.pkeCmd

theorem execPkeSign_canonical {q slot} (h : s.Canonical) : ResCanonical (execPkeSign q slot s) :=
  .next h.pkeCmd

theorem execPkeKeygen_canonical {q slot} (h : s.Canonical) :
    ResCanonical (execPkeKeygen q slot s) :=
  .next h.pkeCmd

theorem execPkePubkey_canonical {q slot} (h : s.Canonical) :
    ResCanonical (execPkePubkey q slot s) :=
  .next h.pkeCmd

theorem execPkeEcdh_canonical {q slot} (h : s.Canonical) : ResCanonical (execPkeEcdh q slot s) :=
  .next h.pkeCmd

theorem execPkeVerifyLcs_canonical {q} (h : s.Canonical) : ResCanonical (execPkeVerifyLcs q s) :=
  .next h.pkeCmd

theorem execPkeSelftest_canonical {q ok} (h : s.Canonical) :
    ResCanonical (execPkeSelftest q ok s) :=
  .next h.pkeCmd

theorem execPkeJobDone_canonical (h : s.Canonical) : ResCanonical (execPkeJobDone s) :=
  .next (.ite h.endJob.bumpMod h)

/-! The functions of `Sys2Proof/Machine/MeterTable.lean`. -/

theorem State.Canonical.readEntry {i} (h : s.Canonical) : (s.readEntry i).2.Canonical := h.ddrGet

theorem State.Canonical.bucketCheck {t} (h : s.Canonical) : (s.bucketCheck t).2.Canonical := by
  obtain ⟨f, hf⟩ : ∃ f, @State.bucketCheck = f := ⟨_, rfl⟩
  obtain ⟨check, hr⟩ : ∃ r, r = @State.ddrCheck := ⟨_, rfl⟩
  have check_canonical {u : State} {a n} (h : u.Canonical) : (check u a n).2.Canonical :=
    hr ▸ h.ddrCheck
  rw [hf]
  delta State.bucketCheck at hf
  rw [← hr] at hf
  subst hf
  beta_reduce
  split
  next hc =>
  have h1 := (check_canonical h).of_snd hc
  split
  · exact h1
  · split
    next hd => exact (check_canonical h1).of_snd hd

theorem State.Canonical.findMeter {t} (h : s.Canonical) : (s.findMeter t).2.Canonical := by
  obtain ⟨f, hf⟩ : ∃ f, @State.findMeter = f := ⟨_, rfl⟩
  obtain ⟨check, hr⟩ : ∃ r, r = @State.bucketCheck := ⟨_, rfl⟩
  have check_canonical {u : State} {t} (h : u.Canonical) : (check u t).2.Canonical :=
    hr ▸ h.bucketCheck
  rw [hf]
  delta State.findMeter at hf
  rw [← hr] at hf
  subst hf
  beta_reduce
  split
  next hb =>
  have h1 := (check_canonical h).of_snd hb
  split
  · exact h1
  · dsimp only
    split
    · next he => exact h1.readEntry.of_snd he
    · next he => exact h1.readEntry.of_snd he

theorem State.Canonical.writeRegion {i r writer l} (h : s.Canonical) :
    (s.writeRegion i r writer l).Canonical :=
  h.ddrPut

/-! The functions of `Sys2Proof/Machine/Readout.lean`. -/

theorem State.Canonical.meterKey {lay e title} (h : s.Canonical) :
    (s.meterKey lay e title).2.2.Canonical :=
  .ite_snd_snd h h.serveLoad.countLoad

theorem State.Canonical.keepPrior {i before} (h : s.Canonical) : (s.keepPrior i before).Canonical :=
  h.keep

theorem State.Canonical.passToken {i d f} (h : s.Canonical) : (s.passToken i d f).Canonical :=
  .ite h h.keep

theorem State.Canonical.pack {d spot record} (h : s.Canonical) : (s.pack d spot record).Canonical :=
  h.ddrPut.keep

theorem State.Canonical.authenticate {lay hdr r} (h : s.Canonical) :
    (s.authenticate lay hdr r).2.2.Canonical := by
  obtain ⟨f, hf⟩ : ∃ f, @State.authenticate = f := ⟨_, rfl⟩
  obtain ⟨find, hr⟩ : ∃ r, r = @State.findMeter := ⟨_, rfl⟩
  have find_canonical {u : State} {t} (h : u.Canonical) : (find u t).2.Canonical := hr ▸ h.findMeter
  rw [hf]
  delta State.authenticate at hf
  rw [← hr] at hf
  subst hf
  beta_reduce
  extract_lets title
  split
  next hf =>
  have h1 := (find_canonical h).of_snd hf
  split
  · refine .ite_snd_snd h1 ?_
    split
    next hk => exact h1.meterKey.of_snd_snd hk
  · exact h1

theorem State.Canonical.validate {lay writer spot n overlaps d data taint r} (h : s.Canonical) :
    (s.validate lay writer spot n overlaps d data taint r).Canonical := by
  obtain ⟨f, hf⟩ : ∃ f, @State.validate = f := ⟨_, rfl⟩
  obtain ⟨auth, hr⟩ : ∃ r, r = @State.authenticate := ⟨_, rfl⟩
  have auth_canonical {u : State} {l x r} (h : u.Canonical) : (auth u l x r).2.2.Canonical :=
    hr ▸ h.authenticate
  rw [hf]
  delta State.validate at hf
  rw [← hr] at hf
  subst hf
  beta_reduce
  extract_lets hdr
  split
  next ha =>
  have h1 := (auth_canonical h).of_snd_snd ha
  split
  next hw =>
  have h2 := h1.draw.of_snd hw
  split
  next hc =>
  have h3 := h2.draw.of_snd hc
  extract_lets ctr
  split
  next hi =>
  extract_lets before f f after s4 s5 regs g rt record s6
  have h4 : s4.Canonical := .ite h3 h3.keepPrior
  have h5 : s5.Canonical := .ite h4 h4.writeRegion
  have h6 : s6.Canonical := h5.pack.passToken
  split
  · exact .ite h6.offer h6
  · exact h6

theorem execReadingValidate_canonical {lay strand r overlaps spot bal t} (h : s.Canonical) :
    ResCanonical (execReadingValidate lay strand r overlaps spot bal t s) := by
  refine .next ?_
  split
  · exact h.at
  · split
    · rename_i heq
      exact h.at.pop.of_snd heq
    · rename_i heq
      exact .ite (h.at.pop.of_snd heq) (h.at.pop.of_snd heq).popMany.validate

theorem State.Canonical.durable {lay b} (h : s.Canonical) : (s.durable lay b).2.Canonical :=
  h.serveLoad.countLoad

theorem execAckCommit_canonical {lay seq lbn page i n t} (h : s.Canonical) :
    ResCanonical (execAckCommit lay seq lbn page i n t s) := by
  refine .next ?_
  split
  · exact h.at
  · refine .ite h.at ?_
    extract_lets s1
    have h1 : s1.Canonical := h.at.keep
    clear_value s1
    split
    · exact h1.offer
    · extract_lets b'
      refine .ite ?_ (State.Canonical.withIng h1).offer
      split
      next hd => exact (State.Canonical.withIng (h1.durable.of_snd hd)).offer.offer

theorem State.Canonical.queryMeter {q} (h : s.Canonical) : (s.queryMeter q).2.Canonical :=
  .ite_snd h (.ite_snd h h.readEntry)

theorem State.Canonical.takeQuery {out c} (h : s.Canonical) : (s.takeQuery out c).Canonical := by
  unfold State.takeQuery
  dsimp only
  split
  · exact h.offer
  · split
    · exact h.offer
    · exact .ite h.queryMeter.offer h.queryMeter.keep

theorem State.Canonical.serveQueries {lay l} (h : s.Canonical) :
    (s.serveQueries lay l).Canonical := by
  induction l generalizing s with
  | nil => exact h.withWork
  | cons q l ih =>
    unfold State.serveQueries
    exact .ite (State.Canonical.withWork h.offerAll.useQuota) (ih h.offerAll.useQuota.offer)

theorem execQuery_canonical {ring reply} (h : s.Canonical) :
    ResCanonical (execQuery ring reply s) := by
  refine .next ?_
  split
  · exact h
  · dsimp only
    refine State.Canonical.serveQueries ?_
    split
    · rename_i heq
      exact h.pop.of_snd heq
    · rename_i heq
      exact (h.pop.of_snd heq).takeQuery

/-! The functions of `Sys2Proof/Machine/MeterDb.lean`. -/

theorem State.Canonical.setBucketSlot {k j v} (h : s.Canonical) :
    (s.setBucketSlot k j v).Canonical :=
  h.ddrPut.ddrPut

theorem State.Canonical.setOverflow {home ovf} (h : s.Canonical) :
    (s.setOverflow home ovf).Canonical :=
  h.ddrPut

theorem State.Canonical.placeMeter {i title} (h : s.Canonical) {u} (hu : s.placeMeter i title = some
    u) : u.Canonical := by
  unfold State.placeMeter at hu
  extract_lets k v at hu
  split at hu
  · cases hu
    exact h.setBucketSlot
  · split at hu
    · obtain ⟨j, -, rfl⟩ := Option.map_eq_some_iff.mp hu
      exact h.setBucketSlot
    · obtain ⟨x, -, rfl⟩ := Option.map_eq_some_iff.mp hu
      exact h.setBucketSlot.setOverflow

theorem State.Canonical.unplaceMeter {title} (h : s.Canonical) :
    (s.unplaceMeter title).Canonical := by
  unfold State.unplaceMeter
  split
  · exact h
  · exact .ite h.setBucketSlot (.ite h.setBucketSlot h.setBucketSlot.setOverflow)

theorem State.Canonical.indexWords {title} (h : s.Canonical) :
    (s.indexWords title).2.Canonical := by
  obtain ⟨f, hf⟩ : ∃ f, @State.indexWords = f := ⟨_, rfl⟩
  obtain ⟨check, hr⟩ : ∃ r, r = @State.bucketCheck := ⟨_, rfl⟩
  have check_canonical {u : State} {t} (h : u.Canonical) : (check u t).2.Canonical :=
    hr ▸ h.bucketCheck
  rw [hf]
  delta State.indexWords at hf
  rw [← hr] at hf
  subst hf
  beta_reduce
  split
  next hc =>
  have h1 := (check_canonical h).of_snd hc
  extract_lets ks slots
  refine State.Canonical.foldl_snd h1 fun m h2 => ?_
  split
  next hd => exact h2.ddrCheck.of_snd hd

theorem State.Canonical.indexCheck {i title} (h : s.Canonical) : (s.indexCheck i title).Canonical :=
  .ite h.cause h

theorem State.Canonical.rosterImage {i mask before img} (h : s.Canonical) :
    (s.rosterImage i mask before img).2.Canonical := by
  obtain ⟨f, hf⟩ : ∃ f, @State.rosterImage = f := ⟨_, rfl⟩
  obtain ⟨words, hr⟩ : ∃ r, r = @State.indexWords := ⟨_, rfl⟩
  have words_canonical {u : State} {t} (h : u.Canonical) : (words u t).2.Canonical :=
    hr ▸ h.indexWords
  rw [hf]
  delta State.rosterImage at hf
  rw [← hr] at hf
  subst hf
  beta_reduce
  refine .ite_snd h ?_
  split
  next he =>
  have h1 := h.inject.of_snd he
  split
  next ho =>
  have h2 := h1.readEntry.of_snd ho
  extract_lets o was now told tnew moves drop add put
  split
  next hw =>
  have h3 := (State.Canonical.ite_snd (words_canonical h2) h2).of_snd hw
  split
  next hn =>
  have h4 := (State.Canonical.ite_snd (words_canonical h3) h3).of_snd hn
  extract_lets ue s5 s6 s7 s8 s9
  have h5 : s5.Canonical := .ite h4.cause h4
  have h6 : s6.Canonical := .ite h5.indexCheck (.ite h5.indexCheck h5)
  have h7 : s7.Canonical := .ite h6.unplaceMeter h6
  have put_canonical {u : State} {r : Nat} (h : u.Canonical) : (put u r).Canonical := .ite
    h.writeRegion h
  have h8 : s8.Canonical := put_canonical (put_canonical (put_canonical h7))
  have h9 : s9.Canonical := .ite (.getD (fun _ hu => h8.placeMeter hu) h8) h8
  exact .ite_snd h5 (.ite_snd h6 h9)

theorem State.Canonical.rosterWrite {i mask before img} (h : s.Canonical) :
    (s.rosterWrite i mask before img).2.Canonical :=
  .ite_snd h (.ite_snd h h.rosterImage)

theorem State.Canonical.rosterEach {was l} (h : s.Canonical) :
    (s.rosterEach was l).2.Canonical := by
  induction l generalizing s with
  | nil => exact h
  | cons m l ih =>
    unfold State.rosterEach
    split
    next hw =>
    have h1 := h.rosterWrite.of_snd hw
    split
    next hr =>
    have h2 := (ih (State.Canonical.keep h1)).of_snd hr
    exact .ite_snd h2 h2

theorem State.Canonical.rosterAll {l} (h : s.Canonical) : (s.rosterAll l).2.Canonical :=
  h.rosterEach

theorem execRosterWrite_canonical {images} (h : s.Canonical) :
    ResCanonical (execRosterWrite images s) :=
  .next (.ite h h.rosterAll)

theorem State.Canonical.mdbBufRead (h : s.Canonical) : s.mdbBufRead.2.Canonical :=
  .ite h.inject.cause (.ite h.inject.cause h.inject)

theorem State.Canonical.bufCheck (h : s.Canonical) : s.bufCheck.Canonical := h.mdbBufRead

theorem State.Canonical.clearRdBuf (h : s.Canonical) : s.clearRdBuf.Canonical := by
  obtain ⟨hr, hb, hm, he⟩ := State.canonical_iff.mp h
  exact State.canonical_iff.mpr ⟨canon_dropRange _ _ hr, hb, hm, he⟩

theorem State.Canonical.mdbRead {q v} (h : s.Canonical) : (s.mdbRead q v).Canonical :=
  h.guarded (fun h1 => .ite h1.plain (.ite h1.plain.wr.irq h1.plain.clearRdBuf.wr))

theorem State.Canonical.mdbWrite {q v} (h : s.Canonical) : (s.mdbWrite q v).Canonical :=
  h.guarded (fun h1 => .ite h1.plain (.ite h1.plain.wr.irq h1.plain.wr))

theorem State.Canonical.mdbBulk {q v heads done} (h : s.Canonical) :
    (s.mdbBulk q v heads done).Canonical := by
  unfold State.mdbBulk
  refine h.guarded fun h1 => ?_
  extract_lets w s2
  have h2 : s2.Canonical := .ite h1.withWork h1
  exact .ite h2 h2.withWork.wr

theorem State.Canonical.mdbBuf {q o v} (h : s.Canonical) : (s.mdbBuf q o v).Canonical :=
  h.guarded (fun h1 => h1.wr)

theorem execMdbHostRead_canonical {q i regions} (h : s.Canonical) :
    ResCanonical (execMdbHostRead q i regions s) :=
  .next h.mdbRead

theorem execMdbSingleWrite_canonical {q i regions} (h : s.Canonical) :
    ResCanonical (execMdbSingleWrite q i regions s) :=
  .next h.mdbWrite

theorem execMdbBulkLoad_canonical {q heads} (h : s.Canonical) :
    ResCanonical (execMdbBulkLoad q heads s) :=
  .next h.mdbBulk

theorem execMdbBulkAbort_canonical {q done} (h : s.Canonical) :
    ResCanonical (execMdbBulkAbort q done s) :=
  .next h.mdbBulk

theorem State.Canonical.readRegions {i rs l} (h : s.Canonical) :
    (s.readRegions i rs l).2.Canonical := by
  induction rs generalizing s l with
  | nil => exact h
  | cons r rs ih =>
    unfold State.readRegions
    split
    next hr =>
    split
    next he =>
    split
    next hg =>
    have h1 := (h.inject.of_snd he).ddrGet.of_snd_snd hg
    exact .ite_snd h1 (ih h1)

theorem State.Canonical.readDoneMdb {tries} (h : s.Canonical) :
    (s.readDoneMdb tries).Canonical := by
  unfold State.readDoneMdb
  extract_lets i mask most wanted fin
  refine .ite h.wr.irq ?_
  split
  next hr => exact (h.readRegions.of_snd hr).cause.wr.irq
  next hr =>
    extract_lets isTorn took n s1
    have h1 : s1.Canonical := (h.readRegions.of_snd hr).bump
    exact .ite h1.bump.wr.irq (h1.foldl fun _ h => h.wr).wr.irq

theorem State.Canonical.bulkImage {a i} (h : s.Canonical) : (s.bulkImage a i).2.2.Canonical := by
  unfold State.bulkImage
  refine State.Canonical.foldl_snd_snd h fun k h1 => ?_
  split
  next hg => exact h1.ddrGet.of_snd_snd hg

theorem State.Canonical.bulkOne {a before a3} (h : s.Canonical) :
    (s.bulkOne a before a3).Canonical :=
  (State.Canonical.ite h.bulkImage.cause h.bulkImage).rosterImage

theorem execMdbCommandDone_canonical {which tries} (h : s.Canonical) :
    ResCanonical (execMdbCommandDone which tries s) :=
  .next (.ite h (.ite h.readDoneMdb (.ite h.bufCheck.rosterImage.wr.irq
    (h.foldl fun _ h1 => h1.bulkOne).keep.wr.irq)))

theorem State.Canonical.takePages {comp n p} (h : s.Canonical) :
    (s.takePages comp n p).2.Canonical := by
  induction n generalizing s p with
  | zero => exact h
  | succ n ih =>
    unfold State.takePages
    split
    · next hp => exact h.pop.of_snd hp
    · next hp => exact ih (h.pop.of_snd hp)

theorem execCheckpointPass_canonical {req comp} (h : s.Canonical) :
    ResCanonical (execCheckpointPass req comp s) := by
  unfold execCheckpointPass
  extract_lets fresh p w s1
  have h1 : s1.Canonical := .ite h.withWork h
  refine .next (.ite h ?_)
  split
  next hp =>
  have h2 := h1.takePages.of_snd hp
  extract_lets n k s3
  have h3 : s3.Canonical := h2.offerAll
  clear_value s3
  exact .ite h3.keep h3.keep

theorem State.Canonical.reloadPass {newer older} (h : s.Canonical) :
    (s.reloadPass newer older).2.Canonical := by
  unfold State.reloadPass
  refine State.Canonical.foldl_snd h fun e h1 => ?_
  dsimp only
  split
  · exact h1
  · exact .ite_snd (.ddrPut h1) (.ite_snd (.withBal (.ddrPut h1)) (.withBal (.ddrPut h1)))

theorem State.Canonical.rollRecord {r} (h : s.Canonical) : (s.rollRecord r).Canonical :=
  .ite h (.ite h h.ddrPut)

theorem State.Canonical.tableReload {streams} (h : s.Canonical) :
    (s.tableReload streams).Canonical := by
  unfold State.tableReload
  split
  · exact h
  · split
    next hr =>
    extract_lets first s2
    have h2 : s2.Canonical := (h.withBal.reloadPass.of_snd hr).foldl fun _ h => .ite h h.rollRecord
    exact h2.foldl fun _ h => h.foldl fun _ h => .ite (.getD (fun _ hx => h.placeMeter hx) h) h

theorem execTableReload_canonical (h : s.Canonical) : ResCanonical (execTableReload s) :=
  .next (.ite h.tableReload h)

/-! The functions of `Sys2Proof/Machine/Tariff.lean`. -/

theorem State.Canonical.putProg {image} (h : s.Canonical) : (s.putProg image).Canonical :=
  h.ddrPut.keep

theorem execTariffLoad_canonical {ring reply image} (h : s.Canonical) :
    ResCanonical (execTariffLoad ring reply image s) :=
  .next (h.hostServe (fun h1 => .ite_snd h1.putProg.keep h1.keep))

theorem State.Canonical.assignProg {p n} (h : s.Canonical) : (s.assignProg p n).Canonical := h.keep

theorem execSwitchListRefill_canonical {p t} (h : s.Canonical) :
    ResCanonical (execSwitchListRefill p t s) :=
  .next (.ite h.at (h.at.foldl fun _ h1 => h1.setBk).wr)

theorem State.Canonical.setField {i f} (h : s.Canonical) : (s.setField i f).Canonical :=
  h.writeRegion

theorem State.Canonical.tellHost {ring what} (h : s.Canonical) : (s.tellHost ring what).Canonical :=
  h.offer

theorem State.Canonical.toMeterAll {i out l} (h : s.Canonical) : (s.toMeterAll i out l).Canonical :=
  h.setField.foldl fun _ h1 => h1.offerAll

theorem State.Canonical.toMeter {i n out content} (h : s.Canonical) :
    (s.toMeter i n out content).Canonical :=
  h.toMeterAll

theorem State.Canonical.setDist {i d} (h : s.Canonical) : (s.setDist i d).Canonical := h.keep

theorem execTariffDistribution_canonical {ring reply prog meters start len act} (h : s.Canonical) :
    ResCanonical (execTariffDistribution ring reply prog meters start len act s) :=
  .next (h.hostServe (fun h1 => .ite_snd h1 (h1.foldl fun _ h2 => h2.setField.setDist)))

theorem State.Canonical.tryFailed {i d ring} (h : s.Canonical) : (s.tryFailed i d ring).Canonical :=
  .ite h.setField.setDist h.setField.setDist.tellHost

theorem execTariffSend_canonical {meter pduFits answer ring out t} (h : s.Canonical) :
    ResCanonical (execTariffSend meter pduFits answer ring out t s) := by
  refine .next ?_
  split
  · exact h.at
  · split
    · exact h.at
    · split
      · exact h.at.setField.setDist.tellHost
      · dsimp only
        split
        · exact h.at.setField.toMeterAll.setDist
        · exact h.at.setField.toMeterAll.setDist.tryFailed
        · exact h.at.setField.toMeterAll.setDist.setField.setDist.tellHost

theorem execTariffResponseTimeout_canonical {meter ring t} (h : s.Canonical) :
    ResCanonical (execTariffResponseTimeout meter ring t s) := by
  refine .next ?_
  split
  · exact h.at
  · split
    · exact h.at
    · exact .ite h.at h.at.tryFailed

theorem State.Canonical.creditKey {i} (h : s.Canonical) : (s.creditKey i).2.Canonical :=
  h.serveLoad.countLoad

theorem State.Canonical.redeem {i tok} (h : s.Canonical) : (s.redeem i tok).2.2.Canonical := by
  unfold State.redeem
  extract_lets f stat fails fin
  have fin_canonical {u : State} {c n} (h : u.Canonical) : (fin u c n).Canonical := h.setField
  cases tok with
  | none => exact fin_canonical h
  | some v =>
    refine .ite_snd_snd (fin_canonical h) (.ite_snd_snd (fin_canonical h)
      (.ite_snd_snd (fin_canonical h) ?_))
    split
    next hk =>
    have h1 := h.creditKey.of_snd hk
    exact .ite_snd_snd (fin_canonical h1) (.ite_snd_snd (fin_canonical h1)
      (.ite_snd_snd (fin_canonical h1) h1.setField))

theorem State.Canonical.reportUnknown {ring} (h : s.Canonical) : (s.reportUnknown ring).Canonical :=
  .ite h (h.keep.foldl fun _ h1 => h1.tellHost)

theorem execTokenRedeem_canonical {meter strings ring out t} (h : s.Canonical) :
    ResCanonical (execTokenRedeem meter strings ring out t s) := by
  unfold execTokenRedeem
  extract_lets s1 i
  have h1 : s1.Canonical := h.at.reportUnknown
  refine .next ?_
  split
  · exact h1
  · extract_lets s2
    have h2 : s2.Canonical := h1.withWork
    clear_value s2
    refine .ite h1 (.ite h2.tellHost ?_)
    split
    next hr =>
    split
    · exact h2.redeem.of_snd_snd hr |>.tellHost
    · exact State.Canonical.withWork (h2.redeem.of_snd_snd hr).tellHost.toMeter

theorem execCreditActionTimeout_canonical {meter result ring t} (h : s.Canonical) :
    ResCanonical (execCreditActionTimeout meter result ring t s) := by
  refine .next ?_
  split
  · exact h.at
  · exact .ite h.at h.at.keep.tellHost

theorem State.Canonical.clearFails {i} (h : s.Canonical) : (s.clearFails i).Canonical := h.setField

theorem State.Canonical.wideSlot {slot} (h : s.Canonical) : (s.wideSlot slot).Canonical :=
  .ite h.putF.putBit h

theorem State.Canonical.hostOrder {a1} (h : s.Canonical) : (s.hostOrder a1).2.Canonical := by
  unfold State.hostOrder
  split
  · exact .ite_snd h.clearFails h
  · exact .ite_snd h.keep h
  · exact .ite_snd h.keep h
  · exact .ite_snd h (.ite h.keep.wideSlot h.keep)
  · exact h.keep
  · exact .ite_snd h.assignProg h
  · exact h

theorem execHostCommand_canonical {ring reply order} (h : s.Canonical) :
    ResCanonical (execHostCommand ring reply order s) :=
  .next (h.hostServe (fun h1 => h1.hostOrder))

/-! The functions of `Sys2Proof/Machine/Lanyard.lean`. -/

theorem State.Canonical.lockstep (h : s.Canonical) : s.lockstep.Canonical := .ite h h.putBit.putBit

theorem State.Canonical.lanyErr {q v} (h : s.Canonical) : (s.lanyErr q v).Canonical :=
  h.guarded (fun h1 => .ite h1.plain.putBit h1.plain)

theorem execLockstepMismatch_canonical (h : s.Canonical) : ResCanonical (execLockstepMismatch s) :=
  .next h.lockstep

theorem State.Canonical.lanyInject (h : s.Canonical) : s.lanyInject.2.Canonical :=
  .ite_snd (.ite h h.putBit) (.ite_snd (.ite h h.putBit) h)

theorem State.Canonical.lanyFound {addr c scrub} (h : s.Canonical) :
    (s.lanyFound addr c scrub).Canonical :=
  .ite h.putBit.pulse.bump.wr (.ite h.putBit.wr h)

theorem execLanyardScrub_canonical {busy} (h : s.Canonical) :
    ResCanonical (execLanyardScrub busy s) :=
  .next (.ite h (State.Canonical.ite h.lanyInject.lanyFound.setEcc h.lanyInject.lanyFound).keep)

theorem State.Canonical.enterSafety {nmi} (h : s.Canonical) : (s.enterSafety nmi).Canonical :=
  .ite h (.ite (.ite h.keep h) h.putBit)

theorem execSafetyGateCall_canonical (h : s.Canonical) : ResCanonical (execSafetyGateCall s) :=
  .next (.ite h.putBit h)

theorem execSafetyReturn_canonical (h : s.Canonical) : ResCanonical (execSafetyReturn s) :=
  .next (.ite h (.ite h.keep h.putBit))

theorem State.Canonical.capacity {cls} (h : s.Canonical) : (s.capacity cls).2.Canonical :=
  h.roundFree

theorem State.Canonical.capacityCheck (h : s.Canonical) : s.capacityCheck.Canonical := by
  unfold State.capacityCheck
  extract_lets cs key
  refine .ite h ?_
  split
  next l s1 hl =>
  have h1 : s1.Canonical := State.Canonical.of_snd (by exact .foldl_snd h fun _ h1 => .capacity h1)
    hl
  exact (State.Canonical.withLany h1).notify

theorem execNoticePush_canonical (h : s.Canonical) : ResCanonical (execNoticePush s) := by
  refine .next ?_
  split
  · exact h
  · dsimp only
    split
    · exact h.capacityCheck
    · exact .ite h.capacityCheck h.capacityCheck.keep.offerAll

theorem State.Canonical.hostExpiry {a1} (h : s.Canonical) : (s.hostExpiry a1).Canonical :=
  h.cause.irq.bumpF.setTimer.lanyEvent

theorem State.Canonical.hostCfg {q v} (h : s.Canonical) : (s.hostCfg q v).Canonical :=
  h.guarded (fun h1 => .ite h1.plain.setTimer (.ite h1.plain h1.plain.keep.setTimer))

theorem State.Canonical.hostKick {q v} (h : s.Canonical) : (s.hostKick q v).Canonical :=
  h.guarded (fun h1 => .ite h1 (.ite h1.keep.setTimer h1.cause.hostExpiry))

theorem execHostWatchdogKick_canonical {q v t} (h : s.Canonical) :
    ResCanonical (execHostWatchdogKick q v t s) :=
  .next h.at.hostKick

theorem execHostWatchdogExpiry_canonical {t} (h : s.Canonical) :
    ResCanonical (execHostWatchdogExpiry t s) :=
  .next (.ite h.at h.at.hostExpiry)

theorem State.Canonical.lanyStage {two} (h : s.Canonical) : (s.lanyStage two).Canonical :=
  h.keep.setTimer

theorem State.Canonical.lanyWarn (h : s.Canonical) : s.lanyWarn.Canonical :=
  (State.Canonical.ite h.cause.irq.bumpF.lanyEvent h.cause.irq.bumpF).lanyStage.enterSafety

theorem State.Canonical.lanyStageEnd (h : s.Canonical) : s.lanyStageEnd.Canonical :=
  .ite h.chipReset h.lanyWarn

theorem State.Canonical.lanyKick {q v} (h : s.Canonical) : (s.lanyKick q v).Canonical :=
  h.guarded (fun h1 => .ite h1 (.ite h1.keep.lanyStage h1.cause.lanyStageEnd))

theorem execLanyardWatchdogKick_canonical {q v t} (h : s.Canonical) :
    ResCanonical (execLanyardWatchdogKick q v t s) :=
  .next h.at.lanyKick

theorem execLanyWarn_canonical {t} (h : s.Canonical) : ResCanonical (execLanyWarn t s) :=
  .next (.ite h.at.lanyWarn h.at)

theorem execLanyardWatchdogReset_canonical {t} (h : s.Canonical) :
    ResCanonical (execLanyardWatchdogReset t s) :=
  .next (.ite h.at.chipReset h.at)

theorem State.Canonical.lanyInj {q v} (h : s.Canonical) : (s.lanyInj q v).Canonical :=
  h.guarded (fun h1 => .ite (.ite h1.plain.lockstep h1.plain.lockstep.putBit) h1.plain)

theorem execLanyardInjectArm_canonical {q v} (h : s.Canonical) :
    ResCanonical (execLanyardInjectArm q v s) :=
  .next h.lanyInj

theorem State.Canonical.sensRunOn {k on} (h : s.Canonical) : (s.sensRunOn k on).2.Canonical :=
  h.keep

theorem State.Canonical.sensBit {a i runs inside k e} (h : s.Canonical) :
    (s.sensBit a i runs inside k e).Canonical := by
  unfold State.sensBit
  extract_lets filt
  split
  next hq =>
  have h1 : State.Canonical _ := .of_snd (by exact .foldl_snd h fun _ h1 => .sensRunOn h1) hq
  extract_lets was
  split
  next hn =>
  have h2 := h1.sensRunOn.of_snd hn
  extract_lets s3
  have h3 : s3.Canonical := .ite h2.putBit.lanyEvent (.ite h2.putBit h2)
  exact .ite h3.cause.irq h3

theorem State.Canonical.sensInject {k all i} (h : s.Canonical) :
    (s.sensInject k all i).2.Canonical :=
  .ite_snd h (.ite_snd h (.ite_snd h (.ite_snd h.keep.putBit h.keep)))

theorem State.Canonical.tempMinute {k x} (h : s.Canonical) : (s.tempMinute k x).Canonical := by
  unfold State.tempMinute
  extract_lets due p l s1 m b n
  have h1 : s1.Canonical := .ite h.withLany h
  exact .ite h1.withLany (.ite h1 h1.withLany)

theorem State.Canonical.tempSample {k x} (h : s.Canonical) : (s.tempSample k x).Canonical := by
  unfold State.tempSample
  extract_lets s1 u l s2 s3 warn alarm hyst
  have h2 : s2.Canonical := .ite h.wr (.withLany h.wr.wr)
  have h3 : s3.Canonical := h2.tempMinute
  split
  next hi => exact (h3.sensInject.of_snd hi).sensBit.sensBit

theorem State.Canonical.voltSample {v mv} (h : s.Canonical) : (s.voltSample v mv).Canonical :=
  .ite h.wr h.wr.sensInject.sensBit.sensBit

theorem execSensorSample_canonical {a0 t} (h : s.Canonical) :
    ResCanonical (execSensorSample a0 t s) := by
  refine .next ?_
  split
  · exact h.at
  · split
    · exact .ite h.at.tempSample h.at.putBit.cause
    · exact .ite h.at.putBit (.ite h.at.voltSample h.at.putBit.cause)

theorem State.Canonical.nandHour {t} (h : s.Canonical) : (s.nandHour t).Canonical :=
  h.foldl fun _ h1 => h1.keep

theorem execLifetimeRecordUpdate_canonical {t} (h : s.Canonical) :
    ResCanonical (execLifetimeRecordUpdate t s) := by
  unfold execLifetimeRecordUpdate
  extract_lets s0 s1 bins peak life lany s2
  have h2 : s2.Canonical := .withLifetimeLany h.at.setTimer
  exact .next (.ite h.at (.ite (h2.foldl fun _ h => h.nandHour) h2))

/-! The functions of `Sys2Proof/Machine/Ptp.lean`. -/

theorem State.Canonical.ptpTake {port overUdp mac msg} (h : s.Canonical) :
    (s.ptpTake port overUdp mac msg).Canonical :=
  .ite h (.ite h.keep h.bumpF)

theorem execPtpMessageReceived_canonical {port overUdp mac msg t} (h : s.Canonical) :
    ResCanonical (execPtpMessageReceived port overUdp mac msg t s) :=
  .next h.at.ptpTake

theorem State.Canonical.ptpOut {port l} (h : s.Canonical) : (s.ptpOut port l).Canonical := by
  unfold State.ptpOut
  extract_lets stamp time s1
  have h1 : s1.Canonical := .ite h.keep h
  exact .ite (State.Canonical.withWire h1).ethCount h1

theorem execPtpMessageSend_canonical {port msg late t} (h : s.Canonical) :
    ResCanonical (execPtpMessageSend port msg late t s) :=
  .next (.ite h.at (.ite h.at.ptpOut (.ite h.at.ptpOut (.ite h.at.bumpF.ptpOut h.at.ptpOut))))

/-! The functions of `Sys2Proof/Machine/Mailbox.lean`. -/

theorem State.Canonical.mailTaken {cs bad} (h : s.Canonical) : (s.mailTaken cs bad).Canonical := by
  unfold State.mailTaken
  split
  · exact h
  · exact .ite h.keep.reply (.ite h.keep.reply h.keep)

theorem execMailboxRequest_canonical (h : s.Canonical) : ResCanonical (execMailboxRequest s) := by
  refine .next (.ite h ?_)
  split
  next hm =>
  have h1 := h.takeMessage.of_snd_snd hm
  exact .ite h1.mailTaken h1.mailTaken

theorem State.Canonical.serve {req eff} (h : s.Canonical) (heff : ∀ {u : State} m, u.Canonical →
    (eff m u).Canonical) : (s.serve req eff).Canonical := by
  unfold State.serve
  split
  · exact h
  · exact .ite (heff _ h) h

theorem State.Canonical.serveWords {req masks eff} (h : s.Canonical) (heff : ∀ {u : State} ws,
    u.Canonical → (eff ws u).Canonical) : (s.serveWords req masks eff).Canonical :=
  h.serve fun _ h1 => .ite h1.reply (heff _ h1)

theorem State.Canonical.mailBegun (h : s.Canonical) : s.mailBegun.Canonical := h.keep

theorem execMbStatus_canonical (h : s.Canonical) : ResCanonical (execMbStatus s) :=
  .next (h.serveWords (fun _ h1 => h1.capacity.reply))

theorem execMbRiggingLoad_canonical {addr len} (h : s.Canonical) :
    ResCanonical (execMbRiggingLoad addr len s) :=
  .next (h.serve (fun _ h1 => .ite h1 (.ite h1.keep.rigLoad.reply (.ite h1.keep.rigLoad.mailBegun
    h1.keep.rigLoad.reply))))

theorem State.Canonical.doReturn {n k} (h : s.Canonical) : (s.doReturn n k).Canonical :=
  .ite h.fill.layReturn.keep.layCtrl h.fill.layReturn.keep

theorem State.Canonical.returnStrand {n k host} (h : s.Canonical) {u} (hu : s.returnStrand n k host
    = some u) : u.Canonical := by
  unfold State.returnStrand at hu
  split at hu
  · cases hu
  · cases hu
    exact h.doReturn

theorem execLayReturn_canonical {q lay strand} (h : s.Canonical) :
    ResCanonical (execLayReturn q lay strand s) :=
  .next (.ite h.layReturn (.ite h (.ite h.layReturn h.doReturn)))

theorem execMbStrandReturn_canonical (h : s.Canonical) : ResCanonical (execMbStrandReturn s) := by
  refine .next ?_
  refine h.serveWords fun _ h1 => ?_
  extract_lets w
  split
  · next hr => exact (h1.returnStrand hr).reply
  · exact h1.replyRefused

theorem execMbStrandKeepOut_canonical (h : s.Canonical) : ResCanonical (execMbStrandKeepOut s) :=
  .next (h.serveWords (fun _ h1 => h1.keep.reply))

theorem State.Canonical.rosterFrom {body src was l} (h : s.Canonical) :
    (s.rosterFrom body src was l).2.Canonical := by
  induction l generalizing s with
  | nil => exact h
  | cons e l ih =>
    change (let (ue, s) := match src with
              | none => (false, s)
              | some a => let (c, s) := s.ddrCheck (a * 64 + 512 * e.1) 512
                          (decide (c = 2), s)
            let img := s.rosterSource body src e.1
            let (st, written, s) := if ue then (4, false, s) else
              let (st, s) := s.rosterWrite e.2.1 e.2.2 (was e.2.1) img
              (st, st = 1 || st = 4, s)
            let (r, s) := s.rosterFrom body src was l
            (if written then (r.1 + 1, r.2.1, r.2.2) else (r.1, r.2.1 + 1, some (e.2.1, st)),
              s)).2.Canonical
    split
    next ue s1 hs =>
    have h1 : s1.Canonical := by
      cases src with
      | none =>
        cases hs
        exact h
      | some a => exact h.ddrCheck.of_snd (Prod.ext rfl (Prod.mk.inj hs).2)
    extract_lets img
    split
    next st written s2 hw =>
    have h2 : s2.Canonical := by
      refine State.Canonical.of_snd_snd (.ite_snd_snd h1 ?_) hw
      split
      next hw => exact h1.rosterWrite.of_snd hw
    split
    next hr => exact (ih h2).of_snd hr

theorem execMbRoster_canonical {src heads} (h : s.Canonical) :
    ResCanonical (execMbRoster src heads s) := by
  refine .next ?_
  refine h.serve fun _ h1 => ?_
  split
  · exact h1.replyRefused
  · split
    · exact h1
    · dsimp only
      split
      · exact h1.rosterFrom.reply
      · exact (State.Canonical.ite_snd h1.rosterFrom.draw h1.rosterFrom).reply

theorem State.Canonical.lanyWrite {a v} (h : s.Canonical) : (s.lanyWrite a v).Canonical :=
  h.guarded (fun h1 => h1.plain)

theorem execMbKey_canonical {op slot arg mask label gen bufIn bufOut ctx} (h : s.Canonical) :
    ResCanonical (execMbKey op slot arg mask label gen bufIn bufOut ctx s) :=
  .next (h.serve (fun _ h1 => .ite h1
    (.ite h1.replyRefused (h1.foldl fun _ h2 => h2.lanyWrite).plain.keyCmd.endJob.irq.reply)))

theorem execMbLifeCycle_canonical {chal req target good} (h : s.Canonical) :
    ResCanonical (execMbLifeCycle chal req target good s) :=
  .next (h.serve (fun _ h1 => .ite h1.replyRefused h1.lcsCtrl.reply))

theorem execMbRootNew_canonical (h : s.Canonical) : ResCanonical (execMbRootNew s) :=
  .next (h.serveWords (fun _ h1 => .ite h1.reply (.ite h1.replyRefused h1.lcsCtrl.reply)))

theorem execMbOtpProgram_canonical {slot hash} (h : s.Canonical) :
    ResCanonical (execMbOtpProgram slot hash s) :=
  .next (h.serve (fun _ h1 => .ite h1.reply
    (.ite h1.replyRefused (h1.foldl fun _ h2 => h2.lanyWrite).otpCmd.reply)))

theorem execMbDomain_canonical (h : s.Canonical) : ResCanonical (execMbDomain s) :=
  .next (h.serveWords (fun _ h1 => .ite h1.reply (.ite h1.reply h1.lanyEvent.mailBegun.pwrDom)))

theorem execMbHealth_canonical (h : s.Canonical) : ResCanonical (execMbHealth s) :=
  .next (h.serveWords (fun _ h1 => h1.reply))

theorem execMbWdogSet_canonical (h : s.Canonical) : ResCanonical (execMbWdogSet s) :=
  .next (h.serveWords (fun _ h1 => .ite h1.reply
    (.ite h1.reply (h1.guarded (fun h2 => h2.plain)).hostCfg.reply)))

/-! The functions of `Sys2Proof/Machine/Recorder.lean`. -/

theorem State.Canonical.evrSubmit {q v} (h : s.Canonical) : (s.evrSubmit q v).Canonical :=
  h.guarded (fun h1 => .ite h1 h1.event)

theorem execEvrSubmit_canonical {q args src code} (h : s.Canonical) :
    ResCanonical (execEvrSubmit q args src code s) :=
  .next h.evrSubmit

theorem execEvrCellPop_canonical {n} (h : s.Canonical) : ResCanonical (execEvrCellPop n s) := by
  refine .next ?_
  split
  · exact h
  · split
    · rename_i heq
      exact h.pop.of_snd heq
    · rename_i heq
      exact .ite (h.pop.of_snd heq).bump (h.pop.of_snd heq).event

theorem State.Canonical.spoiled (h : s.Canonical) : s.spoiled.2.Canonical := by
  unfold State.spoiled
  split
  next hd => exact h.drawN.of_snd hd

theorem State.Canonical.bufRead (h : s.Canonical) : s.bufRead.2.Canonical :=
  .ite h.inject.cause (.ite h.inject.cause h.inject)

theorem State.Canonical.writeRecord {r bad} (h : s.Canonical) : (s.writeRecord r bad).Canonical :=
  .ite h.bufRead.spoiled.framPut h.bufRead.framPut

theorem State.Canonical.evrWrite {l} (h : s.Canonical) : (s.evrWrite l).Canonical :=
  .ite h (.ite (h.keep.foldl fun _ h1 => h1.writeRecord).spoiled.framPut (h.keep.foldl fun _ h1 =>
    h1.writeRecord).framPut)

theorem execEvrFlush_canonical {bad} (h : s.Canonical) : ResCanonical (execEvrFlush bad s) :=
  .next h.evrWrite

theorem State.Canonical.evrDone (h : s.Canonical) : s.evrDone.Canonical := by
  unfold State.evrDone
  extract_lets e s1 s2 left s3 s4
  have h2 : s2.Canonical := .ite h.wr.cause h.wr
  have h4 : s4.Canonical := (State.Canonical.withEvr h2).putBit.irq
  exact .ite h (.ite h4.flushStart h4)

theorem execEvrFlushDone_canonical (h : s.Canonical) : ResCanonical (execEvrFlushDone s) :=
  .next h.evrDone

theorem State.Canonical.flushNow (h : s.Canonical) : s.flushNow.Canonical :=
  h.flushStart.evrWrite.evrDone.evrWrite.evrDone

theorem execEvrFlushTimer_canonical {t} (h : s.Canonical) : ResCanonical (execEvrFlushTimer t s) :=
  .next (.ite h.at h.at.flushStart)

theorem State.Canonical.evrCtrl {q v} (h : s.Canonical) : (s.evrCtrl q v).Canonical :=
  h.guarded (fun h1 => .ite h1.flushStart h1)

theorem execEvrFlushRequest_canonical {q} (h : s.Canonical) :
    ResCanonical (execEvrFlushRequest q s) :=
  .next h.evrCtrl

theorem State.Canonical.evrFrom {seq opsec pcyc copy} (h : s.Canonical) :
    (s.evrFrom seq opsec pcyc copy).Canonical :=
  .ite h.wr.wr.wr.wr.keep.setTimer.putBit.cause h.wr.wr.wr.wr.keep.setTimer

theorem State.Canonical.evrRestore (h : s.Canonical) : s.evrRestore.Canonical := by
  unfold State.evrRestore
  split
  · exact h
  · dsimp only
    split
    · exact h.evrFrom.event
    · split
      · exact h.evrFrom.event.event
      · exact h.evrFrom.event

theorem execEvrRestore_canonical (h : s.Canonical) : ResCanonical (execEvrRestore s) :=
  .next h.evrRestore

theorem State.Canonical.evrAnswer {result l} (h : s.Canonical) : (s.evrAnswer result l).Canonical :=
  (h.foldl fun _ h1 => h1.wr).wr

theorem State.Canonical.evrFind {q} (h : s.Canonical) : (s.evrFind q).Canonical := by
  unfold State.evrFind
  dsimp only
  split
  · exact h.evrAnswer
  · split
    · exact h.evrAnswer
    · split
      · exact .ite h.bufRead.evrAnswer h.bufRead.evrAnswer
      · exact .ite h.evrAnswer (.ite h.evrAnswer (.ite h.evrAnswer h.evrAnswer))

theorem State.Canonical.evrRead {q v} (h : s.Canonical) : (s.evrRead q v).Canonical :=
  h.guarded (fun h1 => .ite h1.evrFind.keep h1)

theorem execEvrRead_canonical {q} (h : s.Canonical) : ResCanonical (execEvrRead q s) :=
  .next h.evrRead

theorem execOpsecTick_canonical {t} (h : s.Canonical) : ResCanonical (execOpsecTick t s) :=
  .next (.ite h.at h.at.bumpMod.setTimer)

/-! The functions of `Sys2Proof/Machine/Reserve.lean`. -/

theorem State.Canonical.reserve {a r} (h : s.Canonical) : (s.reserve a r).Canonical := h.framPut

/-! The functions of `Sys2Proof/Machine/Mac.lean`. -/

theorem State.Canonical.macCount {m i} (h : s.Canonical) : (s.macCount m i).Canonical := h.bumpBk

theorem State.Canonical.spiSend {n code data answer} (h : s.Canonical) :
    (s.spiSend n code data answer).Canonical :=
  h.keep

theorem State.Canonical.radioSetup {n} (h : s.Canonical) : (s.radioSetup n).Canonical :=
  h.spiSend.spiSend

theorem State.Canonical.xcvrUp {n b} (h : s.Canonical) : (s.xcvrUp n b).Canonical :=
  .ite h h.putBit.irq

theorem State.Canonical.macKey {m k} (h : s.Canonical) : (s.macKey m k).2.Canonical := by
  unfold State.macKey
  extract_lets a i e s1 u r
  have h1 : s1.Canonical := h.readSlot
  clear_value s1
  refine .ite_snd h ?_
  split
  · exact h
  · cases u with
    | some st => exact h1.afterUse
    | none => exact h1.keep

theorem State.Canonical.endMsg {m x status tries lqi} (h : s.Canonical) :
    (s.endMsg m x status tries lqi).Canonical := by
  unfold State.endMsg
  extract_lets s1 p
  have h1 : s1.Canonical := .ite h.macCount (.ite h.macCount (.ite h.macCount (.ite h.macCount h)))
  split
  · exact h1
  · exact h1.setPort7

theorem State.Canonical.setStatus {m l} (h : s.Canonical) : (s.setStatus m l).Canonical :=
  .ite h.setPort7 h.keep

theorem execTxStatusCell_canonical {m} (h : s.Canonical) : ResCanonical (execTxStatusCell m s) := by
  refine .next ?_
  split
  · exact h
  · split
    · exact h
    · exact .ite h h.setStatus.offer

theorem State.Canonical.framFail {m} (h : s.Canonical) : (s.framFail m).Canonical := h.cause

theorem State.Canonical.ctrExhaust {m} (h : s.Canonical) : (s.ctrExhaust m).Canonical := h.cause.irq

theorem State.Canonical.txctrStart {m} (h : s.Canonical) : (s.txctrStart m).Canonical :=
  .ite h.wr.wr.setPort7.ctrExhaust h.wr.wr.setPort7

theorem State.Canonical.takeCtr {m} (h : s.Canonical) : (s.takeCtr m).2.Canonical :=
  .ite h.wr.ctrExhaust h.wr

theorem execCounterImageFlush_canonical {m ok} (h : s.Canonical) :
    ResCanonical (execCounterImageFlush m ok s) := by
  refine .next (.ite h ?_)
  extract_lets s1 s2
  have h2 : s2.Canonical := (h.foldl fun _ h => h.framPut).setPort7
  exact .ite h2 h2.framFail

theorem State.Canonical.setNb {m i n} (h : s.Canonical) : (s.setNb m i n).Canonical := h.setPort7

theorem State.Canonical.nbRead {m i} (h : s.Canonical) : (s.nbRead m i).Canonical :=
  .ite h.inject.cause (.ite h.inject.setNb.cause h.inject)

theorem State.Canonical.slotRead {m i} (h : s.Canonical) : (s.slotRead m i).Canonical :=
  .ite h.setNb.cause h

theorem State.Canonical.nbCommit {m i} (h : s.Canonical) : (s.nbCommit m i).Canonical :=
  .ite h.setNb (h.setPort7.foldl fun _ h1 => h1.endMsg).setNb

theorem State.Canonical.nbLoad {m i} (h : s.Canonical) : (s.nbLoad m i).Canonical :=
  h.nbRead.wr.wr.wr64.wr

theorem State.Canonical.nbSel {q m v} (h : s.Canonical) : (s.nbSel q m v).Canonical :=
  h.guarded (fun h1 => .ite h1.plain.nbCommit (.ite h1.plain.nbLoad h1.plain))

theorem execNeighbourCommit_canonical {q m i} (h : s.Canonical) :
    ResCanonical (execNeighbourCommit q m i s) :=
  .next h.nbSel

theorem execNeighbourLoad_canonical {q m i} (h : s.Canonical) :
    ResCanonical (execNeighbourLoad q m i s) :=
  .next h.nbSel

theorem State.Canonical.logStranger {m a secured level lqi} (h : s.Canonical) :
    (s.logStranger m a secured level lqi).Canonical := by
  unfold State.logStranger
  dsimp only
  split
  · exact h.setPort7
  · exact (State.Canonical.ite h.macCount h).setPort7.irq

theorem State.Canonical.macCfg {q p inst v} (h : s.Canonical) : (s.macCfg q p inst v).Canonical :=
  h.guarded (fun h1 => h1.plain)

theorem State.Canonical.chanWrite {q n v} (h : s.Canonical) : (s.chanWrite q n v).Canonical :=
  h.guarded (fun h1 => .ite h1.plain (.ite h1.plain.setPort7 h1.plain.spiSend))

theorem State.Canonical.csmaWrite {q m v} (h : s.Canonical) : (s.csmaWrite q m v).Canonical :=
  h.guarded (fun h1 => .ite h1.plain.putF h1.plain)

theorem State.Canonical.keySlotWrite {q m k v} (h : s.Canonical) :
    (s.keySlotWrite q m k v).Canonical := by
  unfold State.keySlotWrite
  refine h.guarded fun h1 => ?_
  exact State.Canonical.withCopies h1.plain.setPort7

theorem State.Canonical.xreg {q n v data} (h : s.Canonical) : (s.xreg q n v data).Canonical :=
  h.guarded (fun h1 => .ite h1.xregSettle.plain (State.Canonical.ite h1.xregSettle.plain.spiSend
    h1.xregSettle.plain.spiSend).setPort7.putBit)

theorem execXregAccess_canonical {q n write addr data} (h : s.Canonical) :
    ResCanonical (execXregAccess q n write addr data s) :=
  .next h.xreg

/-! The functions of `Sys2Proof/Machine/Qspi.lean`. -/

theorem State.Canonical.norProgram {a l} (h : s.Canonical) : (s.norProgram a l).Canonical :=
  h.setBytes

theorem State.Canonical.norErase {a} (h : s.Canonical) : (s.norErase a).Canonical := h.clearMem

theorem State.Canonical.setQspiBuf {l} (h : s.Canonical) : (s.setQspiBuf l).Canonical :=
  h.foldl fun _ h1 => h1.wr

theorem State.Canonical.qspiEffect {op a len} (h : s.Canonical) :
    (s.qspiEffect op a len).Canonical :=
  .ite h.setQspiBuf (.ite h.norProgram (.ite h.norErase h))

theorem State.Canonical.qspiCmd {q v} (h : s.Canonical) : (s.qspiCmd q v).Canonical := by
  unfold State.qspiCmd
  dsimp only
  split
  · exact h.refuse
  · exact .ite h h.qspiEffect.putBit.keep

theorem execQspiRead_canonical {q} (h : s.Canonical) : ResCanonical (execQspiRead q s) :=
  .next h.qspiCmd

theorem execQspiProgram_canonical {q} (h : s.Canonical) : ResCanonical (execQspiProgram q s) :=
  .next h.qspiCmd

theorem execQspiErase_canonical {q} (h : s.Canonical) : ResCanonical (execQspiErase q s) :=
  .next h.qspiCmd

theorem execQspiCommandDone_canonical {timeout} (h : s.Canonical) :
    ResCanonical (execQspiCommandDone timeout s) :=
  .next (.ite h (.ite h.putBit.keep.cause h.putBit.keep))

/-! The functions of `Sys2Proof/Machine/Settings.lean`. -/

theorem State.Canonical.settingsMirror {a1} (h : s.Canonical) : (s.settingsMirror a1).Canonical :=
  .ite h (h.foldl fun _ h1 => h1.pairSend)

theorem State.Canonical.settingsPut {k l ok} (h : s.Canonical) :
    (s.settingsPut k l ok).Canonical := by
  unfold State.settingsPut
  extract_lets a s1
  have h1 : s1.Canonical := h.clearMem
  refine .ite h1.setBytes ?_
  split
  next hd => exact (h1.drawN.of_snd hd).setBytes

theorem State.Canonical.settingsWrite {x ok} (h : s.Canonical) :
    (s.settingsWrite x ok).Canonical := by
  unfold State.settingsWrite
  split
  exact h.withSettings.settingsPut.settingsMirror

theorem State.Canonical.restoreOne {e} (h : s.Canonical) : (s.restoreOne e).Canonical :=
  .ite h h.renewSlot

theorem State.Canonical.catalogueRestore (h : s.Canonical) : s.catalogueRestore.Canonical := by
  unfold State.catalogueRestore
  refine .ite h (.ite (h.foldl fun _ h1 => h1.restoreOne) ?_)
  split
  next hd => exact (State.Canonical.withCatalogue (h.drawN.of_snd hd)).lanyEvent

theorem execCatalogueRestore_canonical (h : s.Canonical) : ResCanonical (execCatalogueRestore s) :=
  .next h.catalogueRestore

theorem State.Canonical.settingsWord {a1 a} (h : s.Canonical) : (s.settingsWord a1 a).Canonical :=
  .ite h h.wr

theorem State.Canonical.settingsApply {x} (h : s.Canonical) : (s.settingsApply x).Canonical := by
  unfold State.settingsApply
  extract_lets keys s1 bkeys s2 skeys s3
  have h1 : s1.Canonical := h.foldl fun _ h => h.settingsWord
  have h2 : s2.Canonical := h1.foldl fun _ h => .ite h.setBk h
  have h3 : s3.Canonical := .ite (h2.foldl fun _ h => h.applySource) h2
  exact .ite (h3.foldl fun _ h => h.setPort7) h3

theorem State.Canonical.settingsReset (h : s.Canonical) : s.settingsReset.Canonical :=
  h.settingsApply.settingsWrite.lanyEvent

/-! The functions of `Sys2Proof/Machine/Update.lean`. -/

theorem State.Canonical.journalAdd {kind step sector version rollback} (h : s.Canonical) :
    (s.journalAdd kind step sector version rollback).Canonical := by
  unfold State.journalAdd
  exact .ite h h.norProgram

theorem State.Canonical.resPut {kind off l fail} (h : s.Canonical) :
    (s.resPut kind off l fail).Canonical :=
  .ite h.drawN.framPut.cause h.framPut

theorem State.Canonical.setResBit {kind off i v fail} (h : s.Canonical) :
    (s.setResBit kind off i v fail).Canonical :=
  h.resPut

theorem State.Canonical.setResumeSt {kind st fail} (h : s.Canonical) :
    (s.setResumeSt kind st fail).Canonical :=
  h.resPut

theorem State.Canonical.updCount {i} (h : s.Canonical) : (s.updCount i).Canonical := h.bumpBk

theorem State.Canonical.manifestAccept {kind m framFail} (h : s.Canonical) :
    (s.manifestAccept kind m framFail).Canonical :=
  (State.Canonical.ite h.journalAdd h).resPut.norErase.norProgram.lanyEvent

theorem State.Canonical.manifestPiece {p framFail} (h : s.Canonical) :
    (s.manifestPiece p framFail).2.Canonical := by
  unfold State.manifestPiece
  extract_lets old x x' rest s1 l s2 m c
  have h1 : s1.Canonical := h.updCount
  have h2 : s2.Canonical := h1.withLany
  exact .ite_snd h.updCount (.ite_snd h1.withLany (.ite_snd h2.manifestAccept h2.lanyEvent))

theorem State.Canonical.transferEnd {kind framFail} (h : s.Canonical) :
    (s.transferEnd kind framFail).Canonical :=
  (State.Canonical.ite h h.setResumeSt.journalAdd.irq).lanyEvent

theorem State.Canonical.groupHeld {kind g framFail} (h : s.Canonical) :
    (s.groupHeld kind g framFail).Canonical :=
  .ite (.ite h.setResBit.transferEnd h.setResBit) h.resPut.setResBit.updCount.lanyEvent.cause.irq

theorem State.Canonical.pieceStore {p norFail framFail} (h : s.Canonical) :
    (s.pieceStore p norFail framFail).Canonical := by
  unfold State.pieceStore
  extract_lets k g base s1 s2 n
  have h1 : s1.Canonical := .ite h h.norErase.setResBit
  have h2 : s2.Canonical := h1.norProgram.setResBit.updCount
  refine .ite ?_ (.ite h2.groupHeld h2)
  split
  next hd => exact (h1.drawN.of_snd hd).setBytes.cause

theorem State.Canonical.takePiece {l norFail framFail} (h : s.Canonical) :
    (s.takePiece l norFail framFail).2.Canonical := by
  unfold State.takePiece
  split
  · exact h.updCount
  · exact .ite_snd h.manifestPiece (.ite_snd h.updCount (.ite_snd h.updCount h.pieceStore))

theorem execUpdatePiece_canonical {norFail framFail} (h : s.Canonical) :
    ResCanonical (execUpdatePiece norFail framFail s) :=
  .next (h.serve (fun _ h1 => .ite h1.takePiece.reply (.ite h1.takePiece.replyRefused
    h1.takePiece.reply)))

theorem State.Canonical.lanyCell {n c known norFail framFail} (h : s.Canonical) :
    (s.lanyCell n c known norFail framFail).Canonical := by
  unfold State.lanyCell
  extract_lets skip take s1 s2
  have skip_canonical {on} {u : State} (h : u.Canonical) : (skip on u).Canonical := h.keep
  have take_canonical {l} {u : State} (h : u.Canonical) : (take l u).Canonical :=
    .ite (.ite h.setBegun.updCount h.setBegun.takePiece) h.setBegun
  have h1 : s1.Canonical := skip_canonical h.setBegun
  have h2 : s2.Canonical := .ite h1 h1.lanyEvent
  exact .ite (.ite (skip_canonical h) h) (.ite (take_canonical h) (.ite (take_canonical h1)
    (.ite h2 (skip_canonical h2))))

theorem execLanyardSplicePop_canonical {n known norFail framFail} (h : s.Canonical) :
    ResCanonical (execLanyardSplicePop n known norFail framFail s) := by
  refine .next ?_
  split
  · exact h
  · split
    · rename_i heq
      exact h.pop.of_snd heq
    · rename_i heq
      exact (h.pop.of_snd heq).lanyCell

theorem execUpdateStatus_canonical {kind} (h : s.Canonical) :
    ResCanonical (execUpdateStatus kind s) :=
  .next (h.serve (fun _ h1 => h1.reply))

theorem execUpdateActivate_canonical (h : s.Canonical) : ResCanonical (execUpdateActivate s) :=
  .next (h.serve (fun _ h1 => h1.reply.flushNow.rstCtrl))

theorem State.Canonical.storeImage {l places} (h : s.Canonical) {x} (hx : s.storeImage l places =
    some x) : x.2.Canonical := by
  induction l generalizing s places with
  | nil =>
    cases hx
    exact h
  | cons d l ih =>
    unfold State.storeImage at hx
    split at hx
    · cases hx
    · next ho =>
      obtain ⟨t, -, ht⟩ := List.exists_of_findSome?_eq_some ho
      exact ih (h.openLog ht).writePage hx

theorem execUpdateImageStore_canonical {slot framFail} (h : s.Canonical) :
    ResCanonical (execUpdateImageStore slot framFail s) := by
  refine .next (h.serve fun _ h1 => .ite h1.replyRefused ?_)
  extract_lets m
  split
  · exact h1.replyRefused
  · next hi => exact (State.Canonical.withImages (h1.storeImage hi)).setResumeSt.reply

theorem execSettingsSave_canonical {ok} (h : s.Canonical) : ResCanonical (execSettingsSave ok s) :=
  .next (h.serve (fun _ h1 => .ite h1.settingsWrite.reply h1.settingsWrite.replyRefused))

theorem execSettingsDefaults_canonical (h : s.Canonical) : ResCanonical (execSettingsDefaults s) :=
  .next (h.serve (fun _ h1 => h1.settingsReset.reply))

/-! The functions of `Sys2Proof/Machine/Campaign.lean`. -/

theorem State.Canonical.setCamp {k c} (h : s.Canonical) : (s.setCamp k c).Canonical := h.keep

theorem State.Canonical.imgState {i slot st tries cause missing} (h : s.Canonical) :
    (s.imgState i slot st tries cause missing).Canonical :=
  h.setField

theorem State.Canonical.campStep {slot i m} (h : s.Canonical) : (s.campStep slot i m).Canonical :=
  h.imgState

theorem State.Canonical.campEnd {slot ring i m st cause} (h : s.Canonical) :
    (s.campEnd slot ring i m st cause).Canonical :=
  h.imgState.tellHost

theorem State.Canonical.replaced {i} (h : s.Canonical) : (s.replaced i).Canonical := by
  unfold State.replaced
  split
  · exact h
  · refine State.Canonical.setCamp (.getD (fun u hu => ?_) h)
    obtain ⟨m, -, rfl⟩ := Option.map_eq_some_iff.mp hu
    exact h.campEnd

theorem State.Canonical.campJoin {slot ring block len i out answer} (h : s.Canonical) :
    (s.campJoin slot ring block len i out answer).2.Canonical :=
  .ite_snd h.replaced.imgState.toMeter.campEnd h.replaced.imgState.toMeter.toMeter.campStep

theorem execCampaignStart_canonical {cmd slot meters block key rounds gap act ring t}
    (h : s.Canonical) :
    ResCanonical (execCampaignStart cmd slot meters block key rounds gap act ring t s) := by
  refine .next (h.at.hostServe fun h1 => ?_)
  split
  · exact h1
  · refine .ite_snd h1 ?_
    split
    next ms s2 hm =>
    have h2 : s2.Canonical := by
      refine State.Canonical.of_snd (.foldl_snd h1 fun m h2 => ?_) hm
      refine .ite_snd h2 ?_
      split
      · next hj => exact h2.campJoin.of_snd hj
      · next hj => exact h2.campJoin.of_snd hj
    exact .ite h2 h2.keep

theorem State.Canonical.campStatus {c held} (h : s.Canonical) :
    (s.campStatus c held).2.Canonical := by
  unfold State.campStatus
  refine State.Canonical.foldl_snd h fun e h1 => .ite_snd h1 ?_
  dsimp only
  split
  · exact h1.toMeter
  · exact h1.toMeter.campStep

theorem State.Canonical.campDirect {i m took} (h : s.Canonical) :
    (s.campDirect i m took).2.Canonical :=
  h.foldl_snd fun _ h1 => h1.toMeter

theorem State.Canonical.campVerdict {slot ring i m v} (h : s.Canonical) :
    (s.campVerdict slot ring i m v).2.Canonical :=
  .ite_snd h.campStep (.ite_snd h.campStep h.campEnd)

theorem State.Canonical.campFinish {c took verify} (h : s.Canonical) :
    (s.campFinish c took verify).2.Canonical := by
  unfold State.campFinish
  refine State.Canonical.foldl_snd h fun e h1 => ?_
  split
  next hd =>
  have h2 := h1.campDirect.of_snd hd
  refine .ite_snd h2.campEnd ?_
  dsimp only
  split
  · next hv => exact h2.toMeter.campVerdict.of_snd hv
  · next hv => exact h2.toMeter.campVerdict.of_snd hv

theorem State.Canonical.campRound {k c held took verify} (h : s.Canonical) :
    (s.campRound k c held took verify).Canonical :=
  .ite h.campStatus.setCamp h.campStatus.campFinish.setCamp

theorem State.Canonical.broadcastBlock {c out l} (h : s.Canonical) :
    (s.broadcastBlock c out l).Canonical :=
  .ite (h.foldl fun _ h1 => h1.offerAll) h.offerAll

theorem execImageBlockBroadcast_canonical {k out held took verify t} (h : s.Canonical) :
    ResCanonical (execImageBlockBroadcast k out held took verify t s) := by
  refine .next ?_
  split
  · exact h.at
  · dsimp only
    split
    · exact h.at
    · split
      · exact h.at
      · exact .ite h.at.broadcastBlock.campRound h.at.broadcastBlock.setCamp

theorem execImageVerifyPoll_canonical {meter answer t} (h : s.Canonical) :
    ResCanonical (execImageVerifyPoll meter answer t s) := by
  refine .next ?_
  split
  · exact h.at
  · split
    · exact h.at
    · split
      · exact h.at
      · dsimp only
        split
        · rename_i heq
          exact (h.at.toMeter.campVerdict.of_snd heq).setCamp
        · rename_i heq
          exact (h.at.toMeter.campVerdict.of_snd heq).setCamp

theorem execImageActivate_canonical {k answers t} (h : s.Canonical) :
    ResCanonical (execImageActivate k answers t s) := by
  refine .next ?_
  split
  · exact h.at
  · refine .ite h.at (State.Canonical.setCamp (h.at.foldl fun e h1 => ?_))
    dsimp only
    split
    · exact h1.toMeter.campEnd
    · exact h1.toMeter.campEnd
    · exact h1.toMeter.campEnd

/-! The functions of `Sys2Proof/Machine/MacTx.lean`. -/

theorem State.Canonical.backoffFrom {base m r} (h : s.Canonical) :
    (s.backoffFrom base m r).Canonical := by
  unfold State.backoffFrom
  split
  next hw => exact (h.uniform.of_snd hw).setPort7

theorem State.Canonical.backoff {m r} (h : s.Canonical) : (s.backoff m r).Canonical := h.backoffFrom

theorem State.Canonical.access {m r} (h : s.Canonical) : (s.access m r).Canonical := h.backoff

theorem State.Canonical.waitFree {m r len} (h : s.Canonical) : (s.waitFree m r len).Canonical := by
  unfold State.waitFree
  dsimp only
  split
  · exact h.backoffFrom
  · exact h.setPort7

theorem State.Canonical.beaconOver {base} (h : s.Canonical) : (s.beaconOver base).Canonical := by
  unfold State.beaconOver
  refine State.Canonical.foldl h fun _ h1 => ?_
  split
  · exact .ite h1.backoffFrom h1
  · exact h1

theorem State.Canonical.drive {mask air} (h : s.Canonical) : (s.drive mask air).Canonical :=
  h.foldl fun _ h1 => h1.keep

theorem State.Canonical.radiate {b air dst} (h : s.Canonical) : (s.radiate b air dst).Canonical :=
  h.drive.keep.foldl fun _ h1 => h1.send

theorem State.Canonical.extBurst {m r} (h : s.Canonical) : (s.extBurst m r).2.Canonical := by
  unfold State.extBurst
  split
  · exact h
  · exact .ite_snd h (.ite_snd h h.draw)

theorem State.Canonical.frameBurst {m r} (h : s.Canonical) : (s.frameBurst m r).2.Canonical := by
  unfold State.frameBurst
  split
  · rename_i heq
    exact h.extBurst.of_snd heq
  · rename_i heq
    exact h.extBurst.of_snd heq

theorem State.Canonical.buildPart {m r} (h : s.Canonical) : (s.buildPart m r).Canonical := by
  unfold State.buildPart
  extract_lets x p
  refine .ite h.setPort7 ?_
  split
  next hk =>
  have h1 := (State.Canonical.ite_snd h h.macKey).of_snd hk
  split
  next hc =>
  have h2 := (State.Canonical.ite_snd h1 h1.takeCtr).of_snd hc
  split
  exact h2.setPort7.access

theorem State.Canonical.cut {m a2} (h : s.Canonical) : (s.cut m a2).2.Canonical :=
  .ite_snd h h.setPort7

theorem State.Canonical.barred {m a2} (h : s.Canonical) : (s.barred m a2).2.Canonical :=
  .ite_snd h (.ite_snd h h.macKey)

theorem State.Canonical.queueRead {m a2} (h : s.Canonical) : (s.queueRead m a2).2.Canonical :=
  .ite (.ite_snd h h.inject) (State.Canonical.ite_snd h h.inject).cause

theorem State.Canonical.takeNext {fuel m} (h : s.Canonical) :
    (State.takeNext fuel s m).Canonical := by
  induction fuel generalizing s with
  | zero => exact h
  | succ fuel ih =>
    unfold State.takeNext
    extract_lets p next
    cases next with
    | none => exact h
    | some next =>
      obtain ⟨x, pending, p⟩ := next
      dsimp only
      refine .ite (ih h.setPort7.queueRead.endMsg) ?_
      split
      · next hb => exact ih (h.setPort7.queueRead.barred.of_snd hb).endMsg
      · next hb =>
        have h2 := h.setPort7.queueRead.barred.of_snd hb
        split
        · exact .ite (ih h2.cut.buildPart.setPort7.endMsg) h2.cut.buildPart
        · exact h2.cut.buildPart

theorem State.Canonical.nextRun {m} (h : s.Canonical) : (s.nextRun m).Canonical := .ite h h.takeNext

theorem State.Canonical.extOutcome {m r noAck} (h : s.Canonical) :
    (s.extOutcome m r noAck).Canonical := by
  unfold State.extOutcome
  split
  · exact h
  · split
    · exact h
    · exact .ite h.setNb (.ite h.setNb.macCount h.setNb)

theorem State.Canonical.endTx {m r status lqi} (h : s.Canonical) :
    (s.endTx m r status lqi).Canonical :=
  h.extOutcome.endMsg.setPort7.nextRun

theorem State.Canonical.goOn {m r lqi} (h : s.Canonical) : (s.goOn m r lqi).Canonical := by
  unfold State.goOn
  split
  · next hb => exact (h.barred.of_snd hb).endTx
  · next hb =>
    extract_lets s2
    have h2 : s2.Canonical := (h.barred.of_snd hb).buildPart
    split
    · exact .ite h2.endTx h2
    · exact h2

theorem State.Canonical.partDone {m r lqi} (h : s.Canonical) : (s.partDone m r lqi).Canonical := by
  unfold State.partDone
  split
  · exact h.endTx
  · exact h.goOn

theorem State.Canonical.xcvrReset {n} (h : s.Canonical) : (s.xcvrReset n).Canonical := by
  unfold State.xcvrReset
  dsimp only
  split
  · exact .ite h.draw.setPort7.cause.xcvrUp.radioSetup.endTx h.draw.setPort7.cause.xcvrUp.radioSetup
  · exact h.draw.setPort7.cause.xcvrUp.radioSetup

theorem execBackoffExpiry_canonical {m t} (h : s.Canonical) :
    ResCanonical (execBackoffExpiry m t s) := by
  refine .next ?_
  split
  · exact h.at
  · exact .ite h.at (.ite h.at.waitFree (State.Canonical.ite h.at.spiSend h.at).setPort7)

theorem State.Canonical.onAir {m dst l} (h : s.Canonical) : (s.onAir m dst l).Canonical :=
  h.send.spiSend.spiSend

theorem State.Canonical.sendAck {m a} (h : s.Canonical) : (s.sendAck m a).Canonical := by
  unfold State.sendAck
  refine .ite h ?_
  extract_lets mac s1 n l air s2 mac2 s3
  have h1 : s1.Canonical := h.setPort7
  have h2 : s2.Canonical := .ite h1.onAir h1.radiate
  have h3 : s3.Canonical := h2.setPort7
  refine .ite h1 ?_
  split
  · exact h3
  · exact h3.setNb

theorem execMacAckSend_canonical {m t} (h : s.Canonical) : ResCanonical (execMacAckSend m t s) := by
  refine .next ?_
  split
  · exact h.at
  · split
    · exact h.at
    · exact h.at.sendAck

theorem State.Canonical.sendingNow {m r} (h : s.Canonical) : (s.sendingNow m r).Canonical :=
  h.setPort7

theorem State.Canonical.transmit {m r} (h : s.Canonical) : (s.transmit m r).Canonical :=
  h.onAir.sendingNow

theorem State.Canonical.transmitPlc {m r b air} (h : s.Canonical) :
    (s.transmitPlc m r b air).Canonical :=
  (State.Canonical.ite h.macCount h).radiate.sendingNow

theorem State.Canonical.busyTest {m r} (h : s.Canonical) : (s.busyTest m r).Canonical :=
  .ite h.endTx h.backoff

theorem State.Canonical.plcTest {m r busy} (h : s.Canonical) : (s.plcTest m r busy).Canonical := by
  unfold State.plcTest
  extract_lets s1
  have h1 : s1.Canonical := by
    unfold s1
    split
    · exact h.slotRead
    · exact h
  split
  next hf =>
  have h2 := h1.frameBurst.of_snd hf
  exact .ite h2.endTx (.ite h2.busyTest (.ite h2.waitFree h2.transmitPlc))

theorem execCcaResult_canonical {m energy busy t} (h : s.Canonical) :
    ResCanonical (execCcaResult m energy busy t s) := by
  refine .next ?_
  split
  · exact h.at
  · split
    · exact h.at
    · split
      · exact h.at.setPort7
      · split
        · exact h.at.sendAck.setPort7
        · exact .ite (.ite h.at.transmit h.at.busyTest) h.at.plcTest

theorem State.Canonical.chanSet {m} (h : s.Canonical) : (s.chanSet m).Canonical :=
  .ite h.setPort7.spiSend h

theorem execTxDone_canonical {m t} (h : s.Canonical) : ResCanonical (execTxDone m t s) := by
  refine .next ?_
  split
  · exact h.at.setPort7.chanSet
  · split
    · exact h.at
    · exact .ite h.at (.ite h.at.chanSet.setPort7 h.at.chanSet.partDone)

theorem execAckWaitTimeout_canonical {m t} (h : s.Canonical) :
    ResCanonical (execAckWaitTimeout m t s) := by
  refine .next ?_
  split
  · exact h.at
  · exact .ite h.at (.ite h.at.access h.at.endTx)

theorem execTxDoneTimeout_canonical {n t} (h : s.Canonical) :
    ResCanonical (execTxDoneTimeout n t s) :=
  .next (.ite h.at.xcvrReset h.at)

theorem execCcaTimeout_canonical {n t} (h : s.Canonical) : ResCanonical (execCcaTimeout n t s) :=
  .next (.ite h.at.xcvrReset h.at)

theorem execTransceiverIrq_canonical {n cause low} (h : s.Canonical) :
    ResCanonical (execTransceiverIrq n cause low s) :=
  .next (.ite h (.ite h.spiSend.xcvrUp.xcvrReset h.spiSend.xcvrUp))

theorem execTimeStrobe_canonical {n t} (h : s.Canonical) : ResCanonical (execTimeStrobe n t s) :=
  .next (.ite h.at (.ite h.at.setPort7 h.at.setPort7))

theorem State.Canonical.radioEnable {q n v} (h : s.Canonical) : (s.radioEnable q n v).Canonical :=
  h.guarded (fun h1 => .ite h1 (.ite h1.putBit.setPort7.txctrStart.radioSetup.reseed
    h1.putBit.setPort7.xcvrUp))

theorem execRadioEnable_canonical {q n} (h : s.Canonical) : ResCanonical (execRadioEnable q n s) :=
  .next h.radioEnable

theorem State.Canonical.txresUse {m r} (h : s.Canonical) : (s.txresUse m r).Canonical := by
  unfold State.txresUse
  dsimp only
  refine State.Canonical.foldl h.wr fun _ h1 => ?_
  split
  · exact .ite h1.goOn h1
  · exact h1

theorem State.Canonical.txctrRst {q m v} (h : s.Canonical) : (s.txctrRst q m v).Canonical :=
  h.guarded (fun h1 => .ite h1 h1.wr.framPut.framPut.setPort7.txresUse)

theorem execTxctrReset_canonical {q m} (h : s.Canonical) : ResCanonical (execTxctrReset q m s) :=
  .next h.txctrRst

theorem execTxctrReserve_canonical {m fails} (h : s.Canonical) :
    ResCanonical (execTxctrReserve m fails s) :=
  .next (.ite h (.ite h.framFail.setPort7 (.ite h.reserve.limitSend h.reserve.txresUse)))

theorem execMacReseed_canonical {m} (h : s.Canonical) : ResCanonical (execMacReseed m s) :=
  .next (.ite h.reseed h)

theorem State.Canonical.refuseMsg {m n c status} (h : s.Canonical) :
    (s.refuseMsg m n c status).Canonical :=
  h.endMsg

theorem State.Canonical.txTake {m n l} (h : s.Canonical) : (s.txTake m n l).Canonical := by
  unfold State.txTake
  split
  · exact h
  · refine .ite h.refuseMsg ?_
    split
    · exact h.refuseMsg
    · extract_lets data x e s1
      have h1 : s1.Canonical := .ite h h.nbRead
      refine .ite h.refuseMsg (.ite h.endMsg ?_)
      split
      next hk =>
      have h2 := (State.Canonical.ite_snd h1 h1.macKey).of_snd hk
      exact .ite h2.endMsg (.ite h2.endMsg (.ite (.ite h2.endMsg h2.setPort7) h2.setPort7.nextRun))

theorem execTransmitMessage_canonical {n t} (h : s.Canonical) :
    ResCanonical (execTransmitMessage n t s) := by
  refine .next (.ite h.at ?_)
  split
  · exact h.at
  · refine .ite h.at (.ite h.at ?_)
    split
    next hm =>
    have h1 := h.at.takeMessage.of_snd_snd hm
    split
    · exact h1.refuseMsg
    · exact .ite h1.refuseMsg h1.txTake
    · exact h1

theorem execIndirectExpiry_canonical {n t} (h : s.Canonical) :
    ResCanonical (execIndirectExpiry n t s) :=
  .next (.ite h.at (h.at.setPort7.foldl fun _ h1 => h1.endMsg))

/-! The functions of `Sys2Proof/Machine/MacRx.lean`. -/

theorem State.Canonical.labelNb {m i crossing} (h : s.Canonical) :
    (s.labelNb m i crossing).Canonical := by
  unfold State.labelNb
  split
  · exact h
  · exact .ite h.setNb.irq h.setNb

theorem State.Canonical.labelStranger {m a crossing} (h : s.Canonical) :
    (s.labelStranger m a crossing).Canonical := by
  unfold State.labelStranger
  split
  · exact h
  · exact h.setPort7

theorem State.Canonical.fieldAdmit {m f stamp ext short code data mgmt} (h : s.Canonical) :
    (s.fieldAdmit m f stamp ext short code data mgmt).2.Canonical := by
  unfold State.fieldAdmit
  split
  · exact h.takeUnit
  · exact h

theorem State.Canonical.takeFragment {m sender size tag off l} (h : s.Canonical) :
    (s.takeFragment m sender size tag off l).2.Canonical :=
  .ite_snd h.setPort7.macCount.cause (.ite_snd h (.ite_snd h.setPort7.macCount h.setPort7))

theorem State.Canonical.freeReasm {m sender size tag} (h : s.Canonical) :
    (s.freeReasm m sender size tag).Canonical :=
  h.setPort7

theorem execReassemblyTimeout_canonical {m t} (h : s.Canonical) :
    ResCanonical (execReassemblyTimeout m t s) :=
  .next (.ite h.at (h.at.setPort7.foldl fun _ h1 => h1.macCount))

theorem State.Canonical.owe {m i f pending ctr} (h : s.Canonical) :
    (s.owe m i f pending ctr).Canonical :=
  .ite h h.setPort7

theorem State.Canonical.accept {m i f pending} (h : s.Canonical) :
    (s.accept m i f pending).Canonical :=
  .ite h.owe h.setNb

theorem State.Canonical.dataRequest {n i f} (h : s.Canonical) :
    (s.dataRequest n i f).Canonical := by
  unfold State.dataRequest
  dsimp only
  split
  · exact h.accept
  · exact .ite h.accept h.accept.setPort7.nextRun

theorem State.Canonical.tell {m a} (h : s.Canonical) : (s.tell m a).Canonical := by
  unfold State.tell
  split
  · exact h.macCount
  · exact h

theorem State.Canonical.strangerFrame {m f stamp} (h : s.Canonical) :
    (s.strangerFrame m f stamp).Canonical := by
  unfold State.strangerFrame
  extract_lets s1 join mesh x code ext short sender
  have h1 : s1.Canonical := h.macCount.logStranger
  refine .ite h1 (.ite h1.macCount ?_)
  split
  · split
    next ha => exact (h1.fieldAdmit.of_snd ha).tell
  · split
    · next ht =>
      have h2 := h1.takeFragment.of_snd ht
      split
      next ha =>
      extract_lets s3
      have h3 : s3.Canonical := (h2.fieldAdmit.of_snd ha).tell
      split
      · exact h3.freeReasm
      · exact h3
    · next ht => exact h1.takeFragment.of_snd ht

theorem State.Canonical.nbAdmit {m i f stamp data mgmt} (h : s.Canonical) :
    (s.nbAdmit m i f stamp data mgmt).2.Canonical :=
  h.fieldAdmit.tell

theorem State.Canonical.passUp {m i f stamp data mgmt} (h : s.Canonical) :
    (s.passUp m i f stamp data mgmt).2.Canonical :=
  .ite h.nbAdmit.accept h.nbAdmit

theorem State.Canonical.ownCommand {m n body} (h : s.Canonical) :
    (s.ownCommand m n body).Canonical :=
  h.setPort7

theorem State.Canonical.freshFrame {m i f stamp l} (h : s.Canonical) :
    (s.freshFrame m i f stamp l).Canonical := by
  unfold State.freshFrame
  extract_lets mesh s1 nb
  have h1 : s1.Canonical := h.macCount
  refine .ite (.ite h1 h1.passUp) (.ite
    (.ite h1.dataRequest (.ite ?_ (.ite h1.setNb.accept h1.passUp))) (.ite h1.passUp ?_))
  · split
    · exact h1.setNb.accept
    · exact h1.macCount
  · split
    · exact h1.passUp
    · split
      · next ht => exact h1.takeFragment.of_snd ht
      · next ht => exact h1.takeFragment.of_snd ht
      · next ht => exact .ite (h1.takeFragment.of_snd ht).accept (h1.takeFragment.of_snd ht)
      · next ht =>
        split
        next ha =>
        have h2 := (h1.takeFragment.of_snd ht).passUp.of_snd ha
        split
        · exact h2.freeReasm
        · exact h2

theorem State.Canonical.replayCheck {m i f stamp l} (h : s.Canonical) :
    (s.replayCheck m i f stamp l).Canonical :=
  .ite h.macCount (.ite h.freshFrame (.ite h.owe.macCount h.macCount))

theorem State.Canonical.neighbourFrame {m i f stamp} (h : s.Canonical) :
    (s.neighbourFrame m i f stamp).Canonical := by
  unfold State.neighbourFrame
  extract_lets n s1 level s2 s3
  have h2 : s2.Canonical := .ite h.setNb.slotRead.setNb h.setNb
  have h3 : s3.Canonical := h2.nbRead
  refine .ite h3.macCount (.ite h3.nbAdmit (.ite h3.macCount ?_))
  split
  · exact h3.macCount
  · refine .ite h3.macCount ?_
    split
    next hk =>
    have h4 := h3.macKey.of_snd hk
    split
    · exact h4.macCount
    · split
      · exact h4.macCount
      · extract_lets s5
        have h5 : s5.Canonical := .replayCheck (.ite h4.macCount h4)
        exact .ite h5.ownCommand.nextRun h5

theorem State.Canonical.ackRead {m num lqi} (h : s.Canonical) :
    (s.ackRead m num lqi).Canonical := by
  unfold State.ackRead
  split
  · split
    · exact .ite h.partDone h
    · exact h
  · split
    · split
      · exact h.partDone
      · exact h
    · exact h

theorem State.Canonical.relabelled {m f} (h : s.Canonical) : (s.relabelled m f).Canonical := by
  unfold State.relabelled
  split
  · exact h
  · split
    · exact h.labelNb
    · exact h.labelStranger

theorem State.Canonical.routed {m f stamp} (h : s.Canonical) : (s.routed m f stamp).Canonical := by
  unfold State.routed
  split
  · exact .ite h.macCount (.ite h.macCount h.strangerFrame)
  · split
    · exact .ite h.setNb.macCount h.neighbourFrame
    · exact h.neighbourFrame

theorem State.Canonical.frameStamp {m} (h : s.Canonical) : (s.frameStamp m).2.Canonical := by
  unfold State.frameStamp
  dsimp only
  split
  · exact h
  · split
    · exact .ite_snd h.setPort7 h.setPort7.macCount
    · exact h.macCount

theorem State.Canonical.agcStep {m} (h : s.Canonical) : (s.agcStep m).Canonical := h.draw.keep

theorem State.Canonical.frameTake {m f stamp} (h : s.Canonical) :
    (s.frameTake m f stamp).Canonical := by
  unfold State.frameTake
  split
  · exact .ite h.macCount h.ackRead
  · exact h.macCount
  · split
    · exact h.ackRead
    · dsimp only
      split
      · exact h.relabelled
      · exact h.relabelled.macCount
      · exact h.relabelled.routed

theorem execFieldFrameReceived_canonical {m f t} (h : s.Canonical) :
    ResCanonical (execFieldFrameReceived m f t s) := by
  refine .next (.ite h.at ?_)
  extract_lets s1
  have h1 : s1.Canonical := .ite h.at.spiSend h.at.agcStep
  exact .ite h1.xcvrReset (.ite h1.frameStamp.frameTake h1.frameStamp.macCount)

/-! The functions of `Sys2Proof/Machine/Plc.lean`. -/

theorem State.Canonical.mainsUpdate (h : s.Canonical) : s.mainsUpdate.Canonical :=
  (State.Canonical.ite h.keep h.keep.keep).putBit.wr

theorem State.Canonical.setZc {n b} (h : s.Canonical) : (s.setZc n b).Canonical :=
  .ite h h.putBit.irq

theorem State.Canonical.setLost {n b} (h : s.Canonical) : (s.setLost n b).Canonical := h.keep

theorem State.Canonical.zcLost {n} (h : s.Canonical) : (s.zcLost n).Canonical :=
  .ite h.keep h.keep.setZc.setLost.cause.lanyEvent.mainsUpdate

theorem execZeroCrossingEdge_canonical {phase t} (h : s.Canonical) :
    ResCanonical (execZeroCrossingEdge phase t s) :=
  .next (.ite h.at (.ite h.at.keep (.ite h.at.keep.zcLost
    (State.Canonical.ite h.at.keep.keep.setZc.setLost h.at.keep.keep).mainsUpdate)))

theorem execZeroCrossingLoss_canonical {phase t} (h : s.Canonical) :
    ResCanonical (execZeroCrossingLoss phase t s) :=
  .next (.ite h.at.zcLost h.at)

theorem State.Canonical.beacon (h : s.Canonical) : s.beacon.Canonical := by
  unfold State.beacon
  extract_lets p0 s0 bseq s1 s2 starting
  have h1 : s1.Canonical := h.withPlc.putF
  have h2 : s2.Canonical := .ite h1 h1.cause
  split
  next hw =>
  have h3 := h2.draw.of_snd hw
  extract_lets seed left p hdr body
  split
  next hk =>
  have h4 := h3.macKey.of_snd hk
  split
  next hf =>
  have h5 := h4.draw.of_snd hf
  exact (State.Canonical.withPlc h5.setPort7).radiate.beaconOver

theorem execBeaconSend_canonical {receiving t} (h : s.Canonical) :
    ResCanonical (execBeaconSend receiving t s) :=
  .next (.ite h.at (.ite h.at.keep.bumpF.beaconOver (.ite h.at h.at.keep.beacon)))

theorem State.Canonical.plcEnable {q v} (h : s.Canonical) : (s.plcEnable q v).Canonical := by
  unfold State.plcEnable
  refine h.guarded fun h1 => .ite h1 (.ite h1.putBit ?_)
  extract_lets s2 start fin p s3
  have h3 : s3.Canonical := .withPlc h1.putBit.txctrStart.reseed
  exact .ite h3.putBit.irq h3.putBit

theorem State.Canonical.phEnable {q m v} (h : s.Canonical) : (s.phEnable q m v).Canonical :=
  h.guarded (fun h1 => h1.putBit)

theorem State.Canonical.plcSlot {q v} (h : s.Canonical) : (s.plcSlot q v).Canonical := by
  unfold State.plcSlot
  refine h.guarded fun h1 => ?_
  exact .ite h1.plain h1.plain.putF

theorem execPlcStartupEnd_canonical {t} (h : s.Canonical) :
    ResCanonical (execPlcStartupEnd t s) := by
  refine .next ?_
  split
  · exact h.at
  · exact .ite h.at (h.at.keep.putBit.irq.foldl fun _ h1 => h1.nextRun)

theorem execSlotTmrSend_canonical {phase i t} (h : s.Canonical) :
    ResCanonical (execSlotTmrSend phase i t s) :=
  .next (.ite (State.Canonical.ite h.at.slotRead h.at) (State.Canonical.ite h.at.slotRead
    h.at).setNb.ownCommand.nextRun)

/-! The functions of `Sys2Proof/Machine/SoftReset.lean`. -/

theorem State.Canonical.blockOff {p inst} (h : s.Canonical) : (s.blockOff p inst).Canonical := by
  unfold State.blockOff
  split
  · exact h.keep
  · exact h.keep
  · exact h.setStr
  · exact h.setLay
  · exact h.keep
  · exact h.keep
  · exact h.keep
  · exact h.keep
  · exact h.showCopies
  · exact h.keep
  · exact h.keep
  · exact h.keep
  · exact h.keep
  · exact h.keep
  · exact h.keep
  · exact h.keep
  · exact h.tsuStart
  · exact h.keep
  · exact h.keep
  · exact h.keep
  · exact h.setNand
  · exact h

theorem State.Canonical.srstStart {p inst} (h : s.Canonical) : (s.srstStart p inst).Canonical := by
  unfold State.srstStart
  extract_lets kept b bank s1 s2 s3 s4 s5
  have h2 : s2.Canonical := h.softReset.foldl fun _ h1 => h1.wr
  have hbank : canon bankReset bank = true := by
    unfold bank
    split
    · exact (State.canonical_iff.mp h).2.1
    · exact canon_nil _
  have h3 : s3.Canonical := by
    refine .ite ?_ h2
    obtain ⟨hr, -, hm, he⟩ := State.canonical_iff.mp h2
    exact State.canonical_iff.mpr ⟨hr, hbank, hm, he⟩
  have h4 : s4.Canonical := .ite h3.wr h3
  clear_value s4
  have h5 : s5.Canonical := h4.keep
  exact h5.blockOff

theorem State.Canonical.srstDone {p inst ok} (h : s.Canonical) : (s.srstDone p inst ok).Canonical :=
  .ite h (.ite h.putBit.trngStart h.putBit)

/-! The functions of `Sys2Proof/Machine/Faults.lean`. -/

theorem State.Canonical.pinPulse (h : s.Canonical) : s.pinPulse.Canonical := h.keep

theorem State.Canonical.latchFirst {l} (h : s.Canonical) : (s.latchFirst l).Canonical :=
  .ite (State.Canonical.ite h h.wr) (State.Canonical.ite h h.wr).putBit.bumpF

theorem State.Canonical.latchFaults {l forced} (h : s.Canonical) :
    (s.latchFaults l forced).Canonical := by
  unfold State.latchFaults
  extract_lets st s1 mask s2 fc s3 s4 s5 s6 s7
  have h3 : s3.Canonical := h.wr64.latchFirst.putBit.bumpMod.withFc
  have h4 : s4.Canonical := h3.foldl fun _ h => h.event
  have h5 : s5.Canonical := h4.flushStart
  have h6 : s6.Canonical := .ite h5.fire h5
  have h7 : s7.Canonical := .ite h6.enterSafety h6
  exact .ite h7.pinPulse h7

theorem State.Canonical.resetSource {n} (h : s.Canonical) : (s.resetSource n).Canonical :=
  .ite (.ite h.putBit h) (.ite h (h.foldl fun _ h1 => .ite h1 (.ite h1.putBit h1.srstStart)))

theorem State.Canonical.chipRst {a1} (h : s.Canonical) : (s.chipRst a1).Canonical := by
  unfold State.chipRst
  split
  · exact h
  · exact h.event.keep.flushStart

theorem State.Canonical.seqProgress (h : s.Canonical) : s.seqProgress.Canonical := by
  unfold State.seqProgress
  extract_lets extra due s1 f1 s2 s3 f3 s4
  have h2 : s2.Canonical := .ite (.withFc (h.foldl fun _ h1 => h1.resetSource)) h
  have h4 : s4.Canonical := .ite (.withFc h2.chipRst) h2
  exact .ite h (.ite (.withFc h4.putBit) h4)

theorem State.Canonical.sampleLines (h : s.Canonical) : s.sampleLines.Canonical :=
  .ite h.keep h.keep.latchFaults

theorem execFaultLatch_canonical {t} (h : s.Canonical) : ResCanonical (execFaultLatch t s) :=
  .next (.ite h.at (.ite h.at.seqProgress h.at.seqProgress.sampleLines))

theorem execPulseNotLatched_canonical {page a1} (h : s.Canonical) :
    ResCanonical (execPulseNotLatched page a1 s) := by
  refine .next ?_
  split
  · exact h
  · exact .ite h.cause h

theorem State.Canonical.fcStatus {q v} (h : s.Canonical) : (s.fcStatus q v).Canonical :=
  h.guarded (fun h1 => h1.wr64)

theorem execFcStatusClear_canonical {q v} (h : s.Canonical) :
    ResCanonical (execFcStatusClear q v s) :=
  .next h.fcStatus

theorem State.Canonical.fcForce {q v} (h : s.Canonical) : (s.fcForce q v).Canonical :=
  h.guarded (fun h1 => .ite h1.keep h1)

theorem execFcForce_canonical {q source} (h : s.Canonical) :
    ResCanonical (execFcForce q source s) :=
  .next h.fcForce

theorem execErrPinPulseEnd_canonical {t} (h : s.Canonical) :
    ResCanonical (execErrPinPulseEnd t s) :=
  .next (.ite h.at h.at.keep)

theorem State.Canonical.fcPin {q v} (h : s.Canonical) : (s.fcPin q v).Canonical :=
  h.guarded (fun h1 => .ite h1.plain.keep h1.plain)

theorem execErrPinRelease_canonical {q hold width} (h : s.Canonical) :
    ResCanonical (execErrPinRelease q hold width s) :=
  .next h.fcPin

/-! The functions of `Sys2Proof/Machine/Cosem.lean`. -/

theorem State.Canonical.resetMax {p i} (h : s.Canonical) : (s.resetMax p i).Canonical := h.setTpt

theorem State.Canonical.setRoleCtr {k c} (h : s.Canonical) : (s.setRoleCtr k c).Canonical := h.keep

theorem State.Canonical.roleTell {down what} (h : s.Canonical) :
    (s.roleTell down what).Canonical := by
  unfold State.roleTell
  split
  · exact h.offer
  · exact h

theorem State.Canonical.askTaken (h : s.Canonical) : s.askTaken.Canonical := by
  unfold State.askTaken
  split
  · exact h.pop
  · exact h

theorem State.Canonical.cipherAnswer {w} (h : s.Canonical) : (s.cipherAnswer w).Canonical :=
  .ite (State.Canonical.ite h.roleTell h).setRoleCtr.offerAll h.keep

theorem State.Canonical.resumeAnswers {k} (h : s.Canonical) : (s.resumeAnswers k).Canonical :=
  h.keep.foldl fun _ h1 => h1.cipherAnswer

theorem State.Canonical.roleStart {k first limit} (h : s.Canonical) :
    (s.roleStart k first limit).Canonical :=
  h.setRoleCtr.roleTell.resumeAnswers

theorem State.Canonical.roleAnswer {k limit} (h : s.Canonical) : (s.roleAnswer k limit).Canonical :=
  h.setRoleCtr.roleTell.resumeAnswers

theorem State.Canonical.roleRefuse {k} (h : s.Canonical) : (s.roleRefuse k).Canonical :=
  h.setRoleCtr.roleTell.lanyEvent

theorem execRoleReservation_canonical {role start fails} (h : s.Canonical) :
    ResCanonical (execRoleReservation role start fails s) := by
  refine .next (.ite h (.ite h.roleStart ?_))
  extract_lets s1 s2
  have h1 : s1.Canonical := .ite h h.askTaken
  have h2 : s2.Canonical := h1.reserve
  exact .ite h1.roleRefuse (.ite (State.Canonical.ite h2.roleStart h2).limitSend
    (.ite h2.roleStart h2.roleAnswer))

theorem State.Canonical.setSession {k a2} (h : s.Canonical) : (s.setSession k a2).Canonical :=
  h.keep

theorem State.Canonical.roleLoad {lay slot} (h : s.Canonical) : (s.roleLoad lay slot).2.Canonical :=
  h.serveLoad.countLoad

theorem State.Canonical.roleKeys {lay role} (h : s.Canonical) :
    (s.roleKeys lay role).2.Canonical := by
  unfold State.roleKeys
  split
  · exact h
  · exact h.roleLoad.roleLoad

theorem State.Canonical.protectionOk {lay role a3 title} (h : s.Canonical) :
    (s.protectionOk lay role a3 title).2.Canonical := by
  unfold State.protectionOk
  split
  · exact h
  · split
    · exact h
    · split
      · exact h
      · split
        · rename_i heq
          exact h.roleKeys.of_snd heq
        · rename_i heq
          exact h.roleKeys.of_snd heq

theorem State.Canonical.mayAssociate {lay role title challenge sc ic tag} (h : s.Canonical) :
    (s.mayAssociate lay role title challenge sc ic tag).2.Canonical := by
  unfold State.mayAssociate
  split
  · exact h
  · split
    · rename_i heq
      exact h.roleKeys.of_snd heq
    · rename_i heq
      exact h.roleKeys.of_snd heq

theorem State.Canonical.cosemServe {k a2 sv} (h : s.Canonical) :
    (s.cosemServe k a2 sv).2.Canonical := by
  unfold State.cosemServe
  split
  · exact h
  · exact h.setSession
  · exact .ite_snd h h
  · split
    · exact .ite_snd h.resetMax h
    · exact h
  · exact h

theorem State.Canonical.cosemAnswer {lay out c a4 a5 r} (h : s.Canonical) :
    (s.cosemAnswer lay out c a4 a5 r).Canonical := by
  unfold State.cosemAnswer
  extract_lets k plain
  split
  next hp => exact (h.protectionOk.of_snd hp).offerAll
  next hp =>
    split
    next hc =>
    have h2 := (h.protectionOk.of_snd hp).setSession.cosemServe.of_snd hc
    exact .ite h2.offerAll h2.cipherAnswer

theorem execCosemRequest_canonical {ring reply r t} (h : s.Canonical) :
    ResCanonical (execCosemRequest ring reply r t s) := by
  refine .next ?_
  split
  · exact h.at
  · split
    · rename_i heq
      exact h.at.popMessage.of_snd heq
    · rename_i heq
      dsimp only
      split
      · exact (h.at.popMessage.of_snd heq).offerAll
      · exact (h.at.popMessage.of_snd heq).mayAssociate.setSession.offerAll
      · split
        · exact (h.at.popMessage.of_snd heq).offerAll
        · exact (h.at.popMessage.of_snd heq).cosemAnswer

theorem execAssociationTimeout_canonical {session t} (h : s.Canonical) :
    ResCanonical (execAssociationTimeout session t s) := by
  refine .next ?_
  split
  · exact h.at
  · exact .ite h.at (.withWork h.at.setSession)

/-! The functions of `Sys2Proof/Machine/Pair.lean`. -/

theorem State.Canonical.setRole {r} (h : s.Canonical) : (s.setRole r).Canonical :=
  .ite h h.putF.irq.lanyEvent

theorem State.Canonical.storeEpoch {v fail} (h : s.Canonical) : (s.storeEpoch v fail).Canonical :=
  .ite h.pairStore.cause h.pairStore

theorem State.Canonical.newEpoch {fail} (h : s.Canonical) : (s.newEpoch fail).2.Canonical :=
  .ite h.storeEpoch h.storeEpoch.lanyEvent

theorem State.Canonical.fence {conflict} (h : s.Canonical) : (s.fence conflict).Canonical :=
  .ite h.keep.setRole.bump.irq.cause.lanyEvent.closeAll h.keep.setRole.bump.irq.cause.lanyEvent

theorem State.Canonical.becomeActive (h : s.Canonical) : s.becomeActive.Canonical :=
  .ite h.keep.setRole.openSequence h.keep.setRole

theorem State.Canonical.enterStandby (h : s.Canonical) : s.enterStandby.Canonical := by
  unfold State.enterStandby
  exact (State.Canonical.withPair h.setRole.storeEpoch).putBit.stopAll.foldl fun _ h1 => h1.turnOff

theorem State.Canonical.leaseCtrl {q v} (h : s.Canonical) : (s.leaseCtrl q v).Canonical :=
  h.guarded (fun h1 => .ite h1.plain.setRole (.ite h1.plain.setRole h1.plain))

theorem execLeaseEnable_canonical {q pref} (h : s.Canonical) :
    ResCanonical (execLeaseEnable q pref s) :=
  .next h.leaseCtrl

theorem execLeaseDisable_canonical {q pref} (h : s.Canonical) :
    ResCanonical (execLeaseDisable q pref s) :=
  .next h.leaseCtrl

theorem State.Canonical.pairLoadKey (h : s.Canonical) : s.pairLoadKey.Canonical := by
  unfold State.pairLoadKey
  refine .ite h ?_
  dsimp only
  split
  · exact h.readSlot.afterUse
  · exact .withCopies h.readSlot

theorem State.Canonical.pairKeySlot {q v} (h : s.Canonical) : (s.pairKeySlot q v).Canonical := by
  unfold State.pairKeySlot
  exact h.guarded fun h1 => .withCopies h1.plain

theorem State.Canonical.pairTake {a1 type body eff} (h : s.Canonical)
    (heff : ∀ {u : State}, u.Canonical → (eff u).Canonical) :
    (s.pairTake a1 type body eff).Canonical := by
  unfold State.pairTake
  extract_lets s1
  have h1 : s1.Canonical := h.pairLoadKey
  refine .ite h1 ?_
  split
  next hi =>
    have h2 := h1.inject.of_snd hi
    extract_lets s3
    have h3 : s3.Canonical := .ite h2.cause (.ite h2.cause h2)
    exact .ite h3.pairCount.cause (heff h3.withPair)

theorem State.Canonical.clearOut (h : s.Canonical) : s.clearOut.Canonical := h.keep

theorem State.Canonical.failOutstanding (h : s.Canonical) : s.failOutstanding.Canonical :=
  h.clearOut.foldl fun _ h1 => h1.partnerFail

theorem State.Canonical.clearLink (h : s.Canonical) : s.clearLink.Canonical := h.keep

theorem State.Canonical.salvageBroken {salvaging} (h : s.Canonical) :
    (s.salvageBroken salvaging).Canonical :=
  .ite h.setRole h

theorem State.Canonical.linkDown (h : s.Canonical) : s.linkDown.Canonical :=
  .ite h h.putBit.irq.lanyEvent.clearLink.failOutstanding.salvageBroken

theorem execPairLinkDown_canonical {t} (h : s.Canonical) : ResCanonical (execPairLinkDown t s) :=
  .next (.ite h.at.linkDown h.at)

theorem execLaneDown_canonical {lane up} (h : s.Canonical) :
    ResCanonical (execLaneDown lane up s) :=
  .next (.ite h (.ite (.ite h.putBit h) (.ite h (.ite h.putBit.cause.linkDown h.putBit.cause))))

theorem State.Canonical.laneOff {i} (h : s.Canonical) : (s.laneOff i).Canonical :=
  .ite h (.ite h.putBit.cause.linkDown h.putBit.cause)

theorem State.Canonical.pairCtrl {q v} (h : s.Canonical) : (s.pairCtrl q v).Canonical :=
  h.guarded (fun h1 => h1.plain.laneOff.laneOff)

theorem State.Canonical.pairEnable {q v} (h : s.Canonical) : (s.pairEnable q v).Canonical :=
  h.guarded (fun h1 => .ite h1.putBit h1.putBit.putF.linkDown)

theorem State.Canonical.sendStored {type a2} (h : s.Canonical) :
    (s.sendStored type a2).Canonical := by
  unfold State.sendStored
  split
  · exact h
  · exact h.sendPage

theorem execHelloSend_canonical {t} (h : s.Canonical) : ResCanonical (execHelloSend t s) := by
  refine .next ?_
  split
  · exact h.at.pairLoadKey
  · dsimp only
    split
    · exact h.at.pairLoadKey.setTimer.pairSend
    · exact .ite h.at.pairLoadKey.setTimer.pairSend (h.at.pairLoadKey.setTimer.pairSend.foldl
        fun _ h1 => h1.sendStored).keep

theorem State.Canonical.renew (h : s.Canonical) : s.renew.Canonical := h.wr.keep.pairCount.pairSend

theorem State.Canonical.salvageStart (h : s.Canonical) : s.salvageStart.Canonical :=
  h.keep.foldl fun _ h1 => h1.sendStored

theorem State.Canonical.helloActs {b} (h : s.Canonical) : (s.helloActs b).Canonical := by
  unfold State.helloActs
  extract_lets s1
  have h1 : s1.Canonical := .ite h.setSolo h
  clear_value s1
  exact .ite (.ite h1.becomeActive.renew h1) (.ite h1.enterStandby.salvageStart
    (.ite (.ite h1.keep (.ite h1 h1.keep)) h1))

theorem execHello_canonical {a0 b t} (h : s.Canonical) : ResCanonical (execHello a0 b t s) := by
  refine .next (h.at.pairTake fun h1 => ?_)
  extract_lets bad p s1 s2 s3 s4 s5 s6
  have h2 : s2.Canonical := h1.withPair.wr.wr64
  have h3 : s3.Canonical := .ite h2.cause.lanyEvent h2
  have h4 : s4.Canonical := h3.putBit
  have h5 : s5.Canonical := .ite h4 h4.putBit.irq.newSession.lanyEvent
  have h6 : s6.Canonical := .ite h5 h5.failOutstanding
  exact .ite h6 h6.helloActs

theorem execRenewSend_canonical {t} (h : s.Canonical) : ResCanonical (execRenewSend t s) :=
  .next (.ite h.at (.ite h.at.fence (.ite h.at h.at.renew)))

theorem State.Canonical.grant {rseq} (h : s.Canonical) : (s.grant rseq).Canonical :=
  h.wr.keep.pairCount.pairSend

theorem execRenew_canonical {a0 rseq epoch t} (h : s.Canonical) :
    ResCanonical (execRenew a0 rseq epoch t s) :=
  .next (h.at.pairTake (fun h1 => .ite (.ite h1.wr.fence h1.wr)
    (.ite h1.wr (.ite h1.wr.enterStandby.grant (.ite h1.wr.grant h1.wr)))))

theorem execGrant_canonical {hd rseq t} (h : s.Canonical) :
    ResCanonical (execGrant hd rseq t s) := by
  refine .next (h.at.pairTake fun h1 => .ite h1 (.ite h1.fence ?_))
  dsimp only
  split
  · exact h1.pairCount
  · exact .ite h1.pairCount (.withPair h1.pairCount)

theorem execLeaseExpiry_canonical {t} (h : s.Canonical) : ResCanonical (execLeaseExpiry t s) :=
  .next (.ite h.at.fence h.at)

theorem execTakeoverTime_canonical {epochFail t} (h : s.Canonical) :
    ResCanonical (execTakeoverTime epochFail t s) :=
  .next (.ite h.at (h.at.keep.setRole.stopAll.newEpoch.lanyEvent.foldl fun _ h1 => h1.turnOn))

theorem State.Canonical.mirrorBlock {p} (h : s.Canonical) {x} (hx : s.mirrorBlock p = some x) :
    x.2.Canonical := by
  unfold State.mirrorBlock at hx
  extract_lets stream at hx
  split at hx
  · dsimp only at hx
    split at hx
    · cases hx
    · cases hx
      exact h
  · split at hx
    · cases hx
    · obtain ⟨k, -, rfl⟩ := Option.map_eq_some_iff.mp hx
      exact h.setBlk.freeChanged

theorem State.Canonical.mirror {kind p ck last} (h : s.Canonical) {u} (hu : s.mirror kind p ck last
    = some u) : u.Canonical := by
  unfold State.mirror at hu
  split at hu
  · cases hu
  · obtain ⟨x, hx, rfl⟩ := Option.map_eq_some_iff.mp hu
    exact (h.mirrorBlock hx).setNand.startRun

theorem State.Canonical.mirrorPass {p ck} (h : s.Canonical) : (s.mirrorPass p ck).Canonical := by
  unfold State.mirrorPass
  split
  · exact h
  · exact .ite h.keep h.keep

theorem execPage_canonical {a0 p ck} (h : s.Canonical) : ResCanonical (execPage a0 p ck s) :=
  .next (h.pairTake (fun h1 => .ite h1 (.getD (fun _ hx => h1.pairCount.mirror hx)
    h1.pairCount.verified)))

theorem State.Canonical.rollPage {data} (h : s.Canonical) : (s.rollPage data).Canonical :=
  .ite (h.foldl fun _ h1 => h1.rollRecord) h

theorem State.Canonical.mirrorDone {e k} (h : s.Canonical) : (s.mirrorDone e k).Canonical := by
  unfold State.mirrorDone
  extract_lets p s1 s2
  have h1 : s1.Canonical := .ite h.writePage h.storePage
  have h2 : s2.Canonical := h1.mirrorPass
  exact .ite h1.rollPage.verified (.ite h2.verified (.ite h2.pairCount.putBit h2.pairCount))

theorem State.Canonical.mirrorRefuse {e} (h : s.Canonical) : (s.mirrorRefuse e).Canonical :=
  .ite h h.verified

theorem State.Canonical.mirrorEnd {a1 good} (h : s.Canonical) :
    (s.mirrorEnd a1 good).Canonical := by
  unfold State.mirrorEnd
  split
  · exact h.endRun
  · exact .ite h.setNand (.ite h.endRun.setNand.mirrorRefuse h.endRun.setNand.mirrorDone)

theorem execNandProgramComplete_canonical {target ok decodes corr} (h : s.Canonical) :
    ResCanonical (execNandProgramComplete target ok decodes corr s) := by
  refine .next ?_
  split
  · exact h
  · split
    · exact (State.Canonical.ite h h.nandCount.cause).mirrorEnd
    · exact .ite h.endRun.programFailed (.ite h.endRun.programFailed h.endRun.writePage.nandDone)

theorem State.Canonical.limitUse {i} (h : s.Canonical) : (s.limitUse i).Canonical := by
  unfold State.limitUse
  split
  · exact h
  · exact .ite h.keep.txresUse h.keep.roleAnswer

theorem execVerified_canonical {hd reserve lbn page refused} (h : s.Canonical) :
    ResCanonical (execVerified hd reserve lbn page refused s) := by
  refine .next (h.pairTake fun h1 => ?_)
  extract_lets s1 place
  have hs1 : s1.Canonical := h1.pairCount
  clear_value s1
  refine .ite hs1.limitUse ?_
  split
  · exact .ite (State.Canonical.withPair hs1).partnerFail (State.Canonical.withPair hs1).kindOne
  · exact .ite hs1 (.ite hs1.sendStored hs1.withPair)

theorem execPartnerFail_canonical (h : s.Canonical) : ResCanonical (execPartnerFail s) :=
  .next (.ite h.failOutstanding h)

theorem execPairRelease_canonical {a0 lbn} (h : s.Canonical) :
    ResCanonical (execPairRelease a0 lbn s) := by
  refine .next ?_
  refine h.pairTake fun h1 => ?_
  split
  · exact h1
  · split
    · exact h1
    · exact h1.releaseLive

theorem execReserve_canonical {a0 i limit} (h : s.Canonical) :
    ResCanonical (execReserve a0 i limit s) :=
  .next (h.pairTake (fun h1 => .ite h1 h1.reserve.verified))

theorem State.Canonical.setPieces {l} (h : s.Canonical) : (s.setPieces l).Canonical := h.keep

theorem execSettings_canonical {hd offset piece image ok} (h : s.Canonical) :
    ResCanonical (execSettings hd offset piece image ok s) := by
  refine .next (h.pairTake fun h1 => .ite h1 ?_)
  dsimp only
  cases image with
  | none => exact h1.setPieces
  | some x => exact .ite h1.setPieces.setPieces.settingsWrite h1.setPieces

theorem execHealthSend_canonical {t} (h : s.Canonical) : ResCanonical (execHealthSend t s) :=
  .next (.ite h.at (.ite (.ite h.at.setTimer.pairSend.send h.at.setTimer.pairSend)
    (.ite h.at.setTimer.pairSend.keep.notify h.at.setTimer.pairSend)))

theorem execHealth_canonical {a0 body} (h : s.Canonical) : ResCanonical (execHealth a0 body s) :=
  .next (h.pairTake (fun h1 => .ite h1.notify h1))

theorem execStandbyTestStep_canonical {t} (h : s.Canonical) :
    ResCanonical (execStandbyTestStep t s) :=
  .next (.ite h.at h.at.keep.turnOn.turnOn.turnOn)

theorem execStandbyTestEnd_canonical {pass} (h : s.Canonical) :
    ResCanonical (execStandbyTestEnd pass s) := by
  refine .next ?_
  split
  · exact h
  · exact .ite h (State.Canonical.ite h.keep h.keep.lanyEvent).turnOff.turnOff.turnOff

theorem execCatchup_canonical {a0 p last ck} (h : s.Canonical) :
    ResCanonical (execCatchup a0 p last ck s) :=
  .next (h.pairTake (fun h1 => .ite h1 (.getD (fun _ hx => h1.mirror hx) h1)))

theorem execSalvage_canonical {a0 p} (h : s.Canonical) : ResCanonical (execSalvage a0 p s) :=
  .next (h.pairTake (fun h1 => .ite h1 (.ite h1.verified h1.setNand)))

theorem execSalvageDone_canonical (h : s.Canonical) : ResCanonical (execSalvageDone s) :=
  .next (.ite h (h.keep.setSolo.foldl fun _ h1 => h1.eraseBlock.setBlk.nandCount))

theorem State.Canonical.pairHost {q v epochFail} (h : s.Canonical) :
    (s.pairHost q v epochFail).Canonical := by
  unfold State.pairHost
  refine h.guarded fun h1 => .ite h1 (.ite ?_ h1.withPair)
  split
  next hn => exact .ite (h1.newEpoch.of_snd hn).becomeActive (h1.newEpoch.of_snd hn)

theorem execForceActive_canonical {q epochFail} (h : s.Canonical) :
    ResCanonical (execForceActive q epochFail s) :=
  .next h.pairHost

theorem execStayOut_canonical {q} (h : s.Canonical) : ResCanonical (execStayOut q s) :=
  .next h.pairHost

theorem execRejoin_canonical {q} (h : s.Canonical) : ResCanonical (execRejoin q s) :=
  .next h.pairHost

/-! The functions of `Sys2Proof/Machine/Rings.lean`. -/

theorem State.Canonical.setRing {r a2} (h : s.Canonical) : (s.setRing r a2).Canonical := h.keep

theorem State.Canonical.setRingIdx {r dev host} (h : s.Canonical) :
    (s.setRingIdx r dev host).Canonical :=
  h.setBk

theorem State.Canonical.ringHalt {r why} (h : s.Canonical) : (s.ringHalt r why).Canonical :=
  h.setBk.cause.irq

theorem State.Canonical.ringSignal {r} (h : s.Canonical) : (s.ringSignal r).Canonical :=
  h.setRing.fire

theorem State.Canonical.ringBack {r} (h : s.Canonical) : (s.ringBack r).Canonical :=
  .ite h.setLe.setRing.ringSignal h.setLe.setRing

theorem State.Canonical.ringMoved {r} (h : s.Canonical) : (s.ringMoved r).Canonical :=
  .ite h.setRing.ringBack h.setRing

theorem State.Canonical.ringMove {r} (h : s.Canonical) {u} (hu : s.ringMove r = some u) :
    u.Canonical := by
  unfold State.ringMove at hu
  extract_lets d hst c at hu
  split at hu
  · cases hu
  · split at hu
    · split at hu
      · cases hu
      · cases hu
        exact h.blockPut.setRingIdx.ringMoved
    · split at hu
      · split at hu
        · cases hu
        · split at hu
          · cases hu
          · next hp =>
            cases hu
            exact (h.pop.of_snd hp).setLe.setRingIdx.ringMoved
      · cases hu

theorem State.Canonical.ringRun {r fuel} (h : s.Canonical) :
    (State.ringRun r fuel s).Canonical := by
  induction fuel generalizing s with
  | zero => exact h
  | succ fuel ih =>
    unfold State.ringRun
    split
    · exact h
    · next hm => exact ih (h.ringMove hm)

theorem State.Canonical.ringGo {r} (h : s.Canonical) : (s.ringGo r).Canonical :=
  .ite h (State.Canonical.ite h.inject.cause (.ite h.inject.cause.ringHalt h.inject)).ringRun

theorem State.Canonical.ringsGo (h : s.Canonical) : s.ringsGo.Canonical :=
  h.foldl fun _ h1 => h1.ringGo

theorem State.Canonical.mailDiscard (h : s.Canonical) : s.mailDiscard.Canonical := h.keep

theorem State.Canonical.ringReset {r} (h : s.Canonical) : (s.ringReset r).Canonical :=
  .ite h.setBk.splEmptied.setRingIdx.setRing.setBk.mailDiscard
    h.setBk.splEmptied.setRingIdx.setRing.setBk

theorem State.Canonical.ringCtrl {q v} (h : s.Canonical) : (s.ringCtrl q v).Canonical := by
  unfold State.ringCtrl
  refine h.guarded fun h1 => ?_
  extract_lets s2
  have h2 : s2.Canonical := h1.setBk
  exact .ite h2.ringReset h2.ringGo

theorem execRingEnable_canonical {q irq} (h : s.Canonical) :
    ResCanonical (execRingEnable q irq s) :=
  .next h.ringCtrl

theorem State.Canonical.doorbell {r i} (h : s.Canonical) : (s.doorbell r i).Canonical :=
  .ite h (.ite h.bumpBk (.ite h.setRingIdx.ringHalt h.setRingIdx.ringGo))

theorem State.Canonical.hostEntries {r i l} (h : s.Canonical) :
    (s.hostEntries r i l).Canonical := by
  induction l generalizing s i with
  | nil => exact h
  | cons c l ih =>
    unfold State.hostEntries
    exact ih h.setLe

theorem execRingDoorbellH2d_canonical {r p entries t} (h : s.Canonical) :
    ResCanonical (execRingDoorbellH2d r p entries t s) :=
  .next (.ite h.at h.at.hostEntries.doorbell)

theorem execRingDoorbellD2h_canonical {r c t} (h : s.Canonical) :
    ResCanonical (execRingDoorbellD2h r c t s) :=
  .next h.at.doorbell

theorem execRingWriteBack_canonical {r t} (h : s.Canonical) :
    ResCanonical (execRingWriteBack r t s) :=
  .next (.ite h.at.ringBack.ringGo h.at)

theorem execRingIrqTimer_canonical {r t} (h : s.Canonical) :
    ResCanonical (execRingIrqTimer r t s) :=
  .next (.ite h.at.ringSignal h.at)

theorem execDmaError_canonical {r kind} (h : s.Canonical) : ResCanonical (execDmaError r kind s) :=
  .next (.ite h (State.Canonical.ite h.bumpBk h).ringHalt)

theorem execRingReset_canonical {q doorbells} (h : s.Canonical) :
    ResCanonical (execRingReset q doorbells s) := by
  refine .next ?_
  split
  · exact h.ringCtrl.bumpBk
  · exact h.ringCtrl

theorem execPerstAssert_canonical (h : s.Canonical) : ResCanonical (execPerstAssert s) := by
  unfold execPerstAssert
  extract_lets s1
  have h1 : s1.Canonical := h.foldl fun _ h1 => h1.ringReset
  exact .next (.ite h (State.Canonical.withRingsMsix h1.pageOff).wr.putBit)

theorem execPerstDeassert_canonical (h : s.Canonical) : ResCanonical (execPerstDeassert s) :=
  .next (.ite h.putBit h)

theorem execPcieLinkChange_canonical {up speed width correctable} (h : s.Canonical) :
    ResCanonical (execPcieLinkChange up speed width correctable s) := by
  refine .next (.ite h ?_)
  extract_lets was s1 s2 s3
  have h2 : s2.Canonical := h.putBit.putF.putF.bumpBk
  have h3 : s3.Canonical := .ite h2.irq h2
  exact .ite h3.cause h3.ringsGo

theorem State.Canonical.msiSend {v} (h : s.Canonical) : (s.msiSend v).Canonical := h.keep

theorem execMsixMessage_canonical {v} (h : s.Canonical) : ResCanonical (execMsixMessage v s) :=
  .next (.ite h (.ite h.keep.msiSend (.ite h.keep h.keep.keep)))

theorem execMsixUnmask_canonical {v addr data mask} (h : s.Canonical) :
    ResCanonical (execMsixUnmask v addr data mask s) :=
  .next (.ite h (.ite h.keep (.ite h.keep.keep.msiSend h.keep.keep)))

/-! The functions of `Sys2Proof/Machine/Eth.lean`. -/

theorem State.Canonical.ethCause {n i} (h : s.Canonical) : (s.ethCause n i).Canonical := h.cause

theorem State.Canonical.ethIrq {n i} (h : s.Canonical) : (s.ethIrq n i).Canonical := h.irq

theorem State.Canonical.advertise {n own dst solicited} (h : s.Canonical) :
    (s.advertise n own dst solicited).Canonical :=
  h.ethSend

theorem State.Canonical.oweAdv {n l} (h : s.Canonical) : (s.oweAdv n l).Canonical := h.setEthPort

theorem State.Canonical.oweAll {n} (h : s.Canonical) : (s.oweAll n).Canonical := h.oweAdv

theorem execNeighbourAdvertisement_canonical {n k} (h : s.Canonical) :
    ResCanonical (execNeighbourAdvertisement n k s) :=
  .next (.ite h (.ite h.setEthPort.advertise h.setEthPort))

theorem State.Canonical.cacheFill {n a mac} (h : s.Canonical) : (s.cacheFill n a mac).Canonical :=
  h.setEthPort

theorem State.Canonical.ethAdmit {n f sp dp l} (h : s.Canonical) :
    (s.ethAdmit n f sp dp l).Canonical :=
  h.setEthPort.takeUnit

theorem State.Canonical.ethFragment {n} (h : s.Canonical) : (s.ethFragment n).Canonical :=
  .ite h.ethCount.discard h.ethCount

theorem State.Canonical.ethBody {n f} (h : s.Canonical) : (s.ethBody n f).Canonical := by
  unfold State.ethBody
  dsimp only
  split
  · exact .ite h.ethCount.ethCount.advertise h.ethCount
  · exact .ite h.ethCount.ethCount.ethSend h.ethCount
  · exact .ite h.ethCount.ethAdmit h.ethCount
  · exact h.ethCount.ptpTake
  · exact h.ethCount
  · exact h
  · exact h.ethCount

theorem execEthFrameReceived_canonical {n raw t} (h : s.Canonical) :
    ResCanonical (execEthFrameReceived n raw t s) := by
  refine .next (.ite h.at ?_)
  split
  next hc =>
  have h1 := h.at.inject.of_snd hc
  extract_lets s2 fill
  have h2 : s2.Canonical := .ite h1 h1.ethCause
  have fill_canonical {u : State} (h : u.Canonical) : (fill u).Canonical := .ite h.cacheFill h
  refine .ite h2 ?_
  split
  · exact .ite (fill_canonical h2).ethFragment h2.ethCount
  · exact (fill_canonical h2).ethBody

theorem State.Canonical.setStation {n k a3} (h : s.Canonical) : (s.setStation n k a3).Canonical :=
  h.keep

theorem State.Canonical.ackAct {port c rest} (h : s.Canonical) :
    (s.ackAct port c rest).Canonical := by
  unfold State.ackAct
  dsimp only
  split
  · exact h.pairCount
  · split
    · exact .ite h.ethCount (.ite h.setEthPort h)
    · split
      · split
        · exact h.setStation
        · exact h
      · exact h

theorem State.Canonical.ackConsume {port n} (h : s.Canonical) :
    (s.ackConsume port n).Canonical := by
  unfold State.ackConsume
  extract_lets first fresh
  refine .ite h ?_
  split
  next hm =>
  have h1 := h.takeMessage.of_snd_snd hm
  split
  · exact .ackAct (.ite h1.ackReport h1)
  · split
    · exact .ite h1.ackReport h1
    · exact h1

theorem execAckCellConsumed_canonical {port spl t} (h : s.Canonical) :
    ResCanonical (execAckCellConsumed port spl t s) :=
  .next h.at.ackConsume

theorem execEthTransmit_canonical {n spl t} (h : s.Canonical) :
    ResCanonical (execEthTransmit n spl t s) := by
  refine .next ?_
  split
  · exact .ite h.at.ackConsume h.at
  · exact .ite (State.Canonical.ite h.at.ackConsume h.at).setEthPort.send
      (.ite h.at.ackConsume h.at)

theorem execEthLinkChange_canonical {n up fast an} (h : s.Canonical) :
    ResCanonical (execEthLinkChange n up fast an s) := by
  refine .next (.ite h ?_)
  extract_lets was s1 s2 s3 s4
  have h1 : s1.Canonical := h.putBit
  have h3 : s3.Canonical := .ite h1.putBit (.ite h1.putF.wr h1.putF)
  have h4 : s4.Canonical := .ite h3.ethIrq h3
  exact .ite h4.ethCause h4

theorem State.Canonical.ethFlush {q n v} (h : s.Canonical) : (s.ethFlush q n v).Canonical :=
  h.guarded (fun h1 => .ite h1.setEthPort h1)

theorem execEthNcFlush_canonical {q n} (h : s.Canonical) : ResCanonical (execEthNcFlush q n s) :=
  .next h.ethFlush

theorem State.Canonical.ethEnable {q n v} (h : s.Canonical) : (s.ethEnable q n v).Canonical :=
  h.guarded (fun h1 => .ite h1.putBit.oweAll h1.putBit)

theorem State.Canonical.ethAddrCtl {q n k v} (h : s.Canonical) : (s.ethAddrCtl q n k v).Canonical :=
  h.guarded (fun h1 => .ite h1.plain.oweAdv h1.plain)

theorem State.Canonical.mdio {q v answer} (h : s.Canonical) : (s.mdio q v answer).Canonical := by
  unfold State.mdio
  refine h.guarded fun h1 => ?_
  extract_lets s2 w s3
  have h2 : s2.Canonical := h1.mdioSettle.plain
  have h3 : s3.Canonical := h2.send
  exact .ite h2 h3.setEthPort.putBit

theorem execMdioAccess_canonical {q c45 op phy reg data answer} (h : s.Canonical) :
    ResCanonical (execMdioAccess q c45 op phy reg data answer s) :=
  .next h.mdio

/-! The functions of `Sys2Proof/Machine/Uart.lean`. -/

theorem State.Canonical.setUart {n u} (h : s.Canonical) : (s.setUart n u).Canonical := h.keep

theorem State.Canonical.uartCount {n i} (h : s.Canonical) : (s.uartCount n i).Canonical := h.bumpBk

theorem State.Canonical.hdlcSend {n addr ctl info} (h : s.Canonical) :
    (s.hdlcSend n addr ctl info).Canonical :=
  .ite h h.setUart.send

theorem State.Canonical.endUMsg {n m status} (h : s.Canonical) : (s.endUMsg n m status).Canonical :=
  h.setUart

theorem State.Canonical.askStation {n k ctl info} (h : s.Canonical) :
    (s.askStation n k ctl info).Canonical :=
  h.hdlcSend.setStation

theorem State.Canonical.uartFire {n m} (h : s.Canonical) : (s.uartFire n m).Canonical := by
  unfold State.uartFire
  split
  · exact h.endUMsg
  · exact .ite h.askStation (.ite h.askStation h.askStation.uartCount)

theorem State.Canonical.uartGo {n} (h : s.Canonical) : (s.uartGo n).Canonical := by
  unfold State.uartGo
  dsimp only
  split
  · exact h
  · split
    · exact .ite h.endUMsg h.uartFire
    · exact h
    · exact .ite h.setUart.endUMsg h.setUart.uartFire

theorem State.Canonical.stationHeard {n k} (h : s.Canonical) : (s.stationHeard n k).Canonical :=
  .ite h.setStation.irq h.setStation

theorem State.Canonical.uartAcked {n k nr} (h : s.Canonical) : (s.uartAcked n k nr).Canonical := by
  unfold State.uartAcked
  dsimp only
  split
  · exact .ite h.setStation.endUMsg h
  · exact h

theorem State.Canonical.uartEnds {n k kinds status} (h : s.Canonical) :
    (s.uartEnds n k kinds status).Canonical := by
  unfold State.uartEnds
  split
  · exact .ite h.endUMsg h
  · exact h

theorem State.Canonical.uartTake {n k ns info} (h : s.Canonical) :
    (s.uartTake n k ns info).Canonical := by
  unfold State.uartTake
  refine .ite h ?_
  extract_lets f
  split
  · next hu => exact (h.takeUnit.of_snd hu).hdlcSend.setStation.uartCount
  · next hu => exact h.takeUnit.of_snd hu

theorem State.Canonical.hdlcBody {n k b} (h : s.Canonical) : (s.hdlcBody n k b).Canonical := by
  unfold State.hdlcBody
  split
  · exact h.uartAcked.uartTake
  · exact h.uartAcked
  · exact h.uartAcked
  · split
    · exact .ite h h.setStation.endUMsg
    · exact h
  · exact h.setStation.uartEnds
  · exact h.setStation.uartEnds

theorem State.Canonical.hdlcTake {n a2} (h : s.Canonical) : (s.hdlcTake n a2).Canonical := by
  unfold State.hdlcTake
  split
  · exact h.uartCount
  · exact h.uartCount
  · exact .ite h.uartCount.discard h.uartCount
  · dsimp only
    split
    · exact h.uartCount.stationHeard.hdlcBody.uartGo
    · exact h.uartCount

theorem State.Canonical.rxIdle {n l} (h : s.Canonical) : (s.rxIdle n l).Canonical := h.setUart

theorem State.Canonical.lineErrors {n falseStarts l} (h : s.Canonical) :
    (s.lineErrors n falseStarts l).Canonical :=
  h.bumpBk.bumpBk.bumpBk

theorem execHdlcFrameReceived_canonical {n rx t} (h : s.Canonical) :
    ResCanonical (execHdlcFrameReceived n rx t s) :=
  .next (.ite h.at (h.at.rxIdle.lineErrors.setUart.foldl fun _ h1 => h1.hdlcTake))

theorem execHdlcByteGapAbort_canonical {n t} (h : s.Canonical) :
    ResCanonical (execHdlcByteGapAbort n t s) :=
  .next (.ite h.at.setUart.uartCount h.at)

theorem State.Canonical.readStation {n k} (h : s.Canonical) : (s.readStation n k).Canonical :=
  .ite h.inject.cause (.ite h.inject.setStation.cause h.inject)

theorem execHdlcPoll_canonical {n t} (h : s.Canonical) : ResCanonical (execHdlcPoll n t s) := by
  refine .next ?_
  split
  · exact h.at
  · split
    · exact h.at.uartGo
    · split
      · exact h.at
      · exact .ite h.at.readStation h.at.readStation.setStation.askStation.uartCount

theorem State.Canonical.stationDown {n k} (h : s.Canonical) : (s.stationDown n k).Canonical :=
  .ite h h.setStation.cause.irq

theorem execHdlcResponseTimeout_canonical {n t} (h : s.Canonical) :
    ResCanonical (execHdlcResponseTimeout n t s) := by
  refine .next (.ite h.at ?_)
  split
  · exact h.at
  · extract_lets s1 u s2
    have h1 : s1.Canonical := h.at.setStation.uartCount.stationDown
    refine State.Canonical.uartGo ?_
    unfold s2
    split
    · exact .ite h1 (.ite h1.endUMsg h1.setUart)
    · exact h1

theorem State.Canonical.refuseUMsg {n spl c status} (h : s.Canonical) :
    (s.refuseUMsg n spl c status).Canonical :=
  h.endUMsg.setUart

theorem State.Canonical.uartMessage {n spl c rest} (h : s.Canonical) :
    (s.uartMessage n spl c rest).Canonical := by
  unfold State.uartMessage
  dsimp only
  split
  · exact h.refuseUMsg
  · split
    · exact h.refuseUMsg
    · split
      · exact h.refuseUMsg
      · exact .ite h.refuseUMsg h.setUart.uartGo

theorem execUartTransmit_canonical {n spl t} (h : s.Canonical) :
    ResCanonical (execUartTransmit n spl t s) := by
  refine .next (.ite h.at ?_)
  split
  next hm =>
  have h1 := h.at.takeMessage.of_snd_snd hm
  split
  · exact h1.refuseUMsg
  · exact h1.uartMessage
  · exact h1

theorem State.Canonical.commitStation {n k} (h : s.Canonical) : (s.commitStation n k).Canonical :=
  h.setStation

theorem State.Canonical.loadStation {n k} (h : s.Canonical) : (s.loadStation n k).Canonical :=
  h.wr.wr

theorem State.Canonical.stSel {q n v} (h : s.Canonical) : (s.stSel q n v).Canonical :=
  h.guarded (fun h1 => .ite h1.plain.commitStation (.ite h1.plain.loadStation h1.plain))

theorem execStationCommit_canonical {q n k} (h : s.Canonical) :
    ResCanonical (execStationCommit q n k s) :=
  .next h.stSel

theorem execStationLoad_canonical {q n k} (h : s.Canonical) :
    ResCanonical (execStationLoad q n k s) :=
  .next h.stSel

theorem State.Canonical.sbusValue {slot raw} (h : s.Canonical) : (s.sbusValue slot raw).Canonical :=
  h.setBk.keep.bumpBk

theorem State.Canonical.setStuck {b on} (h : s.Canonical) : (s.setStuck b on).Canonical :=
  .ite h.putBit.cause.irq h.putBit

theorem execSbusSlotRead_canonical {slot a1 t} (h : s.Canonical) :
    ResCanonical (execSbusSlotRead slot a1 t s) := by
  refine .next ?_
  split
  · exact h.at
  · dsimp only
    split
    · exact h.at.setTimer.setStuck.sbusValue
    · exact h.at.setTimer.setStuck.cause.bumpBk
    · exact h.at.setTimer.bumpBk
    · exact h.at.setTimer.bumpBk.setStuck

theorem State.Canonical.slotCfg {q v} (h : s.Canonical) : (s.slotCfg q v).Canonical := by
  unfold State.slotCfg
  extract_lets k
  refine h.guarded fun h1 => ?_
  extract_lets was s2 s3
  have h2 : s2.Canonical := h1.plain
  have h3 : s3.Canonical := h2.setBk.setTimer
  exact .ite h3.withSbusMeas (.ite h2 h2.setTimer)

/-! The functions of `Sys2Proof/Machine/Window.lean`. -/

theorem State.Canonical.enEffect {q p inst v ok} (h : s.Canonical) :
    (s.enEffect q p inst v ok).Canonical := by
  unfold State.enEffect
  split
  · exact h.ingEnable
  · exact h.nandEnable
  · exact h.measEnable
  · exact h.radioEnable
  · exact h.plcEnable
  · exact h.phEnable
  · exact h.pairEnable
  · exact h.ethEnable
  · exact h.ethEnable
  · exact .ite h.putBit.trngStart (.ite h.putBit h.putBit.putBit)
  · exact .ite h h.putBit.putBit
  · exact .ite h.putBit h

theorem State.Canonical.blkCtrl {q p inst v} (h : s.Canonical) :
    (s.blkCtrl q p inst v).Canonical := by
  refine h.guarded fun h1 => .ite h1.freeLock ?_
  split
  next hd =>
    extract_lets s2 s3
    have h2 : s2.Canonical := ((State.Canonical.ite_snd h1.draw h1).of_snd hd).enEffect
    have h3 : s3.Canonical := .ite h2.takeLock h2
    exact .ite h3.srstStart h3

theorem State.Canonical.reraise {p inst} (h : s.Canonical) : (s.reraise p inst).Canonical := by
  unfold State.reraise
  split
  · exact h
  · exact .ite h.fire h

theorem State.Canonical.errClear {p inst v} (h : s.Canonical) : (s.errClear p inst v).Canonical :=
  .ite (.ite (State.Canonical.ite h.wr.wr h.wr).wr (State.Canonical.ite h.wr.wr h.wr)) h.wr

theorem State.Canonical.irqClear {p inst v} (h : s.Canonical) : (s.irqClear p inst v).Canonical :=
  .ite h.wr.putBit h.wr

theorem State.Canonical.injArm {q p inst v} (h : s.Canonical) : (s.injArm q p inst v).Canonical :=
  h.guarded (fun h1 => .ite h1.wr h1)

theorem State.Canonical.irqSet {q p inst v} (h : s.Canonical) : (s.irqSet q p inst v).Canonical :=
  h.guarded (fun h1 => h1.wr.reraise)

theorem State.Canonical.stickyWrite {q p inst v} (h : s.Canonical) :
    (s.stickyWrite q p inst v).Canonical := by
  unfold State.stickyWrite
  exact h.guarded fun h1 => .ite h1.putBit h1

theorem State.Canonical.ownerWrite {q p inst v} (h : s.Canonical) :
    (s.ownerWrite q p inst v).Canonical :=
  h.guarded (fun h1 => .ite h1 (.ite h1.claim h1.wr))

theorem State.Canonical.headerWrite {q p inst o v} (h : s.Canonical) :
    (s.headerWrite q p inst o v).Canonical := by
  unfold State.headerWrite
  exact .ite h.blkCtrl (.ite (h.guarded fun h1 => .ite h1.errClear h1)
    (.ite (h.guarded fun h1 => .ite h1.wr h1) (.ite h.injArm
    (.ite (h.guarded fun h1 => h1.irqClear.reraise) (.ite (h.guarded fun h1 => h1.wr.reraise)
      (.ite h.irqSet (.ite h.stickyWrite
      (.ite h.ownerWrite (h.guarded fun h1 => h1)))))))))

theorem State.Canonical.plainWrite {q a v bad} (h : s.Canonical) :
    (s.plainWrite q a v bad).Canonical :=
  h.guarded (fun h1 => h1.plain)

theorem State.Canonical.mgmtWrite {q p o v} (h : s.Canonical) :
    (s.mgmtWrite q p o v).Canonical := by
  unfold State.mgmtWrite
  dsimp only
  split
  · exact .ite h.pmxClaim (.ite h.gpioWrite (.ite h.tmrWrite h.plainWrite))
  · split
    · exact h.sleepWrite
    · split
      · exact h.pwrDom
      · exact h.plainWrite
  · exact .ite h.rstCtrl h.plainWrite
  · split
    · exact h.plainWrite
    · exact h.plainWrite
  · exact .ite h.fcForce (.ite h.fcPin (.ite (h.guarded (fun h1 => .ite h1.wr h1))
      (.ite (h.guarded (fun h1 => .ite h1.wr h1)) h.plainWrite)))
  · exact .ite h.hostCfg (.ite h.hostKick
      (.ite h.lanyKick (.ite h.lanyInj (.ite h.lanyErr h.plainWrite))))
  · exact .ite h.leaseCtrl h.plainWrite
  · exact .ite h.evrCtrl (.ite h.evrSubmit
      (.ite h.evrRead (.ite (h.guarded (fun h1 => .ite h1.plain h1.plain.lanyEvent)) h.plainWrite)))
  · exact h.plainWrite

theorem State.Canonical.layWrite {q p inst o v} (h : s.Canonical) :
    (s.layWrite q p inst o v).Canonical := by
  unfold State.layWrite
  dsimp only
  split
  · exact .ite h.layCtrl (.ite h.layReturn (.ite (h.guarded (fun h1 => .ite h1 h1.plain))
      h.plainWrite))
  · exact .ite h.splFlush h.plainWrite
  · exact .ite h.ingCtrl (.ite h.srcSel h.plainWrite)
  · exact .ite h.mdbRead (.ite h.mdbWrite
      (.ite (State.Canonical.ite_snd h.drawN.draw h.drawN).mdbBulk (.ite h.mdbBuf h.plainWrite)))
  · exact .ite h.balReg h.plainWrite
  · exact h.plainWrite

theorem State.Canonical.keyWrite {q p inst o v} (h : s.Canonical) :
    (s.keyWrite q p inst o v).Canonical := by
  unfold State.keyWrite
  dsimp only
  split
  · split
    · exact h.measWrite
    · split
      · exact h.hostTempWrite
      · exact h.plainWrite
  · exact h.mpWrite
  · exact .ite h.keyCmd h.plainWrite
  · exact .ite (State.Canonical.ite_snd h.draw h).aeadCmd h.plainWrite
  · exact .ite (State.Canonical.ite_snd h.draw h).hashCmd h.plainWrite
  · exact .ite (State.Canonical.ite_snd h.draw h).pkeCmd h.plainWrite
  · exact .ite (State.Canonical.ite_snd h.draw h).lcsCtrl (.ite h.otpCmd h.plainWrite)
  · split
    · exact h.tamperStat
    · split
      · exact h.tamperCfg
      · exact h.plainWrite
  · exact .ite h.totClear (.ite h.totSel (.ite h.totDmCfg h.plainWrite))
  · split
    · exact h.pulseCfg
    · exact h.pulseWeight
    · exact h.plainWrite
  · exact h.plainWrite

theorem State.Canonical.airWrite {q p inst o v} (h : s.Canonical) :
    (s.airWrite q p inst o v).Canonical := by
  unfold State.airWrite
  dsimp only
  split
  · exact .ite h.tsuFreqWrite (.ite h.tsuSlew
      (.ite h.tsuSlewRate (.ite h.tsuIvl (.ite h.tsuStepCtl (.ite h.ppsWrite h.plainWrite)))))
  · exact .ite h.rtcCtrl (.ite h.calDateWrite
      (.ite h.calOfsWrite (.ite h.calTimeWrite h.plainWrite)))
  · split
    · exact h.macCfg
    · split
      · exact h.nbSel
      · split
        · exact h.csmaWrite
        · split
          · exact h.chanWrite
          · split
            · exact h.txctrRst
            · split
              · exact (State.Canonical.ite_snd h.draw h).xreg
              · split
                · exact h.keySlotWrite
                · exact h.plainWrite
  · split
    · exact h.macCfg
    · split
      · exact h.csmaWrite
      · split
        · exact h.keySlotWrite
        · split
          · exact h.txctrRst
          · split
            · exact h.plcSlot
            · split
              · exact h.keySlotWrite
              · exact h.plainWrite
  · exact .ite h.macCfg (.ite h.nbSel h.plainWrite)
  · exact h.plainWrite

theorem State.Canonical.ethWrite {q n o v} (h : s.Canonical) : (s.ethWrite q n o v).Canonical := by
  unfold State.ethWrite
  dsimp only
  split
  · exact h.ethFlush
  · split
    · exact (State.Canonical.ite_snd h.draw h).mdio
    · split
      · exact h.ethAddrCtl
      · exact h.plainWrite

theorem State.Canonical.ioWrite {q p inst o v} (h : s.Canonical) :
    (s.ioWrite q p inst o v).Canonical := by
  unfold State.ioWrite
  extract_lets a
  split
  · exact h.ethWrite
  · exact h.ethWrite
  · exact .ite h.plainWrite (.ite h.stSel h.plainWrite)
  · exact .ite h.slotCfg h.plainWrite
  · exact .ite h.plainWrite h.plainWrite
  · exact .ite h.qspiCmd h.plainWrite
  · exact .ite (h.guarded fun h1 => h1) (.ite h.ringCtrl (.ite h.plainWrite h.plainWrite))
  · refine .ite h.pairCtrl (.ite h.pairKeySlot (.ite ?_ h.plainWrite))
    split
    next hw => exact ((State.Canonical.ite_snd h.draw h).of_snd hw).pairHost
  · exact h.plainWrite

theorem State.Canonical.blockWrite {q p inst o v} (h : s.Canonical) :
    (s.blockWrite q p inst o v).Canonical := by
  unfold State.blockWrite
  split
  · exact h.mgmtWrite
  · exact h.layWrite
  · exact h.keyWrite
  · exact h.airWrite
  · exact h.ioWrite

theorem State.Canonical.commit {q p inst o v} (h : s.Canonical) :
    (s.commit q p inst o v).Canonical := by
  unfold State.commit
  exact .ite h.fcStatus (.ite h.rtcTime (.ite h.ldCommit (.ite h.dbgDataWrite (.ite h.totSwData
    (.ite (h.guarded fun h1 => h1) (h.guarded fun h1 => h1.plain))))))

theorem State.Canonical.lowHalfWrite {q p inst o v} (h : s.Canonical) :
    (s.lowHalfWrite q p inst o v).Canonical :=
  h.guarded (fun h1 => h1.setShadow)

theorem State.Canonical.highHalfWrite {q p inst o v} (h : s.Canonical) :
    (s.highHalfWrite q p inst o v).Canonical :=
  h.guarded (fun h1 => h1.dropShadow.commit)

theorem State.Canonical.descWrite {q a v} (h : s.Canonical) : (s.descWrite q a v).Canonical :=
  .ite h.splCfg (.ite h.splEnds (h.guarded (fun h1 => .ite h1 (.ite h1.setSpl h1.setSpl))))

theorem State.Canonical.write32 {q a v} (h : s.Canonical) : (s.write32 q a v).Canonical := by
  unfold State.write32
  refine .ite h.descWrite ?_
  split
  · exact h.guarded fun h1 => h1
  · exact .ite h.headerWrite (.ite (.ite h.lowHalfWrite h.highHalfWrite) h.blockWrite)

theorem State.Canonical.writeWord {q a be v} (h : s.Canonical) :
    (s.writeWord q a be v).Canonical := by
  unfold State.writeWord
  split
  · exact h.write32
  · split
    · exact h.refuse
    · exact h

theorem State.Canonical.windowWrite {q a0 wide be v} (h : s.Canonical) :
    (s.windowWrite q a0 wide be v).Canonical := by
  unfold State.windowWrite
  dsimp only
  split
  · exact h.writeWord
  · split
    · split
      · exact .ite h.writeWord (h.guarded (fun h1 => h1.commit.dropShadow))
      · exact h
    · exact h.writeWord.writeWord

theorem State.Canonical.readWord {q a} (h : s.Canonical) : (s.readWord q a).Canonical := by
  unfold State.readWord
  extract_lets s1 s2 s3
  have h1 : s1.Canonical := .ite h.ingRead h
  have h2 : s2.Canonical := h1.poolPeek
  refine .ite h2.withRdata (.ite h1.trngRead (.ite h1.calDateRead (.ite h1.calTimeRead ?_)))
  split
  · exact .withRdata h1.loadPortRead
  · refine .ite (.withLany h1.read32) (.ite (.ite h1.withRdata ?_) h1.read32)
    split
    next hb =>
    have h4 := (h1.mdbBufRead.of_snd hb).read32 (q := q) (a := a)
    refine .ite ?_ h4
    split
    next hw => exact .withRdata (h4.draw.of_snd hw)

theorem State.Canonical.readWide {q a} (h : s.Canonical) : (s.readWide q a).Canonical := by
  unfold State.readWide
  dsimp only
  split
  · exact (State.Canonical.ite h.ingRead h).poolPeek
  · split
    · exact (State.Canonical.ite h.ingRead h).trngRead
    · split
      · exact (State.Canonical.ite h.ingRead h).loadPortRead
      · exact (State.Canonical.ite h.ingRead h).read64

theorem State.Canonical.windowRead {q a wide be} (h : s.Canonical) :
    (s.windowRead q a wide be).Canonical := by
  unfold State.windowRead
  extract_lets a' s1
  have h1 : s1.Canonical := h.readBy fun h1 => .ite h1.readWord
    (.ite h1.readWide (.withRdata h1.readWord.readWord))
  exact h1.withRdata

theorem execWindowWrite_canonical {q a wide be v t} (h : s.Canonical) :
    ResCanonical (execWindowWrite q a wide be v t s) :=
  .next h.at.windowWrite

theorem execRcRead_canonical {q a wide be t} (h : s.Canonical) :
    ResCanonical (execRcRead q a wide be t s) :=
  .next h.at.windowRead

theorem execWideLowHalfRead_canonical {q a t} (h : s.Canonical) :
    ResCanonical (execWideLowHalfRead q a t s) :=
  .next h.at.windowRead

theorem execWideLowHalfWrite_canonical {q a v} (h : s.Canonical) :
    ResCanonical (execWideLowHalfWrite q a v s) :=
  .next h.write32

theorem execWideHighHalfWrite_canonical {q a v t} (h : s.Canonical) :
    ResCanonical (execWideHighHalfWrite q a v t s) :=
  .next h.at.write32

theorem execSoftReset_canonical {q page} (h : s.Canonical) :
    ResCanonical (execSoftReset q page s) :=
  .next h.write32

theorem execSoftResetDone_canonical {page ok} (h : s.Canonical) :
    ResCanonical (execSoftResetDone page ok s) := by
  refine .next ?_
  split
  · exact .ite h.srstDone h
  · exact h

theorem execLockRequest_canonical {q page} (h : s.Canonical) :
    ResCanonical (execLockRequest q page s) :=
  .next h.write32

theorem execLockRelease_canonical {q page} (h : s.Canonical) :
    ResCanonical (execLockRelease q page s) :=
  .next h.write32

theorem execLockStickySet_canonical {q page} (h : s.Canonical) :
    ResCanonical (execLockStickySet q page s) :=
  .next h.write32

theorem execPageClaim_canonical {q page tag} (h : s.Canonical) :
    ResCanonical (execPageClaim q page tag s) :=
  .next h.write32

theorem execPageClaimRelease_canonical {q page} (h : s.Canonical) :
    ResCanonical (execPageClaimRelease q page s) :=
  .next h.write32

theorem execIrqSet_canonical {q page v} (h : s.Canonical) : ResCanonical (execIrqSet q page v s) :=
  .next h.write32

theorem execErrorInjectArm_canonical {q page v} (h : s.Canonical) :
    ResCanonical (execErrorInjectArm q page v s) :=
  .next h.write32

/-! The functions of `Sys2Proof/Machine/Debug.lean`. -/

theorem State.Canonical.ack {a} (h : s.Canonical) : (s.ack a).Canonical := h.keep

theorem State.Canonical.dbgFault {cause} (h : s.Canonical) : (s.dbgFault cause).Canonical :=
  h.putF.ack

theorem State.Canonical.answer {v} (h : s.Canonical) : (s.answer v).Canonical := h.keep

theorem State.Canonical.dbgRequest {p want level eff} (h : s.Canonical)
    (heff : ∀ {u : State}, u.Canonical → (eff u).Canonical) :
    (s.dbgRequest p want level eff).Canonical :=
  .ite h.ack (.ite h.cause.dbgFault (.ite h.dbgFault (heff h.ack)))

theorem State.Canonical.setLevel {l} (h : s.Canonical) : (s.setLevel l).Canonical :=
  .ite h.keep h.keep.irq

theorem execDbgLineReset_canonical (h : s.Canonical) : ResCanonical (execDbgLineReset s) :=
  .next (.ite h h.setLevel.keep)

theorem execDbgNop_canonical {p op} (h : s.Canonical) : ResCanonical (execDbgNop p op s) :=
  .next (.ite (.ite h.keep h) (h.dbgRequest fun h1 => h1))

theorem execDbgIdcode_canonical {p} (h : s.Canonical) : ResCanonical (execDbgIdcode p s) :=
  .next (h.dbgRequest (fun h1 => h1.answer))

theorem execDbgStatus_canonical {p} (h : s.Canonical) : ResCanonical (execDbgStatus p s) :=
  .next (h.dbgRequest (fun h1 => h1.putF.answer))

theorem State.Canonical.quietRead {a w64} (h : s.Canonical) : (s.quietRead a w64).Canonical :=
  (State.Canonical.ite_snd h.draw h).keep

theorem State.Canonical.dbgLany {a n} (h : s.Canonical) : (s.dbgLany a n).Canonical :=
  h.lanyInject.lanyFound.keep

theorem State.Canonical.dbgLay {a n} (h : s.Canonical) : (s.dbgLay a n).Canonical := by
  unfold State.dbgLay
  extract_lets lay strand o me
  refine .ite h.withRdata ?_
  split
  · exact .withRdata h.readStrandWord.setStr
  · exact .withRdata h.readStrandWord.setStr
  · exact .withRdata h.readLmemWord

theorem execDbgRead_canonical {p sp w64 a served t} (h : s.Canonical) :
    ResCanonical (execDbgRead p sp w64 a served t s) := by
  refine .next ?_
  refine h.at.dbgRequest fun h1 => ?_
  split
  · exact h1.dbgFault
  · split
    · exact h1.ack
    · dsimp only
      refine State.Canonical.answer ?_
      split
      · exact h1.windowRead
      · exact h1.quietRead
      · exact h1.dbgLany
      · exact h1.dbgLay

theorem State.Canonical.dbgLayWrite {a n v} (h : s.Canonical) :
    (s.dbgLayWrite a n v).Canonical := by
  unfold State.dbgLayWrite
  dsimp only
  split
  · exact h.dbgFault
  · split
    · exact h.storeBytes
    · exact h.storeBytes
    · exact h.storeBytes

theorem State.Canonical.dbgWindow {a w64 v} (h : s.Canonical) : (s.dbgWindow a w64 v).Canonical :=
  .ite h.windowWrite.dbgFault h.windowWrite

theorem execDbgWrite_canonical {p sp w64 a v served t} (h : s.Canonical) :
    ResCanonical (execDbgWrite p sp w64 a v served t s) := by
  refine .next ?_
  refine h.at.dbgRequest fun h1 => ?_
  split
  · exact h1.dbgFault
  · split
    · exact h1.ack
    · split
      · exact h1.dbgWindow
      · exact .ite h1.storeBytes h1.dbgFault
      · exact h1.dbgLayWrite

theorem State.Canonical.freezeLay {lay cause strand multi} (h : s.Canonical) :
    (s.freezeLay lay cause strand multi).Canonical :=
  h.setLay.setLaySt.wr.irq.layEvent

theorem State.Canonical.haltLay {lay} (h : s.Canonical) : (s.haltLay lay).Canonical := by
  unfold State.haltLay
  split
  · exact h.freezeLay
  · exact h.freezeLay

theorem State.Canonical.thawLay {lay count} (h : s.Canonical) : (s.thawLay lay count).Canonical :=
  h.setLaySt.setLay

theorem State.Canonical.haltLany (h : s.Canonical) : s.haltLany.Canonical := .ite h h.keep

theorem State.Canonical.runLany (h : s.Canonical) : s.runLany.Canonical := by
  unfold State.runLany
  extract_lets x s1 s2
  have h1 : s1.Canonical := h.keep
  have h2 : s2.Canonical := .ite h1 h1.setTimer
  exact .ite h (.ite (State.Canonical.withLany h2).enterSafety h2)

theorem execDbgHalt_canonical {p mask lany t} (h : s.Canonical) :
    ResCanonical (execDbgHalt p mask lany t s) :=
  .next (h.at.dbgRequest (fun h1 => .ite h1.dbgFault
    (.ite (h1.foldl fun _ h2 => h2.haltLay).haltLany (h1.foldl fun _ h2 => h2.haltLay))))

theorem execDbgRun_canonical {p mask lany t} (h : s.Canonical) :
    ResCanonical (execDbgRun p mask lany t s) :=
  .next (h.at.dbgRequest (fun h1 => .ite h1.dbgFault (.ite (h1.foldl fun _ h2 => h2.thawLay).runLany
    (h1.foldl fun _ h2 => h2.thawLay))))

theorem execDbgStep_canonical {p lay lany count t} (h : s.Canonical) :
    ResCanonical (execDbgStep p lay lany count t s) :=
  .next (h.at.dbgRequest (fun h1 => .ite h1.runLany.haltLany
    (.ite h1.dbgFault (.ite h1 h1.thawLay))))

theorem execDbgStepEnd_canonical {lay} (h : s.Canonical) : ResCanonical (execDbgStepEnd lay s) :=
  .next (.ite h.freezeLay h)

theorem execLayBreakpointFreeze_canonical {lay} (h : s.Canonical) :
    ResCanonical (execLayBreakpointFreeze lay s) := by
  refine .next ?_
  split
  · exact h
  · split
    · exact h
    · exact h.freezeLay

theorem execLanyardBreakpoint_canonical {a t} (h : s.Canonical) :
    ResCanonical (execLanyardBreakpoint a t s) :=
  .next (.ite h.at.haltLany h.at)

theorem State.Canonical.endFreezes (h : s.Canonical) : s.endFreezes.Canonical :=
  (h.foldl fun _ h1 => .ite h1.thawLay h1.setLay).runLany

theorem execDbgNewchal_canonical {p sought t} (h : s.Canonical) :
    ResCanonical (execDbgNewchal p sought t s) :=
  .next (h.at.dbgRequest (fun h1 => .ite h1.ack (.ite h1.dbgFault h1.setLevel.random.keep)))

theorem execDbgChal_canonical {p word} (h : s.Canonical) : ResCanonical (execDbgChal p word s) :=
  .next (h.dbgRequest (fun h1 => h1.answer))

theorem execDbgResp_canonical {p word v} (h : s.Canonical) :
    ResCanonical (execDbgResp p word v s) :=
  .next (h.dbgRequest (fun h1 => .ite h1.dbgFault h1.keep))

theorem execDbgAuth_canonical {p t} (h : s.Canonical) : ResCanonical (execDbgAuth p t s) := by
  refine .next ?_
  refine h.at.dbgRequest fun h1 => ?_
  split
  · exact .ite h1.keep h1.keep.dbgFault
  · exact h1.keep

theorem State.Canonical.cmacGood (h : s.Canonical) : s.cmacGood.2.Canonical := by
  unfold State.cmacGood
  extract_lets k
  split
  refine .ite_snd h ?_
  extract_lets s1 u serial m
  have h1 : s1.Canonical := h.readSlot
  cases u with
  | some x => exact h1.afterUse
  | none => exact h1

theorem execDbgAuthComplete_canonical {t} (h : s.Canonical) :
    ResCanonical (execDbgAuthComplete t s) := by
  refine .next (.ite h.at ?_)
  extract_lets l
  split
  next ok s1 hok =>
  have h1 : s1.Canonical := State.Canonical.of_snd (.ite_snd h.at (.ite_snd h.at.cmacGood h.at)) hok
  extract_lets x s2 s3 s4
  have h2 : s2.Canonical := h1.keep
  have h3 : s3.Canonical := h2.lanyEvent
  exact .ite h3.setLevel (.withDbg h3.bump.cause)

theorem execDbgReset_canonical {p key} (h : s.Canonical) : ResCanonical (execDbgReset p key s) :=
  .next (h.dbgRequest (fun h1 => .ite h1.chipReset.ack h1.dbgFault))

/-! The functions of `Sys2Proof/Machine/Boot.lean`. -/

theorem State.Canonical.sysRestore (h : s.Canonical) : s.sysRestore.Canonical :=
  .ite h.evrRestore.totRestore h.evrRestore

theorem State.Canonical.domainUp {d} (h : s.Canonical) : (s.domainUp d).Canonical :=
  .ite h (State.Canonical.ite h.setDom.putBit.putF.sysRestore (.ite h.setDom.putBit.putF.wakeRelease
    (.ite h.setDom.putBit.putF.tsuStart (.ite h.setDom.putBit.putF.lcsStart
    h.setDom.putBit.putF)))).domainReply

theorem execDomainOnComplete_canonical {d} (h : s.Canonical) :
    ResCanonical (execDomainOnComplete d s) :=
  .next h.domainUp

theorem State.Canonical.powerUp {d} (h : s.Canonical) : (s.powerUp d).Canonical := h.turnOn.domainUp

theorem State.Canonical.useGolden {kind} (h : s.Canonical) : (s.useGolden kind).Canonical :=
  h.putBit.lanyEvent

theorem State.Canonical.copySector {kind i bad} (h : s.Canonical) :
    (s.copySector kind i bad).Canonical := by
  unfold State.copySector
  refine .ite ?_ h.norErase.norProgram
  split
  next hd => exact (h.norErase.drawN.of_snd hd).setBytes

theorem State.Canonical.copySectors {kind version rollback bad n i left} (h : s.Canonical) :
    (s.copySectors kind version rollback bad n i left).2.Canonical := by
  induction n generalizing s i left with
  | zero => exact h
  | succ n ih =>
    cases left with
    | zero => exact h
    | succ left =>
      unfold State.copySectors
      exact ih h.copySector.journalAdd

theorem State.Canonical.copyDone {kind version rollback} (h : s.Canonical) :
    (s.copyDone kind version rollback).2.Canonical := by
  unfold State.copyDone
  extract_lets was otp s1
  have h1 : s1.Canonical := .ite h.keep h
  exact .withVersions h1.journalAdd

theorem State.Canonical.copyFrom {kind sector version rollback bad left} (h : s.Canonical) :
    (s.copyFrom kind sector version rollback bad left).2.2.Canonical := by
  unfold State.copyFrom
  extract_lets n
  split
  · next hc => exact h.copySectors.of_snd hc
  · next hc =>
    have h1 := h.copySectors.of_snd hc
    refine .ite_snd_snd h1.copyDone ?_
    split
    · next hc => exact h1.copySectors.of_snd hc
    · next hc =>
      have h2 := h1.copySectors.of_snd hc
      exact .ite_snd_snd h2.copyDone (.snd_snd_mk h2.journalAdd)

theorem State.Canonical.copyKind {kind bad left} (h : s.Canonical) :
    (s.copyKind kind bad left).2.2.Canonical := by
  unfold State.copyKind
  split
  · exact .ite_snd_snd h.journalAdd.copyFrom (.snd_snd_mk h.journalAdd)
  · exact h.copyFrom
  · exact h

theorem State.Canonical.copyKinds {bad ks left} (h : s.Canonical) :
    (s.copyKinds bad ks left).2.2.Canonical := by
  obtain ⟨f, hf⟩ : ∃ f, @State.copyKinds = f := ⟨_, rfl⟩
  obtain ⟨one, hr⟩ : ∃ r, r = @State.copyKind := ⟨_, rfl⟩
  have one_canonical {u : State} {k b n} (h : u.Canonical) : (one u k b n).2.2.Canonical :=
    hr ▸ h.copyKind
  rw [hf]
  delta State.copyKinds State.copyKinds._f at hf
  rw [← hr] at hf
  induction ks generalizing s left with
  | nil =>
    subst hf
    exact h
  | cons k ks ih =>
    have step : f s bad (k :: ks) left = match one s k (bad k) left with
        | (none, l, s) => (none, l, s)
        | (some left, l, s) => ((f s bad ks left).1, l ++ (f s bad ks left).2.1,
          (f s bad ks left).2.2) := by
      subst hf
      rfl
    rw [step]
    split
    · next hk => exact (one_canonical h).of_snd_snd hk
    · next hk => exact ih ((one_canonical h).of_snd_snd hk)

theorem State.Canonical.bootStage {stage code} (h : s.Canonical) :
    (s.bootStage stage code).Canonical :=
  h.putF.putF

theorem State.Canonical.romWait (h : s.Canonical) : s.romWait.Canonical :=
  .ite h.bootStage.putBit.pinPulse h.bootStage

theorem State.Canonical.loadLany {b} (h : s.Canonical) : (s.loadLany b).Canonical :=
  h.foldl fun _ h1 => .ite h1.setBytes h1

theorem State.Canonical.handover {golden events} (h : s.Canonical) :
    (s.handover golden events).Canonical := by
  unfold State.handover
  extract_lets s1 t1 t2 lany s2 s3 s4
  have h2 : s2.Canonical := h.loadLany.withLany.lanyStage
  have h4 : s4.Canonical := h2.putBit.bootStage.foldl fun _ h => h.lanyEvent
  exact .ite h4.useGolden h4

theorem State.Canonical.otpLoad (h : s.Canonical) : s.otpLoad.Canonical := .ite h.irq h

theorem State.Canonical.boot {bad left} (h : s.Canonical) : (s.boot bad left).Canonical := by
  unfold State.boot
  refine .ite h (.ite h.otpLoad.sysRestore.powerUp ?_)
  extract_lets s1
  have h1 : s1.Canonical := h.otpLoad.sysRestore.powerUp.powerUp.bootStage
  split
  next hc => exact h1.copyKinds.of_snd_snd hc
  next hc =>
    extract_lets s2
    have h2 : s2.Canonical := (h1.copyKinds.of_snd_snd hc).bootStage
    exact .ite h2.handover (.ite h2.handover h2.romWait)

theorem execBoot_canonical {bad left t} (h : s.Canonical) : ResCanonical (execBoot bad left t s) :=
  .next h.at.boot

theorem State.Canonical.startDescs (h : s.Canonical) : s.startDescs.Canonical :=
  h.foldl fun _ h1 => h1.wr.wr

theorem State.Canonical.journalClean (h : s.Canonical) : s.journalClean.Canonical :=
  .ite h h.norErase

theorem State.Canonical.resumeStart {kind} (h : s.Canonical) : (s.resumeStart kind).Canonical :=
  .ite h h.resPut

theorem State.Canonical.settingsForce {a1} (h : s.Canonical) : (s.settingsForce a1).Canonical :=
  h.settingsApply.foldl fun _ h1 => h1.lanyEvent

theorem State.Canonical.settingsStart (h : s.Canonical) : s.settingsStart.Canonical := by
  unfold State.settingsStart
  extract_lets s1
  have h1 : s1.Canonical := by
    unfold s1
    split
    · exact .ite h.settingsForce h.settingsReset
    · exact h
  exact h1.foldl fun _ h => h.setBk

theorem State.Canonical.measStart (h : s.Canonical) : s.measStart.Canonical :=
  (State.Canonical.ite ((h.foldl fun _ h1 => h1.mpWrite).foldl fun _ h1 => h1.mpWrite)
    (.ite ((h.useGolden.foldl fun _ h1 => h1.mpWrite).foldl fun _ h1 => h1.mpWrite) h)).measEnable

theorem State.Canonical.rigStart (h : s.Canonical) : s.rigStart.Canonical := by
  have hload {u : State} {l n} (hu : u.Canonical) : (u.rigOrder l n State.closeAll).Canonical :=
    hu.rigOrder fun h => h.closeAll
  unfold State.rigStart
  extract_lets load s1
  have h1 : s1.Canonical := .ite (hload h) h
  exact .ite h1 (.ite (hload h1.useGolden) h1)

theorem State.Canonical.portOn {p inst} (h : s.Canonical) : (s.portOn p inst).Canonical :=
  .ite h h.enEffect

theorem State.Canonical.portsStart (h : s.Canonical) : s.portsStart.Canonical :=
  h.foldl fun _ h1 => h1.foldl fun _ h2 => h2.portOn

theorem State.Canonical.tableStart {streams} (h : s.Canonical) :
    (s.tableStart streams).Canonical := by
  unfold State.tableStart
  dsimp only
  split
  · exact h
  · exact .ite h.tableReload h.lanyEvent

theorem State.Canonical.ddrStart (h : s.Canonical) : s.ddrStart.Canonical := h.putBit

theorem State.Canonical.firmwareStart {unreadable ms} (h : s.Canonical) :
    (s.firmwareStart unreadable ms).Canonical := by
  unfold State.firmwareStart
  extract_lets x s1 s2 s3 s4 s5 s6 s7 s8 s9 s10 s11 s12 s13
  have h3 : s3.Canonical := h.withLany.setTimer.recordDue.putBit.lanyEvent
  have h4 : s4.Canonical := .ite h3 h3.lanyEvent
  have h5 : s5.Canonical := by
    unfold s5
    split
    · exact .ite h4.lanyEvent h4
    · exact h4
  have h6 : s6.Canonical := h5.journalClean.foldl fun _ h => h.resumeStart
  have h7 : s7.Canonical := h6.startDescs.foldl fun _ h => h.powerUp
  have h11 : s11.Canonical := h7.settingsStart.ingEnable.portsStart.catalogueRestore.measStart.ddrStart.nandEnable.rigStart
  have h12 : s12.Canonical := h11.scanAll.scanDone.tableStart
  have h13 : s13.Canonical := .ite h12.setRole (.ite h12.openSequence h12)
  exact h13.lanyStage

theorem execStartUp_canonical {bad left unreadable ms t} (h : s.Canonical) :
    ResCanonical (execStartUp bad left unreadable ms t s) :=
  .next (.ite h.at.boot.firmwareStart h.at.boot)

theorem State.Canonical.limitStart {i} (h : s.Canonical) : (s.limitStart i).Canonical := by
  unfold State.limitStart
  dsimp only
  split
  · exact h
  · exact .ite h h.reserve

theorem State.Canonical.takeoverEnd (h : s.Canonical) : s.takeoverEnd.Canonical := by
  unfold State.takeoverEnd
  extract_lets s1 s2 s3 s4 s5 s6 s7
  have h3 : s3.Canonical := (h.foldl fun _ h => h.powerUp).ddrStart.catalogueRestore.rigStart
  have h4 : s4.Canonical := by
    unfold s4
    split
    · exact h3.settingsForce
    · exact h3
  have h5 : s5.Canonical := h4.foldl fun _ h => h.limitStart
  have h7 : s7.Canonical := h5.measStart.tableStart.portsStart.foldl fun _ h => h.oweAll
  exact h7.becomeActive

theorem execTakeoverComplete_canonical {t} (h : s.Canonical) :
    ResCanonical (execTakeoverComplete t s) :=
  .next (.ite h.at.takeoverEnd h.at)

theorem State.Canonical.linksOff (h : s.Canonical) : s.linksOff.Canonical := by
  unfold State.linksOff
  extract_lets s1 s2
  have h1 : s1.Canonical := .ite h (h.foldl fun _ h => .ite h h.putBit.putBit.putF.ethIrq.ethCause)
  have h2 : s2.Canonical := .ite h1.putF.linkDown h1
  exact .ite h2 h2.putBit.putF.putF.irq.cause

theorem State.Canonical.lastTransfer (h : s.Canonical) : s.lastTransfer.Canonical :=
  .ite h.transfer h.transfer.dieServe

theorem State.Canonical.powerFail (h : s.Canonical) : s.powerFail.Canonical :=
  ((State.Canonical.ite h.putBit.cause.irq.endFreezes.closeAll h.putBit.cause.irq.endFreezes).foldl
    fun _ h1 => .ite h1.putBit h1).copyEnd.lastTransfer.flushStart.linksOff.foldl fun _ h1 => .ite
    h1.turnOff h1

theorem execPowerFail_canonical {monitor t} (h : s.Canonical) :
    ResCanonical (execPowerFail monitor t s) :=
  .next (.ite h.at h.at.powerFail)

theorem execPowerFailDone_canonical {t} (h : s.Canonical) : ResCanonical (execPowerFailDone t s) :=
  .next (.ite h.at (h.at.putBit.setTimer.foldl fun _ h1 => h1.turnOff))

theorem execPowerReturn_canonical {t} (h : s.Canonical) : ResCanonical (execPowerReturn t s) :=
  .next (.ite h.at.chipReset h.at)

/-! The functions of `Sys2Proof/Machine/Tick.lean`. -/

theorem State.Canonical.fetchBundle {lay k} (h : s.Canonical) : (s.fetchBundle lay k).2.Canonical :=
  h.readStrandWord.readStrandWord.setStr

theorem State.Canonical.issueLay {lay} (h : s.Canonical) : (s.issueLay lay).2.Canonical :=
  h.setLay.foldl_snd fun _ h1 => .ite_snd h1.fetchBundle h1

theorem State.Canonical.stepCycle {n} (h : s.Canonical) : (s.stepCycle n).Canonical :=
  .ite h.setLay h

theorem State.Canonical.closeCycle {lay} (h : s.Canonical) : (s.closeCycle lay).2.Canonical :=
  State.Canonical.ite h.readVtab.endCycle.stepCycle h.readVtab.endCycle.stepCycle.setLay

theorem State.Canonical.tickLay {lay} (h : s.Canonical) : (s.tickLay lay).2.Canonical :=
  .ite_snd h (.ite_snd h.closeCycle (.ite_snd h (.ite_snd h.closeCycle (.ite_snd h h.issueLay))))

theorem State.Canonical.tick (h : s.Canonical) : s.tick.Canonical := by
  unfold State.tick
  extract_lets r
  have hr : r.2.Canonical := .foldl_snd h fun _ h1 => .tickLay h1
  exact .withPending hr.ringsGo

/-! The functions of `Sys2Proof/Machine/Step.lean`. -/

theorem exec_canonical {i} (h : s.Canonical) : ResCanonical (exec i s) := by
  cases i with
  | windowWrite => exact execWindowWrite_canonical h
  | rcRead => exact execRcRead_canonical h
  | wideLowHalfRead => exact execWideLowHalfRead_canonical h
  | wideLowHalfWrite => exact execWideLowHalfWrite_canonical h
  | wideHighHalfWrite => exact execWideHighHalfWrite_canonical h
  | softReset => exact execSoftReset_canonical h
  | softResetDone => exact execSoftResetDone_canonical h
  | lockRequest => exact execLockRequest_canonical h
  | lockRelease => exact execLockRelease_canonical h
  | lockStickySet => exact execLockStickySet_canonical h
  | pageClaim => exact execPageClaim_canonical h
  | pageClaimRelease => exact execPageClaimRelease_canonical h
  | irqSet => exact execIrqSet_canonical h
  | errorInjectArm => exact execErrorInjectArm_canonical h
  | nop =>
    unfold exec
    exact execNop_canonical h
  | add => exact execAdd_canonical h
  | sub => exact execSub_canonical h
  | and => exact execAnd_canonical h
  | or => exact execOr_canonical h
  | xor => exact execXor_canonical h
  | andn => exact execAndn_canonical h
  | shl => exact execShl_canonical h
  | shr => exact execShr_canonical h
  | sar => exact execSar_canonical h
  | ror => exact execRor_canonical h
  | sel => exact execSel_canonical h
  | minu => exact execMinu_canonical h
  | maxu => exact execMaxu_canonical h
  | mins => exact execMins_canonical h
  | maxs => exact execMaxs_canonical h
  | addi => exact execAddi_canonical h
  | andi => exact execAndi_canonical h
  | ori => exact execOri_canonical h
  | xori => exact execXori_canonical h
  | shli => exact execShli_canonical h
  | shri => exact execShri_canonical h
  | sari => exact execSari_canonical h
  | rori => exact execRori_canonical h
  | movz => exact execMovz_canonical h
  | movk0 => exact execMovk0_canonical h
  | movk1 => exact execMovk1_canonical h
  | movk2 => exact execMovk2_canonical h
  | movk3 => exact execMovk3_canonical h
  | bswap => exact execBswap_canonical h
  | clz => exact execClz_canonical h
  | popc => exact execPopc_canonical h
  | cmpeq => exact execCmpeq_canonical h
  | cmpne => exact execCmpne_canonical h
  | cmpltu => exact execCmpltu_canonical h
  | cmplts => exact execCmplts_canonical h
  | cmpleu => exact execCmpleu_canonical h
  | cmples => exact execCmples_canonical h
  | cmpeqi => exact execCmpeqi_canonical h
  | cmpnei => exact execCmpnei_canonical h
  | cmpltui => exact execCmpltui_canonical h
  | cmpltsi => exact execCmpltsi_canonical h
  | tbit => exact execTbit_canonical h
  | pand => exact execPand_canonical h
  | por => exact execPor_canonical h
  | pxor => exact execPxor_canonical h
  | mul => exact execMul_canonical h
  | mulhu => exact execMulhu_canonical h
  | mulhs => exact execMulhs_canonical h
  | sid => exact execSid_canonical h
  | divu => exact execDivu_canonical h
  | divs => exact execDivs_canonical h
  | remu => exact execRemu_canonical h
  | rems => exact execRems_canonical h
  | br => exact execBr_canonical h
  | brl => exact execBrl_canonical h
  | brr => exact execBrr_canonical h
  | chk => exact execChk_canonical h
  | tend => exact execTend_canonical h
  | ld8u => exact execLd8u_canonical h
  | ld16u => exact execLd16u_canonical h
  | ld32u => exact execLd32u_canonical h
  | ld32s => exact execLd32s_canonical h
  | ld64 => exact execLd64_canonical h
  | ld128 => exact execLd128_canonical h
  | st8 => exact execSt8_canonical h
  | st16 => exact execSt16_canonical h
  | st32 => exact execSt32_canonical h
  | st64 => exact execSt64_canonical h
  | st128 => exact execSt128_canonical h
  | pope => exact execPope_canonical h
  | popo => exact execPopo_canonical h
  | poper => exact execPoper_canonical h
  | popor => exact execPopor_canonical h
  | push => exact execPush_canonical h
  | pushr => exact execPushr_canonical h
  | semp => exact execSemp_canonical h
  | sfull => exact execSfull_canonical h
  | klds => exact execKlds_canonical h
  | kldd => exact execKldd_canonical h
  | kldw => exact execKldw_canonical h
  | keyLoadDone => exact execKeyLoadDone_canonical h
  | kst => exact execKst_canonical h
  | kclr => exact execKclr_canonical h
  | aesb => exact execAesb_canonical h
  | gmul => exact execGmul_canonical h
  | crc16 => exact execCrc16_canonical h
  | crc32 => exact execCrc32_canonical h
  | macu => exact execMacu_canonical h
  | macs => exact execMacs_canonical h
  | macz => exact execMacz_canonical h
  | macrl => exact execMacrl_canonical h
  | macrh => exact execMacrh_canonical h
  | strandScrub => exact execStrandScrub_canonical h
  | debugDataWrite => exact execDebugDataWrite_canonical h
  | turnBoundary => exact execTurnBoundary_canonical h
  | dbgStepEnd => exact execDbgStepEnd_canonical h
  | layBreakpointFreeze => exact execLayBreakpointFreeze_canonical h
  | clockMonitorWindow => exact execClockMonitorWindow_canonical h
  | crossDomainVisibility => exact execCrossDomainVisibility_canonical h
  | ddrSlot => exact execDdrSlot_canonical h
  | ddrBurstComplete => exact execDdrBurstComplete_canonical h
  | pkeSlot => exact execPkeSlot_canonical h
  | pkeVerifyRequest => exact execPkeVerifyRequest_canonical h
  | pkeVerifyComplete => exact execPkeVerifyComplete_canonical h
  | layArm => exact execLayArm_canonical h
  | layDisarm => exact execLayDisarm_canonical h
  | layGo => exact execLayGo_canonical h
  | layStop => exact execLayStop_canonical h
  | layResume => exact execLayResume_canonical h
  | layReturn => exact execLayReturn_canonical h
  | loadPortRead => exact execLoadPortRead_canonical h
  | loadPortWrite => exact execLoadPortWrite_canonical h
  | layMemScrub => exact execLayMemScrub_canonical h
  | riggingLoad => exact execRiggingLoad_canonical h
  | riggingReplaceDrained => exact execRiggingReplaceDrained_canonical h
  | riggingReplaceTimeout => exact execRiggingReplaceTimeout_canonical h
  | spliceConfigWrite => exact execSpliceConfigWrite_canonical h
  | spliceEndsWrite => exact execSpliceEndsWrite_canonical h
  | blockCommit => exact execBlockCommit_canonical h
  | pointerCheck => exact execPointerCheck_canonical h
  | poolScrub => exact execPoolScrub_canonical h
  | spliceFlush => exact execSpliceFlush_canonical h
  | poolPeek => exact execPoolPeek_canonical h
  | hostCommand => exact execHostCommand_canonical h
  | frameAdmission => exact execFrameAdmission_canonical h
  | ingestEnable => exact execIngestEnable_canonical h
  | creditRefill => exact execCreditRefill_canonical h
  | ingestReseed => exact execIngestReseed_canonical h
  | openSeq => exact execOpenSeq_canonical h
  | classOpenStep => exact execClassOpenStep_canonical h
  | closeAll => exact execCloseAll_canonical h
  | openAll => exact execOpenAll_canonical h
  | ackReport => exact execAckReport_canonical h
  | lateScan => exact execLateScan_canonical h
  | sourceCommit => exact execSourceCommit_canonical h
  | sourceLoad => exact execSourceLoad_canonical h
  | readingValidate => exact execReadingValidate_canonical h
  | ackCommit => exact execAckCommit_canonical h
  | ackCellConsumed => exact execAckCellConsumed_canonical h
  | query => exact execQuery_canonical h
  | rosterWrite => exact execRosterWrite_canonical h
  | mdbHostRead => exact execMdbHostRead_canonical h
  | mdbSingleWrite => exact execMdbSingleWrite_canonical h
  | mdbBulkLoad => exact execMdbBulkLoad_canonical h
  | mdbBulkAbort => exact execMdbBulkAbort_canonical h
  | mdbCommandDone => exact execMdbCommandDone_canonical h
  | checkpointPass => exact execCheckpointPass_canonical h
  | tableReload => exact execTableReload_canonical h
  | cosemRequest => exact execCosemRequest_canonical h
  | associationTimeout => exact execAssociationTimeout_canonical h
  | roleReservation => exact execRoleReservation_canonical h
  | tariffLoad => exact execTariffLoad_canonical h
  | switchListRefill => exact execSwitchListRefill_canonical h
  | tariffDistribution => exact execTariffDistribution_canonical h
  | tariffSend => exact execTariffSend_canonical h
  | tariffResponseTimeout => exact execTariffResponseTimeout_canonical h
  | tokenRedeem => exact execTokenRedeem_canonical h
  | creditActionTimeout => exact execCreditActionTimeout_canonical h
  | measSample => exact execMeasSample_canonical h
  | channelStuck => exact execChannelStuck_canonical h
  | syntTrim => exact execSyntTrim_canonical h
  | measEnable => exact execMeasEnable_canonical h
  | measSettled => exact execMeasSettled_canonical h
  | oneSecondTransfer => exact execOneSecondTransfer_canonical h
  | totalsCopyWritten => exact execTotalsCopyWritten_canonical h
  | intervalValuePush => exact execIntervalValuePush_canonical h
  | snapshotMessage => exact execSnapshotMessage_canonical h
  | pulseStart => exact execPulseStart_canonical h
  | pulseEnd => exact execPulseEnd_canonical h
  | pulseConfigWrite => exact execPulseConfigWrite_canonical h
  | mpCommit => exact execMpCommit_canonical h
  | totClear => exact execTotClear_canonical h
  | totSnap => exact execTotSnap_canonical h
  | totSwitchWrite => exact execTotSwitchWrite_canonical h
  | totDmConfig => exact execTotDmConfig_canonical h
  | lineCycle => exact execLineCycle_canonical h
  | contributionCell => exact execContributionCell_canonical h
  | closeOrder => exact execCloseOrder_canonical h
  | forcedClose => exact execForcedClose_canonical h
  | closureNotice => exact execClosureNotice_canonical h
  | nodeDecl => exact execNodeDecl_canonical h
  | nodeRemove => exact execNodeRemove_canonical h
  | nodeReset => exact execNodeReset_canonical h
  | nodeRead => exact execNodeRead_canonical h
  | reportPush => exact execReportPush_canonical h
  | balanceStatus => exact execBalanceStatus_canonical h
  | balNoStatus => exact execBalNoStatus_canonical h
  | balCommit => exact execBalCommit_canonical h
  | radioEnable => exact execRadioEnable_canonical h
  | transceiverIrq => exact execTransceiverIrq_canonical h
  | txDoneTimeout => exact execTxDoneTimeout_canonical h
  | ccaTimeout => exact execCcaTimeout_canonical h
  | timeStrobe => exact execTimeStrobe_canonical h
  | fieldFrameReceived => exact execFieldFrameReceived_canonical h
  | macAckSend => exact execMacAckSend_canonical h
  | reassemblyTimeout => exact execReassemblyTimeout_canonical h
  | neighbourCommit => exact execNeighbourCommit_canonical h
  | neighbourLoad => exact execNeighbourLoad_canonical h
  | counterImageFlush => exact execCounterImageFlush_canonical h
  | txctrReserve => exact execTxctrReserve_canonical h
  | txctrReset => exact execTxctrReset_canonical h
  | transmitMessage => exact execTransmitMessage_canonical h
  | backoffExpiry => exact execBackoffExpiry_canonical h
  | ccaResult => exact execCcaResult_canonical h
  | txDone => exact execTxDone_canonical h
  | ackWaitTimeout => exact execAckWaitTimeout_canonical h
  | txStatusCell => exact execTxStatusCell_canonical h
  | indirectExpiry => exact execIndirectExpiry_canonical h
  | xregAccess => exact execXregAccess_canonical h
  | macReseed => exact execMacReseed_canonical h
  | zeroCrossingEdge => exact execZeroCrossingEdge_canonical h
  | zeroCrossingLoss => exact execZeroCrossingLoss_canonical h
  | beaconSend => exact execBeaconSend_canonical h
  | plcStartupEnd => exact execPlcStartupEnd_canonical h
  | slotTmrSend => exact execSlotTmrSend_canonical h
  | intervalMark => exact execIntervalMark_canonical h
  | tsuSecondBoundary => exact execTsuSecondBoundary_canonical h
  | ppsPulseEnd => exact execPpsPulseEnd_canonical h
  | ptpMessageReceived => exact execPtpMessageReceived_canonical h
  | ptpMessageSend => exact execPtpMessageSend_canonical h
  | ptpOffsetMeasurement => exact execPtpOffsetMeasurement_canonical h
  | ptpSourceLoss => exact execPtpSourceLoss_canonical h
  | tsuSlewWrite => exact execTsuSlewWrite_canonical h
  | slewDone => exact execSlewDone_canonical h
  | tsuStep => exact execTsuStep_canonical h
  | captureEdge => exact execCaptureEdge_canonical h
  | rtcSecondCarry => exact execRtcSecondCarry_canonical h
  | rtcHalt => exact execRtcHalt_canonical h
  | rtcResume => exact execRtcResume_canonical h
  | rtcTimeWrite => exact execRtcTimeWrite_canonical h
  | rtcDiscipline => exact execRtcDiscipline_canonical h
  | rtcCalRead => exact execRtcCalRead_canonical h
  | rtcCalWrite => exact execRtcCalWrite_canonical h
  | oscStop => exact execOscStop_canonical h
  | oscResume => exact execOscResume_canonical h
  | switchToVbat => exact execSwitchToVbat_canonical h
  | switchToMain => exact execSwitchToMain_canonical h
  | backupLoss => exact execBackupLoss_canonical h
  | keyGenerate => exact execKeyGenerate_canonical h
  | keyDerive => exact execKeyDerive_canonical h
  | keyImport => exact execKeyImport_canonical h
  | keyExport => exact execKeyExport_canonical h
  | keyRewrap => exact execKeyRewrap_canonical h
  | keyInvalidate => exact execKeyInvalidate_canonical h
  | keySetMask => exact execKeySetMask_canonical h
  | keySweep => exact execKeySweep_canonical h
  | keyWipe => exact execKeyWipe_canonical h
  | keyCommandDone => exact execKeyCommandDone_canonical h
  | catalogueRestore => exact execCatalogueRestore_canonical h
  | lcsRootNew => exact execLcsRootNew_canonical h
  | tamperSample => exact execTamperSample_canonical h
  | tamperLatchClear => exact execTamperLatchClear_canonical h
  | cryptoSelfTest => exact execCryptoSelfTest_canonical h
  | trngHealthFail => exact execTrngHealthFail_canonical h
  | drbgReseed => exact execDrbgReseed_canonical h
  | trngRead => exact execTrngRead_canonical h
  | lcsTransitionRequest => exact execLcsTransitionRequest_canonical h
  | lcsTransitionReset => exact execLcsTransitionReset_canonical h
  | lcsNewChallenge => exact execLcsNewChallenge_canonical h
  | lcsAuthExpiry => exact execLcsAuthExpiry_canonical h
  | otpProgram => exact execOtpProgram_canonical h
  | aeadGcmEncrypt => exact execAeadGcmEncrypt_canonical h
  | aeadGcmDecrypt => exact execAeadGcmDecrypt_canonical h
  | aeadCcmEncrypt => exact execAeadCcmEncrypt_canonical h
  | aeadCcmDecrypt => exact execAeadCcmDecrypt_canonical h
  | aeadCmac => exact execAeadCmac_canonical h
  | aeadCtr => exact execAeadCtr_canonical h
  | aeadSelftest => exact execAeadSelftest_canonical h
  | hashSha256 => exact execHashSha256_canonical h
  | hashSha384 => exact execHashSha384_canonical h
  | hashSelftest => exact execHashSelftest_canonical h
  | jobDone => exact execJobDone_canonical h
  | pkeVerify256 => exact execPkeVerify256_canonical h
  | pkeVerify384 => exact execPkeVerify384_canonical h
  | pkeSign => exact execPkeSign_canonical h
  | pkeKeygen => exact execPkeKeygen_canonical h
  | pkePubkey => exact execPkePubkey_canonical h
  | pkeEcdh => exact execPkeEcdh_canonical h
  | pkeVerifyLcs => exact execPkeVerifyLcs_canonical h
  | pkeSelftest => exact execPkeSelftest_canonical h
  | pkeJobDone => exact execPkeJobDone_canonical h
  | nandInit => exact execNandInit_canonical h
  | nandScan => exact execNandScan_canonical h
  | nandScanDone => exact execNandScanDone_canonical h
  | nandRequestPop => exact execNandRequestPop_canonical h
  | nandFramePeriod => exact execNandFramePeriod_canonical h
  | nandSlot => exact execNandSlot_canonical h
  | nandProgramComplete => exact execNandProgramComplete_canonical h
  | checkpointFetch => exact execCheckpointFetch_canonical h
  | nandReadComplete => exact execNandReadComplete_canonical h
  | nandRelease => exact execNandRelease_canonical h
  | nandEraseComplete => exact execNandEraseComplete_canonical h
  | relocationCopy => exact execRelocationCopy_canonical h
  | journalProgram => exact execJournalProgram_canonical h
  | nandScrubRead => exact execNandScrubRead_canonical h
  | nandFull => exact execNandFull_canonical h
  | nandTempSample => exact execNandTempSample_canonical h
  | lockstepMismatch => exact execLockstepMismatch_canonical h
  | lanyardScrub => exact execLanyardScrub_canonical h
  | safetyGateCall => exact execSafetyGateCall_canonical h
  | safetyReturn => exact execSafetyReturn_canonical h
  | mailboxRequest => exact execMailboxRequest_canonical h
  | mbStatus => exact execMbStatus_canonical h
  | mbRiggingLoad => exact execMbRiggingLoad_canonical h
  | mbStrandReturn => exact execMbStrandReturn_canonical h
  | mbStrandKeepOut => exact execMbStrandKeepOut_canonical h
  | mbRoster => exact execMbRoster_canonical h
  | mbKey => exact execMbKey_canonical h
  | mbLifeCycle => exact execMbLifeCycle_canonical h
  | mbRootNew => exact execMbRootNew_canonical h
  | mbOtpProgram => exact execMbOtpProgram_canonical h
  | updatePiece => exact execUpdatePiece_canonical h
  | updateStatus => exact execUpdateStatus_canonical h
  | updateActivate => exact execUpdateActivate_canonical h
  | updateImageStore => exact execUpdateImageStore_canonical h
  | settingsSave => exact execSettingsSave_canonical h
  | settingsDefaults => exact execSettingsDefaults_canonical h
  | mbDomain => exact execMbDomain_canonical h
  | mbHealth => exact execMbHealth_canonical h
  | mbWdogSet => exact execMbWdogSet_canonical h
  | noticePush => exact execNoticePush_canonical h
  | lanyardSplicePop => exact execLanyardSplicePop_canonical h
  | sensorSample => exact execSensorSample_canonical h
  | lifetimeRecordUpdate => exact execLifetimeRecordUpdate_canonical h
  | hostWatchdogKick => exact execHostWatchdogKick_canonical h
  | hostWatchdogExpiry => exact execHostWatchdogExpiry_canonical h
  | lanyardWatchdogKick => exact execLanyardWatchdogKick_canonical h
  | lanyWarn => exact execLanyWarn_canonical h
  | lanyardWatchdogReset => exact execLanyardWatchdogReset_canonical h
  | lanyardInjectArm => exact execLanyardInjectArm_canonical h
  | faultLatch => exact execFaultLatch_canonical h
  | pulseNotLatched => exact execPulseNotLatched_canonical h
  | fcStatusClear => exact execFcStatusClear_canonical h
  | fcForce => exact execFcForce_canonical h
  | errPinPulseEnd => exact execErrPinPulseEnd_canonical h
  | errPinRelease => exact execErrPinRelease_canonical h
  | evrSubmit => exact execEvrSubmit_canonical h
  | evrCellPop => exact execEvrCellPop_canonical h
  | evrFlushTimer => exact execEvrFlushTimer_canonical h
  | evrFlush => exact execEvrFlush_canonical h
  | evrFlushDone => exact execEvrFlushDone_canonical h
  | evrFlushRequest => exact execEvrFlushRequest_canonical h
  | evrRestore => exact execEvrRestore_canonical h
  | evrRead => exact execEvrRead_canonical h
  | opsecTick => exact execOpsecTick_canonical h
  | leaseEnable => exact execLeaseEnable_canonical h
  | leaseDisable => exact execLeaseDisable_canonical h
  | helloSend => exact execHelloSend_canonical h
  | hello => exact execHello_canonical h
  | pairLinkDown => exact execPairLinkDown_canonical h
  | renewSend => exact execRenewSend_canonical h
  | renew => exact execRenew_canonical h
  | grant => exact execGrant_canonical h
  | leaseExpiry => exact execLeaseExpiry_canonical h
  | takeoverTime => exact execTakeoverTime_canonical h
  | takeoverComplete => exact execTakeoverComplete_canonical h
  | page => exact execPage_canonical h
  | verified => exact execVerified_canonical h
  | partnerFail => exact execPartnerFail_canonical h
  | pairRelease => exact execPairRelease_canonical h
  | reserve => exact execReserve_canonical h
  | settings => exact execSettings_canonical h
  | health => exact execHealth_canonical h
  | healthSend => exact execHealthSend_canonical h
  | catchup => exact execCatchup_canonical h
  | salvage => exact execSalvage_canonical h
  | salvageDone => exact execSalvageDone_canonical h
  | standbyTestStep => exact execStandbyTestStep_canonical h
  | standbyTestEnd => exact execStandbyTestEnd_canonical h
  | forceActive => exact execForceActive_canonical h
  | stayOut => exact execStayOut_canonical h
  | rejoin => exact execRejoin_canonical h
  | campaignStart => exact execCampaignStart_canonical h
  | imageBlockBroadcast => exact execImageBlockBroadcast_canonical h
  | imageVerifyPoll => exact execImageVerifyPoll_canonical h
  | imageActivate => exact execImageActivate_canonical h
  | qspiRead => exact execQspiRead_canonical h
  | qspiProgram => exact execQspiProgram_canonical h
  | qspiErase => exact execQspiErase_canonical h
  | qspiCommandDone => exact execQspiCommandDone_canonical h
  | domainTargetOn => exact execDomainTargetOn_canonical h
  | domainTargetOff => exact execDomainTargetOff_canonical h
  | domainTargetRet => exact execDomainTargetRet_canonical h
  | domainOnComplete => exact execDomainOnComplete_canonical h
  | domainOnFail => exact execDomainOnFail_canonical h
  | domainRetry => exact execDomainRetry_canonical h
  | sleep => exact execSleep_canonical h
  | wake => exact execWake_canonical h
  | wakePortMatch => exact execWakePortMatch_canonical h
  | wakeStretchTimeout => exact execWakeStretchTimeout_canonical h
  | powerFail => exact execPowerFail_canonical h
  | powerFailDone => exact execPowerFailDone_canonical h
  | powerReturn => exact execPowerReturn_canonical h
  | powerOnReset => exact execPowerOnReset_canonical h
  | resetPin => exact execResetPin_canonical h
  | rstChip => exact execRstChip_canonical h
  | chipReset => exact execChipReset_canonical h
  | boot => exact execBoot_canonical h
  | startUp => exact execStartUp_canonical h
  | refMonitorWindow => exact execRefMonitorWindow_canonical h
  | refLost => exact execRefLost_canonical h
  | dbgLineReset => exact execDbgLineReset_canonical h
  | dbgNop => exact execDbgNop_canonical h
  | dbgIdcode => exact execDbgIdcode_canonical h
  | dbgStatus => exact execDbgStatus_canonical h
  | dbgRead => exact execDbgRead_canonical h
  | dbgWrite => exact execDbgWrite_canonical h
  | dbgHalt => exact execDbgHalt_canonical h
  | dbgRun => exact execDbgRun_canonical h
  | dbgStep => exact execDbgStep_canonical h
  | dbgNewchal => exact execDbgNewchal_canonical h
  | dbgChal => exact execDbgChal_canonical h
  | dbgResp => exact execDbgResp_canonical h
  | dbgAuth => exact execDbgAuth_canonical h
  | dbgAuthComplete => exact execDbgAuthComplete_canonical h
  | dbgReset => exact execDbgReset_canonical h
  | lanyardBreakpoint => exact execLanyardBreakpoint_canonical h
  | ringEnable => exact execRingEnable_canonical h
  | ringDoorbellH2d => exact execRingDoorbellH2d_canonical h
  | ringDoorbellD2h => exact execRingDoorbellD2h_canonical h
  | ringWriteBack => exact execRingWriteBack_canonical h
  | ringIrqTimer => exact execRingIrqTimer_canonical h
  | dmaError => exact execDmaError_canonical h
  | ringReset =>
    unfold exec
    exact execRingReset_canonical h
  | perstAssert => exact execPerstAssert_canonical h
  | perstDeassert => exact execPerstDeassert_canonical h
  | pcieLinkChange => exact execPcieLinkChange_canonical h
  | msixMessage => exact execMsixMessage_canonical h
  | msixUnmask => exact execMsixUnmask_canonical h
  | ethFrameReceived => exact execEthFrameReceived_canonical h
  | neighbourAdvertisement => exact execNeighbourAdvertisement_canonical h
  | ethTransmit => exact execEthTransmit_canonical h
  | ethLinkChange => exact execEthLinkChange_canonical h
  | ethNcFlush => exact execEthNcFlush_canonical h
  | mdioAccess => exact execMdioAccess_canonical h
  | hdlcFrameReceived => exact execHdlcFrameReceived_canonical h
  | hdlcPoll => exact execHdlcPoll_canonical h
  | hdlcResponseTimeout => exact execHdlcResponseTimeout_canonical h
  | hdlcByteGapAbort => exact execHdlcByteGapAbort_canonical h
  | uartTransmit => exact execUartTransmit_canonical h
  | stationCommit => exact execStationCommit_canonical h
  | stationLoad => exact execStationLoad_canonical h
  | sbusSlotRead => exact execSbusSlotRead_canonical h
  | pmxClaim => exact execPmxClaim_canonical h
  | pmxRelease => exact execPmxRelease_canonical h
  | gpioEdge => exact execGpioEdge_canonical h
  | timerExpiry => exact execTimerExpiry_canonical h
  | ppsConfigWrite => exact execPpsConfigWrite_canonical h
  | pllUnlock => exact execPllUnlock_canonical h
  | laneDown => exact execLaneDown_canonical h
  | vbatMeasurement => exact execVbatMeasurement_canonical h
  | channelStuckEnd => exact execChannelStuckEnd_canonical h

theorem step_canonical (h : s.Canonical) : ResCanonical (step s) := by
  unfold step
  split
  · exact .next h.tick
  · exact exec_canonical h.withPending

end

/-- Settles O5: the tick and each command are built from operations that keep the tables canonical. -/
theorem everyStepKeepsTablesCanonical : Obligations.EveryStepKeepsTablesCanonical := by
  unfold Obligations.EveryStepKeepsTablesCanonical
  intro s t h ht
  exact step_canonical h t ht

end Sys2Proof.Machine
end
